-- ==== Sys2Proof/Word.lean ====
section
/-! DEFINITION. The byte of the link (R181, R182) and the moduli at which the part's counters wrap (R140, R184, R89). -/

namespace Sys2Proof

/-- One byte on a link. -/
abbrev Byte := BitVec 8

/-- The run clock holds 0..4294967295 s and then wraps to 0 (R140). -/
def clockModulus : Nat := 4294967296

/-- Acceptance order, draw number and regeneration count hold 0..65535 and then wrap to 0 (R184, R89, R51). -/
def wordModulus : Nat := 65536

/-- The second after `t` on a clock that wraps (R140). -/
def clockSucc (t : Nat) : Nat := (t + 1) % clockModulus

/-- Seconds from `since` to `now`, taken modulo 4294967296 (R16, R18). -/
def clockElapsed (now since : Nat) : Nat := (now + clockModulus - since) % clockModulus

/-- The number after `n` on a counter of 0..65535 (R184, R89, R51). -/
def wordSucc (n : Nat) : Nat := (n + 1) % wordModulus

/-- The smallest integer not less than `a / b` (introduction 1.6, "Ceil"). -/
def ceilDiv (a b : Nat) : Nat := (a + b - 1) / b

end Sys2Proof
end

