-- ==== Sys2Proof/Config.lean ====
section
/-! DEFINITION. What every VB-412 fixes (the constants the rules state) and the one free value of the model.
The configuration TABLE of R189 is state that boards write: it stands in State, not here. -/

namespace Sys2Proof

/-- FREE VALUE (notes/assumptions/1.md). Where the manual lets either of two things of ONE step come first
(R11: which of two conflicting resources is granted first; R46, R47: in which order a reading that reaches a HEAT's
target, the trip it latches and the expiry of another HEAT's limit are taken), the `n`-th such choice of a run is this
constant's value at `n`, `n` being the counter `State.choice`. -/
opaque Config.freeChoice : Nat → Nat

/-- Drive periods in one second (R140: every 50th period end raises the run clock). -/
def Config.periodsPerSecond : Nat := 50

/-- A selector travel times out after 400 periods, 8 s (R24, R150). -/
def Config.travelPeriods : Nat := 400

/-- A dose stroke runs 15 periods, 300 ms (R148). -/
def Config.strokePeriods : Nat := 15

/-- The fixed level at which the rod motor retracts (R147). -/
def Config.retractLevel : Nat := 128

/-- A WATCH round is begun 100 drive periods, 2 s, after the last (R127). -/
def Config.watchPeriods : Nat := 100

/-- Drive periods in one unit, 0.1 s, of an age or a stroke interval (R106, R130). -/
def Config.periodsPerTenth : Nat := 5

/-- The over-temperature condition ends 5.0 °C, 50 units, below OVERTEMP_LIMIT (R44). -/
def Config.overtempHysteresis : Nat := 50

/-- Responses to immediate requests and refusals that one transmit queue holds (R182). -/
def Config.immediateResponses : Nat := 8

/-- A NORMAL-ring port is accepted only while this many pool slots are free (R184). -/
def Config.normalReserve : Nat := 3

/-- An URGENT-ring port holds at most this many pool slots (R184). -/
def Config.urgentShare : Nat := 5

/-- The kind of every response frame (R182). -/
def Config.responseKind : Nat := 0x80

/-- Draw records the log holds (R89). -/
def Config.drawLogLength : Nat := 16

/-- Draw records one READ_DRAWS response carries at most (R90). -/
def Config.drawsPerResponse : Nat := 8

end Sys2Proof
end

