-- ==== Sys2Proof/Syntax.lean ====
section
/-! DEFINITION. The commands of the block: one constructor of `Instr` for each row of spec/opcode_table.json, with the
row's operands. Request rows carry the parameters of the request's body as the numbers received (R190); the steps
of the part's own clock carry what the outside world adds to them (switch readings, a probe reading, a count). -/

namespace Sys2Proof

/-- The three link ports L1, L2, L3 (1.3). -/
inductive Port where
  | l1 | l2 | l3
deriving DecidableEq, Repr

/-- The two softener columns (R51). -/
inductive Column where
  | a | b
deriving DecidableEq, Repr

/-- The two ramp generators (R145). -/
inductive RampGen where
  | circ | doorDrive
deriving DecidableEq, Repr

/-- The two causes of a push stall (R160); where both fall at one period end, the one taken first is named. -/
inductive StallCause where
  | maxHold | timeout
deriving DecidableEq, Repr

/-- The end switches read at the release of a device reset (R2, R156); `true` is closed. -/
structure ResetReadings where
  selA : Bool
  selB : Bool
  rodRet : Bool
  rodExt : Bool
deriving DecidableEq, Repr

/-- What the part reads at a drive period end: the selector switches (R150), the rod switches (R147), the door switch
(R154), `true` being closed, and the probe in units of 0.1 °C (R44). -/
structure PeriodReadings where
  selA : Bool
  selB : Bool
  rodRet : Bool
  rodExt : Bool
  doorSw : Bool
  probe : Int
deriving DecidableEq, Repr

/-- The payload of a CONFIG_WRITE (R189): a 2-byte value, or the bands of one of the two tables. -/
inductive ConfigPayload where
  | value (v : Nat)
  | hardnessBands (bands : List (Nat × Nat))
  | factorBands (bands : List (Nat × Nat))
deriving DecidableEq, Repr

/-- A dose descriptor as DESC_WRITE gives it and the table keeps it (R93, R190): every field the number received,
because a write with reservoir 0 is stored as given without range checks (R94). Link NONE is 255. -/
structure Desc where
  reservoir : Nat
  mode : Nat
  baseCount : Nat
  blockLength : Nat
  scale : Nat
  interval : Nat
  source : Nat
  delay : Nat
  sourceChannel : Nat
  needsWater : Nat
  link : Nat
  endReport : Nat
deriving DecidableEq, Repr

/-- The two forms of a SENSE_TABLE_WRITE (R136, R190). A slot that holds NONE is 255. -/
inductive SensePayload where
  | point (point role trim threshold direction debounce hop : Nat)
  | group (group slot0 slot1 slot2 slot3 : Nat)
deriving DecidableEq, Repr

/-- The commands, in the order of the opcode table. -/
inductive Instr where
  -- resets, the receiver and the transmitter (chapters 7 and 10)
  | deviceReset (r : ResetReadings)
  | breakLine (p : Port)
  | lineIdle (p : Port)
  | frameError (p : Port)
  | frameGapTimeout (p : Port) (taken : Nat)
  | overlong (p : Port) (length : Nat)
  | checkError (p : Port) (covered : List Nat) (check : Nat)
  | transmitQueueFull (p : Port)
  | badRequest (p : Port) (kind tag : Nat) (body : List Nat)
  | responseSent (p : Port)
  -- setup (chapters 4 and 10)
  | configWrite (p : Port) (tag item index : Nat) (payload : ConfigPayload)
  | configRead (p : Port) (tag item index : Nat)
  | accountLoad (p : Port) (tag target amount columnState : Nat)
  | commit (p : Port) (tag : Nat)
  | enterSetup (p : Port) (tag : Nat)
  -- operations and the requests beside them (chapters 2, 3 and 8)
  | fill (p : Port) (tag volume : Nat)
  | circulate (p : Port) (tag duty runTime : Nat)
  | circSpeed (p : Port) (tag circTag duty : Nat)
  | heat (p : Port) (tag target limit : Nat)
  | drain (p : Port) (tag : Nat)
  | regenerate (p : Port) (tag column : Nat)
  | doorPush (p : Port) (tag : Nat)
  | dry (p : Port) (tag delay ajar : Nat)
  | doorReset (p : Port) (tag : Nat)
  -- dosing (chapter 5)
  | descWrite (p : Port) (tag number : Nat) (desc : Desc)
  | descRead (p : Port) (tag number : Nat)
  | doseArm (p : Port) (tag channel number : Nat)
  | doseTrigger (p : Port) (tag channel : Nat)
  | doseClearTrigger (p : Port) (tag channel : Nat)
  | doseStop (p : Port) (tag channel : Nat)
  | doseResume (p : Port) (tag channel : Nat)
  | doseDisarm (p : Port) (tag channel : Nat)
  | doseStatus (p : Port) (tag channel : Nat)
  -- sensing (chapter 6)
  | senseRead (p : Port) (tag point maxAge : Nat)
  | senseMode (p : Port) (tag mode : Nat)
  | senseTableWrite (p : Port) (tag : Nat) (payload : SensePayload)
  | senseTableRead (p : Port) (tag form number : Nat)
  -- reading, faults and the link itself (chapters 4, 9, 10 and 11)
  | status (p : Port) (tag sec : Nat)
  | accountsRead (p : Port) (tag : Nat)
  | readDraws (p : Port) (tag start : Nat)
  | faultRead (p : Port) (tag : Nat)
  | faultClear (p : Port) (tag groups : Nat)
  | tripClear (p : Port) (tag : Nat)
  | cancel (p : Port) (tag target : Nat)
  | portReset (p : Port) (tag : Nat)
  | subscribe (p : Port) (tag slot filter mask enable : Nat)
  | fetchEvents (p : Port) (tag : Nat)
  -- steps of the part's own time base, inputs and generators
  | drivePeriodEnd (r : PeriodReadings)
  | runClockSecond
  | rampStep (g : RampGen)
  | selectorArrival
  | selectorTimeout
  | flowPulse
  | decilitreCounted
  | fillNoFlowTimeout
  | circulateRunEnd
  | heatLimitExpiry (slot : Fin 12)
  | drainPostrunEnd
  | drainLimitExpiry
  | regenHeadTaken
  | soakEnd
  | regenNoFlowTimeout
  | doseStrokeEnd (pump : Fin 3)
  | doseIntervalEnd (channel : Fin 4)
  | doseDelayExpiry (channel : Fin 4)
  | scanRoundStart (group : Fin 4)
  | measurementEnd (group : Fin 4) (count : Nat)
  | forcePostrunEnd
  | doorStateChange
  | rodExtended
  | rodHoldEnd
  | pushStall (cause : StallCause)
  | rodRetracted
  | retractTimeout
  | dryDelayEnd
  | dryAjarEnd
  | startByte (p : Port)
deriving DecidableEq, Repr

end Sys2Proof
end

