-- ==== Sys2Proof/WellFormed.lean ====
section
/-! DEFINITION. Which commands a board can send: every parameter fits the bytes R190 gives it, a band table has its
eight bands, a frame's body fits a frame (R181), a count fits the counter (R121). A value that fits its field but lies
outside its range is well formed: the owning rule judges it (R190). -/

namespace Sys2Proof

/-- A 1-byte parameter (R182). -/
def isByte (n : Nat) : Bool := n < 256

/-- A 2-byte parameter (R182). -/
def isWord (n : Nat) : Bool := n < 65536

/-- The payload has the length R190 gives the item: 8 bands of 3 bytes for item 0x22, 8 bands of 2 bytes for item
0x23, a 2-byte value for any other. -/
def ConfigPayload.wf (item : Nat) : ConfigPayload → Bool
  | .value v => isWord v && item != 0x22 && item != 0x23
  | .hardnessBands bs => item == 0x22 && bs.length == 8 && bs.all fun b => isWord b.1 && isByte b.2
  | .factorBands bs => item == 0x23 && bs.length == 8 && bs.all fun b => isByte b.1 && isByte b.2

/-- Every field of a descriptor fits its bytes (R190). -/
def Desc.wf (d : Desc) : Bool :=
  isByte d.reservoir && isByte d.mode && isWord d.baseCount && isByte d.blockLength && isByte d.scale &&
  isByte d.interval && isByte d.source && isWord d.delay && isByte d.sourceChannel && isByte d.needsWater &&
  isByte d.link && isByte d.endReport

/-- Every field of a SENSE_TABLE_WRITE fits its bytes (R190). -/
def SensePayload.wf : SensePayload → Bool
  | .point pt role trim threshold direction debounce hop =>
    isByte pt && isByte role && isWord trim && isWord threshold && isByte direction && isByte debounce && isByte hop
  | .group g a b c d => isByte g && isByte a && isByte b && isByte c && isByte d

/-- A well-formed command. -/
def Instr.wf : Instr → Bool
  | .deviceReset _ => true
  | .breakLine _ => true
  | .lineIdle _ => true
  | .frameError _ => true
  | .frameGapTimeout _ taken => taken < 125
  | .overlong _ length => isByte length
  | .checkError _ covered check => covered.length ≤ 123 && covered.all isByte && isWord check
  | .transmitQueueFull _ => true
  | .badRequest _ kind tag body => isByte kind && isByte tag && body.length ≤ 120 && body.all isByte
  | .responseSent _ => true
  | .configWrite _ tag item index payload => isByte tag && isByte item && isByte index && payload.wf item
  | .configRead _ tag item index => isByte tag && isByte item && isByte index
  | .accountLoad _ tag target amount st => isByte tag && isByte target && isWord amount && isByte st
  | .commit _ tag => isByte tag
  | .enterSetup _ tag => isByte tag
  | .fill _ tag volume => isByte tag && isByte volume
  | .circulate _ tag duty runTime => isByte tag && isByte duty && isWord runTime
  | .circSpeed _ tag circTag duty => isByte tag && isByte circTag && isByte duty
  | .heat _ tag target limit => isByte tag && isWord target && isWord limit
  | .drain _ tag => isByte tag
  | .regenerate _ tag column => isByte tag && isByte column
  | .doorPush _ tag => isByte tag
  | .dry _ tag delay ajar => isByte tag && isWord delay && isWord ajar
  | .doorReset _ tag => isByte tag
  | .descWrite _ tag number desc => isByte tag && isByte number && desc.wf
  | .descRead _ tag number => isByte tag && isByte number
  | .doseArm _ tag channel number => isByte tag && isByte channel && isByte number
  | .doseTrigger _ tag channel => isByte tag && isByte channel
  | .doseClearTrigger _ tag channel => isByte tag && isByte channel
  | .doseStop _ tag channel => isByte tag && isByte channel
  | .doseResume _ tag channel => isByte tag && isByte channel
  | .doseDisarm _ tag channel => isByte tag && isByte channel
  | .doseStatus _ tag channel => isByte tag && isByte channel
  | .senseRead _ tag point maxAge => isByte tag && isByte point && isByte maxAge
  | .senseMode _ tag mode => isByte tag && isByte mode
  | .senseTableWrite _ tag payload => isByte tag && payload.wf
  | .senseTableRead _ tag form number => isByte tag && isByte form && isByte number
  | .status _ tag sec => isByte tag && isByte sec
  | .accountsRead _ tag => isByte tag
  | .readDraws _ tag start => isByte tag && isWord start
  | .faultRead _ tag => isByte tag
  | .faultClear _ tag groups => isByte tag && isByte groups
  | .tripClear _ tag => isByte tag
  | .cancel _ tag target => isByte tag && isByte target
  | .portReset _ tag => isByte tag
  | .subscribe _ tag slot filter mask enable =>
    isByte tag && isByte slot && isByte filter && isByte mask && isByte enable
  | .fetchEvents _ tag => isByte tag
  | .drivePeriodEnd r => -32768 ≤ r.probe && r.probe < 32768
  | .runClockSecond => true
  | .rampStep _ => true
  | .selectorArrival => true
  | .selectorTimeout => true
  | .flowPulse => true
  | .decilitreCounted => true
  | .fillNoFlowTimeout => true
  | .circulateRunEnd => true
  | .heatLimitExpiry _ => true
  | .drainPostrunEnd => true
  | .drainLimitExpiry => true
  | .regenHeadTaken => true
  | .soakEnd => true
  | .regenNoFlowTimeout => true
  | .doseStrokeEnd _ => true
  | .doseIntervalEnd _ => true
  | .doseDelayExpiry _ => true
  | .scanRoundStart _ => true
  | .measurementEnd _ count => isWord count
  | .forcePostrunEnd => true
  | .doorStateChange => true
  | .rodExtended => true
  | .rodHoldEnd => true
  | .pushStall _ => true
  | .rodRetracted => true
  | .retractTimeout => true
  | .dryDelayEnd => true
  | .dryAjarEnd => true
  | .startByte _ => true

end Sys2Proof
end

