-- ==== Sys2Proof/Decode.lean ====
section
/-! DEFINITION. Frames and requests as bytes (R181, R190), and `decodeTableWord`.
The opcode table gives no row any bits, so `decodeTableWord` answers none; what the part itself decodes is a request
frame's kind and body, and `decodeRequest` and `encodeRequest` are written from the table of R190. -/

namespace Sys2Proof

/-- The command a word of the opcode table's bits spells: no row gives bits. -/
def decodeTableWord (_nbits _w : Nat) : Option Instr := none

/-- A 2-byte value, low byte first (R182). -/
def wordOf (lo hi : Nat) : Nat := lo + 256 * hi

/-- The two bytes of a value, low byte first (R182). -/
def wordBytes (n : Nat) : List Nat := [n % 256, n / 256]

/-- The bands of the hardness table: a count limit of 2 bytes, a hardness of 1 byte (R189). -/
def parseHardnessBands : List Nat → Option (List (Nat × Nat))
  | [] => some []
  | lo :: hi :: h :: rest => (parseHardnessBands rest).map ((wordOf lo hi, h) :: ·)
  | _ => none

/-- The bands of the dose factor table: a hardness limit of 1 byte, a factor of 1 byte (R189). -/
def parseFactorBands : List Nat → Option (List (Nat × Nat))
  | [] => some []
  | l :: f :: rest => (parseFactorBands rest).map ((l, f) :: ·)
  | _ => none

/-- Eight bands, or no table. -/
def eightBands (bands : Option (List (Nat × Nat))) : Option (List (Nat × Nat)) :=
  bands.bind fun bs => if bs.length = 8 then some bs else none

/-- The payload of a CONFIG_WRITE: 4, 26 or 18 bytes with the item code and index (R190). -/
def parseConfigPayload (item : Nat) (body : List Nat) : Option ConfigPayload :=
  if item = 0x22 then (eightBands (parseHardnessBands body)).map .hardnessBands
  else if item = 0x23 then (eightBands (parseFactorBands body)).map .factorBands
  else match body with
    | [lo, hi] => some (.value (wordOf lo hi))
    | _ => none

/-- The request that a frame's kind, tag and body spell, or none where the kind is no request code or the body has
another length than the request calls for (R183 case 1, R190). -/
def decodeRequest (p : Port) (kind tag : Nat) (body : List Nat) : Option Instr :=
  match kind, body with
  | 0x01, item :: index :: rest => (parseConfigPayload item rest).map (.configWrite p tag item index)
  | 0x02, [item, index] => some (.configRead p tag item index)
  | 0x03, [target, lo, hi, st] => some (.accountLoad p tag target (wordOf lo hi) st)
  | 0x04, [] => some (.commit p tag)
  | 0x05, [] => some (.enterSetup p tag)
  | 0x10, [volume] => some (.fill p tag volume)
  | 0x11, [duty, lo, hi] => some (.circulate p tag duty (wordOf lo hi))
  | 0x12, [circTag, duty] => some (.circSpeed p tag circTag duty)
  | 0x13, [tl, th, ll, lh] => some (.heat p tag (wordOf tl th) (wordOf ll lh))
  | 0x14, [] => some (.drain p tag)
  | 0x18, [column] => some (.regenerate p tag column)
  | 0x1A, [] => some (.doorPush p tag)
  | 0x1B, [dl, dh, al, ah] => some (.dry p tag (wordOf dl dh) (wordOf al ah))
  | 0x1C, [] => some (.doorReset p tag)
  | 0x20, [n, r, m, bl, bh, k, s, i, t, dl, dh, c, w, l, e] =>
    some (.descWrite p tag n ⟨r, m, wordOf bl bh, k, s, i, t, wordOf dl dh, c, w, l, e⟩)
  | 0x21, [n] => some (.descRead p tag n)
  | 0x22, [c, n] => some (.doseArm p tag c n)
  | 0x23, [c] => some (.doseTrigger p tag c)
  | 0x24, [c] => some (.doseClearTrigger p tag c)
  | 0x25, [c] => some (.doseStop p tag c)
  | 0x26, [c] => some (.doseResume p tag c)
  | 0x27, [c] => some (.doseDisarm p tag c)
  | 0x28, [c] => some (.doseStatus p tag c)
  | 0x2C, [pt, age] => some (.senseRead p tag pt age)
  | 0x2D, [mode] => some (.senseMode p tag mode)
  | 0x2E, [0, pt, role, tl, th, hl, hh, dir, deb, hop] =>
    some (.senseTableWrite p tag (.point pt role (wordOf tl th) (wordOf hl hh) dir deb hop))
  | 0x2E, [1, g, a, b, c, d] => some (.senseTableWrite p tag (.group g a b c d))
  | 0x2F, [form, n] => some (.senseTableRead p tag form n)
  | 0x30, [sec] => some (.status p tag sec)
  | 0x31, [] => some (.accountsRead p tag)
  | 0x32, [lo, hi] => some (.readDraws p tag (wordOf lo hi))
  | 0x34, [] => some (.faultRead p tag)
  | 0x35, [groups] => some (.faultClear p tag groups)
  | 0x36, [] => some (.tripClear p tag)
  | 0x38, [t] => some (.cancel p tag t)
  | 0x39, [] => some (.portReset p tag)
  | 0x3C, [slot, filter, mask, enable] => some (.subscribe p tag slot filter mask enable)
  | 0x3D, [] => some (.fetchEvents p tag)
  | _, _ => none

/-- The bytes of a CONFIG_WRITE's payload (R189, R190). -/
def ConfigPayload.bytes : ConfigPayload → List Nat
  | .value v => wordBytes v
  | .hardnessBands bs => bs.flatMap fun b => wordBytes b.1 ++ [b.2]
  | .factorBands bs => bs.flatMap fun b => [b.1, b.2]

/-- The body of a DESC_WRITE after the descriptor number (R190). -/
def Desc.bytes (d : Desc) : List Nat :=
  [d.reservoir, d.mode] ++ wordBytes d.baseCount ++ [d.blockLength, d.scale, d.interval, d.source] ++
    wordBytes d.delay ++ [d.sourceChannel, d.needsWater, d.link, d.endReport]

/-- The body of a SENSE_TABLE_WRITE, its form byte first (R190). -/
def SensePayload.bytes : SensePayload → List Nat
  | .point pt role trim threshold direction debounce hop =>
    [0, pt, role] ++ wordBytes trim ++ wordBytes threshold ++ [direction, debounce, hop]
  | .group g a b c d => [1, g, a, b, c, d]

/-- The port, tag, kind and body of the frame that carries a request command (R181, R190), none for a command that is
no request. -/
def encodeRequest : Instr → Option (Port × Nat × Nat × List Nat)
  | .configWrite p tag item index payload => some (p, tag, 0x01, item :: index :: payload.bytes)
  | .configRead p tag item index => some (p, tag, 0x02, [item, index])
  | .accountLoad p tag target amount st => some (p, tag, 0x03, target :: wordBytes amount ++ [st])
  | .commit p tag => some (p, tag, 0x04, [])
  | .enterSetup p tag => some (p, tag, 0x05, [])
  | .fill p tag volume => some (p, tag, 0x10, [volume])
  | .circulate p tag duty runTime => some (p, tag, 0x11, duty :: wordBytes runTime)
  | .circSpeed p tag circTag duty => some (p, tag, 0x12, [circTag, duty])
  | .heat p tag target limit => some (p, tag, 0x13, wordBytes target ++ wordBytes limit)
  | .drain p tag => some (p, tag, 0x14, [])
  | .regenerate p tag column => some (p, tag, 0x18, [column])
  | .doorPush p tag => some (p, tag, 0x1A, [])
  | .dry p tag delay ajar => some (p, tag, 0x1B, wordBytes delay ++ wordBytes ajar)
  | .doorReset p tag => some (p, tag, 0x1C, [])
  | .descWrite p tag n d => some (p, tag, 0x20, n :: d.bytes)
  | .descRead p tag n => some (p, tag, 0x21, [n])
  | .doseArm p tag c n => some (p, tag, 0x22, [c, n])
  | .doseTrigger p tag c => some (p, tag, 0x23, [c])
  | .doseClearTrigger p tag c => some (p, tag, 0x24, [c])
  | .doseStop p tag c => some (p, tag, 0x25, [c])
  | .doseResume p tag c => some (p, tag, 0x26, [c])
  | .doseDisarm p tag c => some (p, tag, 0x27, [c])
  | .doseStatus p tag c => some (p, tag, 0x28, [c])
  | .senseRead p tag pt age => some (p, tag, 0x2C, [pt, age])
  | .senseMode p tag mode => some (p, tag, 0x2D, [mode])
  | .senseTableWrite p tag payload => some (p, tag, 0x2E, payload.bytes)
  | .senseTableRead p tag form n => some (p, tag, 0x2F, [form, n])
  | .status p tag sec => some (p, tag, 0x30, [sec])
  | .accountsRead p tag => some (p, tag, 0x31, [])
  | .readDraws p tag start => some (p, tag, 0x32, wordBytes start)
  | .faultRead p tag => some (p, tag, 0x34, [])
  | .faultClear p tag groups => some (p, tag, 0x35, [groups])
  | .tripClear p tag => some (p, tag, 0x36, [])
  | .cancel p tag t => some (p, tag, 0x38, [t])
  | .portReset p tag => some (p, tag, 0x39, [])
  | .subscribe p tag slot filter mask enable => some (p, tag, 0x3C, [slot, filter, mask, enable])
  | .fetchEvents p tag => some (p, tag, 0x3D, [])
  | .deviceReset _ => none
  | .breakLine _ => none
  | .lineIdle _ => none
  | .frameError _ => none
  | .frameGapTimeout _ _ => none
  | .overlong _ _ => none
  | .checkError _ _ _ => none
  | .transmitQueueFull _ => none
  | .badRequest _ _ _ _ => none
  | .responseSent _ => none
  | .drivePeriodEnd _ => none
  | .runClockSecond => none
  | .rampStep _ => none
  | .selectorArrival => none
  | .selectorTimeout => none
  | .flowPulse => none
  | .decilitreCounted => none
  | .fillNoFlowTimeout => none
  | .circulateRunEnd => none
  | .heatLimitExpiry _ => none
  | .drainPostrunEnd => none
  | .drainLimitExpiry => none
  | .regenHeadTaken => none
  | .soakEnd => none
  | .regenNoFlowTimeout => none
  | .doseStrokeEnd _ => none
  | .doseIntervalEnd _ => none
  | .doseDelayExpiry _ => none
  | .scanRoundStart _ => none
  | .measurementEnd _ _ => none
  | .forcePostrunEnd => none
  | .doorStateChange => none
  | .rodExtended => none
  | .rodHoldEnd => none
  | .pushStall _ => none
  | .rodRetracted => none
  | .retractTimeout => none
  | .dryDelayEnd => none
  | .dryAjarEnd => none
  | .startByte _ => none

/-- One bit of the CRC: shift out the top bit, and take x^16+x^12+x^5+1 where it was set (introduction 1.6). -/
def crcBit (c : BitVec 16) : BitVec 16 := if c.msb then (c <<< 1) ^^^ 0x1021#16 else c <<< 1

/-- One byte of the CRC, most significant bit first: no reflection. -/
def crcByte (c : BitVec 16) (b : Nat) : BitVec 16 :=
  (List.range 8).foldl (fun x _ => crcBit x) (c ^^^ BitVec.ofNat 16 (b * 256))

/-- The check of a frame over its bytes from the length byte to the end of the body: initial value all ones, no final
inversion (introduction 1.6, R181). -/
def crc16 (covered : List Nat) : Nat := (covered.foldl crcByte 0xFFFF#16).toNat

/-- A frame on the line: start byte, length, kind, tag, body and check, low byte first (R181). -/
def frameBytes (kind tag : Nat) (body : List Nat) : List Nat :=
  let covered := [body.length + 2, kind, tag] ++ body
  0x5B :: covered ++ wordBytes (crc16 covered)

end Sys2Proof
end

