-- ==== Sys2Proof/Machine/State.lean ====
section
/-! DEFINITION. The state of the VB-412, block by block as the manual lays it out (INVENTORY.md, "State"), as plain
data; `Fault`, `Refusal`; and `State.reset`. -/

namespace Sys2Proof.Machine

/-! ### Names -/

/-- A place in the request pool (R184). -/
abbrev SlotId := Fin 12
/-- A sense point SP0..SP15 (6.1). -/
abbrev PointId := Fin 16
/-- A sense group G0..G3 (6.1). -/
abbrev GroupId := Fin 4
/-- A dose channel CH0..CH3 (R96). -/
abbrev ChannelId := Fin 4
/-- A reservoir R1..R3, numbered from 0 (R75). -/
abbrev ReservoirId := Fin 3
/-- A dose descriptor 0..31 (R93). -/
abbrev DescId := Fin 32
/-- A subscription slot 0..5 of a port (R193). -/
abbrev SubId := Fin 6

/-- The ten resources in table order (1.1); `dose n` is DOSE1..DOSE3. -/
inductive Resource where
  | selector | brine | inlet | circ | heater | drain | dose (n : ReservoirId) | doorDrive
deriving DecidableEq, Repr

/-- The lease states (R3). -/
inductive LeaseState where
  | free | moving | held | suspended | releasing
deriving DecidableEq, Repr

/-- The nine arbitrated identities and PROTECT (R7, R8). -/
inductive Ident where
  | port (p : Port) | regen | ch (c : ChannelId) | dry | protect
deriving DecidableEq, Repr

/-- The two rings (R9). -/
inductive Ring where
  | urgent | normal
deriving DecidableEq, Repr

/-- Part mode (R187). -/
inductive Mode where
  | setup | run
deriving DecidableEq, Repr

/-- Column states (R51). -/
inductive ColumnState where
  | inService | standby | exhausted | regenerating
deriving DecidableEq, Repr

/-- The outcome of a column's last regeneration (R51). -/
inductive LastOutcome where
  | none | full | weak | aborted
deriving DecidableEq, Repr

/-- Phases of a regeneration (R63). -/
inductive RegenPhase where
  | starting | brineDraw | soak | rinse
deriving DecidableEq, Repr

/-- The judgement of a SOAK (R63, R67). -/
inductive Judgement where
  | none | full | weak
deriving DecidableEq, Repr

/-- Purposes of a draw (R89). -/
inductive Purpose where
  | wash | brine | rinse
deriving DecidableEq, Repr

/-- Dose channel states (R96). -/
inductive ChannelState where
  | idle | armed | waitingPump | dosing | halted
deriving DecidableEq, Repr

/-- Halt causes (R96). -/
inductive HaltCause where
  | none | empty | door | trip | stop
deriving DecidableEq, Repr

/-- The step of a channel in DOSING (R96). -/
inductive DoseStep where
  | none | stroke | interval | water
deriving DecidableEq, Repr

/-- Trigger sources (R93, R99). -/
inductive TriggerSource where
  | request | fillDone | heatDone | circulationStarted | delay | channelDone
deriving DecidableEq, Repr

/-- Roles of a sense point (R122). -/
inductive Role where
  | none | leak | tankMin | tankHigh
  | low (n : ReservoirId) | empty (n : ReservoirId) | saltLow
  | inletCond | softCond | brineCond
deriving DecidableEq, Repr

/-- Confirmed states of a point (R122). -/
inductive PointState where
  | unseen | clear | crossed
deriving DecidableEq, Repr

/-- What a measurement compares as, and the candidate of a debounce (R122, R123). -/
inductive Side where
  | clear | crossed
deriving DecidableEq, Repr

/-- Qualities of a measurement (R121). -/
inductive Quality where
  | valid | disturbed | fault
deriving DecidableEq, Repr

/-- Scan modes (R120, R124). -/
inductive ScanMode where
  | off | single | continuous | periodic | watch
deriving DecidableEq, Repr

/-- Rod states (R156). -/
inductive RodState where
  | retracted | extending | extended | retracting | stalled
deriving DecidableEq, Repr

/-- The two kinds of retract (R156). -/
inductive RetractKind where
  | lease | reset
deriving DecidableEq, Repr

/-- Phases of a DRY; a DOOR_PUSH uses WAIT_QUIET while it is ACQUIRING and PUSHING from its grant (R159, R164). -/
inductive DoorPhase where
  | delay | waitQuiet | pushing | ajar
deriving DecidableEq, Repr

/-- States of the forced drain (R170). -/
inductive ForceState where
  | off | forcing | postrun
deriving DecidableEq, Repr

/-- Causes of a trip (R170). -/
inductive TripCause where
  | flood | overfill | overtemp
deriving DecidableEq, Repr

/-- Fault groups (R176). -/
inductive FaultGroup where
  | link | sense | actuator | water | protect
deriving DecidableEq, Repr

/-- Fault kinds (R176). -/
inductive FaultKind where
  | checkError | frameError | overlong | gateFault | tempProbe | selectorTimeout | pushStall | retractTimeout
  | noFlow | drainSlow | flowWhileClosed | flood | overfill | overtemp
deriving DecidableEq, Repr

/-- Event reports (R192). -/
inductive Event where
  | circulationStarted | heatReached | columnExhausted | columnInService | regenStarted | regenEnded | saltNeeded
  | levelLow | reservoirEmpty | reservoirRefilled | saltLow | saltRefilled | hardnessChanged
  | doseDescDone | doseHalted | senseChanged | doorOpened | doorClosed | rodStalled | trip | tripCleared | faultCaptured
deriving DecidableEq, Repr

/-- Outcome codes (10.6). -/
inductive OutcomeCode where
  | ok | done | retry | busy | state | badRequest | badParam | badConfig | tagInUse | unknownTag | notReady | wrongMode
  | cancelled | tripped | timeout | limit | noWater | selectorFault | probeFault | stalled | closedEarly
deriving DecidableEq, Repr

/-- Slot states of the request pool (R184). -/
inductive SlotState where
  | queued | acquiring | active | waitSoft | ending
deriving DecidableEq, Repr

/-! ### Time spans -/

/-- A time span in drive periods (R28, R140): the periods passed, and whether it had passed its limit at the last period
end and the step that takes it is still to come (notes/assumptions/23.md). -/
structure Timer where
  passed : Nat
  due : Bool
deriving DecidableEq, Repr

/-- A span just started. -/
def Timer.zero : Timer := ⟨0, false⟩

/-! ### Resource Arbiter (chapter 1) -/

/-- A holder or requester: an identity, with a pool slot where the work is a port operation (1.3). -/
structure Holder where
  ident : Ident
  slot : Option SlotId
deriving DecidableEq, Repr

/-- A waiter record (R1). `serial` is the age of the slot's acceptance order, across its wraps (notes/assumptions/19.md);
`barred`, of a DOOR_DRIVE waiter: guarded holders have kept it out, so the door priority is in force (R17). -/
structure Waiter where
  who : Holder
  serial : Nat
  want : Option Column
  barred : Bool
deriving DecidableEq, Repr

/-- One entry of the resource table (R1). `holderPort` is the port of a holder that is a port operation (R26); a RELEASING
lease keeps it when the slot has been freed (R3). -/
structure Entry where
  lease : LeaseState
  holder : Option Holder
  holderPort : Option Port
  grantTime : Nat
  yieldRequested : Bool
  rrUrgent : Option Ident
  rrNormal : Option Ident
  lastRelease : Option (Ident × Nat)
  waiters : List Waiter
deriving DecidableEq, Repr

/-- An entry after a device reset (R2). -/
def Entry.reset : Entry :=
  { lease := .free, holder := none, holderPort := none, grantTime := 0, yieldRequested := false, rrUrgent := none, rrNormal := none,
    lastRelease := none, waiters := [] }

/-- The resource table and the two further fields of SELECTOR (R1); current position `none` is UNKNOWN. -/
structure Arbiter where
  table : Vector Entry 10
  selCurrent : Option Column
  selHeld : Column
deriving DecidableEq, Repr

/-! ### The request pool (R184) and the work of its operations -/

/-- A FILL beside its slot record (2.3). -/
structure FillWork where
  requested : Nat
  counted : Nat
  pulses : Nat
  softA : Nat
  softB : Nat
  bypass : Nat
  lastHardness : Nat
  noFlow : Timer
  waitSoft : Bool
deriving DecidableEq, Repr

/-- A CIRCULATE (R41): `run` counts periods with CIRC HELD. -/
structure CircWork where
  duty : Nat
  runTime : Nat
  run : Timer
  started : Bool
deriving DecidableEq, Repr

/-- A HEAT (R46): the limit runs from the first grant, which `granted` records. -/
structure HeatWork where
  target : Nat
  limit : Nat
  passed : Timer
  granted : Bool
deriving DecidableEq, Repr

/-- A DRAIN (R48, R49): the limit runs from the grant; `postrun` is none outside a post-run. -/
structure DrainWork where
  limit : Timer
  postrun : Option Timer
deriving DecidableEq, Repr

/-- A DOOR_PUSH or DRY (R159, R164); `heldBack` is the hold-back of R162. `fixed` holds the result fields of the response
but the rod state of a DOOR_PUSH, at their values when the outcome was fixed (R169, R190), and is empty before. -/
structure DoorWork where
  delay : Nat
  ajar : Nat
  phase : DoorPhase
  delayPassed : Timer
  ajarPassed : Timer
  pushed : Bool
  seenOpen : Bool
  heldBack : Bool
  fixed : List Byte
deriving DecidableEq, Repr

/-- The operation a slot holds: its kind, its parameters and its progress (R184). -/
inductive Work where
  | fill (w : FillWork)
  | circulate (w : CircWork)
  | heat (w : HeatWork)
  | drain (w : DrainWork)
  | regenerate (c : Column)
  | doorPush (w : DoorWork)
  | dry (w : DoorWork)
deriving DecidableEq, Repr

/-- A held slot (R184); `serial` is the acceptance order, 0..65535, `lap` how often it had wrapped
(notes/assumptions/19.md); `outcome` is none until it is fixed. -/
structure Slot where
  port : Port
  tag : Nat
  work : Work
  serial : Nat
  lap : Nat
  outcome : Option OutcomeCode
deriving DecidableEq, Repr

/-! ### Link Ports and Event Unit (chapters 10 and 11) -/

/-- Receiver states (R180); IN_FRAME with the bytes taken so far. -/
inductive RxState where
  | resync | synced | inFrame (count : Nat)
deriving DecidableEq, Repr

/-- A response made and not yet sent (R182). `immediate`: it answers an immediate request or is a refusal.
`makesReset`: it answers a PORT_RESET, whose reset is made when it has been sent (R186). -/
structure Response where
  tag : Nat
  body : List Byte
  immediate : Bool
  makesReset : Bool
deriving DecidableEq, Repr

/-- An event report (R192). -/
structure Report where
  code : Byte
  subject : Nat
  value : Nat
  time : Nat
deriving DecidableEq, Repr

/-- A subscription slot (R193); DISABLED is `enable = false`, HELD is a held report. -/
structure Sub where
  filter : Byte
  mask : Byte
  enable : Bool
  held : Option Report
  overrun : Bool
deriving DecidableEq, Repr

/-- A subscription slot after a device or port reset (R193). -/
def Sub.reset : Sub := { filter := 0, mask := 0, enable := false, held := none, overrun := false }

/-- One port's share of the part. -/
structure PortState where
  rx : RxState
  txq : List Response
  resetPending : Bool
  subs : Vector Sub 6
deriving DecidableEq, Repr

/-- A port after a device reset (R180, R182, R193). -/
def PortState.reset : PortState :=
  { rx := .resync, txq := [], resetPending := false, subs := Vector.replicate 6 Sub.reset }

/-- The three ports. -/
structure Ports where
  l1 : PortState
  l2 : PortState
  l3 : PortState
deriving DecidableEq, Repr

/-! ### Water Path Unit (chapter 2) -/

/-- The state the washing operations share (R32, R33, R44, R45). `probeRead`: a reading has been taken since the reset. -/
structure Water where
  tank : Nat
  tankKnown : Bool
  closedFlow : Nat
  closedTally : Nat
  temperature : Nat
  probeValid : Bool
  probeRead : Bool
  overTemp : Bool
  interlock : Bool
deriving DecidableEq, Repr

/-- R50. -/
def Water.reset : Water :=
  { tank := 0, tankKnown := false, closedFlow := 0, closedTally := 0, temperature := 0, probeValid := false,
    probeRead := false, overTemp := false, interlock := false }

/-! ### Softener Unit (chapter 3) -/

/-- A column record (R51); the rated capacity is the configuration item. `breakthrough` is the pending mark of R56,
with the slot of the fill that was flowing. -/
structure ColumnRec where
  state : ColumnState
  remaining : Nat
  count : Nat
  last : LastOutcome
  breakthrough : Option SlotId
deriving DecidableEq, Repr

/-- R52. -/
def ColumnRec.reset : ColumnRec :=
  { state := .exhausted, remaining := 0, count := 0, last := .none, breakthrough := none }

/-- A queue entry (3.4); the requester is REGEN (`none`) or the port and pool slot of a REGENERATE. -/
structure QueueEntry where
  column : Column
  requester : Option (Port × SlotId)
  joined : Nat
deriving DecidableEq, Repr

/-- The regeneration in progress (R63); `lastHardness` is the hardness in force at its last decilitre (R89). -/
structure Regen where
  column : Column
  requester : Option (Port × SlotId)
  phase : RegenPhase
  counted : Nat
  pulses : Nat
  noFlow : Timer
  soak : Timer
  brineSeen : Bool
  judgement : Judgement
  brineStarted : Bool
  rinseStarted : Bool
  cancelPending : Bool
  lastHardness : Nat
deriving DecidableEq, Repr

/-- The Softener Unit; `saltWait` is the wait for salt of R62. -/
structure Softener where
  colA : ColumnRec
  colB : ColumnRec
  queue : List QueueEntry
  regen : Option Regen
  saltWait : Bool
deriving DecidableEq, Repr

/-- R52. -/
def Softener.reset : Softener :=
  { colA := ColumnRec.reset, colB := ColumnRec.reset, queue := [], regen := none, saltWait := false }

/-! ### Account Unit (chapter 4) -/

/-- A reservoir account (R75). -/
structure Reservoir where
  amount : Nat
  known : Bool
  low : Bool
  empty : Bool
deriving DecidableEq, Repr

/-- The salt account (R83). -/
structure Salt where
  amount : Nat
  known : Bool
  low : Bool
deriving DecidableEq, Repr

/-- A draw record (R89). -/
structure DrawRecord where
  number : Nat
  purpose : Purpose
  softA : Nat
  softB : Nat
  bypass : Nat
  hardness : Nat
  outcome : OutcomeCode
  finish : Nat
deriving DecidableEq, Repr

/-- The Account Unit; `sensed` is the origin of the current hardness (R86). -/
structure Accounts where
  reservoirs : Vector Reservoir 3
  salt : Salt
  hardness : Nat
  sensed : Bool
  log : List DrawRecord
  nextDraw : Nat
deriving DecidableEq, Repr

/-- 4.7. -/
def Accounts.reset : Accounts :=
  { reservoirs := Vector.replicate 3 { amount := 0, known := false, low := false, empty := false },
    salt := { amount := 0, known := false, low := false }, hardness := 30, sensed := false, log := [], nextDraw := 0 }

/-! ### Dose Engine (chapter 5) -/

/-- A descriptor after a device reset (R93). -/
def descReset : Desc :=
  { reservoir := 0, mode := 0, baseCount := 0, blockLength := 0, scale := 0, interval := 0, source := 0, delay := 0,
    sourceChannel := 0, needsWater := 0, link := 255, endReport := 0 }

/-- A dose channel (R96). `delayArmed`: the DELAY trigger of the present load has still to arrive (R99); `delayDue`: the
delay left has reached 0 and DOSE_DELAY_EXPIRY is still to be taken. `interval` is the stroke interval's time (R106). -/
structure Channel where
  state : ChannelState
  cause : HaltCause
  current : Option DescId
  loaded : Nat
  completed : Nat
  started : Nat
  runLeft : Nat
  flag : Bool
  delayLeft : Nat
  delayArmed : Bool
  stopPending : Bool
  step : DoseStep
  interval : Timer
deriving DecidableEq, Repr

/-- R96. -/
def Channel.reset : Channel :=
  { state := .idle, cause := .none, current := none, loaded := 0, completed := 0, started := 0, runLeft := 0,
    flag := false, delayLeft := 0, delayArmed := false, stopPending := false, step := .none, interval := Timer.zero }

/-- The Dose Engine. -/
structure Dose where
  descs : Vector Desc 32
  channels : Vector Channel 4
deriving DecidableEq, Repr

/-- R93, R96. -/
def Dose.reset : Dose := { descs := Vector.replicate 32 descReset, channels := Vector.replicate 4 Channel.reset }

/-! ### Sense Scanner (chapter 6) -/

/-- A published result (R122); `sub` counts the periods of the age's present tenth of a second (R130). -/
structure Published where
  count : Nat
  quality : Quality
  age : Nat
  sub : Nat
deriving DecidableEq, Repr

/-- A sense point record (R122); `above` is direction ABOVE, `auto` hop setting AUTO. -/
structure Point where
  role : Role
  trim : Nat
  threshold : Nat
  above : Bool
  debounce : Nat
  auto : Bool
  state : PointState
  candidate : Option Side
  run : Nat
  inFault : Bool
  published : Option Published
  refresh : Bool
deriving DecidableEq, Repr

/-- R122. -/
def Point.reset : Point :=
  { role := .none, trim := 0, threshold := 0, above := false, debounce := 3, auto := false, state := .unseen,
    candidate := none, run := 0, inFault := false, published := none, refresh := false }

/-- A measurement in progress: the point, the slot (`none` is PRIORITY), whether a switching report fell in its window
(R128), whether a write has voided it (R136), and the alternate gate frequency in use, if one is (R129). -/
structure Measurement where
  point : PointId
  slot : Option (Fin 4)
  disturbed : Bool
  voided : Bool
  alternate : Option Nat
deriving DecidableEq, Repr

/-- A round in progress: the mode it began in, the slots still to measure of the map it began with, whether it is a
round of its own slots (not one of priority measurements alone), and the results that a PERIODIC round keeps for
its end (R124, R125, R135, R136). -/
structure Round where
  mode : ScanMode
  rest : List (Fin 4 × PointId)
  own : Bool
  results : List (PointId × Nat × Quality)
deriving DecidableEq, Repr

/-- A group record (R120). `next`: the mode taken at the round's end; `fresh`: the first round in a new mode
is owed (R124); `roundDue`, `refreshDue`: a round, or priority measurements, begin at this period's start (R125,
R135). -/
structure Group where
  map : Vector (Option PointId) 4
  mode : ScanMode
  round : Option Round
  measuring : Option Measurement
  hop : Nat
  roundsToPublish : Nat
  sinceStart : Nat
  singleDue : Bool
  fresh : Bool
  next : Option ScanMode
  refresh : List PointId
  roundDue : Bool
  refreshDue : Bool
deriving DecidableEq, Repr

/-- R120: the group's first electrode in slot 0. -/
def Group.reset (first : PointId) : Group :=
  { map := #v[some first, none, none, none], mode := .watch, round := none, measuring := none, hop := 0,
    roundsToPublish := 1, sinceStart := 0, singleDue := false, fresh := false, next := none,
    refresh := [], roundDue := false, refreshDue := false }

/-- The Sense Scanner. -/
structure Sense where
  points : Vector Point 16
  groups : Vector Group 4
  mode : ScanMode
deriving DecidableEq, Repr

/-- 6.8. -/
def Sense.reset : Sense :=
  { points := Vector.replicate 16 Point.reset,
    groups := #v[Group.reset 0, Group.reset 4, Group.reset 8, Group.reset 12], mode := .watch }

/-! ### Drive Unit (chapter 7) -/

/-- A setting record (R143). -/
structure Setting where
  active : Nat
  staged : Nat
  applyPending : Bool
deriving DecidableEq, Repr

/-- A ramp generator (R145); `due`: the step count reached the grade plus 1 at the last period end. -/
structure Ramp where
  level : Nat
  count : Nat
  due : Bool
deriving DecidableEq, Repr

/-- A stroke generator (R148). -/
structure Stroke where
  running : Bool
  count : Nat
deriving DecidableEq, Repr

/-- The Drive Unit. `rodExtend` is the direction EXTEND of ROD_M; `travelReading` is the last reading of SEL_A and SEL_B of
the travel in progress (R150); `postrun` is DRAIN_POSTRUN as it is in force in the present drive period (R28, R173). -/
structure Drive where
  period : Nat
  clock : Nat
  secondDue : Bool
  postrun : Nat
  circ : Setting
  door : Setting
  circRamp : Ramp
  doorRamp : Ramp
  rodExtend : Bool
  strokes : Vector Stroke 3
  travel : Option Timer
  travelReading : Option (Bool × Bool)
deriving DecidableEq, Repr

/-- A setting record with nothing set (R143, R152). -/
def Setting.zero : Setting := ⟨0, 0, false⟩
/-- A ramp generator at level 0 (R145, R152). -/
def Ramp.zero : Ramp := ⟨0, 0, false⟩

/-- R152. -/
def Drive.reset : Drive :=
  { period := 0, clock := 0, secondDue := false, postrun := 10, circ := Setting.zero, door := Setting.zero, circRamp := Ramp.zero,
    doorRamp := Ramp.zero, rodExtend := false, strokes := Vector.replicate 3 ⟨false, 0⟩, travel := none,
    travelReading := none }

/-! ### Door Unit (chapter 8) -/

/-- A filtered switch (R154, R156); `true` is closed. -/
structure Filter where
  value : Bool
  candidate : Bool
  agree : Nat
deriving DecidableEq, Repr

/-- The rod record (R156). `retRaw`, `extRaw`: the last raw readings (R147); `retEdge`, `extEdge`: the filtered switch became
closed at the last period end and the step that takes it is still to come; `maxHoldDue`: the max-hold count had reached
PUSH_MAXHOLD at the last period end. -/
structure Rod where
  state : RodState
  ret : Filter
  ext : Filter
  retRaw : Bool
  extRaw : Bool
  retEdge : Bool
  extEdge : Bool
  extend : Timer
  maxHold : Nat
  maxHoldDue : Bool
  hold : Timer
  retract : Option (RetractKind × Timer)
deriving DecidableEq, Repr

/-- The Door Unit; the door record's value `true` is CLOSED (R154). -/
structure Door where
  door : Filter
  rod : Rod
deriving DecidableEq, Repr

/-! ### Protection Unit (chapter 9) -/

/-- A fault record (R176). -/
structure FaultRecord where
  kind : FaultKind
  subject : Nat
  time : Nat
  detail : Nat
deriving DecidableEq, Repr

/-- The trip and force records, the fault groups and MULTIPLE (R170, R176). -/
structure Protection where
  flood : Bool
  overfill : Bool
  overtemp : Bool
  force : ForceState
  forceFlood : Bool
  forceOverfill : Bool
  postrun : Timer
  groups : Vector (Option FaultRecord) 5
  multiple : Bool
deriving DecidableEq, Repr

/-- R170, R176. -/
def Protection.reset : Protection :=
  { flood := false, overfill := false, overtemp := false, force := .off, forceFlood := false, forceOverfill := false,
    postrun := Timer.zero, groups := Vector.replicate 5 none, multiple := false }

/-! ### The configuration table (R189) -/

/-- The items of R189; `true` is URGENT for a ring, BYPASS for EXHAUST_POLICY, SENSED for HARDNESS_SOURCE and on for a switch.
SCAN_PERIOD is its place in the range column. -/
structure Settings where
  flowPulsesPerDl : Nat
  noFlowTimeout : Nat
  tankLimit : Nat
  drainPostrun : Nat
  drainLimit : Nat
  overtempLimit : Nat
  circRampGrade : Nat
  capRatedA : Nat
  capRatedB : Nat
  exhaustBypass : Bool
  autoRegen : Bool
  brineVolume : Nat
  soakTime : Nat
  rinseVolume : Nat
  saltPerDl : Nat
  weakPercent : Nat
  hardnessSensed : Bool
  hardnessSet : Nat
  hardnessTable : List (Nat × Nat)
  factorTable : List (Nat × Nat)
  resFull : Vector Nat 3
  resLowmark : Vector Nat 3
  strokeVol : Vector Nat 3
  saltFull : Nat
  saltLowmark : Nat
  portUrgent : Vector Bool 3
  regenUrgent : Bool
  channelUrgent : Vector Bool 4
  dryUrgent : Bool
  urgentTenure : Nat
  regrantHoldoff : Nat
  scanPeriod : Fin 4
  publishEvery : Nat
  pushStart : Nat
  pushMax : Nat
  pushGrade : Nat
  pushMaxhold : Nat
  extendTimeout : Nat
  rodHold : Nat
  retractTimeout : Nat
  capture : Vector Bool 14
deriving DecidableEq, Repr

/-- The defaults of R189, which a device reset returns. -/
def Settings.default : Settings :=
  { flowPulsesPerDl := 12, noFlowTimeout := 20, tankLimit := 60, drainPostrun := 10, drainLimit := 120,
    overtempLimit := 850, circRampGrade := 2, capRatedA := 30000, capRatedB := 30000, exhaustBypass := true,
    autoRegen := true, brineVolume := 4, soakTime := 300, rinseVolume := 8, saltPerDl := 25, weakPercent := 50,
    hardnessSensed := false, hardnessSet := 30, hardnessTable := List.replicate 8 (0, 0),
    factorTable := [(10, 16), (20, 16), (30, 16), (40, 16), (50, 16), (60, 16), (80, 16), (100, 16)],
    resFull := #v[4000, 4000, 4000], resLowmark := #v[800, 800, 800], strokeVol := #v[10, 10, 10], saltFull := 1500,
    saltLowmark := 200, portUrgent := #v[true, false, false], regenUrgent := false,
    channelUrgent := Vector.replicate 4 false, dryUrgent := false, urgentTenure := 30, regrantHoldoff := 5,
    scanPeriod := 2, publishEvery := 4, pushStart := 60, pushMax := 200, pushGrade := 4, pushMaxhold := 100,
    extendTimeout := 6, rodHold := 5, retractTimeout := 6, capture := Vector.replicate 14 true }

/-! ### The part -/

/-- The part, block by block; `accepted` is the acceptance order that the next operation takes (R184), `laps` how often it
has wrapped (notes/assumptions/19.md), `choice` numbers the free choices (notes/assumptions/1.md), `pending` is the queue of
commands that wait. -/
structure State where
  arb : Arbiter
  pool : Vector (Option Slot) 12
  accepted : Nat
  laps : Nat
  ports : Ports
  water : Water
  soft : Softener
  acct : Accounts
  dose : Dose
  sense : Sense
  drive : Drive
  door : Door
  prot : Protection
  mode : Mode
  cfg : Settings
  choice : Nat
  pending : List Instr
deriving DecidableEq, Repr

/-- The reasons a step can stop with a fault: NONE. The manual gives the part no state in which it stops: what it calls a
fault (R176) is captured and the part goes on. Safe: nothing raises a fault, so nothing is lost by one. -/
inductive Fault where
deriving DecidableEq, Repr

/-- The reasons a step can be refused. -/
inductive Refusal where
  /-- The command of this mnemonic has no meaning yet; raised by `exec`'s arms alone. Safe: the model stops where the part
  goes on. No arm raises it now. -/
  | notModelled (mnemonic : String)
deriving DecidableEq, Repr

/-! ### Device reset -/

/-- The SELECTOR position read from the end switches (R2): UNKNOWN where both are open or both closed. -/
def selectorRead (selA selB : Bool) : Option Column :=
  if selA && !selB then some .a else if selB && !selA then some .b else none

/-- The rod state and the retract after a device reset (R156). -/
def rodRead (rodRet rodExt : Bool) : RodState × Option (RetractKind × Timer) :=
  match rodRet, rodExt with
  | true, false => (.retracted, none)
  | true, true => (.stalled, none)
  | false, _ => (.retracting, some (.reset, Timer.zero))

/-- The Door Unit at the release of a device reset (R154, R156). -/
def Door.reset (r : ResetReadings) : Door :=
  { door := { value := false, candidate := true, agree := 0 },
    rod := { state := (rodRead r.rodRet r.rodExt).1, ret := ⟨r.rodRet, r.rodRet, 0⟩, ext := ⟨r.rodExt, r.rodExt, 0⟩,
             retRaw := r.rodRet, extRaw := r.rodExt, retEdge := false, extEdge := false, extend := Timer.zero,
             maxHold := 0, maxHoldDue := false, hold := Timer.zero, retract := (rodRead r.rodRet r.rodExt).2 } }

/-- Every block at its reset values, with the switches as read (R2, R50, R52, 4.7, R93, R96, 6.8, R152, R156, R170, R180,
R184, R187, R189, R193). -/
def State.ofReset (r : ResetReadings) : State :=
  { arb := { table := Vector.replicate 10 Entry.reset, selCurrent := selectorRead r.selA r.selB, selHeld := .a },
    pool := Vector.replicate 12 none, accepted := 0, laps := 0,
    ports := { l1 := PortState.reset, l2 := PortState.reset, l3 := PortState.reset },
    water := Water.reset, soft := Softener.reset, acct := Accounts.reset, dose := Dose.reset, sense := Sense.reset,
    drive := Drive.reset, door := Door.reset r, prot := Protection.reset, mode := .setup, cfg := Settings.default,
    choice := 0, pending := [] }

/-- The machine right after a reset whose switches read SEL_A closed, SEL_B open, ROD_RET closed, ROD_EXT open (DESIGN
CHOICE, notes/assumptions/2.md: the manual reads them and cannot fix them). -/
def State.reset : State := State.ofReset { selA := true, selB := false, rodRet := true, rodExt := false }

end Sys2Proof.Machine
end

