-- ==== Sys2Proof/Machine/Operands.lean ====
section
/-! DEFINITION. The values of requests and responses: how a number in a body names a thing (R190), how a value is laid
out in a response (R182), and the configuration items with their codes, ranges and values (R189). -/

namespace Sys2Proof.Machine

/-! ### Values of a response (R182) -/

/-- A 1-byte value. -/
def byte1 (n : Nat) : List Byte := [BitVec.ofNat 8 n]

/-- A 2-byte value, low byte first. -/
def byte2 (n : Nat) : List Byte := [BitVec.ofNat 8 n, BitVec.ofNat 8 (n / 256)]

/-- A run-clock second, 4 bytes, low byte first. -/
def byte4 (n : Nat) : List Byte :=
  [BitVec.ofNat 8 n, BitVec.ofNat 8 (n / 256), BitVec.ofNat 8 (n / 65536), BitVec.ofNat 8 (n / 16777216)]

/-- A flag: 0 no, 1 yes. -/
def flagByte (b : Bool) : List Byte := byte1 b.toNat

/-- A number that may be NONE: 1 byte, NONE as 255. -/
def optByte (n : Option Nat) : List Byte := byte1 (n.getD 255)

/-- A value that is given only where it is present: a flag, then the value (DESIGN CHOICE, notes/assumptions/12.md). -/
def optField (v : Option (List Byte)) : List Byte :=
  match v with
  | none => flagByte false
  | some bs => flagByte true ++ bs

/-- A list of entries: their number, then the entries (DESIGN CHOICE after R182's event entries,
notes/assumptions/12.md). -/
def listField (es : List (List Byte)) : List Byte := byte1 es.length ++ es.flatten

/-! ### Places of names in their lists (R182) -/

/-- Port 0..2 for L1..L3. -/
def portCode : Port → Nat
  | .l1 => 0 | .l2 => 1 | .l3 => 2

/-- Column 0 A, 1 B. -/
def columnCode : Column → Nat
  | .a => 0 | .b => 1

/-- SELECTOR position: A, B or UNKNOWN (R1). -/
def positionCode : Option Column → Nat
  | some c => columnCode c | none => 2

/-- Identity (R182). -/
def identCode : Ident → Nat
  | .port p => portCode p | .regen => 3 | .ch c => 4 + c.val | .dry => 8 | .protect => 9

/-- Lease state (R1). -/
def leaseCode : LeaseState → Nat
  | .free => 0 | .moving => 1 | .held => 2 | .suspended => 3 | .releasing => 4

/-- Slot state (R184). -/
def slotStateCode : SlotState → Nat
  | .queued => 0 | .acquiring => 1 | .active => 2 | .waitSoft => 3 | .ending => 4

/-- Column state (R51). -/
def columnStateCode : ColumnState → Nat
  | .inService => 0 | .standby => 1 | .exhausted => 2 | .regenerating => 3

/-- Last outcome (R51). -/
def lastOutcomeCode : LastOutcome → Nat
  | .none => 0 | .full => 1 | .weak => 2 | .aborted => 3

/-- Phase (R63, R74). -/
def phaseCode : RegenPhase → Nat
  | .starting => 0 | .brineDraw => 1 | .soak => 2 | .rinse => 3

/-- Judgement (R63, R74). -/
def judgementCode : Judgement → Nat
  | .none => 0 | .full => 1 | .weak => 2

/-- Purpose (R89). -/
def purposeCode : Purpose → Nat
  | .wash => 0 | .brine => 1 | .rinse => 2

/-- Channel state (R96). -/
def channelStateCode : ChannelState → Nat
  | .idle => 0 | .armed => 1 | .waitingPump => 2 | .dosing => 3 | .halted => 4

/-- Halt cause (R96, R119). -/
def haltCauseCode : HaltCause → Nat
  | .none => 0 | .empty => 1 | .door => 2 | .trip => 3 | .stop => 4

/-- Step of a dosing channel (R96). -/
def doseStepCode : DoseStep → Nat
  | .none => 0 | .stroke => 1 | .interval => 2 | .water => 3

/-- Role (R122). -/
def roleCode : Role → Nat
  | .none => 0 | .leak => 1 | .tankMin => 2 | .tankHigh => 3
  | .low n => 4 + 2 * n.val | .empty n => 5 + 2 * n.val | .saltLow => 10
  | .inletCond => 11 | .softCond => 12 | .brineCond => 13

/-- The role at a place of the list of R122. -/
def roleOf : Nat → Option Role
  | 0 => some .none | 1 => some .leak | 2 => some .tankMin | 3 => some .tankHigh
  | 4 => some (.low 0) | 5 => some (.empty 0) | 6 => some (.low 1) | 7 => some (.empty 1)
  | 8 => some (.low 2) | 9 => some (.empty 2) | 10 => some .saltLow
  | 11 => some .inletCond | 12 => some .softCond | 13 => some .brineCond
  | _ => none

/-- Every role but NONE, in list order (R187 checks 1 and 2). -/
def assignedRoles : List Role :=
  [.leak, .tankMin, .tankHigh, .low 0, .empty 0, .low 1, .empty 1, .low 2, .empty 2, .saltLow, .inletCond, .softCond,
   .brineCond]

/-- Point state (R122, R192). -/
def pointStateCode : PointState → Nat
  | .unseen => 0 | .clear => 1 | .crossed => 2

/-- Candidate: CLEAR, CROSSED or none (R122). -/
def candidateCode : Option Side → Nat
  | some .clear => 0 | some .crossed => 1 | none => 2

/-- Quality (R122). -/
def qualityCode : Quality → Nat
  | .valid => 0 | .disturbed => 1 | .fault => 2

/-- Scan mode (R120). -/
def scanModeCode : ScanMode → Nat
  | .off => 0 | .single => 1 | .continuous => 2 | .periodic => 3 | .watch => 4

/-- The scan mode at a place of the list of R120. -/
def scanModeOf : Nat → Option ScanMode
  | 0 => some .off | 1 => some .single | 2 => some .continuous | 3 => some .periodic | 4 => some .watch | _ => none

/-- Rod state (R156). -/
def rodStateCode : RodState → Nat
  | .retracted => 0 | .extending => 1 | .extended => 2 | .retracting => 3 | .stalled => 4

/-- Retract: none, LEASE or RESET (R156). -/
def retractCode : Option RetractKind → Nat
  | none => 0 | some .lease => 1 | some .reset => 2

/-- DRY phase (R164, R169). -/
def doorPhaseCode : DoorPhase → Nat
  | .delay => 0 | .waitQuiet => 1 | .pushing => 2 | .ajar => 3

/-- Force state (R170). -/
def forceCode : ForceState → Nat
  | .off => 0 | .forcing => 1 | .postrun => 2

/-- Trip cause as the subject of TRIP (R172). -/
def causeCode : TripCause → Nat
  | .flood => 1 | .overfill => 2 | .overtemp => 3

/-- A cause set: 1 FLOOD, 2 OVERFILL, 4 OVERTEMP (R172). -/
def causeSum (flood overfill overtemp : Bool) : Nat := flood.toNat + 2 * overfill.toNat + 4 * overtemp.toNat

/-- Part mode (R187). -/
def modeCode : Mode → Nat
  | .setup => 0 | .run => 1

/-- Outcome codes (10.6). -/
def outcomeCode : OutcomeCode → Nat
  | .ok => 0 | .done => 1 | .retry => 2 | .busy => 3 | .state => 4 | .badRequest => 5 | .badParam => 6 | .badConfig => 7
  | .tagInUse => 8 | .unknownTag => 9 | .notReady => 10 | .wrongMode => 11 | .cancelled => 12 | .tripped => 13
  | .timeout => 14 | .limit => 15 | .noWater => 16 | .selectorFault => 17 | .probeFault => 18 | .stalled => 19
  | .closedEarly => 20

/-- Fault kind codes (R176). -/
def faultKindCode : FaultKind → Nat
  | .checkError => 1 | .frameError => 2 | .overlong => 3 | .gateFault => 4 | .tempProbe => 5 | .selectorTimeout => 6
  | .pushStall => 7 | .retractTimeout => 8 | .noFlow => 9 | .drainSlow => 10 | .flowWhileClosed => 11 | .flood => 12
  | .overfill => 13 | .overtemp => 14

/-- The place of a kind's capture enable: kinds 1..14 in order (R189). -/
def faultKindIndex : FaultKind → Fin 14
  | .checkError => 0 | .frameError => 1 | .overlong => 2 | .gateFault => 3 | .tempProbe => 4 | .selectorTimeout => 5
  | .pushStall => 6 | .retractTimeout => 7 | .noFlow => 8 | .drainSlow => 9 | .flowWhileClosed => 10 | .flood => 11
  | .overfill => 12 | .overtemp => 13

/-- The group of a kind (R176). -/
def faultGroupOf : FaultKind → FaultGroup
  | .checkError => .link | .frameError => .link | .overlong => .link
  | .gateFault => .sense | .tempProbe => .sense
  | .selectorTimeout => .actuator | .pushStall => .actuator | .retractTimeout => .actuator
  | .noFlow => .water | .drainSlow => .water | .flowWhileClosed => .water
  | .flood => .protect | .overfill => .protect | .overtemp => .protect

/-- Group codes (R176). -/
def faultGroupIndex : FaultGroup → Fin 5
  | .link => 0 | .sense => 1 | .actuator => 2 | .water => 3 | .protect => 4

/-- Event codes (R192). -/
def eventCode : Event → Byte
  | .circulationStarted => 0x11 | .heatReached => 0x12
  | .columnExhausted => 0x21 | .columnInService => 0x22 | .regenStarted => 0x23 | .regenEnded => 0x24
  | .saltNeeded => 0x25
  | .levelLow => 0x31 | .reservoirEmpty => 0x32 | .reservoirRefilled => 0x33 | .saltLow => 0x34 | .saltRefilled => 0x35
  | .hardnessChanged => 0x36
  | .doseDescDone => 0x41 | .doseHalted => 0x42
  | .senseChanged => 0x51
  | .doorOpened => 0x61 | .doorClosed => 0x62 | .rodStalled => 0x63
  | .trip => 0x71 | .tripCleared => 0x72 | .faultCaptured => 0x73

/-- The request code of an operation (10.6), its kind in STATUS (R191). -/
def workKindCode : Work → Nat
  | .fill _ => 0x10 | .circulate _ => 0x11 | .heat _ => 0x13 | .drain _ => 0x14 | .regenerate _ => 0x18
  | .doorPush _ => 0x1A | .dry _ => 0x1B

/-! ### Numbers of a request that name a place -/

/-- A number below `n` as an index. -/
def finOf (n k : Nat) : Option (Fin n) := if h : k < n then some ⟨k, h⟩ else none

/-- A column, 0 A or 1 B (R190). -/
def columnOf : Nat → Option Column
  | 0 => some .a | 1 => some .b | _ => none

/-- A slot value of a slot map: SP0..SP15, or NONE as 255; none where it is neither (R136). -/
def slotValueOf (n : Nat) : Option (Option PointId) :=
  if n = 255 then some none else (finOf 16 n).map some

/-! ### Descriptor fields (R93) -/

/-- The trigger source a descriptor names. -/
def sourceOf : Nat → Option TriggerSource
  | 0 => some .request | 1 => some .fillDone | 2 => some .heatDone | 3 => some .circulationStarted | 4 => some .delay
  | 5 => some .channelDone | _ => none

/-- The reservoir a descriptor draws from; none for an empty descriptor. -/
def descReservoir (d : Desc) : Option ReservoirId := if d.reservoir = 0 then none else finOf 3 (d.reservoir - 1)

/-- A descriptor whose reservoir is 0 is empty (R93). -/
def descEmpty (d : Desc) : Bool := d.reservoir == 0

/-- The descriptor a link names, NONE being 255 (R93). -/
def descLink (d : Desc) : Option DescId := finOf 32 d.link

/-- Every field but the reservoir is inside its range of R93. -/
def descFieldsInRange (d : Desc) : Bool :=
  d.mode ≤ 2 && 1 ≤ d.baseCount && d.baseCount ≤ 4095 && 1 ≤ d.blockLength && d.blockLength ≤ 255 && d.scale ≤ 1 &&
  2 ≤ d.interval && d.interval ≤ 100 && d.source ≤ 5 && d.delay ≤ 3600 && d.sourceChannel ≤ 3 && d.needsWater ≤ 1 &&
  (d.link ≤ 31 || d.link == 255) && d.endReport ≤ 1

/-! ### Configuration items (R189) -/

/-- The items of R189, each with its index where it has one. -/
inductive Item where
  | flowPulsesPerDl | noFlowTimeout | tankLimit | drainPostrun | drainLimit | overtempLimit | circRampGrade
  | capRated (c : Column) | exhaustPolicy | autoRegen | brineVolume | soakTime | rinseVolume | saltPerDl | weakPercent
  | hardnessSource | hardnessSet | hardnessTable | factorTable
  | resFull (n : ReservoirId) | resLowmark (n : ReservoirId) | strokeVol (n : ReservoirId) | saltFull | saltLowmark
  | portRing (p : Port) | regenRing | channelRing (c : ChannelId) | dryRing | urgentTenure | regrantHoldoff
  | scanPeriod | publishEvery
  | pushStart | pushMax | pushGrade | pushMaxhold | extendTimeout | rodHold | retractTimeout
  | capture (k : Fin 14)
deriving DecidableEq, Repr

/-- An item with no index takes index 0 (R189). -/
def unindexed (i : Item) (index : Nat) : Option Item := if index = 0 then some i else none

/-- The port of an index 1..3. -/
def portOf : Nat → Option Port
  | 1 => some .l1 | 2 => some .l2 | 3 => some .l3 | _ => none

/-- An index 1..n as an index from 0. -/
def fromOne (n index : Nat) : Option (Fin n) := if index = 0 then none else finOf n (index - 1)

/-- The item that a code and an index name; none is an unknown item or an index outside its range (R189). -/
def itemOf (code index : Nat) : Option Item :=
  match code with
  | 0x01 => unindexed .flowPulsesPerDl index
  | 0x02 => unindexed .noFlowTimeout index
  | 0x03 => unindexed .tankLimit index
  | 0x04 => unindexed .drainPostrun index
  | 0x05 => unindexed .drainLimit index
  | 0x06 => unindexed .overtempLimit index
  | 0x07 => unindexed .circRampGrade index
  | 0x10 => unindexed (.capRated .a) index
  | 0x11 => unindexed (.capRated .b) index
  | 0x12 => unindexed .exhaustPolicy index
  | 0x13 => unindexed .autoRegen index
  | 0x14 => unindexed .brineVolume index
  | 0x15 => unindexed .soakTime index
  | 0x16 => unindexed .rinseVolume index
  | 0x17 => unindexed .saltPerDl index
  | 0x18 => unindexed .weakPercent index
  | 0x20 => unindexed .hardnessSource index
  | 0x21 => unindexed .hardnessSet index
  | 0x22 => unindexed .hardnessTable index
  | 0x23 => unindexed .factorTable index
  | 0x24 => (fromOne 3 index).map .resFull
  | 0x25 => (fromOne 3 index).map .resLowmark
  | 0x26 => (fromOne 3 index).map .strokeVol
  | 0x27 => unindexed .saltFull index
  | 0x28 => unindexed .saltLowmark index
  | 0x30 => (portOf index).map .portRing
  | 0x31 => unindexed .regenRing index
  | 0x32 => (finOf 4 index).map .channelRing
  | 0x33 => unindexed .dryRing index
  | 0x34 => unindexed .urgentTenure index
  | 0x35 => unindexed .regrantHoldoff index
  | 0x38 => unindexed .scanPeriod index
  | 0x39 => unindexed .publishEvery index
  | 0x40 => unindexed .pushStart index
  | 0x41 => unindexed .pushMax index
  | 0x42 => unindexed .pushGrade index
  | 0x43 => unindexed .pushMaxhold index
  | 0x44 => unindexed .extendTimeout index
  | 0x45 => unindexed .rodHold index
  | 0x46 => unindexed .retractTimeout index
  | 0x48 => (fromOne 14 index).map .capture
  | _ => none

/-- The column "Live" of R189. -/
def itemLive : Item → Bool
  | .flowPulsesPerDl => false | .noFlowTimeout => true | .tankLimit => false | .drainPostrun => true
  | .drainLimit => true | .overtempLimit => false | .circRampGrade => true
  | .capRated _ => false | .exhaustPolicy => true | .autoRegen => true | .brineVolume => false | .soakTime => false
  | .rinseVolume => false | .saltPerDl => false | .weakPercent => false
  | .hardnessSource => true | .hardnessSet => true | .hardnessTable => true | .factorTable => true
  | .resFull _ => false | .resLowmark _ => false | .strokeVol _ => false | .saltFull => false | .saltLowmark => false
  | .portRing _ => false | .regenRing => false | .channelRing _ => false | .dryRing => false
  | .urgentTenure => true | .regrantHoldoff => true | .scanPeriod => true | .publishEvery => true
  | .pushStart => true | .pushMax => true | .pushGrade => true | .pushMaxhold => true | .extendTimeout => true
  | .rodHold => true | .retractTimeout => true | .capture _ => true

/-- The column "Range" of R189, as lowest and highest number; a named value is its place in the range. The two band
tables take no number. -/
def itemRange : Item → Nat × Nat
  | .flowPulsesPerDl => (1, 50) | .noFlowTimeout => (5, 60) | .tankLimit => (10, 200) | .drainPostrun => (0, 60)
  | .drainLimit => (30, 300) | .overtempLimit => (600, 900) | .circRampGrade => (0, 255)
  | .capRated _ => (1000, 65535) | .exhaustPolicy => (0, 1) | .autoRegen => (0, 1) | .brineVolume => (1, 20)
  | .soakTime => (30, 1800) | .rinseVolume => (1, 40) | .saltPerDl => (1, 50) | .weakPercent => (10, 90)
  | .hardnessSource => (0, 1) | .hardnessSet => (0, 100) | .hardnessTable => (1, 0) | .factorTable => (1, 0)
  | .resFull _ => (100, 20000) | .resLowmark _ => (0, 20000) | .strokeVol _ => (1, 50) | .saltFull => (100, 4000)
  | .saltLowmark => (0, 4000)
  | .portRing _ => (0, 1) | .regenRing => (0, 1) | .channelRing _ => (0, 1) | .dryRing => (0, 1)
  | .urgentTenure => (0, 255) | .regrantHoldoff => (0, 60) | .scanPeriod => (0, 3) | .publishEvery => (1, 16)
  | .pushStart => (0, 255) | .pushMax => (0, 255) | .pushGrade => (0, 255) | .pushMaxhold => (1, 255)
  | .extendTimeout => (1, 20) | .rodHold => (1, 60) | .retractTimeout => (1, 20) | .capture _ => (0, 1)

/-- A number is inside an item's range. -/
def itemInRange (i : Item) (v : Nat) : Bool := (itemRange i).1 ≤ v && v ≤ (itemRange i).2

/-- A table of `n` with entry `i` replaced. -/
def upd {α : Type} {n : Nat} (v : Vector α n) (i : Fin n) (x : α) : Vector α n := v.set i.val x i.isLt

/-- A table with `f` applied to every entry. -/
def updAll {α : Type} {n : Nat} (f : α → α) (v : Vector α n) : Vector α n :=
  (List.finRange n).foldl (fun w i => upd w i (f w[i])) v

/-- A port as an index. -/
def portIndex : Port → Fin 3
  | .l1 => 0 | .l2 => 1 | .l3 => 2

/-- The table with an item at a new value: URGENT and HOLD, off and CONFIGURED are place 0 of their ranges. -/
def Settings.put (g : Settings) (i : Item) (v : Nat) : Settings :=
  match i with
  | .flowPulsesPerDl => { g with flowPulsesPerDl := v }
  | .noFlowTimeout => { g with noFlowTimeout := v }
  | .tankLimit => { g with tankLimit := v }
  | .drainPostrun => { g with drainPostrun := v }
  | .drainLimit => { g with drainLimit := v }
  | .overtempLimit => { g with overtempLimit := v }
  | .circRampGrade => { g with circRampGrade := v }
  | .capRated .a => { g with capRatedA := v }
  | .capRated .b => { g with capRatedB := v }
  | .exhaustPolicy => { g with exhaustBypass := v != 0 }
  | .autoRegen => { g with autoRegen := v != 0 }
  | .brineVolume => { g with brineVolume := v }
  | .soakTime => { g with soakTime := v }
  | .rinseVolume => { g with rinseVolume := v }
  | .saltPerDl => { g with saltPerDl := v }
  | .weakPercent => { g with weakPercent := v }
  | .hardnessSource => { g with hardnessSensed := v != 0 }
  | .hardnessSet => { g with hardnessSet := v }
  | .hardnessTable => g
  | .factorTable => g
  | .resFull n => { g with resFull := upd g.resFull n v }
  | .resLowmark n => { g with resLowmark := upd g.resLowmark n v }
  | .strokeVol n => { g with strokeVol := upd g.strokeVol n v }
  | .saltFull => { g with saltFull := v }
  | .saltLowmark => { g with saltLowmark := v }
  | .portRing p => { g with portUrgent := upd g.portUrgent (portIndex p) (v == 0) }
  | .regenRing => { g with regenUrgent := v == 0 }
  | .channelRing c => { g with channelUrgent := upd g.channelUrgent c (v == 0) }
  | .dryRing => { g with dryUrgent := v == 0 }
  | .urgentTenure => { g with urgentTenure := v }
  | .regrantHoldoff => { g with regrantHoldoff := v }
  | .scanPeriod => { g with scanPeriod := (finOf 4 v).getD g.scanPeriod }
  | .publishEvery => { g with publishEvery := v }
  | .pushStart => { g with pushStart := v }
  | .pushMax => { g with pushMax := v }
  | .pushGrade => { g with pushGrade := v }
  | .pushMaxhold => { g with pushMaxhold := v }
  | .extendTimeout => { g with extendTimeout := v }
  | .rodHold => { g with rodHold := v }
  | .retractTimeout => { g with retractTimeout := v }
  | .capture k => { g with capture := upd g.capture k (v != 0) }

/-- The number an item holds (R189). -/
def Settings.read (g : Settings) : Item → Nat
  | .flowPulsesPerDl => g.flowPulsesPerDl
  | .noFlowTimeout => g.noFlowTimeout
  | .tankLimit => g.tankLimit
  | .drainPostrun => g.drainPostrun
  | .drainLimit => g.drainLimit
  | .overtempLimit => g.overtempLimit
  | .circRampGrade => g.circRampGrade
  | .capRated .a => g.capRatedA
  | .capRated .b => g.capRatedB
  | .exhaustPolicy => g.exhaustBypass.toNat
  | .autoRegen => g.autoRegen.toNat
  | .brineVolume => g.brineVolume
  | .soakTime => g.soakTime
  | .rinseVolume => g.rinseVolume
  | .saltPerDl => g.saltPerDl
  | .weakPercent => g.weakPercent
  | .hardnessSource => g.hardnessSensed.toNat
  | .hardnessSet => g.hardnessSet
  | .hardnessTable => 0
  | .factorTable => 0
  | .resFull n => g.resFull[n]
  | .resLowmark n => g.resLowmark[n]
  | .strokeVol n => g.strokeVol[n]
  | .saltFull => g.saltFull
  | .saltLowmark => g.saltLowmark
  | .portRing p => (!g.portUrgent[portIndex p]).toNat
  | .regenRing => (!g.regenUrgent).toNat
  | .channelRing c => (!g.channelUrgent[c]).toNat
  | .dryRing => (!g.dryUrgent).toNat
  | .urgentTenure => g.urgentTenure
  | .regrantHoldoff => g.regrantHoldoff
  | .scanPeriod => g.scanPeriod.val
  | .publishEvery => g.publishEvery
  | .pushStart => g.pushStart
  | .pushMax => g.pushMax
  | .pushGrade => g.pushGrade
  | .pushMaxhold => g.pushMaxhold
  | .extendTimeout => g.extendTimeout
  | .rodHold => g.rodHold
  | .retractTimeout => g.retractTimeout
  | .capture k => g.capture[k].toNat

/-- The limits rise strictly from band to band (R88). -/
def strictlyRising : List Nat → Bool
  | a :: b :: rest => a < b && strictlyRising (b :: rest)
  | _ => true

/-- A hardness table that R88 accepts. -/
def hardnessTableOk (bs : List (Nat × Nat)) : Bool :=
  bs.length == 8 && bs.all (fun b => b.1 ≤ 65535 && b.2 ≤ 100) &&
    (bs.all (fun b => b.1 == 0) || strictlyRising (bs.map (·.1)))

/-- A dose factor table that R88 accepts. -/
def factorTableOk (bs : List (Nat × Nat)) : Bool :=
  bs.length == 8 && bs.all (fun b => b.1 ≤ 100 && 8 ≤ b.2 && b.2 ≤ 48) && strictlyRising (bs.map (·.1))

/-- The bands of a table, each limit `wide` (2 bytes) or 1 byte (R189). -/
def bandBytes (wide : Bool) (bs : List (Nat × Nat)) : List Byte :=
  bs.flatMap fun b => (if wide then byte2 b.1 else byte1 b.1) ++ byte1 b.2

/-- The value of the first band whose limit is at or above `x`, or of the last band (R87, R88). -/
def bandLookup (x : Nat) : List (Nat × Nat) → Nat
  | [] => 0
  | [b] => b.2
  | b :: rest => if x ≤ b.1 then b.2 else bandLookup x rest

/-- SCAN_PERIOD in drive periods: 0.25, 0.5, 1 or 2 s (R125). -/
def scanPeriods (v : Fin 4) : Nat := #v[13, 25, 50, 100][v]

/-- Seconds as drive periods (R140). -/
def seconds (n : Nat) : Nat := Config.periodsPerSecond * n

end Sys2Proof.Machine
end

