-- ==== Sys2Proof/Machine/Flags.lean ====
section
/-! DEFINITION. What is computed from the state and held nowhere else: who holds and waits, the yield flag's condition,
eligibility and the choice of a grant, the interlock and trip conditions, slot states, attention lines, outputs. -/

namespace Sys2Proof.Machine

/-! ### The resource table -/

/-- The table number of a resource, from 0 (1.1). -/
def Resource.idx : Resource → Fin 10
  | .selector => 0 | .brine => 1 | .inlet => 2 | .circ => 3 | .heater => 4 | .drain => 5
  | .dose 0 => 6 | .dose 1 => 7 | .dose 2 => 8 | .doorDrive => 9

/-- The resources in table order (1.1). -/
def allResources : List Resource :=
  [.selector, .brine, .inlet, .circ, .heater, .drain, .dose 0, .dose 1, .dose 2, .doorDrive]

/-- The door-guarded resources (1.1). -/
def Resource.guarded : Resource → Bool
  | .inlet => true | .circ => true | .heater => true | .dose _ => true
  | .selector => false | .brine => false | .drain => false | .doorDrive => false

/-- The trip set (1.1). -/
def Resource.inTripSet : Resource → Bool
  | .inlet => true | .brine => true | .circ => true | .heater => true | .dose _ => true
  | .selector => false | .drain => false | .doorDrive => false

/-- The door-guarded resources in table order. -/
def guardedResources : List Resource := [.inlet, .circ, .heater, .dose 0, .dose 1, .dose 2]

/-- The trip set in table order. -/
def tripResources : List Resource := [.brine, .inlet, .circ, .heater, .dose 0, .dose 1, .dose 2]

/-- The entry of a resource (R1). -/
def State.entry (s : State) (r : Resource) : Entry := s.arb.table[r.idx]

/-- A resource has a holder while its lease is MOVING, HELD, SUSPENDED or RELEASING (R3). -/
def State.hasHolder (s : State) (r : Resource) : Bool := (s.entry r).lease != .free

/-- A requester holds a resource, in any of the four states. -/
def State.holds (s : State) (who : Holder) (r : Resource) : Bool := s.hasHolder r && (s.entry r).holder == some who

/-- A requester holds a resource in HELD. -/
def State.holdsHeld (s : State) (who : Holder) (r : Resource) : Bool :=
  (s.entry r).lease == .held && (s.entry r).holder == some who

/-- A requester has a waiter record in a resource's list. -/
def State.waitsFor (s : State) (who : Holder) (r : Resource) : Bool := (s.entry r).waiters.any fun w => w.who == who

/-- A requester has a waiter record somewhere (R8: at most one). -/
def State.waits (s : State) (who : Holder) : Bool := allResources.any fun r => s.waitsFor who r

/-- The nine arbitrated identities in round-robin order, L1 to DRY (1.3). -/
def identOrder : Ident → Nat
  | .port .l1 => 0 | .port .l2 => 1 | .port .l3 => 2 | .regen => 3 | .ch c => 4 + c.val | .dry => 8 | .protect => 9

/-- The ring of an identity, read from the configuration (R9). PROTECT belongs to no ring (R7): it is never a waiter and
never asked to yield, so the value given it here is never read. -/
def ringOf (g : Settings) : Ident → Ring
  | .port p => if g.portUrgent[portIndex p] then .urgent else .normal
  | .regen => if g.regenUrgent then .urgent else .normal
  | .ch c => if g.channelUrgent[c] then .urgent else .normal
  | .dry => if g.dryUrgent then .urgent else .normal
  | .protect => .urgent

/-- The condition of the yield requested flag (R18). -/
def yieldCondition (g : Settings) (clock : Nat) (e : Entry) : Bool :=
  match e.holder with
  | none => false
  | some h =>
    h.ident != .protect && (e.lease == .moving || e.lease == .held || e.lease == .suspended) &&
    e.waiters.any (fun w => ringOf g w.who.ident == .urgent && w.who.ident != h.ident) &&
    (ringOf g h.ident == .normal || decide (g.urgentTenure ≤ clockElapsed clock e.grantTime))

/-! ### The door, the trip and the sense roles -/

/-- The door state held by the Door Unit is CLOSED (R154). -/
def State.doorClosed (s : State) : Bool := s.door.door.value

/-- The trip state is LATCHED while the cause set is not empty (R170). -/
def State.latched (s : State) : Bool := s.prot.flood || s.prot.overfill || s.prot.overtemp

/-- The lowest-numbered point holding a role (R133). -/
def State.roleHolder (s : State) (r : Role) : Option PointId :=
  (List.finRange 16).find? fun p => s.sense.points[p].role == r

/-- How many points hold a role (R187 check 1). -/
def State.roleCount (s : State) (r : Role) : Nat :=
  ((List.finRange 16).filter fun p => s.sense.points[p].role == r).length

/-- TANK_MIN reads water present while its point is CLEAR (R34). -/
def State.waterPresent (s : State) : Bool :=
  match s.roleHolder .tankMin with
  | some p => s.sense.points[p].state == .clear
  | none => false

/-- TANK_MIN reads water absent while its point is CROSSED (R34). -/
def State.waterAbsent (s : State) : Bool :=
  match s.roleHolder .tankMin with
  | some p => s.sense.points[p].state == .crossed
  | none => false

/-- The condition of FLOOD or OVERFILL is gone: its point reads CLEAR, or no point holds the role (R174, R175). -/
def State.roleGone (s : State) (r : Role) : Bool :=
  match s.roleHolder r with
  | some p => s.sense.points[p].state == .clear
  | none => true

/-- The four conditions of the heater interlock (R45), CIRC, water, door, probe in this order. -/
def State.interlockConditions (s : State) : List Bool :=
  [(s.entry .circ).lease == .held, s.waterPresent, s.doorClosed, s.water.probeValid]

/-- The heater interlock is met when all four hold (R45). -/
def State.interlockMet (s : State) : Bool := s.interlockConditions.all id

/-! ### Eligibility and the choice of a grant (1.4, 1.5) -/

/-- Some guarded resource has a holder in any state (R15). -/
def State.guardedHeld (s : State) : Bool := guardedResources.any s.hasHolder

/-- The door priority is in force: guarded holders have kept a DOOR_DRIVE waiter out, and nothing else. It ends when that
waiter is granted or removed, or when the rod becomes STALLED; not when the last guarded holder lets go (R17). -/
def State.doorPriority (s : State) : Bool :=
  (s.entry .doorDrive).waiters.any (·.barred) && s.door.rod.state != .stalled

/-- The door priority lets a waiter of this identity be granted a guarded resource (R17). -/
def State.passesDoorPriority (s : State) (i : Ident) : Bool :=
  !s.doorPriority || (!s.cfg.dryUrgent && ringOf s.cfg i == .urgent)

/-- The conditions of R12 to R15 and R17 on a waiter for a resource: all but the hold-off. A requester asks for INLET only
while it holds SELECTOR in HELD (R14), so a grant of INLET looks for that too. -/
def State.eligibleBase (s : State) (r : Resource) (w : Waiter) : Bool :=
  (!r.guarded || (s.doorClosed && !s.hasHolder .doorDrive && s.passesDoorPriority w.who.ident)) &&
  (!r.inTripSet || !s.latched) &&
  (match r with
   | .inlet => !s.hasHolder .drain && s.holdsHeld w.who .selector
   | .drain => !s.hasHolder .inlet
   | .doorDrive => !s.guardedHeld && s.door.rod.state != .stalled
   | .selector => true | .brine => true | .circ => true | .heater => true | .dose _ => true)

/-- The regrant hold-off keeps a waiter out (R16). -/
def State.heldOff (s : State) (r : Resource) (w : Waiter) : Bool :=
  match (s.entry r).lastRelease with
  | none => false
  | some (i, t) =>
    w.who.ident == i && decide (clockElapsed s.drive.clock t < s.cfg.regrantHoldoff) &&
    (s.entry r).waiters.any (fun v => v.who.ident != i && s.eligibleBase r v)

/-- A waiter is eligible (R12 to R17). -/
def State.eligible (s : State) (r : Resource) (w : Waiter) : Bool := s.eligibleBase r w && !s.heldOff r w

/-- How far an identity is from the round-robin position: 0 is the identity after it, or L1 for NONE (R10). -/
def rrRank (pos : Option Ident) (i : Ident) : Nat :=
  (identOrder i + 9 - (match pos with | none => 0 | some j => (identOrder j + 1) % 9)) % 9

/-- The first of two waiters by identity rank and then by acceptance order (R10 steps 2 and 3). -/
def rrFirst (pos : Option Ident) (v w : Waiter) : Waiter :=
  let a := rrRank pos v.who.ident
  let b := rrRank pos w.who.ident
  if b < a ∨ (b = a ∧ w.serial < v.serial) then w else v

/-- The first waiter of a list by R10. -/
def pickWaiter (pos : Option Ident) : List Waiter → Option Waiter
  | [] => none
  | w :: ws => some (ws.foldl (rrFirst pos) w)

/-- The waiter that the grant rule chooses for a resource, if the resource is FREE and a waiter is eligible (R10). -/
def State.chosenWaiter (s : State) (r : Resource) : Option Waiter :=
  let e := s.entry r
  if e.lease != .free then none
  else
    let ok := e.waiters.filter (s.eligible r)
    let urgent := ok.filter fun w => ringOf s.cfg w.who.ident == .urgent
    if urgent.isEmpty then pickWaiter e.rrNormal ok else pickWaiter e.rrUrgent urgent

/-- The resources that can be granted now, in table order. -/
def State.grantable (s : State) : List Resource := allResources.filter fun r => (s.chosenWaiter r).isSome

/-- Two grantable resources conflict: INLET with DRAIN, DOOR_DRIVE with a guarded one (R11). -/
def grantsConflict (rs : List Resource) : Bool :=
  (rs.contains .inlet && rs.contains .drain) || (rs.contains .doorDrive && rs.any Resource.guarded)

/-! ### Work in the pool -/

/-- The age of a slot: its acceptance order, counted across the wraps at 65535 (R10, R184; notes/assumptions/19.md). -/
def Slot.age (sl : Slot) : Nat := sl.lap * wordModulus + sl.serial

/-- The pool slots in order. -/
def allSlots : List SlotId := List.finRange 12

/-- The requester of a slot's operation (R8): DRY for a DOOR_PUSH or DRY, the port otherwise. -/
def slotWho (i : SlotId) (sl : Slot) : Holder :=
  match sl.work with
  | .doorPush _ => ⟨.dry, some i⟩
  | .dry _ => ⟨.dry, some i⟩
  | .fill _ => ⟨.port sl.port, some i⟩
  | .circulate _ => ⟨.port sl.port, some i⟩
  | .heat _ => ⟨.port sl.port, some i⟩
  | .drain _ => ⟨.port sl.port, some i⟩
  | .regenerate _ => ⟨.port sl.port, some i⟩

/-- The port of a requester that is a port operation (R8, R26). -/
def State.waiterPort (s : State) (who : Holder) : Option Port := who.slot.bind fun i => s.pool[i].map (·.port)

/-- The requester of the regeneration in progress (R8). -/
def regenWho (g : Regen) : Holder :=
  match g.requester with
  | none => ⟨.regen, none⟩
  | some (p, i) => ⟨.port p, some i⟩

/-- The requester of a dose channel (R8). -/
def channelWho (c : ChannelId) : Holder := ⟨.ch c, none⟩

/-- The FILL of a slot whose outcome is not fixed. -/
def State.fillAt (s : State) (i : SlotId) : Option (Slot × FillWork) :=
  match s.pool[i] with
  | some sl => match sl.work, sl.outcome with
    | .fill w, none => some (sl, w)
    | _, _ => none
  | none => none

/-- The slot of the FILL that is flowing: the one that holds INLET HELD (R31). -/
def State.flowingFill (s : State) : Option SlotId :=
  if (s.entry .inlet).lease == .held then
    match (s.entry .inlet).holder with
    | some ⟨.port _, some i⟩ => if (s.fillAt i).isSome then some i else none
    | _ => none
  else none

/-- A regeneration holds INLET HELD. -/
def State.regenFlowing (s : State) : Bool :=
  match s.soft.regen with
  | some g => s.holdsHeld (regenWho g) .inlet
  | none => false

/-- A REGENERATE's entry stands in the queue (R74). -/
def State.regenQueued (s : State) (p : Port) (i : SlotId) : Bool :=
  s.soft.queue.any fun q => q.requester == some (p, i)

/-- ACQUIRING where a waiter record stands or a SELECTOR lease of the work is MOVING, ACTIVE otherwise (2.1, R74). -/
def State.acquiringOr (s : State) (who : Holder) : SlotState :=
  if s.waits who || ((s.entry .selector).lease == .moving && (s.entry .selector).holder == some who) then .acquiring
  else .active

/-- The slot state (R27, R74, 8.3), computed from the work, the queue and the resource table (notes/assumptions/20.md). -/
def State.slotState (s : State) (i : SlotId) (sl : Slot) : SlotState :=
  if sl.outcome.isSome then .ending
  else
    let who := slotWho i sl
    match sl.work with
    | .fill w => if w.waitSoft then .waitSoft else s.acquiringOr who
    | .circulate _ => s.acquiringOr who
    | .heat _ => s.acquiringOr who
    | .drain _ => s.acquiringOr who
    | .regenerate _ =>
      if s.regenQueued sl.port i then .queued
      else match s.soft.regen with
        | some g => if g.phase == .starting then .acquiring else s.acquiringOr who
        | none => .active
    | .doorPush w => if w.heldBack then .acquiring else s.acquiringOr who
    | .dry w => if w.heldBack then .acquiring else s.acquiringOr who

/-- The progress of a slot (R191). -/
def State.progress (s : State) (i : SlotId) (sl : Slot) : Nat :=
  match sl.work with
  | .fill w => w.counted
  | .circulate w => w.run.passed / Config.periodsPerSecond
  | .heat w => w.passed.passed / Config.periodsPerSecond
  | .drain w => w.postrun.isSome.toNat
  | .regenerate _ =>
    match s.soft.regen with
    | some g => if g.requester == some (sl.port, i) then phaseCode g.phase * 256 + g.counted else 0
    | none => 0
  | .doorPush _ => rodStateCode s.door.rod.state
  | .dry w => doorPhaseCode w.phase

/-- Free slots of the pool. -/
def State.freeSlots (s : State) : Nat := (allSlots.filter fun i => s.pool[i].isNone).length

/-- Slots of a port. -/
def State.portSlots (s : State) (p : Port) : List SlotId :=
  allSlots.filter fun i => match s.pool[i] with | some sl => sl.port == p | none => false

/-- The slot of a port's operation with a tag (R183, R185). -/
def State.tagSlot (s : State) (p : Port) (tag : Nat) : Option SlotId :=
  allSlots.find? fun i => match s.pool[i] with | some sl => sl.port == p && sl.tag == tag | none => false

/-- The reserve rule (R184). -/
def State.meetsReserve (s : State) (p : Port) : Bool :=
  let free := s.freeSlots
  if s.cfg.portUrgent[portIndex p] then
    let held := (s.portSlots p).length
    held < Config.urgentShare && (if held = 0 then 1 else 2) ≤ free
  else Config.normalReserve ≤ free

/-- The first slot of a DOOR_PUSH or DRY (R158: at most one). -/
def State.doorSlot (s : State) : Option SlotId :=
  allSlots.find? fun i =>
    match s.pool[i] with
    | some sl => match sl.work with
      | .doorPush _ => true | .dry _ => true | .fill _ => false | .circulate _ => false | .heat _ => false
      | .drain _ => false | .regenerate _ => false
    | none => false

/-! ### Ports -/

/-- One port's share. -/
def Ports.get (ps : Ports) : Port → PortState
  | .l1 => ps.l1 | .l2 => ps.l2 | .l3 => ps.l3

/-- One port's share of the part. -/
def State.port (s : State) (p : Port) : PortState := s.ports.get p

/-- Responses to immediate requests and refusals that wait in a transmit queue (R182). -/
def PortState.immediateCount (ps : PortState) : Nat := (ps.txq.filter (·.immediate)).length

/-- The attention line: asserted exactly while a subscription slot is HELD (R195, law 12). -/
def PortState.attention (ps : PortState) : Bool := (List.finRange 6).any fun k => ps.subs[k].held.isSome

/-- A report's code matches an enabled slot (R193). -/
def Sub.takes (sub : Sub) (code : Byte) : Bool := sub.enable && (code &&& sub.mask == sub.filter &&& sub.mask)

/-! ### Columns -/

/-- A column record. -/
def State.column (s : State) : Column → ColumnRec
  | .a => s.soft.colA | .b => s.soft.colB

/-- The other column. -/
def Column.other : Column → Column
  | .a => .b | .b => .a

/-- The rated capacity, read from the configuration (R51). -/
def State.rated (s : State) : Column → Nat
  | .a => s.cfg.capRatedA | .b => s.cfg.capRatedB

/-- The column IN_SERVICE, if one is (law 5: at most one). -/
def State.inService (s : State) : Option Column :=
  if s.soft.colA.state == .inService then some .a else if s.soft.colB.state == .inService then some .b else none

/-! ### Outputs (R141, R147) -/

/-- SEL_M: on and its direction, toward the held position, while SELECTOR is MOVING. -/
def State.selMotor (s : State) : Option Column :=
  if (s.entry .selector).lease == .moving then some s.arb.selHeld else none

/-- BRINE_V, INLET_V, HEATER and DRAIN_P follow HELD (R141). -/
def State.outputOn (s : State) (r : Resource) : Bool := (s.entry r).lease == .held

/-- The level of CIRC_P: the ramp level of a HELD or RELEASING lease (R141, R145). -/
def State.circLevel (s : State) : Nat := s.drive.circRamp.level

/-- DOSE_Pn runs while its stroke generator runs (R148). -/
def State.dosePump (s : State) (n : ReservoirId) : Bool := s.drive.strokes[n].running

/-- The level of ROD_M (R147): the ramp level while HELD, the fixed retract level during a retract, and 0 while the end
switch toward which the motor is driven is closed. -/
def State.rodLevel (s : State) : Nat :=
  if s.drive.rodExtend then
    if (s.entry .doorDrive).lease == .held && !s.door.rod.extRaw then s.drive.doorRamp.level else 0
  else if s.door.rod.retract.isSome && !s.door.rod.retRaw then Config.retractLevel else 0

/-- The three outputs whose switchings are reported: CIRC_P, DRAIN_P and HEATER (R128, R142). -/
def State.reportedOutputs (s : State) : Bool × Bool × Bool :=
  (decide (0 < s.circLevel), s.outputOn .drain, s.outputOn .heater)

end Sys2Proof.Machine
end

