-- ==== Sys2Proof/Machine/Ops.lean ====
section
/-! DEFINITION. The operations that more than one chapter uses: reports, faults and responses; waiter records, leases and
their release, suspension and revocation; the settings and generators that follow a lease. -/

namespace Sys2Proof.Machine

/-! ### Event reports (R194) -/

/-- The first slot of a port that satisfies a test. -/
def PortState.firstSub (ps : PortState) (f : Sub → Bool) : Option SubId := (List.finRange 6).find? fun k => f ps.subs[k]

/-- A report placed at one port: in the lowest-numbered EMPTY matching slot, else over the report of the lowest-numbered
matching slot with its overrun flag set, else not kept (R194). -/
def PortState.place (ps : PortState) (rep : Report) : PortState :=
  match ps.firstSub fun sub => sub.takes rep.code && sub.held.isNone with
  | some k => { ps with subs := upd ps.subs k { ps.subs[k] with held := some rep } }
  | none =>
    match ps.firstSub fun sub => sub.takes rep.code with
    | some k => { ps with subs := upd ps.subs k { ps.subs[k] with held := some rep, overrun := true } }
    | none => ps

/-- An event posted: offered to each port with the run-clock second (R192, R194). -/
def State.post (s : State) (e : Event) (subject value : Nat) : State :=
  let rep : Report := ⟨eventCode e, subject, value, s.drive.clock⟩
  { s with ports := { l1 := s.ports.l1.place rep, l2 := s.ports.l2.place rep, l3 := s.ports.l3.place rep } }

/-! ### Fault capture (R177) -/

/-- A fault posted: nothing if its enable is off; the group's record and FAULT_CAPTURED if the group is empty; MULTIPLE
otherwise (R177). -/
def State.fault (s : State) (k : FaultKind) (subject detail : Nat) : State :=
  if s.cfg.capture[faultKindIndex k] then
    let g := faultGroupIndex (faultGroupOf k)
    if s.prot.groups[g].isNone then
      State.post
        { s with prot := { s.prot with groups := upd s.prot.groups g (some ⟨k, subject, s.drive.clock, detail⟩) } }
        .faultCaptured g.val (faultKindCode k)
    else { s with prot := { s.prot with multiple := true } }
  else s

/-! ### Ports and responses (R182) -/

/-- One port's share replaced. -/
def State.setPort (s : State) (p : Port) (ps : PortState) : State :=
  match p with
  | .l1 => { s with ports := { s.ports with l1 := ps } }
  | .l2 => { s with ports := { s.ports with l2 := ps } }
  | .l3 => { s with ports := { s.ports with l3 := ps } }

/-- A response joins the transmit queue of a port (R182). -/
def State.send (s : State) (p : Port) (r : Response) : State :=
  s.setPort p { s.port p with txq := (s.port p).txq ++ [r] }

/-- A response to an immediate request, or a refusal: the outcome, then the result fields (R182). -/
def State.reply (s : State) (p : Port) (tag : Nat) (o : OutcomeCode) (fields : List Byte) : State :=
  s.send p { tag := tag, body := byte1 (outcomeCode o) ++ fields, immediate := true, makesReset := false }

/-! ### Pool slots -/

/-- A slot's contents replaced. -/
def State.setSlot (s : State) (i : SlotId) (sl : Option Slot) : State := { s with pool := upd s.pool i sl }

/-- The work of a held slot replaced. -/
def State.setWork (s : State) (i : SlotId) (w : Work) : State :=
  match s.pool[i] with
  | some sl => s.setSlot i (some { sl with work := w })
  | none => s

/-- An operation ends: its response joins the queue of its port, unless a port reset ended it, and its slot is freed
(R182, R186). It joins however many responses of operations the queue holds already: R182's 12 bounds none of them here
(DESIGN CHOICE, notes/assumptions/47.md). -/
def State.endSlot (s : State) (i : SlotId) (o : OutcomeCode) (fields : List Byte) (answer : Bool) : State :=
  match s.pool[i] with
  | some sl =>
    let s' := if answer then
        s.send sl.port { tag := sl.tag, body := byte1 (outcomeCode o) ++ fields, immediate := false, makesReset := false }
      else s
    s'.setSlot i none
  | none => s

/-- An operation just accepted is refused by its owner: the refusal joins the queue of its port, and its slot is freed
(R182). -/
def State.refuseSlot (s : State) (i : SlotId) (o : OutcomeCode) : State :=
  match s.pool[i] with
  | some sl => (s.reply sl.port sl.tag o []).setSlot i none
  | none => s

/-- The outcome of an operation is fixed and its response waits for a wind-down: slot ENDING (R29). -/
def State.fixOutcome (s : State) (i : SlotId) (o : OutcomeCode) : State :=
  match s.pool[i] with
  | some sl => s.setSlot i (some { sl with outcome := some o })
  | none => s

/-! ### Disturbance marking (R128, R142) -/

/-- A measurement in progress is marked disturbed. -/
def Group.disturb (g : Group) : Group :=
  { g with measuring := g.measuring.map fun m => { m with disturbed := true } }

/-- Every measurement in progress is marked, in every group (R128). -/
def State.disturb (s : State) : State := { s with sense := { s.sense with groups := updAll Group.disturb s.sense.groups } }

/-- A switching of CIRC_P, DRAIN_P or HEATER from `before` to `after` is reported to the Sense Scanner (R142). -/
def reportSwitching (before after : State) : State :=
  if before.reportedOutputs = after.reportedOutputs then after else after.disturb

/-! ### The resource table -/

/-- An entry replaced, as it stands. -/
def State.putEntry (s : State) (r : Resource) (e : Entry) : State :=
  { s with arb := { s.arb with table := upd s.arb.table r.idx e } }

/-- An entry changed: yield requested is judged afresh (R18) and a switching of its output is reported (R142). -/
def State.editEntry (s : State) (r : Resource) (f : Entry → Entry) : State :=
  let e := f (s.entry r)
  reportSwitching s (s.putEntry r { e with yieldRequested := yieldCondition s.cfg s.drive.clock e })

/-- The yield requested flag of one resource judged afresh (R18). -/
def State.judgeYield (s : State) (r : Resource) : State := s.editEntry r id

/-- A waiter record joins a list (R21). -/
def State.ask (s : State) (r : Resource) (who : Holder) (serial : Nat) (want : Option Column) : State :=
  s.editEntry r fun e => { e with waiters := e.waiters ++ [⟨who, serial, want, false⟩] }

/-- A requester's waiter record leaves one list (R22). -/
def State.withdrawFrom (s : State) (who : Holder) (r : Resource) : State :=
  if s.waitsFor who r then s.editEntry r fun e => { e with waiters := e.waiters.filter fun w => w.who != who } else s

/-- A requester's waiter record leaves whatever list it stands in (R22). -/
def State.withdraw (s : State) (who : Holder) : State := allResources.foldl (fun s r => s.withdrawFrom who r) s

/-- An entry that has become FREE (R4). -/
def Entry.freed (e : Entry) : Entry :=
  { e with lease := .free, holder := none, holderPort := none, yieldRequested := false }

/-- What the Drive Unit drops when a lease becomes FREE: settings and generator of CIRC and DOOR_DRIVE (R143, R145), the
travel (R151), the stroke generator (R148). -/
def State.dropDrive (s : State) : Resource → State
  | .circ => { s with drive := { s.drive with circ := Setting.zero, circRamp := Ramp.zero } }
  | .doorDrive => { s with drive := { s.drive with door := Setting.zero, doorRamp := Ramp.zero } }
  | .selector => { s with drive := { s.drive with travel := none, travelReading := none } }
  | .dose n => { s with drive := { s.drive with strokes := upd s.drive.strokes n ⟨false, 0⟩ } }
  | .brine => s | .inlet => s | .heater => s | .drain => s

/-- A lease becomes FREE without a last-release record: a revocation, a timeout, the end of a wind-down or of a force
(R4, R6, R7, R24). -/
def State.freeLease (s : State) (r : Resource) : State :=
  reportSwitching s (((s.dropDrive r).putEntry r (s.entry r).freed))

/-- The last-release record that a release writes (R16). -/
def releaseRecord (clock : Nat) (e : Entry) : Option (Ident × Nat) :=
  match e.holder with
  | some h => if e.waiters.any fun w => w.who.ident != h.ident then some (h.ident, clock) else none
  | none => none

/-- The last-release record written (R16). -/
def State.writeRelease (s : State) (r : Resource) : State :=
  s.putEntry r { s.entry r with lastRelease := releaseRecord s.drive.clock (s.entry r) }

/-- The retract under a released DOOR_DRIVE: direction RETRACT, the ramp generator at level 0, an extending or extended rod
RETRACTING, a retract LEASE with time 0 (R147, R157, R159). -/
def State.startRetract (s : State) : State :=
  let rod := s.door.rod
  let st := match rod.state with
    | .extending => .retracting | .extended => .retracting
    | .retracted => .retracted | .retracting => .retracting | .stalled => .stalled
  { s with
    drive := { s.drive with doorRamp := Ramp.zero, rodExtend := false }
    door := { s.door with rod :=
      { rod with state := st, retract := some (.lease, Timer.zero), retEdge := false, extEdge := false } } }

/-- One lease is let go (R4): FREE, or RELEASING where HELD CIRC winds down from a level above 0 (R146) or HELD DOOR_DRIVE
retracts. -/
def State.letGo (s : State) (r : Resource) : State :=
  match (s.entry r).lease with
  | .free => s
  | .releasing => s
  | .suspended => (s.writeRelease r).freeLease r
  | .moving =>
    let s := (s.writeRelease r).freeLease r
    { s with arb := { s.arb with selCurrent := none } }
  | .held =>
    let s := s.writeRelease r
    match r with
    | .circ =>
      if s.drive.circRamp.level = 0 then s.freeLease r
      else ({ s with drive := { s.drive with circ := { s.drive.circ with active := 0 } } } : State).editEntry r
        fun e => { e with lease := .releasing }
    | .doorDrive => s.startRetract.editEntry r fun e => { e with lease := .releasing }
    | .selector => s.freeLease r
    | .brine => s.freeLease r
    | .inlet => s.freeLease r
    | .heater => s.freeLease r
    | .drain => s.freeLease r
    | .dose _ => s.freeLease r

/-- A holder releases a resource (R4). SELECTOR is never let go under the valve: a holder that has INLET too lets INLET go
first (law 2, R14; R19, R29; notes/assumptions/40.md). -/
def State.release (s : State) (r : Resource) : State :=
  if r = .selector ∧ s.hasHolder .inlet = true ∧ (s.entry .inlet).holder = (s.entry .selector).holder then
    ((s.writeRelease .inlet).freeLease .inlet).letGo .selector
  else s.letGo r

/-- A holder releases a resource if it holds it. -/
def State.releaseIf (s : State) (who : Holder) (r : Resource) : State := if s.holds who r then s.release r else s

/-- A requester releases every lease it holds, the highest table number first (R29, R70). -/
def State.releaseAll (s : State) (who : Holder) : State :=
  allResources.reverse.foldl (fun s r => s.releaseIf who r) s

/-- What the Drive Unit stops when a lease is SUSPENDED: the CIRC generator drops to level 0, a pump stops (R5, R146, R148). -/
def State.stopDrive (s : State) : Resource → State
  | .circ => { s with drive := { s.drive with circRamp := Ramp.zero } }
  | .dose n => { s with drive := { s.drive with strokes := upd s.drive.strokes n ⟨false, 0⟩ } }
  | .selector => s | .brine => s | .inlet => s | .heater => s | .drain => s | .doorDrive => s

/-- A HELD lease is SUSPENDED: its output is off (R5). -/
def State.suspend (s : State) (r : Resource) : State :=
  if (s.entry r).lease == .held then
    reportSwitching s ((s.stopDrive r).editEntry r fun e => { e with lease := .suspended })
  else s

/-- A SUSPENDED lease returns to HELD (R5). -/
def State.restore (s : State) (r : Resource) : State :=
  if (s.entry r).lease == .suspended then s.editEntry r fun e => { e with lease := .held } else s

/-- A revocation by a trip: FREE at once without wind-down, and the list emptied (R6). -/
def State.revoke (s : State) (r : Resource) : State :=
  let s := if s.hasHolder r then s.freeLease r else s
  s.editEntry r fun e => { e with waiters := [] }

/-- The start of a travel toward the held position: MOVING, current position UNKNOWN, the travel count at 0 (R23, R150). -/
def State.startTravel (s : State) (c : Column) : State :=
  { s with arb := { s.arb with selHeld := c, selCurrent := none },
           drive := { s.drive with travel := some Timer.zero, travelReading := none } }

/-- The holder of a HELD SELECTOR asks for a position without letting the lease go, and does not move the selector while
INLET is held (R14, R25). -/
def State.changePosition (s : State) (c : Column) : State :=
  if (s.entry .selector).lease ≠ .held ∨ s.hasHolder .inlet = true then s
  else if s.arb.selCurrent = some c then { s with arb := { s.arb with selHeld := c } }
  else (s.startTravel c).editEntry .selector fun e => { e with lease := .moving }

/-- An entry that is granted to a waiter of this port, if it is of one (R10, R26). -/
def Entry.granted (g : Settings) (clock : Nat) (port : Option Port) (w : Waiter) (l : LeaseState) (e : Entry) : Entry :=
  let e := { e with lease := l, holder := some w.who, holderPort := port, grantTime := clock,
                    waiters := e.waiters.filter fun v => v.who != w.who }
  match ringOf g w.who.ident with
  | .urgent => { e with rrUrgent := some w.who.ident }
  | .normal => { e with rrNormal := some w.who.ident }

/-- A resource granted to a waiter (R10, R23). A HEATER lease is SUSPENDED until its owner has judged the interlock in the
same step, so that the relay is not switched on before (R45). -/
def State.grantLease (s : State) (r : Resource) (w : Waiter) : State :=
  let grant (s : State) (l : LeaseState) : State := 
    s.editEntry r (Entry.granted s.cfg s.drive.clock (s.waiterPort w.who) w l)
  match r with
  | .selector =>
    let c := w.want.getD .a
    if s.arb.selCurrent = some c then grant { s with arb := { s.arb with selHeld := c } } .held
    else grant (s.startTravel c) .moving
  | .heater => grant s .suspended
  | .brine => grant s .held
  | .inlet => grant s .held
  | .circ => grant s .held
  | .drain => grant s .held
  | .dose _ => grant s .held
  | .doorDrive => grant s .held

/-- The `n` of a span of seconds has passed: one more period, and whether the limit is reached (R28, R140). -/
def Timer.tick (t : Timer) (limit : Nat) : Timer := ⟨t.passed + 1, decide (limit ≤ t.passed + 1)⟩

/-- A free choice between two orders (R11, R47; notes/assumptions/1.md): the next value, and the counter past it. -/
def State.choose (s : State) : Nat × State := (Config.freeChoice s.choice, { s with choice := s.choice + 1 })

end Sys2Proof.Machine
end

