-- ==== Sys2Proof/Machine/Accounts.lean ====
section
/-! DEFINITION. The Account Unit (chapter 4): strokes, level corrections, salt, hardness and the draw log. -/

namespace Sys2Proof.Machine

/-- The reservoir accounts replaced in one place. -/
def State.setReservoir (s : State) (n : ReservoirId) (a : Reservoir) : State :=
  { s with acct := { s.acct with reservoirs := upd s.acct.reservoirs n a } }

/-- The salt account replaced. -/
def State.setSalt (s : State) (a : Salt) : State := { s with acct := { s.acct with salt := a } }

/-- The mark a reservoir's amount is snapped to: the smaller of RES_LOWMARK and RES_FULL (R75). -/
def reservoirMark (g : Settings) (n : ReservoirId) : Nat := min g.resLowmark[n] g.resFull[n]

/-- The mark the salt amount is snapped to (R83). -/
def saltMark (g : Settings) : Nat := min g.saltLowmark g.saltFull

/-- A stroke start at the Account Unit: refused EMPTY (none) or taken, with STROKE_VOL deducted from a KNOWN amount (R76). -/
def State.takeStroke (s : State) (n : ReservoirId) : Option State :=
  let a := s.acct.reservoirs[n]
  if a.empty then none
  else if a.known then some (s.setReservoir n { a with amount := a.amount - s.cfg.strokeVol[n] })
  else some s

/-- A reservoir's LOW electrode confirmed uncovered (R78). -/
def State.lowUncovered (s : State) (n : ReservoirId) : State :=
  let a := s.acct.reservoirs[n]
  let mark := reservoirMark s.cfg n
  let amount := if a.known then min a.amount mark else mark
  (s.setReservoir n { a with amount := amount, known := true, low := true }).post .levelLow (n.val + 1) amount

/-- A reservoir's EMPTY electrode confirmed uncovered (R79). -/
def State.emptyUncovered (s : State) (n : ReservoirId) : State :=
  let a := s.acct.reservoirs[n]
  (s.setReservoir n { a with amount := 0, known := true, empty := true }).post .reservoirEmpty (n.val + 1) 0

/-- A reservoir's LOW electrode confirmed covered again: refilled (R80). The Dose Engine is told by the caller. -/
def State.lowCovered (s : State) (n : ReservoirId) : State :=
  let full := s.cfg.resFull[n]
  (s.setReservoir n { amount := full, known := true, low := false, empty := false }).post
    .reservoirRefilled (n.val + 1) full

/-- A reservoir's EMPTY electrode confirmed covered again (R81). -/
def State.emptyCovered (s : State) (n : ReservoirId) : State :=
  let a := s.acct.reservoirs[n]
  let amount := min (max a.amount s.cfg.strokeVol[n]) s.cfg.resFull[n]
  s.setReservoir n { a with amount := amount, known := true, empty := false }

/-- A change of the salt account is reported to the Softener Unit: a wait for salt ends unless the amount is KNOWN and 0
(R62, R84). -/
def State.saltReported (s : State) : State :=
  if s.acct.salt.known && s.acct.salt.amount == 0 then s else { s with soft := { s.soft with saltWait := false } }

/-- Salt deducted for brine: a KNOWN amount falls, not below 0 (R66, R84). -/
def State.deductSalt (s : State) (grams : Nat) : State :=
  let a := s.acct.salt
  if a.known then (s.setSalt { a with amount := a.amount - grams }).saltReported else s

/-- SALT_LOW confirmed uncovered (R85). -/
def State.saltUncovered (s : State) : State :=
  let a := s.acct.salt
  let amount := if a.known then min a.amount (saltMark s.cfg) else saltMark s.cfg
  ((s.setSalt { amount := amount, known := true, low := true }).saltReported).post .saltLow 0 amount

/-- SALT_LOW confirmed covered again: refilled (R85). -/
def State.saltCovered (s : State) : State :=
  ((s.setSalt { amount := s.cfg.saltFull, known := true, low := false }).saltReported).post .saltRefilled 0 s.cfg.saltFull

/-- The current hardness takes a value and an origin; HARDNESS_CHANGED is posted where the value differs (R86). -/
def State.setHardness (s : State) (h : Nat) (sensed : Bool) : State :=
  let changed := s.acct.hardness != h
  let s := { s with acct := { s.acct with hardness := h, sensed := sensed } }
  if changed then s.post .hardnessChanged sensed.toNat h else s

/-- A published INLET_COND result offered as a reading (R87). -/
def State.hardnessReading (s : State) (count : Nat) (q : Quality) : State :=
  if s.cfg.hardnessSensed && s.flowingFill.isSome && q == .valid && s.cfg.hardnessTable.any (fun b => b.1 != 0) then
    s.setHardness (bandLookup count s.cfg.hardnessTable) true
  else s

/-- A draw record appended (R89): it takes the next draw number, and the oldest of 16 makes room. -/
def State.appendDraw (s : State) (p : Purpose) (softA softB bypass hardness : Nat) (o : OutcomeCode) : State :=
  let rec' : DrawRecord := ⟨s.acct.nextDraw, p, softA, softB, bypass, hardness, o, s.drive.clock⟩
  let kept := if s.acct.log.length < Config.drawLogLength then s.acct.log else s.acct.log.drop 1
  { s with acct := { s.acct with log := kept ++ [rec'], nextDraw := wordSucc s.acct.nextDraw } }

/-- A draw record of a regeneration phase: soft through the column regenerated (R66, R69, R70). -/
def State.appendRegenDraw (s : State) (p : Purpose) (c : Column) (volume hardness : Nat) (o : OutcomeCode) : State :=
  match c with
  | .a => s.appendDraw p volume 0 0 hardness o
  | .b => s.appendDraw p 0 volume 0 hardness o

/-- The scaling hardness: that of the newest WASH record held, or the current hardness (R88). -/
def State.scalingHardness (s : State) : Nat :=
  match s.acct.log.reverse.find? fun r => r.purpose == .wash with
  | some r => r.hardness
  | none => s.acct.hardness

/-- The dose factor the Account Unit answers (R88). -/
def State.doseFactor (s : State) : Nat := bandLookup s.scalingHardness s.cfg.factorTable

/-- The oldest draw number held, or the next if the log is empty (R90). -/
def State.oldestDraw (s : State) : Nat :=
  match s.acct.log with
  | [] => s.acct.nextDraw
  | r :: _ => r.number

/-- A record number is at or after `f` (R90). -/
def atOrAfter (f n : Nat) : Bool := (n + wordModulus - f) % wordModulus ≤ 32767

/-- The level flags of accounts whose roles no point holds are cleared (R77, R187). -/
def State.clearLevelFlags (s : State) : State :=
  let s := (List.finRange 3).foldl (fun s n =>
    let a := s.acct.reservoirs[n]
    s.setReservoir n { a with low := a.low && (s.roleHolder (.low n)).isSome,
                              empty := a.empty && (s.roleHolder (.empty n)).isSome }) s
  s.setSalt { s.acct.salt with low := s.acct.salt.low && (s.roleHolder .saltLow).isSome }

end Sys2Proof.Machine
end

