-- ==== Sys2Proof/Machine/Dosing.lean ====
section
/-! DEFINITION. The Dose Engine (chapter 5): loading, triggers, runs, stroke starts and ends, halts. -/

namespace Sys2Proof.Machine

/-- A channel record. -/
def State.channel (s : State) (c : ChannelId) : Channel := s.dose.channels[c]

/-- A channel record replaced. -/
def State.setChannel (s : State) (c : ChannelId) (ch : Channel) : State :=
  { s with dose := { s.dose with channels := upd s.dose.channels c ch } }

/-- The channels in order. -/
def allChannels : List ChannelId := [0, 1, 2, 3]

/-- The current descriptor of a channel, as the table holds it (R95); an IDLE channel has none. -/
def State.currentDesc (s : State) (ch : Channel) : Desc :=
  match ch.current with
  | some d => s.dose.descs[d]
  | none => descReset

/-- The reservoir of a channel's current descriptor. -/
def State.channelReservoir (s : State) (ch : Channel) : ReservoirId := (descReservoir (s.currentDesc ch)).getD 0

/-- The pump resource of a channel's current descriptor. -/
def State.channelPump (s : State) (ch : Channel) : Resource := .dose (s.channelReservoir ch)

/-- Loaded minus completed (R96). -/
def Channel.remaining (ch : Channel) : Nat := ch.loaded - ch.completed

/-- The size of a run that opens (R102): SINGLE 1, SUCCESSIVE all, BLOCK the block length, within the remaining count. -/
def runSize (d : Desc) (remaining : Nat) : Nat :=
  match d.mode with
  | 0 => min 1 remaining
  | 1 => remaining
  | _ => min d.blockLength remaining

/-- A channel that enters ARMED, or whose flag is set in ARMED, acts at once (R103). -/
def State.armedAct (s : State) (c : ChannelId) : State :=
  let ch := s.channel c
  if ch.state = .armed then
    if 0 < ch.runLeft then
      (s.setChannel c { ch with state := .waitingPump }).ask (s.channelPump ch) (channelWho c) 0 none
    else if ch.flag then
      (s.setChannel c { ch with state := .waitingPump, flag := false,
                                runLeft := runSize (s.currentDesc ch) ch.remaining }).ask
        (s.channelPump ch) (channelWho c) 0 none
    else s
  else s

/-- The loaded count (R98). -/
def State.loadedCount (s : State) (d : Desc) : Nat :=
  if d.scale = 1 then max 1 (min 4095 (ceilDiv (d.baseCount * s.doseFactor) 16)) else d.baseCount

/-- A descriptor loaded into a channel (R97). A delay of 0 gives the DELAY trigger at the load itself (R99). -/
def State.loadDesc (s : State) (c : ChannelId) (n : DescId) : State :=
  let d := s.dose.descs[n]
  let delayed := sourceOf d.source == some .delay
  (s.setChannel c
    { Channel.reset with
      state := .armed, current := some n, loaded := s.loadedCount d,
      flag := delayed && d.delay == 0, delayLeft := if delayed then d.delay else 0,
      delayArmed := delayed && d.delay != 0 }).armedAct c

/-- A trigger reaches a channel: it sets the flag, and starts a run in ARMED (R100). -/
def State.triggerChannel (s : State) (c : ChannelId) : State :=
  let ch := s.channel c
  if ch.state = .idle then s else (s.setChannel c { ch with flag := true }).armedAct c

/-- A trigger offered to every non-IDLE channel whose current descriptor has the source (R99). -/
def State.offerTrigger (s : State) (src : TriggerSource) : State :=
  allChannels.foldl (fun s c =>
    if sourceOf (s.currentDesc (s.channel c)).source == some src then s.triggerChannel c else s) s

/-- CHANNEL_DONE of a finishing channel offered to the others that name it (R99, R110). -/
def State.offerChannelDone (s : State) (done : ChannelId) : State :=
  allChannels.foldl (fun s c =>
    let d := s.currentDesc (s.channel c)
    if c != done && sourceOf d.source == some .channelDone && d.sourceChannel == done.val then s.triggerChannel c
    else s) s

/-- A channel becomes HALTED with a cause; DOSE_HALTED is posted (R119). -/
def State.haltChannel (s : State) (c : ChannelId) (cause : HaltCause) : State :=
  (s.setChannel c { s.channel c with state := .halted, cause := cause, step := .none, interval := Timer.zero }).post
    .doseHalted c.val (haltCauseCode cause)

/-- A halt with cause EMPTY: DOSEn released, no stroke made (R112). -/
def State.haltEmpty (s : State) (c : ChannelId) : State :=
  (s.releaseIf (channelWho c) (s.channelPump (s.channel c))).haltChannel c .empty

/-- A stroke in progress is cut: the started count falls back (R113, R114). -/
def Channel.cut (ch : Channel) : Channel :=
  if ch.step = .stroke then { ch with started := ch.started - 1, step := .none } else { ch with step := .none }

/-- The door opens while a channel is DOSING, its lease SUSPENDED by the Resource Arbiter: HALTED with cause DOOR, and at
once with cause STOP where a stop was pending, which stays pending (R113, R115; notes/assumptions/25.md). -/
def State.channelDoorOpened (s : State) (c : ChannelId) : State :=
  let ch := s.channel c
  if ch.state = .dosing then
    let s := (s.setChannel c ch.cut).haltChannel c .door
    if ch.stopPending then
      (s.releaseIf (channelWho c) (s.channelPump ch)).haltChannel c .stop
    else s
  else s

/-- A trip latches: every non-IDLE channel HALTED with cause TRIP (R114). The pumps have been revoked. -/
def State.channelTripped (s : State) (c : ChannelId) : State :=
  let ch := s.channel c
  if ch.state = .idle then s
  else
    let s := s.setChannel c { ch.cut with stopPending := false }
    if ch.state = .halted ∧ ch.cause = .trip then s else s.haltChannel c .trip

/-- A stroke that the Drive Unit reports as cut is taken as the lease stands: as at a door opening where the channel still
holds its pump, as at a trip where the pump has been revoked (R113, R114, R148). -/
def State.strokeCut (s : State) (c : ChannelId) : State :=
  if s.holds (channelWho c) (s.channelPump (s.channel c)) then s.channelDoorOpened c else s.channelTripped c

/-- Stages 3 and 4 of a stroke start: the Account Unit is asked, and the stroke is begun. On a lease that is not HELD it is not
made, and is reported as cut; the volume deducted stays deducted (R105, R148). -/
def State.strokeStage3 (s : State) (c : ChannelId) : State :=
  let ch := s.channel c
  let n := s.channelReservoir ch
  match s.takeStroke n with
  | none => s.haltEmpty c
  | some s =>
    let s := s.setChannel c { ch with started := ch.started + 1, step := .stroke, interval := Timer.zero }
    if s.holdsHeld (channelWho c) (.dose n) then
      { s with drive := { s.drive with strokes := upd s.drive.strokes n ⟨true, 0⟩ } }
    else s.strokeCut c

/-- A stroke start judged: EMPTY, water, the account (R105). -/
def State.strokeStart (s : State) (c : ChannelId) : State :=
  let ch := s.channel c
  if s.acct.reservoirs[s.channelReservoir ch].empty then s.haltEmpty c
  else if (s.currentDesc ch).needsWater == 1 && !s.waterPresent then
    s.setChannel c { ch with step := .water, interval := Timer.zero }
  else s.strokeStage3 c

/-- DOSEn is granted to a channel in WAITING_PUMP: DOSING, and the next stroke start judged at once (R104). -/
def State.channelGranted (s : State) (c : ChannelId) : State :=
  if (s.channel c).state = .waitingPump then
    (s.setChannel c { s.channel c with state := .dosing, step := .none, interval := Timer.zero }).strokeStart c
  else s

/-- A DOSE_STOP acts on a channel by the table of R115, a stop that is still pending after a door opening or not (DESIGN CHOICE,
notes/assumptions/25.md). -/
def State.stopChannel (s : State) (c : ChannelId) : State :=
  let ch := s.channel c
  match ch.state with
  | .idle => s
  | .armed => s.haltChannel c .stop
  | .waitingPump => (s.withdraw (channelWho c)).haltChannel c .stop
  | .dosing =>
    if ch.step = .stroke then s.setChannel c { ch with stopPending := true }
    else (s.releaseIf (channelWho c) (s.channelPump ch)).haltChannel c .stop
  | .halted =>
    match ch.cause with
    | .door => (s.releaseIf (channelWho c) (s.channelPump ch)).haltChannel c .stop
    | .empty => s.haltChannel c .stop
    | .stop => s
    | .trip => s
    | .none => s

/-- A channel taken to IDLE: every field at its first value (R110, R117). -/
def State.idleChannel (s : State) (c : ChannelId) : State := s.setChannel c Channel.reset

/-- A descriptor is finished: the pump released, the link loaded or the channel IDLE, CHANNEL_DONE, the report, and then a
stop that was pending (R110, R111). -/
def State.finishDesc (s : State) (c : ChannelId) : State :=
  let ch := s.channel c
  let d := s.currentDesc ch
  let s := s.releaseIf (channelWho c) (s.channelPump ch)
  let s := match descLink d with
    | some l => if descEmpty s.dose.descs[l] then s.idleChannel c else s.loadDesc c l
    | none => s.idleChannel c
  let s := s.offerChannelDone c
  let s := if d.endReport == 1 then
      match ch.current with
      | some n => s.post .doseDescDone c.val n.val
      | none => s
    else s
  if ch.stopPending then s.stopChannel c else s

/-- A stroke has run its full length: it is counted, and the descriptor, the run or the interval follows (R105 stage 5,
R108, R115). -/
def State.strokeEnded (s : State) (c : ChannelId) : State :=
  let ch := s.channel c
  let ch' := { ch with completed := ch.completed + 1, runLeft := ch.runLeft - 1, step := .none }
  if ch.state ≠ .dosing ∨ ch.step ≠ .stroke then s
  else if ch'.completed = ch'.loaded then s.finishDesc c
  else if ch'.stopPending then
    ((s.releaseIf (channelWho c) (s.channelPump ch)).setChannel c { ch' with stopPending := false }).haltChannel c .stop
  else if ch'.runLeft = 0 then
    ((s.releaseIf (channelWho c) (s.channelPump ch)).setChannel c { ch' with state := .armed }).armedAct c
  else s.setChannel c { ch' with step := .interval, interval := Timer.zero }

/-- The door closes and DOSEn is HELD again: a channel HALTED with cause DOOR works on (R113). -/
def State.channelDoorClosed (s : State) (c : ChannelId) : State :=
  let ch := s.channel c
  if ch.state = .halted ∧ ch.cause = .door then
    (s.setChannel c { ch with state := .dosing, cause := .none, step := .none }).strokeStart c
  else s

/-- A HALTED channel returns to ARMED (R112, R116). -/
def State.returnChannel (s : State) (c : ChannelId) : State :=
  (s.setChannel c { s.channel c with state := .armed, cause := .none }).armedAct c

/-- A refill returns every channel HALTED with cause EMPTY on the reservoir (R112). -/
def State.refillChannels (s : State) (n : ReservoirId) : State :=
  allChannels.foldl (fun s c =>
    let ch := s.channel c
    if ch.state = .halted ∧ ch.cause = .empty ∧ s.channelReservoir ch = n then s.returnChannel c else s) s

/-- TANK_MIN reads water present: a channel in step WATER goes on at stage 3 (R107), in the order CH0 to CH3 (DESIGN CHOICE,
notes/assumptions/34.md). -/
def State.waterChannels (s : State) : State :=
  if s.waterPresent then
    allChannels.foldl (fun s c =>
      let ch := s.channel c
      if ch.state = .dosing ∧ ch.step = .water then s.strokeStage3 c else s) s
  else s

/-- A dose run yields between strokes: the pump released and asked for again (R109). -/
def State.yieldChannel (s : State) (c : ChannelId) : State :=
  let ch := s.channel c
  ((s.release (s.channelPump ch)).setChannel c
    { ch with state := .waitingPump, step := .none, interval := Timer.zero }).ask (s.channelPump ch) (channelWho c) 0 none

end Sys2Proof.Machine
end

