-- ==== Sys2Proof/Machine/Softener.lean ====
section
/-! DEFINITION. The Softener Unit (chapter 3): column records, charges, fill positions and the regeneration queue. -/

namespace Sys2Proof.Machine

/-- A column record replaced. -/
def State.setColumn (s : State) (c : Column) (r : ColumnRec) : State :=
  match c with
  | .a => { s with soft := { s.soft with colA := r } }
  | .b => { s with soft := { s.soft with colB := r } }

/-- The regeneration queue replaced. -/
def State.setQueue (s : State) (q : List QueueEntry) : State := { s with soft := { s.soft with queue := q } }

/-- The regeneration in progress replaced. -/
def State.setRegen (s : State) (g : Option Regen) : State := { s with soft := { s.soft with regen := g } }

/-- The regeneration in progress is of this column. -/
def State.regenOf (s : State) (c : Column) : Bool :=
  match s.soft.regen with
  | some g => g.column == c
  | none => false

/-- A column has a queue entry (R61). -/
def State.isQueued (s : State) (c : Column) : Bool := s.soft.queue.any fun q => q.column == c

/-- A REGEN entry for a column joins the tail, unless the column has an entry or is the column of the regeneration in
progress (R61). -/
def State.joinTail (s : State) (c : Column) : State :=
  if s.isQueued c || s.regenOf c then s
  else s.setQueue (s.soft.queue ++ [⟨c, none, s.drive.clock⟩])

/-- A REGEN entry for a column is placed at the head (R61, R63). -/
def State.joinHead (s : State) (c : Column) : State :=
  if s.isQueued c then s else s.setQueue (⟨c, none, s.drive.clock⟩ :: s.soft.queue)

/-- Each EXHAUSTED column joins the tail, A before B (R61, R187). -/
def State.queueExhausted (s : State) : State :=
  let s := if s.soft.colA.state == .exhausted then s.joinTail .a else s
  if s.soft.colB.state == .exhausted then s.joinTail .b else s

/-! ### Fill positions (3.3) -/

/-- The fill position of a FILL (R57). -/
def State.fillPosition (s : State) (who : Holder) : Option Column :=
  match s.inService with
  | some c => some c
  | none =>
    if s.cfg.exhaustBypass then
      if s.holds who .selector && (s.column s.arb.selHeld).state == .exhausted then some s.arb.selHeld
      else
        let other := if s.soft.colA.state == .exhausted then Column.a else .b
        match s.arb.selCurrent with
        | some c => some (if (s.column c).state == .exhausted then c else other)
        | none => some other
    else none

/-- The wanted position of a fill's SELECTOR waiter rewritten in its place (R58). -/
def State.rewriteWant (s : State) (who : Holder) (c : Column) : State :=
  let e := s.entry .selector
  s.putEntry .selector
    { e with waiters := e.waiters.map fun w => if w.who == who then { w with want := some c } else w }

/-- A fill enters WAIT_SOFT: its waiter record is removed, INLET released, then SELECTOR; its counts are kept (R35, R58,
R60). -/
def State.enterWaitSoft (s : State) (i : SlotId) : State :=
  match s.fillAt i with
  | some (sl, w) =>
    let who := slotWho i sl
    (((s.withdraw who).releaseIf who .inlet).releaseIf who .selector).setWork i (.fill { w with waitSoft := true })
  | none => s

/-- A fill asks for SELECTOR at its position, or enters WAIT_SOFT where it has none (R35, R60). -/
def State.fillAsks (s : State) (i : SlotId) : State :=
  match s.fillAt i with
  | some (sl, w) =>
    let who := slotWho i sl
    match s.fillPosition who with
    | some c => (s.setWork i (.fill { w with waitSoft := false })).ask .selector who sl.age (some c)
    | none => s.setWork i (.fill { w with waitSoft := true })
  | none => s

/-- The holder of a HELD SELECTOR asks for a position, and for INLET where the lease is HELD there (R25, R35). -/
def State.toInlet (s : State) (who : Holder) (serial : Nat) (c : Column) : State :=
  let s := s.changePosition c
  if (s.entry .selector).lease == .held then s.ask .inlet who serial none else s

/-- The fill position of one FILL judged afresh, and acted on according to where the fill stands (R58). -/
def State.judgeFill (s : State) (i : SlotId) : State :=
  match s.fillAt i with
  | none => s
  | some (sl, w) =>
    let who := slotWho i sl
    let pos := s.fillPosition who
    if w.waitSoft then
      if pos.isSome then s.fillAsks i else s
    else if s.waitsFor who .selector then
      match pos with
      | some c => s.rewriteWant who c
      | none => s.enterWaitSoft i
    else if s.holdsHeld who .selector then
      match pos with
      | none => s.enterWaitSoft i
      | some c =>
        if s.holds who .inlet || c == s.arb.selHeld then s
        else (s.withdraw who).toInlet who sl.age c
    else s

/-- Every FILL's position judged afresh but that of the fill whose decilitre is being taken, which compares at stage 5
of R36 (R58). The order of the judgements is pool-slot order (DESIGN CHOICE, notes/assumptions/34.md). -/
def State.judgeFills (s : State) (but : Option SlotId) : State :=
  allSlots.foldl (fun s i => if but = some i then s else s.judgeFill i) s

/-- SELECTOR is HELD by a fill: its position is judged again, and INLET asked for where it stands at it (R35, R58). -/
def State.fillSelectorHeld (s : State) (i : SlotId) : State :=
  match s.fillAt i with
  | none => s
  | some (sl, _) =>
    let who := slotWho i sl
    match s.fillPosition who with
    | none => s.enterWaitSoft i
    | some c => s.toInlet who sl.age c

/-- A holder of SELECTOR or INLET at a yield point gives up the lowest of them whose flag is yes, and every one above it, and
asks again, for SELECTOR at the same position (R19). -/
def State.yieldPath (s : State) (who : Holder) (serial : Nat) : State :=
  if s.holds who .selector && (s.entry .selector).yieldRequested then
    let c := s.arb.selHeld
    ((s.releaseIf who .inlet).release .selector).ask .selector who serial (some c)
  else if s.holds who .inlet && (s.entry .inlet).yieldRequested then (s.release .inlet).ask .inlet who serial none
  else s

/-! ### The head of the queue (R62) -/

/-- The acceptance order a regeneration's requests carry (R1). -/
def State.regenSerial (s : State) (g : Regen) : Nat :=
  match g.requester with
  | some (_, i) => match s.pool[i] with
    | some sl => sl.age
    | none => 0
  | none => 0

/-- A regeneration asks for SELECTOR at its column's position (R63, R68). -/
def State.regenAsks (s : State) (g : Regen) : State := s.ask .selector (regenWho g) (s.regenSerial g) (some g.column)

/-- Every condition of R62 but the salt holds. -/
def State.headReady (s : State) : Bool :=
  s.mode == .run && s.soft.regen.isNone && !s.soft.queue.isEmpty && !s.latched

/-- The salt account is both KNOWN and 0 (R62). -/
def State.saltOut (s : State) : Bool := s.acct.salt.known && s.acct.salt.amount == 0

/-- A regeneration just taken from a queue entry: STARTING (R63). -/
def freshRegen (q : QueueEntry) : Regen :=
  { column := q.column, requester := q.requester, phase := .starting, counted := 0, pulses := 0, noFlow := Timer.zero,
    soak := Timer.zero, brineSeen := false, judgement := .none, brineStarted := false, rinseStarted := false,
    cancelPending := false, lastHardness := 0 }

/-- The queue judged for its head, which is taken for a regeneration, asking for SELECTOR, or begins a wait for salt. Every change
that R62 names judges it in its own step, after its own reports and before the step's grants (R62, R63, R69, R70, R72; DESIGN CHOICE
for the place in the step, notes/assumptions/42.md). -/
def State.takeHead (s : State) : State :=
  match s.soft.queue with
  | [] => s
  | q :: rest =>
    if s.headReady then
      if s.saltOut then
        if s.soft.saltWait then s
        else ({ s with soft := { s.soft with saltWait := true } } : State).post .saltNeeded (columnCode q.column) 0
      else ((s.setQueue rest).setRegen (some (freshRegen q))).regenAsks (freshRegen q)
    else s

/-! ### Charges and exhaustion (3.2) -/

/-- A column comes into service if it is STANDBY; whether it did (R55, R64). -/
def State.standbyIn (s : State) (c : Column) : State × Bool :=
  if (s.column c).state == .standby then (s.setColumn c { s.column c with state := .inService }, true) else (s, false)

/-- COLUMN_IN_SERVICE is posted for a column that came into service (R55, R64, R69). -/
def State.postInService (s : State) (c : Column) (came : Bool) : State :=
  if came then s.post .columnInService (columnCode c) (s.column c).remaining else s

/-- A column is exhausted: EXHAUSTED, queued under AUTO_REGEN, the STANDBY column into service, the reports, the fill
positions, and the head of the queue (R55, R56, R62). `value` is 0 by count, 1 by breakthrough; `but` is the fill whose decilitre it is. -/
def State.exhaustColumn (s : State) (c : Column) (value : Nat) (but : Option SlotId) : State :=
  let s := s.setColumn c { s.column c with state := .exhausted, remaining := 0, breakthrough := none }
  let s := if s.cfg.autoRegen then s.joinTail c else s
  let p := s.standbyIn (Column.other c)
  let s := p.1.post .columnExhausted (columnCode c) value
  ((s.postInService (Column.other c) p.2).judgeFills but).takeHead

/-- What a charged decilitre was (R54). -/
inductive Charge where
  | soft (c : Column) | bypass
deriving DecidableEq, Repr

/-- One decilitre of a FILL charged to the column at the held position: soft through an IN_SERVICE column, whose remaining
capacity falls by the hardness; bypass through any other. A column left at 0, or marked with the breakthrough of this fill, is exhausted
(R54 to R56). -/
def State.chargeDecilitre (s : State) (i : SlotId) : State × Charge :=
  let c := s.arb.selHeld
  let r := s.column c
  if r.state == .inService then
    let s' := s.setColumn c { r with remaining := r.remaining - s.acct.hardness }
    let left := (s'.column c).remaining
    let s' := if r.breakthrough = some i then s'.exhaustColumn c 1 (some i)
      else if left = 0 then s'.exhaustColumn c 0 (some i) else s'
    (s', .soft c)
  else (s, .bypass)

/-- A fill whose outcome is fixed takes the breakthrough marked while it flowed, without a charge (R56). -/
def State.takeBreakthrough (s : State) (i : SlotId) : State :=
  let s := if s.soft.colA.breakthrough = some i then s.exhaustColumn .a 1 none else s
  if s.soft.colB.breakthrough = some i then s.exhaustColumn .b 1 none else s

/-- SOFT_COND confirmed CROSSED: a breakthrough is marked where a FILL flows through an IN_SERVICE column (R56). -/
def State.markBreakthrough (s : State) : State :=
  match s.flowingFill with
  | some i =>
    let c := s.arb.selHeld
    let r := s.column c
    if r.state == .inService && r.breakthrough.isNone then s.setColumn c { r with breakthrough := some i } else s
  | none => s

end Sys2Proof.Machine
end

