-- ==== Sys2Proof/Machine/Water.lean ====
section
/-! DEFINITION. The washing operations FILL, CIRCULATE, HEAT and DRAIN (chapter 2): taking up, grants and ends. -/

namespace Sys2Proof.Machine

/-! ### The slots -/

/-- The CIRCULATE of a slot whose outcome is not fixed. -/
def State.circAt (s : State) (i : SlotId) : Option (Slot × CircWork) :=
  match s.pool[i] with
  | some sl => match sl.work, sl.outcome with
    | .circulate w, none => some (sl, w)
    | _, _ => none
  | none => none

/-- The HEAT of a slot. -/
def State.heatAt (s : State) (i : SlotId) : Option (Slot × HeatWork) :=
  match s.pool[i] with
  | some sl => match sl.work with
    | .heat w => some (sl, w)
    | _ => none
  | none => none

/-- The DRAIN of a slot. -/
def State.drainAt (s : State) (i : SlotId) : Option (Slot × DrainWork) :=
  match s.pool[i] with
  | some sl => match sl.work with
    | .drain w => some (sl, w)
    | _ => none
  | none => none

/-- The tank volume account replaced (R33). -/
def State.setTank (s : State) (tank : Nat) (known : Bool) : State :=
  { s with water := { s.water with tank := tank, tankKnown := known } }

/-- The tank account raised by one decilitre, held at 255 (R33). -/
def State.raiseTank (s : State) : State := s.setTank (min 255 (s.water.tank + 1)) s.water.tankKnown

/-! ### FILL (2.3) -/

/-- The result fields of a FILL (R40). -/
def fillFields (w : FillWork) : List Byte := byte1 w.counted ++ byte1 w.softA ++ byte1 w.softB ++ byte1 w.bypass

/-- The outcome of a FILL is fixed: INLET and SELECTOR released, the waiter record removed, a marked breakthrough taken,
the draw record appended, FILL_DONE handed on, the response made (R29, R40, R56). The leases are let go before the breakthrough is
taken, so that the regeneration it may bring does not contest their release (DESIGN CHOICE, notes/assumptions/34.md). -/
def State.finishFill (s : State) (i : SlotId) (o : OutcomeCode) (answer : Bool) : State :=
  match s.fillAt i with
  | none => s
  | some (sl, w) =>
    let who := slotWho i sl
    let s := ((s.fixOutcome i o).releaseAll who).withdraw who
    let s := s.takeBreakthrough i
    let hardness := if w.counted = 0 then s.acct.hardness else w.lastHardness
    let s := s.appendDraw .wash w.softA w.softB w.bypass hardness o
    let s := if o = .done ∨ o = .limit then s.offerTrigger .fillDone else s
    s.endSlot i o (fillFields w) answer

/-- A FILL is taken up: its volume is checked, and it asks for SELECTOR or waits (R28, R35). -/
def State.takeUpFill (s : State) (i : SlotId) : State :=
  match s.fillAt i with
  | none => s
  | some (_, w) =>
    if 1 ≤ w.requested ∧ w.requested ≤ 100 then s.fillAsks i else s.finishFill i .badParam true

/-- INLET is granted to a FILL: LIMIT where the tank account has reached TANK_LIMIT, before the valve opens (R35). -/
def State.fillInletGranted (s : State) (i : SlotId) : State :=
  match s.fillAt i with
  | none => s
  | some (_, w) =>
    if s.cfg.tankLimit ≤ s.water.tank then s.finishFill i .limit true
    else s.setWork i (.fill { w with noFlow := Timer.zero })

/-! ### CIRCULATE (2.4) -/

/-- The outcome of a CIRCULATE is fixed: CIRC released, and the response made at once or, where CIRC is RELEASING, left for
the notice that it is FREE; a port reset frees the slot at once (R29, R30, R41). -/
def State.finishCirc (s : State) (i : SlotId) (o : OutcomeCode) (answer : Bool) : State :=
  match s.circAt i with
  | none => s
  | some (sl, _) =>
    let who := slotWho i sl
    let winds := s.holdsHeld who .circ && decide (0 < s.circLevel)
    let s := ((s.fixOutcome i o).releaseAll who).withdraw who
    if winds && answer then s else s.endSlot i o [] answer

/-- CIRC has become FREE: a CIRCULATE of the slot whose outcome is fixed is answered (R29). -/
def State.circFreed (s : State) (h : Option Holder) : State :=
  match h with
  | some ⟨_, some i⟩ =>
    match s.pool[i] with
    | some sl => match sl.work, sl.outcome with
      | .circulate _, some o => s.endSlot i o [] true
      | _, _ => s
    | none => s
  | _ => s

/-- The wind-down of CIRC ends: the lease becomes FREE and its owner is told (R4, R146). -/
def State.endCircWindDown (s : State) : State :=
  let h := (s.entry .circ).holder
  (s.freeLease .circ).circFreed h

/-- A CIRCULATE is taken up: its parameters are checked, and it asks for CIRC (R27, R28). -/
def State.takeUpCirc (s : State) (i : SlotId) : State :=
  match s.circAt i with
  | none => s
  | some (sl, w) =>
    if 1 ≤ w.duty ∧ w.duty ≤ 255 ∧ 1 ≤ w.runTime ∧ w.runTime ≤ 7200 then s.ask .circ (slotWho i sl) sl.age none
    else s.finishCirc i .badParam true

/-- CIRC is granted to a CIRCULATE: the active setting becomes the requested duty (R41). -/
def State.circGranted (s : State) (i : SlotId) : State :=
  match s.circAt i with
  | none => s
  | some (_, w) => { s with drive := { s.drive with circ := ⟨w.duty, 0, false⟩ } }

/-- CIRCULATION_STARTED is posted and handed on the first time the ramp level of a CIRCULATE reaches the duty in force
(R41). -/
def State.circReached (s : State) : State :=
  let e := s.entry .circ
  match e.lease, e.holder with
  | .held, some ⟨_, some i⟩ =>
    match s.circAt i with
    | some (sl, w) =>
      if !w.started && s.drive.circRamp.level == s.drive.circ.active then
        ((s.setWork i (.circulate { w with started := true })).post .circulationStarted (portCode sl.port)
          s.drive.circ.active).offerTrigger .circulationStarted
      else s
    | none => s
  | _, _ => s

/-- A CIRCULATE yields CIRC at a whole second of run: released, and asked for again at once (R19, R20, R42). -/
def State.yieldCirc (s : State) (i : SlotId) : State :=
  match s.circAt i with
  | none => s
  | some (sl, _) => (s.release .circ).ask .circ (slotWho i sl) sl.age none

/-! ### HEAT (2.6) -/

/-- The outcome of a HEAT is fixed: HEATER released, HEAT_REACHED and HEAT_DONE where it is DONE, the response (R29,
R46). -/
def State.finishHeat (s : State) (i : SlotId) (o : OutcomeCode) (answer : Bool) : State :=
  match s.heatAt i with
  | none => s
  | some (sl, _) =>
    let who := slotWho i sl
    let s := ((s.fixOutcome i o).releaseAll who).withdraw who
    let s := if o = .done then
        (s.post .heatReached (portCode sl.port) s.water.temperature).offerTrigger .heatDone
      else s
    s.endSlot i o [] answer

/-- A HEAT is taken up: its parameters are checked, and it asks for HEATER (R27, R28). -/
def State.takeUpHeat (s : State) (i : SlotId) : State :=
  match s.heatAt i with
  | none => s
  | some (sl, w) =>
    if 200 ≤ w.target ∧ w.target ≤ 750 ∧ 60 ≤ w.limit ∧ w.limit ≤ 7200 then s.ask .heater (slotWho i sl) sl.age none
    else s.finishHeat i .badParam true

/-- HEATER is granted to a HEAT: at the first grant the limit starts and a valid reading is compared; then, where the
HEAT goes on, the relay goes on only where the interlock is met (R45, R46, R141). -/
def State.heatGranted (s : State) (i : SlotId) : State :=
  match s.heatAt i with
  | none => s
  | some (_, w) =>
    let reached := !w.granted && s.water.probeValid && decide (w.target ≤ s.water.temperature)
    let s := if w.granted then s else s.setWork i (.heat { w with granted := true, passed := Timer.zero })
    if reached then s.finishHeat i .done true
    else if s.interlockMet then s.restore .heater else s

/-- A HEAT yields HEATER at once: released and asked for again (R19, R20, R47). -/
def State.yieldHeat (s : State) (i : SlotId) : State :=
  match s.heatAt i with
  | none => s
  | some (sl, _) => (s.release .heater).ask .heater (slotWho i sl) sl.age none

/-- A valid reading taken by the HEATs that have been granted HEATER, in slot order (R46; notes/assumptions/34.md). -/
def State.heatsReading (s : State) : State :=
  allSlots.foldl (fun s i =>
    match s.heatAt i with
    | some (_, w) => if w.granted ∧ w.target ≤ s.water.temperature then s.finishHeat i .done true else s
    | none => s) s

/-- An invalid reading ends every HEAT, in slot order (R46; notes/assumptions/34.md). -/
def State.heatsProbeFault (s : State) : State := allSlots.foldl (fun s i => s.finishHeat i .probeFault true) s

/-! ### DRAIN (2.7) -/

/-- The outcome of a DRAIN is fixed: the pump stops, DONE sets the tank account to 0 and KNOWN, the response (R29, R33,
R48). -/
def State.finishDrain (s : State) (i : SlotId) (o : OutcomeCode) (answer : Bool) : State :=
  match s.drainAt i with
  | none => s
  | some (sl, _) =>
    let who := slotWho i sl
    let s := ((s.fixOutcome i o).releaseAll who).withdraw who
    let s := if o = .done then s.setTank 0 true else s
    s.endSlot i o [] answer

/-- A DRAIN is taken up: it asks for DRAIN (R27). -/
def State.takeUpDrain (s : State) (i : SlotId) : State :=
  match s.drainAt i with
  | none => s
  | some (sl, _) => s.ask .drain (slotWho i sl) sl.age none

/-- The drain limit has passed outside a post-run: TIMEOUT and DRAIN_SLOW (R49). -/
def State.drainTimeout (s : State) (i : SlotId) : State :=
  match s.drainAt i with
  | some (sl, _) => (s.finishDrain i .timeout true).fault .drainSlow (portCode sl.port) s.water.tank
  | none => s

/-- The end of a DRAIN in progress judged afresh: a post-run started at water absent, or abandoned at any other reading;
with DRAIN_POSTRUN 0 in the present drive period it passes as it starts (R28, R34, R48, R49). -/
def State.judgeDrain (s : State) (i : SlotId) : State :=
  match s.drainAt i with
  | none => s
  | some (sl, w) =>
    if s.holdsHeld (slotWho i sl) .drain then
      match s.waterAbsent, w.postrun with
      | true, none =>
        if s.drive.postrun = 0 then s.finishDrain i .done true
        else s.setWork i (.drain { w with postrun := some Timer.zero })
      | false, some _ =>
        if w.limit.due then s.drainTimeout i else s.setWork i (.drain { w with postrun := none })
      | true, some _ => s
      | false, none => s
    else s

/-- Every DRAIN's end judged afresh (R34). -/
def State.judgeDrains (s : State) : State := allSlots.foldl State.judgeDrain s

/-- DRAIN is granted: the limit starts, and its end is judged (R48). -/
def State.drainGranted (s : State) (i : SlotId) : State :=
  (s.setWork i (.drain ⟨Timer.zero, none⟩)).judgeDrain i

end Sys2Proof.Machine
end

