-- ==== Sys2Proof/Machine/Regen.lean ====
section
/-! DEFINITION. The regeneration in progress (3.5) and the REGENERATE operation (3.6). -/

namespace Sys2Proof.Machine

/-- The requester as the value of REGEN_STARTED and the subject of NO_FLOW: 0..2 for L1..L3, 3 for REGEN (R64, R176). -/
def regenRequesterCode (g : Regen) : Nat :=
  match g.requester with
  | some (p, _) => portCode p
  | none => 3

/-! ### The start and the grants (R64, R65, R68) -/

/-- SELECTOR is granted to a regeneration in STARTING: it has started (R64). -/
def State.startRegen (s : State) (g : Regen) : State :=
  let c := g.column
  let was := (s.column c).state
  let s := s.setColumn c { s.column c with state := .regenerating, remaining := 0, breakthrough := none }
  let p := if was = .inService then s.standbyIn (Column.other c) else (s, false)
  let s := p.1.setRegen (some { g with phase := .brineDraw, counted := 0, pulses := 0, brineStarted := false,
                                       cancelPending := false })
  let s := s.post .regenStarted (columnCode c) (regenRequesterCode g)
  (s.postInService (Column.other c) p.2).judgeFills none

/-- SELECTOR is granted, HELD or MOVING: a regeneration in STARTING starts (R64). -/
def State.regenSelectorGranted (s : State) : State :=
  match s.soft.regen with
  | some g => if g.phase = .starting then s.startRegen g else s
  | none => s

/-- SELECTOR is HELD: BRINE_DRAW asks for BRINE, RINSE for INLET (R65, R68). -/
def State.regenSelectorHeld (s : State) : State :=
  match s.soft.regen with
  | none => s
  | some g =>
    match g.phase with
    | .brineDraw => s.ask .brine (regenWho g) (s.regenSerial g) none
    | .rinse => s.ask .inlet (regenWho g) (s.regenSerial g) none
    | .starting => s
    | .soak => s

/-- BRINE is HELD: INLET is asked for (R65). -/
def State.regenBrineGranted (s : State) : State :=
  match s.soft.regen with
  | some g => s.ask .inlet (regenWho g) (s.regenSerial g) none
  | none => s

/-- INLET is granted: brine or rinse started, the no-flow time at 0 (R65, R68). -/
def State.regenInletGranted (s : State) : State :=
  match s.soft.regen with
  | none => s
  | some g =>
    match g.phase with
    | .brineDraw => s.setRegen (some { g with brineStarted := true, noFlow := Timer.zero })
    | .rinse => s.setRegen (some { g with rinseStarted := true, noFlow := Timer.zero })
    | .starting => s
    | .soak => s

/-! ### The ends (R63, R66, R67, R69, R70) -/

/-- A REGENERATE is answered: the outcome and the fields R74 gives for it. -/
def State.answerRegen (s : State) (g : Regen) (o : OutcomeCode) (fields : List Byte) (answer : Bool) : State :=
  match g.requester with
  | some (_, i) => s.endSlot i o fields answer
  | none => s

/-- A regeneration ends in STARTING without having started, and the queue is judged for its next head (R62, R63). -/
def State.endInStarting (s : State) (g : Regen) (o : OutcomeCode) (answer : Bool) : State :=
  let s := (s.withdraw (regenWho g)).setRegen none
  let back := g.requester.isNone || (s.cfg.autoRegen && (s.column g.column).state == .exhausted)
  let s := if back then s.joinHead g.column else s
  (s.answerRegen g o (byte1 0 ++ byte1 0) answer).takeHead

/-- The hardness that the draw record of a phase carries: that in force at its last decilitre, or at its end where none was
counted (R89). -/
def State.drawHardness (s : State) (g : Regen) : Nat := if g.counted = 0 then s.acct.hardness else g.lastHardness

/-- The draw record, and for brine the deduction, of the phase that an abort ends (R70); `recorded`: R66 has made them. -/
def State.recordAborted (s : State) (g : Regen) (o : OutcomeCode) (recorded : Bool) : State :=
  if g.phase = .brineDraw ∧ g.brineStarted = true ∧ recorded = false then
    (s.appendRegenDraw .brine g.column g.counted (s.drawHardness g) o).deductSalt (g.counted * s.cfg.saltPerDl)
  else if g.phase = .rinse ∧ g.rinseStarted = true then
    s.appendRegenDraw .rinse g.column g.counted (s.drawHardness g) o
  else s

/-- A started regeneration ends ABORTED, and the queue is judged for its next head; `recorded`: R66 has made its draw record and
deduction (R70). -/
def State.abortRegen (s : State) (g : Regen) (o : OutcomeCode) (recorded answer : Bool) : State :=
  let who := regenWho g
  let c := g.column
  let s := ((s.releaseAll who).withdraw who).recordAborted g o recorded
  let s := s.setColumn c { s.column c with state := .exhausted, remaining := 0, last := .aborted, breakthrough := none }
  let s := s.setRegen none
  let s := if s.cfg.autoRegen then s.joinTail c else s
  let s := s.post .regenEnded (columnCode c) 3
  ((s.answerRegen g o (byte1 (phaseCode g.phase) ++ byte1 g.counted) answer).judgeFills none).takeHead

/-- The regeneration in progress ends with a cause: without start in STARTING, ABORTED after it (R63, R70). -/
def State.endRegen (s : State) (o : OutcomeCode) (answer : Bool) : State :=
  match s.soft.regen with
  | none => s
  | some g => if g.phase = .starting then s.endInStarting g o answer else s.abortRegen g o false answer

/-- BRINE_DRAW reaches BRINE_VOLUME: the valves close, salt, the draw record, and SOAK, or the abort that was pending
(R66). -/
def State.endBrineDraw (s : State) (g : Regen) : State :=
  let who := regenWho g
  let s := (s.releaseIf who .inlet).releaseIf who .brine
  let s := s.deductSalt (s.cfg.brineVolume * s.cfg.saltPerDl)
  let s := s.appendRegenDraw .brine g.column g.counted (s.drawHardness g) (if g.cancelPending then .cancelled else .done)
  if g.cancelPending then s.abortRegen g .cancelled true true
  else
    (s.setRegen (some { g with phase := .soak, soak := Timer.zero, brineSeen := false, judgement := .none })).releaseIf
      who .selector

/-- The judgement at the end of SOAK (R67). -/
def State.soakJudgement (s : State) (g : Regen) : Judgement :=
  match s.roleHolder .brineCond with
  | none => .full
  | some p => if s.sense.points[p].state = .clear ∧ g.brineSeen = true then .full else .weak

/-- SOAK_TIME has passed: the judgement is fixed, and RINSE asks for SELECTOR (R67, R68). -/
def State.endSoak (s : State) (g : Regen) : State :=
  let g' := { g with phase := .rinse, judgement := s.soakJudgement g, counted := 0, pulses := 0, rinseStarted := false }
  (s.setRegen (some g')).regenAsks g'

/-- The remaining capacity a judgement gives (R69). -/
def State.restoredCapacity (s : State) (g : Regen) : Nat :=
  if g.judgement = .weak then s.rated g.column * s.cfg.weakPercent / 100 else s.rated g.column

/-- The column a regeneration has restored: IN_SERVICE where none is, else STANDBY (R69). -/
def State.restoreColumn (s : State) (g : Regen) : State :=
  s.setColumn g.column
    { state := if s.inService.isNone then .inService else .standby, remaining := s.restoredCapacity g,
      count := wordSucc (s.column g.column).count, last := if g.judgement = .weak then .weak else .full,
      breakthrough := none }

/-- RINSE reaches RINSE_VOLUME: the column is restored FULL or WEAK, nothing of the regeneration waits after it, the fill positions
are judged afresh, and then the queue for its next head (R22, R69). -/
def State.endRinse (s : State) (g : Regen) : State :=
  let who := regenWho g
  let c := g.column
  let s := ((s.releaseIf who .inlet).releaseIf who .selector).withdraw who
  let s := s.appendRegenDraw .rinse c g.counted (s.drawHardness g) .done
  let came := s.inService.isNone
  let s := ((s.restoreColumn g).setRegen none).post .regenEnded (columnCode c) (judgementCode g.judgement)
  let s := s.postInService c came
  ((s.answerRegen g .done
    (byte1 (judgementCode g.judgement) ++ byte2 (s.column c).remaining ++ byte2 (s.column c).count) true).judgeFills none).takeHead

/-- One whole decilitre of a regeneration phase (R65, R66, R68, R73). -/
def State.regenDecilitre (s : State) (g : Regen) : State :=
  let g := { g with counted := g.counted + 1, pulses := 0, noFlow := Timer.zero, lastHardness := s.acct.hardness }
  let s := s.setRegen (some g)
  match g.phase with
  | .brineDraw => if s.cfg.brineVolume ≤ g.counted then s.endBrineDraw g else s
  | .rinse =>
    let s := s.raiseTank
    if g.cancelPending then s.abortRegen g .cancelled false true
    else if s.cfg.rinseVolume ≤ g.counted then s.endRinse g
    else s.yieldPath (regenWho g) (s.regenSerial g)
  | .starting => s
  | .soak => s

/-- A published VALID result of the BRINE_COND point during SOAK (R67). -/
def State.brineReading (s : State) : State :=
  match s.soft.regen with
  | some g => if g.phase = .soak then s.setRegen (some { g with brineSeen := true }) else s
  | none => s

/-- INLET has left HELD under a rinse with a CANCEL pending: the abort is taken at that moment (R73). -/
def State.rinseSuspended (s : State) : State :=
  match s.soft.regen with
  | some g =>
    if g.phase = .rinse ∧ g.cancelPending = true ∧ s.holdsHeld (regenWho g) .inlet = false then
      s.abortRegen g .cancelled false true
    else s
  | none => s

/-! ### The REGENERATE operation (3.6) -/

/-- The entry of a REGENERATE leaves the queue; a REGEN entry takes its place for an EXHAUSTED column under AUTO_REGEN
(R61). -/
def State.unqueue (s : State) (p : Port) (i : SlotId) : State :=
  s.setQueue (s.soft.queue.flatMap fun q =>
    if q.requester = some (p, i) then
      if s.cfg.autoRegen && (s.column q.column).state == .exhausted then [⟨q.column, none, s.drive.clock⟩] else []
    else [q])

/-- A REGENERATE whose entry stands in the queue ends (R61, R72 to R74). -/
def State.endQueued (s : State) (p : Port) (i : SlotId) (o : OutcomeCode) (answer : Bool) : State :=
  (s.unqueue p i).endSlot i o (byte1 0 ++ byte1 0) answer

/-- A REGENERATE is taken up: its column and the two columns' states are checked, its entry is placed at the head, and the queue is
judged for it (R61, R62, R72). What R72 calls refused is a refusal of R182 (notes/assumptions/38.md). -/
def State.takeUpRegenerate (s : State) (i : SlotId) (column : Nat) : State :=
  match s.pool[i] with
  | none => s
  | some sl =>
    match columnOf column with
    | none => s.refuseSlot i .badParam
    | some c =>
      if (s.column c).state == .regenerating || s.regenOf c then s.refuseSlot i .busy
      else if s.soft.queue.any (fun q => q.column == c && q.requester.isSome) then s.refuseSlot i .busy
      else if (s.column c).state == .inService && (s.column (Column.other c)).state != .standby then
        s.refuseSlot i .state
      else (s.setQueue (⟨c, some (sl.port, i), s.drive.clock⟩ :: s.soft.queue.filter fun q => q.column != c)).takeHead

/-- A CANCEL or a port reset of a REGENERATE (R73); a port reset (`answer` false) is taken at once in every place. -/
def State.cancelRegenerate (s : State) (p : Port) (i : SlotId) (answer : Bool) : State :=
  if s.regenQueued p i then s.endQueued p i .cancelled answer
  else match s.soft.regen with
    | none => s
    | some g =>
      if g.requester = some (p, i) then
        let running := (g.phase == .brineDraw && g.brineStarted) ||
          (g.phase == .rinse && s.holdsHeld (regenWho g) .inlet)
        if running && answer then s.setRegen (some { g with cancelPending := true }) else s.endRegen .cancelled answer
      else s

end Sys2Proof.Machine
end

