-- ==== Sys2Proof/Machine/DoorUnit.lean ====
section
/-! DEFINITION. The Door Unit (chapter 8): the rod, DOOR_PUSH and DRY, and what a change of the door state does. -/

namespace Sys2Proof.Machine

/-! ### The door-opening operations -/

/-- The door-opening operation of a slot whose outcome is not fixed; whether it is a DRY. -/
def State.doorAt (s : State) (i : SlotId) : Option (Slot × Bool × DoorWork) :=
  match s.pool[i] with
  | some sl => match sl.work, sl.outcome with
    | .doorPush w, none => some (sl, false, w)
    | .dry w, none => some (sl, true, w)
    | _, _ => none
  | none => none

/-- The work of a DRY, or of a DOOR_PUSH. -/
def doorWork (dry : Bool) (w : DoorWork) : Work := if dry then .dry w else .doorPush w

/-- The result fields of a DOOR_PUSH or DRY that are fixed with the outcome, as they stand (R169, R190). -/
def Work.fieldsNow : Work → List Byte
  | .doorPush w => flagByte w.pushed ++ flagByte w.seenOpen
  | .dry w => byte1 (doorPhaseCode w.phase) ++ flagByte w.pushed ++ byte2 (w.ajarPassed.passed / Config.periodsPerSecond)
  | .fill _ => [] | .circulate _ => [] | .heat _ => [] | .drain _ => [] | .regenerate _ => []

/-- The result fields kept with a DOOR_PUSH or DRY (R190). -/
def Work.fixFields (bs : List Byte) : Work → Work
  | .doorPush w => .doorPush { w with fixed := bs }
  | .dry w => .dry { w with fixed := bs }
  | w => w

/-- The result fields that a DOOR_PUSH or DRY has kept (R190). -/
def Work.fixedFields : Work → List Byte
  | .doorPush w => w.fixed
  | .dry w => w.fixed
  | .fill _ => [] | .circulate _ => [] | .heat _ => [] | .drain _ => [] | .regenerate _ => []

/-- The result fields of the response to a DOOR_PUSH or DRY: for a DOOR_PUSH the rod state at the response, and the fields fixed with
the outcome (R169, R190; notes/assumptions/13.md). -/
def State.doorFields (s : State) : Work → List Byte
  | .doorPush w => byte1 (rodStateCode s.door.rod.state) ++ w.fixed
  | w => w.fixedFields

/-- The outcome of a door-opening operation is fixed, and with it its result fields, before anything the end brings about
(R29, R190; notes/assumptions/13.md). -/
def State.fixDoor (s : State) (i : SlotId) (o : OutcomeCode) : State :=
  match s.pool[i] with
  | some sl => (s.fixOutcome i o).setWork i (sl.work.fixFields sl.work.fieldsNow)
  | none => s

/-- A door-opening operation whose outcome is fixed is answered and its slot freed. -/
def State.endDoorSlot (s : State) (i : SlotId) (o : OutcomeCode) (answer : Bool) : State :=
  match s.pool[i] with
  | some sl => s.endSlot i o (s.doorFields sl.work) answer
  | none => s

/-- The outcome of a door-opening operation is fixed. One that has been granted DOOR_DRIVE releases it, and its response
waits for FREE; any other is answered at once (R159, R160, R162, R167). -/
def State.finishDoor (s : State) (i : SlotId) (o : OutcomeCode) (answer : Bool) : State :=
  match s.doorAt i with
  | none => s
  | some (sl, _, w) =>
    let who := slotWho i sl
    let s := s.fixDoor i o
    if w.phase = .pushing ∧ s.holds who .doorDrive = true then
      let s := s.release .doorDrive
      if answer then s else s.endDoorSlot i o false
    else (s.withdraw who).endDoorSlot i o answer

/-- A door-opening operation asks for DOOR_DRIVE, or is held back behind a RESET retract (R158, R162, R164). -/
def State.askDoor (s : State) (i : SlotId) : State :=
  match s.doorAt i with
  | none => s
  | some (sl, dry, w) =>
    let rod := s.door.rod
    let w := { w with phase := .waitQuiet }
    if rod.state = .retracting ∧ (rod.retract.map (·.1)) = some .reset then
      s.setWork i (doorWork dry { w with heldBack := true })
    else (s.setWork i (doorWork dry { w with heldBack := false })).ask .doorDrive (slotWho i sl) sl.age none

/-- Another DOOR_PUSH or DRY holds a pool slot (R158). -/
def State.otherDoor (s : State) (i : SlotId) : Bool :=
  allSlots.any fun j => j != i &&
    match s.pool[j] with
    | some sl => match sl.work with
      | .doorPush _ => true | .dry _ => true | .fill _ => false | .circulate _ => false | .heat _ => false
      | .drain _ => false | .regenerate _ => false
    | none => false

/-- A DOOR_PUSH is taken up (R158). -/
def State.takeUpDoorPush (s : State) (i : SlotId) : State :=
  if s.otherDoor i || !s.doorClosed then s.finishDoor i .state true
  else if s.door.rod.state = .stalled then s.finishDoor i .stalled true
  else s.askDoor i

/-- The delay of a DRY has passed: STALLED where the rod is, else it asks (R162, R164). -/
def State.dryDelayPassed (s : State) (i : SlotId) : State :=
  if s.door.rod.state = .stalled then s.finishDoor i .stalled true else s.askDoor i

/-- A DRY enters AJAR with ajar time 0 (R164 to R166). -/
def State.dryAjar (s : State) (i : SlotId) : State :=
  match s.doorAt i with
  | some (_, true, w) => s.setWork i (.dry { w with phase := .ajar, ajarPassed := Timer.zero, heldBack := false })
  | _ => s

/-- A DRY is taken up (R164). With the door already OPEN it has seen no opening: door seen open stays no (DESIGN CHOICE,
notes/assumptions/43.md). -/
def State.takeUpDry (s : State) (i : SlotId) : State :=
  match s.doorAt i with
  | none => s
  | some (_, _, w) =>
    if 3600 < w.delay ∨ w.ajar < 60 ∨ 7200 < w.ajar then s.finishDoor i .badParam true
    else if s.otherDoor i then s.finishDoor i .state true
    else if s.door.rod.state = .stalled then s.finishDoor i .stalled true
    else if s.doorClosed = false then s.dryAjar i
    else if w.delay = 0 then s.dryDelayPassed i
    else s

/-- The rod record replaced. -/
def State.setRod (s : State) (r : Rod) : State := { s with door := { s.door with rod := r } }

/-- DOOR_DRIVE is granted to a DOOR_PUSH or DRY: the target and the start value, EXTENDING, the times at 0 (R143, R147,
R159, R165), the hold time too (DESIGN CHOICE, notes/assumptions/44.md). -/
def State.doorGranted (s : State) (i : SlotId) : State :=
  match s.doorAt i with
  | none => s
  | some (_, dry, w) =>
    let s := s.setWork i (doorWork dry { w with phase := .pushing, pushed := true, heldBack := false })
    let s : State := { s with drive := { s.drive with door := ⟨s.cfg.pushMax, 0, false⟩,
                                                      doorRamp := ⟨s.cfg.pushStart, 0, false⟩, rodExtend := true } }
    s.setRod { s.door.rod with state := .extending, extend := Timer.zero, maxHold := 0, maxHoldDue := false,
                               hold := Timer.zero, retEdge := false, extEdge := false }

/-- DOOR_DRIVE has become FREE: an operation whose outcome is fixed is answered; a DOOR_PUSH whose retract has ended is
DONE; a DRY goes on to AJAR, or ends CLOSED_EARLY where the door is closed (R159, R165). -/
def State.doorFreed (s : State) (h : Option Holder) : State :=
  match h with
  | some ⟨_, some i⟩ =>
    match s.pool[i] with
    | none => s
    | some sl =>
      match sl.work, sl.outcome with
      | .doorPush _, some o => s.endDoorSlot i o true
      | .dry _, some o => s.endDoorSlot i o true
      | .doorPush w, none => if w.phase = .pushing then s.finishDoor i .done true else s
      | .dry w, none =>
        if w.phase = .pushing then (if s.doorClosed then s.finishDoor i .closedEarly true else s.dryAjar i) else s
      | _, _ => s
  | _ => s

/-- The end of the wind-down of DOOR_DRIVE: the lease becomes FREE and its owner is told (R4, R147). -/
def State.endDoorWindDown (s : State) : State :=
  let h := (s.entry .doorDrive).holder
  if (s.entry .doorDrive).lease = .releasing then (s.freeLease .doorDrive).doorFreed h else s

/-- The rod has become STALLED: every door-opening operation that waits for DOOR_DRIVE, or is held back, ends (R162). -/
def State.stallWaiters (s : State) : State :=
  allSlots.foldl (fun s i =>
    match s.doorAt i with
    | some (_, _, w) => if w.phase = .waitQuiet then s.finishDoor i .stalled true else s
    | none => s) s

/-- The cause of a push stall as the value of ROD_STALLED (R157). -/
def stallCode : StallCause → Nat
  | .maxHold => 1 | .timeout => 2

/-- A push stall (R160). -/
def State.pushStalled (s : State) (cause : StallCause) : State :=
  let level := s.drive.doorRamp.level
  let h := (s.entry .doorDrive).holder
  let s := (s.setRod { s.door.rod with state := .stalled }).fault .pushStall 0 level
  let s := match h with
    | some ⟨_, some i⟩ => s.finishDoor i .stalled true
    | _ => s
  (s.release .doorDrive).post .rodStalled 0 (stallCode cause) |>.stallWaiters

/-- Operations held back behind a RESET retract ask once it has ended at RETRACTED (R162). -/
def State.askHeldBack (s : State) : State :=
  allSlots.foldl (fun s i =>
    match s.doorAt i with
    | some (_, _, w) => if w.heldBack then s.askDoor i else s
    | none => s) s

/-- A retract ends with ROD_RET closed (R161). -/
def State.retractEnded (s : State) : State :=
  let rod := s.door.rod
  let st := match rod.state with
    | .retracting => .retracted
    | .retracted => .retracted | .extending => .extending | .extended => .extended | .stalled => .stalled
  let s := s.setRod { rod with state := st, retract := none, retEdge := false }
  if (rod.retract.map (·.1)) = some .lease then s.endDoorWindDown else s.askHeldBack

/-- An operation whose retract times out before its outcome is fixed is STALLED (R161). -/
def State.stallHolder (s : State) : State :=
  match (s.entry .doorDrive).holder with
  | some ⟨_, some i⟩ =>
    match s.doorAt i with
    | some (_, _, w) => if w.phase = .pushing then s.fixDoor i .stalled else s
    | none => s
  | _ => s

/-- A retract times out: the motor stops, DOOR_DRIVE becomes FREE, the fault, the rod STALLED (R161). -/
def State.retractTimedOut (s : State) : State :=
  let rod := s.door.rod
  let kind : Option RetractKind := rod.retract.map (·.1)
  let s := s.setRod { rod with state := .stalled, retract := none }
  let s := if kind = some .lease then s.stallHolder.endDoorWindDown else s
  let s := s.fault .retractTimeout 0 (retractCode kind)
  let s := if rod.state = .stalled then s else s.post .rodStalled 0 3
  s.stallWaiters

/-! ### A change of the door state (R155) -/

/-- The no-flow time of the work that holds INLET returns to 0 (R38, R39, R65). -/
def State.restartNoFlow (s : State) : State :=
  match s.flowingFill with
  | some i => match s.fillAt i with
    | some (_, w) => s.setWork i (.fill { w with noFlow := Timer.zero })
    | none => s
  | none =>
    match s.soft.regen with
    | some g => if s.regenFlowing then s.setRegen (some { g with noFlow := Timer.zero }) else s
    | none => s

/-- A door-opening operation in flight has seen the door open, its outcome fixed or not, and in every phase of a DRY (R159, R164,
R166; DESIGN CHOICE, notes/assumptions/43.md). -/
def State.seeOpen (s : State) (i : SlotId) : State :=
  match s.pool[i] with
  | some sl => match sl.work with
    | .doorPush w => s.setWork i (.doorPush { w with seenOpen := true })
    | .dry w => s.setWork i (.dry { w with seenOpen := true })
    | .fill _ => s | .circulate _ => s | .heat _ => s | .drain _ => s | .regenerate _ => s
  | none => s

/-- The door-opening operations take an opening (R158, R159, R166). -/
def State.doorOpsOpened (s : State) : State :=
  allSlots.foldl (fun s i =>
    let s := s.seeOpen i
    match s.doorAt i with
    | none => s
    | some (sl, dry, w) =>
      match dry, w.phase with
      | false, .waitQuiet => s.finishDoor i .done true
      | true, .waitQuiet => (s.withdraw (slotWho i sl)).dryAjar i
      | true, .delay => s.dryAjar i
      | _, _ => s) s

/-- The drying operations take a closing (R166). -/
def State.doorOpsClosed (s : State) : State :=
  allSlots.foldl (fun s i =>
    match s.doorAt i with
    | some (_, true, w) => if w.phase = .ajar then s.finishDoor i .closedEarly true else s
    | _ => s) s

/-- The door state replaced, the agreeing count at 0 (R154). -/
def State.setDoor (s : State) (closed : Bool) : State :=
  { s with door := { s.door with door := { s.door.door with value := closed, agree := 0 } } }

/-- The door opens (R5, R155); the channels are told in the order CH0 to CH3 (notes/assumptions/34.md). -/
def State.openDoor (s : State) : State :=
  let st := s.door.rod.state
  let pushed := (s.entry .doorDrive).lease == .held && (st == .extending || st == .extended)
  let s := guardedResources.foldl State.suspend (s.setDoor false)
  let s := if (s.entry .circ).lease = .releasing then s.endCircWindDown else s
  let s := (allChannels.foldl State.channelDoorOpened s).rinseSuspended
  s.doorOpsOpened.post .doorOpened 0 pushed.toNat

/-- The door closes (R5, R155), the channels told in the order CH0 to CH3 (DESIGN CHOICE, notes/assumptions/34.md); HEATER is
judged when the interlock is. -/
def State.closeDoor (s : State) : State :=
  let s := ([.inlet, .circ, .dose 0, .dose 1, .dose 2] : List Resource).foldl State.restore (s.setDoor true)
  let s := allChannels.foldl State.channelDoorClosed s.restartNoFlow
  s.doorOpsClosed.post .doorClosed 0 0

end Sys2Proof.Machine
end

