-- ==== Sys2Proof/Machine/Arbiter.lean ====
section
/-! DEFINITION. Grants, what the owners do with them, and `settle`: the interlock judged, immediate yields taken and every
grant made that can be made, at the end of each command that can change any of them (R10, R11, R18, R19, R45). -/

namespace Sys2Proof.Machine

/-- A holder is the regeneration in progress. -/
def State.isRegen (s : State) (h : Holder) : Bool :=
  match s.soft.regen with
  | some g => regenWho g == h
  | none => false

/-- SELECTOR is HELD: its holder's owner is told (R10, R23). -/
def State.selectorHeld (s : State) (h : Holder) : State :=
  if s.isRegen h then s.regenSelectorHeld
  else match h.slot with
    | some i => s.fillSelectorHeld i
    | none => s

/-- SELECTOR is granted: a regeneration in STARTING starts, and a HELD lease is told (R10, R64). -/
def State.selectorGranted (s : State) (h : Holder) : State :=
  let s := if s.isRegen h then s.regenSelectorGranted else s
  if (s.entry .selector).lease = .held then s.selectorHeld h else s

/-- What a port operation does with a grant to its slot. -/
def State.slotGranted (s : State) (h : Holder) (f : State → SlotId → State) : State :=
  match h.slot with
  | some i => f s i
  | none => s

/-- A granted lease is told to the holder's owner (R10). -/
def State.ownerGranted (s : State) (r : Resource) (h : Holder) : State :=
  match r with
  | .selector => s.selectorGranted h
  | .brine => s.regenBrineGranted
  | .inlet => if s.isRegen h then s.regenInletGranted else s.slotGranted h State.fillInletGranted
  | .circ => s.slotGranted h State.circGranted
  | .heater => s.slotGranted h State.heatGranted
  | .drain => s.slotGranted h State.drainGranted
  | .doorDrive => s.slotGranted h State.doorGranted
  | .dose _ =>
    match h.ident with
    | .ch c => s.channelGranted c
    | .port _ => s | .regen => s | .dry => s | .protect => s

/-- A resource is granted to the waiter the grant rule chooses, and its owner acts (R10). -/
def State.grant (s : State) (r : Resource) : State :=
  match s.chosenWaiter r with
  | some w => (s.grantLease r w).ownerGranted r w.who
  | none => s

/-- The heater interlock judged afresh; a change is told to the Resource Arbiter, which suspends or restores HEATER while the
door is CLOSED (R5, R45). -/
def State.settleInterlock (s : State) : State :=
  let met := s.interlockMet
  if s.water.interlock = met then s
  else
    let s : State := { s with water := { s.water with interlock := met } }
    if s.doorClosed then (if met then s.restore .heater else s.suspend .heater) else s

/-- HEATER is HELD by a HEAT that is asked to yield (R19). -/
def State.heatYielder (s : State) : Option SlotId :=
  let e := s.entry .heater
  if e.lease = .held ∧ e.yieldRequested = true then e.holder.bind (·.slot) else none

/-- A channel between strokes whose HELD pump lease is asked for (R19, R109). -/
def State.doseYielder (s : State) : Option ChannelId :=
  allChannels.find? fun c =>
    let ch := s.channel c
    let e := s.entry (s.channelPump ch)
    ch.state == .dosing && (ch.step == .interval || ch.step == .water) &&
      e.lease == .held && e.holder == some (channelWho c) && e.yieldRequested

/-- One yield of a holder whose yield point is at once (R19). -/
def State.yieldNext (s : State) : Option State :=
  match s.heatYielder with
  | some i => some (s.yieldHeat i)
  | none => s.doseYielder.map s.yieldChannel

/-- One grant: of two that conflict either may be taken first, which is a free choice; the table order else (R10, R11,
notes/assumptions/9.md). -/
def State.grantNext (s : State) : Option State :=
  match s.grantable with
  | [] => none
  | r :: rs =>
    if grantsConflict (r :: rs) then
      some (s.choose.2.grant (((r :: rs)[s.choose.1 % (rs.length + 1)]?).getD r))
    else some (s.grant r)

/-- The DOOR_DRIVE waiters that guarded holders keep out, and nothing else: for them the door priority is in force from now on
(R17; notes/assumptions/39.md). -/
def State.markBarred (s : State) : State :=
  let e := s.entry .doorDrive
  if s.guardedHeld && s.door.rod.state != .stalled && e.waiters.any (fun w => !w.barred) then
    s.putEntry .doorDrive { e with waiters := e.waiters.map fun w => { w with barred := true } }
  else s

/-- The interlock and the door priority judged afresh (R17, R45). -/
def State.judge (s : State) : State := s.settleInterlock.markBarred

/-- At most `n` rounds of the interlock, a yield or a grant (notes/assumptions/10.md). -/
def State.settleFor : Nat → State → State
  | 0, s => s.judge
  | n + 1, s =>
    let s := s.judge
    match s.yieldNext with
    | some t => t.settleFor n
    | none =>
      match s.grantNext with
      | some t => t.settleFor n
      | none => s

/-- The interlock, the yields and the grants that a command leaves are taken. -/
def State.settle (s : State) : State := s.settleFor 128

end Sys2Proof.Machine
end

