-- ==== Sys2Proof/Machine/Protect.lean ====
section
/-! DEFINITION. The Protection Unit (chapter 9): causes, the latching of a trip, the forced drain. -/

namespace Sys2Proof.Machine

/-! ### The trip record (R170) -/

/-- A cause is in the set. -/
def State.hasCause (s : State) : TripCause → Bool
  | .flood => s.prot.flood | .overfill => s.prot.overfill | .overtemp => s.prot.overtemp

/-- A cause joins the set. -/
def State.addCause (s : State) : TripCause → State
  | .flood => { s with prot := { s.prot with flood := true } }
  | .overfill => { s with prot := { s.prot with overfill := true } }
  | .overtemp => { s with prot := { s.prot with overtemp := true } }

/-- The cause set as a sum (R172). -/
def State.causeSet (s : State) : Nat := causeSum s.prot.flood s.prot.overfill s.prot.overtemp

/-- The condition of a cause is gone (R175). -/
def State.causeGone (s : State) : TripCause → Bool
  | .flood => s.roleGone .leak
  | .overfill => s.roleGone .tankHigh
  | .overtemp => !s.water.overTemp

/-! ### The forced drain (R7, R173) -/

/-- DRAIN is forced on under PROTECT: taken from FREE, or from the holder, whose DRAIN ends TRIPPED (R7). -/
def State.forceDrain (s : State) : State :=
  let e := s.entry .drain
  match e.holder with
  | some ⟨.protect, _⟩ => s
  | h =>
    let s := s.editEntry .drain fun e =>
      { e with lease := .held, holder := some ⟨.protect, none⟩, holderPort := none, grantTime := s.drive.clock }
    match h with
    | some ⟨_, some i⟩ => s.finishDrain i .tripped true
    | _ => s

/-- The force is taken for a cause (R173). -/
def State.takeForce (s : State) (c : TripCause) : State :=
  let p := s.prot
  let p := match c with
    | .flood => { p with forceFlood := true }
    | .overfill => { p with forceOverfill := true }
    | .overtemp => p
  match s.prot.force with
  | .off => ({ s with prot := { p with force := .forcing } } : State).forceDrain
  | .forcing => { s with prot := p }
  | .postrun => { s with prot := { p with force := .forcing, postrun := Timer.zero } }

/-- The force ends: OFF, the forcing causes emptied, DRAIN FREE (R7, R173). -/
def State.endForce (s : State) : State :=
  ({ s with prot := { s.prot with force := .off, forceFlood := false, forceOverfill := false,
                                  postrun := Timer.zero } } : State).freeLease .drain

/-- The points of every forcing cause read CLEAR, or the causes have lost their points (R173, R174). -/
def State.forceOver (s : State) : Bool :=
  (!s.prot.forceFlood || s.roleGone .leak) && (!s.prot.forceOverfill || s.roleGone .tankHigh)

/-- A force that goes on is judged at a confirmed change of a LEAK or TANK_HIGH point, or a withdrawal of the role; with
DRAIN_POSTRUN 0 in the present drive period the post-run ends as it starts (R173, R174). -/
def State.judgeForce (s : State) : State :=
  if s.prot.force = .forcing ∧ s.forceOver = true then
    let s : State := { s with prot := { s.prot with force := .postrun, postrun := Timer.zero } }
    if s.drive.postrun = 0 then s.endForce else s
  else s

/-! ### The latching (R172) -/

/-- What the latching does to the operation of one pool slot (R27, R39, R42, R46, R72). -/
def State.tripSlot (s : State) (i : SlotId) : State :=
  match s.pool[i] with
  | none => s
  | some sl =>
    match sl.work with
    | .fill _ => s.finishFill i .tripped true
    | .circulate _ =>
      match sl.outcome with
      | some o => s.endSlot i o [] true
      | none => s.finishCirc i .tripped true
    | .heat _ => s.finishHeat i .tripped true
    | .regenerate _ => if s.regenQueued sl.port i then s.endQueued sl.port i .tripped true else s
    | .drain _ => s
    | .doorPush _ => s
    | .dry _ => s

/-- The trip set is revoked, and the owners end or halt their work (R6, R172): the pool slots in order, then the regeneration,
then the channels CH0 to CH3, an order the manual leaves open (DESIGN CHOICE, notes/assumptions/34.md). -/
def State.tripWork (s : State) : State :=
  let s := tripResources.foldl State.revoke s
  let s := (allSlots.foldl State.tripSlot s).endRegen .tripped true
  allChannels.foldl State.channelTripped s

/-- The fault of a cause (R176). -/
def State.tripFault (s : State) (c : TripCause) (point : Nat) : State :=
  match c with
  | .flood => s.fault .flood point s.water.tank
  | .overfill => s.fault .overfill point s.water.tank
  | .overtemp => s.fault .overtemp 0 s.water.temperature

/-- A cause is handed in: it latches the trip, joins the set, or takes the force again (R171, R172). -/
def State.handIn (s : State) (c : TripCause) (point : Nat) : State :=
  if s.hasCause c then (if c = .overtemp then s else s.takeForce c)
  else
    let s := if s.latched then s.addCause c else (s.addCause c).tripWork
    let s := if c = .overtemp then s else s.takeForce c
    (s.tripFault c point).post .trip (causeCode c) s.causeSet

end Sys2Proof.Machine
end

