-- ==== Sys2Proof/Machine/Sensing.lean ====
section
/-! DEFINITION. The Sense Scanner (chapter 6): rounds, measurements, publication, debounce and delivery; the meanings of
SCAN_ROUND_START and MEASUREMENT_END. -/

namespace Sys2Proof.Machine

/-- The group of a point (6.1). -/
def groupOf (p : PointId) : GroupId := ⟨p.val / 4, by omega⟩

/-- A group record. -/
def State.group (s : State) (g : GroupId) : Group := s.sense.groups[g]

/-- A group record replaced. -/
def State.setGroup (s : State) (g : GroupId) (r : Group) : State :=
  { s with sense := { s.sense with groups := upd s.sense.groups g r } }

/-- A point record. -/
def State.point (s : State) (p : PointId) : Point := s.sense.points[p]

/-- A point record replaced. -/
def State.setPoint (s : State) (p : PointId) (r : Point) : State :=
  { s with sense := { s.sense with points := upd s.sense.points p r } }

/-- The groups in order. -/
def allGroups : List GroupId := [0, 1, 2, 3]

/-- The slots of a map that hold a point of their own group, in slot order (R120). -/
def ownSlots (g : GroupId) (gr : Group) : List (Fin 4 × PointId) :=
  ([0, 1, 2, 3] : List (Fin 4)).filterMap fun k =>
    match gr.map[k] with
    | some p => if groupOf p = g then some (k, p) else none
    | none => none

/-- The slots a round in a mode measures: slot 0 alone in WATCH (R120, R127). -/
def roundSlots (g : GroupId) (gr : Group) (m : ScanMode) : List (Fin 4 × PointId) :=
  if m = .watch then (ownSlots g gr).filter fun x => x.1 == 0 else ownSlots g gr

/-- A mode whose measurements are compared (6.3). -/
def ScanMode.compared : ScanMode → Bool
  | .continuous => true | .periodic => true | .watch => true | .off => false | .single => false

/-! ### Modes (R124, R126) -/

/-- A group takes a mode: its first round in it is owed at the start of the next drive period (R124). -/
def Group.takeMode (gr : Group) (m : ScanMode) : Group :=
  { gr with mode := m, sinceStart := 0, fresh := m != .off, next := none, roundDue := false,
            roundsToPublish := if m = .periodic then 1 else gr.roundsToPublish }

/-- What a SENSE_MODE does to one group while the scan mode `was` is in force: nothing where the mode is in force already, but
for SINGLE; else an IDLE group takes the mode at once, a MEASURING one at its round's end; for SINGLE, a group without a
point of its own takes OFF (R124, R126). A second SINGLE that meets an IDLE group still owing its round, due at this period
start already, is taken anew, and the round is put off to the next drive period (DESIGN CHOICE, notes/assumptions/24.md). -/
def Group.senseMode (g : GroupId) (was m : ScanMode) (gr : Group) : Group :=
  let hasOwn := !(ownSlots g gr).isEmpty
  let target : ScanMode := if m = .single ∧ hasOwn = false then .off else m
  if m = was ∧ m ≠ .single then gr
  else
    let gr := { gr with singleDue := m == ScanMode.single && hasOwn }
    if gr.round.isSome then { gr with next := some target } else gr.takeMode target

/-- When no group owes a SINGLE round, a SINGLE scan is over (R126). -/
def State.endSingleScan (s : State) : State :=
  if s.sense.mode = .single ∧ (allGroups.any fun g => (s.group g).singleDue) = false then
    { s with sense := { s.sense with mode := ScanMode.off } }
  else s

/-- SENSE_MODE (R124, R126). -/
def State.takeScanMode (s : State) (m : ScanMode) : State :=
  let was := s.sense.mode
  let s : State := { s with sense := { s.sense with mode := m } }
  (allGroups.foldl (fun s g => s.setGroup g ((s.group g).senseMode g was m)) s).endSingleScan

/-! ### Publication and comparison (R130 to R133) -/

/-- A measurement is published: the result, the refresh flag, the refresh list, and the owners that take results (R130,
R135). -/
def State.publish (s : State) (p : PointId) (count : Nat) (q : Quality) : State :=
  let g := groupOf p
  let gr := s.group g
  let s := s.setPoint p { s.point p with published := some ⟨count, q, 0, 0⟩, refresh := false }
  let s := s.setGroup g { gr with refresh := gr.refresh.filter fun x => x != p }
  match (s.point p).role with
  | .inletCond => s.hardnessReading count q
  | .brineCond => if q = .valid then s.brineReading else s
  | _ => s

/-- What a count compares as (R123). -/
def compareCount (pt : Point) (count : Nat) : Side :=
  if pt.above then (if pt.threshold < count then .crossed else .clear)
  else (if count < pt.threshold then .crossed else .clear)

/-- The confirmed state a side gives. -/
def Side.state : Side → PointState
  | .clear => .clear | .crossed => .crossed

/-- A LEAK or TANK_HIGH point's confirmed change: a cause at CROSSED, and the force judged (R171, R173). -/
def State.deliverTrip (s : State) (c : TripCause) (p : PointId) (side : Side) : State :=
  (if side = .crossed then s.handIn c p.val else s).judgeForce

/-- A reservoir's LOW point (R77, R78, R80, R112). -/
def State.deliverLow (s : State) (n : ReservoirId) (old : PointState) (side : Side) : State :=
  match side with
  | .crossed => s.lowUncovered n
  | .clear => if old = .crossed then (s.lowCovered n).refillChannels n else s

/-- A reservoir's EMPTY point (R77, R79, R81). -/
def State.deliverEmpty (s : State) (n : ReservoirId) (old : PointState) (side : Side) : State :=
  match side with
  | .crossed => s.emptyUncovered n
  | .clear => if old = .crossed then s.emptyCovered n else s

/-- The SALT_LOW point; the queue is judged for its head at a change of the salt account (R62, R77, R85). -/
def State.deliverSalt (s : State) (old : PointState) (side : Side) : State :=
  match side with
  | .crossed => s.saltUncovered.takeHead
  | .clear => if old = .crossed then s.saltCovered.takeHead else s

/-- A confirmed change delivered to the owner of the role, from the lowest-numbered point that holds it (R133). One of TANK_MIN is
judged by the DRAINs, in slot order, and then taken by the channels in step WATER, so that what ends a DRAIN (its response, DRAIN_SLOW)
comes before what a channel posts (DESIGN CHOICE, notes/assumptions/34.md). -/
def State.deliver (s : State) (p : PointId) (old : PointState) (side : Side) : State :=
  let role := (s.point p).role
  if role = .none ∨ s.roleHolder role ≠ some p then s
  else match role with
    | .leak => s.deliverTrip .flood p side
    | .tankHigh => s.deliverTrip .overfill p side
    | .tankMin => s.judgeDrains.waterChannels
    | .low n => s.deliverLow n old side
    | .empty n => s.deliverEmpty n old side
    | .saltLow => s.deliverSalt old side
    | .softCond => if side = .crossed then s.markBreakthrough else s
    | .inletCond => s
    | .brineCond => s
    | .none => s

/-- A confirmed change: the record updated, the delivery, with every report it brings (the account's; of a LEAK or TANK_HIGH change
the trip's), and after that SENSE_CHANGED (R131, R133; the order of those reports: DESIGN CHOICE, notes/assumptions/34.md). -/
def State.confirm (s : State) (p : PointId) (side : Side) : State :=
  let pt := s.point p
  ((s.setPoint p { pt with state := side.state, candidate := none, run := 0 }).deliver p pt.state side).post
    .senseChanged p.val (pointStateCode side.state)

/-- A compared measurement acts on the debounce by its quality (R131). -/
def State.compare (s : State) (p : PointId) (count : Nat) (q : Quality) : State :=
  let pt := s.point p
  match q with
  | .disturbed => s
  | .fault => s.setPoint p { pt with candidate := none, run := 0 }
  | .valid =>
    let side := compareCount pt count
    if side.state = pt.state then s.setPoint p { pt with candidate := none, run := 0 }
    else
      let run := if pt.candidate = some side then pt.run + 1 else 1
      if pt.debounce ≤ run then s.confirm p side
      else s.setPoint p { pt with candidate := some side, run := run }

/-- The quality of a measurement (R121). -/
def quality (m : Measurement) (count : Nat) : Quality :=
  if m.disturbed then .disturbed else if count = 0 ∨ count = 65535 then .fault else .valid

/-- The in fault flag, and GATE_FAULT at the first FAULT (R132). -/
def State.noteQuality (s : State) (p : PointId) (count : Nat) (q : Quality) : State :=
  let pt := s.point p
  let s' := s.setPoint p { pt with inFault := q == .fault }
  if q = .fault ∧ pt.inFault = false then s'.fault .gateFault p.val count else s'

/-- A result of a PERIODIC round kept for the round's end (R125). -/
def State.keepResult (s : State) (g : GroupId) (p : PointId) (count : Nat) (q : Quality) : State :=
  let gr := s.group g
  s.setGroup g { gr with round := gr.round.map fun r => { r with results := r.results ++ [(p, count, q)] } }

/-! ### Rounds (R120, R125 to R127, R129, R135) -/

/-- A measurement begins: at the alternate frequency of the hop step for an AUTO point while CIRC_P or DRAIN_P is on
(R129). -/
def State.startMeasurement (s : State) (g : GroupId) (p : PointId) (slot : Option (Fin 4)) : State :=
  let gr := s.group g
  let alternate := (s.point p).auto && (decide (0 < s.circLevel) || s.outputOn .drain)
  let m : Measurement := { point := p, slot := slot, disturbed := false, voided := false,
                           alternate := if alternate then some gr.hop else none }
  s.setGroup g { gr with measuring := some m }

/-- The end of a PERIODIC round of the group's own: every PUBLISH_EVERY-th is published (R125). -/
def State.endPeriodic (s : State) (g : GroupId) (r : Round) : State :=
  let gr := s.group g
  if 1 < gr.roundsToPublish then s.setGroup g { gr with roundsToPublish := gr.roundsToPublish - 1 }
  else
    r.results.foldl (fun s x => s.publish x.1 x.2.1 x.2.2)
      (s.setGroup g { gr with roundsToPublish := s.cfg.publishEvery })

/-- A round ends: publication, the SINGLE round no longer owed, and the mode that waited (R124 to R126). -/
def State.endRound (s : State) (g : GroupId) (r : Round) : State :=
  let s := s.setGroup g { (s.group g) with round := none, measuring := none }
  let s := if r.own ∧ r.mode = .periodic then s.endPeriodic g r else s
  let gr := s.group g
  let wasSingle := r.own && r.mode == .single
  let gr := if wasSingle then { gr with singleDue := gr.next == some .single } else gr
  let gr := match gr.next with
    | some m => gr.takeMode m
    | none => if wasSingle then gr.takeMode .off else gr
  (s.setGroup g gr).endSingleScan

/-- The next slot of a round, or its end (R121, R136). -/
def State.nextSlot (s : State) (g : GroupId) : State :=
  let gr := s.group g
  match gr.round with
  | none => s
  | some r =>
    match r.rest with
    | (k, p) :: rest => (s.setGroup g { gr with round := some { r with rest := rest } }).startMeasurement g p (some k)
    | [] => s.endRound g r

/-- The next measurement of a round: a priority measurement first, then the next slot, then the end (R121, R135). -/
def State.nextMeasurement (s : State) (g : GroupId) : State :=
  let gr := s.group g
  match gr.round, gr.refresh with
  | none, _ => s
  | some _, p :: _ => s.startMeasurement g p none
  | some _, [] => s.nextSlot g

/-- A group record whose round begins; a round of the group's slots moves the hop step (R129). -/
def Group.started (gr : Group) (rest : List (Fin 4 × PointId)) (own : Bool) : Group :=
  { gr with round := some { mode := gr.mode, rest := rest, own := own, results := [] },
            hop := if own then (gr.hop + 1) % 4 else gr.hop, roundDue := false, refreshDue := false }

/-- A group begins the round that is due: its own slots, or priority measurements alone, or in OFF the refresh round
(R125 to R127, R135). The refresh round of a group in OFF moves the hop step and leaves the time since round start running
(DESIGN CHOICE, notes/assumptions/24.md). -/
def State.beginRound (s : State) (g : GroupId) : State :=
  let gr := s.group g
  let slots := roundSlots g gr gr.mode
  if gr.round.isSome then s
  else if gr.roundDue && !slots.isEmpty then
    (s.setGroup g { (gr.started slots true) with sinceStart := 0 }).nextMeasurement g
  else if gr.refreshDue && !gr.refresh.isEmpty then
    (s.setGroup g (if gr.mode = .off then gr.started slots true else gr.started [] false)).nextMeasurement g
  else s

/-- A group's next period start: which rounds begin at it (R125 to R127, R135). A first round in a new mode stays owed
while the group is still measuring (R124). A group that owes a SINGLE round and has no point of its own left in its slot map
begins none and goes on owing it: single due stays yes, and so does the scan mode SINGLE (DESIGN CHOICE,
notes/assumptions/24.md). -/
def Group.judgeDue (scan : Nat) (g : GroupId) (gr : Group) : Group :=
  let timed := match gr.mode with
    | .off => false
    | .single => gr.singleDue
    | .continuous => true
    | .periodic => gr.fresh || decide (scan ≤ gr.sinceStart)
    | .watch => gr.fresh || decide (Config.watchPeriods ≤ gr.sinceStart)
  let idle := gr.round.isNone
  { gr with roundDue := idle && timed && !(roundSlots g gr gr.mode).isEmpty,
            refreshDue := idle && !gr.refresh.isEmpty, fresh := gr.fresh && !idle }

/-- A gate window ends (R121): quality, comparison and publication as the group's mode gives, then the next measurement. What the
measurement itself switches, by a confirmed change and the grants and yields that follow, comes before that next measurement begins and
so never disturbs it, where R128 lets either come first (DESIGN CHOICE, notes/assumptions/48.md). After a PRIORITY measurement that a
write has voided the group goes on with its next slot (R136; notes/assumptions/24.md). -/
def State.endMeasurement (s : State) (g : GroupId) (count : Nat) : State :=
  let gr := s.group g
  match gr.measuring, gr.round with
  | some m, some r =>
    let q := quality m count
    let s := (s.setGroup g { gr with measuring := none }).noteQuality m.point count q
    let s := if m.voided then s
      else
        let s := if r.mode.compared then s.compare m.point count q else s
        if m.slot.isSome ∧ r.mode = .periodic then s.keepResult g m.point count q else s.publish m.point count q
    if m.voided && m.slot.isNone then s.settle.nextSlot g else s.settle.nextMeasurement g
  | _, _ => s

/-- SCAN_ROUND_START (R125 to R127, R135). -/
def execScanRoundStart (g : GroupId) (s : State) : Host.Outcome State Fault Refusal := .next (s.beginRound g)

/-- MEASUREMENT_END (R121, R130 to R133). -/
def execMeasurementEnd (g : GroupId) (count : Nat) (s : State) : Host.Outcome State Fault Refusal :=
  .next (s.endMeasurement g count)

end Sys2Proof.Machine
end

