-- ==== Sys2Proof/Machine/Flow.lean ====
section
/-! DEFINITION. Flow pulses and decilitres (2.2, R36 to R38), the softener's own steps (R62, R65, R67), and the ends of the
washing operations by time. -/

namespace Sys2Proof.Machine

/-! ### Decilitres (R31, R36) -/

/-- The tallies of a FILL after a decilitre (R36 stage 3). -/
def FillWork.counted' (w : FillWork) (c : Charge) (hardness : Nat) : FillWork :=
  let w := { w with counted := w.counted + 1, pulses := 0, lastHardness := hardness, noFlow := Timer.zero }
  match c with
  | .soft .a => { w with softA := w.softA + 1 }
  | .soft .b => { w with softB := w.softB + 1 }
  | .bypass => { w with bypass := w.bypass + 1 }

/-- Stage 5 of R36: the fill's held position compared with its fill position, and the switch-over or WAIT_SOFT (R59). -/
def State.fillStage5 (s : State) (i : SlotId) (who : Holder) (serial : Nat) : State :=
  match s.fillPosition who with
  | none => s.enterWaitSoft i
  | some c => if c = s.arb.selHeld then s else (s.releaseIf who .inlet).toInlet who serial c

/-- One whole decilitre taken for a FILL, stage by stage (R36, R37). No WASH decilitre flows through a REGENERATING column
(law 5, R53): where INLET were held at one, nothing is counted (notes/assumptions/26.md). -/
def State.fillDecilitre (s : State) (i : SlotId) : State :=
  match s.fillAt i with
  | none => s
  | some (sl, w) =>
    if (s.column s.arb.selHeld).state = .regenerating then s
    else
      let who := slotWho i sl
      let p := s.chargeDecilitre i
      let w := w.counted' p.2 s.acct.hardness
      let s := p.1.raiseTank.setWork i (.fill w)
      if w.counted = w.requested then s.finishFill i .done true
      else if s.cfg.tankLimit ≤ s.water.tank then s.finishFill i .limit true
      else (s.fillStage5 i who sl.age).yieldPath who sl.age

/-- A pulse that arrives while INLET is not HELD (R32). -/
def State.closedPulse (s : State) : State :=
  if s.cfg.flowPulsesPerDl ≤ s.water.closedFlow + 1 then
    let tally := min 65535 (s.water.closedTally + 1)
    ({ s with water := { s.water with closedFlow := 0, closedTally := tally } } : State).fault .flowWhileClosed 0 tally
  else { s with water := { s.water with closedFlow := s.water.closedFlow + 1 } }

/-- A pulse of a regeneration's count, and its decilitre when the count is full (R31, R65). -/
def State.regenPulse (s : State) (g : Regen) : State :=
  if s.cfg.flowPulsesPerDl ≤ g.pulses + 1 then s.regenDecilitre g
  else s.setRegen (some { g with pulses := g.pulses + 1, noFlow := Timer.zero })

/-- A pulse of a fill's count, and its decilitre when the count is full (R31). -/
def State.fillPulse (s : State) (i : SlotId) : State :=
  match s.fillAt i with
  | none => s
  | some (_, w) =>
    if s.cfg.flowPulsesPerDl ≤ w.pulses + 1 then s.fillDecilitre i
    else s.setWork i (.fill { w with pulses := w.pulses + 1, noFlow := Timer.zero })

/-- A pulse on FLOW is added to the work that holds INLET HELD, or counted apart (R31, R32). -/
def State.flowPulse (s : State) : State :=
  match s.flowingFill with
  | some i => s.fillPulse i
  | none =>
    match s.soft.regen with
    | some g => if s.regenFlowing then s.regenPulse g else s.closedPulse
    | none => s.closedPulse

/-- The next pulse completes a decilitre of the work that holds INLET (R31). -/
def State.decilitreNext (s : State) : Bool :=
  match s.flowingFill with
  | some i =>
    match s.fillAt i with
    | some (_, w) => decide (s.cfg.flowPulsesPerDl ≤ w.pulses + 1)
    | none => false
  | none =>
    match s.soft.regen with
    | some g => s.regenFlowing && decide (s.cfg.flowPulsesPerDl ≤ g.pulses + 1)
    | none => false

/-- FLOW_PULSE (R31, R32). -/
def execFlowPulse (s : State) : Host.Outcome State Fault Refusal := .next s.flowPulse.settle

/-- DECILITRE_COUNTED: the pulse that completes a decilitre (R31, R36, R65, R68; notes/assumptions/8.md). -/
def execDecilitreCounted (s : State) : Host.Outcome State Fault Refusal :=
  .next (if s.decilitreNext then s.flowPulse.settle else s)

/-! ### No flow (R38, R65) -/

/-- The flowing fill's no-flow time has reached NO_FLOW_TIMEOUT (R38). The FILL is ended first, with the reports of a breakthrough
still pending (R56), and NO_FLOW is posted after it (DESIGN CHOICE, notes/assumptions/34.md). -/
def State.fillNoFlow (s : State) : State :=
  match s.flowingFill with
  | none => s
  | some i =>
    match s.fillAt i with
    | some (sl, w) =>
      if w.noFlow.due then ((s.finishFill i .noWater true).fault .noFlow (portCode sl.port) w.counted).settle else s
    | none => s

/-- The regeneration's no-flow time has reached NO_FLOW_TIMEOUT (R65, R70). -/
def State.regenNoFlow (s : State) : State :=
  match s.soft.regen with
  | some g =>
    if s.regenFlowing && g.noFlow.due then
      ((s.fault .noFlow (regenRequesterCode g) g.counted).endRegen .noWater true).settle
    else s
  | none => s

/-- FILL_NO_FLOW_TIMEOUT (R38). -/
def execFillNoFlowTimeout (s : State) : Host.Outcome State Fault Refusal := .next s.fillNoFlow

/-- REGEN_NO_FLOW_TIMEOUT (R65, R70). -/
def execRegenNoFlowTimeout (s : State) : Host.Outcome State Fault Refusal := .next s.regenNoFlow

/-! ### The softener's own steps (R62, R67) -/

/-- SOAK_TIME has passed (R67). -/
def State.soakEnded (s : State) : State :=
  match s.soft.regen with
  | some g => if g.phase == .soak && g.soak.due then (s.endSoak g).settle else s
  | none => s

/-- REGEN_HEAD_TAKEN (R62, R63): the same judgement as a step of its own, with the grants that follow. A head that the step which
made it ready has taken is not there to be taken again (notes/assumptions/42.md); a head that a COMMIT has taken has its grant here,
and a wait for salt that a COMMIT has left is begun and reported here (notes/assumptions/37.md). -/
def execRegenHeadTaken (s : State) : Host.Outcome State Fault Refusal := .next s.takeHead.settle

/-- SOAK_END (R67, R68). -/
def execSoakEnd (s : State) : Host.Outcome State Fault Refusal := .next s.soakEnded

/-! ### Ends by time (R41, R46, R48, R49, R173) -/

/-- The CIRCULATE that holds CIRC HELD. -/
def State.runningCirc (s : State) : Option SlotId :=
  let e := s.entry .circ
  if e.lease = .held then e.holder.bind (·.slot) else none

/-- The DRAIN that holds DRAIN HELD. -/
def State.runningDrain (s : State) : Option SlotId :=
  let e := s.entry .drain
  if e.lease = .held then e.holder.bind (·.slot) else none

/-- The run time of the CIRCULATE that holds CIRC has reached the requested run time (R41). A run end due at the period end at
which the door opens is held back, where the opening is taken first, until CIRC is HELD again (DESIGN CHOICE,
notes/assumptions/41.md). -/
def State.circRunEnd (s : State) : State :=
  match s.runningCirc with
  | none => s
  | some i =>
    match s.circAt i with
    | some (_, w) => if w.run.due then (s.finishCirc i .done true).settle else s
    | none => s

/-- The time limit of a HEAT has passed (R46). -/
def State.heatLimitEnd (s : State) (i : SlotId) : State :=
  match s.heatAt i with
  | some (_, w) => if w.granted && w.passed.due then (s.finishHeat i .timeout true).settle else s
  | none => s

/-- The post-run of a DRAIN has passed (R48). -/
def State.drainPostrunEnd (s : State) : State :=
  match s.runningDrain with
  | none => s
  | some i =>
    match s.drainAt i with
    | some (_, w) =>
      match w.postrun with
      | some t => if t.due then (s.finishDrain i .done true).settle else s
      | none => s
    | none => s

/-- The limit of a DRAIN has passed outside a post-run (R49). -/
def State.drainLimitEnd (s : State) : State :=
  match s.runningDrain with
  | none => s
  | some i =>
    match s.drainAt i with
    | some (_, w) => if w.postrun.isNone && w.limit.due then (s.drainTimeout i).settle else s
    | none => s

/-- The post-run of the forced drain has passed: DRAIN goes to a DRAIN that waits in this same step, before a CROSSED that falls
together with the end can take it (R173; DESIGN CHOICE, notes/assumptions/45.md). -/
def State.forcePostrunEnd (s : State) : State :=
  if s.prot.force = .postrun ∧ s.prot.postrun.due = true then s.endForce.settle else s

/-- CIRCULATE_RUN_END (R41). -/
def execCirculateRunEnd (s : State) : Host.Outcome State Fault Refusal := .next s.circRunEnd

/-- HEAT_LIMIT_EXPIRY (R46). -/
def execHeatLimitExpiry (i : Fin 12) (s : State) : Host.Outcome State Fault Refusal := .next (s.heatLimitEnd i)

/-- DRAIN_POSTRUN_END (R48). -/
def execDrainPostrunEnd (s : State) : Host.Outcome State Fault Refusal := .next s.drainPostrunEnd

/-- DRAIN_LIMIT_EXPIRY (R49). -/
def execDrainLimitExpiry (s : State) : Host.Outcome State Fault Refusal := .next s.drainLimitEnd

/-- FORCE_POSTRUN_END (R173). -/
def execForcePostrunEnd (s : State) : Host.Outcome State Fault Refusal := .next s.forcePostrunEnd

/-! ### The dose engine's own steps (R99, R106, R148) -/

/-- A stroke generator has run 15 periods: the pump stops, and the channel counts the stroke (R105, R148). -/
def State.strokeEnd (s : State) (n : ReservoirId) : State :=
  let g := s.drive.strokes[n]
  if g.running && decide (Config.strokePeriods ≤ g.count) then
    let s : State := { s with drive := { s.drive with strokes := upd s.drive.strokes n ⟨false, 0⟩ } }
    match (s.entry (.dose n)).holder with
    | some ⟨.ch c, _⟩ => (s.strokeEnded c).settle
    | _ => s
  else s

/-- A stroke interval has passed: the next stroke start is judged (R105, R106). -/
def State.intervalEnd (s : State) (c : ChannelId) : State :=
  let ch := s.channel c
  if ch.state == .dosing && ch.step == .interval && ch.interval.due then (s.strokeStart c).settle else s

/-- The delay left of a channel has reached 0: its DELAY trigger arrives, once (R99). -/
def State.delayExpiry (s : State) (c : ChannelId) : State :=
  let ch := s.channel c
  if ch.delayArmed && ch.delayLeft == 0 then ((s.setChannel c { ch with delayArmed := false }).triggerChannel c).settle
  else s

/-- DOSE_STROKE_END (R105, R148). -/
def execDoseStrokeEnd (n : Fin 3) (s : State) : Host.Outcome State Fault Refusal := .next (s.strokeEnd n)

/-- DOSE_INTERVAL_END (R106). -/
def execDoseIntervalEnd (c : Fin 4) (s : State) : Host.Outcome State Fault Refusal := .next (s.intervalEnd c)

/-- DOSE_DELAY_EXPIRY (R99). -/
def execDoseDelayExpiry (c : Fin 4) (s : State) : Host.Outcome State Fault Refusal := .next (s.delayExpiry c)

end Sys2Proof.Machine
end

