-- ==== Sys2Proof/Machine/Clock.lean ====
section
/-! DEFINITION. The drive period, the run clock, the ramps, the selector's travel, and the steps of the door and the rod
(chapters 1, 7 and 8). -/

namespace Sys2Proof.Machine

/-! ### Ramps (R145, R146) -/

/-- One step of a level toward a target. -/
def stepToward (level target : Nat) : Nat :=
  if level < target then level + 1 else if target < level then level - 1 else level

/-- The target of the CIRC generator: the active setting, or 0 while RELEASING (R145, R146). -/
def State.circTarget (s : State) : Nat := if (s.entry .circ).lease = .releasing then 0 else s.drive.circ.active

/-- A generator's count at a period end; the step is due when it reaches the grade plus 1 (R145). -/
def Ramp.tick (r : Ramp) (target grade : Nat) : Ramp :=
  if r.level = target then { r with count := 0, due := false }
  else { r with count := r.count + 1, due := decide (grade + 1 ≤ r.count + 1) }

/-- A generator that makes the step that is due. -/
def Ramp.step (r : Ramp) (target : Nat) : Ramp := ⟨stepToward r.level target, 0, false⟩

/-- The CIRC generator steps: a switching is reported, a wind-down ends at 0, CIRCULATION_STARTED is judged (R41, R142,
R146). -/
def State.circStep (s : State) : State :=
  if s.drive.circRamp.due then
    let ramp := s.drive.circRamp.step s.circTarget
    let s := reportSwitching s { s with drive := { s.drive with circRamp := ramp } }
    (if (s.entry .circ).lease = .releasing ∧ ramp.level = 0 then s.endCircWindDown else s.circReached).settle
  else s

/-- The DOOR_DRIVE generator steps (R145, R147). -/
def State.doorStep (s : State) : State :=
  if s.drive.doorRamp.due then
    { s with drive := { s.drive with doorRamp := s.drive.doorRamp.step s.drive.door.active } }
  else s

/-- A step of one generator. -/
def State.rampStep (s : State) (g : RampGen) : State :=
  match g with
  | .circ => s.circStep
  | .doorDrive => s.doorStep

/-- RAMP_STEP (R145, R146). -/
def execRampStep (g : RampGen) (s : State) : Host.Outcome State Fault Refusal := .next (s.rampStep g)

/-! ### The run clock (R18, R99, R140) -/

/-- The delay left of a channel at a run-clock second (R99). -/
def Channel.delaySecond (ch : Channel) : Channel :=
  if ch.state = .idle ∨ ch.delayArmed = false then ch else { ch with delayLeft := ch.delayLeft - 1 }

/-- A run-clock second: the clock, the yield flags, the delays (R18, R99, R140). -/
def State.clockSecond (s : State) : State :=
  if s.drive.secondDue then
    let s : State := { s with drive := { s.drive with clock := clockSucc s.drive.clock, secondDue := false } }
    let s := allResources.foldl State.judgeYield s
    let s : State := { s with dose := { s.dose with channels := updAll Channel.delaySecond s.dose.channels } }
    s.settle
  else s

/-- RUN_CLOCK_SECOND (R18, R99, R140). -/
def execRunClockSecond (s : State) : Host.Outcome State Fault Refusal := .next s.clockSecond

/-! ### Selector travel (R23, R24, R150, R151) -/

/-- The reading finds the held position's switch closed and the other open (R150). -/
def State.travelArrived (s : State) : Bool :=
  match s.drive.travelReading, s.arb.selHeld with
  | some (a, b), .a => a && !b
  | some (a, b), .b => b && !a
  | none, _ => false

/-- The travel has arrived: the motor stops, the position is the held one, the lease HELD, the owner told (R23, R150). -/
def State.selectorArrive (s : State) : State :=
  let e := s.entry .selector
  if e.lease = .moving ∧ s.travelArrived = true then
    let s : State := { s with arb := { s.arb with selCurrent := some s.arb.selHeld },
                              drive := { s.drive with travel := none, travelReading := none } }
    let s := s.editEntry .selector fun e => { e with lease := .held }
    match e.holder with
    | some h => (s.selectorHeld h).settle
    | none => s
  else s

/-- The owner of a SELECTOR lease is told of a travel timeout (R24, R39, R70). -/
def State.selectorFailed (s : State) (h : Holder) : State :=
  if s.isRegen h then s.endRegen .selectorFault true
  else match h.slot with
    | some i => s.finishFill i .selectorFault true
    | none => s

/-- A travel has passed 8 s without arrival: the motor stops, the fault, the lease FREE, the owner told (R24, R151). -/
def State.selectorTimeOut (s : State) : State :=
  let e := s.entry .selector
  let late := match s.drive.travel with
    | some t => t.due
    | none => false
  if e.lease = .moving ∧ late = true then
    let s := (s.fault .selectorTimeout 0 (columnCode s.arb.selHeld)).freeLease .selector
    let s : State := { s with arb := { s.arb with selCurrent := none } }
    match e.holder with
    | some h => (s.selectorFailed h).settle
    | none => s
  else s

/-- SELECTOR_ARRIVAL (R23, R150). -/
def execSelectorArrival (s : State) : Host.Outcome State Fault Refusal := .next s.selectorArrive

/-- SELECTOR_TIMEOUT (R24, R151). -/
def execSelectorTimeout (s : State) : Host.Outcome State Fault Refusal := .next s.selectorTimeOut

/-! ### The door and the rod (R154 to R161, R164, R165) -/

/-- Three agreeing readings change the door state (R154, R155). -/
def State.doorChange (s : State) : State :=
  let f := s.door.door
  if 3 ≤ f.agree then (if f.candidate then s.closeDoor else s.openDoor).settle else s

/-- ROD_EXT has become closed while the rod is EXTENDING (R159). -/
def State.rodExtend (s : State) : State :=
  let rod := s.door.rod
  if rod.state = .extending ∧ rod.extEdge = true then
    s.setRod { rod with state := .extended, hold := Timer.zero, extEdge := false }
  else s

/-- The hold time has reached ROD_HOLD: DOOR_DRIVE is released (R159). -/
def State.rodHold (s : State) : State :=
  let rod := s.door.rod
  if rod.state = .extended ∧ rod.hold.due = true then (s.release .doorDrive).settle else s

/-- A cause of a push stall is due (R160). -/
def Rod.stallDue (r : Rod) : StallCause → Bool
  | .maxHold => r.maxHoldDue
  | .timeout => r.extend.due

/-- A push stall is found while the rod is EXTENDING, the level read after this period end's ramp step (R160). -/
def State.pushStall (s : State) (cause : StallCause) : State :=
  if s.door.rod.state = .extending ∧ s.door.rod.stallDue cause = true then (s.doorStep.pushStalled cause).settle else s

/-- ROD_RET has become closed during a retract (R161). -/
def State.rodRetract (s : State) : State :=
  if s.door.rod.retract.isSome ∧ s.door.rod.retEdge = true then s.retractEnded.settle else s

/-- The retract time has reached RETRACT_TIMEOUT (R161). -/
def State.retractLate (s : State) : State :=
  match s.door.rod.retract with
  | some (_, t) => if t.due then s.retractTimedOut.settle else s
  | none => s

/-- The delay of a DRY has passed (R164). -/
def State.dryDelay (s : State) : State :=
  match s.doorSlot with
  | none => s
  | some i =>
    match s.doorAt i with
    | some (_, true, w) => if w.phase = .delay ∧ w.delayPassed.due = true then (s.dryDelayPassed i).settle else s
    | _ => s

/-- The ajar time of a DRY has reached the requested time (R165). -/
def State.dryAjarPassed (s : State) : State :=
  match s.doorSlot with
  | none => s
  | some i =>
    match s.doorAt i with
    | some (_, true, w) => if w.phase = .ajar ∧ w.ajarPassed.due = true then (s.finishDoor i .done true).settle else s
    | _ => s

/-- DOOR_STATE_CHANGE (R154, R155). -/
def execDoorStateChange (s : State) : Host.Outcome State Fault Refusal := .next s.doorChange

/-- ROD_EXTENDED (R159). -/
def execRodExtended (s : State) : Host.Outcome State Fault Refusal := .next s.rodExtend

/-- ROD_HOLD_END (R159). -/
def execRodHoldEnd (s : State) : Host.Outcome State Fault Refusal := .next s.rodHold

/-- PUSH_STALL (R160). -/
def execPushStall (cause : StallCause) (s : State) : Host.Outcome State Fault Refusal := .next (s.pushStall cause)

/-- ROD_RETRACTED (R161). -/
def execRodRetracted (s : State) : Host.Outcome State Fault Refusal := .next s.rodRetract

/-- RETRACT_TIMEOUT (R161). -/
def execRetractTimeout (s : State) : Host.Outcome State Fault Refusal := .next s.retractLate

/-- DRY_DELAY_END (R164). -/
def execDryDelayEnd (s : State) : Host.Outcome State Fault Refusal := .next s.dryDelay

/-- DRY_AJAR_END (R165). -/
def execDryAjarEnd (s : State) : Host.Outcome State Fault Refusal := .next s.dryAjarPassed

/-! ### The period end (R140) -/

/-- The steps that a period end left due and that have not been taken yet, in the order in which they are taken before the
next period end (notes/assumptions/3.md). -/
def dueSteps : List (State → State) :=
  [State.clockSecond, State.circStep, State.doorStep, State.selectorArrive, State.selectorTimeOut, State.doorChange,
   State.rodExtend, State.rodRetract, fun s => s.pushStall .maxHold, fun s => s.pushStall .timeout, State.rodHold,
   State.retractLate, fun s => s.strokeEnd 0, fun s => s.strokeEnd 1, fun s => s.strokeEnd 2,
   fun s => allChannels.foldl State.intervalEnd s, fun s => allChannels.foldl State.delayExpiry s, State.fillNoFlow,
   State.regenNoFlow, State.circRunEnd, fun s => allSlots.foldl State.heatLimitEnd s, State.drainPostrunEnd,
   State.drainLimitEnd, State.forcePostrunEnd, State.soakEnded, State.dryDelay, State.dryAjarPassed,
   fun s => s.takeHead.settle, fun s => allGroups.foldl State.beginRound s]

/-- The due steps are taken. -/
def State.catchUp (s : State) : State := dueSteps.foldl (fun s f => f s) s

/-- The period is counted; every 50th leaves a run-clock second to be taken (R140), so that what this period end itself reports
carries the second before it (DESIGN CHOICE, notes/assumptions/34.md). The DRAIN_POSTRUN as it stands is the one of the period that
begins (R28, R173). -/
def State.countPeriod (s : State) : State :=
  let n := s.drive.period + 1
  { s with drive := { s.drive with
      period := n, secondDue := n % Config.periodsPerSecond == 0, postrun := s.cfg.drainPostrun } }

/-- A pending staged setting becomes the active setting (R144). -/
def Setting.apply (t : Setting) : Setting := if t.applyPending then ⟨t.staged, t.staged, false⟩ else t

/-- The staged settings are applied (R144). -/
def State.applyStaging (s : State) : State :=
  { s with drive := { s.drive with circ := s.drive.circ.apply, door := s.drive.door.apply } }

/-- The ramp generators of HELD and RELEASING leases count (R145). While ROD_EXT cuts the extending motor off, the DOOR_DRIVE
generator does not act and its level is kept (R147, R157, R159; notes/assumptions/35.md). -/
def State.countRamps (s : State) : State :=
  let l := (s.entry .circ).lease
  let circ := if l = .held ∨ l = .releasing then s.drive.circRamp.tick s.circTarget s.cfg.circRampGrade
    else s.drive.circRamp
  let door := if (s.entry .doorDrive).lease = .held ∧ ¬(s.drive.rodExtend = true ∧ s.door.rod.extRaw = true) then
      s.drive.doorRamp.tick s.drive.door.active s.cfg.pushGrade
    else s.drive.doorRamp
  { s with drive := { s.drive with circRamp := circ, doorRamp := door } }

/-- The spans of one slot's work at a period end (R28, R38, R41, R46, R48, R49, R164, R165). -/
def State.tickWork (s : State) (i : SlotId) (sl : Slot) : Work :=
  let who := slotWho i sl
  match sl.work with
  | .fill w =>
    if s.holdsHeld who .inlet then .fill { w with noFlow := w.noFlow.tick (seconds s.cfg.noFlowTimeout) } else .fill w
  | .circulate w =>
    if s.holdsHeld who .circ then .circulate { w with run := w.run.tick (seconds w.runTime) } else .circulate w
  | .heat w => if w.granted then .heat { w with passed := w.passed.tick (seconds w.limit) } else .heat w
  | .drain w =>
    if s.holdsHeld who .drain then
      .drain { limit := w.limit.tick (seconds s.cfg.drainLimit),
               postrun := w.postrun.map fun t => t.tick (seconds s.drive.postrun) }
    else .drain w
  | .regenerate c => .regenerate c
  | .doorPush w => .doorPush w
  | .dry w =>
    match w.phase with
    | .delay => .dry { w with delayPassed := w.delayPassed.tick (seconds w.delay) }
    | .ajar => .dry { w with ajarPassed := w.ajarPassed.tick (seconds w.ajar) }
    | .waitQuiet => .dry w
    | .pushing => .dry w

/-- The spans of the pool's work. -/
def State.tickPool (s : State) : State :=
  { s with pool := (List.finRange 12).foldl (fun v i =>
      match v[i] with
      | some sl => if sl.outcome.isSome then v else upd v i (some { sl with work := s.tickWork i sl })
      | none => v) s.pool }

/-- The spans of the regeneration in progress (R38, R65, R67). -/
def State.tickRegen (s : State) : State :=
  match s.soft.regen with
  | none => s
  | some g =>
    let g := if s.regenFlowing then { g with noFlow := g.noFlow.tick (seconds s.cfg.noFlowTimeout) } else g
    let g := if g.phase = .soak then { g with soak := g.soak.tick (seconds s.cfg.soakTime) } else g
    s.setRegen (some g)

/-- A channel's stroke interval (R106). -/
def State.tickChannel (s : State) (c : ChannelId) : State :=
  let ch := s.channel c
  if ch.step = .interval then
    s.setChannel c { ch with interval := ch.interval.tick (Config.periodsPerTenth * (s.currentDesc ch).interval) }
  else s

/-- A stroke generator's count (R148). -/
def Stroke.tick (t : Stroke) : Stroke := if t.running then { t with count := min Config.strokePeriods (t.count + 1) } else t

/-- A published result grows older: 0.1 s at every fifth period end from its publication (R130). -/
def Published.tick (p : Published) : Published :=
  if p.sub + 1 = Config.periodsPerTenth then { p with age := min 65535 (p.age + 1), sub := 0 }
  else { p with sub := p.sub + 1 }

/-- The level the DOOR_DRIVE generator has after this period end's ramp step (R160). -/
def State.doorLevelAfterStep (s : State) : Nat :=
  if s.drive.doorRamp.due then stepToward s.drive.doorRamp.level s.drive.door.active else s.drive.doorRamp.level

/-- The rod's times at a period end (R156, R159 to R161). -/
def State.tickRod (s : State) : State :=
  let rod := s.door.rod
  let rod := if rod.state = .extending then
      let n := if s.doorLevelAfterStep = s.drive.door.active then rod.maxHold + 1 else 0
      { rod with extend := rod.extend.tick (seconds s.cfg.extendTimeout), maxHold := n,
                 maxHoldDue := decide (s.cfg.pushMaxhold ≤ n) }
    else rod
  let rod := if rod.state = .extended then { rod with hold := rod.hold.tick (seconds s.cfg.rodHold) } else rod
  s.setRod { rod with retract := rod.retract.map fun x => (x.1, x.2.tick (seconds s.cfg.retractTimeout)) }

/-- Every span, count and age moves on by one period (R28, R140, R168). -/
def State.tickSpans (s : State) : State :=
  let s := (allChannels.foldl State.tickChannel s.tickPool.tickRegen).tickRod
  { s with
    drive := { s.drive with strokes := updAll Stroke.tick s.drive.strokes,
                            travel := s.drive.travel.map fun t => t.tick Config.travelPeriods },
    prot := if s.prot.force = .postrun then
        { s.prot with postrun := s.prot.postrun.tick (seconds s.drive.postrun) } else s.prot,
    sense := { s.sense with
      points := updAll (fun p => { p with published := p.published.map Published.tick }) s.sense.points,
      groups := updAll (fun g => { g with sinceStart := g.sinceStart + 1 }) s.sense.groups } }

/-- A reading of a filtered switch (R154). -/
def Filter.read (f : Filter) (x : Bool) : Filter :=
  if x = f.value then { f with agree := 0 }
  else if x = f.candidate then { f with agree := min 3 (f.agree + 1) }
  else { f with candidate := x, agree := 1 }

/-- A rod switch read: the third agreeing reading changes it (R156). -/
def Filter.readRod (f : Filter) (x : Bool) : Filter :=
  let g := f.read x
  if 3 ≤ g.agree then ⟨g.candidate, g.candidate, 0⟩ else g

/-- The switches are read: the selector's while it travels, the rod's, the door's (R147, R150, R154, R156). -/
def State.takeReadings (s : State) (r : PeriodReadings) : State :=
  let rod := s.door.rod
  let ret := rod.ret.readRod r.rodRet
  let ext := rod.ext.readRod r.rodExt
  { s with
    drive := { s.drive with
      travelReading := if (s.entry .selector).lease = .moving then some (r.selA, r.selB) else none },
    door := { door := s.door.door.read r.doorSw,
              rod := { rod with ret := ret, ext := ext, retRaw := r.rodRet, extRaw := r.rodExt,
                                retEdge := ret.value && !rod.ret.value, extEdge := ext.value && !rod.ext.value } } }

/-- A raw probe reading as a two's-complement 16-bit value (R176). -/
def rawProbe (x : Int) : Nat := (x % 65536).toNat

/-- The over-temperature condition after a valid reading (R44). -/
def overTempAfter (g : Settings) (was : Bool) (t : Nat) : Bool :=
  if g.overtempLimit ≤ t then true else if t + Config.overtempHysteresis < g.overtempLimit then false else was

/-- Nothing is taken between two things of one step. -/
def State.still (s : State) : State := s

/-- The HEATs and the OVERTEMP cause take a valid reading, the HEATs first or the trip first, with what comes between the two
(R46, R47). -/
def State.takeReading (s : State) (t : Nat) (heatsFirst : Bool) (between : State → State) : State :=
  if s.cfg.overtempLimit ≤ t then
    if heatsFirst then (between s.heatsReading).handIn .overtemp 0 else (between (s.handIn .overtemp 0)).heatsReading
  else between s.heatsReading

/-- A valid probe reading (R44, R46, R47). -/
def State.validReading (s : State) (t : Nat) (heatsFirst : Bool) (between : State → State) : State :=
  let s : State := { s with water := { s.water with temperature := t, probeValid := true, probeRead := true,
                                                    overTemp := overTempAfter s.cfg s.water.overTemp t } }
  s.takeReading t heatsFirst between

/-- An invalid probe reading (R44, R46). -/
def State.invalidReading (s : State) (x : Int) : State :=
  let first := s.water.probeValid || !s.water.probeRead
  let s : State := { s with water := { s.water with probeValid := false, probeRead := true } }
  let s := if first then s.fault .tempProbe 0 (rawProbe x) else s
  s.heatsProbeFault

/-- A reading of 0..1000 is valid (R44). -/
def State.readProbe (s : State) (x : Int) (heatsFirst : Bool) (between : State → State) : State :=
  if 0 ≤ x ∧ x ≤ 1000 then s.validReading x.toNat heatsFirst between else s.invalidReading x

/-- Some HEAT's limit has passed at this period end (R46). -/
def State.heatLate (s : State) : Bool :=
  allSlots.any fun i => match s.heatAt i with
    | some (_, w) => w.granted && w.passed.due
    | none => false

/-- The reading would latch the trip, or add to its causes (R44, R171). -/
def State.overtempNew (s : State) (x : Int) : Bool :=
  decide (0 ≤ x ∧ x ≤ 1000 ∧ s.cfg.overtempLimit ≤ x.toNat) && !s.prot.overtemp

/-- TPROBE is read (R44). Where the reading latches the trip, or falls with the expiry of a HEAT's limit, the manual lets the
HEATs that the reading ends, the trip, and what this period end has made due come in any order (R46, R47, R149): a free
choice of the six (notes/assumptions/1.md). -/
def State.takeProbe (s : State) (x : Int) : State :=
  if s.overtempNew x || s.heatLate then
    match s.choose.1 % 6 with
    | 0 => s.choose.2.readProbe x true State.still
    | 1 => s.choose.2.readProbe x false State.still
    | 2 => s.choose.2.catchUp.readProbe x true State.still
    | 3 => s.choose.2.catchUp.readProbe x false State.still
    | 4 => s.choose.2.readProbe x true State.catchUp
    | _ => s.choose.2.readProbe x false State.catchUp
  else s.readProbe x true State.still

/-- The CIRCULATE whose run, counted at this period end, has come to a whole second (R41, R42). -/
def State.circSecond (s : State) : Option SlotId :=
  s.runningCirc.filter fun i =>
    match s.circAt i with
    | some (_, w) => w.run.passed != 0 && w.run.passed % Config.periodsPerSecond == 0
    | none => false

/-- A CIRCULATE that still holds CIRC yields where its run has come to a whole second at this period end, unless it is to end
there (R19, R41, R42). One that is given CIRC, or returned to it, later in the period end waits for its next second. -/
def State.circYield (s : State) (second : Option SlotId) : State :=
  match s.runningCirc with
  | none => s
  | some i =>
    match s.circAt i with
    | some (_, w) =>
      if second = some i ∧ (s.entry .circ).yieldRequested = true ∧ w.run.due = false then s.yieldCirc i else s
    | none => s

/-- The rounds that begin at the start of the next period (R125 to R127, R135). -/
def State.judgeRounds (s : State) : State :=
  allGroups.foldl (fun s g => s.setGroup g ((s.group g).judgeDue (scanPeriods s.cfg.scanPeriod) g)) s

/-- The end of a drive period (R140). The probe's reading, and a trip it latches, come before a yield of CIRC due at the same
period end (R42), and carry the second that was running (R192; both DESIGN CHOICE, notes/assumptions/34.md). -/
def State.endPeriod (s : State) (r : PeriodReadings) : State :=
  let s := s.catchUp.countPeriod.applyStaging.circReached.countRamps.tickSpans
  (((s.takeReadings r).takeProbe r.probe).circYield s.circSecond).judgeRounds.settle

/-- DRIVE_PERIOD_END (R44, R130, R140, R144, R145, R154, R156). -/
def execDrivePeriodEnd (r : PeriodReadings) (s : State) : Host.Outcome State Fault Refusal := .next (s.endPeriod r)

end Sys2Proof.Machine
end

