-- ==== Sys2Proof/Machine/Link.lean ====
section
/-! DEFINITION. The Link Ports (chapter 10): the receiver, the transmitter, the judging and acceptance of requests, CANCEL
and the port reset. -/

namespace Sys2Proof.Machine

/-! ### Taking a request (R181 to R184) -/

/-- A receiver's state replaced. -/
def State.setRx (s : State) (p : Port) (rx : RxState) : State := s.setPort p { s.port p with rx := rx }

/-- A frame that has passed its check. In RESYNC the receiver takes no byte, so no frame is seen. Else the receiver is SYNCED;
the frame is discarded while a PORT_RESET waits, and with a fault while 8 immediate responses wait; else it is judged (R180
to R182, R186; notes/assumptions/5.md). -/
def State.takeFrame (s : State) (p : Port) (act : State → State) : State :=
  let before := s
  let s := s.setRx p .synced
  if (before.port p).rx = .resync then before
  else if (s.port p).resetPending then s
  else if Config.immediateResponses ≤ (s.port p).immediateCount then s.fault .frameError (portCode p) 65535
  else act s

/-- An immediate request: TAG_IN_USE, else its owner (R183 cases 2 and 7). -/
def State.immediate (s : State) (p : Port) (tag : Nat) (act : State → State) : State :=
  s.takeFrame p fun s => if (s.tagSlot p tag).isSome then s.reply p tag .tagInUse [] else act s

/-- DOSE_ARM and DOSE_TRIGGER: NOT_READY in SETUP (R183 case 3). -/
def State.immediateInRun (s : State) (p : Port) (tag : Nat) (act : State → State) : State :=
  s.immediate p tag fun s => if s.mode = .setup then s.reply p tag .notReady [] else act s

/-- The lowest free slot of the pool (notes/assumptions/18.md). -/
def State.freeSlot (s : State) : Option SlotId := allSlots.find? fun i => s.pool[i].isNone

/-- An operation accepted into a slot with the next acceptance order, which goes from 65535 to 0; the model counts those wraps
(R184; notes/assumptions/19.md). -/
def State.accept (s : State) (p : Port) (tag : Nat) (w : Work) (i : SlotId) : State :=
  let next := wordSucc s.accepted
  ({ s with accepted := next, laps := if next = 0 then s.laps + 1 else s.laps } : State).setSlot i
    (some ⟨p, tag, w, s.accepted, s.laps, none⟩)

/-- An operation judged and, if accepted, taken up by its owner; `trips`: answered TRIPPED while a trip is latched (R183
cases 2 to 6, R184). -/
def State.operation (s : State) (p : Port) (tag : Nat) (w : Work) (trips : Bool) (takeUp : State → SlotId → State) :
    State :=
  s.takeFrame p fun s =>
    if (s.tagSlot p tag).isSome then s.reply p tag .tagInUse []
    else if s.mode = .setup then s.reply p tag .notReady []
    else if trips && s.latched then s.reply p tag .tripped []
    else match s.freeSlot with
      | some i => if s.meetsReserve p then (takeUp (s.accept p tag w i) i).settle else s.reply p tag .retry []
      | none => s.reply p tag .retry []

/-! ### Cancel and port reset (R185, R186) -/

/-- An operation whose outcome is not fixed ends as cancelled, by its owner's rules (R30, R73, R167); a port reset
(`answer` false) has no response sent. -/
def State.cancelSlot (s : State) (i : SlotId) (answer : Bool) : State :=
  match s.pool[i] with
  | none => s
  | some sl =>
    match sl.work with
    | .fill _ => s.finishFill i .cancelled answer
    | .circulate _ => s.finishCirc i .cancelled answer
    | .heat _ => s.finishHeat i .cancelled answer
    | .drain _ => s.finishDrain i .cancelled answer
    | .regenerate _ => s.cancelRegenerate sl.port i answer
    | .doorPush _ => s.finishDoor i .cancelled answer
    | .dry _ => s.finishDoor i .cancelled answer

/-- A port reset ends one slot of the port: the operation, and the slot where it winds down already (R186). -/
def State.resetSlot (s : State) (p : Port) (i : SlotId) : State :=
  match s.pool[i] with
  | none => s
  | some sl => if sl.port = p then (s.cancelSlot i false).setSlot i none else s

/-- A port after a port reset: its queue empty, its subscription slots DISABLED; its receiver as it was (R186, R198). -/
def PortState.afterReset (ps : PortState) : PortState :=
  { rx := ps.rx, txq := [], resetPending := false, subs := Vector.replicate 6 Sub.reset }

/-- A port reset (R22, R186, R198); it ends the port's slots in slot order (DESIGN CHOICE, notes/assumptions/34.md). -/
def State.resetPort (s : State) (p : Port) : State :=
  let s := allSlots.foldl (fun s i => s.resetSlot p i) s
  (s.setPort p (s.port p).afterReset).settle

/-! ### The receiver and the transmitter (R180 to R183) -/

/-- BREAK (R180, R186). -/
def execBreakLine (p : Port) (s : State) : Host.Outcome State Fault Refusal := .next ((s.resetPort p).setRx p .resync)

/-- LINE_IDLE (R180). -/
def execLineIdle (p : Port) (s : State) : Host.Outcome State Fault Refusal :=
  .next (match (s.port p).rx with
    | .resync => s.setRx p .synced
    | .synced => s
    | .inFrame _ => s)

/-- START_BYTE (R180). -/
def execStartByte (p : Port) (s : State) : Host.Outcome State Fault Refusal :=
  .next (match (s.port p).rx with
    | .synced => s.setRx p (.inFrame 1)
    | .resync => s
    | .inFrame _ => s)

/-- FRAME_ERROR: a byte other than the start byte in SYNCED (R180). -/
def execFrameError (p : Port) (s : State) : Host.Outcome State Fault Refusal :=
  .next (match (s.port p).rx with
    | .synced => (s.setRx p .resync).fault .frameError (portCode p) 0
    | .resync => s
    | .inFrame _ => s)

/-- FRAME_GAP_TIMEOUT: the frame in progress had taken `taken` bytes more than the model has seen (R180;
notes/assumptions/6.md). -/
def execFrameGapTimeout (p : Port) (taken : Nat) (s : State) : Host.Outcome State Fault Refusal :=
  .next (match (s.port p).rx with
    | .inFrame n => (s.setRx p .resync).fault .frameError (portCode p) (n + taken)
    | .resync => s
    | .synced => s)

/-- OVERLONG: a length byte outside 2..122 (R181). -/
def execOverlong (p : Port) (length : Nat) (s : State) : Host.Outcome State Fault Refusal :=
  .next (match (s.port p).rx with
    | .inFrame _ =>
      if length < 2 ∨ 122 < length then (s.setRx p .resync).fault .overlong (portCode p) length else s
    | .resync => s
    | .synced => s)

/-- CHECK_ERROR: a completed frame whose check differs from the CRC of the bytes it covers; in RESYNC no frame is seen, and no
fault is posted while a PORT_RESET waits (R180, R181, R186). -/
def execCheckError (p : Port) (covered : List Nat) (check : Nat) (s : State) : Host.Outcome State Fault Refusal :=
  .next (if crc16 covered = check ∨ (s.port p).rx = .resync then s
    else
      let s := s.setRx p .synced
      if (s.port p).resetPending then s else s.fault .checkError (portCode p) check)

/-- TRANSMIT_QUEUE_FULL: a frame that passes its check while 8 immediate responses wait (R182). -/
def execTransmitQueueFull (p : Port) (s : State) : Host.Outcome State Fault Refusal :=
  .next (if Config.immediateResponses ≤ (s.port p).immediateCount then s.takeFrame p id else s)

/-- BAD_REQUEST: a frame that spells no request (R183 case 1, R190). -/
def execBadRequest (p : Port) (kind tag : Nat) (body : List Nat) (s : State) : Host.Outcome State Fault Refusal :=
  .next (if (decodeRequest p kind tag body).isNone then s.takeFrame p fun s => s.reply p tag .badRequest [] else s)

/-- The frame of a response: kind 0x80, the request's tag, the outcome and the result fields, with its check (R181, R182). -/
def Response.frame (r : Response) : List Nat := frameBytes Config.responseKind r.tag (r.body.map fun b => b.toNat)

/-- The frame a port has on its line: that of the oldest response that waits (R182). -/
def PortState.sending (ps : PortState) : Option (List Nat) := ps.txq.head?.map Response.frame

/-- RESPONSE_SENT: the oldest response leaves the queue; that of a PORT_RESET makes the reset (R182, R186). -/
def execResponseSent (p : Port) (s : State) : Host.Outcome State Fault Refusal :=
  .next (match (s.port p).txq with
    | [] => s
    | r :: rest =>
      let s := s.setPort p { s.port p with txq := rest }
      if r.makesReset then s.resetPort p else s)

/-! ### The requests of the link itself (R185, R186, R196, R197) -/

/-- CANCEL (R185). -/
def execCancel (p : Port) (tag target : Nat) (s : State) : Host.Outcome State Fault Refusal :=
  .next (s.immediate p tag fun s =>
    match s.tagSlot p target with
    | none => s.reply p tag .unknownTag []
    | some i =>
      match s.pool[i].bind (·.outcome) with
      | some _ => s.reply p tag .ok (byte1 1)
      | none => ((s.cancelSlot i true).reply p tag .ok (byte1 0)).settle)

/-- PORT_RESET: answered OK; the reset is made when that response has been sent (R186). -/
def execPortReset (p : Port) (tag : Nat) (s : State) : Host.Outcome State Fault Refusal :=
  .next (s.immediate p tag fun s =>
    let s := s.send p { tag := tag, body := byte1 (outcomeCode .ok), immediate := true, makesReset := true }
    s.setPort p { s.port p with resetPending := true })

/-- A subscription slot as SUBSCRIBE leaves it (R197). -/
def Sub.written (filter mask enable : Nat) : Sub :=
  { filter := BitVec.ofNat 8 filter, mask := BitVec.ofNat 8 mask, enable := enable == 1, held := none, overrun := false }

/-- SUBSCRIBE (R197). -/
def execSubscribe (p : Port) (tag slot filter mask enable : Nat) (s : State) : Host.Outcome State Fault Refusal :=
  .next (s.immediate p tag fun s =>
    match finOf 6 slot with
    | none => s.reply p tag .badParam []
    | some k =>
      if 1 < enable then s.reply p tag .badParam []
      else
        let ps := s.port p
        (s.setPort p { ps with subs := upd ps.subs k (Sub.written filter mask enable) }).reply p tag .ok
          (flagByte ps.subs[k].held.isSome))

/-- One entry of a FETCH_EVENTS response (R182). -/
def subEntry (k : SubId) (sub : Sub) : Option (List Byte) :=
  sub.held.map fun r =>
    byte1 k.val ++ flagByte sub.overrun ++ [r.code] ++ byte1 r.subject ++ byte2 r.value ++ byte4 r.time

/-- The HELD slots of a port, in slot order (R196). -/
def PortState.heldEntries (ps : PortState) : List (List Byte) :=
  (List.finRange 6).filterMap fun k => subEntry k ps.subs[k]

/-- A slot whose report has been returned (R196). -/
def Sub.fetched (sub : Sub) : Sub := if sub.held.isSome then { sub with held := none, overrun := false } else sub

/-- FETCH_EVENTS (R196). -/
def execFetchEvents (p : Port) (tag : Nat) (s : State) : Host.Outcome State Fault Refusal :=
  .next (s.immediate p tag fun s =>
    let ps := s.port p
    (s.setPort p { ps with subs := updAll Sub.fetched ps.subs }).reply p tag .ok (listField ps.heldEntries))

/-! ### Device reset (R2, R152, R156) -/

/-- DEVICE_RESET: every block at its reset values, the switches read; a rod whose end switches conflict is reported STALLED.
The queue of commands is the outside world's and stays (R2, R152, R156; notes/assumptions/31.md). -/
def execDeviceReset (r : ResetReadings) (s : State) : Host.Outcome State Fault Refusal :=
  let t : State := { State.ofReset r with choice := s.choice, pending := s.pending }
  .next (if t.door.rod.state = .stalled then t.post .rodStalled 0 4 else t)

end Sys2Proof.Machine
end

