-- ==== Sys2Proof/Machine/Setup.lean ====
section
/-! DEFINITION. The setup requests: CONFIG_WRITE, CONFIG_READ, ACCOUNT_LOAD, COMMIT, ENTER_SETUP (R91, R187 to R189). -/

namespace Sys2Proof.Machine

/-! ### CONFIG_WRITE and CONFIG_READ (R189) -/

/-- AUTO_REGEN is written: on, every EXHAUSTED column joins the queue, which is judged for its head; off, every REGEN entry leaves it
(R61, R62). -/
def State.autoRegenWritten (s : State) : State :=
  if s.cfg.autoRegen then s.queueExhausted.takeHead.settle
  else s.setQueue (s.soft.queue.filter fun q => q.requester.isSome)

/-- A rated capacity is written: the remaining capacity is lowered to it (R51). -/
def State.ratedWritten (s : State) (c : Column) : State :=
  s.setColumn c { s.column c with remaining := min (s.column c).remaining (s.rated c) }

/-- RES_FULL is written: the amount is lowered to it (R75). -/
def State.resFullWritten (s : State) (n : ReservoirId) : State :=
  let a := s.acct.reservoirs[n]
  s.setReservoir n { a with amount := min a.amount s.cfg.resFull[n] }

/-- SALT_FULL is written: the amount is lowered to it, and the change reported (R83, R84). -/
def State.saltFullWritten (s : State) : State :=
  let a := s.acct.salt
  if s.cfg.saltFull < a.amount then (s.setSalt { a with amount := s.cfg.saltFull }).saltReported else s

/-- HARDNESS_SOURCE or HARDNESS_SET is written: a CONFIGURED hardness equals HARDNESS_SET (R86). -/
def State.hardnessWritten (s : State) : State :=
  if s.cfg.hardnessSensed then s else s.setHardness s.cfg.hardnessSet false

/-- PUBLISH_EVERY is written: a higher count of rounds to publish is lowered to it (R125). -/
def State.publishWritten (s : State) : State :=
  { s with sense := { s.sense with
      groups := updAll (fun g => { g with roundsToPublish := min g.roundsToPublish s.cfg.publishEvery })
        s.sense.groups } }

/-- PUSH_MAX is written while the rod is EXTENDING: staged as the new target (R144, R168). -/
def State.pushMaxWritten (s : State) : State :=
  if s.door.rod.state = .extending then
    { s with drive := { s.drive with door := { s.drive.door with staged := s.cfg.pushMax, applyPending := true } } }
  else s

/-- What a write of an item does beyond the item, as its owner's chapter gives. -/
def State.itemWritten (s : State) : Item → State
  | .capRated c => s.ratedWritten c
  | .exhaustPolicy => (s.judgeFills none).settle
  | .autoRegen => s.autoRegenWritten
  | .hardnessSource => s.hardnessWritten
  | .hardnessSet => s.hardnessWritten
  | .resFull n => s.resFullWritten n
  | .saltFull => s.saltFullWritten
  | .publishEvery => s.publishWritten
  | .pushMax => s.pushMaxWritten
  | .flowPulsesPerDl => s | .noFlowTimeout => s | .tankLimit => s | .drainPostrun => s | .drainLimit => s
  | .overtempLimit => s | .circRampGrade => s | .brineVolume => s | .soakTime => s | .rinseVolume => s
  | .saltPerDl => s | .weakPercent => s | .hardnessTable => s | .factorTable => s | .resLowmark _ => s
  | .strokeVol _ => s | .saltLowmark => s | .portRing _ => s | .regenRing => s | .channelRing _ => s | .dryRing => s
  | .urgentTenure => s | .regrantHoldoff => s | .scanPeriod => s | .pushStart => s | .pushGrade => s
  | .pushMaxhold => s | .extendTimeout => s | .rodHold => s | .retractTimeout => s | .capture _ => s

/-- The configuration table with a payload written, or none where the payload is out of range or breaks its table's condition
(R88, R189). -/
def Settings.write (g : Settings) (i : Item) : ConfigPayload → Option Settings
  | .value v => if itemInRange i v then some (g.put i v) else none
  | .hardnessBands bs => if i = .hardnessTable ∧ hardnessTableOk bs = true then some { g with hardnessTable := bs } else none
  | .factorBands bs => if i = .factorTable ∧ factorTableOk bs = true then some { g with factorTable := bs } else none

/-- CONFIG_WRITE (R183 case 1, R189). -/
def execConfigWrite (p : Port) (tag item index : Nat) (payload : ConfigPayload) (s : State) :
    Host.Outcome State Fault Refusal :=
  .next (if payload.wf item then
      s.immediate p tag fun s =>
        match itemOf item index with
        | none => s.reply p tag .badParam []
        | some i =>
          if s.mode = .run ∧ itemLive i = false then s.reply p tag .wrongMode []
          else match s.cfg.write i payload with
            | none => s.reply p tag .badParam []
            | some g => (({ s with cfg := g } : State).itemWritten i).reply p tag .ok []
    else s.takeFrame p fun s => s.reply p tag .badRequest [])

/-- The value or table an item holds, as CONFIG_READ answers it (R189). -/
def Settings.readBytes (g : Settings) : Item → List Byte
  | .hardnessTable => bandBytes true g.hardnessTable
  | .factorTable => bandBytes false g.factorTable
  | i => byte2 (g.read i)

/-- CONFIG_READ (R189). -/
def execConfigRead (p : Port) (tag item index : Nat) (s : State) : Host.Outcome State Fault Refusal :=
  .next (s.immediate p tag fun s =>
    match itemOf item index with
    | none => s.reply p tag .badParam []
    | some i => s.reply p tag .ok (s.cfg.readBytes i))

/-! ### ACCOUNT_LOAD (R91) -/

/-- A reservoir amount loaded. -/
def State.loadReservoir (s : State) (n : ReservoirId) (amount : Nat) : Option State :=
  if amount ≤ s.cfg.resFull[n] then
    some (s.setReservoir n { s.acct.reservoirs[n] with amount := amount, known := true })
  else none

/-- The salt amount loaded, and reported (R84). -/
def State.loadSalt (s : State) (amount : Nat) : Option State :=
  if amount ≤ s.cfg.saltFull then some (s.setSalt { s.acct.salt with amount := amount, known := true }).saltReported
  else none

/-- The column state at a place of the list of R51 that a load accepts. -/
def loadedState : Nat → Option ColumnState
  | 0 => some .inService | 1 => some .standby | 2 => some .exhausted | _ => none

/-- A column's remaining capacity and state loaded. -/
def State.loadColumn (s : State) (c : Column) (remaining st : Nat) : Option State :=
  match loadedState st with
  | none => none
  | some x =>
    if remaining ≤ s.rated c ∧ (x = .inService → (s.column (Column.other c)).state ≠ .inService) ∧
        (x = .exhausted → remaining = 0) then
      some (s.setColumn c { s.column c with state := x, remaining := remaining, breakthrough := none })
    else none

/-- A load of one target (R91, R190). -/
def State.loadAccount (s : State) (target amount st : Nat) : Option State :=
  match target with
  | 0 => s.loadReservoir 0 amount
  | 1 => s.loadReservoir 1 amount
  | 2 => s.loadReservoir 2 amount
  | 3 => s.loadSalt amount
  | 4 => s.loadColumn .a amount st
  | 5 => s.loadColumn .b amount st
  | _ => none

/-- ACCOUNT_LOAD (R91). -/
def execAccountLoad (p : Port) (tag target amount columnState : Nat) (s : State) : Host.Outcome State Fault Refusal :=
  .next (s.immediate p tag fun s =>
    if s.mode = .run then s.reply p tag .wrongMode []
    else match s.loadAccount target amount columnState with
      | some t => t.reply p tag .ok []
      | none => s.reply p tag .badParam [])

/-! ### COMMIT and ENTER_SETUP (R187, R188) -/

/-- Check 1: a role held by more than one point. Of several the first in the role list is carried, and so in the other checks the
first in list or number order (DESIGN CHOICE, notes/assumptions/46.md). -/
def State.check1 (s : State) : Option Nat := (assignedRoles.find? fun r => 1 < s.roleCount r).map roleCode

/-- Check 2: LEAK or TANK_MIN held by no point, LEAK carried where both are missing (notes/assumptions/46.md). -/
def State.check2 (s : State) : Option Nat :=
  (([.leak, .tankMin] : List Role).find? fun r => s.roleCount r = 0).map roleCode

/-- Check 3: a low mark above its full amount, the lowest number carried (notes/assumptions/46.md). -/
def Settings.check3 (g : Settings) : Option Nat :=
  match (List.finRange 3).find? fun n => decide (g.resFull[n] < g.resLowmark[n]) with
  | some n => some (n.val + 1)
  | none => if g.saltFull < g.saltLowmark then some 4 else none

/-- A slot map names a point of another group. -/
def namesOther (g : GroupId) (gr : Group) : Bool :=
  (List.finRange 4).any fun k => match gr.map[k] with
    | some p => groupOf p != g
    | none => false

/-- Check 4: a slot map that names a point of another group, the lowest group carried (notes/assumptions/46.md). -/
def State.check4 (s : State) : Option Nat := (allGroups.find? fun g => namesOther g (s.group g)).map (·.val)

/-- Check 5: all three ports in the URGENT ring. -/
def Settings.check5 (g : Settings) : Option Nat :=
  if g.portUrgent[(0 : Fin 3)] && g.portUrgent[(1 : Fin 3)] && g.portUrgent[(2 : Fin 3)] then some 0 else none

/-- The first check of R187 that fails, with the item carried. -/
def State.failedCheck (s : State) : Option (Nat × Nat) :=
  (s.check1.map ((1, ·))) <|> (s.check2.map ((2, ·))) <|> (s.cfg.check3.map ((3, ·))) <|> (s.check4.map ((4, ·))) <|>
    (s.cfg.check5.map ((5, ·)))

/-- The STANDBY column that a COMMIT puts in service (R187). -/
def State.columnToServe (s : State) : Option Column :=
  if s.inService.isSome then none
  else match s.soft.colA.state, s.soft.colB.state with
    | .standby, .standby => some (if s.soft.colA.remaining < s.soft.colB.remaining then .b else .a)
    | .standby, _ => some .a
    | _, .standby => some .b
    | _, _ => none

/-- The head of the queue is judged in the step of a COMMIT too: it is taken, or waits for salt with its report still to come,
since a COMMIT posts no event (R62, R187; notes/assumptions/37.md). -/
def State.takeHeadAtCommit (s : State) : State := if s.saltOut then s else s.takeHead

/-- A COMMIT whose checks pass (R61, R62, R77, R187). -/
def State.committed (s : State) : State :=
  let s : State := { s with mode := .run }
  let s := match s.columnToServe with
    | some c => s.setColumn c { s.column c with state := .inService }
    | none => s
  (if s.cfg.autoRegen then s.queueExhausted else s).clearLevelFlags.takeHeadAtCommit

/-- COMMIT (R187). No event is posted: the head that it takes asks for SELECTOR, and the grant, with the REGEN_STARTED of R64, is a
step after it, REGEN_HEAD_TAKEN (notes/assumptions/37.md). -/
def execCommit (p : Port) (tag : Nat) (s : State) : Host.Outcome State Fault Refusal :=
  .next (s.immediate p tag fun s =>
    if s.mode = .run then s.reply p tag .state []
    else match s.failedCheck with
      | some (check, item) => s.reply p tag .badConfig (byte1 check ++ byte1 item)
      | none => s.committed.reply p tag .ok [])

/-- The part is quiet: no slot, no holder, no regeneration, every channel IDLE (R188). -/
def State.quiet (s : State) : Bool :=
  s.freeSlots == 12 && allResources.all (fun r => !s.hasHolder r) && s.soft.regen.isNone &&
    allChannels.all fun c => (s.channel c).state == .idle

/-- ENTER_SETUP (R61, R188). -/
def execEnterSetup (p : Port) (tag : Nat) (s : State) : Host.Outcome State Fault Refusal :=
  .next (s.immediate p tag fun s =>
    if s.mode = .setup then s.reply p tag .ok []
    else if s.quiet then (({ s with mode := .setup } : State).setQueue []).reply p tag .ok []
    else s.reply p tag .busy [])

end Sys2Proof.Machine
end

