-- ==== Sys2Proof/Machine/Requests.lean ====
section
/-! DEFINITION. The operations and the requests beside them: washing (chapter 2), REGENERATE (chapter 3), dosing (chapter 5),
sensing (chapter 6), the door (chapter 8), TRIP_CLEAR and FAULT_CLEAR (chapter 9). -/

namespace Sys2Proof.Machine

/-! ### The washing operations and REGENERATE -/

/-- A FILL just accepted (2.3). -/
def freshFill (volume : Nat) : FillWork :=
  { requested := volume, counted := 0, pulses := 0, softA := 0, softB := 0, bypass := 0, lastHardness := 0,
    noFlow := Timer.zero, waitSoft := false }

/-- FILL (R28, R35, R183). -/
def execFill (p : Port) (tag volume : Nat) (s : State) : Host.Outcome State Fault Refusal :=
  .next (s.operation p tag (.fill (freshFill volume)) true State.takeUpFill)

/-- CIRCULATE (R28, R41). -/
def execCirculate (p : Port) (tag duty runTime : Nat) (s : State) : Host.Outcome State Fault Refusal :=
  .next (s.operation p tag (.circulate ⟨duty, runTime, Timer.zero, false⟩) false State.takeUpCirc)

/-- HEAT (R28, R46). -/
def execHeat (p : Port) (tag target limit : Nat) (s : State) : Host.Outcome State Fault Refusal :=
  .next (s.operation p tag (.heat ⟨target, limit, Timer.zero, false⟩) false State.takeUpHeat)

/-- DRAIN (R48). -/
def execDrain (p : Port) (tag : Nat) (s : State) : Host.Outcome State Fault Refusal :=
  .next (s.operation p tag (.drain ⟨Timer.zero, none⟩) false State.takeUpDrain)

/-- REGENERATE (R72). -/
def execRegenerate (p : Port) (tag column : Nat) (s : State) : Host.Outcome State Fault Refusal :=
  .next (s.operation p tag (.regenerate ((columnOf column).getD .a)) true fun s i => s.takeUpRegenerate i column)

/-- A CIRCULATE of the port with this tag holds CIRC in HELD or SUSPENDED (R43). -/
def State.circHeldBy (s : State) (p : Port) (tag : Nat) : Bool :=
  match s.tagSlot p tag with
  | none => false
  | some i =>
    match s.circAt i with
    | some (sl, _) =>
      let e := s.entry .circ
      (e.lease == .held || e.lease == .suspended) && e.holder == some (slotWho i sl)
    | none => false

/-- CIRC_SPEED (R43, R144). -/
def execCircSpeed (p : Port) (tag circTag duty : Nat) (s : State) : Host.Outcome State Fault Refusal :=
  .next (s.immediate p tag fun s =>
    if duty < 1 ∨ 255 < duty then s.reply p tag .badParam []
    else if s.circHeldBy p circTag then
      ({ s with drive := { s.drive with circ := { s.drive.circ with staged := duty, applyPending := true } } }
        : State).reply p tag .ok []
    else s.reply p tag .state [])

/-! ### The door (chapter 8) -/

/-- A door-opening operation just accepted (R159, R164). -/
def freshDoor (delay ajar : Nat) (phase : DoorPhase) : DoorWork :=
  { delay := delay, ajar := ajar, phase := phase, delayPassed := Timer.zero, ajarPassed := Timer.zero, pushed := false,
    seenOpen := false, heldBack := false, fixed := [] }

/-- DOOR_PUSH (R158). -/
def execDoorPush (p : Port) (tag : Nat) (s : State) : Host.Outcome State Fault Refusal :=
  .next (s.operation p tag (.doorPush (freshDoor 0 0 .waitQuiet)) false State.takeUpDoorPush)

/-- DRY (R164). -/
def execDry (p : Port) (tag delay ajar : Nat) (s : State) : Host.Outcome State Fault Refusal :=
  .next (s.operation p tag (.dry (freshDoor delay ajar .delay)) false State.takeUpDry)

/-- A STALLED rod cleared (R163). -/
def State.clearRod (s : State) : State :=
  s.setRod { s.door.rod with state := .retracted, extend := Timer.zero, maxHold := 0, maxHoldDue := false,
                             hold := Timer.zero }

/-- DOOR_RESET (R163): the response carries the rod state (notes/assumptions/29.md). -/
def execDoorReset (p : Port) (tag : Nat) (s : State) : Host.Outcome State Fault Refusal :=
  .next (s.immediate p tag fun s =>
    let answer (s : State) (o : OutcomeCode) : State := s.reply p tag o (byte1 (rodStateCode s.door.rod.state))
    if s.door.rod.state ≠ .stalled then answer s .state
    else if s.hasHolder .doorDrive then answer s .busy
    else if s.door.rod.ret.value = false then answer s .state
    else (answer s.clearRod .ok).settle)

/-! ### Dosing (chapter 5) -/

/-- A descriptor is current on a channel that is not IDLE (R94). -/
def State.descCurrent (s : State) (n : DescId) : Bool :=
  allChannels.any fun c => (s.channel c).state != .idle && (s.channel c).current == some n

/-- DESC_WRITE (R94). -/
def execDescWrite (p : Port) (tag number : Nat) (desc : Desc) (s : State) : Host.Outcome State Fault Refusal :=
  .next (s.immediate p tag fun s =>
    match finOf 32 number with
    | none => s.reply p tag .badParam []
    | some n =>
      if 3 < desc.reservoir then s.reply p tag .badParam []
      else if desc.reservoir ≠ 0 ∧ descFieldsInRange desc = false then s.reply p tag .badParam []
      else if s.descCurrent n then s.reply p tag .busy []
      else ({ s with dose := { s.dose with descs := upd s.dose.descs n desc } } : State).reply p tag .ok [])

/-- A descriptor's fields in the order of R93 (R95). -/
def descBytes (d : Desc) : List Byte :=
  byte1 d.reservoir ++ byte1 d.mode ++ byte2 d.baseCount ++ byte1 d.blockLength ++ byte1 d.scale ++ byte1 d.interval ++
    byte1 d.source ++ byte2 d.delay ++ byte1 d.sourceChannel ++ byte1 d.needsWater ++ byte1 d.link ++ byte1 d.endReport

/-- The channels whose current descriptor it is, with their states (R95). -/
def State.descUsers (s : State) (n : DescId) : List (List Byte) :=
  (allChannels.filter fun c => (s.channel c).current == some n).map fun c =>
    byte1 c.val ++ byte1 (channelStateCode (s.channel c).state)

/-- DESC_READ (R95). -/
def execDescRead (p : Port) (tag number : Nat) (s : State) : Host.Outcome State Fault Refusal :=
  .next (s.immediate p tag fun s =>
    match finOf 32 number with
    | none => s.reply p tag .badParam []
    | some n => s.reply p tag .ok (descBytes s.dose.descs[n] ++ listField (s.descUsers n)))

/-- DOSE_ARM (R97, R98). -/
def execDoseArm (p : Port) (tag channel number : Nat) (s : State) : Host.Outcome State Fault Refusal :=
  .next (s.immediateInRun p tag fun s =>
    match finOf 4 channel, finOf 32 number with
    | some c, some n =>
      if descEmpty s.dose.descs[n] then s.reply p tag .badParam []
      else if (s.channel c).state ≠ .idle then s.reply p tag .busy []
      else
        let t := s.loadDesc c n
        (t.reply p tag .ok (byte2 (t.channel c).loaded)).settle
    | _, _ => s.reply p tag .badParam [])

/-- A request that names a channel: BAD_PARAM outside 0..3, else what it does there. -/
def State.onChannel (s : State) (p : Port) (tag channel : Nat) (act : ChannelId → State) : State :=
  match finOf 4 channel with
  | none => s.reply p tag .badParam []
  | some c => act c

/-- DOSE_TRIGGER (R100). -/
def execDoseTrigger (p : Port) (tag channel : Nat) (s : State) : Host.Outcome State Fault Refusal :=
  .next (s.immediateInRun p tag fun s => s.onChannel p tag channel fun c =>
    let ch := s.channel c
    if ch.state = .idle ∨ sourceOf (s.currentDesc ch).source ≠ some .request then s.reply p tag .state []
    else ((s.triggerChannel c).reply p tag .ok (flagByte ch.flag)).settle)

/-- DOSE_CLEAR_TRIGGER (R101). -/
def execDoseClearTrigger (p : Port) (tag channel : Nat) (s : State) : Host.Outcome State Fault Refusal :=
  .next (s.immediate p tag fun s => s.onChannel p tag channel fun c =>
    let ch := s.channel c
    (s.setChannel c { ch with flag := false }).reply p tag .ok (flagByte ch.flag))

/-- DOSE_STOP (R115). -/
def execDoseStop (p : Port) (tag channel : Nat) (s : State) : Host.Outcome State Fault Refusal :=
  .next (s.immediate p tag fun s => s.onChannel p tag channel fun c =>
    if (s.channel c).state = .idle then s.reply p tag .state []
    else ((s.stopChannel c).reply p tag .ok []).settle)

/-- The cause of a halt has gone (R116). -/
def State.resumable (s : State) (ch : Channel) : Bool :=
  match ch.cause with
  | .trip => !s.latched
  | .empty => !s.acct.reservoirs[s.channelReservoir ch].empty
  | .stop => true
  | .door => false
  | .none => false

/-- DOSE_RESUME (R116). -/
def execDoseResume (p : Port) (tag channel : Nat) (s : State) : Host.Outcome State Fault Refusal :=
  .next (s.immediate p tag fun s => s.onChannel p tag channel fun c =>
    let ch := s.channel c
    if ch.state = .halted ∧ s.resumable ch = true then ((s.returnChannel c).reply p tag .ok []).settle
    else s.reply p tag .state [])

/-- DOSE_DISARM (R117). -/
def execDoseDisarm (p : Port) (tag channel : Nat) (s : State) : Host.Outcome State Fault Refusal :=
  .next (s.immediate p tag fun s => s.onChannel p tag channel fun c =>
    let ch := s.channel c
    match ch.state with
    | .idle => s.reply p tag .state []
    | .waitingPump => s.reply p tag .busy []
    | .dosing => s.reply p tag .busy []
    | .armed => (s.idleChannel c).reply p tag .ok []
    | .halted =>
      (((s.releaseIf (channelWho c) (s.channelPump ch)).idleChannel c).reply p tag .ok []).settle)

/-- The lease of a channel as DOSE_STATUS names it: FREE, HELD, SUSPENDED, WAITING (R118). -/
def State.channelLease (s : State) (c : ChannelId) : Nat :=
  let r := s.channelPump (s.channel c)
  if s.waitsFor (channelWho c) r then 3
  else if s.holds (channelWho c) r then (if (s.entry r).lease = .suspended then 2 else 1)
  else 0

/-- The fields of a channel (R118). -/
def State.channelBytes (s : State) (c : ChannelId) : List Byte :=
  let ch := s.channel c
  byte1 (channelStateCode ch.state) ++ byte1 (haltCauseCode ch.cause) ++ optByte (ch.current.map (·.val)) ++
    byte2 ch.loaded ++ byte2 ch.completed ++ byte2 ch.started ++ byte2 ch.remaining ++ byte2 ch.runLeft ++
    byte1 (doseStepCode ch.step) ++ flagByte ch.stopPending ++ flagByte ch.flag ++ byte2 ch.delayLeft ++
    byte1 (s.channelLease c)

/-- DOSE_STATUS (R118, R190). -/
def execDoseStatus (p : Port) (tag channel : Nat) (s : State) : Host.Outcome State Fault Refusal :=
  .next (s.immediate p tag fun s =>
    if channel = 255 then s.reply p tag .ok (allChannels.flatMap s.channelBytes)
    else s.onChannel p tag channel fun c => s.reply p tag .ok (s.channelBytes c))

/-! ### Sensing (chapter 6) -/

/-- A published result no older than a maximum age in seconds (R134). -/
def Point.fresh (pt : Point) (maxAge : Nat) : Option Published :=
  match pt.published with
  | some r => if r.age ≤ 10 * maxAge then some r else none
  | none => none

/-- A point joins its group's refresh list (R134, R135). -/
def State.askRefresh (s : State) (n : PointId) : State :=
  let pt := s.point n
  if pt.refresh then s
  else
    let g := groupOf n
    let s := s.setPoint n { pt with refresh := true }
    s.setGroup g { (s.group g) with refresh := (s.group g).refresh ++ [n] }

/-- SENSE_READ (R134). -/
def execSenseRead (p : Port) (tag point maxAge : Nat) (s : State) : Host.Outcome State Fault Refusal :=
  .next (s.immediate p tag fun s =>
    match finOf 16 point with
    | none => s.reply p tag .badParam []
    | some n =>
      if 255 < maxAge then s.reply p tag .badParam []
      else
        let pt := s.point n
        match pt.fresh maxAge with
        | some r =>
          s.reply p tag .ok (byte2 r.count ++ byte1 (qualityCode r.quality) ++ byte1 (pointStateCode pt.state) ++
            byte2 r.age ++ byte1 (roleCode pt.role) ++ byte1 (candidateCode pt.candidate) ++ byte1 pt.run)
        | none =>
          (s.askRefresh n).reply p tag .retry
            (byte1 (pointStateCode pt.state) ++ optField (pt.published.map fun r => byte2 r.age)))

/-- SENSE_MODE (R124, R126). -/
def execSenseMode (p : Port) (tag mode : Nat) (s : State) : Host.Outcome State Fault Refusal :=
  .next (s.immediate p tag fun s =>
    match scanModeOf mode with
    | none => s.reply p tag .badParam []
    | some m => (s.takeScanMode m).reply p tag .ok [])

/-- A measurement in progress of a point is voided (R136). -/
def Group.void (gr : Group) (n : PointId) : Group :=
  { gr with measuring := gr.measuring.map fun m => if m.point = n then { m with voided := true } else m }

/-- A point's fields are written (R136): a change of role, trim or direction returns it to UNSEEN; a change of threshold or
debounce clears the run. -/
def State.writePoint (s : State) (n : PointId) (role : Role) (trim threshold : Nat) (above : Bool) (debounce : Nat)
    (auto : Bool) : State :=
  let pt := s.point n
  let deep := pt.role != role || pt.trim != trim || pt.above != above
  let light := pt.threshold != threshold || pt.debounce != debounce
  let pt' := { pt with role := role, trim := trim, threshold := threshold, above := above, debounce := debounce,
                       auto := auto }
  if deep then
    let s := s.setPoint n { pt' with state := .unseen, candidate := none, run := 0, inFault := false, published := none }
    let s := s.setGroup (groupOf n) ((s.group (groupOf n)).void n)
    (if pt.role ≠ role ∧ (pt.role = .leak ∨ pt.role = .tankHigh) then s.judgeForce else s).settle
  else if light then s.setPoint n { pt' with candidate := none, run := 0 }
  else s.setPoint n pt'

/-- A SENSE_TABLE_WRITE of a point (R136, R137). In RUN the model looks for WRONG_MODE before BUSY (DESIGN CHOICE,
notes/assumptions/36.md). -/
def State.pointWrite (s : State) (p : Port) (tag : Nat) (n : PointId) (role : Role)
    (trim threshold direction debounce hop : Nat) : State :=
  let above := direction == 1
  let pt := s.point n
  if s.mode = .run ∧ (pt.role ≠ role ∨ pt.trim ≠ trim ∨ pt.above ≠ above) then s.reply p tag .wrongMode []
  else if s.mode = .run ∧ (s.group (groupOf n)).round.isSome then s.reply p tag .busy []
  else (s.writePoint n role trim threshold above debounce (hop == 1)).reply p tag .ok []

/-- SENSE_TABLE_WRITE (R136 to R138): a field out of range is BAD_PARAM before WRONG_MODE is looked at (DESIGN CHOICE,
notes/assumptions/36.md). -/
def execSenseTableWrite (p : Port) (tag : Nat) (payload : SensePayload) (s : State) :
    Host.Outcome State Fault Refusal :=
  .next (s.immediate p tag fun s =>
    match payload with
    | .point point role trim threshold direction debounce hop =>
      match finOf 16 point, roleOf role with
      | some n, some r =>
        if 1023 < trim ∨ 65535 < threshold ∨ 1 < direction ∨ debounce < 1 ∨ 8 < debounce ∨ 1 < hop then
          s.reply p tag .badParam []
        else s.pointWrite p tag n r trim threshold direction debounce hop
      | _, _ => s.reply p tag .badParam []
    | .group group a b c d =>
      match finOf 4 group, slotValueOf a, slotValueOf b, slotValueOf c, slotValueOf d with
      | some g, some a, some b, some c, some d =>
        if s.mode = .run then s.reply p tag .wrongMode []
        else (s.setGroup g { (s.group g) with map := #v[a, b, c, d] }).reply p tag .ok []
      | _, _, _, _, _ => s.reply p tag .badParam [])

/-- A point record as SENSE_TABLE_READ answers it, in the order of R122 (R139). -/
def pointBytes (pt : Point) : List Byte :=
  byte1 (roleCode pt.role) ++ byte2 pt.trim ++ byte2 pt.threshold ++ flagByte pt.above ++ byte1 pt.debounce ++
    flagByte pt.auto ++ byte1 (pointStateCode pt.state) ++ byte1 (candidateCode pt.candidate) ++ byte1 pt.run ++
    flagByte pt.inFault ++
    optField (pt.published.map fun r => byte2 r.count ++ byte1 (qualityCode r.quality) ++ byte2 r.age) ++
    flagByte pt.refresh

/-- A group record as SENSE_TABLE_READ answers it (R139). -/
def State.groupBytes (s : State) (g : GroupId) : List Byte :=
  let gr := s.group g
  ((List.finRange 4).flatMap fun k => optByte (gr.map[k].map (·.val))) ++ byte1 (scanModeCode gr.mode) ++
    flagByte gr.round.isSome ++ byte1 gr.hop ++ byte1 gr.roundsToPublish ++ flagByte gr.singleDue ++
    listField (gr.refresh.map fun n => byte1 n.val) ++ byte1 (scanModeCode s.sense.mode) ++
    byte1 s.cfg.scanPeriod.val ++ byte1 s.cfg.publishEvery

/-- SENSE_TABLE_READ (R139). -/
def execSenseTableRead (p : Port) (tag form number : Nat) (s : State) : Host.Outcome State Fault Refusal :=
  .next (s.immediate p tag fun s =>
    match form with
    | 0 =>
      match finOf 16 number with
      | some n => s.reply p tag .ok (pointBytes (s.point n))
      | none => s.reply p tag .badParam []
    | 1 =>
      match finOf 4 number with
      | some g => s.reply p tag .ok (s.groupBytes g)
      | none => s.reply p tag .badParam []
    | _ => s.reply p tag .badParam [])

/-! ### Trips and faults (chapter 9) -/

/-- The causes in the set whose conditions remain, as a sum (R172, R175). -/
def State.causesLeft (s : State) : Nat :=
  causeSum (s.prot.flood && !s.causeGone .flood) (s.prot.overfill && !s.causeGone .overfill)
    (s.prot.overtemp && !s.causeGone .overtemp)

/-- The cause set emptied (R175). -/
def State.clearTrip (s : State) : State :=
  { s with prot := { s.prot with flood := false, overfill := false, overtemp := false } }

/-- TRIP_CLEAR: all or nothing. The response is made; the queue is judged for its head and the waiters that are eligible again
are served; last, TRIP_CLEARED is posted (R175). -/
def execTripClear (p : Port) (tag : Nat) (s : State) : Host.Outcome State Fault Refusal :=
  .next (s.immediate p tag fun s =>
    if s.latched = false then s.reply p tag .state (byte1 0)
    else if s.causesLeft ≠ 0 then s.reply p tag .state (byte1 s.causesLeft)
    else (s.clearTrip.reply p tag .ok (byte1 s.causeSet)).takeHead.settle.post .tripCleared 0 s.causeSet)

/-- A group is named by a set (R179). -/
def named (groups : Nat) (g : Fin 5) : Bool := (groups / 2 ^ g.val) % 2 == 1

/-- The named groups that hold a record, as a sum (R179). -/
def Protection.heldOf (pr : Protection) (groups : Nat) : Nat :=
  ((List.finRange 5).map fun g => if named groups g && pr.groups[g].isSome then 2 ^ g.val else 0).sum

/-- The groups named emptied; MULTIPLE cleared if no group holds a record (R179). -/
def Protection.cleared (pr : Protection) (groups : Nat) : Protection :=
  let gs := (List.finRange 5).foldl (fun v g => if named groups g then upd v g none else v) pr.groups
  { pr with groups := gs, multiple := pr.multiple && (List.finRange 5).any fun g => gs[g].isSome }

/-- FAULT_CLEAR (R179). -/
def execFaultClear (p : Port) (tag groups : Nat) (s : State) : Host.Outcome State Fault Refusal :=
  .next (s.immediate p tag fun s =>
    if 31 < groups then s.reply p tag .badParam []
    else ({ s with prot := s.prot.cleared groups } : State).reply p tag .ok (byte1 (s.prot.heldOf groups)))

end Sys2Proof.Machine
end

