-- ==== Sys2Proof/Machine/Reports.lean ====
section
/-! DEFINITION. The requests that read state: STATUS (R26, R50, R74, R153, R169, R191), ACCOUNTS_READ (R92), READ_DRAWS (R90),
FAULT_READ (R178). Where the manual lists values and leaves their layout open, notes/assumptions/12.md says the one
taken. -/

namespace Sys2Proof.Machine

/-! ### STATUS (R191) -/

/-- The holder of an entry: identity, and port and pool slot of a port operation, NONE as 255 (R26). -/
def Entry.holderBytes (e : Entry) : List Byte :=
  match e.holder with
  | none => byte1 255 ++ byte1 255 ++ byte1 255
  | some h => byte1 (identCode h.ident) ++ optByte (e.holderPort.map portCode) ++ optByte (h.slot.map (·.val))

/-- One resource (R26). -/
def State.resourceBytes (s : State) (r : Resource) : List Byte :=
  let e := s.entry r
  byte1 (leaseCode e.lease) ++ e.holderBytes ++ flagByte e.yieldRequested ++ byte1 e.waiters.length

/-- Section 0: the part mode and the resource table (R26, R191). -/
def State.section0 (s : State) : List Byte :=
  byte1 (modeCode s.mode) ++ allResources.flatMap s.resourceBytes ++ byte1 (positionCode s.arb.selCurrent) ++
    byte1 (columnCode s.arb.selHeld)

/-- One pool slot: free or held, and if held its port, tag, kind, state and progress (R191). -/
def State.slotBytes (s : State) (i : SlotId) : List Byte :=
  optField (s.pool[i].map fun sl =>
    byte1 (portCode sl.port) ++ byte1 sl.tag ++ byte1 (workKindCode sl.work) ++ byte1 (slotStateCode (s.slotState i sl)) ++
      byte2 (s.progress i sl))

/-- Section 1: the request pool (R191). -/
def State.section1 (s : State) : List Byte := byte1 s.freeSlots ++ allSlots.flatMap s.slotBytes

/-- Which conditions of R45 fail, one flag each in its order, given whether or not the interlock is met (R50;
notes/assumptions/12.md). -/
def State.failedConditions (s : State) : List Byte := s.interlockConditions.flatMap fun b => flagByte (!b)

/-- The water path values (R50). -/
def State.waterBytes (s : State) : List Byte :=
  byte1 s.water.tank ++ flagByte s.water.tankKnown ++ byte2 s.water.temperature ++ flagByte s.water.probeValid ++
    flagByte s.water.overTemp ++ flagByte s.water.interlock ++ s.failedConditions

/-- A ramped output: level, active and staged setting, apply-pending (R153). -/
def rampBytes (r : Ramp) (t : Setting) : List Byte :=
  byte1 r.level ++ byte1 t.active ++ byte1 t.staged ++ flagByte t.applyPending

/-- The outputs and generators (R153), the outputs in the order of R141's table (DESIGN CHOICE, notes/assumptions/12.md); the run
clock begins the response. -/
def State.driveBytes (s : State) : List Byte :=
  flagByte s.selMotor.isSome ++ flagByte (s.outputOn .brine) ++ flagByte (s.outputOn .inlet) ++
    rampBytes s.drive.circRamp s.drive.circ ++ flagByte (s.outputOn .heater) ++ flagByte (s.outputOn .drain) ++
    flagByte (s.dosePump 0) ++ flagByte (s.dosePump 1) ++ flagByte (s.dosePump 2) ++
    rampBytes s.drive.doorRamp s.drive.door ++ flagByte (!s.drive.rodExtend) ++
    ((List.finRange 3).flatMap fun n => flagByte s.drive.strokes[n].running) ++
    optField (s.drive.travel.map fun t => byte2 t.passed)

/-- A column record: state, rated and remaining capacity, regeneration count, last outcome (R51, R92). -/
def State.columnBytes (s : State) (c : Column) : List Byte :=
  let r := s.column c
  byte1 (columnStateCode r.state) ++ byte2 (s.rated c) ++ byte2 r.remaining ++ byte2 r.count ++
    byte1 (lastOutcomeCode r.last)

/-- The requester of a queue entry or regeneration: REGEN, or a port with its pool slot. -/
def requesterBytes (q : Option (Port × SlotId)) : List Byte :=
  match q with
  | none => byte1 (identCode .regen) ++ byte1 255
  | some (p, i) => byte1 (portCode p) ++ byte1 i.val

/-- The regeneration in progress (R74). -/
def regenBytes (g : Regen) : List Byte :=
  byte1 (columnCode g.column) ++ requesterBytes g.requester ++ byte1 (phaseCode g.phase) ++ byte1 g.counted ++
    byte2 (g.soak.passed / Config.periodsPerSecond) ++ flagByte g.brineSeen ++ byte1 (judgementCode g.judgement) ++
    flagByte g.cancelPending

/-- The column with a pending breakthrough mark, or NONE, in one byte (R56, R74; notes/assumptions/12.md). -/
def State.breakthroughByte (s : State) : List Byte :=
  optByte (if s.soft.colA.breakthrough.isSome then some 0 else if s.soft.colB.breakthrough.isSome then some 1 else none)

/-- Section 3: the columns, the queue and the regeneration (R74, R191). -/
def State.section3 (s : State) : List Byte :=
  s.columnBytes .a ++ s.columnBytes .b ++
    listField (s.soft.queue.map fun q => byte1 (columnCode q.column) ++ requesterBytes q.requester) ++
    optField (s.soft.regen.map regenBytes) ++ s.breakthroughByte

/-- The door record: value, candidate and agreeing count, closed 0 and open 1 as R154 lists them. -/
def filterBytes (f : Filter) : List Byte := flagByte (!f.value) ++ flagByte (!f.candidate) ++ byte1 f.agree

/-- A filtered rod switch: its value and its agreeing count, closed 0 and open 1 (R156). -/
def rodSwitchBytes (f : Filter) : List Byte := flagByte (!f.value) ++ byte1 f.agree

/-- The rod record of R156, its times in drive periods; the retract time always takes its 2 bytes, 0 where no retract is in
progress (DESIGN CHOICE, notes/assumptions/12.md). -/
def rodBytes (r : Rod) : List Byte :=
  byte1 (rodStateCode r.state) ++ rodSwitchBytes r.ret ++ rodSwitchBytes r.ext ++ byte2 r.extend.passed ++
    byte1 r.maxHold ++
    byte2 r.hold.passed ++ byte1 (retractCode (r.retract.map (·.1))) ++
    byte2 (match r.retract with | some (_, t) => t.passed | none => 0)

/-- The DRY record of an operation in flight (R164, R169), its two times in whole seconds rounded down (DESIGN CHOICE,
notes/assumptions/12.md). -/
def State.dryBytes (s : State) : Option (List Byte) :=
  match s.doorSlot with
  | none => none
  | some i =>
    match s.pool[i] with
    | some sl => match sl.work with
      | .dry w => some (byte1 (doorPhaseCode w.phase) ++ byte2 (w.delayPassed.passed / Config.periodsPerSecond) ++
          byte2 (w.ajarPassed.passed / Config.periodsPerSecond) ++ flagByte w.pushed ++ flagByte w.seenOpen)
      | _ => none
    | none => none

/-- The trip state, cause set and force state (R170). -/
def State.tripBytes (s : State) : List Byte :=
  flagByte s.latched ++ byte1 s.causeSet ++ byte1 (forceCode s.prot.force)

/-- Section 4: the door, the rod, the DRY, the trip (R169, R170, R191). -/
def State.section4 (s : State) : List Byte :=
  filterBytes s.door.door ++ rodBytes s.door.rod ++ optField s.dryBytes ++ s.tripBytes

/-- The values of a section, none for a number outside 0..4 (R191). -/
def State.sectionBytes (s : State) : Nat → Option (List Byte)
  | 0 => some s.section0
  | 1 => some s.section1
  | 2 => some (s.waterBytes ++ s.driveBytes)
  | 3 => some s.section3
  | 4 => some s.section4
  | _ => none

/-- STATUS (R191). -/
def execStatus (p : Port) (tag sec : Nat) (s : State) : Host.Outcome State Fault Refusal :=
  .next (s.immediate p tag fun s =>
    match s.sectionBytes sec with
    | some bs => s.reply p tag .ok (byte4 s.drive.clock ++ bs)
    | none => s.reply p tag .badParam [])

/-! ### The accounts (R90, R92) -/

/-- A reservoir account: amount, basis, LOW, EMPTY. -/
def reservoirBytes (a : Reservoir) : List Byte := byte2 a.amount ++ flagByte a.known ++ flagByte a.low ++ flagByte a.empty

/-- The values of ACCOUNTS_READ in the order of R92. -/
def State.accountBytes (s : State) : List Byte :=
  ((List.finRange 3).flatMap fun n => reservoirBytes s.acct.reservoirs[n]) ++
    byte2 s.acct.salt.amount ++ flagByte s.acct.salt.known ++ flagByte s.acct.salt.low ++
    s.columnBytes .a ++ s.columnBytes .b ++
    byte1 s.acct.hardness ++ flagByte s.acct.sensed ++ flagByte s.cfg.hardnessSensed ++
    byte1 s.water.tank ++ flagByte s.water.tankKnown ++
    byte2 s.oldestDraw ++ byte2 s.acct.nextDraw ++ byte1 s.acct.log.length

/-- ACCOUNTS_READ (R92). -/
def execAccountsRead (p : Port) (tag : Nat) (s : State) : Host.Outcome State Fault Refusal :=
  .next (s.immediate p tag fun s => s.reply p tag .ok s.accountBytes)

/-- A draw record in the order of R89. -/
def drawBytes (r : DrawRecord) : List Byte :=
  byte2 r.number ++ byte1 (purposeCode r.purpose) ++ byte1 r.softA ++ byte1 r.softB ++ byte1 r.bypass ++
    byte1 r.hardness ++ byte1 (outcomeCode r.outcome) ++ byte4 r.finish

/-- The records READ_DRAWS returns: the oldest eight at or after the starting number (R90). -/
def State.drawsFrom (s : State) (start : Nat) : List DrawRecord :=
  (s.acct.log.filter fun r => atOrAfter start r.number).take Config.drawsPerResponse

/-- READ_DRAWS (R90). -/
def execReadDraws (p : Port) (tag start : Nat) (s : State) : Host.Outcome State Fault Refusal :=
  .next (s.immediate p tag fun s =>
    s.reply p tag .ok (byte2 s.oldestDraw ++ byte2 s.acct.nextDraw ++ listField ((s.drawsFrom start).map drawBytes)))

/-! ### FAULT_READ (R178) -/

/-- A fault record: kind, subject, time, detail. -/
def faultBytes (f : FaultRecord) : List Byte :=
  byte1 (faultKindCode f.kind) ++ byte1 f.subject ++ byte4 f.time ++ byte2 f.detail

/-- The values of FAULT_READ (R178). -/
def State.faultReadBytes (s : State) : List Byte :=
  ((List.finRange 5).flatMap fun g => optField (s.prot.groups[g].map faultBytes)) ++ flagByte s.prot.multiple ++
    ((List.finRange 14).flatMap fun k => flagByte s.cfg.capture[k]) ++ s.tripBytes

/-- FAULT_READ (R178). -/
def execFaultRead (p : Port) (tag : Nat) (s : State) : Host.Outcome State Fault Refusal :=
  .next (s.immediate p tag fun s => s.reply p tag .ok s.faultReadBytes)

end Sys2Proof.Machine
end

