-- ==== Sys2Proof/Machine/Dispatch.lean ====
section
/-! DEFINITION. What each command does to everything but the queue: one arm per constructor, one call of its meaning. -/

namespace Sys2Proof.Machine

def exec (i : Instr) (s : State) : Host.Outcome State Fault Refusal :=
  match i with
  | .deviceReset r => Sys2Proof.Machine.execDeviceReset r s
  | .breakLine p => Sys2Proof.Machine.execBreakLine p s
  | .lineIdle p => Sys2Proof.Machine.execLineIdle p s
  | .frameError p => Sys2Proof.Machine.execFrameError p s
  | .frameGapTimeout p taken => Sys2Proof.Machine.execFrameGapTimeout p taken s
  | .overlong p length => Sys2Proof.Machine.execOverlong p length s
  | .checkError p covered check => Sys2Proof.Machine.execCheckError p covered check s
  | .transmitQueueFull p => Sys2Proof.Machine.execTransmitQueueFull p s
  | .badRequest p kind tag body => Sys2Proof.Machine.execBadRequest p kind tag body s
  | .responseSent p => Sys2Proof.Machine.execResponseSent p s
  | .configWrite p tag item index payload => Sys2Proof.Machine.execConfigWrite p tag item index payload s
  | .configRead p tag item index => Sys2Proof.Machine.execConfigRead p tag item index s
  | .accountLoad p tag target amount columnState => Sys2Proof.Machine.execAccountLoad p tag target amount columnState s
  | .commit p tag => Sys2Proof.Machine.execCommit p tag s
  | .enterSetup p tag => Sys2Proof.Machine.execEnterSetup p tag s
  | .fill p tag volume => Sys2Proof.Machine.execFill p tag volume s
  | .circulate p tag duty runTime => Sys2Proof.Machine.execCirculate p tag duty runTime s
  | .circSpeed p tag circTag duty => Sys2Proof.Machine.execCircSpeed p tag circTag duty s
  | .heat p tag target limit => Sys2Proof.Machine.execHeat p tag target limit s
  | .drain p tag => Sys2Proof.Machine.execDrain p tag s
  | .regenerate p tag column => Sys2Proof.Machine.execRegenerate p tag column s
  | .doorPush p tag => Sys2Proof.Machine.execDoorPush p tag s
  | .dry p tag delay ajar => Sys2Proof.Machine.execDry p tag delay ajar s
  | .doorReset p tag => Sys2Proof.Machine.execDoorReset p tag s
  | .descWrite p tag number desc => Sys2Proof.Machine.execDescWrite p tag number desc s
  | .descRead p tag number => Sys2Proof.Machine.execDescRead p tag number s
  | .doseArm p tag channel number => Sys2Proof.Machine.execDoseArm p tag channel number s
  | .doseTrigger p tag channel => Sys2Proof.Machine.execDoseTrigger p tag channel s
  | .doseClearTrigger p tag channel => Sys2Proof.Machine.execDoseClearTrigger p tag channel s
  | .doseStop p tag channel => Sys2Proof.Machine.execDoseStop p tag channel s
  | .doseResume p tag channel => Sys2Proof.Machine.execDoseResume p tag channel s
  | .doseDisarm p tag channel => Sys2Proof.Machine.execDoseDisarm p tag channel s
  | .doseStatus p tag channel => Sys2Proof.Machine.execDoseStatus p tag channel s
  | .senseRead p tag point maxAge => Sys2Proof.Machine.execSenseRead p tag point maxAge s
  | .senseMode p tag mode => Sys2Proof.Machine.execSenseMode p tag mode s
  | .senseTableWrite p tag payload => Sys2Proof.Machine.execSenseTableWrite p tag payload s
  | .senseTableRead p tag form number => Sys2Proof.Machine.execSenseTableRead p tag form number s
  | .status p tag sec => Sys2Proof.Machine.execStatus p tag sec s
  | .accountsRead p tag => Sys2Proof.Machine.execAccountsRead p tag s
  | .readDraws p tag start => Sys2Proof.Machine.execReadDraws p tag start s
  | .faultRead p tag => Sys2Proof.Machine.execFaultRead p tag s
  | .faultClear p tag groups => Sys2Proof.Machine.execFaultClear p tag groups s
  | .tripClear p tag => Sys2Proof.Machine.execTripClear p tag s
  | .cancel p tag target => Sys2Proof.Machine.execCancel p tag target s
  | .portReset p tag => Sys2Proof.Machine.execPortReset p tag s
  | .subscribe p tag slot filter mask enable => Sys2Proof.Machine.execSubscribe p tag slot filter mask enable s
  | .fetchEvents p tag => Sys2Proof.Machine.execFetchEvents p tag s
  | .drivePeriodEnd r => Sys2Proof.Machine.execDrivePeriodEnd r s
  | .runClockSecond => Sys2Proof.Machine.execRunClockSecond s
  | .rampStep g => Sys2Proof.Machine.execRampStep g s
  | .selectorArrival => Sys2Proof.Machine.execSelectorArrival s
  | .selectorTimeout => Sys2Proof.Machine.execSelectorTimeout s
  | .flowPulse => Sys2Proof.Machine.execFlowPulse s
  | .decilitreCounted => Sys2Proof.Machine.execDecilitreCounted s
  | .fillNoFlowTimeout => Sys2Proof.Machine.execFillNoFlowTimeout s
  | .circulateRunEnd => Sys2Proof.Machine.execCirculateRunEnd s
  | .heatLimitExpiry slot => Sys2Proof.Machine.execHeatLimitExpiry slot s
  | .drainPostrunEnd => Sys2Proof.Machine.execDrainPostrunEnd s
  | .drainLimitExpiry => Sys2Proof.Machine.execDrainLimitExpiry s
  | .regenHeadTaken => Sys2Proof.Machine.execRegenHeadTaken s
  | .soakEnd => Sys2Proof.Machine.execSoakEnd s
  | .regenNoFlowTimeout => Sys2Proof.Machine.execRegenNoFlowTimeout s
  | .doseStrokeEnd pump => Sys2Proof.Machine.execDoseStrokeEnd pump s
  | .doseIntervalEnd channel => Sys2Proof.Machine.execDoseIntervalEnd channel s
  | .doseDelayExpiry channel => Sys2Proof.Machine.execDoseDelayExpiry channel s
  | .scanRoundStart group => Sys2Proof.Machine.execScanRoundStart group s
  | .measurementEnd group count => Sys2Proof.Machine.execMeasurementEnd group count s
  | .forcePostrunEnd => Sys2Proof.Machine.execForcePostrunEnd s
  | .doorStateChange => Sys2Proof.Machine.execDoorStateChange s
  | .rodExtended => Sys2Proof.Machine.execRodExtended s
  | .rodHoldEnd => Sys2Proof.Machine.execRodHoldEnd s
  | .pushStall cause => Sys2Proof.Machine.execPushStall cause s
  | .rodRetracted => Sys2Proof.Machine.execRodRetracted s
  | .retractTimeout => Sys2Proof.Machine.execRetractTimeout s
  | .dryDelayEnd => Sys2Proof.Machine.execDryDelayEnd s
  | .dryAjarEnd => Sys2Proof.Machine.execDryAjarEnd s
  | .startByte p => Sys2Proof.Machine.execStartByte p s

end Sys2Proof.Machine
end

