-- ==== Sys2Proof/Safety.lean ====
section
/-! DEFINITION. What the statements speak of: runs, the laws of the part as predicates on a state (introduction 1.8), the
legal configuration, and when a port hears a request. -/

namespace Sys2Proof

/-- The next step from `s` answers a next state. -/
def Runs (s : Machine.State) : Prop := ∃ t, Machine.step s = .next t

/-- A run of `n` steps from `s` to `t`. -/
def Reaches : Nat → Machine.State → Machine.State → Prop
  | 0, s, t => s = t
  | n + 1, s, t => ∃ m, Machine.step s = .next m ∧ Reaches n m t

namespace Machine

/-! ### Leases (laws 1, 2, 3, 4 and 11) -/

/-- The lease states a resource can take (the table of 1.2). -/
def Resource.allows : Resource → LeaseState → Bool
  | _, .free => true
  | _, .held => true
  | r, .moving => r == .selector
  | r, .suspended => r.guarded
  | r, .releasing => r == .circ || r == .doorDrive

/-- An entry has a holder exactly while its lease is not FREE, in a state its resource can take (R1, R3). -/
def EntryOk (r : Resource) (e : Entry) : Prop := (e.lease = .free ↔ e.holder = none) ∧ r.allows e.lease = true

/-- Law 1 (R1, R3): every entry of the resource table is as `EntryOk` says. -/
def State.leasesLegal (s : State) : Prop := ∀ r, EntryOk r (s.entry r)

/-- INLET and DRAIN do not both have holders (R14). -/
def State.inletDrainApart (s : State) : Prop := s.hasHolder .inlet = true → s.hasHolder .drain = false

/-- Law 4 (R15): DOOR_DRIVE has a holder only while no guarded resource has one. -/
def State.doorDriveAlone (s : State) : Prop :=
  s.hasHolder .doorDrive = true → ∀ r, r.guarded = true → s.hasHolder r = false

/-- Law 11 (R172): while a trip is latched, nothing of the trip set has a holder. -/
def State.tripWithdrawn (s : State) : Prop :=
  s.latched = true → ∀ r, r.inTripSet = true → s.hasHolder r = false

/-- A guarded lease is HELD only while the door is CLOSED (R5, R12). -/
def State.guardedShut (s : State) : Prop :=
  ∀ r, r.guarded = true → (s.entry r).lease = .held → s.doorClosed = true

/-- Law 3 (R45), with the record of the interlock that carries it: the record is the interlock as it stands, and HEATER is
HELD only while it is met. -/
def State.heaterSafe (s : State) : Prop :=
  s.water.interlock = s.interlockMet ∧ ((s.entry .heater).lease = .held → s.interlockMet = true)

/-- Law 2 (R14): INLET has a holder only while SELECTOR is HELD by the same holder. -/
def State.pathHeld (s : State) : Prop :=
  (s.entry .inlet).lease ≠ .free →
    (s.entry .selector).lease = .held ∧ (s.entry .selector).holder = (s.entry .inlet).holder

/-- The laws of the resource table that every grant must keep. -/
structure State.tableSafe (s : State) : Prop where
  legal : s.leasesLegal
  path : s.pathHeld
  apart : s.inletDrainApart
  alone : s.doorDriveAlone
  withdrawn : s.tripWithdrawn
  shut : s.guardedShut

/-! ### Columns, accounts and channels (laws 5 to 9) -/

/-- Law 5 (R53), its first half: at most one column is IN_SERVICE. Its second half is `State.fillSafe`. -/
def State.oneInService (s : State) : Prop :=
  s.soft.colA.state = .inService → s.soft.colB.state ≠ .inService

/-- Law 6 (R51): a remaining capacity is never above the rated one. -/
def State.columnsBounded (s : State) : Prop := ∀ c, (s.column c).remaining ≤ s.rated c

/-- Law 8 (R83): every reservoir amount is at most its RES_FULL, the salt amount at most SALT_FULL. -/
def State.amountsBounded (s : State) : Prop :=
  (∀ n : ReservoirId, s.acct.reservoirs[n].amount ≤ s.cfg.resFull[n]) ∧ s.acct.salt.amount ≤ s.cfg.saltFull

/-- The draw log holds at most 16 records, and only a WASH record has bypass (R89, law 7). -/
def State.logLegal (s : State) : Prop :=
  s.acct.log.length ≤ Config.drawLogLength ∧ ∀ r ∈ s.acct.log, r.purpose ≠ .wash → r.bypass = 0

/-- The counts of one channel (R96): started is completed, or one more while a stroke runs; neither passes the loaded
count, and a stroke is left to make. -/
def ChannelOk (ch : Channel) : Prop :=
  ch.state ≠ .idle →
    ch.completed < ch.loaded ∧ ch.started = ch.completed + (if ch.step = .stroke then 1 else 0) ∧
      (ch.state ≠ .dosing → ch.step ≠ .stroke)

/-- Law 9 (R96): the counts of every channel. -/
def State.channelsCounted (s : State) : Prop := ∀ c, ChannelOk (s.channel c)

/-- The regeneration queue (R61): at most two entries, no column twice, and none for the column of the regeneration in
progress. -/
def State.queueLegal (s : State) : Prop :=
  s.soft.queue.length ≤ 2 ∧ (s.soft.queue.map (·.column)).Nodup ∧
    ∀ g, s.soft.regen = some g → ∀ q ∈ s.soft.queue, q.column ≠ g.column

/-- A descriptor that is not empty holds fields of their ranges (R93, R94). -/
def State.descsLegal (s : State) : Prop :=
  ∀ n : DescId, descEmpty s.dose.descs[n] = false → descFieldsInRange s.dose.descs[n] = true

/-- The laws of the blocks' books: columns, queue, accounts, channels, with what of the configuration and the descriptors they
need. -/
structure State.booksSafe (s : State) : Prop where
  weak : s.cfg.weakPercent ≤ 100
  descs : s.descsLegal
  one : s.oneInService
  queue : s.queueLegal
  columns : s.columnsBounded
  amounts : s.amountsBounded
  log : s.logLegal
  channels : s.channelsCounted

/-! ### FILLs and regenerating columns (law 5, its second half) -/

/-- A requester that holds or waits for SELECTOR or INLET with a pool slot is the port operation of that slot: a FILL in
progress, or the REGENERATE of the regeneration in progress, which has started where it holds or waits for INLET or holds
SELECTOR. -/
def State.pathUser (s : State) (started : Bool) (h : Holder) : Prop :=
  ∀ i, h.slot = some i → (∃ x, s.fillAt i = some x ∧ h = ⟨.port x.1.port, some i⟩) ∨
    ∃ g p, s.soft.regen = some g ∧ g.requester = some (p, i) ∧ h = ⟨.port p, some i⟩ ∧
      (started = true → g.phase ≠ .starting)

/-- The second half of law 5 (R53), `flow`: no FILL holds INLET, and so draws a WASH decilitre, through a REGENERATING column;
with what carries it from step to step. -/
structure State.fillSafe (s : State) : Prop where
  /-- The REGENERATING column is that of the regeneration in progress, once it has started. -/
  regenerating : ∀ c, (s.column c).state = .regenerating ↔
    ∃ g, s.soft.regen = some g ∧ g.column = c ∧ g.phase ≠ .starting
  /-- In RUN a column stays STANDBY only beside one that is IN_SERVICE. -/
  standby : s.mode = .run → ∀ c, (s.column c).state = .standby → (s.column (Column.other c)).state = .inService
  /-- A breakthrough is marked for a FILL in progress, on a column IN_SERVICE. -/
  marked : ∀ c i, (s.column c).breakthrough = some i → (s.column c).state = .inService ∧ s.fillAt i ≠ none
  /-- A regeneration, queued or in progress, that a REGENERATE asked for has that operation in its slot. -/
  asked : ∀ c p i, ((∃ q ∈ s.soft.queue, q.column = c ∧ q.requester = some (p, i)) ∨
      (∃ g, s.soft.regen = some g ∧ g.column = c ∧ g.requester = some (p, i))) →
    ∃ sl, s.pool[i] = some sl ∧ sl.port = p ∧ sl.work = .regenerate c
  /-- No operation and no regeneration is in progress in SETUP. -/
  quiet : s.mode = .setup → (∀ i : SlotId, s.pool[i] = none) ∧ s.soft.regen = none
  /-- Who holds SELECTOR and INLET, and who waits for them. -/
  users : (∀ h, (s.entry .selector).holder = some h → s.pathUser true h) ∧
    (∀ w ∈ (s.entry .selector).waiters, s.pathUser false w.who) ∧
    (∀ h, (s.entry .inlet).holder = some h → s.pathUser true h) ∧
    ∀ w ∈ (s.entry .inlet).waiters, s.pathUser true w.who
  /-- A FILL asks for INLET only while it holds SELECTOR HELD, at a column that is not REGENERATING. -/
  asking : ∀ w ∈ (s.entry .inlet).waiters, ∀ i, w.who.slot = some i → s.fillAt i ≠ none →
    s.holdsHeld w.who .selector = true ∧ (s.column s.arb.selHeld).state ≠ .regenerating
  /-- The law itself: the FILL that holds INLET holds it at a column that is not REGENERATING. -/
  flow : ∀ h i, (s.entry .inlet).holder = some h → h.slot = some i → s.fillAt i ≠ none →
    s.waitsFor h .inlet = false ∧ (s.column s.arb.selHeld).state ≠ .regenerating

/-! ### Who waits where, and who holds what -/

/-- The resources that the operation of a slot asks for (chapters 2, 3 and 8). -/
def Work.resources : Work → List Resource
  | .fill _ => [.selector, .inlet] | .circulate _ => [.circ] | .heat _ => [.heater] | .drain _ => [.drain]
  | .regenerate _ => [.selector, .brine, .inlet] | .doorPush _ => [.doorDrive] | .dry _ => [.doorDrive]

/-- Every operation of the pool waits for its own resources alone and holds no other, but for a lease that winds down after the
operation that had its slot before it (R3, R8, R21). -/
def State.inPlace (s : State) : Prop :=
  ∀ (i : SlotId) (sl : Slot), s.pool[i] = some sl → ∀ r, r ∉ sl.work.resources →
    s.waitsFor (slotWho i sl) r = false ∧ (s.holds (slotWho i sl) r = true → (s.entry r).lease = .releasing)

/-- A requester without a pool slot is the regeneration in progress, which has started. -/
def State.regenUser (s : State) (started : Bool) (h : Holder) : Prop :=
  h.slot = none → ∃ g, s.soft.regen = some g ∧ h = regenWho g ∧ (started = true → g.phase ≠ .starting)

/-- A requester of BRINE is the regeneration in progress in BRINE_DRAW, which holds SELECTOR HELD (R65). -/
def State.brineUser (s : State) (h : Holder) : Prop :=
  ∃ g, s.soft.regen = some g ∧ h = regenWho g ∧ g.phase = .brineDraw ∧ s.holdsHeld h .selector = true

/-- A requester waits only in its own place and holds only what its operation asks for (R3, R8, R21, R22), with what carries it from
step to step. -/
structure State.placed (s : State) : Prop where
  /-- A waiter record with a slot is that of the operation in the slot, whose outcome is not fixed, for a resource of its own. -/
  waits : ∀ r, ∀ w ∈ (s.entry r).waiters, ∀ i, w.who.slot = some i →
    ∃ sl, s.pool[i] = some sl ∧ sl.outcome = none ∧ w.who = slotWho i sl ∧ r ∈ sl.work.resources
  /-- So is the holder of a lease that does not wind down. -/
  holds : ∀ r h i, (s.entry r).holder = some h → h.slot = some i → (s.entry r).lease = .releasing ∨
    ∃ sl, s.pool[i] = some sl ∧ sl.outcome = none ∧ h = slotWho i sl ∧ r ∈ sl.work.resources
  /-- A slot whose outcome is fixed is ENDING: its operation is one whose lease winds down (R29). -/
  ending : ∀ (i : SlotId) sl, s.pool[i] = some sl → sl.outcome ≠ none → ∀ r ∈ sl.work.resources, r = .circ ∨ r = .doorDrive
  /-- A DOOR_PUSH or DRY waits, or is held back, in WAIT_QUIET, and holds DOOR_DRIVE HELD in PUSHING. -/
  door : ∀ i sl dry w, s.doorAt i = some (sl, dry, w) →
    (s.waitsFor ⟨.dry, some i⟩ .doorDrive = true ∨ w.heldBack = true → w.phase = .waitQuiet) ∧
      (s.holdsHeld ⟨.dry, some i⟩ .doorDrive = true → w.phase = .pushing)
  /-- A LEASE retract runs under a DOOR_DRIVE that winds down (R147). -/
  retract : s.door.rod.retract.map (·.1) = some .lease → (s.entry .doorDrive).lease = .releasing
  /-- SELECTOR HELD stands at the held position (R23). -/
  position : (s.entry .selector).lease = .held → s.arb.selCurrent = some s.arb.selHeld
  /-- A FILL that waits for SELECTOR does not hold it and does not wait for INLET; one in WAIT_SOFT waits for and holds neither. -/
  fills : ∀ i sl w, s.fillAt i = some (sl, w) →
    (s.waitsFor (slotWho i sl) .selector = true →
      s.holds (slotWho i sl) .selector = false ∧ s.waitsFor (slotWho i sl) .inlet = false) ∧
    (w.waitSoft = true → ∀ r, r = .selector ∨ r = .inlet →
      s.waitsFor (slotWho i sl) r = false ∧ s.holds (slotWho i sl) r = false)
  /-- Nobody else than pool slots and the regeneration in progress uses SELECTOR and INLET. -/
  regen : (∀ h, (s.entry .selector).holder = some h → s.regenUser true h) ∧
    (∀ w ∈ (s.entry .selector).waiters, s.regenUser false w.who) ∧
    (∀ h, (s.entry .inlet).holder = some h → s.regenUser true h) ∧ ∀ w ∈ (s.entry .inlet).waiters, s.regenUser true w.who
  /-- Who holds BRINE and who waits for it, which does not hold or wait for INLET. -/
  brine : (∀ h, (s.entry .brine).holder = some h → s.brineUser h) ∧
    ∀ w ∈ (s.entry .brine).waiters, s.brineUser w.who ∧ s.waitsFor w.who .inlet = false ∧ s.holds w.who .inlet = false
  /-- A regeneration that waits for INLET holds SELECTOR HELD and not INLET. -/
  flow : ∀ g, s.soft.regen = some g → s.waitsFor (regenWho g) .inlet = true →
    s.holdsHeld (regenWho g) .selector = true ∧ s.holds (regenWho g) .inlet = false

/-! ### The configuration and the pool (R184, R189) -/

/-- Every item that takes a number holds one of its range, and both band tables keep their conditions (R88, R189). -/
def Settings.legal (g : Settings) : Prop :=
  (∀ i, i ≠ .hardnessTable → i ≠ .factorTable → itemInRange i (g.read i) = true) ∧
    hardnessTableOk g.hardnessTable = true ∧ factorTableOk g.factorTable = true

/-- The slots that ports of the NORMAL ring hold. -/
def State.normalSlots (s : State) : Nat :=
  (allSlots.filter fun i => match s.pool[i] with
    | some sl => !s.cfg.portUrgent[portIndex sl.port]
    | none => false).length

/-- Law 10 (R184), with what carries it: no slot is held in SETUP, where the rings are written; NORMAL-ring ports hold at most
10 slots and an URGENT-ring port at most 5. -/
def State.poolShared (s : State) : Prop :=
  (s.mode = .setup → ∀ i : SlotId, s.pool[i] = none) ∧ s.normalSlots ≤ 10 ∧
    ∀ p, s.cfg.portUrgent[portIndex p] = true → (s.portSlots p).length ≤ 5

/-! ### Requests at a port (R182, R183, R186) -/

/-- The port and the tag of a command that is a request (R190). -/
def requestOf (c : Instr) : Option (Port × Nat) := (encodeRequest c).map fun x => (x.1, x.2.1)

/-- The requests marked as operations in the request catalogue (10.6). -/
def isOperation : Instr → Bool
  | .fill _ _ _ => true | .circulate _ _ _ _ => true | .heat _ _ _ _ => true | .drain _ _ => true
  | .regenerate _ _ _ => true | .doorPush _ _ => true | .dry _ _ _ _ => true
  | _ => false

/-- The requests answered NOT_READY in SETUP (R183 case 3). -/
def needsRun : Instr → Bool
  | .doseArm _ _ _ _ => true | .doseTrigger _ _ _ => true
  | c => isOperation c

/-- The operations answered TRIPPED while a trip is latched (R183 case 4). -/
def tripRefused : Instr → Bool
  | .fill _ _ _ => true | .regenerate _ _ _ => true
  | _ => false

/-- A frame of the port that passes its check is judged: the receiver is not in RESYNC, where it takes no byte, no PORT_RESET
waits, and fewer than 8 immediate responses do (R180, R182, R186). -/
def State.judges (s : State) (p : Port) : Prop :=
  (s.port p).rx ≠ .resync ∧ (s.port p).resetPending = false ∧ (s.port p).immediateCount < Config.immediateResponses

/-- A request of this tag reaches its owner or the acceptance: the frame is judged and no operation of the port has the tag
(R183 case 2). -/
def State.hears (s : State) (p : Port) (tag : Nat) : Prop := s.judges p ∧ s.tagSlot p tag = none

/-- The state in which a request was answered at the port and nothing else changed: the receiver is SYNCED and the response
has joined the queue. -/
def State.answered (s : State) (p : Port) (tag : Nat) (o : OutcomeCode) (fields : List Byte) : State :=
  (s.setRx p .synced).reply p tag o fields

/-- A response of the given body stands last in the queue of the port, after the responses that stood there. -/
def State.responds (s t : State) (p : Port) (rs : List Response) : Prop := (t.port p).txq = (s.port p).txq ++ rs

/-- The response to an immediate request (R182). -/
def immResponse (tag : Nat) (o : OutcomeCode) (fields : List Byte) : Response :=
  { tag := tag, body := byte1 (outcomeCode o) ++ fields, immediate := true, makesReset := false }

/-- No waiter stands in any list and no holder is asked to yield: nothing can be granted. -/
def State.calm (s : State) : Prop := ∀ r, (s.entry r).waiters = [] ∧ (s.entry r).yieldRequested = false

/-- Nothing is to be settled: the state is calm and the record of the interlock is the interlock as it stands. -/
def State.atRest (s : State) : Prop := s.calm ∧ s.water.interlock = s.interlockMet

/-- Every resource is FREE and nobody waits for one or is asked to yield. -/
def State.vacant (s : State) : Prop :=
  ∀ r, (s.entry r).lease = .free ∧ (s.entry r).waiters = [] ∧ (s.entry r).yieldRequested = false

/-- An operation of this tag sent at the port in RUN reaches its owner in slot `i` (R183 case 6, R184). -/
def State.accepts (s : State) (p : Port) (tag : Nat) (i : SlotId) : Prop :=
  s.hears p tag ∧ s.mode = .run ∧ s.freeSlot = some i ∧ s.meetsReserve p = true

/-- The measurement that group `g` ends with this count confirms a change of point `n` to this side (R121, R123, R131): it is VALID and
compares against the confirmed state for the last time the debounce asks. -/
def State.changes (s : State) (g : GroupId) (count : Nat) (n : PointId) (side : Side) : Prop :=
  (∃ m r, (s.group g).measuring = some m ∧ (s.group g).round = some r ∧ m.point = n ∧ m.voided = false ∧
    m.disturbed = false ∧ (r.mode = .continuous ∨ r.mode = .watch)) ∧
  count ≠ 0 ∧ count ≠ 65535 ∧ side = compareCount (s.point n) count ∧ side.state ≠ (s.point n).state ∧
  (s.point n).debounce ≤ (if (s.point n).candidate = some side then (s.point n).run + 1 else 1)

/-- It confirms a change of a point that is the first holder of its role (R133). -/
def State.confirms (s : State) (g : GroupId) (count : Nat) (n : PointId) (side : Side) : Prop :=
  s.changes g count n side ∧ s.roleHolder (s.point n).role = some n

/-- The response to an operation that ended, as it joins the queue of its port (R182). -/
def opResponse (tag : Nat) (o : OutcomeCode) (fields : List Byte) : Response :=
  { tag := tag, body := byte1 (outcomeCode o) ++ fields, immediate := false, makesReset := false }

/-! ### The arbiter: who is chosen, what a grant writes, who is asked to yield (R10, R16, R18) -/

/-- The nine arbitrated identities in round-robin order (1.3). -/
def roundRobin : List Ident := [.port .l1, .port .l2, .port .l3, .regen, .ch 0, .ch 1, .ch 2, .ch 3, .dry]

/-- The order in which a ring takes the identities: from the one after its position on, and that one last; from L1 where the
position is NONE (R10 step 2). -/
def turns : Option Ident → List Ident
  | none => roundRobin
  | some i => (roundRobin.dropWhile (· ≠ i)).drop 1 ++ roundRobin.takeWhile (· ≠ i) ++ [i]

/-- A waiter is taken before another: its identity comes earlier in the turns, or it is as old or older of the same identity
(R10 steps 2 and 3). -/
def takenBefore (position : Option Ident) (v w : Waiter) : Prop :=
  (turns position).idxOf v.who.ident < (turns position).idxOf w.who.ident ∨
    (v.who.ident = w.who.ident ∧ v.serial ≤ w.serial)

/-- Of the waiters `ok` that are eligible for a resource the grant rule takes `v`: one of the URGENT ring where it has one, the
first in that ring's turns (R10). -/
def State.chooses (s : State) (r : Resource) (ok : List Waiter) (v : Waiter) : Prop :=
  v ∈ ok ∧
  ((∃ w ∈ ok, ringOf s.cfg w.who.ident = .urgent) → ringOf s.cfg v.who.ident = .urgent ∧
    ∀ w ∈ ok, ringOf s.cfg w.who.ident = .urgent → takenBefore (s.entry r).rrUrgent v w) ∧
  ((∀ w ∈ ok, ringOf s.cfg w.who.ident = .normal) → ∀ w ∈ ok, takenBefore (s.entry r).rrNormal v w)

/-- Neither round-robin position is PROTECT, which is no arbitrated identity (1.3). -/
def Entry.positionsLegal (e : Entry) : Prop := e.rrUrgent ≠ some .protect ∧ e.rrNormal ≠ some .protect

/-- Of the waiters `ws` eligible by every other condition those that the hold-off leaves, with the last-release record `last`
(R16). -/
def Settings.afterHoldOff (g : Settings) (clock : Nat) (last : Option (Ident × Nat)) (ws : List Waiter) : List Waiter :=
  match last with
  | none => ws
  | some (i, t) =>
    if (clock + 4294967296 - t) % 4294967296 < g.regrantHoldoff ∧ ∃ w ∈ ws, w.who.ident ≠ i then
      ws.filter fun w => w.who.ident ≠ i
    else ws

/-- What a grant writes in an entry: the lease, the holder with its port, the grant time, and the round-robin position of the
holder's ring (R10). -/
def Settings.grantRecord (g : Settings) (clock : Nat) (who : Holder) (port : Option Port) (lease : LeaseState)
    (e : Entry) : Entry :=
  { e with
    lease := lease, holder := some who, holderPort := port, grantTime := clock
    rrUrgent := if ringOf g who.ident = .urgent then some who.ident else e.rrUrgent
    rrNormal := if ringOf g who.ident = .normal then some who.ident else e.rrNormal }

/-- The holder of an entry is asked to yield (R18). -/
def Settings.yieldAsked (g : Settings) (clock : Nat) (e : Entry) : Prop :=
  (e.lease = .moving ∨ e.lease = .held ∨ e.lease = .suspended) ∧
  ∃ h, e.holder = some h ∧ h.ident ≠ .protect ∧
    (∃ w ∈ e.waiters, ringOf g w.who.ident = .urgent ∧ w.who.ident ≠ h.ident) ∧
    (ringOf g h.ident = .normal ∨ g.urgentTenure ≤ (clock + 4294967296 - e.grantTime) % 4294967296)

/-- An entry that was let go at run-clock second `clock` and granted at once to the waiter `v` of `ws`, with the last-release
record `last`: `t` is what stands there, its yield flag as R18 has it (R10, R16, R18). -/
def Settings.passedOn (g : Settings) (clock : Nat) (e t : Entry) (ws : List Waiter) (v : Waiter) (port : Option Port)
    (lease : LeaseState) (last : Option (Ident × Nat)) : Prop :=
  t = { g.grantRecord clock v.who port lease e with
    waiters := ws.filter fun w => w.who ≠ v.who, lastRelease := last, yieldRequested := t.yieldRequested } ∧
  (t.yieldRequested = true ↔ g.yieldAsked clock t)

/-- Nobody waits for a resource but for the named one, and nobody is asked to yield another; the interlock stands as recorded.
-/
def State.calmBut (s : State) (r : Resource) : Prop :=
  (∀ q, q ≠ r → (s.entry q).waiters = [] ∧ (s.entry q).yieldRequested = false) ∧ s.water.interlock = s.interlockMet

/-- No HEAT's limit passes at the next period end, or has passed (R46). -/
def State.heatsInTime (s : State) : Prop :=
  ∀ j x, s.heatAt j = some x → x.2.granted = true → x.2.passed.due = false ∧ x.2.passed.passed + 1 < 50 * x.2.limit

/-- A FILL of slot `i` has ended with the tallies `w` and the outcome `o`: its leases let go, its draw recorded, its response
made and its slot free (R29, R40, R89). -/
def State.fillEnded (s t : State) (i : SlotId) (sl : Slot) (w : FillWork) (o : OutcomeCode) : Prop :=
  t.pool[i] = none ∧ (t.entry .inlet).lease = .free ∧
  (s.holds ⟨.port sl.port, some i⟩ .selector = true → (t.entry .selector).lease = .free) ∧
  t.acct.log.getLast? = some ⟨s.acct.nextDraw, .wash, w.softA, w.softB, w.bypass, w.lastHardness, o, s.drive.clock⟩ ∧
  s.responds t sl.port [opResponse sl.tag o (byte1 w.counted ++ byte1 w.softA ++ byte1 w.softB ++ byte1 w.bypass)] ∧
  ∀ j : SlotId, j ≠ i → t.pool[j] = s.pool[j]

/-! ### The items of the configuration (R88, R189) and the count of a load (R88, R98) -/

/-- A row of the table of R189: code and index, the value held, the lowest and the highest of its range, whether it is live. -/
structure ItemRow where
  code : Nat
  index : Nat
  value : Nat
  low : Nat
  high : Nat
  live : Bool
deriving DecidableEq, Repr

/-- The items of R189 that take a number, with the values held: a named value is its place in the range column, from 0, and so
URGENT, HOLD, CONFIGURED and off are 0. -/
def Settings.itemRows (g : Settings) : List ItemRow :=
  [⟨0x01, 0, g.flowPulsesPerDl, 1, 50, false⟩, ⟨0x02, 0, g.noFlowTimeout, 5, 60, true⟩, ⟨0x03, 0, g.tankLimit, 10, 200, false⟩,
   ⟨0x04, 0, g.drainPostrun, 0, 60, true⟩, ⟨0x05, 0, g.drainLimit, 30, 300, true⟩, ⟨0x06, 0, g.overtempLimit, 600, 900, false⟩,
   ⟨0x07, 0, g.circRampGrade, 0, 255, true⟩, ⟨0x10, 0, g.capRatedA, 1000, 65535, false⟩,
   ⟨0x11, 0, g.capRatedB, 1000, 65535, false⟩, ⟨0x12, 0, if g.exhaustBypass then 1 else 0, 0, 1, true⟩,
   ⟨0x13, 0, if g.autoRegen then 1 else 0, 0, 1, true⟩] ++
  [⟨0x14, 0, g.brineVolume, 1, 20, false⟩, ⟨0x15, 0, g.soakTime, 30, 1800, false⟩, ⟨0x16, 0, g.rinseVolume, 1, 40, false⟩,
   ⟨0x17, 0, g.saltPerDl, 1, 50, false⟩, ⟨0x18, 0, g.weakPercent, 10, 90, false⟩,
   ⟨0x20, 0, if g.hardnessSensed then 1 else 0, 0, 1, true⟩, ⟨0x21, 0, g.hardnessSet, 0, 100, true⟩] ++
  ((List.finRange 3).map fun n => ⟨0x24, n.val + 1, g.resFull[n], 100, 20000, false⟩) ++
  ((List.finRange 3).map fun n => ⟨0x25, n.val + 1, g.resLowmark[n], 0, 20000, false⟩) ++
  ((List.finRange 3).map fun n => ⟨0x26, n.val + 1, g.strokeVol[n], 1, 50, false⟩) ++
  [⟨0x27, 0, g.saltFull, 100, 4000, false⟩, ⟨0x28, 0, g.saltLowmark, 0, 4000, false⟩] ++
  ((List.finRange 3).map fun n => ⟨0x30, n.val + 1, if g.portUrgent[n] then 0 else 1, 0, 1, false⟩) ++
  [⟨0x31, 0, if g.regenUrgent then 0 else 1, 0, 1, false⟩] ++
  ((List.finRange 4).map fun c => ⟨0x32, c.val, if g.channelUrgent[c] then 0 else 1, 0, 1, false⟩) ++
  [⟨0x33, 0, if g.dryUrgent then 0 else 1, 0, 1, false⟩, ⟨0x34, 0, g.urgentTenure, 0, 255, true⟩,
   ⟨0x35, 0, g.regrantHoldoff, 0, 60, true⟩, ⟨0x38, 0, g.scanPeriod.val, 0, 3, true⟩,
   ⟨0x39, 0, g.publishEvery, 1, 16, true⟩, ⟨0x40, 0, g.pushStart, 0, 255, true⟩, ⟨0x41, 0, g.pushMax, 0, 255, true⟩,
   ⟨0x42, 0, g.pushGrade, 0, 255, true⟩, ⟨0x43, 0, g.pushMaxhold, 1, 255, true⟩,
   ⟨0x44, 0, g.extendTimeout, 1, 20, true⟩, ⟨0x45, 0, g.rodHold, 1, 60, true⟩, ⟨0x46, 0, g.retractTimeout, 1, 20, true⟩] ++
  (List.finRange 14).map fun k => ⟨0x48, k.val + 1, if g.capture[k] then 1 else 0, 0, 1, true⟩

/-- The condition of a hardness table (R88). -/
def hardnessBandsOk (bs : List (Nat × Nat)) : Prop :=
  (∀ b ∈ bs, b.1 ≤ 65535 ∧ b.2 ≤ 100) ∧ ((∀ b ∈ bs, b.1 = 0) ∨ bs.Pairwise fun a b => a.1 < b.1)

/-- The condition of a dose factor table (R88). -/
def factorBandsOk (bs : List (Nat × Nat)) : Prop :=
  (∀ b ∈ bs, b.1 ≤ 100 ∧ 8 ≤ b.2 ∧ b.2 ≤ 48) ∧ bs.Pairwise fun a b => a.1 < b.1

/-- The first band whose limit is at or above `x`, or the last band, gives `v` (R87, R88). -/
def bandGives (bs : List (Nat × Nat)) (x v : Nat) : Prop :=
  ∃ b, (bs.find? fun b => decide (x ≤ b.1)).or bs.getLast? = some b ∧ v = b.2

/-- The scaling hardness: that of the newest WASH record held, else the current hardness (R88). -/
def State.scalesBy (s : State) (h : Nat) : Prop :=
  (∃ r, (s.acct.log.filter fun r => r.purpose == .wash).getLast? = some r ∧ h = r.hardness) ∨
    ((∀ r ∈ s.acct.log, r.purpose ≠ .wash) ∧ h = s.acct.hardness)

/-- A descriptor loaded now has the count `k`: its base count under scale FIXED; under HARDNESS ceil(base count * factor / 16),
not below 1 and not above 4095 (R98). -/
def State.loads (s : State) (d : Desc) (k : Nat) : Prop :=
  (d.scale ≠ 1 ∧ k = d.baseCount) ∨
    (d.scale = 1 ∧ ∃ h f, s.scalesBy h ∧ bandGives s.cfg.factorTable h f ∧ k = max 1 (min 4095 ((d.baseCount * f + 15) / 16)))

/-- The size of the run that opens with `left` strokes left: SINGLE 1, SUCCESSIVE all of them, BLOCK the block length (R102). -/
def opensRun (d : Desc) (left k : Nat) : Prop :=
  (d.mode = 0 ∧ k = min 1 left) ∨ (d.mode = 1 ∧ k = left) ∨ (d.mode = 2 ∧ k = min d.blockLength left)

/-- A channel just loaded with descriptor `n`, whose fields are `d`, and the count `k` (R97). -/
def loadedWith (n : DescId) (d : Desc) (k : Nat) : Channel :=
  { Channel.reset with
    state := .armed, current := some n, loaded := k
    delayLeft := if d.source = 4 then d.delay else 0, delayArmed := decide (d.source = 4) }

/-! ### The head of the queue (R62) and the checks of COMMIT (R187) -/

/-- A judgement of the queue leaves it as it is: no head is to be taken (R62), and none begins a wait for salt. -/
def State.headStays (s : State) : Prop :=
  s.soft.queue = [] ∨ s.mode = .setup ∨ s.soft.regen ≠ none ∨ s.latched = true ∨
    (s.acct.salt.known = true ∧ s.acct.salt.amount = 0 ∧ s.soft.saltWait = true)

/-- `t` is `u` after the queue was judged for its head and what that allows was granted, as REGEN_HEAD_TAKEN does: `u` itself
where the head stays (R62; the place of the judgement in the step: notes/assumptions/42.md). -/
def State.headJudged (u t : State) : Prop := exec .regenHeadTaken u = .next t ∧ (u.headStays → t = u)

/-- A check of COMMIT fails with an item that it carries (the table of R187). -/
def State.fails (s : State) (check item : Nat) : Prop :=
  match check with
  | 1 => ∃ m n : PointId, m ≠ n ∧ (s.point m).role ≠ .none ∧ (s.point n).role = (s.point m).role ∧
      item = roleCode (s.point m).role
  | 2 => ∃ r : Role, (r = .leak ∨ r = .tankMin) ∧ (∀ n, (s.point n).role ≠ r) ∧ item = roleCode r
  | 3 => (∃ n : ReservoirId, s.cfg.resFull[n] < s.cfg.resLowmark[n] ∧ item = n.val + 1) ∨
      (s.cfg.saltFull < s.cfg.saltLowmark ∧ item = 4)
  | 4 => ∃ (g : GroupId) (k : Fin 4) (n : PointId), (s.group g).map[k] = some n ∧ groupOf n ≠ g ∧ item = g.val
  | 5 => (∀ p, s.cfg.portUrgent[portIndex p] = true) ∧ item = 0
  | _ => False

/-- The first check of COMMIT that fails, with the item carried: of several the lowest, which is the first in its list
(notes/assumptions/46.md). -/
def State.failsFirst (s : State) (check item : Nat) : Prop :=
  s.fails check item ∧ (∀ x, s.fails check x → item ≤ x) ∧ ∀ k x, k < check → ¬s.fails k x

/-! ### Frames: which blocks of the state a command leaves as they were -/

/-- The blocks of the state. -/
inductive Block where
  | arb | pool | accepted | ports | water | soft | acct | dose | sense | drive | door | prot | mode | cfg | choice | pending
deriving DecidableEq, Repr

/-- A block is as it was; the acceptance order with the count of its wraps. -/
def State.same (s t : State) : Block → Prop
  | .arb => t.arb = s.arb
  | .pool => t.pool = s.pool
  | .accepted => t.accepted = s.accepted ∧ t.laps = s.laps
  | .ports => t.ports = s.ports
  | .water => t.water = s.water
  | .soft => t.soft = s.soft
  | .acct => t.acct = s.acct
  | .dose => t.dose = s.dose
  | .sense => t.sense = s.sense
  | .drive => t.drive = s.drive
  | .door => t.door = s.door
  | .prot => t.prot = s.prot
  | .mode => t.mode = s.mode
  | .cfg => t.cfg = s.cfg
  | .choice => t.choice = s.choice
  | .pending => t.pending = s.pending

/-- Every block but the named ones is as it was. -/
def State.keepsBut (s t : State) (changed : List Block) : Prop := ∀ b, b ∉ changed → s.same t b

/-- Every entry of the resource table but the named ones is as it was. -/
def State.keepsEntriesBut (s t : State) (changed : List Resource) : Prop := ∀ r, r ∉ changed → t.entry r = s.entry r

end Machine

end Sys2Proof
end

