-- ==== Sys2Proof/Certificates/Slice0/Obligations.lean ====
section
/-! DEFINITION. The statements for the provers. A statement that names a state `t` with `exec c s = .next t` says that the
command completes from every state and operands of its hypotheses, and what it leaves; `keepsBut` is its frame. A request
command is a whole frame that passed its check (notes/assumptions/5.md); `judges`, `hears` and `accepts` ask for a receiver that
is not in RESYNC, where a port sees no frame. -/

open Sys2Proof Sys2Proof.Machine

/-! ### The machine -/

/-- A step runs the command at the front of the queue on the state with the queue's rest, and idles on an empty queue (the
queue and the idle step are the model's: notes/assumptions/7.md, 32.md). -/
def Obligations.StepRunsFrontCommand : Prop :=
  (∀ (c : Instr) (q : List Instr) (s : State), step { s with pending := c :: q } = exec c { s with pending := q }) ∧
    ∀ s : State, s.pending = [] → step s = .next s

/-- DEVICE_RESET: every block at its reset values, the selector position and the rod with its switches read from the end
switches; the queue and the counter of free choices are the model's and stay (notes/assumptions/31.md), and so is the count of the
acceptance order's wraps, which is 0 (19.md). -/
def Obligations.DeviceResetLeavesResetValues : Prop :=
  ∀ (r : ResetReadings) (s : State), ∃ t, exec (.deviceReset r) s = .next t ∧
    (∀ q, t.entry q = { lease := .free, holder := none, holderPort := none, grantTime := 0, yieldRequested := false,
                        rrUrgent := none, rrNormal := none, lastRelease := none, waiters := [] }) ∧
    t.arb.selHeld = .a ∧
    t.arb.selCurrent = (if r.selA = true ∧ r.selB = false then some .a
      else if r.selB = true ∧ r.selA = false then some .b else none) ∧
    (∀ i : SlotId, t.pool[i] = none) ∧ t.accepted = 0 ∧ t.laps = 0 ∧
    (∀ p, (t.port p).rx = .resync ∧ (t.port p).txq = [] ∧ (t.port p).resetPending = false ∧
      (t.port p).attention = false ∧ ∀ k : SubId, (t.port p).subs[k] = Sub.reset) ∧
    t.water = Water.reset ∧ t.soft = Softener.reset ∧ t.acct = Accounts.reset ∧ t.dose = Dose.reset ∧
    t.sense = Sense.reset ∧ t.drive = Drive.reset ∧ t.prot = Protection.reset ∧ t.door.door = ⟨false, true, 0⟩ ∧
    t.door.rod.state = (if r.rodRet = true then (if r.rodExt = true then .stalled else .retracted) else .retracting) ∧
    t.door.rod.retract = (if r.rodRet = true then none else some (.reset, Timer.zero)) ∧
    t.door.rod.ret.value = r.rodRet ∧ t.door.rod.ret.agree = 0 ∧ t.door.rod.ext.value = r.rodExt ∧
    t.door.rod.ext.agree = 0 ∧ t.door.rod.extend = Timer.zero ∧ t.door.rod.maxHold = 0 ∧ t.door.rod.hold = Timer.zero ∧
    t.mode = .setup ∧ t.cfg = Settings.default ∧ t.choice = s.choice ∧ t.pending = s.pending

/-- The machine right after reset meets every law that a step keeps; its end switches read as the model chose
(notes/assumptions/2.md). -/
def Obligations.ResetMeetsTheLaws : Prop :=
  State.reset.tableSafe ∧ State.reset.heaterSafe ∧ State.reset.booksSafe ∧ State.reset.cfg.legal ∧ State.reset.poolShared ∧
    State.reset.fillSafe ∧ State.reset.placed

/-! ### The laws that every step keeps -/

/-- Laws 1, 2, 4 and 11, the exclusion of INLET and DRAIN, and the door guard are kept by every step: INLET has a holder only
while SELECTOR is HELD by the same holder. -/
def Obligations.TableLawsKept : Prop := ∀ s t : State, s.tableSafe → step s = .next t → t.tableSafe

/-- Law 3 is kept by every step: HEATER is HELD only while the interlock is met. -/
def Obligations.HeaterLawKept : Prop :=
  ∀ s t : State, s.tableSafe → s.heaterSafe → step s = .next t → t.heaterSafe

/-- The first half of law 5, laws 6, 8 and 9, the regeneration queue, the draw log and the descriptors' ranges are kept by every
step. -/
def Obligations.BooksLawsKept : Prop :=
  ∀ s t : State, s.booksSafe → s.cfg.legal → step s = .next t → t.booksSafe

/-- Every configuration item keeps to its range, and both band tables to their conditions, in every step. -/
def Obligations.SettingsLawKept : Prop := ∀ s t : State, s.cfg.legal → step s = .next t → t.cfg.legal

/-- Law 10 is kept by every step: NORMAL-ring ports hold at most 10 pool slots, an URGENT-ring port at most 5. -/
def Obligations.PoolLawKept : Prop := ∀ s t : State, s.poolShared → step s = .next t → t.poolShared

/-- What only some commands change: the configuration, the part mode, the descriptors, the acceptance count, the run clock,
the door state, the trip causes; and no command but through the step changes the queue (the queue and its survival of a device
reset are the model's: notes/assumptions/31.md, 32.md; the acceptance order: 19.md). -/
def Obligations.WhatOnlySomeCommandsChange : Prop :=
  ∀ (c : Instr) (s t : State), exec c s = .next t →
    t.pending = s.pending ∧
    (match c with
      | .deviceReset _ => True
      | .configWrite _ _ _ _ _ => t.mode = s.mode ∧ t.dose.descs = s.dose.descs ∧ t.drive.clock = s.drive.clock
      | .commit _ _ => t.cfg = s.cfg ∧ t.dose.descs = s.dose.descs ∧ t.drive.clock = s.drive.clock
      | .enterSetup _ _ => t.cfg = s.cfg ∧ t.dose.descs = s.dose.descs ∧ t.drive.clock = s.drive.clock
      | .descWrite _ _ _ _ => t.cfg = s.cfg ∧ t.mode = s.mode ∧ t.drive.clock = s.drive.clock
      | .drivePeriodEnd _ => t.cfg = s.cfg ∧ t.mode = s.mode ∧ t.dose.descs = s.dose.descs
      | .runClockSecond => t.cfg = s.cfg ∧ t.mode = s.mode ∧ t.dose.descs = s.dose.descs
      | _ => t.cfg = s.cfg ∧ t.mode = s.mode ∧ t.dose.descs = s.dose.descs ∧ t.drive.clock = s.drive.clock) ∧
    (isOperation c = false → (∀ r, c ≠ .deviceReset r) → t.accepted = s.accepted ∧ t.laps = s.laps) ∧
    ((∀ r, c ≠ .deviceReset r) → (∀ r, c ≠ .drivePeriodEnd r) → c ≠ .doorStateChange → t.doorClosed = s.doorClosed) ∧
    ((∀ r, c ≠ .deviceReset r) → (∀ r, c ≠ .drivePeriodEnd r) → (∀ g n, c ≠ .measurementEnd g n) →
      (∀ p tag, c ≠ .tripClear p tag) →
      t.prot.flood = s.prot.flood ∧ t.prot.overfill = s.prot.overfill ∧ t.prot.overtemp = s.prot.overtemp)

/-! ### Frames and requests (chapter 10) -/

/-- Every well-formed request is read back from the frame that carries it, with every operand at every value. -/
def Obligations.RequestReadBack : Prop :=
  ∀ (c : Instr) (p : Port) (tag kind : Nat) (body : List Nat), c.wf = true → encodeRequest c = some (p, tag, kind, body) →
    decodeRequest p kind tag body = some c ∧ body.length ≤ 120 ∧ body.all isByte = true ∧ isByte tag = true

/-- The refusals at the port: BAD_REQUEST, TAG_IN_USE, NOT_READY in SETUP, TRIPPED, RETRY; each changes nothing but the
receiver and the queue of the port. -/
def Obligations.RequestsRefusedAtThePort : Prop :=
  (∀ (s : State) (p : Port) (kind tag : Nat) (body : List Nat), s.judges p → decodeRequest p kind tag body = none →
    exec (.badRequest p kind tag body) s = .next (s.answered p tag .badRequest [])) ∧
  ∀ (c : Instr) (s : State) (p : Port) (tag : Nat), requestOf c = some (p, tag) → c.wf = true → s.judges p →
    ((s.tagSlot p tag).isSome = true → exec c s = .next (s.answered p tag .tagInUse [])) ∧
    (s.tagSlot p tag = none →
      (needsRun c = true → s.mode = .setup → exec c s = .next (s.answered p tag .notReady [])) ∧
      (tripRefused c = true → s.mode = .run → s.latched = true → exec c s = .next (s.answered p tag .tripped [])) ∧
      (isOperation c = true → s.mode = .run → (tripRefused c = true → s.latched = false) → s.meetsReserve p = false →
        exec c s = .next (s.answered p tag .retry [])))

/-- An operation that meets the reserve rule is accepted into the lowest free slot (notes/assumptions/18.md): it takes the next
acceptance order, which goes from 65535 to 0 (the model counts those wraps: notes/assumptions/19.md), the slot holds it or has
been freed again by its answer, and no other slot holds another operation than before. -/
def Obligations.OperationsAccepted : Prop :=
  ∀ (c : Instr) (s : State) (p : Port) (tag : Nat) (i : SlotId), isOperation c = true → requestOf c = some (p, tag) →
    s.accepts p tag i → (tripRefused c = true → s.latched = false) → ∃ t, exec c s = .next t ∧
      t.accepted = (s.accepted + 1) % 65536 ∧
      t.laps = (if (s.accepted + 1) % 65536 = 0 then s.laps + 1 else s.laps) ∧ (t.port p).rx = .synced ∧
      t.cfg = s.cfg ∧ t.mode = s.mode ∧ t.pending = s.pending ∧
      (∀ x, t.pool[i] = some x → x.port = p ∧ x.tag = tag ∧ x.serial = s.accepted ∧ x.lap = s.laps) ∧
      ∀ (j : SlotId) (x : Slot), j ≠ i → t.pool[j] = some x →
        ∃ y, s.pool[j] = some y ∧ x.port = y.port ∧ x.tag = y.tag ∧ x.serial = y.serial ∧ x.lap = y.lap

/-- The receiver: RESYNC to SYNCED on an idle line, IN_FRAME at a start byte, and each discarded frame with its fault, a gap
with the bytes counted and those the command adds (notes/assumptions/6.md); a whole frame is taken from SYNCED or IN_FRAME
(notes/assumptions/5.md), and in RESYNC no byte and no frame is. -/
def Obligations.ReceiverSteps : Prop :=
  ∀ (s : State) (p : Port),
    ((s.port p).rx = .resync → exec (.lineIdle p) s = .next (s.setRx p .synced)) ∧
    ((s.port p).rx = .synced → exec (.startByte p) s = .next (s.setRx p (.inFrame 1))) ∧
    ((s.port p).rx = .synced → exec (.frameError p) s = .next ((s.setRx p .resync).fault .frameError (portCode p) 0)) ∧
    (∀ n k, (s.port p).rx = .inFrame n →
      exec (.frameGapTimeout p k) s = .next ((s.setRx p .resync).fault .frameError (portCode p) (n + k))) ∧
    (∀ n len, (s.port p).rx = .inFrame n → (len < 2 ∨ 122 < len) →
      exec (.overlong p len) s = .next ((s.setRx p .resync).fault .overlong (portCode p) len)) ∧
    (∀ covered check, crc16 covered ≠ check → (s.port p).rx ≠ .resync → (s.port p).resetPending = false →
      exec (.checkError p covered check) s = .next ((s.setRx p .synced).fault .checkError (portCode p) check)) ∧
    (8 ≤ (s.port p).immediateCount → (s.port p).rx ≠ .resync → (s.port p).resetPending = false →
      exec (.transmitQueueFull p) s = .next ((s.setRx p .synced).fault .frameError (portCode p) 65535)) ∧
    ((s.port p).rx = .resync →
      (∀ c tag, requestOf c = some (p, tag) → exec c s = .next s) ∧
      (∀ covered check, exec (.checkError p covered check) s = .next s) ∧
      (∀ kind tag body, exec (.badRequest p kind tag body) s = .next s) ∧
      exec (.startByte p) s = .next s ∧ exec (.frameError p) s = .next s ∧ exec (.transmitQueueFull p) s = .next s)

/-- A fault posted (R177): nothing where its capture is off; the record and FAULT_CAPTURED where its group is empty; MULTIPLE
where the group holds a record. -/
def Obligations.FaultCaptured : Prop :=
  ∀ (s : State) (k : FaultKind) (subject detail : Nat),
    (s.cfg.capture[faultKindIndex k] = false → s.fault k subject detail = s) ∧
    (s.cfg.capture[faultKindIndex k] = true → ∀ r, s.prot.groups[faultGroupIndex (faultGroupOf k)] = some r →
      s.fault k subject detail = { s with prot := { s.prot with multiple := true } }) ∧
    (s.cfg.capture[faultKindIndex k] = true → s.prot.groups[faultGroupIndex (faultGroupOf k)] = none →
      ∃ u : State, s.fault k subject detail =
          u.post .faultCaptured (faultGroupIndex (faultGroupOf k)).val (faultKindCode k) ∧
        s.keepsBut u [.prot] ∧ u.prot.multiple = s.prot.multiple ∧
        (∀ g : Fin 5, u.prot.groups[g] =
          if g = faultGroupIndex (faultGroupOf k) then some ⟨k, subject, s.drive.clock, detail⟩ else s.prot.groups[g]) ∧
        u.prot.flood = s.prot.flood ∧ u.prot.overfill = s.prot.overfill ∧ u.prot.overtemp = s.prot.overtemp ∧
        u.prot.force = s.prot.force)

/-- A report at each port (R194): the lowest-numbered matching EMPTY slot takes it, its overrun flag as it was; else the
lowest-numbered matching slot, its overrun set; else it is not kept. The attention line is asserted exactly while a slot is
HELD, and nothing else of the part changes. -/
def Obligations.ReportPlaced : Prop :=
  ∀ (s : State) (e : Event) (subject value : Nat) (p : Port) (t : State), t = s.post e subject value →
    s.keepsBut t [.ports] ∧ (t.port p).rx = (s.port p).rx ∧ (t.port p).txq = (s.port p).txq ∧
    (t.port p).resetPending = (s.port p).resetPending ∧
    ((t.port p).attention = true ↔ ∃ j : SubId, (t.port p).subs[j].held ≠ none) ∧
    (∀ k : SubId, (s.port p).subs[k].takes (eventCode e) = true → (s.port p).subs[k].held = none →
      (∀ j : SubId, j < k → (s.port p).subs[j].takes (eventCode e) = true → (s.port p).subs[j].held ≠ none) →
      ∀ j : SubId, (t.port p).subs[j] = if j = k
        then { (s.port p).subs[k] with held := some ⟨eventCode e, subject, value, s.drive.clock⟩ }
        else (s.port p).subs[j]) ∧
    ((∀ j : SubId, (s.port p).subs[j].takes (eventCode e) = true → (s.port p).subs[j].held ≠ none) →
      (∀ k : SubId, (s.port p).subs[k].takes (eventCode e) = true →
        (∀ j : SubId, j < k → (s.port p).subs[j].takes (eventCode e) = false) →
        ∀ j : SubId, (t.port p).subs[j] = if j = k
          then { (s.port p).subs[k] with held := some ⟨eventCode e, subject, value, s.drive.clock⟩, overrun := true }
          else (s.port p).subs[j]) ∧
      ((∀ j : SubId, (s.port p).subs[j].takes (eventCode e) = false) → t.port p = s.port p))

/-- RESPONSE_SENT: the port sends the oldest response as a frame of kind 0x80 with the request's tag; it leaves the queue, and
nothing else changes where it does not answer a PORT_RESET. -/
def Sys2Proof.Clauses.ResponseSentLeavesTheQueue : Prop :=
  ∀ (s : State) (p : Port) (r : Response) (rest : List Response), (s.port p).txq = r :: rest →
    (∀ covered, covered = [r.body.length + 2, 0x80, r.tag] ++ r.body.map (fun b => b.toNat) →
      (s.port p).sending = some (0x5B :: covered ++ [crc16 covered % 256, crc16 covered / 256])) ∧
    (r.makesReset = false → exec (.responseSent p) s = .next (s.setPort p { s.port p with txq := rest }))

/-- PORT_RESET is answered OK and its reset waits; BREAK, and the sending of that answer, make it: the port's slots are
freed and its tags forgotten, its queue emptied, its subscription slots DISABLED. -/
def Sys2Proof.Clauses.PortResetFreesThePort : Prop :=
  ∀ (s : State) (p : Port),
    (∀ tag, s.hears p tag → exec (.portReset p tag) s = .next (s.setPort p
      { s.port p with
        rx := .synced, resetPending := true,
        txq := (s.port p).txq ++ [{ tag := tag, body := byte1 0, immediate := true, makesReset := true }] })) ∧
    ∀ c : Instr, (c = .breakLine p ∨ (c = .responseSent p ∧ ∃ r rest, (s.port p).txq = r :: rest ∧ r.makesReset = true)) →
      ∃ t, exec c s = .next t ∧ (t.port p).txq = [] ∧ (t.port p).resetPending = false ∧ (t.port p).attention = false ∧
        (∀ k : SubId, (t.port p).subs[k] = Sub.reset) ∧
        (t.port p).rx = (if c = .breakLine p then .resync else (s.port p).rx) ∧
        (∀ (i : SlotId) (x : Slot), t.pool[i] = some x →
          x.port ≠ p ∧ ∃ y, s.pool[i] = some y ∧ x.port = y.port ∧ x.tag = y.tag) ∧
        (∀ q, q ≠ p → (t.port q).rx = (s.port q).rx) ∧ t.cfg = s.cfg ∧ t.mode = s.mode ∧ t.pending = s.pending

/-- RESPONSE_SENT, PORT_RESET and BREAK. -/
def Obligations.PortResets : Prop :=
  Clauses.ResponseSentLeavesTheQueue ∧ Clauses.PortResetFreesThePort

/-- CANCEL: UNKNOWN_TAG where the port has no such operation, OK with 1 where the outcome was fixed; an operation that has
nothing to wind down ends CANCELLED, its response before that of the CANCEL: a FILL, a HEAT, a DRAIN, a CIRCULATE whose pump does
not run, a REGENERATE queued, in STARTING, in SOAK or waiting, a DOOR_PUSH or DRY that does not hold DOOR_DRIVE. -/
def Sys2Proof.Clauses.CancelEndsAtOnce : Prop :=
  ∀ (s : State) (p : Port) (tag target : Nat), s.hears p tag →
    (s.tagSlot p target = none → exec (.cancel p tag target) s = .next (s.answered p tag .unknownTag [])) ∧
    (∀ i sl, s.tagSlot p target = some i → s.pool[i] = some sl →
      (∀ o, sl.outcome = some o → exec (.cancel p tag target) s = .next (s.answered p tag .ok (byte1 1))) ∧
      (∀ fields, sl.outcome = none →
        (((∃ w, sl.work = .heat w) ∨ (∃ w, sl.work = .drain w)) ∧ fields = []) ∨
        (∃ w, sl.work = .fill w ∧ fields = fillFields w) ∨
        ((∃ w, sl.work = .circulate w) ∧ fields = [] ∧
          ¬(s.holdsHeld ⟨.port p, some i⟩ .circ = true ∧ 0 < s.circLevel)) ∨
        ((∃ c, sl.work = .regenerate c) ∧ s.regenQueued p i = true ∧ fields = byte1 0 ++ byte1 0) ∨
        ((∃ c, sl.work = .regenerate c) ∧ s.regenQueued p i = false ∧ ∃ g, s.soft.regen = some g ∧
          g.requester = some (p, i) ∧ ¬(g.phase = .brineDraw ∧ g.brineStarted = true) ∧
          ¬(g.phase = .rinse ∧ s.holdsHeld ⟨.port p, some i⟩ .inlet = true) ∧
          fields = if g.phase = .starting then byte1 0 ++ byte1 0 else byte1 (phaseCode g.phase) ++ byte1 g.counted) ∨
        (∃ w, sl.work = .doorPush w ∧ ¬(w.phase = .pushing ∧ s.holds ⟨.dry, some i⟩ .doorDrive = true) ∧
          fields = byte1 (rodStateCode s.door.rod.state) ++ flagByte w.pushed ++ flagByte w.seenOpen) ∨
        (∃ w, sl.work = .dry w ∧ ¬(w.phase = .pushing ∧ s.holds ⟨.dry, some i⟩ .doorDrive = true) ∧
          fields = byte1 (doorPhaseCode w.phase) ++ flagByte w.pushed ++ byte2 (w.ajarPassed.passed / 50)) →
        ∃ t more, exec (.cancel p tag target) s = .next t ∧ t.pool[i] = none ∧
          s.responds t p ([opResponse target .cancelled fields, immResponse tag .ok (byte1 0)] ++ more) ∧
          t.cfg = s.cfg ∧ t.mode = s.mode))

/-- CANCEL of an operation that winds down, with nobody waiting: a CIRCULATE whose pump runs ramps down and a DOOR_PUSH or DRY that
holds DOOR_DRIVE draws the rod in, RETRACTING, or goes on drawing it in, each with its outcome fixed (the fields of R169 but the rod state at that
moment: notes/assumptions/13.md; the active setting of CIRC reads 0 from then on: 33.md) and its response still to come; a REGENERATE
that draws brine or rinses goes on with the CANCEL pending. -/
def Sys2Proof.Clauses.CancelWindsDown : Prop :=
  ∀ (s : State) (p : Port) (tag target : Nat) (i : SlotId) (sl : Slot), s.hears p tag → s.tagSlot p target = some i →
    s.pool[i] = some sl → sl.outcome = none → s.atRest →
    (∀ w, sl.work = .circulate w → (s.entry .circ).lease = .held → (s.entry .circ).holder = some ⟨.port p, some i⟩ →
      0 < s.circLevel → (∀ r, s.holds ⟨.port p, some i⟩ r = true → r = .circ) →
      ∃ t, exec (.cancel p tag target) s = .next t ∧ (t.entry .circ).lease = .releasing ∧
        (t.entry .circ).holder = (s.entry .circ).holder ∧ t.drive = { s.drive with circ := { s.drive.circ with active := 0 } } ∧
        t.pool[i] = some { sl with outcome := some .cancelled } ∧ (∀ j : SlotId, j ≠ i → t.pool[j] = s.pool[j]) ∧
        t.ports = (s.answered p tag .ok (byte1 0)).ports ∧ s.keepsEntriesBut t [.circ, .heater] ∧
        s.keepsBut t [.arb, .pool, .ports, .water, .drive, .sense]) ∧
    (∀ c g, sl.work = .regenerate c → s.regenQueued p i = false → s.soft.regen = some g → g.requester = some (p, i) →
      ((g.phase = .brineDraw ∧ g.brineStarted = true) ∨
        (g.phase = .rinse ∧ s.holdsHeld ⟨.port p, some i⟩ .inlet = true)) →
      exec (.cancel p tag target) s =
        .next ((s.setRegen (some { g with cancelPending := true })).answered p tag .ok (byte1 0))) ∧
    (∀ w x, w.phase = .pushing → ((s.entry .doorDrive).lease = .held ∨ (s.entry .doorDrive).lease = .releasing) →
      (s.entry .doorDrive).holder = some ⟨.dry, some i⟩ →
      (sl.work = .doorPush w ∧ x = .doorPush { w with fixed := flagByte w.pushed ++ flagByte w.seenOpen }) ∨
        (sl.work = .dry w ∧
          x = .dry { w with fixed := byte1 2 ++ flagByte w.pushed ++ byte2 (w.ajarPassed.passed / 50) }) →
      ∃ t, exec (.cancel p tag target) s = .next t ∧
        t.pool[i] = some { sl with outcome := some .cancelled, work := x } ∧
        (∀ j : SlotId, j ≠ i → t.pool[j] = s.pool[j]) ∧ t.ports = (s.answered p tag .ok (byte1 0)).ports ∧
        ((s.entry .doorDrive).lease = .releasing → s.keepsBut t [.pool, .ports]) ∧
        ((s.entry .doorDrive).lease = .held → (t.entry .doorDrive).lease = .releasing ∧
          (t.entry .doorDrive).holder = (s.entry .doorDrive).holder ∧ t.door.rod = { s.door.rod with
            state := if s.door.rod.state = .extending ∨ s.door.rod.state = .extended then .retracting else s.door.rod.state
            retract := some (.lease, Timer.zero), retEdge := false, extEdge := false } ∧
          t.drive = { s.drive with doorRamp := Ramp.zero, rodExtend := false } ∧ t.door.door = s.door.door ∧
          s.keepsEntriesBut t [.doorDrive] ∧ s.keepsBut t [.arb, .pool, .ports, .drive, .door]))

/-- CANCEL of every kind of operation. -/
def Obligations.CancelEndsTheOperation : Prop :=
  Clauses.CancelEndsAtOnce ∧ Clauses.CancelWindsDown

/-- SUBSCRIBE (R197): BAD_PARAM outside 0..5 or an enable other than 0 and 1, else the slot is rewritten and its held report
discarded, in either mode. -/
def Obligations.SubscribeRewritesTheSlot : Prop :=
  ∀ (s : State) (p : Port) (tag slot filter mask enable : Nat), s.hears p tag →
    ((6 ≤ slot ∨ 1 < enable) → exec (.subscribe p tag slot filter mask enable) s = .next (s.answered p tag .badParam [])) ∧
    ∀ k : SubId, slot = k.val → enable ≤ 1 →
      ∃ t, exec (.subscribe p tag slot filter mask enable) s = .next t ∧ s.keepsBut t [.ports] ∧
        (∀ j : SubId, (t.port p).subs[j] = if j = k
          then { filter := BitVec.ofNat 8 filter, mask := BitVec.ofNat 8 mask, enable := decide (enable = 1), held := none,
                 overrun := false }
          else (s.port p).subs[j]) ∧
        s.responds t p [immResponse tag .ok (flagByte (s.port p).subs[k].held.isSome)] ∧
        ((t.port p).attention = true ↔ ∃ j : SubId, (t.port p).subs[j].held ≠ none) ∧
        (t.port p).rx = .synced ∧ (t.port p).resetPending = false ∧ ∀ q, q ≠ p → t.port q = s.port q

/-- FETCH_EVENTS (R196): every HELD slot is returned in slot order and emptied, its overrun flag cleared, and the attention
line deasserted. -/
def Obligations.FetchEventsEmptiesTheSlots : Prop :=
  ∀ (s : State) (p : Port) (tag : Nat), s.hears p tag →
    ∃ t, exec (.fetchEvents p tag) s = .next t ∧ s.keepsBut t [.ports] ∧
      (∀ k : SubId, (t.port p).subs[k] = if (s.port p).subs[k].held = none then (s.port p).subs[k]
        else { (s.port p).subs[k] with held := none, overrun := false }) ∧
      (t.port p).attention = false ∧
      s.responds t p [immResponse tag .ok (byte1 (s.port p).heldEntries.length ++ (s.port p).heldEntries.flatten)] ∧
      (s.port p).heldEntries = (List.finRange 6).filterMap (fun k => (s.port p).subs[k].held.map fun r =>
        byte1 k.val ++ flagByte (s.port p).subs[k].overrun ++ [r.code] ++ byte1 r.subject ++ byte2 r.value ++
          byte4 r.time) ∧
      (t.port p).rx = .synced ∧ (t.port p).resetPending = false ∧ ∀ q, q ≠ p → t.port q = s.port q

/-! ### The configuration, the accounts and the part mode -/

/-- Each item of R189 that takes a number, by its code and index: CONFIG_READ gives its value in 2 bytes (notes/assumptions/12.md);
CONFIG_WRITE is WRONG_MODE in RUN for one that is not live, BAD_PARAM outside its range, and else the item alone takes the value. Any
other code or index is BAD_PARAM. -/
def Sys2Proof.Clauses.ConfigItems : Prop :=
  ∀ (s : State) (p : Port) (tag : Nat), s.hears p tag →
    (∀ x ∈ s.cfg.itemRows,
      exec (.configRead p tag x.code x.index) s = .next (s.answered p tag .ok (byte2 x.value)) ∧
      ∀ v, v < 65536 →
        (s.mode = .run → x.live = false →
          exec (.configWrite p tag x.code x.index (.value v)) s = .next (s.answered p tag .wrongMode [])) ∧
        ((s.mode = .setup ∨ x.live = true) →
          ((v < x.low ∨ x.high < v) →
            exec (.configWrite p tag x.code x.index (.value v)) s = .next (s.answered p tag .badParam [])) ∧
          (x.low ≤ v → v ≤ x.high → ∃ t more, exec (.configWrite p tag x.code x.index (.value v)) s = .next t ∧
            t.cfg.itemRows = s.cfg.itemRows.map (fun y =>
              if y.code = x.code ∧ y.index = x.index then { y with value := v } else y) ∧
            t.cfg.hardnessTable = s.cfg.hardnessTable ∧ t.cfg.factorTable = s.cfg.factorTable ∧
            s.responds t p (more ++ [immResponse tag .ok []]) ∧ t.mode = s.mode))) ∧
    (∀ item index, (∀ x ∈ s.cfg.itemRows, ¬(x.code = item ∧ x.index = index)) → ¬(index = 0 ∧ (item = 0x22 ∨ item = 0x23)) →
      exec (.configRead p tag item index) s = .next (s.answered p tag .badParam []) ∧
      ∀ v, ConfigPayload.wf item v = true → exec (.configWrite p tag item index v) s = .next (s.answered p tag .badParam []))

/-- The two band tables, in either mode: CONFIG_READ gives the eight bands; CONFIG_WRITE of one that breaks its condition or holds a
value out of range (R88) is BAD_PARAM, and else the table alone takes the bands. -/
def Sys2Proof.Clauses.ConfigBands : Prop :=
  ∀ (s : State) (p : Port) (tag : Nat), s.hears p tag →
    exec (.configRead p tag 0x22 0) s = .next (s.answered p tag .ok
      (s.cfg.hardnessTable.flatMap fun b => byte2 b.1 ++ byte1 b.2)) ∧
    exec (.configRead p tag 0x23 0) s = .next (s.answered p tag .ok
      (s.cfg.factorTable.flatMap fun b => byte1 b.1 ++ byte1 b.2)) ∧
    (∀ bs, ConfigPayload.wf 0x22 (.hardnessBands bs) = true →
      (hardnessBandsOk bs → exec (.configWrite p tag 0x22 0 (.hardnessBands bs)) s =
        .next (({ s with cfg := { s.cfg with hardnessTable := bs } } : State).answered p tag .ok [])) ∧
      (¬hardnessBandsOk bs → exec (.configWrite p tag 0x22 0 (.hardnessBands bs)) s =
        .next (s.answered p tag .badParam []))) ∧
    ∀ bs, ConfigPayload.wf 0x23 (.factorBands bs) = true →
      (factorBandsOk bs → exec (.configWrite p tag 0x23 0 (.factorBands bs)) s =
        .next (({ s with cfg := { s.cfg with factorTable := bs } } : State).answered p tag .ok [])) ∧
      (¬factorBandsOk bs → exec (.configWrite p tag 0x23 0 (.factorBands bs)) s = .next (s.answered p tag .badParam []))

/-- What a write does beyond the item, in a part at rest: CAP_RATED, RES_FULL and SALT_FULL lower what stands above them; HARDNESS_SET
and HARDNESS_SOURCE set a CONFIGURED hardness, HARDNESS_CHANGED posted where it differs; PUBLISH_EVERY lowers the rounds to publish;
PUSH_MAX is staged while the rod is EXTENDING; the other items but EXHAUST_POLICY and AUTO_REGEN do nothing. -/
def Sys2Proof.Clauses.ConfigWriteActs : Prop :=
  ∀ (s : State) (p : Port) (tag v : Nat), s.hears p tag → s.atRest →
    (∀ x ∈ s.cfg.itemRows, x.code ∉ [0x10, 0x11, 0x12, 0x13, 0x20, 0x21, 0x24, 0x27, 0x39, 0x41] →
      (s.mode = .setup ∨ x.live = true) → x.low ≤ v → v ≤ x.high →
      ∃ t, exec (.configWrite p tag x.code x.index (.value v)) s = .next t ∧ t.ports = (s.answered p tag .ok []).ports ∧
        s.keepsBut t [.cfg, .ports]) ∧
    (s.mode = .setup → 1000 ≤ v → v ≤ 65535 → ∀ c : Column, ∃ t,
      exec (.configWrite p tag (0x10 + columnCode c) 0 (.value v)) s = .next t ∧
      t.column c = { s.column c with remaining := min (s.column c).remaining v } ∧
      t.column (Column.other c) = s.column (Column.other c) ∧ t.soft.queue = s.soft.queue ∧ t.soft.regen = s.soft.regen ∧
      t.soft.saltWait = s.soft.saltWait ∧ t.ports = (s.answered p tag .ok []).ports ∧ s.keepsBut t [.soft, .cfg, .ports]) ∧
    (s.mode = .setup → 100 ≤ v → v ≤ 20000 → ∀ n : ReservoirId, ∃ t,
      exec (.configWrite p tag 0x24 (n.val + 1) (.value v)) s = .next t ∧
      (∀ m : ReservoirId, t.acct.reservoirs[m] = if m = n
        then { s.acct.reservoirs[n] with amount := min s.acct.reservoirs[n].amount v } else s.acct.reservoirs[m]) ∧
      t.acct = { s.acct with reservoirs := t.acct.reservoirs } ∧ t.ports = (s.answered p tag .ok []).ports ∧
      s.keepsBut t [.acct, .cfg, .ports]) ∧
    (s.mode = .setup → 100 ≤ v → v ≤ 4000 → ∃ t, exec (.configWrite p tag 0x27 0 (.value v)) s = .next t ∧
      t.acct = { s.acct with salt := { s.acct.salt with amount := min s.acct.salt.amount v } } ∧
      t.soft = { s.soft with saltWait := s.soft.saltWait && decide (s.acct.salt.amount ≤ v) } ∧
      t.ports = (s.answered p tag .ok []).ports ∧ s.keepsBut t [.acct, .soft, .cfg, .ports]) ∧
    (∀ (item h : Nat), (item = 0x21 ∧ v ≤ 100 ∧ h = v ∧ s.cfg.hardnessSensed = false) ∨
        (item = 0x20 ∧ v = 0 ∧ h = s.cfg.hardnessSet) →
      ∃ t, exec (.configWrite p tag item 0 (.value v)) s = .next t ∧
        t.acct = { s.acct with hardness := h, sensed := false } ∧
        t.ports = ((if s.acct.hardness = h then s else s.post .hardnessChanged 0 h).answered p tag .ok []).ports ∧
        s.keepsBut t [.acct, .cfg, .ports]) ∧
    (∀ item : Nat, (item = 0x21 ∧ v ≤ 100 ∧ s.cfg.hardnessSensed = true) ∨ (item = 0x20 ∧ v = 1) →
      ∃ t, exec (.configWrite p tag item 0 (.value v)) s = .next t ∧ t.ports = (s.answered p tag .ok []).ports ∧
        s.keepsBut t [.cfg, .ports]) ∧
    (1 ≤ v → v ≤ 16 → ∃ t, exec (.configWrite p tag 0x39 0 (.value v)) s = .next t ∧
      (∀ g, t.group g = { s.group g with roundsToPublish := min (s.group g).roundsToPublish v }) ∧
      t.sense.points = s.sense.points ∧ t.sense.mode = s.sense.mode ∧ t.ports = (s.answered p tag .ok []).ports ∧
      s.keepsBut t [.sense, .cfg, .ports]) ∧
    (v ≤ 255 → ∃ t, exec (.configWrite p tag 0x41 0 (.value v)) s = .next t ∧
      t.drive = (if s.door.rod.state = .extending
        then { s.drive with door := { s.drive.door with staged := v, applyPending := true } } else s.drive) ∧
      t.ports = (s.answered p tag .ok []).ports ∧ s.keepsBut t [.drive, .cfg, .ports])

/-- AUTO_REGEN off takes the REGEN entries from the queue; on, each EXHAUSTED column without one joins the tail, A before B, and the
queue is judged for its head (notes/assumptions/42.md). EXHAUST_POLICY judges the FILLs: with none nothing follows, and under BYPASS
the one that waits for soft water is granted SELECTOR at an EXHAUSTED column. -/
def Sys2Proof.Clauses.ConfigWriteQueues : Prop :=
  ∀ (s : State) (p : Port) (tag : Nat), s.hears p tag →
    (∃ t, exec (.configWrite p tag 0x13 0 (.value 0)) s = .next t ∧
      t.soft = { s.soft with queue := s.soft.queue.filter fun q => q.requester.isSome } ∧
      t.ports = (s.answered p tag .ok []).ports ∧ s.keepsBut t [.soft, .cfg, .ports]) ∧
    (s.atRest → ∃ u w, exec (.configWrite p tag 0x13 0 (.value 1)) s = .next (w.reply p tag .ok []) ∧ u.headJudged w ∧
      u.soft = { s.soft with queue := s.soft.queue ++ ([Column.a, .b].filter fun c => (s.column c).state == .exhausted &&
        s.soft.queue.all (fun q => q.column != c) && !s.regenOf c).map fun c => ⟨c, none, s.drive.clock⟩ } ∧
      u.ports = (s.setRx p .synced).ports ∧ u.cfg.autoRegen = true ∧ s.keepsBut u [.soft, .cfg, .ports]) ∧
    (∀ v, v ≤ 1 → s.atRest → (∀ i, s.fillAt i = none) → ∃ t, exec (.configWrite p tag 0x12 0 (.value v)) s = .next t ∧
      t.ports = (s.answered p tag .ok []).ports ∧ s.keepsBut t [.cfg, .ports]) ∧
    (∀ (i : SlotId) (sl : Slot) (w : FillWork), s.pool[i] = some sl → sl.work = .fill w → sl.outcome = none →
      w.waitSoft = true → (∀ j, j ≠ i → s.fillAt j = none) → s.inService = none → (∃ d, (s.column d).state = .exhausted) →
      s.atRest → s.vacant → (∀ g, s.soft.regen = some g → regenWho g ≠ ⟨.port sl.port, some i⟩) →
      s.water.tank < s.cfg.tankLimit → ∃ t c, exec (.configWrite p tag 0x12 0 (.value 1)) s = .next t ∧
        (s.column c).state = .exhausted ∧ (∀ d, s.arb.selCurrent = some d → (s.column d).state = .exhausted → c = d) ∧
        t.pool[i] = some { sl with work := .fill { w with
          waitSoft := false, noFlow := if (t.entry .inlet).lease = .held then Timer.zero else w.noFlow } } ∧
        t.entry .selector = s.cfg.grantRecord s.drive.clock ⟨.port sl.port, some i⟩ (some sl.port)
          (if s.arb.selCurrent = some c then .held else .moving) (s.entry .selector) ∧ t.arb.selHeld = c ∧
        (∀ j : SlotId, j ≠ i → t.pool[j] = s.pool[j]) ∧ s.keepsEntriesBut t [.selector, .inlet] ∧
        t.ports = (s.answered p tag .ok []).ports ∧ s.keepsBut t [.arb, .pool, .drive, .cfg, .ports])

/-- CONFIG_WRITE and CONFIG_READ. -/
def Obligations.ConfigWritten : Prop :=
  Clauses.ConfigItems ∧ Clauses.ConfigBands ∧ Clauses.ConfigWriteActs ∧ Clauses.ConfigWriteQueues

/-- ACCOUNT_LOAD: WRONG_MODE in RUN; in SETUP a reservoir, the salt or a column takes the values of its range, and any other
target or value is BAD_PARAM. -/
def Obligations.AccountsLoaded : Prop :=
  ∀ (s : State) (p : Port) (tag target amount st : Nat), s.hears p tag →
    (s.mode = .run → exec (.accountLoad p tag target amount st) s = .next (s.answered p tag .wrongMode [])) ∧
    (s.mode = .setup → 5 < target → exec (.accountLoad p tag target amount st) s = .next (s.answered p tag .badParam [])) ∧
    (s.mode = .setup → ∀ n : ReservoirId, target = n.val →
      (s.cfg.resFull[n] < amount → exec (.accountLoad p tag target amount st) s = .next (s.answered p tag .badParam [])) ∧
      (amount ≤ s.cfg.resFull[n] → ∃ t, exec (.accountLoad p tag target amount st) s = .next t ∧
        (∀ m : ReservoirId, t.acct.reservoirs[m] =
          if m = n then { s.acct.reservoirs[n] with amount := amount, known := true } else s.acct.reservoirs[m]) ∧
        t.acct.salt = s.acct.salt ∧ s.keepsBut t [.acct, .ports] ∧ t.port p = (s.answered p tag .ok []).port p)) ∧
    (s.mode = .setup → target = 3 →
      (s.cfg.saltFull < amount → exec (.accountLoad p tag target amount st) s = .next (s.answered p tag .badParam [])) ∧
      (amount ≤ s.cfg.saltFull → ∃ t, exec (.accountLoad p tag target amount st) s = .next t ∧
        t.acct = { s.acct with salt := { s.acct.salt with amount := amount, known := true } } ∧
        t.soft.colA = s.soft.colA ∧ t.soft.colB = s.soft.colB ∧ t.soft.queue = s.soft.queue ∧
        s.keepsBut t [.acct, .soft, .ports] ∧ t.port p = (s.answered p tag .ok []).port p)) ∧
    (s.mode = .setup → (target = 4 ∨ target = 5) → 3 ≤ st →
      exec (.accountLoad p tag target amount st) s = .next (s.answered p tag .badParam [])) ∧
    (s.mode = .setup → ∀ c : Column, target = 4 + columnCode c → ∀ x : ColumnState,
      loadedState st = some x →
      (amount ≤ s.rated c ∧ (x = .inService → (s.column (Column.other c)).state ≠ .inService) ∧
          (x = .exhausted → amount = 0) →
        ∃ t, exec (.accountLoad p tag target amount st) s = .next t ∧
          (t.column c).state = x ∧ (t.column c).remaining = amount ∧ (t.column c).count = (s.column c).count ∧
          (t.column c).last = (s.column c).last ∧ t.column (Column.other c) = s.column (Column.other c) ∧
          s.keepsBut t [.soft, .ports] ∧ t.port p = (s.answered p tag .ok []).port p) ∧
      (¬(amount ≤ s.rated c ∧ (x = .inService → (s.column (Column.other c)).state ≠ .inService) ∧
          (x = .exhausted → amount = 0)) →
        exec (.accountLoad p tag target amount st) s = .next (s.answered p tag .badParam [])))

/-- COMMIT: STATE in RUN; in SETUP the first failing check of R187 is answered BAD_CONFIG with its item (of several the first in its
list: notes/assumptions/46.md) and nothing changes; where none of its five checks fails RUN, with a STANDBY column put in service where
none is, every EXHAUSTED column queued under AUTO_REGEN, the level flags cleared whose roles no point holds, the head of the queue
taken, which asks for SELECTOR, and no event posted. A FREE SELECTOR is granted to it by the REGEN_HEAD_TAKEN after it (in which step:
notes/assumptions/37.md). -/
def Obligations.CommitJudged : Prop :=
  ∀ (s : State) (p : Port) (tag : Nat), s.hears p tag →
    (s.mode = .run → exec (.commit p tag) s = .next (s.answered p tag .state [])) ∧
    (s.mode = .setup → ∀ check item, s.failsFirst check item →
      exec (.commit p tag) s = .next (s.answered p tag .badConfig (byte1 check ++ byte1 item))) ∧
    (s.mode = .setup → (∀ check item, ¬s.fails check item) → ∃ t, exec (.commit p tag) s = .next t ∧ t.mode = .run ∧
      t.ports = (s.answered p tag .ok []).ports ∧
      (∀ c, t.column c = if s.inService = none ∧ (s.column c).state = .standby ∧
          ((s.column (Column.other c)).state = .standby → (s.column (Column.other c)).remaining < (s.column c).remaining ∨
            (c = .a ∧ (s.column (Column.other c)).remaining = (s.column c).remaining))
        then { s.column c with state := .inService } else s.column c) ∧
      (s.cfg.autoRegen = false → s.soft.queue = [] → t.soft.queue = [] ∧ t.soft.regen = s.soft.regen) ∧
      (s.cfg.autoRegen = true → ∀ c, (s.column c).state = .exhausted → s.regenOf c = false →
        (∃ q ∈ t.soft.queue, q.column = c) ∨ t.regenOf c = true) ∧
      (s.soft.queue = [] → s.soft.regen = none → s.latched = false → s.cfg.autoRegen = true →
        (∃ c, (s.column c).state = .exhausted) →
        ((s.acct.salt.known = true ∧ s.acct.salt.amount = 0) → t.soft.regen = none ∧ t.arb = s.arb) ∧
        (¬(s.acct.salt.known = true ∧ s.acct.salt.amount = 0) → ∃ g, t.soft.regen = some g ∧ g.phase = .starting ∧
          g.requester = none ∧ (s.column g.column).state = .exhausted ∧ (∀ q ∈ t.soft.queue, q.column ≠ g.column) ∧
          (g.column = .b → (s.column .a).state ≠ .exhausted) ∧
          (∃ w, (t.entry .selector).waiters = (s.entry .selector).waiters ++ [w] ∧ w.who = ⟨.regen, none⟩ ∧
            w.want = some g.column) ∧
          (s.atRest → (s.entry .selector).lease = .free → (∀ i, s.fillAt i = none) → ∃ v, exec .regenHeadTaken t = .next v ∧
            v.entry .selector = s.cfg.grantRecord s.drive.clock ⟨.regen, none⟩ none
              (if s.arb.selCurrent = some g.column then .held else .moving) (s.entry .selector) ∧
            v.arb.selHeld = g.column ∧ (v.column g.column).state = .regenerating ∧ (v.column g.column).remaining = 0))) ∧
      (∀ n : ReservoirId, t.acct.reservoirs[n] = { s.acct.reservoirs[n] with
        low := s.acct.reservoirs[n].low && decide (∃ m, (s.point m).role = .low n)
        empty := s.acct.reservoirs[n].empty && decide (∃ m, (s.point m).role = .empty n) }) ∧
      t.acct = { s.acct with
        reservoirs := t.acct.reservoirs
        salt := { s.acct.salt with low := s.acct.salt.low && decide (∃ m, (s.point m).role = .saltLow) } } ∧
      (∀ r, (t.entry r).lease = (s.entry r).lease ∧ (t.entry r).holder = (s.entry r).holder) ∧
      t.arb.selHeld = s.arb.selHeld ∧ t.arb.selCurrent = s.arb.selCurrent ∧
      s.keepsEntriesBut t [.selector] ∧ s.keepsBut t [.arb, .mode, .soft, .acct, .ports])

/-- ENTER_SETUP (R188): OK and no change in SETUP; in RUN taken only where no slot is occupied, no resource has a holder, no
regeneration is in progress and every channel is IDLE, and then the queue is emptied; else BUSY. -/
def Obligations.EnterSetupOnlyWhenQuiet : Prop :=
  ∀ (s : State) (p : Port) (tag : Nat), s.hears p tag →
    (s.mode = .setup → exec (.enterSetup p tag) s = .next (s.answered p tag .ok [])) ∧
    (s.mode = .run →
      (((∀ i : SlotId, s.pool[i] = none) ∧ (∀ r, s.hasHolder r = false) ∧ s.soft.regen = none ∧
          ∀ c, (s.channel c).state = .idle) →
        exec (.enterSetup p tag) s =
          .next (({ s with mode := .setup, soft := { s.soft with queue := [] } } : State).answered p tag .ok [])) ∧
      (¬((∀ i : SlotId, s.pool[i] = none) ∧ (∀ r, s.hasHolder r = false) ∧ s.soft.regen = none ∧
          ∀ c, (s.channel c).state = .idle) →
        exec (.enterSetup p tag) s = .next (s.answered p tag .busy [])))

/-! ### The washing operations (chapter 2) -/

/-- A FILL taken up with everything FREE, the door CLOSED and a column in service is granted SELECTOR at that column, HELD where
the selector stands there and MOVING otherwise; HELD, it is granted INLET in the same step. Each grant writes the holder with its
port, the grant time and the round-robin position of the holder's ring. It stands in the lowest free slot
(notes/assumptions/18.md). -/
def Obligations.FillStarts : Prop :=
  ∀ (s : State) (p : Port) (tag volume : Nat) (i : SlotId) (c : Column), s.accepts p tag i → s.latched = false →
    s.vacant → s.water.interlock = false → s.doorClosed = true → 1 ≤ volume → volume ≤ 100 → s.inService = some c →
    s.water.tank < s.cfg.tankLimit → (∀ g, s.soft.regen = some g → g.requester ≠ some (p, i)) →
    ∃ t, exec (.fill p tag volume) s = .next t ∧
      (∀ j : SlotId, t.pool[j] = if j = i then some ⟨p, tag, .fill (freshFill volume), s.accepted, s.laps, none⟩ else s.pool[j]) ∧
      t.entry .selector = s.cfg.grantRecord s.drive.clock ⟨.port p, some i⟩ (some p)
        (if s.arb.selCurrent = some c then .held else .moving) (s.entry .selector) ∧ t.arb.selHeld = c ∧
      (s.arb.selCurrent = some c → t.arb.selCurrent = some c ∧ t.entry .inlet =
        s.cfg.grantRecord s.drive.clock ⟨.port p, some i⟩ (some p) .held (s.entry .inlet) ∧ t.drive = s.drive) ∧
      (s.arb.selCurrent ≠ some c → t.arb.selCurrent = none ∧ t.entry .inlet = s.entry .inlet ∧
        t.drive = { s.drive with travel := some Timer.zero, travelReading := none }) ∧
      s.keepsEntriesBut t [.selector, .inlet] ∧ t.ports = (s.setRx p .synced).ports ∧
      s.keepsBut t [.arb, .pool, .accepted, .ports, .drive]

/-- A CIRCULATE taken up with everything FREE and the door CLOSED is granted CIRC, its duty the active setting, and the heater
interlock is judged afresh. -/
def Sys2Proof.Clauses.CirculateStarts : Prop :=
  ∀ (s : State) (p : Port) (tag duty runTime : Nat) (i : SlotId), s.accepts p tag i → s.latched = false → s.vacant →
    s.water.interlock = false → s.doorClosed = true → 1 ≤ duty → duty ≤ 255 → 1 ≤ runTime → runTime ≤ 7200 →
    ∃ t, exec (.circulate p tag duty runTime) s = .next t ∧
      (∀ j : SlotId, t.pool[j] = if j = i then some ⟨p, tag, .circulate ⟨duty, runTime, Timer.zero, false⟩, s.accepted, s.laps, none⟩
        else s.pool[j]) ∧
      t.entry .circ = s.cfg.grantRecord s.drive.clock ⟨.port p, some i⟩ (some p) .held (s.entry .circ) ∧
      t.drive = { s.drive with circ := ⟨duty, 0, false⟩ } ∧
      t.water = { s.water with interlock := s.waterPresent && s.water.probeValid } ∧
      s.keepsEntriesBut t [.circ] ∧ t.ports = (s.setRx p .synced).ports ∧
      s.keepsBut t [.arb, .pool, .accepted, .ports, .drive, .water]

/-- A HEAT taken up with everything FREE is granted HEATER, whose lease is SUSPENDED before the relay is switched on, since
CIRC is not HELD; its limit runs from that grant. -/
def Sys2Proof.Clauses.HeatStartsSuspended : Prop :=
  ∀ (s : State) (p : Port) (tag target limit : Nat) (i : SlotId), s.accepts p tag i → s.latched = false → s.vacant →
    s.water.interlock = false → s.doorClosed = true → 200 ≤ target → target ≤ 750 → 60 ≤ limit → limit ≤ 7200 →
    ¬(s.water.probeValid = true ∧ target ≤ s.water.temperature) →
    ∃ t, exec (.heat p tag target limit) s = .next t ∧
      (∀ j : SlotId, t.pool[j] = if j = i then some ⟨p, tag, .heat ⟨target, limit, Timer.zero, true⟩, s.accepted, s.laps, none⟩
        else s.pool[j]) ∧
      t.entry .heater = s.cfg.grantRecord s.drive.clock ⟨.port p, some i⟩ (some p) .suspended (s.entry .heater) ∧
      s.keepsEntriesBut t [.heater] ∧ t.ports = (s.setRx p .synced).ports ∧
      s.keepsBut t [.arb, .pool, .accepted, .ports]

/-- A HEAT taken up with everything FREE and its target already reached is granted HEATER and DONE in the same step: HEATER is FREE
again, HEAT_REACHED and the response are made, and the HEAT_DONE trigger reaches every loaded channel that names it (none of them ARMED
here). -/
def Sys2Proof.Clauses.HeatDoneAtItsGrant : Prop :=
  ∀ (s : State) (p : Port) (tag target limit : Nat) (i : SlotId), s.accepts p tag i → s.latched = false → s.vacant →
    s.water.interlock = false → s.doorClosed = true → 200 ≤ target → target ≤ 750 → 60 ≤ limit → limit ≤ 7200 →
    s.water.probeValid = true → target ≤ s.water.temperature → (∀ c, (s.channel c).state ≠ .armed) →
    ∃ t, exec (.heat p tag target limit) s = .next t ∧
      t.entry .heater = { s.cfg.grantRecord s.drive.clock ⟨.port p, some i⟩ (some p) .free (s.entry .heater) with
        holder := none, holderPort := none, lastRelease := none } ∧
      t.ports = (((s.setRx p .synced).post .heatReached (portCode p) s.water.temperature).send p (opResponse tag .done [])).ports ∧
      (∀ c, t.channel c = if (s.channel c).state ≠ .idle ∧ sourceOf (s.currentDesc (s.channel c)).source = some .heatDone
        then { s.channel c with flag := true } else s.channel c) ∧ t.dose.descs = s.dose.descs ∧
      s.keepsEntriesBut t [.heater] ∧ s.keepsBut t [.arb, .accepted, .ports, .dose]

/-- A DRAIN taken up with everything FREE and the tank not read empty is granted DRAIN, trip or no trip; the switching of the
pump marks every measurement in progress. -/
def Sys2Proof.Clauses.DrainStarts : Prop :=
  ∀ (s : State) (p : Port) (tag : Nat) (i : SlotId), s.accepts p tag i → s.vacant → s.water.interlock = false →
    s.waterAbsent = false → ∃ t, exec (.drain p tag) s = .next t ∧
      (∀ j : SlotId, t.pool[j] = if j = i then some ⟨p, tag, .drain ⟨Timer.zero, none⟩, s.accepted, s.laps, none⟩ else s.pool[j]) ∧
      t.entry .drain = s.cfg.grantRecord s.drive.clock ⟨.port p, some i⟩ (some p) .held (s.entry .drain) ∧
      t.outputOn .drain = true ∧
      (∀ (g : GroupId) (m : Measurement), (s.group g).measuring = some m →
        (t.group g).measuring = some { m with disturbed := true }) ∧
      t.sense.points = s.sense.points ∧ t.sense.mode = s.sense.mode ∧
      s.keepsEntriesBut t [.drain] ∧ t.ports = (s.setRx p .synced).ports ∧
      s.keepsBut t [.arb, .pool, .accepted, .ports, .sense]

/-- CIRCULATE, HEAT and DRAIN taken up with everything FREE, each in the lowest free slot (notes/assumptions/18.md); the grant writes
the holder with its port, the grant time and the round-robin position. -/
def Obligations.WashOperationsStart : Prop :=
  Clauses.CirculateStarts ∧ Clauses.HeatStartsSuspended ∧ Clauses.HeatDoneAtItsGrant ∧ Clauses.DrainStarts

/-- CIRC_SPEED: BAD_PARAM out of 1..255, STATE where the tag names no CIRCULATE of the port that holds CIRC, else the duty is
staged. -/
def Obligations.CircSpeedStaged : Prop :=
  ∀ (s : State) (p : Port) (tag circTag duty : Nat), s.hears p tag →
    ((duty < 1 ∨ 255 < duty) → exec (.circSpeed p tag circTag duty) s = .next (s.answered p tag .badParam [])) ∧
    (1 ≤ duty → duty ≤ 255 → s.circHeldBy p circTag = false →
      exec (.circSpeed p tag circTag duty) s = .next (s.answered p tag .state [])) ∧
    (1 ≤ duty → duty ≤ 255 → s.circHeldBy p circTag = true →
      exec (.circSpeed p tag circTag duty) s =
        .next (({ s with drive := { s.drive with circ := ⟨s.drive.circ.active, duty, true⟩ } } : State).answered p tag
          .ok []))

/-- A pulse while INLET is not HELD is counted apart, and the count that reaches FLOW_PULSES_PER_DL returns to 0 with the
fault FLOW_WHILE_CLOSED; no tank account, column or draw record changes. -/
def Obligations.ClosedFlowCountedApart : Prop :=
  ∀ s : State, (s.entry .inlet).lease ≠ .held → s.atRest →
    (s.water.closedFlow + 1 < s.cfg.flowPulsesPerDl →
      exec .flowPulse s = .next { s with water := { s.water with closedFlow := s.water.closedFlow + 1 } }) ∧
    (s.cfg.flowPulsesPerDl ≤ s.water.closedFlow + 1 →
      exec .flowPulse s = .next
        (({ s with water := { s.water with closedFlow := 0, closedTally := min 65535 (s.water.closedTally + 1) } } :
          State).fault .flowWhileClosed 0 (min 65535 (s.water.closedTally + 1))))

/-- The pulses of the FILL that holds INLET: one that completes no decilitre is counted and restarts the no-flow time; one that
does (DECILITRE_COUNTED is the same step: notes/assumptions/8.md) is charged to the column in service at the selector's position,
raises the tank account and, the last of the FILL, ends it DONE, or, reaching TANK_LIMIT before that, LIMIT. -/
def Sys2Proof.Clauses.FillPulsesCounted : Prop :=
  ∀ (s : State) (i : SlotId) (sl : Slot) (w : FillWork), s.pool[i] = some sl → sl.work = .fill w → sl.outcome = none →
    (s.entry .inlet).lease = .held → (s.entry .inlet).holder = some ⟨.port sl.port, some i⟩ → s.atRest →
    (w.pulses + 1 < s.cfg.flowPulsesPerDl → exec .flowPulse s = .next
      (s.setSlot i (some { sl with work := .fill { w with pulses := w.pulses + 1, noFlow := Timer.zero } }))) ∧
    (s.cfg.flowPulsesPerDl ≤ w.pulses + 1 → s.pathHeld → s.inService = some s.arb.selHeld →
      s.acct.hardness < (s.column s.arb.selHeld).remaining → (∀ c, (s.column c).breakthrough ≠ some i) →
      (∀ c, (s.channel c).state = .idle) → (∀ r, s.holds ⟨.port sl.port, some i⟩ r = true → r = .inlet ∨ r = .selector) →
      ∀ x : FillWork, x = { w with
          counted := w.counted + 1, pulses := 0, lastHardness := s.acct.hardness, noFlow := Timer.zero
          softA := if s.arb.selHeld = .a then w.softA + 1 else w.softA
          softB := if s.arb.selHeld = .b then w.softB + 1 else w.softB } →
      ∃ t, exec .decilitreCounted s = .next t ∧ exec .flowPulse s = .next t ∧
        t.water = { s.water with tank := min 255 (s.water.tank + 1) } ∧
        t.column s.arb.selHeld = { s.column s.arb.selHeld with
          remaining := (s.column s.arb.selHeld).remaining - s.acct.hardness } ∧
        t.column (Column.other s.arb.selHeld) = s.column (Column.other s.arb.selHeld) ∧
        (w.counted + 1 ≠ w.requested → min 255 (s.water.tank + 1) < s.cfg.tankLimit →
          t.pool[i] = some { sl with work := .fill x } ∧ (∀ j : SlotId, j ≠ i → t.pool[j] = s.pool[j]) ∧
          s.keepsBut t [.pool, .water, .soft]) ∧
        (∀ o, (w.counted + 1 = w.requested ∧ o = .done) ∨
            (w.counted + 1 ≠ w.requested ∧ s.cfg.tankLimit ≤ min 255 (s.water.tank + 1) ∧ o = .limit) →
          s.fillEnded t i sl x o ∧ s.keepsBut t [.arb, .pool, .water, .soft, .acct, .ports, .drive]))

/-- The decilitre that exhausts its column, by count or by the breakthrough marked for its FILL: the column is EXHAUSTED with nothing
left and joins the queue under AUTO_REGEN, a STANDBY column comes into service, COLUMN_EXHAUSTED (0 by count, 1 by breakthrough) and
COLUMN_IN_SERVICE are posted. The FILL ends DONE or LIMIT, or lets INLET go and moves its SELECTOR to the new column; with no column
in service it flows on as bypass, or under HOLD waits for soft water. (Nobody else works here, and the head is not taken. With the
salt out it begins its wait: notes/assumptions/42.md. The mark is that of this FILL: 16.md.) -/
def Sys2Proof.Clauses.FillExhaustsColumn : Prop :=
  ∀ (s : State) (i : SlotId) (sl : Slot) (w : FillWork) (c : Column), s.pool[i] = some sl → sl.work = .fill w →
    sl.outcome = none → (s.entry .inlet).lease = .held → (s.entry .inlet).holder = some ⟨.port sl.port, some i⟩ →
    (s.entry .selector).lease = .held → (s.entry .selector).holder = some ⟨.port sl.port, some i⟩ → s.atRest →
    s.arb.selHeld = c → s.arb.selCurrent = some c → s.cfg.flowPulsesPerDl ≤ w.pulses + 1 → (s.column c).state = .inService →
    (s.column (Column.other c)).state ≠ .inService → (s.column (Column.other c)).breakthrough ≠ some i →
    ((s.column c).remaining ≤ s.acct.hardness ∨ (s.column c).breakthrough = some i) →
    (∀ k, (s.channel k).state = .idle) → (∀ r, s.holds ⟨.port sl.port, some i⟩ r = true → r = .inlet ∨ r = .selector) →
    (∀ j, j ≠ i → s.fillAt j = none) →
    (s.mode = .setup ∨ s.soft.regen ≠ none ∨ s.latched = true ∨ (s.acct.salt.known = true ∧ s.acct.salt.amount = 0) ∨
      (s.cfg.autoRegen = false ∧ s.soft.queue = [])) →
    ∀ x : FillWork, x = { w with
        counted := w.counted + 1, pulses := 0, lastHardness := s.acct.hardness, noFlow := Timer.zero
        softA := if c = .a then w.softA + 1 else w.softA, softB := if c = .b then w.softB + 1 else w.softB } →
    ∃ t, exec .decilitreCounted s = .next t ∧ exec .flowPulse s = .next t ∧
      t.water = { s.water with tank := min 255 (s.water.tank + 1) } ∧
      t.column c = { s.column c with state := .exhausted, remaining := 0, breakthrough := none } ∧
      t.column (Column.other c) = { s.column (Column.other c) with
        state := if (s.column (Column.other c)).state = .standby then .inService else (s.column (Column.other c)).state } ∧
      t.soft.regen = s.soft.regen ∧
      t.soft.queue = (if s.cfg.autoRegen = true ∧ (∀ q ∈ s.soft.queue, q.column ≠ c) ∧ s.regenOf c = false
        then s.soft.queue ++ [⟨c, none, s.drive.clock⟩] else s.soft.queue) ∧
      (∀ u v : State, u = s.post .columnExhausted (columnCode c) (if (s.column c).breakthrough = some i then 1 else 0) →
        v = (if (s.column (Column.other c)).state = .standby
          then u.post .columnInService (columnCode (Column.other c)) (s.column (Column.other c)).remaining else u) →
        (s.mode = .run → s.soft.regen = none → s.latched = false → s.soft.saltWait = false →
          ∀ q, t.soft.queue.head? = some q → t.soft.saltWait = true ∧ ∀ (y : Port) (k : SubId),
            (t.port y).subs[k] = ((v.post .saltNeeded (columnCode q.column) 0).port y).subs[k]) ∧
        (s.mode = .setup ∨ s.soft.regen ≠ none ∨ s.latched = true ∨ s.soft.saltWait = true ∨ t.soft.queue = [] →
          t.soft.saltWait = s.soft.saltWait ∧ ∀ (y : Port) (k : SubId), (t.port y).subs[k] = (v.port y).subs[k])) ∧
      (∀ o, (w.counted + 1 = w.requested ∧ o = .done) ∨
          (w.counted + 1 ≠ w.requested ∧ s.cfg.tankLimit ≤ min 255 (s.water.tank + 1) ∧ o = .limit) →
        s.fillEnded t i sl x o ∧ s.keepsEntriesBut t [.selector, .inlet] ∧
          s.keepsBut t [.arb, .pool, .water, .soft, .acct, .ports, .drive]) ∧
      (w.counted + 1 ≠ w.requested → min 255 (s.water.tank + 1) < s.cfg.tankLimit →
        ((s.column (Column.other c)).state = .standby → t.pool[i] = some { sl with work := .fill x } ∧
          (t.entry .inlet).lease = .free ∧ (t.entry .inlet).holder = none ∧
          t.entry .selector = { s.entry .selector with lease := .moving } ∧ t.arb.selHeld = Column.other c ∧
          t.arb.selCurrent = none ∧ t.drive = { s.drive with travel := some Timer.zero, travelReading := none }) ∧
        ((s.column (Column.other c)).state ≠ .standby → s.cfg.exhaustBypass = true →
          t.pool[i] = some { sl with work := .fill x } ∧ t.arb = s.arb ∧ t.drive = s.drive) ∧
        ((s.column (Column.other c)).state ≠ .standby → s.cfg.exhaustBypass = false →
          t.pool[i] = some { sl with work := .fill { x with waitSoft := true } } ∧
          (t.entry .inlet).lease = .free ∧ (t.entry .selector).lease = .free) ∧
        (∀ j : SlotId, j ≠ i → t.pool[j] = s.pool[j]) ∧ s.keepsEntriesBut t [.selector, .inlet] ∧
        s.keepsBut t [.arb, .pool, .water, .soft, .ports, .drive])

/-- The decilitre that exhausts a column whose regeneration can begin takes the column's entry from the queue, after the reports
(notes/assumptions/42.md), and the regeneration, STARTING, asks for SELECTOR. A FILL that goes on keeps SELECTOR before it; one that
ends or waits passes SELECTOR to it, and it starts. (Nobody else works here, and REGEN is of the NORMAL ring.) -/
def Sys2Proof.Clauses.FillExhaustsHeadTaken : Prop :=
  ∀ (s : State) (i : SlotId) (sl : Slot) (w : FillWork) (c : Column), s.pool[i] = some sl → sl.work = .fill w →
    sl.outcome = none → (s.entry .inlet).lease = .held → (s.entry .inlet).holder = some ⟨.port sl.port, some i⟩ →
    (s.entry .selector).lease = .held → (s.entry .selector).holder = some ⟨.port sl.port, some i⟩ → s.atRest →
    s.arb.selHeld = c → s.arb.selCurrent = some c → s.cfg.flowPulsesPerDl ≤ w.pulses + 1 → (s.column c).state = .inService →
    (s.column (Column.other c)).state ≠ .inService → (s.column (Column.other c)).breakthrough ≠ some i →
    ((s.column c).remaining ≤ s.acct.hardness ∨ (s.column c).breakthrough = some i) →
    (∀ k, (s.channel k).state = .idle) → (∀ r, s.holds ⟨.port sl.port, some i⟩ r = true → r = .inlet ∨ r = .selector) →
    (∀ j, j ≠ i → s.fillAt j = none) →
    s.mode = .run → s.soft.queue = [] → s.soft.regen = none → s.latched = false → s.cfg.autoRegen = true →
    s.cfg.regenUrgent = false → ¬(s.acct.salt.known = true ∧ s.acct.salt.amount = 0) → s.doorClosed = true →
    s.hasHolder .doorDrive = false →
    ∀ (x : FillWork) (v : Waiter) (u : State), x = { w with
        counted := w.counted + 1, pulses := 0, lastHardness := s.acct.hardness, noFlow := Timer.zero
        softA := if c = .a then w.softA + 1 else w.softA, softB := if c = .b then w.softB + 1 else w.softB } →
    v = ⟨⟨.regen, none⟩, 0, some c, false⟩ →
    u = (if (s.column (Column.other c)).state = .standby
      then (s.post .columnExhausted (columnCode c) (if (s.column c).breakthrough = some i then 1 else 0)).post .columnInService
        (columnCode (Column.other c)) (s.column (Column.other c)).remaining
      else s.post .columnExhausted (columnCode c) (if (s.column c).breakthrough = some i then 1 else 0)) →
    ∃ t g, exec .decilitreCounted s = .next t ∧ exec .flowPulse s = .next t ∧
      t.water = { s.water with tank := min 255 (s.water.tank + 1) } ∧
      t.soft.queue = [] ∧ t.soft.regen = some g ∧ g.column = c ∧ g.requester = none ∧
      t.column (Column.other c) = { s.column (Column.other c) with
        state := if (s.column (Column.other c)).state = .standby then .inService else (s.column (Column.other c)).state } ∧
      (∀ j : SlotId, j ≠ i → t.pool[j] = s.pool[j]) ∧
      (w.counted + 1 ≠ w.requested → min 255 (s.water.tank + 1) < s.cfg.tankLimit →
        ((s.column (Column.other c)).state = .standby ∨ s.cfg.exhaustBypass = true) →
        t.pool[i] = some { sl with work := .fill x } ∧ g.phase = .starting ∧
          t.column c = { s.column c with state := .exhausted, remaining := 0, breakthrough := none } ∧
          (∀ (y : Port) (k : SubId), (t.port y).subs[k] = (u.port y).subs[k]) ∧
          ((s.column (Column.other c)).state = .standby → (t.entry .inlet).lease = .free ∧
            t.entry .selector = { s.entry .selector with lease := .moving, waiters := [v] } ∧
            t.arb.selHeld = Column.other c ∧ t.arb.selCurrent = none ∧
            t.drive = { s.drive with travel := some Timer.zero, travelReading := none }) ∧
          ((s.column (Column.other c)).state ≠ .standby → t.entry .inlet = s.entry .inlet ∧
            t.entry .selector = { s.entry .selector with waiters := [v] } ∧ t.arb.selHeld = c ∧
            t.arb.selCurrent = some c ∧ t.drive = s.drive) ∧
          s.keepsEntriesBut t [.selector, .inlet] ∧ s.keepsBut t [.arb, .pool, .water, .soft, .ports, .drive]) ∧
      (∀ o, (w.counted + 1 = w.requested ∧ o = some .done) ∨
          (w.counted + 1 ≠ w.requested ∧ s.cfg.tankLimit ≤ min 255 (s.water.tank + 1) ∧ o = some .limit) ∨
          (w.counted + 1 ≠ w.requested ∧ min 255 (s.water.tank + 1) < s.cfg.tankLimit ∧
            (s.column (Column.other c)).state ≠ .standby ∧ s.cfg.exhaustBypass = false ∧ o = none) →
        s.cfg.passedOn s.drive.clock (s.entry .selector) (t.entry .selector) [v] v none .held
            (some (.port sl.port, s.drive.clock)) ∧ t.arb.selHeld = c ∧ t.arb.selCurrent = some c ∧ g.phase = .brineDraw ∧
          t.column c = { s.column c with state := .regenerating, remaining := 0, breakthrough := none } ∧
          (∀ (y : Port) (k : SubId),
            (t.port y).subs[k] = ((u.post .regenStarted (columnCode c) 3).port y).subs[k]) ∧
          (o = none → t.pool[i] = some { sl with work := .fill { x with waitSoft := true } } ∧ t.acct = s.acct) ∧
          (∀ r, o = some r → t.pool[i] = none ∧ t.acct.log.getLast? =
              some ⟨s.acct.nextDraw, .wash, x.softA, x.softB, x.bypass, x.lastHardness, r, s.drive.clock⟩ ∧
            s.responds t sl.port
              [opResponse sl.tag r (byte1 x.counted ++ byte1 x.softA ++ byte1 x.softB ++ byte1 x.bypass)]) ∧
          s.keepsEntriesBut t [.selector, .brine, .inlet] ∧
          s.keepsBut t [.arb, .pool, .water, .soft, .acct, .ports, .drive])

/-- A FILL that is asked to yield SELECTOR yields it at a decilitre, with INLET, and asks again at the same position: the release is
recorded, and of the waiting FILLs that the hold-off leaves the grant rule takes one, which has SELECTOR and INLET in the same step. -/
def Sys2Proof.Clauses.FillYields : Prop :=
  ∀ (s : State) (i : SlotId) (sl : Slot) (w : FillWork), s.pool[i] = some sl → sl.work = .fill w → sl.outcome = none →
    (s.entry .inlet).lease = .held → (s.entry .inlet).holder = some ⟨.port sl.port, some i⟩ →
    (s.entry .selector).lease = .held → (s.entry .selector).holder = some ⟨.port sl.port, some i⟩ → s.calmBut .selector →
    (s.entry .selector).yieldRequested = true → (∃ v ∈ (s.entry .selector).waiters, v.who.ident ≠ .port sl.port) →
    (∀ v ∈ (s.entry .selector).waiters, v.want = some s.arb.selHeld ∧ ∃ j y z, v.who = ⟨.port y.port, some j⟩ ∧ j ≠ i ∧
      s.pool[j] = some y ∧ y.work = .fill z ∧ y.outcome = none ∧ z.waitSoft = false) →
    (s.entry .selector).positionsLegal → 0 < s.cfg.regrantHoldoff → s.soft.regen = none →
    s.inService = some s.arb.selHeld → s.arb.selCurrent = some s.arb.selHeld →
    s.acct.hardness < (s.column s.arb.selHeld).remaining → (∀ c, (s.column c).breakthrough ≠ some i) →
    s.doorClosed = true → s.latched = false → s.hasHolder .drain = false → s.hasHolder .doorDrive = false →
    s.cfg.flowPulsesPerDl ≤ w.pulses + 1 → w.counted + 1 ≠ w.requested → min 255 (s.water.tank + 1) < s.cfg.tankLimit →
    ∃ t v j y z, exec .decilitreCounted s = .next t ∧
      s.chooses .selector (s.cfg.afterHoldOff s.drive.clock (some (.port sl.port, s.drive.clock))
        ((s.entry .selector).waiters ++ [⟨⟨.port sl.port, some i⟩, sl.age, some s.arb.selHeld, false⟩])) v ∧
      v.who = ⟨.port y.port, some j⟩ ∧ j ≠ i ∧ s.pool[j] = some y ∧ y.work = .fill z ∧
      s.cfg.passedOn s.drive.clock (s.entry .selector) (t.entry .selector)
        ((s.entry .selector).waiters ++ [⟨⟨.port sl.port, some i⟩, sl.age, some s.arb.selHeld, false⟩]) v (some y.port) .held
        (some (.port sl.port, s.drive.clock)) ∧
      s.cfg.passedOn s.drive.clock (s.entry .inlet) (t.entry .inlet) [] v (some y.port) .held none ∧
      t.arb.selHeld = s.arb.selHeld ∧ t.arb.selCurrent = s.arb.selCurrent ∧
      (∃ x, t.pool[i] = some { sl with work := .fill x } ∧ x.counted = w.counted + 1 ∧ x.requested = w.requested) ∧
      t.pool[j] = some { y with work := .fill { z with noFlow := Timer.zero } } ∧
      (∀ k : SlotId, k ≠ i → k ≠ j → t.pool[k] = s.pool[k]) ∧ s.keepsEntriesBut t [.selector, .inlet] ∧
      s.keepsBut t [.arb, .pool, .water, .soft, .drive]

/-- Where a FILL holds INLET at a REGENERATING column, its decilitre does nothing (the model's choice, notes/assumptions/26.md; that no
step reaches such a state from one that meets `fillSafe` is `FillWaterLawKept`). -/
def Sys2Proof.Clauses.NoWashThroughRegenerating : Prop :=
  ∀ (s : State) (i : SlotId) (sl : Slot) (w : FillWork), s.pool[i] = some sl → sl.work = .fill w → sl.outcome = none →
    (s.entry .inlet).lease = .held → (s.entry .inlet).holder = some ⟨.port sl.port, some i⟩ → s.atRest →
    (s.column s.arb.selHeld).state = .regenerating → s.cfg.flowPulsesPerDl ≤ w.pulses + 1 →
    exec .flowPulse s = .next s ∧ exec .decilitreCounted s = .next s

/-- What the pulses of a FILL do, and the model's own end of a decilitre through a REGENERATING column. (Where in a step the queue is
judged: notes/assumptions/42.md.) -/
def Obligations.FillCountsAndCharges : Prop :=
  Clauses.FillPulsesCounted ∧ Clauses.FillExhaustsColumn ∧ Clauses.FillExhaustsHeadTaken ∧ Clauses.FillYields ∧ Clauses.NoWashThroughRegenerating

/-- The FILL that holds INLET for NO_FLOW_TIMEOUT without a pulse ends NO_WATER: the valve closes, the slot is freed, and the
draw record and the response carry what was counted. -/
def Sys2Proof.Clauses.FillNoFlowEnds : Prop :=
  ∀ (s : State) (i : SlotId) (sl : Slot) (w : FillWork), s.pool[i] = some sl → sl.work = .fill w → sl.outcome = none →
    (s.entry .inlet).lease = .held → (s.entry .inlet).holder = some ⟨.port sl.port, some i⟩ → s.atRest →
    w.noFlow.due = true → (∀ c, (s.column c).breakthrough ≠ some i) →
    (∀ r, s.holds ⟨.port sl.port, some i⟩ r = true → r = .inlet ∨ r = .selector) →
    ∃ t, exec .fillNoFlowTimeout s = .next t ∧ t.pool[i] = none ∧ (t.entry .inlet).lease = .free ∧
      (∀ j : SlotId, j ≠ i → t.pool[j] = s.pool[j]) ∧
      t.acct.log.getLast? = some ⟨s.acct.nextDraw, .wash, w.softA, w.softB, w.bypass,
        if w.counted = 0 then s.acct.hardness else w.lastHardness, .noWater, s.drive.clock⟩ ∧
      s.responds t sl.port [opResponse sl.tag .noWater (fillFields w)] ∧
      (s.cfg.capture[faultKindIndex .noFlow] = true →
        t.prot.groups[faultGroupIndex .water] = some ((s.prot.groups[faultGroupIndex .water]).getD
          ⟨.noFlow, portCode sl.port, s.drive.clock, w.counted⟩)) ∧
      s.keepsBut t [.arb, .pool, .acct, .ports, .drive, .prot]

/-- A CIRCULATE that has run its time is DONE: CIRC ramps down and the response waits for it, or at level 0 is sent at
once; the active setting is 0 from the release on (notes/assumptions/33.md). -/
def Sys2Proof.Clauses.CirculateEnds : Prop :=
  ∀ (s : State) (i : SlotId) (sl : Slot) (w : CircWork), s.pool[i] = some sl → sl.work = .circulate w → sl.outcome = none →
    (s.entry .circ).lease = .held → (s.entry .circ).holder = some ⟨.port sl.port, some i⟩ → s.calm →
    (∀ r, s.holds ⟨.port sl.port, some i⟩ r = true → r = .circ) → w.run.due = true →
    ∃ t, exec .circulateRunEnd s = .next t ∧ t.water.interlock = false ∧
      (0 < s.circLevel → (t.entry .circ).lease = .releasing ∧ t.pool[i] = some { sl with outcome := some .done } ∧
        t.drive.circ.active = 0 ∧ t.circLevel = s.circLevel ∧ t.ports = s.ports) ∧
      (s.circLevel = 0 → (t.entry .circ).lease = .free ∧ t.pool[i] = none ∧
        s.responds t sl.port [opResponse sl.tag .done []]) ∧
      (∀ j : SlotId, j ≠ i → t.pool[j] = s.pool[j]) ∧ s.keepsEntriesBut t [.circ, .heater] ∧
      s.keepsBut t [.arb, .pool, .ports, .water, .drive, .sense]

/-- A HEAT whose limit has passed ends TIMEOUT; no dose trigger and no event follow. -/
def Sys2Proof.Clauses.HeatLimitEnds : Prop :=
  ∀ (s : State) (i : SlotId) (sl : Slot) (w : HeatWork), s.pool[i] = some sl → sl.work = .heat w → s.atRest →
    s.leasesLegal → w.granted = true → w.passed.due = true → (∀ r, s.holds ⟨.port sl.port, some i⟩ r = true → r = .heater) →
    ∃ t, exec (.heatLimitExpiry i) s = .next t ∧ t.pool[i] = none ∧
      (s.holds ⟨.port sl.port, some i⟩ .heater = true → (t.entry .heater).lease = .free) ∧
      s.responds t sl.port [opResponse sl.tag .timeout []] ∧
      (∀ k : SubId, (t.port sl.port).subs[k] = (s.port sl.port).subs[k]) ∧ (∀ y, y ≠ sl.port → t.port y = s.port y) ∧
      (∀ j : SlotId, j ≠ i → t.pool[j] = s.pool[j]) ∧
      s.keepsEntriesBut t [.heater] ∧ s.keepsBut t [.arb, .pool, .ports, .sense]

/-- The ends of the DRAIN that holds DRAIN: its post-run passed, DONE with the tank account 0 and KNOWN; its limit passed outside
a post-run, TIMEOUT with DRAIN_SLOW and the tank account as it was. -/
def Sys2Proof.Clauses.DrainEnds : Prop :=
  ∀ (s : State) (i : SlotId) (sl : Slot) (w : DrainWork), s.pool[i] = some sl → sl.work = .drain w →
    (s.entry .drain).lease = .held → (s.entry .drain).holder = some ⟨.port sl.port, some i⟩ → s.atRest →
    (∀ r, s.holds ⟨.port sl.port, some i⟩ r = true → r = .drain) →
    (∀ x : Timer, w.postrun = some x → x.due = true → ∃ t, exec .drainPostrunEnd s = .next t ∧
      t.water = { s.water with tank := 0, tankKnown := true } ∧ t.pool[i] = none ∧ (t.entry .drain).lease = .free ∧
      s.responds t sl.port [opResponse sl.tag .done []] ∧ (∀ j : SlotId, j ≠ i → t.pool[j] = s.pool[j]) ∧
      s.keepsEntriesBut t [.drain] ∧ s.keepsBut t [.arb, .pool, .ports, .water, .sense]) ∧
    (w.postrun = none → w.limit.due = true → ∃ t, exec .drainLimitExpiry s = .next t ∧ t.water = s.water ∧
      t.pool[i] = none ∧ (t.entry .drain).lease = .free ∧ s.responds t sl.port [opResponse sl.tag .timeout []] ∧
      (s.cfg.capture[faultKindIndex .drainSlow] = true →
        t.prot.groups[faultGroupIndex .water] = some ((s.prot.groups[faultGroupIndex .water]).getD
          ⟨.drainSlow, portCode sl.port, s.drive.clock, s.water.tank⟩)) ∧
      (∀ j : SlotId, j ≠ i → t.pool[j] = s.pool[j]) ∧
      s.keepsEntriesBut t [.drain] ∧ s.keepsBut t [.arb, .pool, .ports, .prot, .sense])

/-- A DRAIN that ends with others waiting: its release is recorded where a waiter of another identity stands; of the waiters that the
hold-off leaves the grant rule takes one in the same step, by ring, round-robin position and acceptance order. -/
def Sys2Proof.Clauses.DrainPassesOn : Prop :=
  ∀ (s : State) (i : SlotId) (sl : Slot) (w : DrainWork) (x : Timer), s.pool[i] = some sl → sl.work = .drain w →
    w.postrun = some x → x.due = true → (s.entry .drain).lease = .held →
    (s.entry .drain).holder = some ⟨.port sl.port, some i⟩ → (s.entry .drain).waiters ≠ [] →
    (∀ v ∈ (s.entry .drain).waiters, ∃ j y z, v.who = ⟨.port y.port, some j⟩ ∧ j ≠ i ∧ s.pool[j] = some y ∧
      y.work = .drain z) →
    (s.entry .drain).positionsLegal → s.calmBut .drain → s.hasHolder .inlet = false →
    (s.waterAbsent = true → 0 < s.drive.postrun) →
    (∀ r, s.holds ⟨.port sl.port, some i⟩ r = true → r = .drain) →
    ∀ last : Option (Ident × Nat), last = (if ∃ v ∈ (s.entry .drain).waiters, v.who.ident ≠ .port sl.port
        then some (.port sl.port, s.drive.clock) else none) →
    ∃ t v j y, exec .drainPostrunEnd s = .next t ∧
      s.chooses .drain (s.cfg.afterHoldOff s.drive.clock last (s.entry .drain).waiters) v ∧
      v.who = ⟨.port y.port, some j⟩ ∧ s.pool[j] = some y ∧
      s.cfg.passedOn s.drive.clock (s.entry .drain) (t.entry .drain) (s.entry .drain).waiters v (some y.port) .held last ∧
      t.pool[i] = none ∧
      t.pool[j] = some { y with work := .drain ⟨Timer.zero, if s.waterAbsent = true then some Timer.zero else none⟩ } ∧
      (∀ k : SlotId, k ≠ i → k ≠ j → t.pool[k] = s.pool[k]) ∧
      t.water = { s.water with tank := 0, tankKnown := true } ∧ s.responds t sl.port [opResponse sl.tag .done []] ∧
      s.keepsEntriesBut t [.drain] ∧ s.keepsBut t [.arb, .pool, .ports, .water, .sense]

/-- CIRCULATE, HEAT and DRAIN ended by their times, and a DRAIN that ends with others waiting. -/
def Obligations.WashOperationsEnd : Prop :=
  Clauses.CirculateEnds ∧ Clauses.HeatLimitEnds ∧ Clauses.DrainEnds ∧ Clauses.DrainPassesOn

/-! ### The softener (chapter 3) -/

/-- REGENERATE: BAD_PARAM for no column, BUSY and STATE as R72 lists them, each a refusal that frees the slot
(notes/assumptions/38.md); else its entry is placed at the head of the queue, in the place of any entry the column had, the operation
stands in the lowest free slot (notes/assumptions/18.md), and the queue is judged for its head (where in the step: 42.md). -/
def Obligations.RegenerateQueued : Prop :=
  ∀ (s : State) (p : Port) (tag column : Nat) (i : SlotId), s.accepts p tag i → s.latched = false → s.atRest →
    (∀ o, (columnOf column = none ∧ o = .badParam) ∨
        (∃ c, columnOf column = some c ∧
          ((o = .busy ∧ ((s.column c).state = .regenerating ∨ s.regenOf c = true ∨
              ∃ q ∈ s.soft.queue, q.column = c ∧ q.requester ≠ none)) ∨
            (o = .state ∧ (s.column c).state = .inService ∧ (s.column (Column.other c)).state ≠ .standby ∧
              s.regenOf c = false ∧ ∀ q ∈ s.soft.queue, q.column = c → q.requester = none))) →
      ∃ t, exec (.regenerate p tag column) s = .next t ∧ t.pool[i] = none ∧ s.responds t p [immResponse tag o []] ∧
        (∀ j : SlotId, j ≠ i → t.pool[j] = s.pool[j]) ∧ s.keepsBut t [.pool, .accepted, .ports]) ∧
    (∀ c, columnOf column = some c → (s.column c).state ≠ .regenerating → s.regenOf c = false →
      (∀ q ∈ s.soft.queue, q.column = c → q.requester = none) →
      ((s.column c).state = .inService → (s.column (Column.other c)).state = .standby) →
      ∃ u t, exec (.regenerate p tag column) s = .next t ∧ u.headJudged t ∧
        u.soft = { s.soft with
          queue := ⟨c, some (p, i), s.drive.clock⟩ :: s.soft.queue.filter fun q => q.column != c } ∧
        (∀ j : SlotId, u.pool[j] = if j = i then some ⟨p, tag, .regenerate c, s.accepted, s.laps, none⟩ else s.pool[j]) ∧
        u.ports = (s.setRx p .synced).ports ∧ s.keepsBut u [.pool, .accepted, .ports, .soft])

/-- REGEN_HEAD_TAKEN: with salt KNOWN and 0 the head waits, with SALT_NEEDED once; otherwise it leaves the queue and its
regeneration, STARTING, waits for SELECTOR at its column, here while SELECTOR has a holder. -/
def Sys2Proof.Clauses.RegenHeadTaken : Prop :=
  ∀ (s : State) (q : QueueEntry) (rest : List QueueEntry), s.soft.queue = q :: rest → s.mode = .run → s.soft.regen = none →
    s.latched = false → s.atRest → (s.entry .selector).lease ≠ .free →
    (s.acct.salt.known = true → s.acct.salt.amount = 0 →
      (s.soft.saltWait = true → exec .regenHeadTaken s = .next s) ∧
      (s.soft.saltWait = false → exec .regenHeadTaken s =
        .next (({ s with soft := { s.soft with saltWait := true } } : State).post .saltNeeded (columnCode q.column) 0))) ∧
    (¬(s.acct.salt.known = true ∧ s.acct.salt.amount = 0) → ∃ t g, exec .regenHeadTaken s = .next t ∧
      t.soft = { s.soft with queue := rest, regen := some g } ∧ g.column = q.column ∧ g.requester = q.requester ∧
      g.phase = .starting ∧
      (∃ w, (t.entry .selector).waiters = [w] ∧ w.who = regenWho g ∧ w.want = some q.column) ∧
      (t.entry .selector).lease = (s.entry .selector).lease ∧ (t.entry .selector).holder = (s.entry .selector).holder ∧
      s.keepsEntriesBut t [.selector] ∧ s.keepsBut t [.arb, .soft])

/-- SOAK_END: the judgement is FULL where no point is BRINE_COND, or where it read strong brine in the SOAK and reads CLEAR; the
RINSE asks for SELECTOR at its column, here while SELECTOR has a holder. -/
def Sys2Proof.Clauses.SoakEnds : Prop :=
  ∀ (s : State) (g : Regen), s.soft.regen = some g → g.phase = .soak → g.soak.due = true → s.atRest →
    (s.entry .selector).lease ≠ .free →
    ∃ t, exec .soakEnd s = .next t ∧
      t.soft = { s.soft with regen := some { g with
        phase := .rinse, counted := 0, pulses := 0, rinseStarted := false,
        judgement := match s.roleHolder .brineCond with
          | none => .full
          | some n => if (s.point n).state = .clear ∧ g.brineSeen = true then .full else .weak } } ∧
      (∃ w, (t.entry .selector).waiters = [w] ∧ w.who = regenWho g ∧ w.want = some g.column) ∧
      s.keepsEntriesBut t [.selector] ∧ s.keepsBut t [.arb, .soft]

/-- A regeneration that is granted SELECTOR at once has started: its column is REGENERATING with nothing left, a STANDBY column takes
the place of one in service, REGEN_STARTED (and COLUMN_IN_SERVICE) are posted; HELD at the column, it has BRINE and INLET too and
draws brine, else the selector travels. -/
def Sys2Proof.Clauses.RegenerationStarts : Prop :=
  ∀ (s : State) (q : QueueEntry) (rest : List QueueEntry), s.soft.queue = q :: rest → s.mode = .run → s.soft.regen = none →
    s.latched = false → s.vacant → s.water.interlock = false → s.doorClosed = true →
    ¬(s.acct.salt.known = true ∧ s.acct.salt.amount = 0) → (∀ i, s.fillAt i = none) →
    ∃ t g, exec .regenHeadTaken s = .next t ∧ t.soft.queue = rest ∧ t.soft.regen = some g ∧ g.column = q.column ∧
      g.requester = q.requester ∧ g.phase = .brineDraw ∧ g.counted = 0 ∧ g.cancelPending = false ∧
      t.column q.column = { s.column q.column with state := .regenerating, remaining := 0, breakthrough := none } ∧
      t.column (Column.other q.column) = { s.column (Column.other q.column) with
        state := if (s.column q.column).state = .inService ∧ (s.column (Column.other q.column)).state = .standby
          then .inService else (s.column (Column.other q.column)).state } ∧
      (t.entry .selector).holder = some (regenWho g) ∧ t.arb.selHeld = q.column ∧
      (s.arb.selCurrent = some q.column → (t.entry .selector).lease = .held ∧ t.arb.selCurrent = some q.column ∧
        (t.entry .brine).lease = .held ∧ (t.entry .brine).holder = some (regenWho g) ∧
        (t.entry .inlet).lease = .held ∧ (t.entry .inlet).holder = some (regenWho g) ∧ g.brineStarted = true ∧
        t.drive = s.drive) ∧
      (s.arb.selCurrent ≠ some q.column → (t.entry .selector).lease = .moving ∧ t.arb.selCurrent = none ∧
        t.entry .brine = s.entry .brine ∧ t.entry .inlet = s.entry .inlet ∧ g.brineStarted = false ∧
        t.drive = { s.drive with travel := some Timer.zero, travelReading := none }) ∧
      (∀ u : State, u = s.post .regenStarted (columnCode q.column)
          (match q.requester with | none => 3 | some (p, _) => portCode p) →
        t.ports = (if (s.column q.column).state = .inService ∧ (s.column (Column.other q.column)).state = .standby
          then (u.post .columnInService (columnCode (Column.other q.column))
            (s.column (Column.other q.column)).remaining).ports
          else u.ports)) ∧
      s.keepsEntriesBut t [.selector, .brine, .inlet] ∧ s.keepsBut t [.arb, .ports, .soft, .drive]

/-- SELECTOR_ARRIVAL of a regeneration's travel: in BRINE_DRAW it is granted BRINE and INLET and the brine flows, in RINSE it is
granted INLET and the rinse flows. -/
def Sys2Proof.Clauses.RegenerationArrives : Prop :=
  ∀ (s : State) (g : Regen), s.soft.regen = some g → (s.entry .selector).lease = .moving →
    (s.entry .selector).holder = some (regenWho g) → s.travelArrived = true → s.atRest → (s.entry .brine).lease = .free →
    (s.entry .inlet).lease = .free → s.hasHolder .drain = false → s.hasHolder .doorDrive = false → s.doorClosed = true →
    s.latched = false → (g.phase = .brineDraw ∨ g.phase = .rinse) →
    ∃ t, exec .selectorArrival s = .next t ∧ (t.entry .selector).lease = .held ∧
      (t.entry .selector).holder = some (regenWho g) ∧ t.arb.selCurrent = some s.arb.selHeld ∧
      t.drive = { s.drive with travel := none, travelReading := none } ∧
      (t.entry .inlet).lease = .held ∧ (t.entry .inlet).holder = some (regenWho g) ∧
      (g.phase = .brineDraw → (t.entry .brine).lease = .held ∧ (t.entry .brine).holder = some (regenWho g) ∧
        t.soft = { s.soft with regen := some { g with brineStarted := true, noFlow := Timer.zero } }) ∧
      (g.phase = .rinse → t.entry .brine = s.entry .brine ∧
        t.soft = { s.soft with regen := some { g with rinseStarted := true, noFlow := Timer.zero } }) ∧
      s.keepsEntriesBut t [.selector, .brine, .inlet] ∧ s.keepsBut t [.arb, .soft, .drive]

/-- The decilitres of BRINE_DRAW: each is counted; the one that reaches BRINE_VOLUME closes the valves, deducts the salt, records the
draw and begins SOAK with SELECTOR let go. -/
def Sys2Proof.Clauses.BrineDrawn : Prop :=
  ∀ (s : State) (g : Regen), s.soft.regen = some g → g.phase = .brineDraw → (s.entry .inlet).lease = .held →
    (s.entry .inlet).holder = some (regenWho g) → (s.entry .brine).lease = .held →
    (s.entry .brine).holder = some (regenWho g) → (s.entry .selector).lease = .held →
    (s.entry .selector).holder = some (regenWho g) → (∀ p i, g.requester = some (p, i) → s.fillAt i = none) → s.atRest →
    s.cfg.flowPulsesPerDl ≤ g.pulses + 1 → g.cancelPending = false →
    (g.counted + 1 < s.cfg.brineVolume → exec .decilitreCounted s = .next (s.setRegen (some { g with
      counted := g.counted + 1, pulses := 0, noFlow := Timer.zero, lastHardness := s.acct.hardness }))) ∧
    (s.cfg.brineVolume ≤ g.counted + 1 → ∃ t, exec .decilitreCounted s = .next t ∧
      (t.entry .inlet).lease = .free ∧ (t.entry .brine).lease = .free ∧ (t.entry .selector).lease = .free ∧
      (s.acct.salt.known = true → t.acct.salt = { s.acct.salt with
        amount := s.acct.salt.amount - s.cfg.brineVolume * s.cfg.saltPerDl }) ∧
      (s.acct.salt.known = false → t.acct.salt = s.acct.salt) ∧
      t.acct.log.getLast? = some ⟨s.acct.nextDraw, .brine, if g.column = .a then g.counted + 1 else 0,
        if g.column = .b then g.counted + 1 else 0, 0, s.acct.hardness, .done, s.drive.clock⟩ ∧
      (∃ x, t.soft.regen = some x ∧ x.phase = .soak ∧ x.soak = Timer.zero ∧ x.brineSeen = false ∧ x.column = g.column ∧
        x.requester = g.requester) ∧
      t.soft.colA = s.soft.colA ∧ t.soft.colB = s.soft.colB ∧ t.soft.queue = s.soft.queue ∧
      s.keepsEntriesBut t [.selector, .brine, .inlet] ∧ s.keepsBut t [.arb, .soft, .acct, .drive])

/-- The decilitres of RINSE: each is counted and raises the tank account; the one that reaches RINSE_VOLUME closes the valve, records
the draw and restores the column, FULL at its rated capacity or WEAK at WEAK_PERCENT of it, in service where no other column is;
REGEN_ENDED (and COLUMN_IN_SERVICE) are posted, a REGENERATE is answered DONE, and the queue is judged for its next head before
anything is granted (notes/assumptions/42.md). -/
def Sys2Proof.Clauses.RinseRestores : Prop :=
  ∀ (s : State) (g : Regen), s.soft.regen = some g → g.phase = .rinse → (s.entry .inlet).lease = .held →
    (s.entry .inlet).holder = some (regenWho g) → (s.entry .selector).lease = .held →
    (s.entry .selector).holder = some (regenWho g) → (∀ i, s.fillAt i = none) → s.atRest →
    s.cfg.flowPulsesPerDl ≤ g.pulses + 1 → g.cancelPending = false →
    (g.counted + 1 < s.cfg.rinseVolume → exec .decilitreCounted s = .next (({ s with
      water := { s.water with tank := min 255 (s.water.tank + 1) } } : State).setRegen (some { g with
        counted := g.counted + 1, pulses := 0, noFlow := Timer.zero, lastHardness := s.acct.hardness }))) ∧
    (s.cfg.rinseVolume ≤ g.counted + 1 → ∀ x : ColumnRec, x = { s.column g.column with
        state := if s.inService = none then .inService else .standby,
        remaining := if g.judgement = .weak then s.rated g.column * s.cfg.weakPercent / 100 else s.rated g.column,
        count := ((s.column g.column).count + 1) % 65536,
        last := if g.judgement = .weak then .weak else .full, breakthrough := none } →
      ∃ u t, exec .decilitreCounted s = .next t ∧ u.headJudged t ∧ u.soft.regen = none ∧ u.column g.column = x ∧
        u.column (Column.other g.column) = s.column (Column.other g.column) ∧ u.soft.queue = s.soft.queue ∧
        u.soft.saltWait = s.soft.saltWait ∧
        (u.entry .inlet).lease = .free ∧ (u.entry .selector).lease = .free ∧
        u.water = { s.water with tank := min 255 (s.water.tank + 1) } ∧ u.acct.salt = s.acct.salt ∧
        u.acct.log.getLast? = some ⟨s.acct.nextDraw, .rinse, if g.column = .a then g.counted + 1 else 0,
          if g.column = .b then g.counted + 1 else 0, 0, s.acct.hardness, .done, s.drive.clock⟩ ∧
        (∀ v : State, v = s.post .regenEnded (columnCode g.column) (judgementCode g.judgement) →
          ∀ (y : Port) (k : SubId), (u.port y).subs[k] = ((if s.inService = none
            then v.post .columnInService (columnCode g.column) x.remaining else v).port y).subs[k]) ∧
        (∀ p i sl, g.requester = some (p, i) → s.pool[i] = some sl → u.pool[i] = none ∧
          s.responds u sl.port [opResponse sl.tag .done
            (byte1 (judgementCode g.judgement) ++ byte2 x.remaining ++ byte2 x.count)]) ∧
        (g.requester = none → u.pool = s.pool ∧ ∀ y, (u.port y).txq = (s.port y).txq) ∧
        s.keepsEntriesBut u [.selector, .inlet] ∧ s.keepsBut u [.arb, .pool, .ports, .water, .soft, .acct, .drive])

/-- A regeneration from the head of the queue to the column restored: REGEN_HEAD_TAKEN, the start and the travel, BRINE_DRAW,
SOAK_END, RINSE. -/
def Obligations.RegenerationProceeds : Prop :=
  Clauses.RegenHeadTaken ∧ Clauses.RegenerationStarts ∧ Clauses.RegenerationArrives ∧ Clauses.BrineDrawn ∧
    Clauses.SoakEnds ∧ Clauses.RinseRestores

/-- REGEN_NO_FLOW_TIMEOUT: the regeneration ends ABORTED, its column EXHAUSTED and queued again under AUTO_REGEN, the draw of the
phase recorded with NO_WATER, the salt of a BRINE_DRAW deducted for what was counted, REGEN_ENDED posted after the fault, a REGENERATE
answered NO_WATER with its phase and counted volume, and the queue judged for its next head before anything is granted
(notes/assumptions/42.md). -/
def Sys2Proof.Clauses.RegenNoFlowAborts : Prop :=
  ∀ (s : State) (g : Regen), s.soft.regen = some g → g.noFlow.due = true → (s.entry .inlet).lease = .held →
    (s.entry .inlet).holder = some (regenWho g) → s.atRest → (∀ i, s.fillAt i = none) →
    s.leasesLegal → (∀ r, s.holds (regenWho g) r = true → r = .inlet ∨ r = .selector ∨ r = .brine) →
    (∀ c, ∀ q ∈ s.soft.queue, q.column = c → c ≠ g.column) →
    ∀ (purpose : Purpose) (code : Nat),
      ((g.phase = .rinse ∧ g.rinseStarted = true ∧ purpose = .rinse ∧ code = 3) ∨
        (g.phase = .brineDraw ∧ g.brineStarted = true ∧ purpose = .brine ∧ code = 1)) →
      ∃ u t, exec .regenNoFlowTimeout s = .next t ∧ u.headJudged t ∧ u.soft.regen = none ∧
        u.soft.queue = (if s.cfg.autoRegen = true then s.soft.queue ++ [⟨g.column, none, s.drive.clock⟩] else s.soft.queue) ∧
        (∀ r, s.holds (regenWho g) r = true → (u.entry r).lease = .free) ∧
        u.column g.column = { s.column g.column with
          state := .exhausted, remaining := 0, last := .aborted, breakthrough := none } ∧
        u.column (Column.other g.column) = s.column (Column.other g.column) ∧
        u.acct.log.getLast? = some ⟨s.acct.nextDraw, purpose, if g.column = .a then g.counted else 0,
          if g.column = .b then g.counted else 0, 0, if g.counted = 0 then s.acct.hardness else g.lastHardness, .noWater,
          s.drive.clock⟩ ∧
        u.acct.salt = (if purpose = .brine ∧ s.acct.salt.known = true
          then { s.acct.salt with amount := s.acct.salt.amount - g.counted * s.cfg.saltPerDl } else s.acct.salt) ∧
        u.soft.saltWait = (if purpose = .brine ∧ s.acct.salt.known = true ∧ g.counted * s.cfg.saltPerDl < s.acct.salt.amount
          then false else s.soft.saltWait) ∧
        (∀ v : State, v = s.fault .noFlow (match g.requester with | some (p, _) => portCode p | none => 3) g.counted →
          u.prot = v.prot ∧ ∀ (y : Port) (k : SubId),
            (u.port y).subs[k] = ((v.post .regenEnded (columnCode g.column) 3).port y).subs[k]) ∧
        (∀ p i sl, g.requester = some (p, i) → s.pool[i] = some sl → u.pool[i] = none ∧
          s.responds u sl.port [opResponse sl.tag .noWater (byte1 code ++ byte1 g.counted)]) ∧
        (g.requester = none → u.pool = s.pool ∧ ∀ y, (u.port y).txq = (s.port y).txq) ∧
        s.keepsEntriesBut u [.selector, .brine, .inlet] ∧
        s.keepsBut u [.arb, .pool, .ports, .soft, .acct, .drive, .prot]

/-- FILL_NO_FLOW_TIMEOUT and REGEN_NO_FLOW_TIMEOUT. -/
def Obligations.NoFlowEnds : Prop :=
  Clauses.FillNoFlowEnds ∧ Clauses.RegenNoFlowAborts

/-! ### Dosing (chapter 5) -/

/-- DESC_WRITE and DESC_READ: BAD_PARAM for a number, a reservoir or a field out of range, BUSY for a descriptor current on a
channel that is not IDLE; else the whole descriptor is replaced; reading gives every field and the list of its users
(notes/assumptions/12.md). -/
def Obligations.DescriptorsWrittenAndRead : Prop :=
  ∀ (s : State) (p : Port) (tag number : Nat) (d : Desc), s.hears p tag →
    (32 ≤ number → exec (.descWrite p tag number d) s = .next (s.answered p tag .badParam []) ∧
      exec (.descRead p tag number) s = .next (s.answered p tag .badParam [])) ∧
    ∀ n : DescId, number = n.val →
      exec (.descRead p tag number) s = .next (s.answered p tag .ok
        (descBytes s.dose.descs[n] ++ listField (s.descUsers n))) ∧
      ((3 < d.reservoir ∨ (d.reservoir ≠ 0 ∧ descFieldsInRange d = false)) →
        exec (.descWrite p tag number d) s = .next (s.answered p tag .badParam [])) ∧
      (d.reservoir ≤ 3 → (d.reservoir ≠ 0 → descFieldsInRange d = true) →
        ((∃ c, (s.channel c).state ≠ .idle ∧ (s.channel c).current = some n) →
          exec (.descWrite p tag number d) s = .next (s.answered p tag .busy [])) ∧
        ((∀ c, (s.channel c).state = .idle ∨ (s.channel c).current ≠ some n) →
          ∃ t, exec (.descWrite p tag number d) s = .next t ∧
            (∀ m : DescId, t.dose.descs[m] = if m = n then d else s.dose.descs[m]) ∧
            t.dose.channels = s.dose.channels ∧ s.keepsBut t [.dose, .ports] ∧
            t.ports = (s.answered p tag .ok []).ports))

/-- DOSE_ARM: BAD_PARAM, BUSY, else the descriptor is loaded with its count fixed by R98 and the channel is ARMED, here of a source
that gives no trigger at the load. -/
def Sys2Proof.Clauses.DoseArmed : Prop :=
  ∀ (s : State) (p : Port) (tag channel number : Nat), s.hears p tag → s.mode = .run → s.atRest →
    ((4 ≤ channel ∨ 32 ≤ number) → exec (.doseArm p tag channel number) s = .next (s.answered p tag .badParam [])) ∧
    ∀ (c : ChannelId) (n : DescId) (d : Desc) (k : Nat), channel = c.val → number = n.val → s.dose.descs[n] = d →
      (d.reservoir = 0 → exec (.doseArm p tag channel number) s = .next (s.answered p tag .badParam [])) ∧
      (d.reservoir ≠ 0 → (s.channel c).state ≠ .idle →
        exec (.doseArm p tag channel number) s = .next (s.answered p tag .busy [])) ∧
      (d.reservoir ≠ 0 → (s.channel c).state = .idle → ¬(d.source = 4 ∧ d.delay = 0) → s.loads d k →
        exec (.doseArm p tag channel number) s =
          .next ((s.setChannel c (loadedWith n d k)).answered p tag .ok (byte2 k)))

/-- A descriptor of source DELAY with delay 0 gives its trigger at the load: the run opens, and with the pump FREE and eligible its
first stroke starts in the same step; with the pump held by another that is not to yield it now, the channel waits for it. -/
def Sys2Proof.Clauses.DoseArmedWithoutDelay : Prop :=
  ∀ (s : State) (p : Port) (tag : Nat) (c : ChannelId) (m : DescId) (d : Desc) (n : ReservoirId) (k run : Nat), s.hears p tag →
    s.mode = .run → s.atRest → s.dose.descs[m] = d → d.reservoir = n.val + 1 → d.source = 4 → d.delay = 0 →
    (s.channel c).state = .idle → s.loads d k → opensRun d k run →
    ((s.entry (.dose n)).lease = .free → s.doorClosed = true → s.latched = false → s.hasHolder .doorDrive = false →
      s.acct.reservoirs[n].empty = false → (d.needsWater = 1 → s.waterPresent = true) →
      ∃ t, exec (.doseArm p tag c.val m.val) s = .next t ∧
        t.channel c = { loadedWith m d k with
          state := .dosing, delayArmed := false, runLeft := run, started := 1, step := .stroke } ∧
        t.entry (.dose n) = s.cfg.grantRecord s.drive.clock (channelWho c) none .held (s.entry (.dose n)) ∧
        t.drive = { s.drive with strokes := upd s.drive.strokes n ⟨true, 0⟩ } ∧
        t.acct.reservoirs[n].amount = (if s.acct.reservoirs[n].known = true
          then s.acct.reservoirs[n].amount - s.cfg.strokeVol[n] else s.acct.reservoirs[n].amount) ∧
        (∀ j, j ≠ c → t.channel j = s.channel j) ∧ t.dose.descs = s.dose.descs ∧ s.keepsEntriesBut t [.dose n] ∧
        t.ports = (s.answered p tag .ok (byte2 k)).ports ∧ s.keepsBut t [.arb, .ports, .dose, .drive, .acct]) ∧
    ((s.entry (.dose n)).lease ≠ .free →
      (∀ j, (s.entry (.dose n)).holder = some (channelWho j) → (s.channel j).step = .stroke) →
      ∃ t, exec (.doseArm p tag c.val m.val) s = .next t ∧
        t.channel c = { loadedWith m d k with state := .waitingPump, delayArmed := false, runLeft := run } ∧
        (t.entry (.dose n)).waiters = [⟨channelWho c, 0, none, false⟩] ∧
        (t.entry (.dose n)).lease = (s.entry (.dose n)).lease ∧ (t.entry (.dose n)).holder = (s.entry (.dose n)).holder ∧
        ((t.entry (.dose n)).yieldRequested = true ↔ s.cfg.yieldAsked s.drive.clock (t.entry (.dose n))) ∧
        (∀ j, j ≠ c → t.channel j = s.channel j) ∧ t.dose.descs = s.dose.descs ∧ s.keepsEntriesBut t [.dose n] ∧
        t.ports = (s.answered p tag .ok (byte2 k)).ports ∧ s.keepsBut t [.arb, .ports, .dose])

/-- DOSE_ARM. -/
def Obligations.DoseArmLoads : Prop :=
  Clauses.DoseArmed ∧ Clauses.DoseArmedWithoutDelay

/-- DOSE_TRIGGER: STATE for an IDLE channel or another source; in WAITING_PUMP, DOSING and HALTED the flag is set and waits;
in ARMED the run opens, and with the pump FREE and eligible its first stroke starts in the same step. -/
def Obligations.DoseTriggerStartsARun : Prop :=
  ∀ (s : State) (p : Port) (tag : Nat) (c : ChannelId) (n : ReservoirId), s.hears p tag → s.mode = .run → s.atRest →
    (((s.channel c).state = .idle ∨ sourceOf (s.currentDesc (s.channel c)).source ≠ some .request) →
      exec (.doseTrigger p tag c.val) s = .next (s.answered p tag .state [])) ∧
    ((s.channel c).state ≠ .idle → sourceOf (s.currentDesc (s.channel c)).source = some .request →
      ((s.channel c).state ≠ .armed → exec (.doseTrigger p tag c.val) s =
        .next ((s.setChannel c { s.channel c with flag := true }).answered p tag .ok (flagByte (s.channel c).flag))) ∧
      ((s.channel c).state = .armed → (s.channel c).runLeft = 0 → s.channelReservoir (s.channel c) = n →
        (s.entry (.dose n)).lease = .free → s.doorClosed = true → s.latched = false → s.hasHolder .doorDrive = false →
        s.acct.reservoirs[n].empty = false →
        ((s.currentDesc (s.channel c)).needsWater = 1 → s.waterPresent = true) →
        ∃ t, exec (.doseTrigger p tag c.val) s = .next t ∧
          t.channel c = { s.channel c with
            state := .dosing, flag := false, step := .stroke, interval := Timer.zero,
            runLeft := runSize (s.currentDesc (s.channel c)) (s.channel c).remaining,
            started := (s.channel c).started + 1 } ∧
          t.entry (.dose n) = s.cfg.grantRecord s.drive.clock (channelWho c) none .held (s.entry (.dose n)) ∧
          t.drive = { s.drive with strokes := upd s.drive.strokes n ⟨true, 0⟩ } ∧
          t.acct.reservoirs[n].amount = (if s.acct.reservoirs[n].known = true
            then s.acct.reservoirs[n].amount - s.cfg.strokeVol[n] else s.acct.reservoirs[n].amount) ∧
          (∀ k, k ≠ c → t.channel k = s.channel k) ∧ s.keepsEntriesBut t [.dose n] ∧
          t.ports = (s.answered p tag .ok (flagByte (s.channel c).flag)).ports ∧
          s.keepsBut t [.arb, .ports, .dose, .drive, .acct]))

/-- DOSE_CLEAR_TRIGGER (R101): BAD_PARAM outside 0..3, else OK with the flag as it stood, and the flag is cleared, in every mode
and state. -/
def Obligations.DoseClearTriggerClears : Prop :=
  ∀ (s : State) (p : Port) (tag channel : Nat), s.hears p tag →
    (4 ≤ channel → exec (.doseClearTrigger p tag channel) s = .next (s.answered p tag .badParam [])) ∧
    ∀ c : ChannelId, channel = c.val →
      exec (.doseClearTrigger p tag channel) s =
        .next ((s.setChannel c { s.channel c with flag := false }).answered p tag .ok
          (byte1 (if (s.channel c).flag = true then 1 else 0)))

/-- DOSE_STOP: BAD_PARAM outside 0..3, STATE for an IDLE channel; an ARMED channel is HALTED with cause STOP at once, a stroke in
progress runs on with a stop pending, a channel between strokes releases its pump and is HALTED (with a stop pending too:
notes/assumptions/25.md), one in WAITING_PUMP lets its request go; HALTED with cause DOOR it releases its pump, and with cause DOOR or
EMPTY its cause becomes STOP; with cause STOP or TRIP nothing changes. -/
def Sys2Proof.Clauses.DoseStopHalts : Prop :=
  ∀ (s : State) (p : Port) (tag channel : Nat), s.hears p tag → s.atRest →
    (4 ≤ channel → exec (.doseStop p tag channel) s = .next (s.answered p tag .badParam [])) ∧
    ∀ c : ChannelId, channel = c.val →
      ((s.channel c).state = .idle → exec (.doseStop p tag channel) s = .next (s.answered p tag .state [])) ∧
      ((s.channel c).state = .dosing → (s.channel c).step = .stroke → exec (.doseStop p tag channel) s =
        .next ((s.setChannel c { s.channel c with stopPending := true }).answered p tag .ok [])) ∧
      ((s.channel c).state = .halted → ((s.channel c).cause = .stop ∨ (s.channel c).cause = .trip) →
        exec (.doseStop p tag channel) s = .next (s.answered p tag .ok [])) ∧
      (((s.channel c).state = .armed ∨
          ((s.channel c).state = .dosing ∧ (s.channel c).step ≠ .stroke ∧
            (s.entry (s.channelPump (s.channel c))).lease = .held) ∨
          ((s.channel c).state = .halted ∧ ((s.channel c).cause = .door ∨ (s.channel c).cause = .empty))) →
        ∃ t, exec (.doseStop p tag channel) s = .next t ∧
          t.channel c = { s.channel c with state := .halted, cause := .stop, step := .none, interval := Timer.zero } ∧
          (((s.channel c).state = .dosing ∨ ((s.channel c).state = .halted ∧ (s.channel c).cause = .door)) →
            s.leasesLegal → s.holds (channelWho c) (s.channelPump (s.channel c)) = true →
            (t.entry (s.channelPump (s.channel c))).lease = .free ∧
            (t.entry (s.channelPump (s.channel c))).holder = none) ∧
          (((s.channel c).state = .armed ∨ ((s.channel c).state = .halted ∧ (s.channel c).cause = .empty)) →
            t.arb = s.arb ∧ t.drive = s.drive) ∧
          (∀ k, k ≠ c → t.channel k = s.channel k) ∧ t.dose.descs = s.dose.descs ∧
          s.keepsEntriesBut t [s.channelPump (s.channel c)] ∧
          t.ports = ((s.post .doseHalted c.val 4).answered p tag .ok []).ports ∧
          s.keepsBut t [.arb, .ports, .dose, .drive])

/-- DOSE_STOP of a channel in WAITING_PUMP: its request leaves the list of its pump, and it is HALTED with cause STOP; here with the
pump held by another channel that is not to yield it now, or nobody else waiting for it. -/
def Sys2Proof.Clauses.DoseStopWaiting : Prop :=
  ∀ (s : State) (p : Port) (tag : Nat) (c : ChannelId), s.hears p tag → (s.channel c).state = .waitingPump →
    s.waitsFor (channelWho c) (s.channelPump (s.channel c)) = true → s.calmBut (s.channelPump (s.channel c)) →
    (((s.entry (s.channelPump (s.channel c))).lease ≠ .free ∧
        (s.cfg.yieldAsked s.drive.clock (s.entry (s.channelPump (s.channel c))) → ∀ k,
          (s.entry (s.channelPump (s.channel c))).holder = some (channelWho k) → (s.channel k).step = .stroke)) ∨
      ∀ v ∈ (s.entry (s.channelPump (s.channel c))).waiters, v.who = channelWho c) →
    (∀ r, r ≠ s.channelPump (s.channel c) → s.waitsFor (channelWho c) r = false) →
    ∃ t, exec (.doseStop p tag c.val) s = .next t ∧
      t.channel c = { s.channel c with state := .halted, cause := .stop, step := .none, interval := Timer.zero } ∧
      t.entry (s.channelPump (s.channel c)) = { s.entry (s.channelPump (s.channel c)) with
        waiters := (s.entry (s.channelPump (s.channel c))).waiters.filter fun v => v.who ≠ channelWho c
        yieldRequested := (t.entry (s.channelPump (s.channel c))).yieldRequested } ∧
      ((t.entry (s.channelPump (s.channel c))).yieldRequested = true ↔
        s.cfg.yieldAsked s.drive.clock (t.entry (s.channelPump (s.channel c)))) ∧
      (∀ k, k ≠ c → t.channel k = s.channel k) ∧ t.dose.descs = s.dose.descs ∧
      s.keepsEntriesBut t [s.channelPump (s.channel c)] ∧
      t.ports = ((s.post .doseHalted c.val 4).answered p tag .ok []).ports ∧ s.keepsBut t [.arb, .ports, .dose]

/-- DOSE_RESUME: BAD_PARAM outside 0..3, STATE for a channel that is not HALTED, or whose cause has not gone; else the cause is
cleared and the channel ARMED with its counts; with a run open or the flag set it goes on at once, and with its pump FREE and eligible
its stroke starts in the same step. -/
def Sys2Proof.Clauses.DoseResumeArms : Prop :=
  ∀ (s : State) (p : Port) (tag : Nat) (c : ChannelId), s.hears p tag → s.atRest →
    (∀ channel, 4 ≤ channel → exec (.doseResume p tag channel) s = .next (s.answered p tag .badParam [])) ∧
    (((s.channel c).state ≠ .halted ∨ (s.channel c).cause = .door ∨ ((s.channel c).cause = .trip ∧ s.latched = true) ∨
        ((s.channel c).cause = .empty ∧ s.acct.reservoirs[s.channelReservoir (s.channel c)].empty = true)) →
      exec (.doseResume p tag c.val) s = .next (s.answered p tag .state [])) ∧
    ((s.channel c).state = .halted →
      (((s.channel c).cause = .trip ∧ s.latched = false) ∨
        ((s.channel c).cause = .empty ∧ s.acct.reservoirs[s.channelReservoir (s.channel c)].empty = false) ∨
        (s.channel c).cause = .stop) →
      ((s.channel c).runLeft = 0 → (s.channel c).flag = false → exec (.doseResume p tag c.val) s =
        .next ((s.setChannel c { s.channel c with state := .armed, cause := .none }).answered p tag .ok [])) ∧
      ∀ n : ReservoirId, 0 < (s.channel c).runLeft ∨ (s.channel c).flag = true → s.channelReservoir (s.channel c) = n →
        (s.entry (.dose n)).lease = .free → s.doorClosed = true → s.latched = false → s.hasHolder .doorDrive = false →
        s.acct.reservoirs[n].empty = false → ((s.currentDesc (s.channel c)).needsWater = 1 → s.waterPresent = true) →
        ∃ t, exec (.doseResume p tag c.val) s = .next t ∧
          t.channel c = { s.channel c with
            state := .dosing, cause := .none, step := .stroke, interval := Timer.zero, started := (s.channel c).started + 1
            flag := if 0 < (s.channel c).runLeft then (s.channel c).flag else false
            runLeft := if 0 < (s.channel c).runLeft then (s.channel c).runLeft
              else runSize (s.currentDesc (s.channel c)) (s.channel c).remaining } ∧
          t.entry (.dose n) = s.cfg.grantRecord s.drive.clock (channelWho c) none .held (s.entry (.dose n)) ∧
          t.drive = { s.drive with strokes := upd s.drive.strokes n ⟨true, 0⟩ } ∧
          t.acct.reservoirs[n].amount = (if s.acct.reservoirs[n].known = true
            then s.acct.reservoirs[n].amount - s.cfg.strokeVol[n] else s.acct.reservoirs[n].amount) ∧
          (∀ k, k ≠ c → t.channel k = s.channel k) ∧ t.dose.descs = s.dose.descs ∧ s.keepsEntriesBut t [.dose n] ∧
          t.ports = (s.answered p tag .ok []).ports ∧ s.keepsBut t [.arb, .ports, .dose, .drive, .acct])

/-- DOSE_DISARM: BAD_PARAM outside 0..3, STATE for an IDLE channel, BUSY in WAITING_PUMP and DOSING; an ARMED or a HALTED channel is
taken to IDLE with every field at its first value; one that is HALTED and still holds its pump releases it first, FREE at once. -/
def Sys2Proof.Clauses.DoseDisarmIdles : Prop :=
  ∀ (s : State) (p : Port) (tag channel : Nat), s.hears p tag →
    (4 ≤ channel → exec (.doseDisarm p tag channel) s = .next (s.answered p tag .badParam [])) ∧
    ∀ c : ChannelId, channel = c.val →
      ((s.channel c).state = .idle → exec (.doseDisarm p tag channel) s = .next (s.answered p tag .state [])) ∧
      (((s.channel c).state = .waitingPump ∨ (s.channel c).state = .dosing) →
        exec (.doseDisarm p tag channel) s = .next (s.answered p tag .busy [])) ∧
      (((s.channel c).state = .armed ∨ ((s.channel c).state = .halted ∧ s.atRest ∧
          s.holds (channelWho c) (s.channelPump (s.channel c)) = false)) →
        exec (.doseDisarm p tag channel) s = .next ((s.setChannel c Channel.reset).answered p tag .ok [])) ∧
      ((s.channel c).state = .halted → s.atRest → s.leasesLegal →
        s.holds (channelWho c) (s.channelPump (s.channel c)) = true → ∃ t, exec (.doseDisarm p tag channel) s = .next t ∧
        t.channel c = Channel.reset ∧ (∀ k, k ≠ c → t.channel k = s.channel k) ∧ t.dose.descs = s.dose.descs ∧
        (t.entry (s.channelPump (s.channel c))).lease = .free ∧ (t.entry (s.channelPump (s.channel c))).holder = none ∧
        s.keepsEntriesBut t [s.channelPump (s.channel c)] ∧ t.ports = (s.answered p tag .ok []).ports ∧
        s.keepsBut t [.arb, .ports, .dose, .drive])

/-- DOSE_STOP, DOSE_RESUME and DOSE_DISARM. -/
def Obligations.DoseStopResumeDisarm : Prop :=
  Clauses.DoseStopHalts ∧ Clauses.DoseStopWaiting ∧ Clauses.DoseResumeArms ∧ Clauses.DoseDisarmIdles

/-- DOSE_STATUS (R118): one channel, or all four in channel order, each with the listed fields as they stand; any other value is
BAD_PARAM; nothing changes. -/
def Obligations.DoseStatusGives : Prop :=
  ∀ (s : State) (p : Port) (tag channel : Nat), s.hears p tag →
    (4 ≤ channel → channel ≠ 255 → exec (.doseStatus p tag channel) s = .next (s.answered p tag .badParam [])) ∧
    exec (.doseStatus p tag 255) s = .next (s.answered p tag .ok
      (s.channelBytes 0 ++ s.channelBytes 1 ++ s.channelBytes 2 ++ s.channelBytes 3)) ∧
    ∀ c : ChannelId, exec (.doseStatus p tag c.val) s = .next (s.answered p tag .ok (s.channelBytes c)) ∧
      s.channelBytes c = byte1 (channelStateCode (s.channel c).state) ++ byte1 (haltCauseCode (s.channel c).cause) ++
        byte1 (((s.channel c).current.map fun n => n.val).getD 255) ++ byte2 (s.channel c).loaded ++
        byte2 (s.channel c).completed ++ byte2 (s.channel c).started ++
        byte2 ((s.channel c).loaded - (s.channel c).completed) ++ byte2 (s.channel c).runLeft ++
        byte1 (doseStepCode (s.channel c).step) ++ flagByte (s.channel c).stopPending ++ flagByte (s.channel c).flag ++
        byte2 (s.channel c).delayLeft ++
        byte1 (if s.waitsFor (channelWho c) (s.channelPump (s.channel c)) = true then 3
          else if s.holds (channelWho c) (s.channelPump (s.channel c)) = true then
            (if (s.entry (s.channelPump (s.channel c))).lease = .suspended then 2 else 1) else 0)

/-- DOSE_STROKE_END: a stroke that has run its length is counted; with strokes of the run left the interval follows; the last of a
descriptor that has no link makes the channel IDLE and releases the pump. -/
def Sys2Proof.Clauses.DoseStrokeCounted : Prop :=
  ∀ (s : State) (n : ReservoirId) (c : ChannelId), s.drive.strokes[n].running = true → 15 ≤ s.drive.strokes[n].count →
    (s.entry (.dose n)).lease = .held → (s.entry (.dose n)).holder = some (channelWho c) → (s.channel c).state = .dosing →
    (s.channel c).step = .stroke → (s.channel c).stopPending = false → s.channelReservoir (s.channel c) = n → s.atRest →
    ((s.channel c).completed + 1 ≠ (s.channel c).loaded → 1 < (s.channel c).runLeft →
      exec (.doseStrokeEnd n) s = .next
        (({ s with drive := { s.drive with strokes := upd s.drive.strokes n ⟨false, 0⟩ } } : State).setChannel c
          { s.channel c with completed := (s.channel c).completed + 1, runLeft := (s.channel c).runLeft - 1,
                             step := .interval, interval := Timer.zero })) ∧
    ((s.channel c).completed + 1 = (s.channel c).loaded → descLink (s.currentDesc (s.channel c)) = none →
      (∀ k, k ≠ c → (s.channel k).state = .idle) →
      ∃ t, exec (.doseStrokeEnd n) s = .next t ∧ t.channel c = Channel.reset ∧ (t.entry (.dose n)).lease = .free ∧
        t.drive.strokes[n] = ⟨false, 0⟩ ∧ (∀ k, k ≠ c → t.channel k = s.channel k) ∧
        ((s.currentDesc (s.channel c)).endReport = 1 → ∀ d, (s.channel c).current = some d →
          t.ports = (s.post .doseDescDone c.val d.val).ports) ∧
        ((s.currentDesc (s.channel c)).endReport ≠ 1 → t.ports = s.ports) ∧
        s.keepsEntriesBut t [.dose n] ∧ s.keepsBut t [.arb, .ports, .dose, .drive])

/-- DOSE_INTERVAL_END and DOSE_DELAY_EXPIRY: after the interval the next stroke start is judged, and taken on a HELD lease; on a lease
no longer HELD it is not made and reported as cut, the volume deducted; an EMPTY reservoir halts the channel with cause EMPTY. A delay
left of 0 gives its trigger once, which waits on a channel that is not ARMED. -/
def Sys2Proof.Clauses.DoseIntervalAndDelayEnd : Prop :=
  ∀ (s : State) (c : ChannelId) (n : ReservoirId), s.atRest → s.channelReservoir (s.channel c) = n →
    ((s.channel c).state = .dosing → (s.channel c).step = .interval → (s.channel c).interval.due = true →
      (s.acct.reservoirs[n].empty = false → ((s.currentDesc (s.channel c)).needsWater = 1 → s.waterPresent = true) →
        ∃ t, exec (.doseIntervalEnd c) s = .next t ∧
          t.acct.reservoirs[n].amount = (if s.acct.reservoirs[n].known = true
            then s.acct.reservoirs[n].amount - s.cfg.strokeVol[n] else s.acct.reservoirs[n].amount) ∧
          (∀ k, k ≠ c → t.channel k = s.channel k) ∧
          (s.holdsHeld (channelWho c) (.dose n) = true → t.channel c = { s.channel c with
              started := (s.channel c).started + 1, step := .stroke, interval := Timer.zero } ∧
            t.drive = { s.drive with strokes := upd s.drive.strokes n ⟨true, 0⟩ } ∧ s.keepsBut t [.dose, .drive, .acct]) ∧
          (s.holdsHeld (channelWho c) (.dose n) = false → (s.channel c).stopPending = false → t.drive = s.drive ∧
            t.channel c = { s.channel c with
              state := .halted, cause := if s.holds (channelWho c) (.dose n) = true then .door else .trip,
              step := .none, interval := Timer.zero } ∧
            s.keepsBut t [.dose, .acct, .ports])) ∧
      (s.acct.reservoirs[n].empty = true → (s.entry (.dose n)).lease = .held →
        (s.entry (.dose n)).holder = some (channelWho c) →
        ∃ t, exec (.doseIntervalEnd c) s = .next t ∧ (t.channel c).state = .halted ∧ (t.channel c).cause = .empty ∧
          (t.channel c).completed = (s.channel c).completed ∧ (t.channel c).started = (s.channel c).started ∧
          (t.entry (.dose n)).lease = .free ∧ t.ports = (s.post .doseHalted c.val 1).ports ∧ t.acct = s.acct ∧
          s.keepsEntriesBut t [.dose n] ∧ s.keepsBut t [.arb, .ports, .dose, .drive])) ∧
    ((s.channel c).delayArmed = true → (s.channel c).delayLeft = 0 → (s.channel c).state = .halted →
      exec (.doseDelayExpiry c) s = .next (s.setChannel c { s.channel c with delayArmed := false, flag := true }))

/-- A run that is asked to yield its pump yields it at the end of a stroke, and asks again: the release is recorded, and of the waiting
channels that the hold-off leaves the grant rule takes one in the same step, whose first stroke starts. -/
def Sys2Proof.Clauses.DoseRunYields : Prop :=
  ∀ (s : State) (n : ReservoirId) (c : ChannelId), s.drive.strokes[n].running = true → 15 ≤ s.drive.strokes[n].count →
    (s.entry (.dose n)).lease = .held → (s.entry (.dose n)).holder = some (channelWho c) → (s.channel c).state = .dosing →
    (s.channel c).step = .stroke → (s.channel c).stopPending = false → s.channelReservoir (s.channel c) = n →
    (s.channel c).completed + 1 ≠ (s.channel c).loaded → 1 < (s.channel c).runLeft → s.calmBut (.dose n) →
    (s.entry (.dose n)).yieldRequested = true → (s.entry (.dose n)).waiters ≠ [] →
    (∀ v ∈ (s.entry (.dose n)).waiters, ∃ k, v.who = channelWho k ∧ k ≠ c ∧ (s.channel k).state = .waitingPump ∧
      s.channelReservoir (s.channel k) = n ∧
      ((s.currentDesc (s.channel k)).needsWater = 1 → s.waterPresent = true)) →
    (s.entry (.dose n)).positionsLegal → 0 < s.cfg.regrantHoldoff → s.acct.reservoirs[n].empty = false →
    s.doorClosed = true → s.latched = false → s.hasHolder .doorDrive = false →
    ∃ t v k, exec (.doseStrokeEnd n) s = .next t ∧
      s.chooses (.dose n) (s.cfg.afterHoldOff s.drive.clock (some (.ch c, s.drive.clock))
        ((s.entry (.dose n)).waiters ++ [⟨channelWho c, 0, none, false⟩])) v ∧ v.who = channelWho k ∧ k ≠ c ∧
      s.cfg.passedOn s.drive.clock (s.entry (.dose n)) (t.entry (.dose n))
        ((s.entry (.dose n)).waiters ++ [⟨channelWho c, 0, none, false⟩]) v none .held (some (.ch c, s.drive.clock)) ∧
      t.channel c = { s.channel c with
        state := .waitingPump, completed := (s.channel c).completed + 1, runLeft := (s.channel c).runLeft - 1,
        step := .none, interval := Timer.zero } ∧
      t.channel k = { s.channel k with
        state := .dosing, started := (s.channel k).started + 1, step := .stroke, interval := Timer.zero } ∧
      (∀ m, m ≠ c → m ≠ k → t.channel m = s.channel m) ∧
      t.drive = { s.drive with strokes := upd s.drive.strokes n ⟨true, 0⟩ } ∧
      t.acct.reservoirs[n].amount = (if s.acct.reservoirs[n].known = true
        then s.acct.reservoirs[n].amount - s.cfg.strokeVol[n] else s.acct.reservoirs[n].amount) ∧
      s.keepsEntriesBut t [.dose n] ∧ s.keepsBut t [.arb, .dose, .drive, .acct]

/-- DOSE_DELAY_EXPIRY of a channel that is ARMED opens the run, and with the pump FREE and eligible its first stroke starts in the same
step; of one in WAITING_PUMP, DOSING or HALTED it sets the flag, which waits, here with nobody to be granted or to yield that pump. -/
def Sys2Proof.Clauses.DoseDelayTriggers : Prop :=
  ∀ (s : State) (c : ChannelId) (n : ReservoirId), (s.channel c).delayArmed = true → (s.channel c).delayLeft = 0 →
    s.channelReservoir (s.channel c) = n → s.calmBut (.dose n) →
    ((s.channel c).state ≠ .idle → (s.channel c).state ≠ .armed →
      ((s.entry (.dose n)).waiters = [] ∨ (s.entry (.dose n)).lease ≠ .free) → (s.entry (.dose n)).yieldRequested = false →
      exec (.doseDelayExpiry c) s = .next (s.setChannel c { s.channel c with delayArmed := false, flag := true })) ∧
    ((s.channel c).state = .armed → (s.channel c).runLeft = 0 → s.atRest → (s.entry (.dose n)).lease = .free →
      s.doorClosed = true → s.latched = false → s.hasHolder .doorDrive = false → s.acct.reservoirs[n].empty = false →
      ((s.currentDesc (s.channel c)).needsWater = 1 → s.waterPresent = true) → ∀ run,
      opensRun (s.currentDesc (s.channel c)) (s.channel c).remaining run →
      ∃ t, exec (.doseDelayExpiry c) s = .next t ∧
        t.channel c = { s.channel c with
          state := .dosing, delayArmed := false, flag := false, runLeft := run, started := (s.channel c).started + 1
          step := .stroke, interval := Timer.zero } ∧
        t.entry (.dose n) = s.cfg.grantRecord s.drive.clock (channelWho c) none .held (s.entry (.dose n)) ∧
        t.drive = { s.drive with strokes := upd s.drive.strokes n ⟨true, 0⟩ } ∧
        t.acct.reservoirs[n].amount = (if s.acct.reservoirs[n].known = true
          then s.acct.reservoirs[n].amount - s.cfg.strokeVol[n] else s.acct.reservoirs[n].amount) ∧
        (∀ k, k ≠ c → t.channel k = s.channel k) ∧ s.keepsEntriesBut t [.dose n] ∧ s.keepsBut t [.arb, .dose, .drive, .acct])

/-- DOSE_STROKE_END of the last stroke of a run, with strokes of the descriptor left: the channel is ARMED and its pump FREE; a flag set
meanwhile opens the next run, whose first stroke starts in the same step. -/
def Sys2Proof.Clauses.DoseRunEnds : Prop :=
  ∀ (s : State) (n : ReservoirId) (c : ChannelId), s.drive.strokes[n].running = true → 15 ≤ s.drive.strokes[n].count →
    (s.entry (.dose n)).lease = .held → (s.entry (.dose n)).holder = some (channelWho c) → (s.channel c).state = .dosing →
    (s.channel c).step = .stroke → (s.channel c).stopPending = false → s.channelReservoir (s.channel c) = n → s.atRest →
    (s.channel c).completed + 1 ≠ (s.channel c).loaded → (s.channel c).runLeft = 1 →
    ((s.channel c).flag = false → ∃ t, exec (.doseStrokeEnd n) s = .next t ∧
      t.channel c = { s.channel c with
        state := .armed, completed := (s.channel c).completed + 1, runLeft := 0, step := .none } ∧
      t.entry (.dose n) = { s.entry (.dose n) with lease := .free, holder := none, holderPort := none, lastRelease := none } ∧
      t.drive = { s.drive with strokes := upd s.drive.strokes n ⟨false, 0⟩ } ∧
      (∀ k, k ≠ c → t.channel k = s.channel k) ∧ s.keepsEntriesBut t [.dose n] ∧ s.keepsBut t [.arb, .dose, .drive]) ∧
    ((s.channel c).flag = true → s.doorClosed = true → s.latched = false → s.hasHolder .doorDrive = false →
      s.acct.reservoirs[n].empty = false → ((s.currentDesc (s.channel c)).needsWater = 1 → s.waterPresent = true) → ∀ run,
      opensRun (s.currentDesc (s.channel c)) ((s.channel c).loaded - ((s.channel c).completed + 1)) run →
      ∃ t, exec (.doseStrokeEnd n) s = .next t ∧
        t.channel c = { s.channel c with
          completed := (s.channel c).completed + 1, flag := false, runLeft := run, started := (s.channel c).started + 1
          interval := Timer.zero } ∧
        t.entry (.dose n) = s.cfg.grantRecord s.drive.clock (channelWho c) none .held
          { s.entry (.dose n) with lastRelease := none } ∧
        t.drive = { s.drive with strokes := upd s.drive.strokes n ⟨true, 0⟩ } ∧
        t.acct.reservoirs[n].amount = (if s.acct.reservoirs[n].known = true
          then s.acct.reservoirs[n].amount - s.cfg.strokeVol[n] else s.acct.reservoirs[n].amount) ∧
        (∀ k, k ≠ c → t.channel k = s.channel k) ∧ s.keepsEntriesBut t [.dose n] ∧ s.keepsBut t [.arb, .dose, .drive, .acct])

/-- DOSE_STROKE_END of the last stroke of a descriptor, here with nobody else ARMED: a link to a descriptor that is not empty is loaded,
ARMED, or HALTED with cause STOP where a stop was pending; else the channel is IDLE. CHANNEL_DONE sets the flag of the channels that
name it. -/
def Sys2Proof.Clauses.DoseDescEnds : Prop :=
  ∀ (s : State) (n : ReservoirId) (c : ChannelId) (e : Desc) (x : Channel) (u : State), s.drive.strokes[n].running = true →
    15 ≤ s.drive.strokes[n].count → (s.entry (.dose n)).lease = .held → (s.entry (.dose n)).holder = some (channelWho c) →
    (s.channel c).state = .dosing → (s.channel c).step = .stroke → s.channelReservoir (s.channel c) = n → s.atRest →
    (s.channel c).completed + 1 = (s.channel c).loaded → (∀ k, k ≠ c → (s.channel k).state ≠ .armed) →
    e = s.currentDesc (s.channel c) →
    ((∃ (l : DescId) (d : Desc) (k : Nat), e.link = l.val ∧ s.dose.descs[l] = d ∧ d.reservoir ≠ 0 ∧
        ¬(d.source = 4 ∧ d.delay = 0) ∧ s.loads d k ∧ x = (if (s.channel c).stopPending = true
          then { loadedWith l d k with state := .halted, cause := .stop } else loadedWith l d k)) ∨
      ((e.link = 255 ∨ ∃ l : DescId, e.link = l.val ∧ s.dose.descs[l].reservoir = 0) ∧ x = Channel.reset)) →
    u = (if e.endReport = 1 then s.post .doseDescDone c.val (((s.channel c).current.map fun m => m.val).getD 0) else s) →
    (s.channel c).current ≠ none →
    ∃ t, exec (.doseStrokeEnd n) s = .next t ∧ t.channel c = x ∧
      (∀ k, k ≠ c → t.channel k = if (s.channel k).state ≠ .idle ∧ (s.currentDesc (s.channel k)).source = 5 ∧
        (s.currentDesc (s.channel k)).sourceChannel = c.val then { s.channel k with flag := true } else s.channel k) ∧
      t.dose.descs = s.dose.descs ∧ (t.entry (.dose n)).lease = .free ∧ (t.entry (.dose n)).holder = none ∧
      t.drive = { s.drive with strokes := upd s.drive.strokes n ⟨false, 0⟩ } ∧
      t.ports = (if x.state = .halted then u.post .doseHalted c.val 4 else u).ports ∧
      s.keepsEntriesBut t [.dose n] ∧ s.keepsBut t [.arb, .ports, .dose, .drive]

/-- DOSE_STROKE_END with a stop pending and strokes of the descriptor left: the stroke is counted, and the channel is HALTED with cause
STOP, its pump FREE, at the end of a run too. -/
def Sys2Proof.Clauses.DoseStopTaken : Prop :=
  ∀ (s : State) (n : ReservoirId) (c : ChannelId), s.drive.strokes[n].running = true → 15 ≤ s.drive.strokes[n].count →
    (s.entry (.dose n)).lease = .held → (s.entry (.dose n)).holder = some (channelWho c) → (s.channel c).state = .dosing →
    (s.channel c).step = .stroke → (s.channel c).stopPending = true → s.channelReservoir (s.channel c) = n → s.atRest →
    (s.channel c).completed + 1 ≠ (s.channel c).loaded →
    ∃ t, exec (.doseStrokeEnd n) s = .next t ∧
      t.channel c = { s.channel c with
        state := .halted, cause := .stop, completed := (s.channel c).completed + 1, runLeft := (s.channel c).runLeft - 1
        step := .none, interval := Timer.zero, stopPending := false } ∧
      (t.entry (.dose n)).lease = .free ∧ (t.entry (.dose n)).holder = none ∧
      t.drive = { s.drive with strokes := upd s.drive.strokes n ⟨false, 0⟩ } ∧
      (∀ k, k ≠ c → t.channel k = s.channel k) ∧ t.dose.descs = s.dose.descs ∧
      t.ports = (s.post .doseHalted c.val 4).ports ∧ s.keepsEntriesBut t [.dose n] ∧
      s.keepsBut t [.arb, .ports, .dose, .drive]

/-- DOSE_STROKE_END, with a pump that passes to another channel; DOSE_INTERVAL_END and DOSE_DELAY_EXPIRY. -/
def Obligations.DoseStrokesTimed : Prop :=
  Clauses.DoseStrokeCounted ∧ Clauses.DoseRunYields ∧ Clauses.DoseIntervalAndDelayEnd ∧ Clauses.DoseDelayTriggers ∧
    Clauses.DoseRunEnds ∧ Clauses.DoseDescEnds ∧ Clauses.DoseStopTaken

/-! ### Sensing (chapter 6) -/

/-- SENSE_READ: BAD_PARAM out of range; OK with a published result that is young enough; else RETRY with the state and the age
if there is one (notes/assumptions/12.md), and the point joins its group's refresh list once. -/
def Obligations.SenseReadAnswers : Prop :=
  ∀ (s : State) (p : Port) (tag point maxAge : Nat), s.hears p tag →
    ((16 ≤ point ∨ 255 < maxAge) → exec (.senseRead p tag point maxAge) s = .next (s.answered p tag .badParam [])) ∧
    ∀ n : PointId, point = n.val → maxAge ≤ 255 →
      (∀ r, (s.point n).published = some r → r.age ≤ 10 * maxAge →
        exec (.senseRead p tag point maxAge) s = .next (s.answered p tag .ok
          (byte2 r.count ++ byte1 (qualityCode r.quality) ++ byte1 (pointStateCode (s.point n).state) ++ byte2 r.age ++
            byte1 (roleCode (s.point n).role) ++ byte1 (candidateCode (s.point n).candidate) ++
            byte1 (s.point n).run))) ∧
      ((∀ r, (s.point n).published = some r → 10 * maxAge < r.age) →
        ∃ t, exec (.senseRead p tag point maxAge) s = .next t ∧
          t.ports = (s.answered p tag .retry (byte1 (pointStateCode (s.point n).state) ++
            optField ((s.point n).published.map fun r => byte2 r.age))).ports ∧
          ((s.point n).refresh = true → t.sense = s.sense) ∧
          ((s.point n).refresh = false → t.point n = { s.point n with refresh := true } ∧
            (t.group (groupOf n)).refresh = (s.group (groupOf n)).refresh ++ [n] ∧
            (∀ m, m ≠ n → t.point m = s.point m) ∧ ∀ g, g ≠ groupOf n → t.group g = s.group g) ∧
          s.keepsBut t [.sense, .ports])

/-- SENSE_MODE: the scan mode takes the value at once; naming the mode in force changes nothing; else no group owes a SINGLE round any
more, an IDLE group takes the mode at once and a MEASURING one at its round's end; a value that names no mode is BAD_PARAM. -/
def Sys2Proof.Clauses.SenseModeTaken : Prop :=
  ∀ (s : State) (p : Port) (tag mode : Nat), s.hears p tag →
    (5 ≤ mode → exec (.senseMode p tag mode) s = .next (s.answered p tag .badParam [])) ∧
    ∀ m, scanModeOf mode = some m → m ≠ .single →
      ∃ t, exec (.senseMode p tag mode) s = .next t ∧ t.sense.mode = m ∧ t.sense.points = s.sense.points ∧
        (∀ g, (s.sense.mode = m → t.group g = s.group g) ∧ (s.sense.mode ≠ m → (t.group g).singleDue = false) ∧
          (s.sense.mode ≠ m → (s.group g).round = none →
            (t.group g).mode = m ∧ (t.group g).sinceStart = 0 ∧ (t.group g).next = none ∧
            (m = .periodic → (t.group g).roundsToPublish = 1)) ∧
          (s.sense.mode ≠ m → (s.group g).round ≠ none →
            (t.group g).mode = (s.group g).mode ∧ (t.group g).next = some m ∧ (t.group g).round = (s.group g).round ∧
            (t.group g).measuring = (s.group g).measuring)) ∧
        t.ports = (s.answered p tag .ok []).ports ∧ s.keepsBut t [.sense, .ports]

/-- A SENSE_TABLE_WRITE that names no point or group, or holds a role, a slot value or another field out of range, is BAD_PARAM in
SETUP and in RUN (before anything else is looked at: notes/assumptions/36.md). -/
def Sys2Proof.Clauses.SenseWriteOutOfRange : Prop :=
  ∀ (s : State) (p : Port) (tag : Nat), s.hears p tag →
    (∀ point role trim threshold direction debounce hop,
      (15 < point ∨ 13 < role ∨ 1023 < trim ∨ 65535 < threshold ∨ 1 < direction ∨ debounce < 1 ∨ 8 < debounce ∨ 1 < hop) →
      exec (.senseTableWrite p tag (.point point role trim threshold direction debounce hop)) s =
        .next (s.answered p tag .badParam [])) ∧
    ∀ group a b c d, (3 < group ∨ ∃ x ∈ [a, b, c, d], 15 < x ∧ x ≠ 255) →
      exec (.senseTableWrite p tag (.group group a b c d)) s = .next (s.answered p tag .badParam [])

/-- SENSE_TABLE_WRITE with every field in range. In SETUP every field may be written: a write of role, trim or direction returns the
point to UNSEEN and voids its measurement in progress; a slot map is replaced. In RUN a write that changes one of the three, or names
a slot map, is WRONG_MODE, and any other of a point whose group is MEASURING is BUSY (in this order: notes/assumptions/36.md). A write
that leaves the three as they are takes threshold, debounce and hop, in both modes, and one that changes threshold or debounce clears
the run. -/
def Sys2Proof.Clauses.SenseTableWritten : Prop :=
  ∀ (s : State) (p : Port) (tag : Nat), s.hears p tag →
    (∀ (n : PointId) (role trim threshold direction debounce hop : Nat) (r : Role) (same : Prop), roleOf role = some r →
      trim ≤ 1023 → threshold ≤ 65535 → direction ≤ 1 → 1 ≤ debounce → debounce ≤ 8 → hop ≤ 1 →
      (same ↔ (s.point n).role = r ∧ (s.point n).trim = trim ∧ (s.point n).above = decide (direction = 1)) →
      (s.mode = .setup → ¬same →
        ∃ t more, exec (.senseTableWrite p tag (.point n.val role trim threshold direction debounce hop)) s = .next t ∧
          t.point n = { s.point n with
            role := r, trim := trim, threshold := threshold, above := decide (direction = 1), debounce := debounce
            auto := decide (hop = 1), state := .unseen, candidate := none, run := 0, inFault := false, published := none } ∧
          (∀ m, (s.group (groupOf n)).measuring = some m → m.point = n →
            ∃ x, (t.group (groupOf n)).measuring = some x ∧ x.point = n ∧ x.voided = true) ∧
          (∀ m, m ≠ n → t.point m = s.point m) ∧ s.responds t p (more ++ [immResponse tag .ok []]) ∧
          t.cfg = s.cfg ∧ t.mode = s.mode) ∧
      (s.mode = .run → ¬same →
        exec (.senseTableWrite p tag (.point n.val role trim threshold direction debounce hop)) s =
          .next (s.answered p tag .wrongMode [])) ∧
      (s.mode = .run → same → (s.group (groupOf n)).round ≠ none →
        exec (.senseTableWrite p tag (.point n.val role trim threshold direction debounce hop)) s =
          .next (s.answered p tag .busy [])) ∧
      ((s.mode = .run → (s.group (groupOf n)).round = none) → same →
        exec (.senseTableWrite p tag (.point n.val role trim threshold direction debounce hop)) s =
          .next ((s.setPoint n { s.point n with
            threshold := threshold, debounce := debounce, auto := decide (hop = 1)
            candidate := if (s.point n).threshold = threshold ∧ (s.point n).debounce = debounce
              then (s.point n).candidate else none
            run := if (s.point n).threshold = threshold ∧ (s.point n).debounce = debounce
              then (s.point n).run else 0 }).answered p tag .ok []))) ∧
    ∀ (g : GroupId) (a b c d : Nat) (a' b' c' d' : Option PointId), slotValueOf a = some a' → slotValueOf b = some b' →
      slotValueOf c = some c' → slotValueOf d = some d' →
      exec (.senseTableWrite p tag (.group g.val a b c d)) s = .next (if s.mode = .run then s.answered p tag .wrongMode []
        else (s.setGroup g { s.group g with map := #v[a', b', c', d'] }).answered p tag .ok [])

/-- SENSE_TABLE_READ gives a point's record field by field in the order of R122, or a group's slot map, mode, activity, hop step, rounds
to publish, single due and refresh list with the scan mode and its two items (an optional value and a list as
notes/assumptions/12.md lays them out); any other point or group is BAD_PARAM. -/
def Sys2Proof.Clauses.SenseTableRead : Prop :=
  ∀ (s : State) (p : Port) (tag : Nat), s.hears p tag →
    (∀ (n : PointId) (x : Point), x = s.point n → exec (.senseTableRead p tag 0 n.val) s = .next (s.answered p tag .ok
      (byte1 (roleCode x.role) ++ byte2 x.trim ++ byte2 x.threshold ++ flagByte x.above ++ byte1 x.debounce ++
        flagByte x.auto ++ byte1 (pointStateCode x.state) ++ byte1 (candidateCode x.candidate) ++ byte1 x.run ++
        flagByte x.inFault ++
        (match x.published with
          | none => byte1 0
          | some r => byte1 1 ++ byte2 r.count ++ byte1 (qualityCode r.quality) ++ byte2 r.age) ++
        flagByte x.refresh))) ∧
    (∀ (g : GroupId) (x : Group), x = s.group g → exec (.senseTableRead p tag 1 g.val) s = .next (s.answered p tag .ok
      (optByte (x.map[0].map (·.val)) ++ optByte (x.map[1].map (·.val)) ++ optByte (x.map[2].map (·.val)) ++
        optByte (x.map[3].map (·.val)) ++ byte1 (scanModeCode x.mode) ++ byte1 (if x.round = none then 0 else 1) ++
        byte1 x.hop ++ byte1 x.roundsToPublish ++ flagByte x.singleDue ++
        (byte1 x.refresh.length ++ x.refresh.flatMap fun n => byte1 n.val) ++ byte1 (scanModeCode s.sense.mode) ++
        byte1 s.cfg.scanPeriod.val ++ byte1 s.cfg.publishEvery))) ∧
    ∀ form number, (1 < form ∨ (form = 0 ∧ 15 < number) ∨ (form = 1 ∧ 3 < number)) →
      exec (.senseTableRead p tag form number) s = .next (s.answered p tag .badParam [])

/-- SENSE_TABLE_WRITE, in SETUP and in RUN, and SENSE_TABLE_READ. -/
def Obligations.SenseTableWrittenAndRead : Prop :=
  Clauses.SenseWriteOutOfRange ∧ Clauses.SenseTableWritten ∧ Clauses.SenseTableRead

/-- SENSE_MODE SINGLE: every group with a point of its own in its slot map owes a round, and takes the mode, an IDLE one at once, a
MEASURING one at its round's end; a group without one owes none and takes OFF; with no group owing one the scan mode is OFF. -/
def Sys2Proof.Clauses.SenseSingleTaken : Prop :=
  ∀ (s : State) (p : Port) (tag : Nat) (own : GroupId → Prop), s.hears p tag →
    (∀ g, own g ↔ ∃ (k : Fin 4) (n : PointId), (s.group g).map[k] = some n ∧ groupOf n = g) →
    ∃ t, exec (.senseMode p tag 1) s = .next t ∧ t.sense.points = s.sense.points ∧
      (∀ g, ((t.group g).singleDue = true ↔ own g) ∧
        ∀ m : ScanMode, (own g ∧ m = .single) ∨ (¬own g ∧ m = .off) →
          ((s.group g).round = none → (t.group g).mode = m ∧ (t.group g).sinceStart = 0 ∧ (t.group g).next = none) ∧
          ((s.group g).round ≠ none → (t.group g).mode = (s.group g).mode ∧ (t.group g).next = some m ∧
            (t.group g).round = (s.group g).round ∧ (t.group g).measuring = (s.group g).measuring)) ∧
      ((∃ g, own g) → t.sense.mode = .single) ∧ ((∀ g, ¬own g) → t.sense.mode = .off) ∧
      t.ports = (s.answered p tag .ok []).ports ∧ s.keepsBut t [.sense, .ports]

/-- SCAN_ROUND_START: a round that is due begins with the first slot's measurement, the hop step moved and the time since round
start at 0; at the alternate frequency of the hop step where the point is AUTO and CIRC_P or DRAIN_P is on. -/
def Sys2Proof.Clauses.ScanRoundStarts : Prop :=
  ∀ (s : State) (g : GroupId) (k : Fin 4) (n : PointId) (rest : List (Fin 4 × PointId)), (s.group g).round = none →
    (s.group g).roundDue = true → (s.group g).refresh = [] → roundSlots g (s.group g) (s.group g).mode = (k, n) :: rest →
    ∃ t, exec (.scanRoundStart g) s = .next t ∧
      t.group g = { s.group g with
        round := some { mode := (s.group g).mode, rest := rest, own := true, results := [] },
        measuring := some ⟨n, some k, false, false,
          if (s.point n).auto = true ∧ (0 < s.circLevel ∨ s.outputOn .drain = true)
            then some (((s.group g).hop + 1) % 4) else none⟩,
        hop := ((s.group g).hop + 1) % 4, sinceStart := 0, roundDue := false, refreshDue := false } ∧
      (∀ h, h ≠ g → t.group h = s.group h) ∧ t.sense.points = s.sense.points ∧ t.sense.mode = s.sense.mode ∧
      s.keepsBut t [.sense]

/-- SCAN_ROUND_START with points to refresh: the oldest is measured first, before the slots of a round of the group's own that is due;
else alone, or in OFF before every slot of the map (there with the hop step moved: notes/assumptions/24.md). -/
def Sys2Proof.Clauses.PriorityRoundStarts : Prop :=
  ∀ (s : State) (g : GroupId) (n : PointId) (later : List PointId) (x : Group), x = s.group g → x.round = none →
    x.refresh = n :: later →
    ∀ (own : Bool) (rest : List (Fin 4 × PointId)) (hop : Nat),
      (x.roundDue = true ∧ rest ≠ [] ∧ own = true ∧ rest = roundSlots g x x.mode) ∨
        ((x.roundDue = false ∨ roundSlots g x x.mode = []) ∧ x.refreshDue = true ∧
          ((x.mode = .off ∧ own = true ∧ rest = ownSlots g x) ∨ (x.mode ≠ .off ∧ own = false ∧ rest = []))) →
      hop = (if own = true then (x.hop + 1) % 4 else x.hop) →
      ∃ t, exec (.scanRoundStart g) s = .next t ∧
        t.group g = { x with
          round := some { mode := x.mode, rest := rest, own := own, results := [] }
          measuring := some ⟨n, none, false, false,
            if (s.point n).auto = true ∧ (0 < s.circLevel ∨ s.outputOn .drain = true) then some hop else none⟩
          hop := hop, sinceStart := if x.roundDue = true ∧ roundSlots g x x.mode ≠ [] then 0 else x.sinceStart
          roundDue := false, refreshDue := false } ∧
        (∀ h, h ≠ g → t.group h = s.group h) ∧ t.sense.points = s.sense.points ∧ t.sense.mode = s.sense.mode ∧
        s.keepsBut t [.sense]

/-- A round goes on: the oldest point to refresh is measured, whatever the mode, else the next slot. -/
def Sys2Proof.Clauses.NextMeasured : Prop :=
  ∀ (s : State) (g : GroupId) (count : Nat) (m : Measurement) (r : Round), (s.group g).measuring = some m →
    (s.group g).round = some r → m.voided = false →
    ∀ (n : PointId) (slot : Option (Fin 4)) (rest : List (Fin 4 × PointId)),
      (((s.group g).refresh = [] ∧ ∃ k, slot = some k ∧ r.rest = (k, n) :: rest) ∨
        (slot = none ∧ rest = r.rest ∧ n ≠ m.point ∧ ∃ later, (s.group g).refresh = n :: later)) →
      ∃ t, exec (.measurementEnd g count) s = .next t ∧
        (t.group g).measuring = some ⟨n, slot, false, false,
          if (t.point n).auto = true ∧ (0 < t.circLevel ∨ t.outputOn .drain = true) then some (s.group g).hop else none⟩ ∧
        (∃ x, (t.group g).round = some x ∧ x.rest = rest ∧ x.mode = r.mode ∧ x.own = r.own ∧
          x.results = (if r.mode = .periodic ∧ m.slot ≠ none then
            r.results ++ [(m.point, count, quality m count)] else r.results)) ∧
        (t.group g).mode = (s.group g).mode ∧ (t.group g).hop = (s.group g).hop ∧
        (t.group g).roundsToPublish = (s.group g).roundsToPublish ∧ (t.group g).sinceStart = (s.group g).sinceStart

/-- The last measurement of a round ends it: the mode that waited is taken; a SINGLE round leaves the group in OFF and owing none, but
where SINGLE was taken again; with none owed any more a SINGLE scan is OFF. -/
def Sys2Proof.Clauses.RoundEnds : Prop :=
  ∀ (s : State) (g : GroupId) (count : Nat) (m : Measurement) (r : Round) (single : Prop),
    (s.group g).measuring = some m → (s.group g).round = some r → r.rest = [] →
    ((s.group g).refresh = [] ∨ (m.slot = none ∧ m.voided = false ∧ groupOf m.point = g ∧
      (s.group g).refresh = [m.point])) → (single ↔ r.own = true ∧ r.mode = .single) →
    ∃ t, exec (.measurementEnd g count) s = .next t ∧ (t.group g).round = none ∧ (t.group g).measuring = none ∧
      (t.group g).next = none ∧
      (∀ x, (s.group g).next = some x → (t.group g).mode = x ∧ (t.group g).sinceStart = 0 ∧
        (x = .periodic → (t.group g).roundsToPublish = 1)) ∧
      ((s.group g).next = none → single → (t.group g).mode = .off ∧ (t.group g).sinceStart = 0) ∧
      ((s.group g).next = none → ¬single → (t.group g).mode = (s.group g).mode ∧
        (t.group g).sinceStart = (s.group g).sinceStart) ∧
      (single → ((t.group g).singleDue = true ↔ (s.group g).next = some .single)) ∧
      (¬single → (t.group g).singleDue = (s.group g).singleDue) ∧
      ((s.sense.mode = .single ∧ ∀ h, (t.group h).singleDue = false) → t.sense.mode = .off) ∧
      (¬(s.sense.mode = .single ∧ ∀ h, (t.group h).singleDue = false) → t.sense.mode = s.sense.mode)

/-- The rounds that begin at the start of the next period, judged at each period end with the time since round start as it is then:
CONTINUOUS every one, PERIODIC every SCAN_PERIOD, WATCH every 100, SINGLE one that is owed, the first of PERIODIC or WATCH at once; a
MEASURING group none. -/
def Sys2Proof.Clauses.RoundsFallDue : Prop :=
  ∀ (s : State) (r : PeriodReadings) (g : GroupId) (x : Group), s.catchUp = s →
    (r.probe ≤ 1000 → r.probe.toNat < s.cfg.overtempLimit) → s.heatsInTime → x = s.group g →
    ∃ t, exec (.drivePeriodEnd r) s = .next t ∧ (t.group g).sinceStart = x.sinceStart + 1 ∧ (t.group g).mode = x.mode ∧
      ((t.group g).roundDue = true ↔ x.round = none ∧ roundSlots g x x.mode ≠ [] ∧
        (x.mode = .continuous ∨ (x.mode = .single ∧ x.singleDue = true) ∨
          (x.mode = .periodic ∧ (x.fresh = true ∨ #v[13, 25, 50, 100][s.cfg.scanPeriod] ≤ x.sinceStart + 1)) ∨
          (x.mode = .watch ∧ (x.fresh = true ∨ 100 ≤ x.sinceStart + 1)))) ∧
      ((t.group g).refreshDue = true ↔ x.round = none ∧ x.refresh ≠ [])

/-- A SINGLE round, and the rounds of a group in OFF: each measurement is published with its quality and none is compared. -/
def Sys2Proof.Clauses.MeasurementOnlyPublished : Prop :=
  ∀ (s : State) (g : GroupId) (count : Nat) (m : Measurement) (r : Round) (q : Quality), (s.group g).measuring = some m →
    (s.group g).round = some r → m.voided = false → (r.mode = .single ∨ r.mode = .off) →
    q = (if m.disturbed = true then Quality.disturbed else if count = 0 ∨ count = 65535 then .fault else .valid) →
    ∃ t, exec (.measurementEnd g count) s = .next t ∧
      t.point m.point = { s.point m.point with
        published := some ⟨count, q, 0, 0⟩, refresh := false, inFault := decide (q = .fault) } ∧
      (∀ n, n ≠ m.point → t.point n = s.point n) ∧ t.cfg = s.cfg ∧ t.mode = s.mode ∧ t.accepted = s.accepted

/-- A PERIODIC round's end lowers the rounds to publish by one; where that leaves none, every slot measurement of the round is
published, the last of a point standing, and the count is PUBLISH_EVERY again; else none is. -/
def Sys2Proof.Clauses.PeriodicRoundPublishes : Prop :=
  ∀ (s : State) (g : GroupId) (count : Nat) (m : Measurement) (r : Round) (all : List (PointId × Nat × Quality)),
    (s.group g).measuring = some m → (s.group g).round = some r → m.voided = false → m.slot ≠ none →
    r.mode = .periodic → r.own = true → r.rest = [] → (s.group g).refresh = [] → (s.group g).next = none →
    all = r.results ++ [(m.point, count, quality m count)] →
    ∃ t, exec (.measurementEnd g count) s = .next t ∧
      (1 < (s.group g).roundsToPublish → (t.group g).roundsToPublish = (s.group g).roundsToPublish - 1 ∧
        ∀ n, (t.point n).published = (s.point n).published) ∧
      ((s.group g).roundsToPublish ≤ 1 → (t.group g).roundsToPublish = s.cfg.publishEvery ∧
        (∀ n x, (all.filter fun y => y.1 = n).getLast? = some x →
          (t.point n).published = some ⟨x.2.1, x.2.2, 0, 0⟩ ∧ (t.point n).refresh = false) ∧
        ∀ n, (∀ y ∈ all, y.1 ≠ n) → (t.point n).published = (s.point n).published)

/-- The scan modes; the rounds, when they fall due, begin, go on and end; what they publish. -/
def Obligations.ScanModeAndRounds : Prop :=
  Clauses.SenseModeTaken ∧ Clauses.SenseSingleTaken ∧ Clauses.ScanRoundStarts ∧ Clauses.PriorityRoundStarts ∧
    Clauses.NextMeasured ∧ Clauses.RoundEnds ∧ Clauses.RoundsFallDue ∧ Clauses.MeasurementOnlyPublished ∧
    Clauses.PeriodicRoundPublishes

/-- MEASUREMENT_END in a round that compares, its count after scaling (notes/assumptions/17.md): the debounce of the point takes the
result by its quality, and it is published, of a PERIODIC round only a priority measurement here; a count of 0 or 65535 is FAULT, a
disturbed one DISTURBED. -/
def Sys2Proof.Clauses.MeasurementCompared : Prop :=
  ∀ (s : State) (g : GroupId) (count : Nat) (m : Measurement) (r : Round), (s.group g).measuring = some m →
    (s.group g).round = some r → m.voided = false → (r.mode = .continuous ∨ r.mode = .periodic ∨ r.mode = .watch) →
    ∃ t q side, exec (.measurementEnd g count) s = .next t ∧
      q = (if m.disturbed = true then Quality.disturbed else if count = 0 ∨ count = 65535 then .fault else .valid) ∧
      side = (if (s.point m.point).above = true then (if (s.point m.point).threshold < count then Side.crossed else .clear)
        else (if count < (s.point m.point).threshold then .crossed else .clear)) ∧
      (r.mode ≠ .periodic ∨ (m.slot = none ∧ (r.rest ≠ [] ∨ r.own = false)) →
        (t.point m.point).published = some ⟨count, q, 0, 0⟩ ∧ (t.point m.point).refresh = false) ∧
      (r.mode = .periodic → m.slot ≠ none → r.rest ≠ [] →
        (t.point m.point).published = (s.point m.point).published ∧
        (t.point m.point).refresh = (s.point m.point).refresh) ∧
      (t.point m.point).inFault = decide (q = .fault) ∧
      (q = .disturbed → (t.point m.point).state = (s.point m.point).state ∧
        (t.point m.point).candidate = (s.point m.point).candidate ∧ (t.point m.point).run = (s.point m.point).run) ∧
      (q = .fault → (t.point m.point).state = (s.point m.point).state ∧ (t.point m.point).candidate = none ∧
        (t.point m.point).run = 0) ∧
      (q = .valid → side.state = (s.point m.point).state → (t.point m.point).state = (s.point m.point).state ∧
        (t.point m.point).candidate = none ∧ (t.point m.point).run = 0) ∧
      (q = .valid → side.state ≠ (s.point m.point).state →
        ∀ run, run = (if (s.point m.point).candidate = some side then (s.point m.point).run + 1 else 1) →
          (run < (s.point m.point).debounce → (t.point m.point).state = (s.point m.point).state ∧
            (t.point m.point).candidate = some side ∧ (t.point m.point).run = run) ∧
          ((s.point m.point).debounce ≤ run → (t.point m.point).state = side.state ∧
            (t.point m.point).candidate = none ∧ (t.point m.point).run = 0)) ∧
      (r.mode ≠ .periodic ∨ r.rest ≠ [] → ∀ n, n ≠ m.point → t.point n = s.point n) ∧ t.cfg = s.cfg ∧ t.mode = s.mode ∧ t.accepted = s.accepted

/-- A confirmed change delivered to the accounts: a LOW point lowers the amount to the low mark or refills the reservoir; an EMPTY point
empties it or leaves at least a stroke; SALT_LOW does the same with the salt; each event before SENSE_CHANGED (this order:
notes/assumptions/34.md); a first CLEAR changes no account. A change of the salt has the queue judged for its head (the place: 42.md),
and ends a wait for salt or, with salt KNOWN and 0, begins one, SALT_NEEDED posted. No channel is loaded here. -/
def Sys2Proof.Clauses.LevelsDelivered : Prop :=
  ∀ (s : State) (g : GroupId) (count : Nat) (n : PointId) (side : Side), s.confirms g count n side → s.atRest →
    (∀ c, (s.channel c).state = .idle) →
    (∀ k : ReservoirId, (s.point n).role = .low k ∨ (s.point n).role = .empty k →
      ∀ (a x : Reservoir) (u : State), a = s.acct.reservoirs[k] →
      (((s.point n).role = .low k ∧ side = .crossed ∧ x = { a with
          amount := if a.known = true then min a.amount (min s.cfg.resLowmark[k] s.cfg.resFull[k])
            else min s.cfg.resLowmark[k] s.cfg.resFull[k],
          known := true, low := true } ∧ u = s.post .levelLow (k.val + 1) x.amount) ∨
        ((s.point n).role = .low k ∧ side = .clear ∧ (s.point n).state = .crossed ∧
          x = ⟨s.cfg.resFull[k], true, false, false⟩ ∧ u = s.post .reservoirRefilled (k.val + 1) s.cfg.resFull[k]) ∨
        ((s.point n).role = .empty k ∧ side = .crossed ∧ x = { a with amount := 0, known := true, empty := true } ∧
          u = s.post .reservoirEmpty (k.val + 1) 0) ∨
        ((s.point n).role = .empty k ∧ side = .clear ∧ (s.point n).state = .crossed ∧ x = { a with
          amount := min (max a.amount s.cfg.strokeVol[k]) s.cfg.resFull[k], known := true, empty := false } ∧ u = s) ∨
        (side = .clear ∧ (s.point n).state = .unseen ∧ x = a ∧ u = s)) →
      ∃ t, exec (.measurementEnd g count) s = .next t ∧
        (∀ j : ReservoirId, t.acct.reservoirs[j] = if j = k then x else s.acct.reservoirs[j]) ∧
        t.acct.salt = s.acct.salt ∧ t.acct.hardness = s.acct.hardness ∧ t.acct.log = s.acct.log ∧
        t.ports = (u.post .senseChanged n.val (pointStateCode side.state)).ports ∧ s.keepsBut t [.acct, .ports, .sense]) ∧
    ((s.point n).role = .saltLow → side = .clear → (s.point n).state = .unseen →
      ∃ t, exec (.measurementEnd g count) s = .next t ∧ t.acct = s.acct ∧
        t.ports = (s.post .senseChanged n.val (pointStateCode side.state)).ports ∧ s.keepsBut t [.ports, .sense]) ∧
    ((s.point n).role = .saltLow → ∀ (x : Salt) (u : State),
      ((side = .crossed ∧ x = ⟨if s.acct.salt.known = true then min s.acct.salt.amount (min s.cfg.saltLowmark s.cfg.saltFull)
            else min s.cfg.saltLowmark s.cfg.saltFull, true, true⟩ ∧ u = s.post .saltLow 0 x.amount) ∨
        (side = .clear ∧ (s.point n).state = .crossed ∧ x = ⟨s.cfg.saltFull, true, false⟩ ∧
          u = s.post .saltRefilled 0 s.cfg.saltFull)) →
      (x.amount = 0 → ∃ t, exec (.measurementEnd g count) s = .next t ∧ t.acct = { s.acct with salt := x } ∧
        ((s.soft.queue = [] ∨ s.mode = .setup ∨ s.soft.regen ≠ none ∨ s.latched = true ∨ s.soft.saltWait = true) →
          t.soft = s.soft ∧ t.ports = (u.post .senseChanged n.val (pointStateCode side.state)).ports) ∧
        (∀ q rest, s.soft.queue = q :: rest → s.mode = .run → s.soft.regen = none → s.latched = false →
          s.soft.saltWait = false → t.soft = { s.soft with saltWait := true } ∧
            t.ports = ((u.post .saltNeeded (columnCode q.column) 0).post .senseChanged n.val
              (pointStateCode side.state)).ports) ∧
        s.keepsBut t [.acct, .soft, .ports, .sense]) ∧
      (x.amount ≠ 0 → ∃ v w t, exec (.measurementEnd g count) s = .next t ∧ v.headJudged w ∧ w.keepsBut t [.sense] ∧
        v.acct = { s.acct with salt := x } ∧ v.soft = { s.soft with saltWait := false } ∧
        v.ports = (u.post .senseChanged n.val (pointStateCode side.state)).ports ∧
        s.keepsBut v [.acct, .soft, .ports, .sense]))

/-- A published VALID result of the INLET_COND point while a FILL flows, under HARDNESS_SOURCE SENSED and a table that is not all 0,
is the current hardness by the first band at or above it; HARDNESS_CHANGED is posted where it differs. -/
def Sys2Proof.Clauses.HardnessSensed : Prop :=
  ∀ (s : State) (g : GroupId) (count h : Nat) (m : Measurement) (r : Round), (s.group g).measuring = some m →
    (s.group g).round = some r → m.voided = false → m.disturbed = false → (r.mode = .continuous ∨ r.mode = .watch) →
    count ≠ 0 → count ≠ 65535 → (s.point m.point).role = .inletCond → s.atRest → s.cfg.hardnessSensed = true →
    s.flowingFill ≠ none → (∃ b ∈ s.cfg.hardnessTable, b.1 ≠ 0) →
    ((∃ b ∈ s.cfg.hardnessTable, count ≤ b.1 ∧ h = b.2 ∧ ∀ b' ∈ s.cfg.hardnessTable, b'.1 < b.1 → b'.1 < count) ∧
        strictlyRising (s.cfg.hardnessTable.map (·.1)) = true ∨
      (∀ b ∈ s.cfg.hardnessTable, b.1 < count) ∧ ∃ b, s.cfg.hardnessTable.getLast? = some b ∧ h = b.2) →
    ∃ t, exec (.measurementEnd g count) s = .next t ∧ t.acct = { s.acct with hardness := h, sensed := true } ∧
      (∀ v, v = (compareCount (s.point m.point) count).state → v = (s.point m.point).state →
        t.ports = (if s.acct.hardness = h then s.ports else (s.post .hardnessChanged 1 h).ports)) ∧
      s.keepsBut t [.acct, .ports, .sense]

/-- A confirmed CROSSED of the LEAK point is FLOOD, one of the TANK_HIGH point OVERFILL: the cause is latched, the trip set withdrawn,
the force taken with DRAIN under PROTECT, and, a cause new to the set, its fault captured; the trip that latches ends the channels. -/
def Sys2Proof.Clauses.LeakLatchesTheTrip : Prop :=
  ∀ (s : State) (g : GroupId) (count : Nat) (n : PointId) (c : TripCause), s.confirms g count n .crossed →
    ((s.point n).role = .leak ∧ c = .flood) ∨ ((s.point n).role = .tankHigh ∧ c = .overfill) → s.tableSafe →
    (s.prot.force = .off → ∀ h, (s.entry .drain).holder = some h → h.ident ≠ .protect) →
    ∃ t, exec (.measurementEnd g count) s = .next t ∧ t.latched = true ∧ t.hasCause c = true ∧
      (∀ d, d ≠ c → t.hasCause d = s.hasCause d) ∧ t.tableSafe ∧ t.prot.force = .forcing ∧
      (∀ r, r.inTripSet = true → (t.entry r).lease = .free ∧ (t.entry r).holder = none) ∧
      (s.latched = false → (∀ r, r.inTripSet = true → (t.entry r).waiters = []) ∧
        ∀ k, (t.channel k).state = .idle ∨ ((t.channel k).state = .halted ∧ (t.channel k).cause = .trip)) ∧
      (s.prot.force = .off → (t.entry .drain).lease = .held ∧ (t.entry .drain).holder = some ⟨.protect, none⟩) ∧
      (s.hasCause c = false → s.cfg.capture[faultKindIndex (if c = .flood then .flood else .overfill)] = true →
        t.prot.groups[faultGroupIndex .protect] = some ((s.prot.groups[faultGroupIndex .protect]).getD
          ⟨if c = .flood then .flood else .overfill, n.val, s.drive.clock, s.water.tank⟩)) ∧
      t.cfg = s.cfg ∧ t.mode = s.mode ∧ t.drive.clock = s.drive.clock

/-- A confirmed change of TANK_MIN: the interlock is judged with it, and HEATER suspended or restored; a DRAIN that holds DRAIN begins its
post-run at water absent, or with DRAIN_POSTRUN 0 ends DONE, and else abandons it, with its limit passed to end TIMEOUT; at water present
a channel in step WATER makes its stroke. -/
def Sys2Proof.Clauses.TankMinDelivered : Prop :=
  ∀ (s : State) (g : GroupId) (count : Nat) (n : PointId) (side : Side), s.confirms g count n side →
    (s.point n).role = .tankMin → s.atRest →
    ∃ t, exec (.measurementEnd g count) s = .next t ∧ t.waterPresent = decide (side = .clear) ∧
      t.waterAbsent = decide (side = .crossed) ∧ t.water.interlock = t.interlockMet ∧
      (s.heaterSafe → s.inPlace → (s.entry .heater).lease = .held → s.doorClosed = true → side = .crossed →
        (t.entry .heater).lease = .suspended ∧ (t.entry .heater).holder = (s.entry .heater).holder) ∧
      (s.inPlace → (s.entry .heater).lease = .suspended → (s.entry .circ).lease = .held → s.doorClosed = true →
        s.water.probeValid = true → s.water.interlock = false → side = .clear → (t.entry .heater).lease = .held ∧
        (t.entry .heater).holder = (s.entry .heater).holder) ∧
      ((∀ i, s.drainAt i = none) → (∀ c, (s.channel c).step ≠ .water) →
        t.ports = (s.post .senseChanged n.val (pointStateCode side.state)).ports ∧ s.keepsEntriesBut t [.heater] ∧
        s.keepsBut t [.arb, .water, .ports, .sense]) ∧
      (∀ (i : SlotId) (sl : Slot) (w : DrainWork), s.pool[i] = some sl → sl.work = .drain w →
        s.holdsHeld ⟨.port sl.port, some i⟩ .drain = true → (∀ c, (s.channel c).step ≠ .water) →
        (∀ r, s.holds ⟨.port sl.port, some i⟩ r = true → r = .drain) →
        (side = .crossed → w.postrun = none → 0 < s.drive.postrun →
          t.pool[i] = some { sl with work := .drain { w with postrun := some Timer.zero } } ∧ t.entry .drain = s.entry .drain) ∧
        (side = .crossed → w.postrun = none → s.drive.postrun = 0 → t.pool[i] = none ∧ (t.entry .drain).lease = .free ∧
          t.water.tank = 0 ∧ t.water.tankKnown = true ∧ s.responds t sl.port [opResponse sl.tag .done []]) ∧
        (side = .clear → w.postrun ≠ none → w.limit.due = false →
          t.pool[i] = some { sl with work := .drain { w with postrun := none } } ∧ t.entry .drain = s.entry .drain) ∧
        (side = .clear → w.postrun ≠ none → w.limit.due = true → t.pool[i] = none ∧ (t.entry .drain).lease = .free ∧
          t.water.tank = s.water.tank ∧ s.responds t sl.port [opResponse sl.tag .timeout []] ∧
          t.prot = (s.fault .drainSlow (portCode sl.port) s.water.tank).prot)) ∧
      ∀ (c : ChannelId) (k : ReservoirId), side = .clear → (s.channel c).state = .dosing → (s.channel c).step = .water →
        s.channelPump (s.channel c) = .dose k → s.holdsHeld (channelWho c) (.dose k) = true →
        s.acct.reservoirs[k].empty = false → (∀ d, d ≠ c → (s.channel d).step ≠ .water) →
        t.channel c = { s.channel c with
          started := (s.channel c).started + 1, step := .stroke, interval := Timer.zero } ∧
        t.drive.strokes[k] = ⟨true, 0⟩ ∧
        t.acct.reservoirs[k].amount = (if s.acct.reservoirs[k].known = true
          then s.acct.reservoirs[k].amount - s.cfg.strokeVol[k] else s.acct.reservoirs[k].amount)

/-- SOFT_COND confirmed CROSSED marks a breakthrough only while a FILL flows through a column IN_SERVICE that has none marked. A VALID
result of the BRINE_COND point, published in SOAK, is noted for its judgement. A point of no role, or one that is not the first holder
of its role, has SENSE_CHANGED alone. -/
def Sys2Proof.Clauses.ConductivityDelivered : Prop :=
  ∀ (s : State) (g : GroupId) (count : Nat) (n : PointId), s.atRest →
    (∀ (side : Side) (v : State), s.changes g count n side →
      v = s.post .senseChanged n.val (pointStateCode side.state) →
      (s.roleHolder .softCond = some n → (s.point n).role = .softCond → ∃ t, exec (.measurementEnd g count) s = .next t ∧
        (∀ i, side = .crossed → s.flowingFill = some i → (s.column s.arb.selHeld).state = .inService →
          (s.column s.arb.selHeld).breakthrough = none →
          t.column s.arb.selHeld = { s.column s.arb.selHeld with breakthrough := some i } ∧
          t.column (Column.other s.arb.selHeld) = s.column (Column.other s.arb.selHeld)) ∧
        ((side = .clear ∨ s.flowingFill = none ∨ (s.column s.arb.selHeld).state ≠ .inService ∨
          (s.column s.arb.selHeld).breakthrough ≠ none) → t.soft = s.soft) ∧
        t.ports = v.ports ∧ s.keepsBut t [.soft, .ports, .sense]) ∧
      ((s.point n).role = .none ∨ s.roleHolder (s.point n).role ≠ some n → (s.point n).role ≠ .inletCond →
        (s.point n).role ≠ .brineCond → ∃ t, exec (.measurementEnd g count) s = .next t ∧ t.ports = v.ports ∧
          s.keepsBut t [.ports, .sense])) ∧
    ∀ (m : Measurement) (r : Round), (s.group g).measuring = some m → (s.group g).round = some r → m.voided = false →
      m.point = n → r.mode ≠ .periodic → (s.point n).role = .brineCond → ∃ t, exec (.measurementEnd g count) s = .next t ∧
        (∀ x, s.soft.regen = some x → x.phase = .soak → quality m count = .valid →
          t.soft = { s.soft with regen := some { x with brineSeen := true } }) ∧
        ((quality m count ≠ .valid ∨ ∀ x, s.soft.regen = some x → x.phase ≠ .soak) → t.soft = s.soft) ∧
        s.keepsBut t [.soft, .ports, .sense, .prot]

/-- MEASUREMENT_END: the point's record, what changes and results do, and the trip they latch. -/
def Obligations.MeasurementTaken : Prop :=
  Clauses.MeasurementCompared ∧ Clauses.LevelsDelivered ∧ Clauses.TankMinDelivered ∧ Clauses.ConductivityDelivered ∧
    Clauses.HardnessSensed ∧ Clauses.LeakLatchesTheTrip

/-! ### The drive period, the run clock, the ramps and the selector (chapters 1 and 7) -/

/-- DRIVE_PERIOD_END: the period is counted, DRAIN_POSTRUN as it stands is in force from here, and the probe is read; a reading of
0..1000 is valid and judges the over-temperature condition, and any other leaves the last temperature and the condition. -/
def Sys2Proof.Clauses.DrivePeriodCounted : Prop :=
  ∀ (s : State) (r : PeriodReadings), ∃ t, exec (.drivePeriodEnd r) s = .next t ∧
    t.drive.period = s.drive.period + 1 ∧ t.drive.postrun = s.cfg.drainPostrun ∧ t.water.probeRead = true ∧
    t.water.probeValid = decide (0 ≤ r.probe ∧ r.probe ≤ 1000) ∧
    (0 ≤ r.probe → r.probe ≤ 1000 → t.water.temperature = r.probe.toNat ∧
      (s.cfg.overtempLimit ≤ r.probe.toNat → t.water.overTemp = true) ∧
      (r.probe.toNat + 50 < s.cfg.overtempLimit → t.water.overTemp = false) ∧
      (r.probe.toNat < s.cfg.overtempLimit → s.cfg.overtempLimit ≤ r.probe.toNat + 50 →
        t.water.overTemp = s.water.overTemp)) ∧
    ((r.probe < 0 ∨ 1000 < r.probe) → t.water.temperature = s.water.temperature ∧ t.water.overTemp = s.water.overTemp) ∧
    t.cfg = s.cfg ∧ t.mode = s.mode ∧ t.accepted = s.accepted ∧ t.pending = s.pending

/-- DRIVE_PERIOD_END in a part with no work and nothing due: staged settings are applied, the ramp levels and the rod state stand, the
door switch is filtered, every published result ages, every 50th period leaves a second of the run clock to be taken, and with no
interval, no force and a valid reading the channels, the trip and fault records and the ports are as they were. -/
def Sys2Proof.Clauses.IdlePeriodEnd : Prop :=
  ∀ (s : State) (r : PeriodReadings), s.vacant → (∀ i : SlotId, s.pool[i] = none) → s.soft.regen = none →
    s.catchUp = s → (r.probe ≤ 1000 → r.probe.toNat < s.cfg.overtempLimit) →
    ∃ t, exec (.drivePeriodEnd r) s = .next t ∧
      (r.doorSw = s.doorClosed → t.door.door = { s.door.door with agree := 0 }) ∧
      (r.doorSw ≠ s.doorClosed → r.doorSw = s.door.door.candidate →
        t.door.door = { s.door.door with agree := min 3 (s.door.door.agree + 1) }) ∧
      (r.doorSw ≠ s.doorClosed → r.doorSw ≠ s.door.door.candidate →
        t.door.door = { s.door.door with candidate := r.doorSw, agree := 1 }) ∧
      (s.drive.circ.applyPending = true → t.drive.circ = ⟨s.drive.circ.staged, s.drive.circ.staged, false⟩) ∧
      (s.drive.circ.applyPending = false → t.drive.circ = s.drive.circ) ∧
      t.drive.circRamp = s.drive.circRamp ∧ t.drive.doorRamp = s.drive.doorRamp ∧ t.door.rod.state = s.door.rod.state ∧
      ((∀ c, (s.channel c).step ≠ .interval) → t.dose = s.dose) ∧
      (s.prot.force = .off → 0 ≤ r.probe → r.probe ≤ 1000 → t.prot = s.prot ∧ t.ports = s.ports) ∧
      t.drive.clock = s.drive.clock ∧ t.drive.secondDue = decide ((s.drive.period + 1) % 50 = 0) ∧
      (∀ (n : PointId) (x : Published), (s.point n).published = some x → (t.point n).published = some
        (if x.sub + 1 = 5 then ⟨x.count, x.quality, min 65535 (x.age + 1), 0⟩ else { x with sub := x.sub + 1 })) ∧
      s.keepsBut t [.ports, .water, .dose, .sense, .drive, .door, .prot]

/-- A valid reading at or above OVERTEMP_LIMIT latches the OVERTEMP cause: the trip set is withdrawn, and, where the cause is new to
the set, its fault is captured with the temperature. -/
def Sys2Proof.Clauses.OvertempLatchesTheTrip : Prop :=
  ∀ (s : State) (r : PeriodReadings), s.tableSafe → 0 ≤ r.probe → r.probe ≤ 1000 →
    s.cfg.overtempLimit ≤ r.probe.toNat →
    ∃ t, exec (.drivePeriodEnd r) s = .next t ∧ t.latched = true ∧ t.prot.overtemp = true ∧ t.prot.flood = s.prot.flood ∧
      t.prot.overfill = s.prot.overfill ∧ t.tableSafe ∧ t.outputOn .heater = false ∧
      (∀ q, q.inTripSet = true → (t.entry q).lease = .free ∧ (t.entry q).holder = none) ∧
      (s.latched = false →
        ∀ k, (t.channel k).state = .idle ∨ ((t.channel k).state = .halted ∧ (t.channel k).cause = .trip)) ∧
      (s.prot.overtemp = false → s.cfg.capture[faultKindIndex .overtemp] = true →
        s.prot.groups[faultGroupIndex .protect] = none →
        ∃ f, t.prot.groups[faultGroupIndex .protect] = some f ∧ f.kind = .overtemp ∧ f.subject = 0 ∧
          f.detail = r.probe.toNat)

/-- A CIRCULATE that is asked to yield CIRC yields it at a whole second of its run that does not end it (notes/assumptions/14.md): the
lease winds down with the active setting at 0 (notes/assumptions/33.md), its new request stands at the end of the list, and a release
with a waiter of another identity is recorded. -/
def Sys2Proof.Clauses.CirculateYields : Prop :=
  ∀ (s : State) (r : PeriodReadings) (i : SlotId) (sl : Slot) (w : CircWork), s.catchUp = s → s.pool[i] = some sl →
    sl.work = .circulate w → sl.outcome = none → (s.entry .circ).lease = .held →
    (s.entry .circ).holder = some ⟨.port sl.port, some i⟩ → (s.entry .circ).yieldRequested = true → 0 < s.circLevel →
    (w.run.passed + 1) % 50 = 0 → w.run.passed + 1 < 50 * w.runTime → s.heaterSafe → s.inPlace → s.heatsInTime →
    (r.probe ≤ 1000 → r.probe.toNat < s.cfg.overtempLimit) →
    ∃ t, exec (.drivePeriodEnd r) s = .next t ∧
      t.entry .circ = { s.entry .circ with
        lease := .releasing, yieldRequested := false
        waiters := (s.entry .circ).waiters ++ [⟨⟨.port sl.port, some i⟩, sl.age, none, false⟩]
        lastRelease := if ∃ v ∈ (s.entry .circ).waiters, v.who.ident ≠ .port sl.port
          then some (.port sl.port, s.drive.clock) else none } ∧
      t.drive.circ.active = 0 ∧ t.circLevel = s.circLevel ∧ t.water.interlock = false ∧ t.outputOn .heater = false ∧
      (∃ x, t.pool[i] = some { sl with work := .circulate x } ∧ x.run.passed = w.run.passed + 1)

/-- The generators of a lease that has a holder: a pending staged setting is active first; CIRC counts while HELD, toward it, and while
RELEASING, toward 0; DOOR_DRIVE while HELD, but for a rod that ROD_EXT has cut off (35.md); the step is left to be made (23.md). The run
of a CIRCULATE, the extend time and the max-hold count of a rod EXTENDING, which reads the level after its step, and the hold move on. -/
def Sys2Proof.Clauses.HeldGeneratorsCount : Prop :=
  ∀ (s : State) (r : PeriodReadings), s.catchUp = s → (r.probe ≤ 1000 → r.probe.toNat < s.cfg.overtempLimit) → s.inPlace → s.heatsInTime →
    ∃ t, exec (.drivePeriodEnd r) s = .next t ∧
      (∀ x : Setting, (s.entry .circ).lease = .held ∨ (s.entry .circ).lease = .releasing →
        (s.entry .circ).yieldRequested = false →
        x = (if s.drive.circ.applyPending = true then ⟨s.drive.circ.staged, s.drive.circ.staged, false⟩ else s.drive.circ) →
        t.drive.circ = x ∧
        t.drive.circRamp =
          (if s.drive.circRamp.level = (if (s.entry .circ).lease = .held then x.active else 0)
            then ⟨s.drive.circRamp.level, 0, false⟩
            else ⟨s.drive.circRamp.level, s.drive.circRamp.count + 1,
              decide (s.cfg.circRampGrade + 1 ≤ s.drive.circRamp.count + 1)⟩) ∧
        ∀ i sl w, (s.entry .circ).lease = .held → (s.entry .circ).holder = some ⟨.port sl.port, some i⟩ →
          s.pool[i] = some sl → sl.work = .circulate w → sl.outcome = none →
          ∃ y, t.pool[i] = some { sl with work := .circulate y } ∧
            y.run = ⟨w.run.passed + 1, decide (50 * w.runTime ≤ w.run.passed + 1)⟩) ∧
      ∀ (x : Setting) (y : Ramp) (level : Nat), (s.entry .doorDrive).lease = .held →
        x = (if s.drive.door.applyPending = true then ⟨s.drive.door.staged, s.drive.door.staged, false⟩ else s.drive.door) →
        y = (if s.drive.rodExtend = true ∧ s.door.rod.extRaw = true then s.drive.doorRamp
          else if s.drive.doorRamp.level = x.active then ⟨s.drive.doorRamp.level, 0, false⟩
          else ⟨s.drive.doorRamp.level, s.drive.doorRamp.count + 1,
            decide (s.cfg.pushGrade + 1 ≤ s.drive.doorRamp.count + 1)⟩) →
        level = (if y.due = false then y.level else if y.level < x.active then y.level + 1
          else if x.active < y.level then y.level - 1 else y.level) →
        t.drive.door = x ∧ t.drive.doorRamp = y ∧ t.door.rod.state = s.door.rod.state ∧
        (s.door.rod.state = .extending →
          t.door.rod.maxHold = (if level = x.active then s.door.rod.maxHold + 1 else 0) ∧
          t.door.rod.maxHoldDue = decide (s.cfg.pushMaxhold ≤ t.door.rod.maxHold) ∧
          t.door.rod.extend = ⟨s.door.rod.extend.passed + 1,
            decide (50 * s.cfg.extendTimeout ≤ s.door.rod.extend.passed + 1)⟩) ∧
        (s.door.rod.state = .extended → t.door.rod.hold = ⟨s.door.rod.hold.passed + 1,
          decide (50 * s.cfg.rodHold ≤ s.door.rod.hold.passed + 1)⟩)

/-- The valid reading of a period end and the HEATs, here below OVERTEMP_LIMIT: one that has been granted HEATER and whose target the
reading has reached ends DONE, its lease let go, with HEAT_REACHED, the HEAT_DONE trigger for every loaded channel that names it (none of
them ARMED here) and its response; any other that has been granted goes on, its limit running, and one that waits for its first grant is
not compared. -/
def Sys2Proof.Clauses.HeatTakesTheReading : Prop :=
  ∀ (s : State) (r : PeriodReadings), s.catchUp = s → s.calmBut .heater → (s.entry .heater).yieldRequested = false →
    ¬s.cfg.yieldAsked s.drive.clock (s.entry .heater) → (∀ x ∈ (s.entry .heater).waiters, ∃ j y z,
      x.who = ⟨.port y.port, some j⟩ ∧ s.pool[j] = some y ∧ y.work = .heat z) →
    s.inPlace → s.leasesLegal → s.heatsInTime → 0 ≤ r.probe → r.probe ≤ 1000 → r.probe.toNat < s.cfg.overtempLimit →
    (∀ j x, s.circAt j = some x → x.2.started = true) → (∀ c, (s.channel c).state ≠ .armed) →
    ∃ t, exec (.drivePeriodEnd r) s = .next t ∧ t.water.temperature = r.probe.toNat ∧ t.water.probeValid = true ∧
      s.keepsEntriesBut t [.heater] ∧ s.keepsBut t [.arb, .pool, .ports, .water, .soft, .dose, .sense, .drive, .door, .prot] ∧
      ∀ (i : SlotId) (sl : Slot) (w : HeatWork), s.pool[i] = some sl → sl.work = .heat w → sl.outcome = none →
        (w.granted = true → r.probe.toNat < w.target →
          t.pool[i] = some { sl with work := .heat { w with passed := ⟨w.passed.passed + 1, false⟩ } }) ∧
        (w.granted = false → (∀ j x, s.heatAt j = some x → x.2.granted = true → r.probe.toNat < x.2.target) →
          t.pool[i] = some sl) ∧
        (w.granted = true → w.target ≤ r.probe.toNat → t.pool[i] = none ∧ ((s.entry .heater).waiters = [] →
          (s.holds ⟨.port sl.port, some i⟩ .heater = true → (t.entry .heater).lease = .free ∧
            (t.entry .heater).holder = none) ∧
          ((∀ j x, j ≠ i → s.heatAt j = some x → x.2.granted = true → r.probe.toNat < x.2.target) →
            t.ports = ((s.post .heatReached (portCode sl.port) r.probe.toNat).send sl.port (opResponse sl.tag .done [])).ports ∧
            ∀ c, (s.channel c).step ≠ .interval → t.channel c = if (s.channel c).state ≠ .idle ∧
                sourceOf (s.currentDesc (s.channel c)).source = some .heatDone
              then { s.channel c with flag := true } else s.channel c)))

/-- An invalid reading of a period end: every HEAT, granted HEATER or still waiting for it, ends PROBE_FAULT, its lease and its waiter
gone, and the interlock is unmet; TEMP_PROBE is posted before, with the raw reading, where the probe was valid or had never been
read. -/
def Sys2Proof.Clauses.ProbeFaultEndsHeats : Prop :=
  ∀ (s : State) (r : PeriodReadings) (v : State), s.catchUp = s → s.calmBut .heater → s.inPlace → s.leasesLegal →
    s.heatsInTime → (∀ x ∈ (s.entry .heater).waiters, ∃ j y z, x.who = ⟨.port y.port, some j⟩ ∧ s.pool[j] = some y ∧
      y.work = .heat z) →
    r.probe < 0 ∨ 1000 < r.probe →
    (∀ j x, s.circAt j = some x → x.2.started = true) →
    v = (if s.water.probeValid = true ∨ s.water.probeRead = false then s.fault .tempProbe 0 (r.probe % 65536).toNat else s) →
    ∃ t, exec (.drivePeriodEnd r) s = .next t ∧ t.water.probeValid = false ∧ t.water.interlock = false ∧
      t.water.temperature = s.water.temperature ∧ (t.entry .heater).waiters = [] ∧
      t.prot.groups = v.prot.groups ∧ t.prot.multiple = v.prot.multiple ∧
      s.keepsEntriesBut t [.heater] ∧ s.keepsBut t [.arb, .pool, .ports, .water, .soft, .dose, .sense, .drive, .door, .prot] ∧
      ((∀ j, s.heatAt j = none) → t.ports = v.ports) ∧
      ∀ (i : SlotId) (sl : Slot) (w : HeatWork), s.pool[i] = some sl → sl.work = .heat w → sl.outcome = none →
        t.pool[i] = none ∧ (s.holds ⟨.port sl.port, some i⟩ .heater = true → (t.entry .heater).lease = .free ∧
          (t.entry .heater).holder = none) ∧
        ((∀ j, j ≠ i → s.heatAt j = none) → t.ports = (v.send sl.port (opResponse sl.tag .probeFault [])).ports)

/-- DRIVE_PERIOD_END: what it always does, the OVERTEMP trip, a reading that ends HEATs, a yield of CIRC (active setting 0 in the
wind-down: 33.md), the generators, and, in a part with no work and nothing due, the settings, levels, door switch, ages and clock; steps
that are due are taken first (3.md), a second is left to be taken (23.md), and the period count has no bound (28.md). -/
def Obligations.DrivePeriodEnds : Prop :=
  Clauses.DrivePeriodCounted ∧ Clauses.OvertempLatchesTheTrip ∧ Clauses.HeatTakesTheReading ∧ Clauses.ProbeFaultEndsHeats ∧
    Clauses.CirculateYields ∧ Clauses.HeldGeneratorsCount ∧ Clauses.IdlePeriodEnd

/-- A HEAT that holds HEATER HELD as its tenure ends with a waiter of the URGENT ring yields at once and asks again: the release is
recorded at the new second, and of the waiting HEATs that the hold-off leaves the grant rule takes one in the same step. -/
def Sys2Proof.Clauses.HeatYieldsAtOnce : Prop :=
  ∀ (s : State) (i : SlotId) (sl : Slot) (w : HeatWork) (now : Nat), s.drive.secondDue = true →
    now = (s.drive.clock + 1) % 4294967296 → s.pool[i] = some sl → sl.work = .heat w →
    (s.entry .heater).lease = .held → (s.entry .heater).holder = some ⟨.port sl.port, some i⟩ →
    s.cfg.yieldAsked now (s.entry .heater) →
    (∀ v ∈ (s.entry .heater).waiters, ∃ j y z, v.who = ⟨.port y.port, some j⟩ ∧ j ≠ i ∧ s.pool[j] = some y ∧
      y.work = .heat z ∧ ¬(z.granted = false ∧ z.target ≤ s.water.temperature)) →
    (s.entry .heater).positionsLegal → s.calmBut .heater → s.interlockMet = true → s.latched = false →
    s.hasHolder .doorDrive = false → 0 < s.cfg.regrantHoldoff → 0 < s.cfg.urgentTenure →
    ∃ t v j y z, exec .runClockSecond s = .next t ∧ t.drive = { s.drive with clock := now, secondDue := false } ∧
      s.chooses .heater (s.cfg.afterHoldOff now (some (.port sl.port, now))
        ((s.entry .heater).waiters ++ [⟨⟨.port sl.port, some i⟩, sl.age, none, false⟩])) v ∧
      v.who = ⟨.port y.port, some j⟩ ∧ j ≠ i ∧ s.pool[j] = some y ∧ y.work = .heat z ∧
      s.cfg.passedOn now (s.entry .heater) (t.entry .heater)
        ((s.entry .heater).waiters ++ [⟨⟨.port sl.port, some i⟩, sl.age, none, false⟩]) v (some y.port) .held
        (some (.port sl.port, now)) ∧
      t.pool[j] = some { y with work := .heat (if z.granted = true then z
        else { z with granted := true, passed := Timer.zero }) } ∧
      (∀ k : SlotId, k ≠ j → t.pool[k] = s.pool[k]) ∧ s.keepsEntriesBut t [.heater] ∧
      s.keepsBut t [.arb, .pool, .dose, .sense, .drive]

/-- A HEAT that yields HEATER to one whose target is already reached has it back in the same step: the other is DONE at its grant, with
HEAT_REACHED at the new second, the HEAT_DONE trigger (no channel is ARMED here) and its response, and its release is recorded. -/
def Sys2Proof.Clauses.HeatYieldsToOneThatIsDone : Prop :=
  ∀ (s : State) (i j : SlotId) (sl y : Slot) (w z : HeatWork) (v : Waiter) (now : Nat) (u : State),
    s.drive.secondDue = true → now = (s.drive.clock + 1) % 4294967296 → s.pool[i] = some sl → sl.work = .heat w →
    w.granted = true → (s.entry .heater).lease = .held → (s.entry .heater).holder = some ⟨.port sl.port, some i⟩ →
    s.cfg.yieldAsked now (s.entry .heater) → (s.entry .heater).waiters = [v] → v.who = ⟨.port y.port, some j⟩ → j ≠ i →
    s.pool[j] = some y → y.work = .heat z → z.granted = false → z.target ≤ s.water.temperature → s.inPlace →
    s.calmBut .heater → s.interlockMet = true → s.latched = false → s.hasHolder .doorDrive = false →
    0 < s.cfg.regrantHoldoff → 0 < s.cfg.urgentTenure → (∀ c, (s.channel c).state ≠ .armed) →
    u = { s with drive := { s.drive with clock := now, secondDue := false } } →
    ∃ t, exec .runClockSecond s = .next t ∧ t.drive = u.drive ∧
      t.entry .heater = { s.cfg.grantRecord now ⟨.port sl.port, some i⟩ (some sl.port) .held
          (s.cfg.grantRecord now v.who (some y.port) .free (s.entry .heater)) with
        waiters := [], lastRelease := some (.port y.port, now), yieldRequested := false } ∧
      t.pool[j] = none ∧ (∀ k : SlotId, k ≠ j → t.pool[k] = s.pool[k]) ∧
      t.ports = ((u.post .heatReached (portCode y.port) s.water.temperature).send y.port (opResponse y.tag .done [])).ports ∧
      (∀ c, (s.channel c).delayArmed = false → t.channel c = if (s.channel c).state ≠ .idle ∧
          sourceOf (s.currentDesc (s.channel c)).source = some .heatDone
        then { s.channel c with flag := true } else s.channel c) ∧
      s.keepsEntriesBut t [.heater] ∧ s.keepsBut t [.arb, .pool, .ports, .dose, .sense, .drive]

/-- RUN_CLOCK_SECOND, due once after every 50th period: the clock moves on by a second, from 4294967295 to 0, and every holder is asked
to yield, or no longer, as R18 has it at the new second; where none is due nothing changes (notes/assumptions/4.md). -/
def Obligations.RunClockSecondCounted : Prop :=
  Clauses.HeatYieldsAtOnce ∧ Clauses.HeatYieldsToOneThatIsDone ∧
  ∀ s : State, (s.drive.secondDue = false → exec .runClockSecond s = .next s) ∧
    (s.drive.secondDue = true → ∃ t, exec .runClockSecond s = .next t ∧
      t.drive.clock = (s.drive.clock + 1) % 4294967296 ∧ t.drive.period = s.drive.period ∧ t.cfg = s.cfg ∧
      t.mode = s.mode ∧ t.accepted = s.accepted ∧ t.sense.points = s.sense.points ∧ t.doorClosed = s.doorClosed) ∧
    (s.drive.secondDue = true → s.water.interlock = s.interlockMet →
      (∀ r, ((s.entry r).lease = .free ∨ r = .heater ∨ r = .doorDrive ∨ ∃ n, r = .dose n) → (s.entry r).waiters = []) →
      ∃ t, exec .runClockSecond s = .next t ∧ s.keepsBut t [.arb, .dose, .drive] ∧
        (∀ r, t.entry r = { s.entry r with yieldRequested := (t.entry r).yieldRequested } ∧
          ((t.entry r).yieldRequested = true ↔ s.cfg.yieldAsked ((s.drive.clock + 1) % 4294967296) (s.entry r))) ∧
        ∀ c, t.channel c = if (s.channel c).state ≠ .idle ∧ (s.channel c).delayArmed = true
          then { s.channel c with delayLeft := (s.channel c).delayLeft - 1 } else s.channel c)

/-- The first time the ramp of a CIRCULATE reaches the duty in force, CIRCULATION_STARTED is posted with it, and the trigger is offered
to every loaded channel whose descriptor names that source (none of them ARMED here); never again for that CIRCULATE. -/
def Sys2Proof.Clauses.CirculationStarted : Prop :=
  ∀ (s : State) (i : SlotId) (sl : Slot) (w : CircWork) (x : Ident), s.drive.circRamp.due = true →
    (s.entry .circ).lease = .held → (s.entry .circ).holder = some ⟨x, some i⟩ → s.pool[i] = some sl →
    sl.work = .circulate w → sl.outcome = none → s.atRest → (∀ c, (s.channel c).state ≠ .armed) →
    (s.drive.circRamp.level + 1 = s.drive.circ.active ∨ s.drive.circRamp.level = s.drive.circ.active + 1) →
    ∃ t, exec (.rampStep .circ) s = .next t ∧ t.circLevel = s.drive.circ.active ∧
      (w.started = false → t.pool[i] = some { sl with work := .circulate { w with started := true } } ∧
        (∀ j : SlotId, j ≠ i → t.pool[j] = s.pool[j]) ∧
        t.ports = (s.post .circulationStarted (portCode sl.port) s.drive.circ.active).ports ∧
        (∀ c, t.channel c = if (s.channel c).state ≠ .idle ∧
            sourceOf (s.currentDesc (s.channel c)).source = some .circulationStarted
          then { s.channel c with flag := true } else s.channel c) ∧ t.dose.descs = s.dose.descs) ∧
      (w.started = true → t.pool = s.pool ∧ t.ports = s.ports ∧ t.dose = s.dose) ∧
      s.keepsBut t [.pool, .ports, .dose, .sense, .drive]

/-- RAMP_STEP: a step that is due moves the level of CIRC or of DOOR_DRIVE by one toward its target, that of CIRC in its wind-down toward
0, and empties the step count; a wind-down of CIRC that reaches 0 makes CIRC FREE and answers its operation. -/
def Sys2Proof.Clauses.RampLevelsStep : Prop :=
  ∀ s : State,
    (s.drive.doorRamp.due = true → exec (.rampStep .doorDrive) s = .next
      { s with drive := { s.drive with doorRamp :=
        ⟨if s.drive.doorRamp.level < s.drive.door.active then s.drive.doorRamp.level + 1
          else if s.drive.door.active < s.drive.doorRamp.level then s.drive.doorRamp.level - 1
          else s.drive.doorRamp.level, 0, false⟩ } }) ∧
    (s.drive.circRamp.due = true → (s.entry .circ).lease = .held → s.atRest → (∀ c, (s.channel c).state = .idle) →
      ∃ t, exec (.rampStep .circ) s = .next t ∧
        t.drive = { s.drive with circRamp :=
          ⟨if s.drive.circRamp.level < s.drive.circ.active then s.drive.circRamp.level + 1
            else if s.drive.circ.active < s.drive.circRamp.level then s.drive.circRamp.level - 1
            else s.drive.circRamp.level, 0, false⟩ } ∧
        t.arb = s.arb ∧ s.keepsBut t [.pool, .ports, .sense, .drive]) ∧
    (s.drive.circRamp.due = true → (s.entry .circ).lease = .releasing → 1 < s.drive.circRamp.level → s.atRest →
      exec (.rampStep .circ) s = .next
        { s with drive := { s.drive with circRamp := ⟨s.drive.circRamp.level - 1, 0, false⟩ } }) ∧
    (s.drive.circRamp.due = true → (s.entry .circ).lease = .releasing → s.drive.circRamp.level = 1 → s.atRest →
      ∃ t, exec (.rampStep .circ) s = .next t ∧ (t.entry .circ).lease = .free ∧ t.circLevel = 0 ∧
        t.drive.circ = Setting.zero ∧
        (∀ x i sl w o, (s.entry .circ).holder = some ⟨x, some i⟩ → s.pool[i] = some sl → sl.work = .circulate w →
          sl.outcome = some o → t.pool[i] = none ∧ s.responds t sl.port [opResponse sl.tag o []]) ∧
        s.keepsEntriesBut t [.circ] ∧ s.keepsBut t [.arb, .pool, .ports, .sense, .drive])

/-- A wind-down of CIRC that ends with CIRCULATEs waiting: of those that the hold-off leaves, by the record that stands, the grant rule
takes one in the same step, whose duty is the active setting from level 0; with CIRC HELD again the interlock is judged. -/
def Sys2Proof.Clauses.CircPassesOn : Prop :=
  ∀ s : State, s.drive.circRamp.due = true → (s.entry .circ).lease = .releasing → s.drive.circRamp.level = 1 →
    (s.entry .circ).waiters ≠ [] →
    (∀ v ∈ (s.entry .circ).waiters, ∃ j y z, v.who = ⟨.port y.port, some j⟩ ∧ s.pool[j] = some y ∧
      y.work = .circulate z ∧ y.outcome = none) →
    (s.entry .circ).positionsLegal → s.calmBut .circ → s.doorClosed = true → s.latched = false →
    s.hasHolder .doorDrive = false →
    ∃ t v j y z, exec (.rampStep .circ) s = .next t ∧
      s.chooses .circ (s.cfg.afterHoldOff s.drive.clock (s.entry .circ).lastRelease (s.entry .circ).waiters) v ∧
      v.who = ⟨.port y.port, some j⟩ ∧ s.pool[j] = some y ∧ y.work = .circulate z ∧
      s.cfg.passedOn s.drive.clock (s.entry .circ) (t.entry .circ) (s.entry .circ).waiters v (some y.port) .held
        (s.entry .circ).lastRelease ∧
      t.drive = { s.drive with circ := ⟨z.duty, 0, false⟩, circRamp := Ramp.zero } ∧ t.pool[j] = some y ∧
      t.water = { s.water with interlock := s.waterPresent && s.water.probeValid } ∧
      s.keepsEntriesBut t [.circ, .heater] ∧ s.keepsBut t [.arb, .pool, .ports, .sense, .drive, .water]

/-- RAMP_STEP: the levels, the start of a circulation, and CIRC passed on at the end of a wind-down. -/
def Obligations.RampSteps : Prop :=
  Clauses.RampLevelsStep ∧ Clauses.CirculationStarted ∧ Clauses.CircPassesOn

/-- SELECTOR_ARRIVAL of a FILL's travel: the lease is HELD at the held position and the motor stops; with INLET FREE and
eligible it is granted in the same step. -/
def Sys2Proof.Clauses.SelectorArrives : Prop :=
  ∀ (s : State) (i : SlotId) (sl : Slot) (w : FillWork), (s.entry .selector).lease = .moving →
    (s.entry .selector).holder = some ⟨.port sl.port, some i⟩ → s.travelArrived = true → s.pool[i] = some sl →
    sl.work = .fill w → sl.outcome = none → (∀ g, s.soft.regen = some g → regenWho g ≠ ⟨.port sl.port, some i⟩) →
    s.inService = some s.arb.selHeld → s.atRest → (s.entry .inlet).lease = .free → s.hasHolder .drain = false →
    s.hasHolder .doorDrive = false → s.doorClosed = true → s.latched = false → s.water.tank < s.cfg.tankLimit →
    ∃ t, exec .selectorArrival s = .next t ∧ (t.entry .selector).lease = .held ∧
      (t.entry .selector).holder = (s.entry .selector).holder ∧ t.arb.selCurrent = some s.arb.selHeld ∧
      t.arb.selHeld = s.arb.selHeld ∧ t.selMotor = none ∧
      t.drive = { s.drive with travel := none, travelReading := none } ∧
      (t.entry .inlet).lease = .held ∧ (t.entry .inlet).holder = some ⟨.port sl.port, some i⟩ ∧
      s.keepsEntriesBut t [.selector, .inlet] ∧ s.keepsBut t [.arb, .pool, .drive]

/-- SELECTOR_TIMEOUT of a FILL's travel: the fault, the lease FREE, the position UNKNOWN, the FILL answered SELECTOR_FAULT with its
draw record. -/
def Sys2Proof.Clauses.SelectorTimesOut : Prop :=
  ∀ (s : State) (i : SlotId) (sl : Slot) (w : FillWork) (x : Timer), (s.entry .selector).lease = .moving →
    (s.entry .selector).holder = some ⟨.port sl.port, some i⟩ → s.drive.travel = some x → x.due = true →
    s.pool[i] = some sl → sl.work = .fill w → sl.outcome = none →
    (∀ g, s.soft.regen = some g → regenWho g ≠ ⟨.port sl.port, some i⟩) → (∀ c, (s.column c).breakthrough ≠ some i) →
    (∀ r, s.holds ⟨.port sl.port, some i⟩ r = true → r = .selector) → s.atRest →
    ∃ t, exec .selectorTimeout s = .next t ∧ (t.entry .selector).lease = .free ∧ t.arb.selCurrent = none ∧
      t.drive = { s.drive with travel := none, travelReading := none } ∧ t.pool[i] = none ∧
      s.responds t sl.port [opResponse sl.tag .selectorFault (fillFields w)] ∧
      t.acct.log.getLast? = some ⟨s.acct.nextDraw, .wash, w.softA, w.softB, w.bypass,
        if w.counted = 0 then s.acct.hardness else w.lastHardness, .selectorFault, s.drive.clock⟩ ∧
      (s.cfg.capture[faultKindIndex .selectorTimeout] = true →
        t.prot.groups[faultGroupIndex .actuator] = some ((s.prot.groups[faultGroupIndex .actuator]).getD
          ⟨.selectorTimeout, 0, s.drive.clock, columnCode s.arb.selHeld⟩)) ∧
      (∀ j : SlotId, j ≠ i → t.pool[j] = s.pool[j]) ∧ s.keepsEntriesBut t [.selector] ∧
      s.keepsBut t [.arb, .pool, .ports, .acct, .drive, .prot]

/-- SELECTOR_ARRIVAL and SELECTOR_TIMEOUT. -/
def Obligations.SelectorTravels : Prop :=
  Clauses.SelectorArrives ∧ Clauses.SelectorTimesOut

/-! ### The door and drying (chapter 8) -/

/-- DOOR_STATE_CHANGE to OPEN after three agreeing readings. Every HELD guarded lease is SUSPENDED with its holder kept (but those
that a pending DOSE_STOP or CANCEL then ends), a RELEASING CIRC is FREE, the interlock is not met. DOOR_OPENED is posted, with
value 1 where DOOR_DRIVE is HELD with the rod EXTENDING or EXTENDED, here with nothing else to report. -/
def Sys2Proof.Clauses.DoorOpens : Prop :=
  ∀ s : State, 3 ≤ s.door.door.agree → s.door.door.candidate = false → s.tableSafe → s.heaterSafe →
    ∃ t, exec .doorStateChange s = .next t ∧ t.doorClosed = false ∧ t.door.door.agree = 0 ∧ t.tableSafe ∧ t.heaterSafe ∧
      t.water.interlock = false ∧ (∀ r, r.guarded = true → (t.entry r).lease ≠ .held) ∧
      ((s.entry .circ).lease = .releasing → (t.entry .circ).lease = .free ∧ (t.entry .circ).holder = none) ∧
      (s.inPlace → (∀ g, s.soft.regen = some g → g.cancelPending = false) → (∀ c, (s.channel c).stopPending = false) →
        ∀ r, r.guarded = true → ((s.entry r).lease = .held ∨ (s.entry r).lease = .suspended) →
          (t.entry r).lease = .suspended ∧ (t.entry r).holder = (s.entry r).holder) ∧
      (s.calm → (s.entry .circ).lease ≠ .releasing → (∀ c, (s.channel c).state ≠ .dosing) →
        (∀ g, s.soft.regen = some g → g.cancelPending = false) →
        (∀ i sl dry w, s.doorAt i = some (sl, dry, w) → w.phase = .pushing) →
        t.ports = (s.post .doorOpened 0 (if (s.entry .doorDrive).lease = .held ∧
          (s.door.rod.state = .extending ∨ s.door.rod.state = .extended) then 1 else 0)).ports) ∧
      t.cfg = s.cfg ∧ t.mode = s.mode ∧ t.drive.clock = s.drive.clock ∧ t.sense.points = s.sense.points

/-- DOOR_STATE_CHANGE to CLOSED after three agreeing readings: with nobody waiting and no reservoir EMPTY, every SUSPENDED guarded
lease is HELD again by its holder, HEATER only where the interlock is met then, and DOOR_CLOSED is posted, here with no DRY in AJAR
to end and every channel HALTED with cause DOOR still holding its pump. -/
def Sys2Proof.Clauses.DoorCloses : Prop :=
  ∀ s : State, 3 ≤ s.door.door.agree → s.door.door.candidate = true → s.tableSafe → s.heaterSafe →
    ∃ t, exec .doorStateChange s = .next t ∧ t.doorClosed = true ∧ t.door.door.agree = 0 ∧ t.tableSafe ∧ t.heaterSafe ∧
      (s.doorClosed = false → s.calm → (∀ n : ReservoirId, s.acct.reservoirs[n].empty = false) →
        (∀ r, r.guarded = true → r ≠ .heater → (s.entry r).lease = .suspended →
          (t.entry r).lease = .held ∧ (t.entry r).holder = (s.entry r).holder) ∧
        t.water.interlock = (((s.entry .circ).lease == .held || (s.entry .circ).lease == .suspended) && s.waterPresent &&
          s.water.probeValid) ∧
        ((s.entry .heater).lease = .suspended →
          (t.entry .heater).lease = (if t.water.interlock = true then .held else .suspended) ∧
          (t.entry .heater).holder = (s.entry .heater).holder) ∧
        ((∀ i sl w, s.doorAt i = some (sl, true, w) → w.phase ≠ .ajar) →
          (∀ c, (s.channel c).state = .halted → (s.channel c).cause = .door →
            s.holds (channelWho c) (s.channelPump (s.channel c)) = true) →
          t.ports = (s.post .doorClosed 0 0).ports)) ∧
      t.cfg = s.cfg ∧ t.mode = s.mode ∧ t.drive.clock = s.drive.clock ∧ t.sense.points = s.sense.points

/-- DOOR_STATE_CHANGE before three agreeing readings does nothing (notes/assumptions/4.md). -/
def Sys2Proof.Clauses.DoorUnsettled : Prop :=
  ∀ s : State, s.door.door.agree < 3 → exec .doorStateChange s = .next s

/-- A door change in a part with no work: the door state takes the candidate, the event is posted, and nothing else moves. -/
def Sys2Proof.Clauses.DoorChangeOfAnIdlePart : Prop :=
  ∀ s : State, s.door.door.agree = 3 → s.vacant → (∀ i : SlotId, s.pool[i] = none) → s.soft.regen = none →
    (∀ c, (s.channel c).state = .idle) → s.water.interlock = false →
    exec .doorStateChange s = .next (({ s with door := { s.door with
      door := { s.door.door with value := s.door.door.candidate, agree := 0 } } } : State).post
        (if s.door.door.candidate = true then .doorClosed else .doorOpened) 0 0)

/-- An opening on a channel in DOSING: its stroke is cut, and it is HALTED with cause DOOR; with a stop pending it passes at once to
cause STOP, DOSEn FREE, stop pending yes still (notes/assumptions/25.md). -/
def Sys2Proof.Clauses.DoorOpensOnAChannel : Prop :=
  ∀ (s : State) (c : ChannelId) (k : ReservoirId) (x : Channel) (v : State), 3 ≤ s.door.door.agree →
    s.door.door.candidate = false → s.tableSafe → s.heaterSafe → s.calm → (s.channel c).state = .dosing →
    s.channelPump (s.channel c) = .dose k → s.holdsHeld (channelWho c) (.dose k) = true →
    (∀ d, d ≠ c → (s.channel d).state ≠ .dosing) → (∀ g, s.soft.regen = some g → g.cancelPending = false) →
    (s.entry .circ).lease ≠ .releasing → (∀ i, s.doorAt i = none) →
    x = { s.channel c with
      state := .halted, step := .none, interval := Timer.zero
      cause := if (s.channel c).stopPending = true then .stop else .door
      started := if (s.channel c).step = .stroke then (s.channel c).started - 1 else (s.channel c).started } →
    v = (if (s.channel c).stopPending = true then (s.post .doseHalted c.val 2).post .doseHalted c.val 4
      else s.post .doseHalted c.val 2) →
    ∃ t, exec .doorStateChange s = .next t ∧ t.channel c = x ∧ (∀ d, d ≠ c → t.channel d = s.channel d) ∧
      (t.entry (.dose k)).lease = (if (s.channel c).stopPending = true then .free else .suspended) ∧
      t.drive.strokes[k] = ⟨false, 0⟩ ∧ t.acct = s.acct ∧ t.ports = (v.post .doorOpened 0 0).ports

/-- A door change with a DOOR_PUSH or DRY in flight. At an opening a DOOR_PUSH that waits is DONE and a DRY in DELAY or WAIT_QUIET is in
AJAR, its waiter gone; one in PUSHING goes on; each has seen the door open (a DRY before PUSHING too: notes/assumptions/43.md). A
closing ends a DRY in AJAR with CLOSED_EARLY and leaves any other as it is. -/
def Sys2Proof.Clauses.DoorChangeOfADoorOperation : Prop :=
  ∀ (s : State) (i : SlotId) (sl : Slot) (dry : Bool) (w : DoorWork), 3 ≤ s.door.door.agree →
    s.doorAt i = some (sl, dry, w) → (∀ j, j ≠ i → s.doorAt j = none) →
    (s.door.door.candidate = false → s.calmBut .doorDrive → (∀ v ∈ (s.entry .doorDrive).waiters, v.who = ⟨.dry, some i⟩) →
      (w.phase ≠ .waitQuiet → (s.entry .doorDrive).waiters = []) →
      s.leasesLegal → (∀ c, (s.channel c).state ≠ .dosing) → (∀ g, s.soft.regen = some g → g.cancelPending = false) →
      (s.entry .circ).lease ≠ .releasing → ∃ t, exec .doorStateChange s = .next t ∧
        (dry = false → w.phase = .waitQuiet → t.pool[i] = none ∧ (t.entry .doorDrive).waiters = [] ∧
          s.responds t sl.port [opResponse sl.tag .done
            (byte1 (rodStateCode s.door.rod.state) ++ flagByte w.pushed ++ byte1 1)]) ∧
        (dry = true → w.phase = .waitQuiet ∨ w.phase = .delay → t.pool[i] = some { sl with work := .dry { w with
            phase := .ajar, ajarPassed := Timer.zero, heldBack := false, seenOpen := true } } ∧
          (w.phase = .waitQuiet → (t.entry .doorDrive).waiters = []) ∧ s.responds t sl.port []) ∧
        (w.phase = .pushing → t.pool[i] = some { sl with
            work := doorWork dry { w with seenOpen := true } } ∧
          t.entry .doorDrive = s.entry .doorDrive ∧ t.door.rod = s.door.rod ∧ s.responds t sl.port [])) ∧
    (s.door.door.candidate = true → s.calm → ∃ t, exec .doorStateChange s = .next t ∧
      (dry = true → w.phase = .ajar → t.pool[i] = none ∧ s.responds t sl.port [opResponse sl.tag .closedEarly
        (byte1 3 ++ flagByte w.pushed ++ byte2 (w.ajarPassed.passed / 50))]) ∧
      (dry = false ∨ w.phase ≠ .ajar → t.pool[i] = some sl ∧ s.responds t sl.port []))

/-- DOOR_STATE_CHANGE: an opening and a closing in a part with work, with a channel in DOSING and with a DOOR_PUSH or DRY, all it does to a
part with none, and, before three agreeing readings, nothing (the model's choice: notes/assumptions/4.md). -/
def Obligations.DoorStateChanges : Prop :=
  Clauses.DoorOpens ∧ Clauses.DoorOpensOnAChannel ∧ Clauses.DoorCloses ∧ Clauses.DoorChangeOfADoorOperation ∧
    Clauses.DoorUnsettled ∧ Clauses.DoorChangeOfAnIdlePart

/-- A DOOR_PUSH taken up with everything FREE, the door CLOSED and the rod RETRACTED is granted DOOR_DRIVE: the rod is EXTENDING
from level PUSH_START toward PUSH_MAX, pushed from that grant on (notes/assumptions/27.md). A DRY with a delay waits it out first.
Each stands in the lowest free slot (notes/assumptions/18.md). -/
def Obligations.DoorOperationsStart : Prop :=
  ∀ (s : State) (p : Port) (tag : Nat) (i : SlotId), s.accepts p tag i → s.vacant → s.water.interlock = false →
    s.doorClosed = true → s.door.rod.state = .retracted → s.doorSlot = none →
    (∃ t, exec (.doorPush p tag) s = .next t ∧
      (∀ j : SlotId, t.pool[j] = if j = i then some ⟨p, tag, .doorPush { freshDoor 0 0 .pushing with pushed := true },
        s.accepted, s.laps, none⟩ else s.pool[j]) ∧
      t.entry .doorDrive = s.cfg.grantRecord s.drive.clock ⟨.dry, some i⟩ (some p) .held (s.entry .doorDrive) ∧
      t.drive = { s.drive with door := ⟨s.cfg.pushMax, 0, false⟩, doorRamp := ⟨s.cfg.pushStart, 0, false⟩,
                               rodExtend := true } ∧
      t.door.rod.state = .extending ∧ t.door.rod.extend = Timer.zero ∧ t.door.rod.maxHold = 0 ∧
      t.door.door = s.door.door ∧ s.keepsEntriesBut t [.doorDrive] ∧ t.ports = (s.setRx p .synced).ports ∧
      s.keepsBut t [.arb, .pool, .accepted, .ports, .drive, .door]) ∧
    ∀ delay ajar, 1 ≤ delay → delay ≤ 3600 → 60 ≤ ajar → ajar ≤ 7200 → ∃ t, exec (.dry p tag delay ajar) s = .next t ∧
      (∀ j : SlotId, t.pool[j] = if j = i then some ⟨p, tag, .dry (freshDoor delay ajar .delay), s.accepted, s.laps, none⟩
        else s.pool[j]) ∧
      t.ports = (s.setRx p .synced).ports ∧ s.keepsBut t [.pool, .accepted, .ports]

/-- ROD_EXTENDED, ROD_HOLD_END: ROD_EXT that has become closed while EXTENDING (notes/assumptions/11.md) makes the rod EXTENDED
with hold time 0; a hold that has passed releases DOOR_DRIVE, and the rod retracts under a LEASE retract. -/
def Sys2Proof.Clauses.RodExtendsAndHolds : Prop :=
  ∀ s : State,
    (s.door.rod.state = .extending → s.door.rod.extEdge = true → exec .rodExtended s = .next
      { s with door := { s.door with rod :=
        { s.door.rod with state := .extended, hold := Timer.zero, extEdge := false } } }) ∧
    (s.door.rod.state = .extended → s.door.rod.hold.due = true → (s.entry .doorDrive).lease = .held → s.atRest →
      ∃ t, exec .rodHoldEnd s = .next t ∧ (t.entry .doorDrive).lease = .releasing ∧
        (t.entry .doorDrive).holder = (s.entry .doorDrive).holder ∧
        t.drive = { s.drive with doorRamp := Ramp.zero, rodExtend := false } ∧ t.door.rod.state = .retracting ∧
        t.door.rod.retract = some (.lease, Timer.zero) ∧
        (s.door.rod.retRaw = false → t.rodLevel = 128) ∧ (s.door.rod.retRaw = true → t.rodLevel = 0) ∧
        t.door.door = s.door.door ∧ s.keepsEntriesBut t [.doorDrive] ∧ s.keepsBut t [.arb, .drive, .door])

/-- ROD_RETRACTED under a LEASE retract of a DOOR_PUSH: the rod is RETRACTED, DOOR_DRIVE FREE and the operation DONE with the rod
state, pushed and door seen open; one whose outcome was fixed before is answered with it, with the rod state as it is now and the
flags as they were kept then (notes/assumptions/13.md), a DRY with its kept fields; a RESET retract ends with no lease. -/
def Sys2Proof.Clauses.RodRetracts : Prop :=
  ∀ s : State, s.door.rod.state = .retracting → s.door.rod.retEdge = true → s.atRest →
    (∀ (x : Timer) (i : SlotId) (sl : Slot) (w : DoorWork), s.door.rod.retract = some (.lease, x) →
      (s.entry .doorDrive).lease = .releasing → (s.entry .doorDrive).holder = some ⟨.dry, some i⟩ →
      s.pool[i] = some sl → sl.work = .doorPush w → sl.outcome = none → w.phase = .pushing →
      ∃ t, exec .rodRetracted s = .next t ∧ t.door.rod = { s.door.rod with
          state := .retracted, retract := none, retEdge := false } ∧
        (t.entry .doorDrive).lease = .free ∧ t.pool[i] = none ∧
        s.responds t sl.port [opResponse sl.tag .done (byte1 0 ++ flagByte w.pushed ++ flagByte w.seenOpen)] ∧
        t.drive = { s.drive with door := Setting.zero, doorRamp := Ramp.zero } ∧
        (∀ j : SlotId, j ≠ i → t.pool[j] = s.pool[j]) ∧
        s.keepsEntriesBut t [.doorDrive] ∧ s.keepsBut t [.arb, .pool, .ports, .drive, .door]) ∧
    (∀ (x : Timer) (i : SlotId) (sl : Slot) (w : DoorWork) (o : OutcomeCode) (fields : List Byte),
      s.door.rod.retract = some (.lease, x) → (s.entry .doorDrive).lease = .releasing →
      (s.entry .doorDrive).holder = some ⟨.dry, some i⟩ → s.pool[i] = some sl → sl.outcome = some o →
      (sl.work = .doorPush w ∧ fields = byte1 0 ++ w.fixed) ∨ (sl.work = .dry w ∧ fields = w.fixed) →
      ∃ t, exec .rodRetracted s = .next t ∧ t.door.rod = { s.door.rod with
          state := .retracted, retract := none, retEdge := false } ∧
        (t.entry .doorDrive).lease = .free ∧ t.pool[i] = none ∧ s.responds t sl.port [opResponse sl.tag o fields] ∧
        t.drive = { s.drive with door := Setting.zero, doorRamp := Ramp.zero } ∧
        (∀ j : SlotId, j ≠ i → t.pool[j] = s.pool[j]) ∧
        s.keepsEntriesBut t [.doorDrive] ∧ s.keepsBut t [.arb, .pool, .ports, .drive, .door]) ∧
    (∀ x : Timer, s.door.rod.retract = some (.reset, x) → (∀ i, s.doorAt i = none) →
      exec .rodRetracted s = .next { s with door := { s.door with
        rod := { s.door.rod with state := .retracted, retract := none, retEdge := false } } })

/-- PUSH_STALL: the rod is STALLED, the fault and ROD_STALLED name the cause, the operation is STALLED with its two flags as they are
then (notes/assumptions/13.md), and DOOR_DRIVE winds down under a LEASE retract. -/
def Obligations.PushStalls : Prop :=
  ∀ (s : State) (cause : StallCause) (i : SlotId) (sl : Slot) (w : DoorWork), s.door.rod.state = .extending →
    s.door.rod.stallDue cause = true → (s.entry .doorDrive).lease = .held →
    (s.entry .doorDrive).holder = some ⟨.dry, some i⟩ → s.pool[i] = some sl → sl.work = .doorPush w → sl.outcome = none →
    w.phase = .pushing → (∀ j, j ≠ i → s.doorAt j = none) → s.drive.doorRamp.due = false → s.atRest →
    ∃ t, exec (.pushStall cause) s = .next t ∧ t.door.rod.state = .stalled ∧
      t.door.rod.retract = some (.lease, Timer.zero) ∧
      t.pool[i] = some { sl with
        outcome := some .stalled
        work := .doorPush { w with fixed := flagByte w.pushed ++ flagByte w.seenOpen } } ∧
      (∀ j : SlotId, j ≠ i → t.pool[j] = s.pool[j]) ∧
      (t.entry .doorDrive).lease = .releasing ∧ t.drive = { s.drive with doorRamp := Ramp.zero, rodExtend := false } ∧
      t.ports = ((s.fault .pushStall 0 s.drive.doorRamp.level).post .rodStalled 0
        (match cause with | .maxHold => 1 | .timeout => 2)).ports ∧
      t.prot = (s.fault .pushStall 0 s.drive.doorRamp.level).prot ∧ t.door.door = s.door.door ∧
      s.keepsEntriesBut t [.doorDrive] ∧ s.keepsBut t [.arb, .pool, .ports, .drive, .door, .prot]

/-- RETRACT_TIMEOUT of a RESET retract in a part with no door-opening operation: the motor stops, the fault is posted with detail
2, and the rod is STALLED, reported where it was not. -/
def Sys2Proof.Clauses.RetractTimesOut : Prop :=
  ∀ (s : State) (x : Timer), s.door.rod.retract = some (.reset, x) → x.due = true → (∀ i, s.doorAt i = none) → s.atRest →
    ∃ t, exec .retractTimeout s = .next t ∧ t.door.rod = { s.door.rod with state := .stalled, retract := none } ∧
      t.rodLevel = (if s.drive.rodExtend = true ∧ (s.entry .doorDrive).lease = .held ∧ s.door.rod.extRaw = false
        then s.drive.doorRamp.level else 0) ∧
      t.prot = (s.fault .retractTimeout 0 2).prot ∧
      t.ports = (if s.door.rod.state = .stalled then (s.fault .retractTimeout 0 2).ports
        else ((s.fault .retractTimeout 0 2).post .rodStalled 0 3).ports) ∧
      t.door.door = s.door.door ∧ s.keepsBut t [.ports, .door, .prot]

/-- A LEASE retract's other ends: timed out, DOOR_DRIVE is FREE and the operation answered, STALLED where its outcome was not fixed; at
ROD_RET closed, a rod that is STALLED stays so, and a DRY in PUSHING is in AJAR with the door OPEN, else ends CLOSED_EARLY. -/
def Sys2Proof.Clauses.LeaseRetractEnds : Prop :=
  ∀ (s : State) (x : Timer) (i : SlotId) (sl : Slot) (dry : Bool) (w : DoorWork), s.door.rod.retract = some (.lease, x) →
    (s.entry .doorDrive).lease = .releasing → (s.entry .doorDrive).holder = some ⟨.dry, some i⟩ → s.pool[i] = some sl →
    sl.work = doorWork dry w → s.atRest → (∀ j, j ≠ i → s.doorAt j = none) →
    (∀ (o : OutcomeCode) (fields : List Byte) (u v : State), x.due = true →
      ((sl.outcome = none ∧ w.phase = .pushing ∧ o = .stalled ∧ fields = (if dry = true
          then byte1 2 ++ flagByte w.pushed ++ byte2 (w.ajarPassed.passed / 50)
          else byte1 4 ++ flagByte w.pushed ++ flagByte w.seenOpen)) ∨
        (sl.outcome = some o ∧ fields = (if dry = true then w.fixed else byte1 4 ++ w.fixed))) →
      u = s.fault .retractTimeout 0 1 → v = (if s.door.rod.state = .stalled then u else u.post .rodStalled 0 3) →
      ∃ t, exec .retractTimeout s = .next t ∧ t.door.rod = { s.door.rod with state := .stalled, retract := none } ∧
        (t.entry .doorDrive).lease = .free ∧ t.pool[i] = none ∧ s.responds t sl.port [opResponse sl.tag o fields] ∧
        t.prot = u.prot ∧ (∀ p, (t.port p).subs = (v.port p).subs) ∧
        t.drive = { s.drive with door := Setting.zero, doorRamp := Ramp.zero } ∧
        (∀ j : SlotId, j ≠ i → t.pool[j] = s.pool[j]) ∧ s.keepsEntriesBut t [.doorDrive] ∧
        s.keepsBut t [.arb, .pool, .ports, .drive, .door, .prot]) ∧
    (s.door.rod.retEdge = true →
      ∃ t, exec .rodRetracted s = .next t ∧
        (s.door.rod.state = .stalled → t.door.rod = { s.door.rod with retract := none, retEdge := false } ∧
          ∀ o, sl.outcome = some o → t.pool[i] = none ∧
            s.responds t sl.port [opResponse sl.tag o (if dry = true then w.fixed else byte1 4 ++ w.fixed)]) ∧
        (s.door.rod.state = .retracting → dry = true → sl.outcome = none → w.phase = .pushing →
          t.door.rod = { s.door.rod with state := .retracted, retract := none, retEdge := false } ∧
          (s.doorClosed = false → t.pool[i] = some { sl with work := .dry { w with
            phase := .ajar, ajarPassed := Timer.zero, heldBack := false } } ∧ t.ports = s.ports) ∧
          (s.doorClosed = true → t.pool[i] = none ∧ s.responds t sl.port [opResponse sl.tag .closedEarly
            (byte1 2 ++ flagByte w.pushed ++ byte2 (w.ajarPassed.passed / 50))])) ∧
        (t.entry .doorDrive).lease = .free ∧ t.drive = { s.drive with door := Setting.zero, doorRamp := Ramp.zero } ∧
        (∀ j : SlotId, j ≠ i → t.pool[j] = s.pool[j]) ∧ s.keepsEntriesBut t [.doorDrive] ∧
        s.keepsBut t [.arb, .pool, .ports, .drive, .door])

/-- DOOR_RESET (the rod state is carried by every answer: notes/assumptions/29.md): STATE for a rod not STALLED or not drawn in, BUSY
while DOOR_DRIVE has a holder, else RETRACTED with its times at 0. -/
def Sys2Proof.Clauses.DoorResetClearsTheRod : Prop :=
  ∀ (s : State) (p : Port) (tag : Nat), s.hears p tag →
    (s.door.rod.state ≠ .stalled →
      exec (.doorReset p tag) s = .next (s.answered p tag .state (byte1 (rodStateCode s.door.rod.state)))) ∧
    (s.door.rod.state = .stalled → s.hasHolder .doorDrive = true →
      exec (.doorReset p tag) s = .next (s.answered p tag .busy (byte1 4))) ∧
    (s.door.rod.state = .stalled → s.hasHolder .doorDrive = false → s.door.rod.ret.value = false →
      exec (.doorReset p tag) s = .next (s.answered p tag .state (byte1 4))) ∧
    (s.door.rod.state = .stalled → s.hasHolder .doorDrive = false → s.door.rod.ret.value = true → s.atRest →
      exec (.doorReset p tag) s = .next (({ s with door := { s.door with rod := { s.door.rod with
        state := .retracted, extend := Timer.zero, maxHold := 0, maxHoldDue := false, hold := Timer.zero } } } :
          State).answered p tag .ok (byte1 0)))

/-- ROD_EXTENDED, ROD_HOLD_END, ROD_RETRACTED, RETRACT_TIMEOUT and DOOR_RESET. -/
def Obligations.RodTravels : Prop :=
  Clauses.RodExtendsAndHolds ∧ Clauses.RodRetracts ∧ Clauses.LeaseRetractEnds ∧ Clauses.RetractTimesOut ∧
    Clauses.DoorResetClearsTheRod

/-- The second half of law 5 is kept by every step, with what carries it: no FILL holds INLET through a REGENERATING column, and a
requester waits only in its own place and holds only what its operation asks for. -/
def Obligations.FillWaterLawKept : Prop :=
  ∀ s t : State, s.tableSafe → s.queueLegal → s.placed → s.fillSafe → step s = .next t → t.placed ∧ t.fillSafe

/-- DRY_DELAY_END and DRY_AJAR_END: a passed delay asks for DOOR_DRIVE in WAIT_QUIET, here while a guarded resource has a holder and
so with the door priority in force; a passed ajar time ends the DRY DONE with its phase, pushed and the ajar time in seconds. -/
def Obligations.DryDelayAndAjarEnd : Prop :=
  ∀ (s : State) (i : SlotId) (sl : Slot) (w : DoorWork), s.doorSlot = some i → s.pool[i] = some sl → sl.work = .dry w →
    sl.outcome = none → s.atRest →
    (w.phase = .delay → w.delayPassed.due = true → s.door.rod.state = .retracted → s.guardedHeld = true →
      s.hasHolder .doorDrive = false → ∃ t, exec .dryDelayEnd s = .next t ∧
        t.pool[i] = some { sl with work := .dry { w with phase := .waitQuiet, heldBack := false } } ∧
        (t.entry .doorDrive).waiters = [⟨⟨.dry, some i⟩, sl.age, none, true⟩] ∧ (t.entry .doorDrive).lease = .free ∧
        (∀ j : SlotId, j ≠ i → t.pool[j] = s.pool[j]) ∧ s.keepsEntriesBut t [.doorDrive] ∧ s.keepsBut t [.arb, .pool]) ∧
    (w.phase = .ajar → w.ajarPassed.due = true → ∃ t, exec .dryAjarEnd s = .next t ∧ t.pool[i] = none ∧
      s.responds t sl.port [opResponse sl.tag .done (byte1 3 ++ flagByte w.pushed ++ byte2 (w.ajarPassed.passed / 50))] ∧
      (∀ j : SlotId, j ≠ i → t.pool[j] = s.pool[j]) ∧ s.keepsBut t [.pool, .ports])

/-! ### Trips and faults (chapter 9) -/

/-- TRIP_CLEAR: STATE with an empty set where no trip is latched (notes/assumptions/12.md), STATE with the causes that remain
where one does; else the set is emptied and answered, the queue is judged for its head and the waiters are served, as
REGEN_HEAD_TAKEN does (notes/assumptions/42.md), and last TRIP_CLEARED carries the set. -/
def Sys2Proof.Clauses.TripClearAllOrNothing : Prop :=
  ∀ (s : State) (p : Port) (tag : Nat), s.hears p tag →
    (s.latched = false → exec (.tripClear p tag) s = .next (s.answered p tag .state (byte1 0))) ∧
    (s.latched = true →
      (((s.prot.flood = true ∧ s.roleGone .leak = false) ∨ (s.prot.overfill = true ∧ s.roleGone .tankHigh = false) ∨
          (s.prot.overtemp = true ∧ s.water.overTemp = true)) →
        exec (.tripClear p tag) s = .next (s.answered p tag .state (byte1 (causeSum
          (s.prot.flood && !s.roleGone .leak) (s.prot.overfill && !s.roleGone .tankHigh)
          (s.prot.overtemp && s.water.overTemp))))) ∧
      ((s.prot.flood = true → s.roleGone .leak = true) → (s.prot.overfill = true → s.roleGone .tankHigh = true) →
        (s.prot.overtemp = true → s.water.overTemp = false) →
        ∀ (set : Nat) (u : State), set = causeSum s.prot.flood s.prot.overfill s.prot.overtemp →
          u = ({ s with prot := { s.prot with flood := false, overfill := false, overtemp := false } } : State).answered
            p tag .ok (byte1 set) →
          (s.atRest → (s.soft.queue = [] ∨ s.mode = .setup ∨ s.soft.regen ≠ none) →
            exec (.tripClear p tag) s = .next (u.post .tripCleared 0 set)) ∧
          ∀ v, exec .regenHeadTaken u = .next v → exec (.tripClear p tag) s = .next (v.post .tripCleared 0 set)))

/-- A cause handed in while no trip is latched latches it: the trip set has no holder and no waiter after it, no channel is left
but IDLE or HALTED with cause TRIP, and FLOOD and OVERFILL put DRAIN under PROTECT. -/
def Obligations.TripLatchRevokes : Prop :=
  ∀ (s t : State) (c : TripCause) (point : Nat), s.latched = false → s.tableSafe → s.prot.force = .off →
    (∀ h, (s.entry .drain).holder = some h → h.ident ≠ .protect) → t = s.handIn c point →
    t.latched = true ∧ t.hasCause c = true ∧ t.tableSafe ∧
    (∀ r, r.inTripSet = true → (t.entry r).lease = .free ∧ (t.entry r).holder = none ∧ (t.entry r).waiters = []) ∧
    (∀ k, (t.channel k).state = .idle ∨ ((t.channel k).state = .halted ∧ (t.channel k).cause = .trip)) ∧
    (c ≠ .overtemp → t.prot.force = .forcing ∧ (t.entry .drain).lease = .held ∧
      (t.entry .drain).holder = some ⟨.protect, none⟩) ∧
    t.cfg = s.cfg ∧ t.mode = s.mode ∧ t.sense.points = s.sense.points

/-- FORCE_POSTRUN_END: the force ends, its causes are emptied, DRAIN becomes FREE; the tank account and the trip stay. -/
def Sys2Proof.Clauses.ForceEnds : Prop :=
  ∀ s : State, s.prot.force = .postrun → s.prot.postrun.due = true → s.atRest →
    ∃ t, exec .forcePostrunEnd s = .next t ∧
      t.prot = { s.prot with force := .off, forceFlood := false, forceOverfill := false, postrun := Timer.zero } ∧
      (t.entry .drain).lease = .free ∧ (t.entry .drain).holder = none ∧ t.outputOn .drain = false ∧
      s.keepsEntriesBut t [.drain] ∧ s.keepsBut t [.arb, .prot, .sense]

/-- A confirmed CLEAR of the LEAK or TANK_HIGH point under a force: with the point of every forcing cause CLEAR the post-run begins, or,
where DRAIN_POSTRUN is 0 in the present drive period, the force ends; else it goes on. The cause set stays. -/
def Sys2Proof.Clauses.ForceJudged : Prop :=
  ∀ (s : State) (g : GroupId) (count : Nat) (n : PointId) (all : Prop), s.confirms g count n .clear →
    ((s.point n).role = .leak ∨ (s.point n).role = .tankHigh) → s.prot.force = .forcing → s.atRest →
    (all ↔ (s.prot.forceFlood = true → (s.point n).role ≠ .leak → s.roleGone .leak = true) ∧
      (s.prot.forceOverfill = true → (s.point n).role ≠ .tankHigh → s.roleGone .tankHigh = true)) →
    ∃ t, exec (.measurementEnd g count) s = .next t ∧
      (all → 0 < s.drive.postrun → t.prot = { s.prot with force := .postrun, postrun := Timer.zero } ∧ t.arb = s.arb) ∧
      (all → s.drive.postrun = 0 → t.prot = { s.prot with
          force := .off, forceFlood := false, forceOverfill := false, postrun := Timer.zero } ∧
        (t.entry .drain).lease = .free ∧ t.outputOn .drain = false ∧ s.keepsEntriesBut t [.drain]) ∧
      (¬all → t.prot = s.prot ∧ t.arb = s.arb) ∧
      t.ports = (s.post .senseChanged n.val 1).ports ∧ s.keepsBut t [.arb, .ports, .sense, .prot]

/-- TRIP_CLEAR, a force judged at a CLEAR, and FORCE_POSTRUN_END. -/
def Obligations.TripAndForceEnd : Prop :=
  Clauses.TripClearAllOrNothing ∧ Clauses.ForceJudged ∧ Clauses.ForceEnds

/-- FAULT_CLEAR (R179): BAD_PARAM above 31; else each group named is emptied, MULTIPLE is cleared if no group holds a record then, and
the response carries the named groups that held one; the trip state is not touched. -/
def Obligations.FaultClearEmptiesTheGroups : Prop :=
  ∀ (s : State) (p : Port) (tag groups : Nat), s.hears p tag →
    (31 < groups → exec (.faultClear p tag groups) s = .next (s.answered p tag .badParam [])) ∧
    (groups ≤ 31 → ∃ t, exec (.faultClear p tag groups) s = .next t ∧
      (∀ g : Fin 5, t.prot.groups[g] = if groups.testBit g.val then none else s.prot.groups[g]) ∧
      ((∀ g : Fin 5, t.prot.groups[g] = none) → t.prot.multiple = false) ∧
      ((∃ g : Fin 5, t.prot.groups[g] ≠ none) → t.prot.multiple = s.prot.multiple) ∧
      t.prot.flood = s.prot.flood ∧ t.prot.overfill = s.prot.overfill ∧ t.prot.overtemp = s.prot.overtemp ∧
      t.prot.force = s.prot.force ∧ s.keepsBut t [.prot, .ports] ∧
      t.ports = (s.answered p tag .ok (byte1 (((List.finRange 5).map fun g =>
        if groups.testBit g.val && s.prot.groups[g].isSome then 2 ^ g.val else 0).sum))).ports)

/-! ### Reading (chapters 4, 9 and 10) -/

/-- FAULT_READ: for each group whether it holds a record and, if so, its kind, subject, time and detail (an empty group is its
flag alone: notes/assumptions/12.md); MULTIPLE; the capture enables; the trip state, the cause set and the force state; and
nothing changes. -/
def Obligations.FaultReadGives : Prop :=
  ∀ (s : State) (p : Port) (tag : Nat), s.hears p tag →
    exec (.faultRead p tag) s = .next (s.answered p tag .ok
      (((List.finRange 5).flatMap fun g => match s.prot.groups[g] with
          | none => flagByte false
          | some f => flagByte true ++
              (byte1 (faultKindCode f.kind) ++ byte1 f.subject ++ byte4 f.time ++ byte2 f.detail)) ++
        flagByte s.prot.multiple ++ ((List.finRange 14).flatMap fun k => flagByte s.cfg.capture[k]) ++
        (flagByte s.latched ++ byte1 s.causeSet ++ byte1 (forceCode s.prot.force))))

/-- ACCOUNTS_READ (R92): the reservoirs, the salt, the columns, the hardness, the tank and the draw log, as they stand, in either
mode; nothing changes. -/
def Obligations.AccountsReadGives : Prop :=
  ∀ (s : State) (p : Port) (tag : Nat), s.hears p tag →
    exec (.accountsRead p tag) s = .next (s.answered p tag .ok
      (((List.finRange 3).flatMap fun n => byte2 s.acct.reservoirs[n].amount ++ flagByte s.acct.reservoirs[n].known ++
          flagByte s.acct.reservoirs[n].low ++ flagByte s.acct.reservoirs[n].empty) ++
        byte2 s.acct.salt.amount ++ flagByte s.acct.salt.known ++ flagByte s.acct.salt.low ++
        (byte1 (columnStateCode s.soft.colA.state) ++ byte2 s.cfg.capRatedA ++ byte2 s.soft.colA.remaining ++
          byte2 s.soft.colA.count ++ byte1 (lastOutcomeCode s.soft.colA.last)) ++
        (byte1 (columnStateCode s.soft.colB.state) ++ byte2 s.cfg.capRatedB ++ byte2 s.soft.colB.remaining ++
          byte2 s.soft.colB.count ++ byte1 (lastOutcomeCode s.soft.colB.last)) ++
        byte1 s.acct.hardness ++ flagByte s.acct.sensed ++ flagByte s.cfg.hardnessSensed ++
        byte1 s.water.tank ++ flagByte s.water.tankKnown ++
        byte2 ((s.acct.log.head?.map fun r => r.number).getD s.acct.nextDraw) ++ byte2 s.acct.nextDraw ++
        byte1 s.acct.log.length))

/-- READ_DRAWS (R90): the oldest number held, the next number, a count, and the oldest up to eight records whose number is at or
after the starting one; nothing changes. -/
def Obligations.ReadDrawsGives : Prop :=
  ∀ (s : State) (p : Port) (tag start : Nat), s.hears p tag → start < 65536 →
    exec (.readDraws p tag start) s = .next (s.answered p tag .ok
      (byte2 ((s.acct.log.head?.map fun r => r.number).getD s.acct.nextDraw) ++ byte2 s.acct.nextDraw ++
        byte1 ((s.acct.log.filter fun r => decide ((r.number + 65536 - start) % 65536 ≤ 32767)).take 8).length ++
        (((s.acct.log.filter fun r => decide ((r.number + 65536 - start) % 65536 ≤ 32767)).take 8).map
          drawBytes).flatten))

/-- STATUS of section 0: the run clock, the part mode, each of the ten resources in table order (lease state; holder identity, port
and pool slot, NONE as 255; yield requested; number of waiters), the current and the held selector position. -/
def Sys2Proof.Clauses.StatusOfResources : Prop :=
  ∀ (s : State) (p : Port) (tag : Nat), s.hears p tag → exec (.status p tag 0) s = .next (s.answered p tag .ok
    (byte4 s.drive.clock ++ (byte1 (modeCode s.mode) ++
      [Resource.selector, .brine, .inlet, .circ, .heater, .drain, .dose 0, .dose 1, .dose 2, .doorDrive].flatMap (fun r =>
        byte1 (leaseCode (s.entry r).lease) ++
        (match (s.entry r).holder with
          | none => byte1 255 ++ byte1 255 ++ byte1 255
          | some h => byte1 (identCode h.ident) ++ byte1 (((s.entry r).holderPort.map portCode).getD 255) ++
              byte1 ((h.slot.map fun i => i.val).getD 255)) ++
        flagByte (s.entry r).yieldRequested ++ byte1 (s.entry r).waiters.length) ++
      byte1 (match s.arb.selCurrent with | some .a => 0 | some .b => 1 | none => 2) ++
      byte1 (match s.arb.selHeld with | .a => 0 | .b => 1))))

/-- STATUS of section 1: the run clock, the number of free slots, and each of the twelve slots as free or with its port, tag, kind,
slot state and progress. -/
def Sys2Proof.Clauses.StatusOfPool : Prop :=
  ∀ (s : State) (p : Port) (tag : Nat), s.hears p tag → exec (.status p tag 1) s = .next (s.answered p tag .ok
    (byte4 s.drive.clock ++ (byte1 ((List.finRange 12).filter fun i => s.pool[i].isNone).length ++
      (List.finRange 12).flatMap fun i => match s.pool[i] with
        | none => flagByte false
        | some sl => flagByte true ++ (byte1 (portCode sl.port) ++ byte1 sl.tag ++ byte1 (workKindCode sl.work) ++
            byte1 (slotStateCode (s.slotState i sl)) ++ byte2 (match sl.work with
              | .fill w => w.counted
              | .circulate w => w.run.passed / 50
              | .heat w => w.passed.passed / 50
              | .drain w => if w.postrun.isSome then 1 else 0
              | .regenerate _ => match s.soft.regen with
                | some g => if g.requester = some (sl.port, i) then phaseCode g.phase * 256 + g.counted else 0
                | none => 0
              | .doorPush _ => rodStateCode s.door.rod.state
              | .dry w => doorPhaseCode w.phase)))))

/-- The state of a slot: ENDING with its outcome fixed; WAIT_SOFT for a FILL that waits for soft water; QUEUED for a REGENERATE in the
queue; ACQUIRING while a waiter record of it stands, its SELECTOR travels, its regeneration is in STARTING or its push is held back;
else ACTIVE (computed: notes/assumptions/20.md). -/
def Sys2Proof.Clauses.SlotStates : Prop :=
  ∀ (s : State) (i : SlotId) (sl : Slot) (who : Holder) (asks : Prop),
    (who = match sl.work with | .doorPush _ => ⟨.dry, some i⟩ | .dry _ => ⟨.dry, some i⟩ | _ => ⟨.port sl.port, some i⟩) →
    (asks ↔ (∃ r, ∃ w ∈ (s.entry r).waiters, w.who = who) ∨
      ((s.entry .selector).lease = .moving ∧ (s.entry .selector).holder = some who)) →
    (sl.outcome ≠ none → s.slotState i sl = .ending) ∧
    (sl.outcome = none →
      (∀ w, sl.work = .fill w → (w.waitSoft = true → s.slotState i sl = .waitSoft) ∧
        (w.waitSoft = false → (asks → s.slotState i sl = .acquiring) ∧ (¬asks → s.slotState i sl = .active))) ∧
      (((∃ w, sl.work = .circulate w) ∨ (∃ w, sl.work = .heat w) ∨ (∃ w, sl.work = .drain w)) →
        (asks → s.slotState i sl = .acquiring) ∧ (¬asks → s.slotState i sl = .active)) ∧
      (∀ w, (sl.work = .doorPush w ∨ sl.work = .dry w) →
        ((w.heldBack = true ∨ asks) → s.slotState i sl = .acquiring) ∧
        (w.heldBack = false → ¬asks → s.slotState i sl = .active)) ∧
      (∀ c, sl.work = .regenerate c →
        ((∃ q ∈ s.soft.queue, q.requester = some (sl.port, i)) → s.slotState i sl = .queued) ∧
        ((∀ q ∈ s.soft.queue, q.requester ≠ some (sl.port, i)) → ∀ g, s.soft.regen = some g →
          ((g.phase = .starting ∨ asks) → s.slotState i sl = .acquiring) ∧
          (g.phase ≠ .starting → ¬asks → s.slotState i sl = .active))))

/-- STATUS of section 2: the run clock; the tank account and its basis, the temperature, the probe, the over-temperature condition,
the interlock and which of its four conditions fail; SEL_M, BRINE_V, INLET_V, CIRC_P, HEATER, DRAIN_P, the dose pumps, ROD_M with
its direction, the stroke generators, and the periods of a running travel. -/
def Sys2Proof.Clauses.StatusOfWaterAndDrive : Prop :=
  ∀ (s : State) (p : Port) (tag : Nat), s.hears p tag → exec (.status p tag 2) s = .next (s.answered p tag .ok
    (byte4 s.drive.clock ++
      ((byte1 s.water.tank ++ flagByte s.water.tankKnown ++ byte2 s.water.temperature ++ flagByte s.water.probeValid ++
          flagByte s.water.overTemp ++ flagByte s.water.interlock ++
          (flagByte ((s.entry .circ).lease != .held) ++ flagByte (!s.waterPresent) ++ flagByte (!s.doorClosed) ++
            flagByte (!s.water.probeValid))) ++
        (flagByte ((s.entry .selector).lease == .moving) ++ flagByte ((s.entry .brine).lease == .held) ++
          flagByte ((s.entry .inlet).lease == .held) ++
          (byte1 s.drive.circRamp.level ++ byte1 s.drive.circ.active ++ byte1 s.drive.circ.staged ++
            flagByte s.drive.circ.applyPending) ++
          flagByte ((s.entry .heater).lease == .held) ++ flagByte ((s.entry .drain).lease == .held) ++
          flagByte s.drive.strokes[(0 : ReservoirId)].running ++ flagByte s.drive.strokes[(1 : ReservoirId)].running ++
          flagByte s.drive.strokes[(2 : ReservoirId)].running ++
          (byte1 s.drive.doorRamp.level ++ byte1 s.drive.door.active ++ byte1 s.drive.door.staged ++
            flagByte s.drive.door.applyPending) ++
          flagByte (!s.drive.rodExtend) ++
          (flagByte s.drive.strokes[(0 : ReservoirId)].running ++ flagByte s.drive.strokes[(1 : ReservoirId)].running ++
            flagByte s.drive.strokes[(2 : ReservoirId)].running) ++
          (match s.drive.travel with
            | none => flagByte false
            | some x => flagByte true ++ byte2 x.passed)))))

/-- STATUS of section 3: the run clock; both column records (state, rated and remaining capacity, regeneration count, last outcome);
the queue entries in order with column and requester, REGEN as identity 3 and slot 255; the regeneration in progress (column,
requester, phase, counted volume, soak time in seconds, brine seen, judgement, cancel pending) or none; the breakthrough mark. -/
def Sys2Proof.Clauses.StatusOfSoftener : Prop :=
  ∀ (s : State) (p : Port) (tag : Nat) (who : Option (Port × SlotId) → List Byte), s.hears p tag →
    (∀ q, who q = match q with | none => byte1 3 ++ byte1 255 | some (x, i) => byte1 (portCode x) ++ byte1 i.val) →
    exec (.status p tag 3) s = .next (s.answered p tag .ok (byte4 s.drive.clock ++
      ((byte1 (columnStateCode s.soft.colA.state) ++ byte2 s.cfg.capRatedA ++ byte2 s.soft.colA.remaining ++
          byte2 s.soft.colA.count ++ byte1 (lastOutcomeCode s.soft.colA.last)) ++
        (byte1 (columnStateCode s.soft.colB.state) ++ byte2 s.cfg.capRatedB ++ byte2 s.soft.colB.remaining ++
          byte2 s.soft.colB.count ++ byte1 (lastOutcomeCode s.soft.colB.last)) ++
        (byte1 s.soft.queue.length ++ (s.soft.queue.map fun q => byte1 (columnCode q.column) ++ who q.requester).flatten) ++
        (match s.soft.regen with
          | none => flagByte false
          | some g => flagByte true ++ (byte1 (columnCode g.column) ++ who g.requester ++ byte1 (phaseCode g.phase) ++
              byte1 g.counted ++ byte2 (g.soak.passed / 50) ++ flagByte g.brineSeen ++
              byte1 (judgementCode g.judgement) ++ flagByte g.cancelPending)) ++
        byte1 (if s.soft.colA.breakthrough ≠ none then 0 else if s.soft.colB.breakthrough ≠ none then 1 else 255))))

/-- STATUS of section 4: the run clock; the door state, its candidate and agreeing count; the rod record (state, each filtered switch
with its agreeing count, extend time, max-hold count, hold time, retract and its time); the DRY in flight (phase, delay and ajar
time in seconds, pushed, seen open) or none; the trip state, its causes, the force. -/
def Sys2Proof.Clauses.StatusOfDoorAndTrip : Prop :=
  ∀ (s : State) (p : Port) (tag : Nat) (dry : List Byte), s.hears p tag →
    ((∃ i sl w, s.doorSlot = some i ∧ s.pool[i] = some sl ∧ sl.work = .dry w ∧
        dry = flagByte true ++ (byte1 (doorPhaseCode w.phase) ++ byte2 (w.delayPassed.passed / 50) ++
          byte2 (w.ajarPassed.passed / 50) ++ flagByte w.pushed ++ flagByte w.seenOpen)) ∨
      ((∀ i sl w, s.doorSlot = some i → s.pool[i] = some sl → sl.work ≠ .dry w) ∧ dry = flagByte false)) →
    exec (.status p tag 4) s = .next (s.answered p tag .ok (byte4 s.drive.clock ++
      ((flagByte (!s.door.door.value) ++ flagByte (!s.door.door.candidate) ++ byte1 s.door.door.agree) ++
        (byte1 (rodStateCode s.door.rod.state) ++ (flagByte (!s.door.rod.ret.value) ++ byte1 s.door.rod.ret.agree) ++
          (flagByte (!s.door.rod.ext.value) ++ byte1 s.door.rod.ext.agree) ++ byte2 s.door.rod.extend.passed ++
          byte1 s.door.rod.maxHold ++ byte2 s.door.rod.hold.passed ++
          byte1 (match s.door.rod.retract with | none => 0 | some (.lease, _) => 1 | some (.reset, _) => 2) ++
          byte2 (match s.door.rod.retract with | none => 0 | some (_, x) => x.passed)) ++
        dry ++ (flagByte s.latched ++ byte1 s.causeSet ++ byte1 (forceCode s.prot.force)))))

/-- STATUS (R191): a section 0..4 with its values in order, as they stand and in the model's layout (notes/assumptions/12.md); any
other section is BAD_PARAM; nothing changes. -/
def Obligations.StatusGivesTheSection : Prop :=
  (∀ (s : State) (p : Port) (tag sec : Nat), s.hears p tag → 4 < sec →
    exec (.status p tag sec) s = .next (s.answered p tag .badParam [])) ∧
  Clauses.StatusOfResources ∧ Clauses.StatusOfPool ∧ Clauses.SlotStates ∧ Clauses.StatusOfWaterAndDrive ∧
    Clauses.StatusOfSoftener ∧ Clauses.StatusOfDoorAndTrip
end

