-- ==== Sys2Proof/Laws/State.lean ====
section
/-! SUPPORT. One lemma per field per update of the state, and what reading a place gives after writing one. -/

namespace Sys2Proof.Machine

/-! ### Tables -/

/-- Reading an entry of a table with one entry replaced. -/
theorem upd_get {α : Type} {n : Nat} (v : Vector α n) (i j : Fin n) (x : α) :
    (upd v i x)[j] = if j = i then x else v[j] := by
  simp only [upd, Fin.getElem_fin, Vector.getElem_set, Fin.ext_iff]
  by_cases h : (i : Nat) = j <;> simp [h, eq_comm]

/-- The same in the form to which `simp` brings a place of a table. -/
@[simp] theorem upd_val {α : Type} {n : Nat} (v : Vector α n) (i j : Fin n) (x : α) :
    (upd v i x)[(j : Nat)] = if j = i then x else v[(j : Nat)] := upd_get v i j x

theorem upd_self {α : Type} {n : Nat} (v : Vector α n) (i : Fin n) (x : α) : (upd v i x)[i] = x := by
  rw [upd_get, if_pos rfl]

theorem upd_ne {α : Type} {n : Nat} (v : Vector α n) {i j : Fin n} (h : j ≠ i) (x : α) : (upd v i x)[j] = v[j] := by
  rw [upd_get, if_neg h]

theorem foldl_upd_get {α : Type} {n : Nat} (f : α → α) (l : List (Fin n)) (hl : l.Nodup) (w : Vector α n) (j : Fin n) :
    (l.foldl (fun w i => upd w i (f w[i])) w)[j] = if j ∈ l then f w[j] else w[j] := by
  induction l generalizing w with
  | nil => simp
  | cons i rest ih =>
    obtain ⟨hi, hr⟩ := List.nodup_cons.mp hl
    rw [List.foldl_cons, ih hr]
    by_cases h : j = i
    · subst h; simp [hi]
    · simp [h]

/-- Reading an entry of a table with a function applied to every entry. -/
theorem updAll_get {α : Type} {n : Nat} (f : α → α) (v : Vector α n) (j : Fin n) :
    (updAll f v)[j] = f v[j] := by
  unfold updAll
  rw [foldl_upd_get f _ (List.nodup_finRange n)]
  simp

/-- The same in the form to which `simp` brings a place of a table. -/
@[simp] theorem updAll_val {α : Type} {n : Nat} (f : α → α) (v : Vector α n) (j : Fin n) :
    (updAll f v)[(j : Nat)] = f v[(j : Nat)] := updAll_get f v j

/-! ### Fields after an update -/

@[simp] theorem State.setReservoir_arb (s : State) (n : ReservoirId) (a : Reservoir) :
    (s.setReservoir n a).arb = s.arb := rfl
@[simp] theorem State.setReservoir_pool (s : State) (n : ReservoirId) (a : Reservoir) :
    (s.setReservoir n a).pool = s.pool := rfl
@[simp] theorem State.setReservoir_accepted (s : State) (n : ReservoirId) (a : Reservoir) :
    (s.setReservoir n a).accepted = s.accepted := rfl
@[simp] theorem State.setReservoir_laps (s : State) (n : ReservoirId) (a : Reservoir) :
    (s.setReservoir n a).laps = s.laps := rfl
@[simp] theorem State.setReservoir_ports (s : State) (n : ReservoirId) (a : Reservoir) :
    (s.setReservoir n a).ports = s.ports := rfl
@[simp] theorem State.setReservoir_water (s : State) (n : ReservoirId) (a : Reservoir) :
    (s.setReservoir n a).water = s.water := rfl
@[simp] theorem State.setReservoir_soft (s : State) (n : ReservoirId) (a : Reservoir) :
    (s.setReservoir n a).soft = s.soft := rfl
@[simp] theorem State.setReservoir_dose (s : State) (n : ReservoirId) (a : Reservoir) :
    (s.setReservoir n a).dose = s.dose := rfl
@[simp] theorem State.setReservoir_sense (s : State) (n : ReservoirId) (a : Reservoir) :
    (s.setReservoir n a).sense = s.sense := rfl
@[simp] theorem State.setReservoir_drive (s : State) (n : ReservoirId) (a : Reservoir) :
    (s.setReservoir n a).drive = s.drive := rfl
@[simp] theorem State.setReservoir_door (s : State) (n : ReservoirId) (a : Reservoir) :
    (s.setReservoir n a).door = s.door := rfl
@[simp] theorem State.setReservoir_prot (s : State) (n : ReservoirId) (a : Reservoir) :
    (s.setReservoir n a).prot = s.prot := rfl
@[simp] theorem State.setReservoir_mode (s : State) (n : ReservoirId) (a : Reservoir) :
    (s.setReservoir n a).mode = s.mode := rfl
@[simp] theorem State.setReservoir_cfg (s : State) (n : ReservoirId) (a : Reservoir) :
    (s.setReservoir n a).cfg = s.cfg := rfl
@[simp] theorem State.setReservoir_choice (s : State) (n : ReservoirId) (a : Reservoir) :
    (s.setReservoir n a).choice = s.choice := rfl
@[simp] theorem State.setReservoir_pending (s : State) (n : ReservoirId) (a : Reservoir) :
    (s.setReservoir n a).pending = s.pending := rfl

@[simp] theorem State.setSalt_arb (s : State) (a : Salt) : (s.setSalt a).arb = s.arb := rfl
@[simp] theorem State.setSalt_pool (s : State) (a : Salt) : (s.setSalt a).pool = s.pool := rfl
@[simp] theorem State.setSalt_accepted (s : State) (a : Salt) : (s.setSalt a).accepted = s.accepted := rfl
@[simp] theorem State.setSalt_laps (s : State) (a : Salt) : (s.setSalt a).laps = s.laps := rfl
@[simp] theorem State.setSalt_ports (s : State) (a : Salt) : (s.setSalt a).ports = s.ports := rfl
@[simp] theorem State.setSalt_water (s : State) (a : Salt) : (s.setSalt a).water = s.water := rfl
@[simp] theorem State.setSalt_soft (s : State) (a : Salt) : (s.setSalt a).soft = s.soft := rfl
@[simp] theorem State.setSalt_dose (s : State) (a : Salt) : (s.setSalt a).dose = s.dose := rfl
@[simp] theorem State.setSalt_sense (s : State) (a : Salt) : (s.setSalt a).sense = s.sense := rfl
@[simp] theorem State.setSalt_drive (s : State) (a : Salt) : (s.setSalt a).drive = s.drive := rfl
@[simp] theorem State.setSalt_door (s : State) (a : Salt) : (s.setSalt a).door = s.door := rfl
@[simp] theorem State.setSalt_prot (s : State) (a : Salt) : (s.setSalt a).prot = s.prot := rfl
@[simp] theorem State.setSalt_mode (s : State) (a : Salt) : (s.setSalt a).mode = s.mode := rfl
@[simp] theorem State.setSalt_cfg (s : State) (a : Salt) : (s.setSalt a).cfg = s.cfg := rfl
@[simp] theorem State.setSalt_choice (s : State) (a : Salt) : (s.setSalt a).choice = s.choice := rfl
@[simp] theorem State.setSalt_pending (s : State) (a : Salt) : (s.setSalt a).pending = s.pending := rfl

@[simp] theorem State.setChannel_arb (s : State) (c : ChannelId) (ch : Channel) :
    (s.setChannel c ch).arb = s.arb := rfl
@[simp] theorem State.setChannel_pool (s : State) (c : ChannelId) (ch : Channel) :
    (s.setChannel c ch).pool = s.pool := rfl
@[simp] theorem State.setChannel_accepted (s : State) (c : ChannelId) (ch : Channel) :
    (s.setChannel c ch).accepted = s.accepted := rfl
@[simp] theorem State.setChannel_laps (s : State) (c : ChannelId) (ch : Channel) :
    (s.setChannel c ch).laps = s.laps := rfl
@[simp] theorem State.setChannel_ports (s : State) (c : ChannelId) (ch : Channel) :
    (s.setChannel c ch).ports = s.ports := rfl
@[simp] theorem State.setChannel_water (s : State) (c : ChannelId) (ch : Channel) :
    (s.setChannel c ch).water = s.water := rfl
@[simp] theorem State.setChannel_soft (s : State) (c : ChannelId) (ch : Channel) :
    (s.setChannel c ch).soft = s.soft := rfl
@[simp] theorem State.setChannel_acct (s : State) (c : ChannelId) (ch : Channel) :
    (s.setChannel c ch).acct = s.acct := rfl
@[simp] theorem State.setChannel_sense (s : State) (c : ChannelId) (ch : Channel) :
    (s.setChannel c ch).sense = s.sense := rfl
@[simp] theorem State.setChannel_drive (s : State) (c : ChannelId) (ch : Channel) :
    (s.setChannel c ch).drive = s.drive := rfl
@[simp] theorem State.setChannel_door (s : State) (c : ChannelId) (ch : Channel) :
    (s.setChannel c ch).door = s.door := rfl
@[simp] theorem State.setChannel_prot (s : State) (c : ChannelId) (ch : Channel) :
    (s.setChannel c ch).prot = s.prot := rfl
@[simp] theorem State.setChannel_mode (s : State) (c : ChannelId) (ch : Channel) :
    (s.setChannel c ch).mode = s.mode := rfl
@[simp] theorem State.setChannel_cfg (s : State) (c : ChannelId) (ch : Channel) :
    (s.setChannel c ch).cfg = s.cfg := rfl
@[simp] theorem State.setChannel_choice (s : State) (c : ChannelId) (ch : Channel) :
    (s.setChannel c ch).choice = s.choice := rfl
@[simp] theorem State.setChannel_pending (s : State) (c : ChannelId) (ch : Channel) :
    (s.setChannel c ch).pending = s.pending := rfl

@[simp] theorem State.setColumn_arb (s : State) (c : Column) (r : ColumnRec) :
    (s.setColumn c r).arb = s.arb := by cases c <;> rfl
@[simp] theorem State.setColumn_pool (s : State) (c : Column) (r : ColumnRec) :
    (s.setColumn c r).pool = s.pool := by cases c <;> rfl
@[simp] theorem State.setColumn_accepted (s : State) (c : Column) (r : ColumnRec) :
    (s.setColumn c r).accepted = s.accepted := by cases c <;> rfl
@[simp] theorem State.setColumn_laps (s : State) (c : Column) (r : ColumnRec) :
    (s.setColumn c r).laps = s.laps := by cases c <;> rfl
@[simp] theorem State.setColumn_ports (s : State) (c : Column) (r : ColumnRec) :
    (s.setColumn c r).ports = s.ports := by cases c <;> rfl
@[simp] theorem State.setColumn_water (s : State) (c : Column) (r : ColumnRec) :
    (s.setColumn c r).water = s.water := by cases c <;> rfl
@[simp] theorem State.setColumn_acct (s : State) (c : Column) (r : ColumnRec) :
    (s.setColumn c r).acct = s.acct := by cases c <;> rfl
@[simp] theorem State.setColumn_dose (s : State) (c : Column) (r : ColumnRec) :
    (s.setColumn c r).dose = s.dose := by cases c <;> rfl
@[simp] theorem State.setColumn_sense (s : State) (c : Column) (r : ColumnRec) :
    (s.setColumn c r).sense = s.sense := by cases c <;> rfl
@[simp] theorem State.setColumn_drive (s : State) (c : Column) (r : ColumnRec) :
    (s.setColumn c r).drive = s.drive := by cases c <;> rfl
@[simp] theorem State.setColumn_door (s : State) (c : Column) (r : ColumnRec) :
    (s.setColumn c r).door = s.door := by cases c <;> rfl
@[simp] theorem State.setColumn_prot (s : State) (c : Column) (r : ColumnRec) :
    (s.setColumn c r).prot = s.prot := by cases c <;> rfl
@[simp] theorem State.setColumn_mode (s : State) (c : Column) (r : ColumnRec) :
    (s.setColumn c r).mode = s.mode := by cases c <;> rfl
@[simp] theorem State.setColumn_cfg (s : State) (c : Column) (r : ColumnRec) :
    (s.setColumn c r).cfg = s.cfg := by cases c <;> rfl
@[simp] theorem State.setColumn_choice (s : State) (c : Column) (r : ColumnRec) :
    (s.setColumn c r).choice = s.choice := by cases c <;> rfl
@[simp] theorem State.setColumn_pending (s : State) (c : Column) (r : ColumnRec) :
    (s.setColumn c r).pending = s.pending := by cases c <;> rfl

@[simp] theorem State.setQueue_arb (s : State) (q : List QueueEntry) : (s.setQueue q).arb = s.arb := rfl
@[simp] theorem State.setQueue_pool (s : State) (q : List QueueEntry) : (s.setQueue q).pool = s.pool := rfl
@[simp] theorem State.setQueue_accepted (s : State) (q : List QueueEntry) :
    (s.setQueue q).accepted = s.accepted := rfl
@[simp] theorem State.setQueue_laps (s : State) (q : List QueueEntry) : (s.setQueue q).laps = s.laps := rfl
@[simp] theorem State.setQueue_ports (s : State) (q : List QueueEntry) : (s.setQueue q).ports = s.ports := rfl
@[simp] theorem State.setQueue_water (s : State) (q : List QueueEntry) : (s.setQueue q).water = s.water := rfl
@[simp] theorem State.setQueue_acct (s : State) (q : List QueueEntry) : (s.setQueue q).acct = s.acct := rfl
@[simp] theorem State.setQueue_dose (s : State) (q : List QueueEntry) : (s.setQueue q).dose = s.dose := rfl
@[simp] theorem State.setQueue_sense (s : State) (q : List QueueEntry) : (s.setQueue q).sense = s.sense := rfl
@[simp] theorem State.setQueue_drive (s : State) (q : List QueueEntry) : (s.setQueue q).drive = s.drive := rfl
@[simp] theorem State.setQueue_door (s : State) (q : List QueueEntry) : (s.setQueue q).door = s.door := rfl
@[simp] theorem State.setQueue_prot (s : State) (q : List QueueEntry) : (s.setQueue q).prot = s.prot := rfl
@[simp] theorem State.setQueue_mode (s : State) (q : List QueueEntry) : (s.setQueue q).mode = s.mode := rfl
@[simp] theorem State.setQueue_cfg (s : State) (q : List QueueEntry) : (s.setQueue q).cfg = s.cfg := rfl
@[simp] theorem State.setQueue_choice (s : State) (q : List QueueEntry) : (s.setQueue q).choice = s.choice := rfl
@[simp] theorem State.setQueue_pending (s : State) (q : List QueueEntry) : (s.setQueue q).pending = s.pending := rfl

@[simp] theorem State.setRegen_arb (s : State) (g : Option Regen) : (s.setRegen g).arb = s.arb := rfl
@[simp] theorem State.setRegen_pool (s : State) (g : Option Regen) : (s.setRegen g).pool = s.pool := rfl
@[simp] theorem State.setRegen_accepted (s : State) (g : Option Regen) : (s.setRegen g).accepted = s.accepted := rfl
@[simp] theorem State.setRegen_laps (s : State) (g : Option Regen) : (s.setRegen g).laps = s.laps := rfl
@[simp] theorem State.setRegen_ports (s : State) (g : Option Regen) : (s.setRegen g).ports = s.ports := rfl
@[simp] theorem State.setRegen_water (s : State) (g : Option Regen) : (s.setRegen g).water = s.water := rfl
@[simp] theorem State.setRegen_acct (s : State) (g : Option Regen) : (s.setRegen g).acct = s.acct := rfl
@[simp] theorem State.setRegen_dose (s : State) (g : Option Regen) : (s.setRegen g).dose = s.dose := rfl
@[simp] theorem State.setRegen_sense (s : State) (g : Option Regen) : (s.setRegen g).sense = s.sense := rfl
@[simp] theorem State.setRegen_drive (s : State) (g : Option Regen) : (s.setRegen g).drive = s.drive := rfl
@[simp] theorem State.setRegen_door (s : State) (g : Option Regen) : (s.setRegen g).door = s.door := rfl
@[simp] theorem State.setRegen_prot (s : State) (g : Option Regen) : (s.setRegen g).prot = s.prot := rfl
@[simp] theorem State.setRegen_mode (s : State) (g : Option Regen) : (s.setRegen g).mode = s.mode := rfl
@[simp] theorem State.setRegen_cfg (s : State) (g : Option Regen) : (s.setRegen g).cfg = s.cfg := rfl
@[simp] theorem State.setRegen_choice (s : State) (g : Option Regen) : (s.setRegen g).choice = s.choice := rfl
@[simp] theorem State.setRegen_pending (s : State) (g : Option Regen) : (s.setRegen g).pending = s.pending := rfl

@[simp] theorem State.setPoint_arb (s : State) (p : PointId) (r : Point) : (s.setPoint p r).arb = s.arb := rfl
@[simp] theorem State.setPoint_pool (s : State) (p : PointId) (r : Point) : (s.setPoint p r).pool = s.pool := rfl
@[simp] theorem State.setPoint_accepted (s : State) (p : PointId) (r : Point) :
    (s.setPoint p r).accepted = s.accepted := rfl
@[simp] theorem State.setPoint_laps (s : State) (p : PointId) (r : Point) : (s.setPoint p r).laps = s.laps := rfl
@[simp] theorem State.setPoint_ports (s : State) (p : PointId) (r : Point) : (s.setPoint p r).ports = s.ports := rfl
@[simp] theorem State.setPoint_water (s : State) (p : PointId) (r : Point) : (s.setPoint p r).water = s.water := rfl
@[simp] theorem State.setPoint_soft (s : State) (p : PointId) (r : Point) : (s.setPoint p r).soft = s.soft := rfl
@[simp] theorem State.setPoint_acct (s : State) (p : PointId) (r : Point) : (s.setPoint p r).acct = s.acct := rfl
@[simp] theorem State.setPoint_dose (s : State) (p : PointId) (r : Point) : (s.setPoint p r).dose = s.dose := rfl
@[simp] theorem State.setPoint_drive (s : State) (p : PointId) (r : Point) : (s.setPoint p r).drive = s.drive := rfl
@[simp] theorem State.setPoint_door (s : State) (p : PointId) (r : Point) : (s.setPoint p r).door = s.door := rfl
@[simp] theorem State.setPoint_prot (s : State) (p : PointId) (r : Point) : (s.setPoint p r).prot = s.prot := rfl
@[simp] theorem State.setPoint_mode (s : State) (p : PointId) (r : Point) : (s.setPoint p r).mode = s.mode := rfl
@[simp] theorem State.setPoint_cfg (s : State) (p : PointId) (r : Point) : (s.setPoint p r).cfg = s.cfg := rfl
@[simp] theorem State.setPoint_choice (s : State) (p : PointId) (r : Point) :
    (s.setPoint p r).choice = s.choice := rfl
@[simp] theorem State.setPoint_pending (s : State) (p : PointId) (r : Point) :
    (s.setPoint p r).pending = s.pending := rfl

@[simp] theorem State.setGroup_arb (s : State) (g : GroupId) (r : Group) : (s.setGroup g r).arb = s.arb := rfl
@[simp] theorem State.setGroup_pool (s : State) (g : GroupId) (r : Group) : (s.setGroup g r).pool = s.pool := rfl
@[simp] theorem State.setGroup_accepted (s : State) (g : GroupId) (r : Group) :
    (s.setGroup g r).accepted = s.accepted := rfl
@[simp] theorem State.setGroup_laps (s : State) (g : GroupId) (r : Group) : (s.setGroup g r).laps = s.laps := rfl
@[simp] theorem State.setGroup_ports (s : State) (g : GroupId) (r : Group) : (s.setGroup g r).ports = s.ports := rfl
@[simp] theorem State.setGroup_water (s : State) (g : GroupId) (r : Group) : (s.setGroup g r).water = s.water := rfl
@[simp] theorem State.setGroup_soft (s : State) (g : GroupId) (r : Group) : (s.setGroup g r).soft = s.soft := rfl
@[simp] theorem State.setGroup_acct (s : State) (g : GroupId) (r : Group) : (s.setGroup g r).acct = s.acct := rfl
@[simp] theorem State.setGroup_dose (s : State) (g : GroupId) (r : Group) : (s.setGroup g r).dose = s.dose := rfl
@[simp] theorem State.setGroup_drive (s : State) (g : GroupId) (r : Group) : (s.setGroup g r).drive = s.drive := rfl
@[simp] theorem State.setGroup_door (s : State) (g : GroupId) (r : Group) : (s.setGroup g r).door = s.door := rfl
@[simp] theorem State.setGroup_prot (s : State) (g : GroupId) (r : Group) : (s.setGroup g r).prot = s.prot := rfl
@[simp] theorem State.setGroup_mode (s : State) (g : GroupId) (r : Group) : (s.setGroup g r).mode = s.mode := rfl
@[simp] theorem State.setGroup_cfg (s : State) (g : GroupId) (r : Group) : (s.setGroup g r).cfg = s.cfg := rfl
@[simp] theorem State.setGroup_choice (s : State) (g : GroupId) (r : Group) :
    (s.setGroup g r).choice = s.choice := rfl
@[simp] theorem State.setGroup_pending (s : State) (g : GroupId) (r : Group) :
    (s.setGroup g r).pending = s.pending := rfl

@[simp] theorem State.setRod_arb (s : State) (r : Rod) : (s.setRod r).arb = s.arb := rfl
@[simp] theorem State.setRod_pool (s : State) (r : Rod) : (s.setRod r).pool = s.pool := rfl
@[simp] theorem State.setRod_accepted (s : State) (r : Rod) : (s.setRod r).accepted = s.accepted := rfl
@[simp] theorem State.setRod_laps (s : State) (r : Rod) : (s.setRod r).laps = s.laps := rfl
@[simp] theorem State.setRod_ports (s : State) (r : Rod) : (s.setRod r).ports = s.ports := rfl
@[simp] theorem State.setRod_water (s : State) (r : Rod) : (s.setRod r).water = s.water := rfl
@[simp] theorem State.setRod_soft (s : State) (r : Rod) : (s.setRod r).soft = s.soft := rfl
@[simp] theorem State.setRod_acct (s : State) (r : Rod) : (s.setRod r).acct = s.acct := rfl
@[simp] theorem State.setRod_dose (s : State) (r : Rod) : (s.setRod r).dose = s.dose := rfl
@[simp] theorem State.setRod_sense (s : State) (r : Rod) : (s.setRod r).sense = s.sense := rfl
@[simp] theorem State.setRod_drive (s : State) (r : Rod) : (s.setRod r).drive = s.drive := rfl
@[simp] theorem State.setRod_prot (s : State) (r : Rod) : (s.setRod r).prot = s.prot := rfl
@[simp] theorem State.setRod_mode (s : State) (r : Rod) : (s.setRod r).mode = s.mode := rfl
@[simp] theorem State.setRod_cfg (s : State) (r : Rod) : (s.setRod r).cfg = s.cfg := rfl
@[simp] theorem State.setRod_choice (s : State) (r : Rod) : (s.setRod r).choice = s.choice := rfl
@[simp] theorem State.setRod_pending (s : State) (r : Rod) : (s.setRod r).pending = s.pending := rfl

@[simp] theorem State.setDoor_arb (s : State) (closed : Bool) : (s.setDoor closed).arb = s.arb := rfl
@[simp] theorem State.setDoor_pool (s : State) (closed : Bool) : (s.setDoor closed).pool = s.pool := rfl
@[simp] theorem State.setDoor_accepted (s : State) (closed : Bool) : (s.setDoor closed).accepted = s.accepted := rfl
@[simp] theorem State.setDoor_laps (s : State) (closed : Bool) : (s.setDoor closed).laps = s.laps := rfl
@[simp] theorem State.setDoor_ports (s : State) (closed : Bool) : (s.setDoor closed).ports = s.ports := rfl
@[simp] theorem State.setDoor_water (s : State) (closed : Bool) : (s.setDoor closed).water = s.water := rfl
@[simp] theorem State.setDoor_soft (s : State) (closed : Bool) : (s.setDoor closed).soft = s.soft := rfl
@[simp] theorem State.setDoor_acct (s : State) (closed : Bool) : (s.setDoor closed).acct = s.acct := rfl
@[simp] theorem State.setDoor_dose (s : State) (closed : Bool) : (s.setDoor closed).dose = s.dose := rfl
@[simp] theorem State.setDoor_sense (s : State) (closed : Bool) : (s.setDoor closed).sense = s.sense := rfl
@[simp] theorem State.setDoor_drive (s : State) (closed : Bool) : (s.setDoor closed).drive = s.drive := rfl
@[simp] theorem State.setDoor_prot (s : State) (closed : Bool) : (s.setDoor closed).prot = s.prot := rfl
@[simp] theorem State.setDoor_mode (s : State) (closed : Bool) : (s.setDoor closed).mode = s.mode := rfl
@[simp] theorem State.setDoor_cfg (s : State) (closed : Bool) : (s.setDoor closed).cfg = s.cfg := rfl
@[simp] theorem State.setDoor_choice (s : State) (closed : Bool) : (s.setDoor closed).choice = s.choice := rfl
@[simp] theorem State.setDoor_pending (s : State) (closed : Bool) : (s.setDoor closed).pending = s.pending := rfl

@[simp] theorem State.setTank_arb (s : State) (tank : Nat) (known : Bool) : (s.setTank tank known).arb = s.arb := rfl
@[simp] theorem State.setTank_pool (s : State) (tank : Nat) (known : Bool) :
    (s.setTank tank known).pool = s.pool := rfl
@[simp] theorem State.setTank_accepted (s : State) (tank : Nat) (known : Bool) :
    (s.setTank tank known).accepted = s.accepted := rfl
@[simp] theorem State.setTank_laps (s : State) (tank : Nat) (known : Bool) :
    (s.setTank tank known).laps = s.laps := rfl
@[simp] theorem State.setTank_ports (s : State) (tank : Nat) (known : Bool) :
    (s.setTank tank known).ports = s.ports := rfl
@[simp] theorem State.setTank_soft (s : State) (tank : Nat) (known : Bool) :
    (s.setTank tank known).soft = s.soft := rfl
@[simp] theorem State.setTank_acct (s : State) (tank : Nat) (known : Bool) :
    (s.setTank tank known).acct = s.acct := rfl
@[simp] theorem State.setTank_dose (s : State) (tank : Nat) (known : Bool) :
    (s.setTank tank known).dose = s.dose := rfl
@[simp] theorem State.setTank_sense (s : State) (tank : Nat) (known : Bool) :
    (s.setTank tank known).sense = s.sense := rfl
@[simp] theorem State.setTank_drive (s : State) (tank : Nat) (known : Bool) :
    (s.setTank tank known).drive = s.drive := rfl
@[simp] theorem State.setTank_door (s : State) (tank : Nat) (known : Bool) :
    (s.setTank tank known).door = s.door := rfl
@[simp] theorem State.setTank_prot (s : State) (tank : Nat) (known : Bool) :
    (s.setTank tank known).prot = s.prot := rfl
@[simp] theorem State.setTank_mode (s : State) (tank : Nat) (known : Bool) :
    (s.setTank tank known).mode = s.mode := rfl
@[simp] theorem State.setTank_cfg (s : State) (tank : Nat) (known : Bool) : (s.setTank tank known).cfg = s.cfg := rfl
@[simp] theorem State.setTank_choice (s : State) (tank : Nat) (known : Bool) :
    (s.setTank tank known).choice = s.choice := rfl
@[simp] theorem State.setTank_pending (s : State) (tank : Nat) (known : Bool) :
    (s.setTank tank known).pending = s.pending := rfl

@[simp] theorem State.setSlot_arb (s : State) (i : SlotId) (sl : Option Slot) : (s.setSlot i sl).arb = s.arb := rfl
@[simp] theorem State.setSlot_accepted (s : State) (i : SlotId) (sl : Option Slot) :
    (s.setSlot i sl).accepted = s.accepted := rfl
@[simp] theorem State.setSlot_laps (s : State) (i : SlotId) (sl : Option Slot) : (s.setSlot i sl).laps = s.laps := rfl
@[simp] theorem State.setSlot_ports (s : State) (i : SlotId) (sl : Option Slot) :
    (s.setSlot i sl).ports = s.ports := rfl
@[simp] theorem State.setSlot_water (s : State) (i : SlotId) (sl : Option Slot) :
    (s.setSlot i sl).water = s.water := rfl
@[simp] theorem State.setSlot_soft (s : State) (i : SlotId) (sl : Option Slot) : (s.setSlot i sl).soft = s.soft := rfl
@[simp] theorem State.setSlot_acct (s : State) (i : SlotId) (sl : Option Slot) : (s.setSlot i sl).acct = s.acct := rfl
@[simp] theorem State.setSlot_dose (s : State) (i : SlotId) (sl : Option Slot) : (s.setSlot i sl).dose = s.dose := rfl
@[simp] theorem State.setSlot_sense (s : State) (i : SlotId) (sl : Option Slot) :
    (s.setSlot i sl).sense = s.sense := rfl
@[simp] theorem State.setSlot_drive (s : State) (i : SlotId) (sl : Option Slot) :
    (s.setSlot i sl).drive = s.drive := rfl
@[simp] theorem State.setSlot_door (s : State) (i : SlotId) (sl : Option Slot) : (s.setSlot i sl).door = s.door := rfl
@[simp] theorem State.setSlot_prot (s : State) (i : SlotId) (sl : Option Slot) : (s.setSlot i sl).prot = s.prot := rfl
@[simp] theorem State.setSlot_mode (s : State) (i : SlotId) (sl : Option Slot) : (s.setSlot i sl).mode = s.mode := rfl
@[simp] theorem State.setSlot_cfg (s : State) (i : SlotId) (sl : Option Slot) : (s.setSlot i sl).cfg = s.cfg := rfl
@[simp] theorem State.setSlot_choice (s : State) (i : SlotId) (sl : Option Slot) :
    (s.setSlot i sl).choice = s.choice := rfl
@[simp] theorem State.setSlot_pending (s : State) (i : SlotId) (sl : Option Slot) :
    (s.setSlot i sl).pending = s.pending := rfl

@[simp] theorem State.putEntry_pool (s : State) (r : Resource) (e : Entry) : (s.putEntry r e).pool = s.pool := rfl
@[simp] theorem State.putEntry_accepted (s : State) (r : Resource) (e : Entry) :
    (s.putEntry r e).accepted = s.accepted := rfl
@[simp] theorem State.putEntry_laps (s : State) (r : Resource) (e : Entry) : (s.putEntry r e).laps = s.laps := rfl
@[simp] theorem State.putEntry_ports (s : State) (r : Resource) (e : Entry) : (s.putEntry r e).ports = s.ports := rfl
@[simp] theorem State.putEntry_water (s : State) (r : Resource) (e : Entry) : (s.putEntry r e).water = s.water := rfl
@[simp] theorem State.putEntry_soft (s : State) (r : Resource) (e : Entry) : (s.putEntry r e).soft = s.soft := rfl
@[simp] theorem State.putEntry_acct (s : State) (r : Resource) (e : Entry) : (s.putEntry r e).acct = s.acct := rfl
@[simp] theorem State.putEntry_dose (s : State) (r : Resource) (e : Entry) : (s.putEntry r e).dose = s.dose := rfl
@[simp] theorem State.putEntry_sense (s : State) (r : Resource) (e : Entry) : (s.putEntry r e).sense = s.sense := rfl
@[simp] theorem State.putEntry_drive (s : State) (r : Resource) (e : Entry) : (s.putEntry r e).drive = s.drive := rfl
@[simp] theorem State.putEntry_door (s : State) (r : Resource) (e : Entry) : (s.putEntry r e).door = s.door := rfl
@[simp] theorem State.putEntry_prot (s : State) (r : Resource) (e : Entry) : (s.putEntry r e).prot = s.prot := rfl
@[simp] theorem State.putEntry_mode (s : State) (r : Resource) (e : Entry) : (s.putEntry r e).mode = s.mode := rfl
@[simp] theorem State.putEntry_cfg (s : State) (r : Resource) (e : Entry) : (s.putEntry r e).cfg = s.cfg := rfl
@[simp] theorem State.putEntry_choice (s : State) (r : Resource) (e : Entry) :
    (s.putEntry r e).choice = s.choice := rfl
@[simp] theorem State.putEntry_pending (s : State) (r : Resource) (e : Entry) :
    (s.putEntry r e).pending = s.pending := rfl

@[simp] theorem State.setPort_arb (s : State) (p : Port) (ps : PortState) :
    (s.setPort p ps).arb = s.arb := by cases p <;> rfl
@[simp] theorem State.setPort_pool (s : State) (p : Port) (ps : PortState) :
    (s.setPort p ps).pool = s.pool := by cases p <;> rfl
@[simp] theorem State.setPort_accepted (s : State) (p : Port) (ps : PortState) :
    (s.setPort p ps).accepted = s.accepted := by cases p <;> rfl
@[simp] theorem State.setPort_laps (s : State) (p : Port) (ps : PortState) :
    (s.setPort p ps).laps = s.laps := by cases p <;> rfl
@[simp] theorem State.setPort_water (s : State) (p : Port) (ps : PortState) :
    (s.setPort p ps).water = s.water := by cases p <;> rfl
@[simp] theorem State.setPort_soft (s : State) (p : Port) (ps : PortState) :
    (s.setPort p ps).soft = s.soft := by cases p <;> rfl
@[simp] theorem State.setPort_acct (s : State) (p : Port) (ps : PortState) :
    (s.setPort p ps).acct = s.acct := by cases p <;> rfl
@[simp] theorem State.setPort_dose (s : State) (p : Port) (ps : PortState) :
    (s.setPort p ps).dose = s.dose := by cases p <;> rfl
@[simp] theorem State.setPort_sense (s : State) (p : Port) (ps : PortState) :
    (s.setPort p ps).sense = s.sense := by cases p <;> rfl
@[simp] theorem State.setPort_drive (s : State) (p : Port) (ps : PortState) :
    (s.setPort p ps).drive = s.drive := by cases p <;> rfl
@[simp] theorem State.setPort_door (s : State) (p : Port) (ps : PortState) :
    (s.setPort p ps).door = s.door := by cases p <;> rfl
@[simp] theorem State.setPort_prot (s : State) (p : Port) (ps : PortState) :
    (s.setPort p ps).prot = s.prot := by cases p <;> rfl
@[simp] theorem State.setPort_mode (s : State) (p : Port) (ps : PortState) :
    (s.setPort p ps).mode = s.mode := by cases p <;> rfl
@[simp] theorem State.setPort_cfg (s : State) (p : Port) (ps : PortState) :
    (s.setPort p ps).cfg = s.cfg := by cases p <;> rfl
@[simp] theorem State.setPort_choice (s : State) (p : Port) (ps : PortState) :
    (s.setPort p ps).choice = s.choice := by cases p <;> rfl
@[simp] theorem State.setPort_pending (s : State) (p : Port) (ps : PortState) :
    (s.setPort p ps).pending = s.pending := by cases p <;> rfl

@[simp] theorem State.setRx_arb (s : State) (p : Port) (rx : RxState) :
    (s.setRx p rx).arb = s.arb := by cases p <;> rfl
@[simp] theorem State.setRx_pool (s : State) (p : Port) (rx : RxState) :
    (s.setRx p rx).pool = s.pool := by cases p <;> rfl
@[simp] theorem State.setRx_accepted (s : State) (p : Port) (rx : RxState) :
    (s.setRx p rx).accepted = s.accepted := by cases p <;> rfl
@[simp] theorem State.setRx_laps (s : State) (p : Port) (rx : RxState) :
    (s.setRx p rx).laps = s.laps := by cases p <;> rfl
@[simp] theorem State.setRx_water (s : State) (p : Port) (rx : RxState) :
    (s.setRx p rx).water = s.water := by cases p <;> rfl
@[simp] theorem State.setRx_soft (s : State) (p : Port) (rx : RxState) :
    (s.setRx p rx).soft = s.soft := by cases p <;> rfl
@[simp] theorem State.setRx_acct (s : State) (p : Port) (rx : RxState) :
    (s.setRx p rx).acct = s.acct := by cases p <;> rfl
@[simp] theorem State.setRx_dose (s : State) (p : Port) (rx : RxState) :
    (s.setRx p rx).dose = s.dose := by cases p <;> rfl
@[simp] theorem State.setRx_sense (s : State) (p : Port) (rx : RxState) :
    (s.setRx p rx).sense = s.sense := by cases p <;> rfl
@[simp] theorem State.setRx_drive (s : State) (p : Port) (rx : RxState) :
    (s.setRx p rx).drive = s.drive := by cases p <;> rfl
@[simp] theorem State.setRx_door (s : State) (p : Port) (rx : RxState) :
    (s.setRx p rx).door = s.door := by cases p <;> rfl
@[simp] theorem State.setRx_prot (s : State) (p : Port) (rx : RxState) :
    (s.setRx p rx).prot = s.prot := by cases p <;> rfl
@[simp] theorem State.setRx_mode (s : State) (p : Port) (rx : RxState) :
    (s.setRx p rx).mode = s.mode := by cases p <;> rfl
@[simp] theorem State.setRx_cfg (s : State) (p : Port) (rx : RxState) :
    (s.setRx p rx).cfg = s.cfg := by cases p <;> rfl
@[simp] theorem State.setRx_choice (s : State) (p : Port) (rx : RxState) :
    (s.setRx p rx).choice = s.choice := by cases p <;> rfl
@[simp] theorem State.setRx_pending (s : State) (p : Port) (rx : RxState) :
    (s.setRx p rx).pending = s.pending := by cases p <;> rfl

/-! ### Places after a write -/

/-- The table number names the resource. -/
theorem Resource.idx_inj : ∀ {r q : Resource}, r.idx = q.idx → r = q := by
  intro r q
  cases r with
  | dose m => cases q with
    | dose n => revert m n; decide
    | _ => revert m; decide
  | _ => cases q with
    | dose n => revert n; decide
    | _ => decide

/-- An entry after one was put. -/
theorem State.entry_putEntry (s : State) (r q : Resource) (e : Entry) :
    (s.putEntry r e).entry q = if q = r then e else s.entry q := by
  unfold State.entry State.putEntry
  rw [upd_get]
  by_cases h : q = r
  · rw [if_pos h, if_pos (by rw [h])]
  · rw [if_neg h, if_neg (fun h' => h (Resource.idx_inj h'))]

@[simp] theorem State.entry_putEntry_self (s : State) (r : Resource) (e : Entry) : (s.putEntry r e).entry r = e := by
  simp [State.entry_putEntry]

/-- The table is read through `arb.table` alone. -/
theorem State.entry_congr {s t : State} (h : t.arb.table = s.arb.table) (r : Resource) : t.entry r = s.entry r := by
  simp [State.entry, h]

@[simp] theorem State.pool_setSlot (s : State) (i : SlotId) (sl : Option Slot) :
    (s.setSlot i sl).pool = upd s.pool i sl := rfl

/-- A channel after one was replaced. -/
theorem State.channel_setChannel (s : State) (c d : ChannelId) (ch : Channel) :
    (s.setChannel c ch).channel d = if d = c then ch else s.channel d := by
  simp only [State.channel, State.setChannel, upd_get]

@[simp] theorem State.channel_setChannel_self (s : State) (c : ChannelId) (ch : Channel) :
    (s.setChannel c ch).channel c = ch := by simp [State.channel_setChannel]

@[simp] theorem State.descs_setChannel (s : State) (c : ChannelId) (ch : Channel) :
    (s.setChannel c ch).dose.descs = s.dose.descs := rfl

/-- A point after one was replaced. -/
theorem State.point_setPoint (s : State) (p q : PointId) (r : Point) :
    (s.setPoint p r).point q = if q = p then r else s.point q := by
  simp only [State.point, State.setPoint, upd_get]

@[simp] theorem State.point_setGroup (s : State) (g : GroupId) (r : Group) (q : PointId) :
    (s.setGroup g r).point q = s.point q := rfl

/-- A group after one was replaced. -/
theorem State.group_setGroup (s : State) (g h : GroupId) (r : Group) :
    (s.setGroup g r).group h = if h = g then r else s.group h := by
  simp only [State.group, State.setGroup, upd_get]

@[simp] theorem State.group_setPoint (s : State) (p : PointId) (r : Point) (g : GroupId) :
    (s.setPoint p r).group g = s.group g := rfl

/-- A column after one was replaced. -/
theorem State.column_setColumn (s : State) (c d : Column) (r : ColumnRec) :
    (s.setColumn c r).column d = if d = c then r else s.column d := by
  cases c <;> cases d <;> rfl

/-- A port after one was replaced. -/
theorem State.port_setPort (s : State) (p q : Port) (ps : PortState) :
    (s.setPort p ps).port q = if q = p then ps else s.port q := by
  cases p <;> cases q <;> rfl

@[simp] theorem State.port_setPort_self (s : State) (p : Port) (ps : PortState) : (s.setPort p ps).port p = ps := by
  cases p <;> rfl

/-- A port after a receiver was replaced. -/
theorem State.port_setRx (s : State) (p q : Port) (rx : RxState) :
    (s.setRx p rx).port q = if q = p then { s.port p with rx := rx } else s.port q :=
  State.port_setPort s p q _

/-- A port after a response joined a queue. -/
theorem State.port_send (s : State) (p q : Port) (r : Response) :
    (s.send p r).port q = if q = p then { s.port p with txq := (s.port p).txq ++ [r] } else s.port q :=
  State.port_setPort s p q _

/-- A port after it was answered. -/
theorem State.port_answered (s : State) (p q : Port) (tag : Nat) (o : OutcomeCode) (fields : List Byte) :
    (s.answered p tag o fields).port q =
      if q = p then { s.port p with rx := .synced, txq := (s.port p).txq ++ [⟨tag, byte1 (outcomeCode o) ++ fields, true, false⟩] }
      else s.port q := by
  simp only [State.answered, State.reply, State.port_send, State.port_setRx]
  by_cases h : q = p <;> simp [h]


@[simp] theorem State.send_arb (s : State) (p : Port) (r : Response) : (s.send p r).arb = s.arb := by cases p <;> rfl
@[simp] theorem State.send_pool (s : State) (p : Port) (r : Response) :
    (s.send p r).pool = s.pool := by cases p <;> rfl
@[simp] theorem State.send_accepted (s : State) (p : Port) (r : Response) :
    (s.send p r).accepted = s.accepted := by cases p <;> rfl
@[simp] theorem State.send_laps (s : State) (p : Port) (r : Response) :
    (s.send p r).laps = s.laps := by cases p <;> rfl
@[simp] theorem State.send_water (s : State) (p : Port) (r : Response) :
    (s.send p r).water = s.water := by cases p <;> rfl
@[simp] theorem State.send_soft (s : State) (p : Port) (r : Response) :
    (s.send p r).soft = s.soft := by cases p <;> rfl
@[simp] theorem State.send_acct (s : State) (p : Port) (r : Response) :
    (s.send p r).acct = s.acct := by cases p <;> rfl
@[simp] theorem State.send_dose (s : State) (p : Port) (r : Response) :
    (s.send p r).dose = s.dose := by cases p <;> rfl
@[simp] theorem State.send_sense (s : State) (p : Port) (r : Response) :
    (s.send p r).sense = s.sense := by cases p <;> rfl
@[simp] theorem State.send_drive (s : State) (p : Port) (r : Response) :
    (s.send p r).drive = s.drive := by cases p <;> rfl
@[simp] theorem State.send_door (s : State) (p : Port) (r : Response) :
    (s.send p r).door = s.door := by cases p <;> rfl
@[simp] theorem State.send_prot (s : State) (p : Port) (r : Response) :
    (s.send p r).prot = s.prot := by cases p <;> rfl
@[simp] theorem State.send_mode (s : State) (p : Port) (r : Response) :
    (s.send p r).mode = s.mode := by cases p <;> rfl
@[simp] theorem State.send_cfg (s : State) (p : Port) (r : Response) : (s.send p r).cfg = s.cfg := by cases p <;> rfl
@[simp] theorem State.send_choice (s : State) (p : Port) (r : Response) :
    (s.send p r).choice = s.choice := by cases p <;> rfl
@[simp] theorem State.send_pending (s : State) (p : Port) (r : Response) :
    (s.send p r).pending = s.pending := by cases p <;> rfl

@[simp] theorem State.reply_arb (s : State) (p : Port) (tag : Nat) (o : OutcomeCode) (fields : List Byte) :
    (s.reply p tag o fields).arb = s.arb := by cases p <;> rfl
@[simp] theorem State.reply_pool (s : State) (p : Port) (tag : Nat) (o : OutcomeCode) (fields : List Byte) :
    (s.reply p tag o fields).pool = s.pool := by cases p <;> rfl
@[simp] theorem State.reply_accepted (s : State) (p : Port) (tag : Nat) (o : OutcomeCode) (fields : List Byte) :
    (s.reply p tag o fields).accepted = s.accepted := by cases p <;> rfl
@[simp] theorem State.reply_laps (s : State) (p : Port) (tag : Nat) (o : OutcomeCode) (fields : List Byte) :
    (s.reply p tag o fields).laps = s.laps := by cases p <;> rfl
@[simp] theorem State.reply_water (s : State) (p : Port) (tag : Nat) (o : OutcomeCode) (fields : List Byte) :
    (s.reply p tag o fields).water = s.water := by cases p <;> rfl
@[simp] theorem State.reply_soft (s : State) (p : Port) (tag : Nat) (o : OutcomeCode) (fields : List Byte) :
    (s.reply p tag o fields).soft = s.soft := by cases p <;> rfl
@[simp] theorem State.reply_acct (s : State) (p : Port) (tag : Nat) (o : OutcomeCode) (fields : List Byte) :
    (s.reply p tag o fields).acct = s.acct := by cases p <;> rfl
@[simp] theorem State.reply_dose (s : State) (p : Port) (tag : Nat) (o : OutcomeCode) (fields : List Byte) :
    (s.reply p tag o fields).dose = s.dose := by cases p <;> rfl
@[simp] theorem State.reply_sense (s : State) (p : Port) (tag : Nat) (o : OutcomeCode) (fields : List Byte) :
    (s.reply p tag o fields).sense = s.sense := by cases p <;> rfl
@[simp] theorem State.reply_drive (s : State) (p : Port) (tag : Nat) (o : OutcomeCode) (fields : List Byte) :
    (s.reply p tag o fields).drive = s.drive := by cases p <;> rfl
@[simp] theorem State.reply_door (s : State) (p : Port) (tag : Nat) (o : OutcomeCode) (fields : List Byte) :
    (s.reply p tag o fields).door = s.door := by cases p <;> rfl
@[simp] theorem State.reply_prot (s : State) (p : Port) (tag : Nat) (o : OutcomeCode) (fields : List Byte) :
    (s.reply p tag o fields).prot = s.prot := by cases p <;> rfl
@[simp] theorem State.reply_mode (s : State) (p : Port) (tag : Nat) (o : OutcomeCode) (fields : List Byte) :
    (s.reply p tag o fields).mode = s.mode := by cases p <;> rfl
@[simp] theorem State.reply_cfg (s : State) (p : Port) (tag : Nat) (o : OutcomeCode) (fields : List Byte) :
    (s.reply p tag o fields).cfg = s.cfg := by cases p <;> rfl
@[simp] theorem State.reply_choice (s : State) (p : Port) (tag : Nat) (o : OutcomeCode) (fields : List Byte) :
    (s.reply p tag o fields).choice = s.choice := by cases p <;> rfl
@[simp] theorem State.reply_pending (s : State) (p : Port) (tag : Nat) (o : OutcomeCode) (fields : List Byte) :
    (s.reply p tag o fields).pending = s.pending := by cases p <;> rfl

@[simp] theorem State.answered_arb (s : State) (p : Port) (tag : Nat) (o : OutcomeCode) (fields : List Byte) :
    (s.answered p tag o fields).arb = s.arb := by cases p <;> rfl
@[simp] theorem State.answered_pool (s : State) (p : Port) (tag : Nat) (o : OutcomeCode) (fields : List Byte) :
    (s.answered p tag o fields).pool = s.pool := by cases p <;> rfl
@[simp] theorem State.answered_accepted (s : State) (p : Port) (tag : Nat) (o : OutcomeCode) (fields : List Byte) :
    (s.answered p tag o fields).accepted = s.accepted := by cases p <;> rfl
@[simp] theorem State.answered_laps (s : State) (p : Port) (tag : Nat) (o : OutcomeCode) (fields : List Byte) :
    (s.answered p tag o fields).laps = s.laps := by cases p <;> rfl
@[simp] theorem State.answered_water (s : State) (p : Port) (tag : Nat) (o : OutcomeCode) (fields : List Byte) :
    (s.answered p tag o fields).water = s.water := by cases p <;> rfl
@[simp] theorem State.answered_soft (s : State) (p : Port) (tag : Nat) (o : OutcomeCode) (fields : List Byte) :
    (s.answered p tag o fields).soft = s.soft := by cases p <;> rfl
@[simp] theorem State.answered_acct (s : State) (p : Port) (tag : Nat) (o : OutcomeCode) (fields : List Byte) :
    (s.answered p tag o fields).acct = s.acct := by cases p <;> rfl
@[simp] theorem State.answered_dose (s : State) (p : Port) (tag : Nat) (o : OutcomeCode) (fields : List Byte) :
    (s.answered p tag o fields).dose = s.dose := by cases p <;> rfl
@[simp] theorem State.answered_sense (s : State) (p : Port) (tag : Nat) (o : OutcomeCode) (fields : List Byte) :
    (s.answered p tag o fields).sense = s.sense := by cases p <;> rfl
@[simp] theorem State.answered_drive (s : State) (p : Port) (tag : Nat) (o : OutcomeCode) (fields : List Byte) :
    (s.answered p tag o fields).drive = s.drive := by cases p <;> rfl
@[simp] theorem State.answered_door (s : State) (p : Port) (tag : Nat) (o : OutcomeCode) (fields : List Byte) :
    (s.answered p tag o fields).door = s.door := by cases p <;> rfl
@[simp] theorem State.answered_prot (s : State) (p : Port) (tag : Nat) (o : OutcomeCode) (fields : List Byte) :
    (s.answered p tag o fields).prot = s.prot := by cases p <;> rfl
@[simp] theorem State.answered_mode (s : State) (p : Port) (tag : Nat) (o : OutcomeCode) (fields : List Byte) :
    (s.answered p tag o fields).mode = s.mode := by cases p <;> rfl
@[simp] theorem State.answered_cfg (s : State) (p : Port) (tag : Nat) (o : OutcomeCode) (fields : List Byte) :
    (s.answered p tag o fields).cfg = s.cfg := by cases p <;> rfl
@[simp] theorem State.answered_choice (s : State) (p : Port) (tag : Nat) (o : OutcomeCode) (fields : List Byte) :
    (s.answered p tag o fields).choice = s.choice := by cases p <;> rfl
@[simp] theorem State.answered_pending (s : State) (p : Port) (tag : Nat) (o : OutcomeCode) (fields : List Byte) :
    (s.answered p tag o fields).pending = s.pending := by cases p <;> rfl

/-! ### Places -/

/-- Where everybody is in its place, every operation of the pool is. -/
theorem State.placed.inPlace {s : State} (h : s.placed) : s.inPlace := by
  intro i sl hp r hr
  have slot : (slotWho i sl).slot = some i := by unfold slotWho; cases sl.work <;> rfl
  constructor
  · rw [Bool.eq_false_iff]
    intro hw
    obtain ⟨w, hm, e⟩ := List.any_eq_true.1 hw
    have e := beq_iff_eq.1 e
    obtain ⟨x, hx, -, -, k⟩ := h.waits r w hm i (e ▸ slot)
    rw [hp] at hx; cases hx; exact hr k
  · intro hh
    have e := beq_iff_eq.1 (Bool.and_eq_true_iff.1 hh).2
    rcases h.holds r _ i e slot with hl | ⟨x, hx, -, -, k⟩
    · exact hl
    · rw [hp] at hx; cases hx; exact absurd k hr

end Sys2Proof.Machine
end

