-- ==== Sys2Proof/Laws/Effect.lean ====
section
/-! SUPPORT. `Effect s t`: all that an owner's work can do to the part, said once. It changes nothing that only a command
changes, it ends operations and answers them, it makes no new holder, and it keeps the laws of the blocks. -/

namespace Sys2Proof.Machine

/-! ### What work leaves as it stands -/

/-- What no owner's work changes: the configuration, the mode, the queue, the acceptances, the descriptors, the clock, the
confirmed points, the scan mode, the door state, the probe and the trip causes. -/
structure Fixed where
  cfg : Settings
  mode : Mode
  pending : List Instr
  accepted : Nat
  laps : Nat
  descs : Vector Desc 32
  clock : Nat
  period : Nat
  points : Vector Point 16
  scan : ScanMode
  doorFilter : Filter
  temperature : Nat
  probeValid : Bool
  probeRead : Bool
  overTemp : Bool
  flood : Bool
  overfill : Bool
  overtemp : Bool

/-- The fixed part of a state. -/
def State.fixed (s : State) : Fixed :=
  { cfg := s.cfg, mode := s.mode, pending := s.pending, accepted := s.accepted, laps := s.laps, descs := s.dose.descs,
    clock := s.drive.clock, period := s.drive.period, points := s.sense.points, scan := s.sense.mode,
    doorFilter := s.door.door, temperature := s.water.temperature, probeValid := s.water.probeValid,
    probeRead := s.water.probeRead, overTemp := s.water.overTemp,
    flood := s.prot.flood, overfill := s.prot.overfill, overtemp := s.prot.overtemp }

/-- The pool under work: a slot is freed, or holds the operation it held. -/
def PoolStep (s t : State) : Prop :=
  ∀ (i : SlotId) (x : Slot), t.pool[i] = some x →
    ∃ y, s.pool[i] = some y ∧ x.port = y.port ∧ x.tag = y.tag ∧ x.serial = y.serial ∧ x.lap = y.lap

/-- A subscription slot under work: its filter, mask and enable stand, and a DISABLED one is as it was. -/
def SubStep (a b : Sub) : Prop :=
  b.filter = a.filter ∧ b.mask = a.mask ∧ b.enable = a.enable ∧ (a.enable = false → b = a)

/-- A port under work: responses of operations that it ends join the queue, each freeing its slot. -/
structure PortStep (s t : State) (p : Port) : Prop where
  rx : (t.port p).rx = (s.port p).rx
  resetPending : (t.port p).resetPending = (s.port p).resetPending
  txq : ∃ more, (t.port p).txq = (s.port p).txq ++ more ∧ ∀ r ∈ more, r.makesReset = false ∧
    ∃ (i : SlotId) (y : Slot), s.pool[i] = some y ∧ y.port = p ∧ y.tag = r.tag ∧ t.pool[i] = none
  subs : ∀ k : SubId, SubStep (s.port p).subs[k] (t.port p).subs[k]

/-- An entry of the resource table under work: no new or other holder, no new HELD lease of a guarded resource but as the
door is CLOSED, none of HEATER at all. -/
structure EntryStep (closed : Bool) (r : Resource) (a b : Entry) : Prop where
  holder : b.lease ≠ .free → a.lease ≠ .free
  legal : EntryOk r a → EntryOk r b
  same : b.lease ≠ .free → b.holder = a.holder
  held : r.guarded = true → b.lease = .held → a.lease = .held ∨ closed = true
  heater : r = .heater → b.lease = .held → a.lease = .held

/-- What an owner's work does. -/
structure Effect (s t : State) : Prop where
  fixed : t.fixed = s.fixed
  interlock : t.water.interlock = s.water.interlock
  pool : PoolStep s t
  ports : ∀ p, PortStep s t p
  table : ∀ r, EntryStep s.doorClosed r (s.entry r) (t.entry r)
  path : s.pathHeld → t.pathHeld
  books : s.booksSafe → t.booksSafe

/-! ### Composition -/

theorem PoolStep.refl (s : State) : PoolStep s s := fun _ x h => ⟨x, h, rfl, rfl, rfl, rfl⟩

theorem SubStep.refl (a : Sub) : SubStep a a := ⟨rfl, rfl, rfl, fun _ => rfl⟩

theorem SubStep.trans {a b c : Sub} (h : SubStep a b) (k : SubStep b c) : SubStep a c := by
  obtain ⟨h1, h2, h3, h4⟩ := h
  obtain ⟨k1, k2, k3, k4⟩ := k
  exact ⟨k1.trans h1, k2.trans h2, k3.trans h3, fun e => (k4 (h3 ▸ e)).trans (h4 e)⟩

theorem EntryStep.refl (closed : Bool) (r : Resource) (a : Entry) : EntryStep closed r a a :=
  ⟨id, id, fun _ => rfl, fun _ h => .inl h, fun _ h => h⟩

theorem EntryStep.trans {closed : Bool} {r : Resource} {a b c : Entry} (h : EntryStep closed r a b)
    (k : EntryStep closed r b c) : EntryStep closed r a c where
  holder x := h.holder (k.holder x)
  legal x := k.legal (h.legal x)
  same x := (k.same x).trans (h.same (k.holder x))
  held g x := (k.held g x).elim (h.held g) .inr
  heater g x := h.heater g (k.heater g x)

theorem PoolStep.none {s t : State} (h : PoolStep s t) {i : SlotId} (e : s.pool[i] = none) : t.pool[i] = none := by
  by_contra c
  obtain ⟨x, hx⟩ := Option.ne_none_iff_exists'.mp c
  obtain ⟨y, hy, _⟩ := h i x hx
  rw [e] at hy; cases hy

theorem PoolStep.trans {s t u : State} (h : PoolStep s t) (k : PoolStep t u) : PoolStep s u := fun i x hx => by
  obtain ⟨y, hy, p1, p2, p3, p4⟩ := k i x hx
  obtain ⟨z, hz, q1, q2, q3, q4⟩ := h i y hy
  exact ⟨z, hz, p1.trans q1, p2.trans q2, p3.trans q3, p4.trans q4⟩

theorem PortStep.refl (s : State) (p : Port) : PortStep s s p :=
  ⟨rfl, rfl, ⟨[], by simp, by simp⟩, fun _ => SubStep.refl _⟩

theorem PortStep.trans {s t u : State} {p : Port} (hp : PoolStep s t) (kp : PoolStep t u) (h : PortStep s t p)
    (k : PortStep t u p) : PortStep s u p where
  rx := k.rx.trans h.rx
  resetPending := k.resetPending.trans h.resetPending
  txq := by
    obtain ⟨m, hm, hr⟩ := h.txq
    obtain ⟨n, hn, kr⟩ := k.txq
    refine ⟨m ++ n, by rw [hn, hm, List.append_assoc], fun r hmem => ?_⟩
    rcases List.mem_append.mp hmem with hmem | hmem
    · obtain ⟨b, i, y, e1, e2, e3, e4⟩ := hr r hmem
      exact ⟨b, i, y, e1, e2, e3, kp.none e4⟩
    · obtain ⟨b, i, y, e1, e2, e3, e4⟩ := kr r hmem
      obtain ⟨z, hz, p1, p2, _⟩ := hp i y e1
      exact ⟨b, i, z, hz, p1 ▸ e2, p2 ▸ e3, e4⟩
  subs x := (h.subs x).trans (k.subs x)

theorem Effect.refl (s : State) : Effect s s where
  fixed := rfl
  interlock := rfl
  pool := .refl s
  ports := PortStep.refl s
  table r := .refl _ r _
  path := id
  books := id

theorem Effect.doorClosed {s t : State} (h : Effect s t) : t.doorClosed = s.doorClosed := by
  have := congrArg Fixed.doorFilter h.fixed
  simp only [State.fixed] at this
  simp [State.doorClosed, this]

theorem Effect.trans {s t u : State} (h : Effect s t) (k : Effect t u) : Effect s u where
  fixed := k.fixed.trans h.fixed
  interlock := k.interlock.trans h.interlock
  pool := h.pool.trans k.pool
  ports p := (h.ports p).trans h.pool k.pool (k.ports p)
  table r := (h.table r).trans (h.doorClosed ▸ k.table r)
  path x := k.path (h.path x)
  books x := k.books (h.books x)

/-- Work on every member of a list. -/
theorem Effect.foldl {α : Type} {a : State} (f : State → α → State) (hf : ∀ s x, Effect a s → Effect a (f s x)) (l : List α)
    {s : State} (h : Effect a s) : Effect a (l.foldl f s) := by
  induction l generalizing s with
  | nil => exact h
  | cons x rest ih => exact ih (hf s x h)

/-- One of two states, each an effect. -/
theorem ite_effect {a s t : State} (p : Prop) [Decidable p] (h : Effect a s) (k : Effect a t) :
    Effect a (if p then s else t) := by
  split
  · exact h
  · exact k

theorem Effect.cfg {s t : State} (h : Effect s t) : t.cfg = s.cfg := congrArg Fixed.cfg h.fixed
theorem Effect.mode {s t : State} (h : Effect s t) : t.mode = s.mode := congrArg Fixed.mode h.fixed
theorem Effect.pending {s t : State} (h : Effect s t) : t.pending = s.pending := congrArg Fixed.pending h.fixed
theorem Effect.accepted {s t : State} (h : Effect s t) : t.accepted = s.accepted := congrArg Fixed.accepted h.fixed
theorem Effect.laps {s t : State} (h : Effect s t) : t.laps = s.laps := congrArg Fixed.laps h.fixed
theorem Effect.descs {s t : State} (h : Effect s t) : t.dose.descs = s.dose.descs := congrArg Fixed.descs h.fixed
theorem Effect.clock {s t : State} (h : Effect s t) : t.drive.clock = s.drive.clock := congrArg Fixed.clock h.fixed
theorem Effect.points {s t : State} (h : Effect s t) : t.sense.points = s.sense.points := congrArg Fixed.points h.fixed

/-! ### Work that leaves the pool, the ports and the table -/

/-- The books are read through the columns, the accounts, the dose engine and the configuration alone. -/
theorem State.booksSafe.congr {s t : State} (hb : s.booksSafe) (hc : t.cfg = s.cfg) (hs : t.soft = s.soft)
    (ha : t.acct = s.acct) (hd : t.dose = s.dose) : t.booksSafe where
  weak := hc ▸ hb.weak
  descs n := by simpa only [hd] using hb.descs n
  one := by simpa only [State.oneInService, hs] using hb.one
  queue := by simpa only [State.queueLegal, hs] using hb.queue
  columns c := by
    have := hb.columns c
    cases c <;> simpa only [State.column, State.rated, hs, hc] using this
  amounts := by simpa only [State.amountsBounded, ha, hc] using hb.amounts
  log := by simpa only [State.logLegal, ha] using hb.log
  channels c := by simpa only [State.channel, hd] using hb.channels c

theorem PoolStep.of_eq {s t : State} (h : t.pool = s.pool) : PoolStep s t := fun i x e => by
  rw [h] at e; exact ⟨x, e, rfl, rfl, rfl, rfl⟩

theorem PortStep.of_eq {s t : State} (h : t.ports = s.ports) (p : Port) : PortStep s t p := by
  have hp : t.port p = s.port p := by simp only [State.port, h]
  exact ⟨by rw [hp], by rw [hp], ⟨[], by simp [hp], by simp⟩, fun k => by rw [hp]; exact SubStep.refl _⟩

theorem EntryStep.of_table {s t : State} (h : t.arb.table = s.arb.table) (closed : Bool) (r : Resource) :
    EntryStep closed r (s.entry r) (t.entry r) := by
  rw [State.entry_congr h r]; exact .refl _ _ _

/-- Law 2 is read through the table alone. -/
theorem State.pathHeld.congr {s t : State} (h : t.arb.table = s.arb.table) (k : s.pathHeld) : t.pathHeld := by
  unfold State.pathHeld
  rw [State.entry_congr h .inlet, State.entry_congr h .selector]
  exact k

/-- Work that touches neither the pool nor the ports nor the table. -/
theorem Effect.of_rest {s t : State} (hf : t.fixed = s.fixed) (hi : t.water.interlock = s.water.interlock)
    (hp : t.pool = s.pool) (hq : t.ports = s.ports)
    (ha : t.arb.table = s.arb.table) (hb : s.booksSafe → t.booksSafe) : Effect s t where
  fixed := hf
  interlock := hi
  pool := .of_eq hp
  ports := PortStep.of_eq hq
  table r := .of_table ha _ r
  path k := k.congr ha
  books := hb

/-- Work that touches none of these, and no books. -/
theorem Effect.of_idle {s t : State} (hf : t.fixed = s.fixed) (hi : t.water.interlock = s.water.interlock)
    (hp : t.pool = s.pool) (hq : t.ports = s.ports)
    (ha : t.arb.table = s.arb.table) (hs : t.soft = s.soft) (hc : t.acct = s.acct) (hd : t.dose = s.dose) : Effect s t :=
  .of_rest hf hi hp hq ha fun b => b.congr (congrArg Fixed.cfg hf) hs hc hd

/-- A change of the Drive Unit that leaves the clock and the period. -/
theorem drive_effect {a s : State} (h : Effect a s) (x : Drive) (hc : x.clock = s.drive.clock)
    (hp : x.period = s.drive.period) : Effect a ({ s with drive := x } : State) := by
  refine h.trans (.of_idle ?_ rfl rfl rfl rfl rfl rfl rfl)
  simp only [State.fixed, hc, hp]

/-! ### Ports -/

/-- A report placed at a port: nothing but the held reports of enabled slots can change (R194). -/
theorem PortState.place_sub (ps : PortState) (rep : Report) (k : SubId) : SubStep ps.subs[k] (ps.place rep).subs[k] := by
  unfold PortState.place
  split
  · rename_i j hj
    have := List.find?_some hj
    simp only [Sub.takes, Bool.and_eq_true] at this
    simp only
    rw [upd_get]
    by_cases h : k = j
    · subst h
      rw [if_pos rfl]
      exact ⟨rfl, rfl, rfl, fun e => by rw [this.1.1] at e; cases e⟩
    · rw [if_neg h]; exact SubStep.refl _
  · split
    · rename_i j hj
      have := List.find?_some hj
      simp only [Sub.takes, Bool.and_eq_true] at this
      simp only
      rw [upd_get]
      by_cases h : k = j
      · subst h
        rw [if_pos rfl]
        exact ⟨rfl, rfl, rfl, fun e => by rw [this.1] at e; cases e⟩
      · rw [if_neg h]; exact SubStep.refl _
    · exact SubStep.refl _

theorem PortState.place_rest (ps : PortState) (rep : Report) :
    (ps.place rep).rx = ps.rx ∧ (ps.place rep).txq = ps.txq ∧ (ps.place rep).resetPending = ps.resetPending := by
  unfold PortState.place
  split
  · exact ⟨rfl, rfl, rfl⟩
  · split <;> exact ⟨rfl, rfl, rfl⟩

theorem State.port_post (s : State) (e : Event) (x v : Nat) (p : Port) :
    (s.post e x v).port p = (s.port p).place ⟨eventCode e, x, v, s.drive.clock⟩ := by cases p <;> rfl

theorem post_effect {a s : State} (h : Effect a s) (e : Event) (x v : Nat) : Effect a (s.post e x v) := by
  refine h.trans ⟨rfl, rfl, .of_eq rfl, fun p => ?_, fun r => .refl _ _ _, id, fun b => b.congr rfl rfl rfl rfl⟩
  have hp := State.port_post s e x v p
  obtain ⟨h1, h2, h3⟩ := (s.port p).place_rest ⟨eventCode e, x, v, s.drive.clock⟩
  exact ⟨by rw [hp, h1], by rw [hp, h3], ⟨[], by rw [hp, h2]; simp, by simp⟩, fun k => by
    rw [hp]; exact PortState.place_sub _ _ k⟩

theorem fault_effect {a s : State} (h : Effect a s) (k : FaultKind) (x d : Nat) : Effect a (s.fault k x d) := by
  unfold State.fault
  split
  · dsimp only
    split
    · refine post_effect ?_ _ _ _
      exact h.trans (.of_idle rfl rfl rfl rfl rfl rfl rfl rfl)
    · exact h.trans (.of_idle rfl rfl rfl rfl rfl rfl rfl rfl)
  · exact h

end Sys2Proof.Machine
end

