-- ==== Sys2Proof/Laws/Ops.lean ====
section
/-! SUPPORT. What the shared operations of Machine/Ops.lean do, each once: they are effects in the sense of Laws/Effect.lean. -/

namespace Sys2Proof.Machine

/-! ### The pool -/

theorem PoolStep.upd_some {s t : State} {i : SlotId} {x y : Slot} (hs : s.pool[i] = some y) (hp : t.pool = upd s.pool i (some x))
    (h : x.port = y.port ∧ x.tag = y.tag ∧ x.serial = y.serial ∧ x.lap = y.lap) : PoolStep s t := fun j z hz => by
  rw [hp, upd_get] at hz
  split at hz
  · rename_i e; subst e; cases hz; exact ⟨y, hs, h⟩
  · exact ⟨z, hz, rfl, rfl, rfl, rfl⟩

theorem PoolStep.upd_none {s t : State} {i : SlotId} (hp : t.pool = upd s.pool i Option.none) : PoolStep s t := fun j z hz => by
  rw [hp, upd_get] at hz
  split at hz
  · cases hz
  · exact ⟨z, hz, rfl, rfl, rfl, rfl⟩

/-- A held slot's contents replaced by ones of the same port, tag and acceptance order. -/
theorem setSlot_effect {a s : State} (h : Effect a s) {i : SlotId} {x y : Slot} (hs : s.pool[i] = some y)
    (hx : x.port = y.port ∧ x.tag = y.tag ∧ x.serial = y.serial ∧ x.lap = y.lap) : Effect a (s.setSlot i (some x)) :=
  h.trans ⟨rfl, rfl, .upd_some hs rfl hx, PortStep.of_eq rfl, fun r => .refl _ r _, id, fun b => b.congr rfl rfl rfl rfl⟩

theorem setWork_effect {a s : State} (h : Effect a s) (i : SlotId) (w : Work) : Effect a (s.setWork i w) := by
  unfold State.setWork
  split
  · rename_i hs
    exact setSlot_effect h hs ⟨rfl, rfl, rfl, rfl⟩
  · exact h

theorem fixOutcome_effect {a s : State} (h : Effect a s) (i : SlotId) (o : OutcomeCode) :
    Effect a (s.fixOutcome i o) := by
  unfold State.fixOutcome
  split
  · rename_i hs
    exact setSlot_effect h hs ⟨rfl, rfl, rfl, rfl⟩
  · exact h

theorem freeSlot_effect {a s : State} (h : Effect a s) (i : SlotId) : Effect a (s.setSlot i none) :=
  h.trans ⟨rfl, rfl, .upd_none rfl, PortStep.of_eq rfl, fun r => .refl _ r _, id, fun b => b.congr rfl rfl rfl rfl⟩

/-- A response to the operation of a slot joins the queue of its port, and the slot is freed. -/
theorem sendFree_effect {a s : State} (h : Effect a s) {i : SlotId} {sl : Slot} (hs : s.pool[i] = some sl) (r : Response)
    (hr : r.makesReset = false) (ht : r.tag = sl.tag) : Effect a ((s.send sl.port r).setSlot i none) := by
  refine h.trans ⟨?_, ?_, ?_, ?_, fun r => ?_, fun k => k.congr ?_, fun b => b.congr ?_ ?_ ?_ ?_⟩
  · simp [State.fixed]
  · simp
  · exact .upd_none (i := i) (by simp)
  · intro p
    have hp : ∀ q : Port, ((s.send sl.port r).setSlot i none).port q = (s.send sl.port r).port q := fun _ => rfl
    by_cases e : p = sl.port
    · subst e
      refine ⟨?_, ?_, ⟨[r], ?_, fun x hx => ?_⟩, fun k => ?_⟩
      · simp [hp, State.port_send]
      · simp [hp, State.port_send]
      · simp [hp, State.port_send]
      · rw [List.mem_singleton] at hx
        subst hx
        exact ⟨hr, i, sl, hs, rfl, ht.symm, by rw [State.pool_setSlot, upd_self]⟩
      · simp only [hp, State.port_send, if_pos]; exact SubStep.refl _
    · refine ⟨?_, ?_, ⟨[], ?_, by simp⟩, fun k => ?_⟩
      · simp [hp, State.port_send, e]
      · simp [hp, State.port_send, e]
      · simp [hp, State.port_send, e]
      · simp only [hp, State.port_send, if_neg e]; exact SubStep.refl _
  · exact .of_table (by simp) _ r
  all_goals simp

theorem endSlot_effect {a s : State} (h : Effect a s) (i : SlotId) (o : OutcomeCode) (fields : List Byte) (answer : Bool) :
    Effect a (s.endSlot i o fields answer) := by
  unfold State.endSlot
  split
  · rename_i sl hs
    cases answer
    · exact freeSlot_effect h i
    · exact sendFree_effect h hs _ rfl rfl
  · exact h

theorem refuseSlot_effect {a s : State} (h : Effect a s) (i : SlotId) (o : OutcomeCode) : Effect a (s.refuseSlot i o) := by
  unfold State.refuseSlot
  split
  · rename_i sl hs
    exact sendFree_effect h hs _ rfl rfl
  · exact h

/-! ### Disturbance and the table -/

theorem disturb_effect {a s : State} (h : Effect a s) : Effect a s.disturb :=
  h.trans (.of_idle rfl rfl rfl rfl rfl rfl rfl rfl)

theorem reportSwitching_effect {a s : State} (h : Effect a s) (before : State) : Effect a (reportSwitching before s) := by
  unfold reportSwitching
  split
  · exact h
  · exact disturb_effect h

/-- What law 2 asks of an entry put in the place of SELECTOR's: the lease and the holder stand, or INLET is FREE. -/
def PathStep (s : State) (r : Resource) (e : Entry) : Prop :=
  r = .selector → s.pathHeld →
    (e.lease = (s.entry r).lease ∧ e.holder = (s.entry r).holder) ∨ (s.entry .inlet).lease = .free

theorem PathStep.of_ne {s : State} {r : Resource} {e : Entry} (h : r ≠ .selector) : PathStep s r e := fun c => absurd c h

/-- An entry put in the table, as the entry it replaces allows. -/
theorem putEntry_effect {a s : State} (h : Effect a s) (r : Resource) (e : Entry)
    (he : EntryStep s.doorClosed r (s.entry r) e) (hp : PathStep s r e) : Effect a (s.putEntry r e) := by
  refine h.trans ⟨rfl, rfl, .of_eq rfl, PortStep.of_eq rfl, fun q => ?_, fun k hl => ?_, fun b => b.congr rfl rfl rfl rfl⟩
  · rw [State.entry_putEntry]
    split
    · rename_i c; subst c; exact he
    · exact .refl _ q _
  · rw [State.entry_putEntry] at hl ⊢
    rw [State.entry_putEntry]
    by_cases c : r = .inlet
    · subst c
      rw [if_pos rfl] at hl
      obtain ⟨k1, k2⟩ := k (he.holder hl)
      rw [if_neg (by decide), if_pos rfl]
      exact ⟨k1, k2.trans (he.same hl).symm⟩
    · rw [if_neg (Ne.symm c)] at hl ⊢
      by_cases d : r = .selector
      · subst d
        rw [if_pos rfl]
        rcases hp rfl k with ⟨d1, d2⟩ | d
        · rw [d1, d2]; exact k hl
        · exact absurd d hl
      · rw [if_neg (Ne.symm d)]; exact k hl

theorem editEntry_effect {a s : State} (h : Effect a s) (r : Resource) (f : Entry → Entry)
    (he : EntryStep s.doorClosed r (s.entry r) (f (s.entry r))) (hp : PathStep s r (f (s.entry r))) :
    Effect a (s.editEntry r f) := by
  unfold State.editEntry
  dsimp only
  refine reportSwitching_effect (putEntry_effect h r _ ?_ ?_) s
  · exact ⟨he.holder, he.legal, he.same, he.held, he.heater⟩
  · exact fun c k => hp c k

/-- An entry edited, its lease and holder as they stand. -/
theorem editSame_effect {a s : State} (h : Effect a s) (r : Resource) (f : Entry → Entry)
    (hl : (f (s.entry r)).lease = (s.entry r).lease) (hh : (f (s.entry r)).holder = (s.entry r).holder) :
    Effect a (s.editEntry r f) := by
  refine editEntry_effect h r f ⟨fun x => hl ▸ x, fun x => ?_, fun _ => hh, fun _ x => .inl (hl ▸ x), fun _ x => hl ▸ x⟩
    fun _ _ => .inl ⟨hl, hh⟩
  unfold EntryOk at *; rw [hl, hh]; exact x

/-- An entry whose lease and holder stand. -/
theorem EntryStep.of_same {closed : Bool} {r : Resource} {a b : Entry} (hl : b.lease = a.lease) (hh : b.holder = a.holder) :
    EntryStep closed r a b :=
  ⟨fun h => hl ▸ h, fun h => by unfold EntryOk at *; rw [hl, hh]; exact h, fun _ => hh, fun _ h => .inl (hl ▸ h),
    fun _ h => hl ▸ h⟩

/-- An entry that becomes FREE. -/
theorem EntryStep.of_free {closed : Bool} {r : Resource} {a b : Entry} (hl : b.lease = .free) (hh : b.holder = none) :
    EntryStep closed r a b := by
  refine ⟨fun h => absurd hl h, fun _ => ⟨by simp [hl, hh], by rw [hl]; cases r <;> rfl⟩, fun h => absurd hl h,
    fun _ h => ?_, fun _ h => ?_⟩ <;>
    (rw [hl] at h; cases h)

/-- A lease with a holder that keeps it in another state its resource allows, no HELD one. -/
theorem EntryStep.of_kept {closed : Bool} {r : Resource} {a b : Entry} (l : LeaseState) (hl : b.lease = l)
    (ha : a.lease ≠ .free) (hb : l ≠ .free) (hh : b.holder = a.holder) (hn : l ≠ .held) (hr : r.allows l = true) :
    EntryStep closed r a b := by
  subst hl
  refine ⟨fun _ => ha, fun h => ⟨⟨fun x => absurd x hb, fun x => ?_⟩, hr⟩, fun _ => hh, fun _ h => absurd h hn,
    fun _ h => absurd h hn⟩
  exact absurd (h.1.mpr (hh ▸ x)) ha

theorem judgeYield_effect {a s : State} (h : Effect a s) (r : Resource) : Effect a (s.judgeYield r) :=
  editSame_effect h r id rfl rfl

theorem ask_effect {a s : State} (h : Effect a s) (r : Resource) (who : Holder) (serial : Nat) (want : Option Column) :
    Effect a (s.ask r who serial want) :=
  editSame_effect h r _ rfl rfl

theorem withdrawFrom_effect {a s : State} (h : Effect a s) (who : Holder) (r : Resource) :
    Effect a (s.withdrawFrom who r) := by
  unfold State.withdrawFrom
  split
  · exact editSame_effect h r _ rfl rfl
  · exact h

theorem withdraw_effect {a s : State} (h : Effect a s) (who : Holder) : Effect a (s.withdraw who) :=
  Effect.foldl _ (fun _ r h => withdrawFrom_effect h who r) _ h

/-! ### Leases -/

theorem dropDrive_effect {a s : State} (h : Effect a s) (r : Resource) : Effect a (s.dropDrive r) := by
  unfold State.dropDrive
  split <;> first | exact h | exact h.trans (.of_idle rfl rfl rfl rfl rfl rfl rfl rfl)

/-- Dropping what the Drive Unit holds leaves the table. -/
theorem State.table_dropDrive (s : State) (r : Resource) : (s.dropDrive r).arb = s.arb := by
  unfold State.dropDrive; split <;> rfl

/-- A lease freed; SELECTOR's only where INLET is FREE (law 2). -/
theorem freeLease_effect {a s : State} (h : Effect a s) (r : Resource)
    (hp : r = .selector → s.pathHeld → (s.entry .inlet).lease = .free) : Effect a (s.freeLease r) := by
  unfold State.freeLease
  have he := fun q => State.entry_congr (s := s) (t := s.dropDrive r) (by rw [State.table_dropDrive]) q
  refine reportSwitching_effect (putEntry_effect (dropDrive_effect h r) r _ ?_ fun c k => .inr ?_) s
  · exact .of_free rfl rfl
  · rw [he]; exact hp c (k.congr (by rw [State.table_dropDrive]))

theorem writeRelease_effect {a s : State} (h : Effect a s) (r : Resource) : Effect a (s.writeRelease r) :=
  putEntry_effect h r _ (.of_same rfl rfl) fun _ _ => .inl ⟨rfl, rfl⟩

theorem startRetract_effect {a s : State} (h : Effect a s) : Effect a s.startRetract :=
  h.trans (.of_idle rfl rfl rfl rfl rfl rfl rfl rfl)

theorem State.entry_writeRelease_lease (s : State) (r : Resource) :
    ((s.writeRelease r).entry r).lease = (s.entry r).lease := by
  simp [State.writeRelease]

theorem State.entry_writeRelease_ne (s : State) {r q : Resource} (h : q ≠ r) : (s.writeRelease r).entry q = s.entry q := by
  simp [State.writeRelease, State.entry_putEntry, h]

/-- A HELD lease of CIRC or DOOR_DRIVE that goes RELEASING. -/
theorem releasing_effect {a s : State} (h : Effect a s) (r : Resource) (hr : r = .circ ∨ r = .doorDrive)
    (hl : (s.entry r).lease = .held) : Effect a (s.editEntry r fun e => { e with lease := .releasing }) :=
  editEntry_effect h r _
    (.of_kept .releasing rfl (by rw [hl]; decide) (by decide) rfl (by decide) (by rcases hr with rfl | rfl <;> rfl))
    (.of_ne (by rcases hr with rfl | rfl <;> decide))

/-- One lease let go; SELECTOR's only where INLET is FREE (law 2). -/
theorem letGo_effect {a s : State} (h : Effect a s) (r : Resource)
    (hp : r = .selector → s.pathHeld → (s.entry .inlet).lease = .free) : Effect a (s.letGo r) := by
  have hw := writeRelease_effect h r
  have hf : r = .selector → (s.writeRelease r).pathHeld → ((s.writeRelease r).entry .inlet).lease = .free := by
    rintro rfl k
    rw [State.entry_writeRelease_ne s (by decide)]
    refine hp rfl fun x => ?_
    have hi : (s.writeRelease .selector).entry .inlet = s.entry .inlet := State.entry_writeRelease_ne s (by decide)
    obtain ⟨k1, k2⟩ := k (by rw [hi]; exact x)
    rw [hi] at k2
    simp only [State.writeRelease, State.entry_putEntry, if_pos] at k1 k2
    exact ⟨k1, k2⟩
  unfold State.letGo
  split
  · exact h
  · exact h
  · exact freeLease_effect hw r hf
  · refine (freeLease_effect hw r hf).trans ?_
    exact .of_idle rfl rfl rfl rfl rfl rfl rfl rfl
  · rename_i hl
    have hl' := (State.entry_writeRelease_lease s r).trans hl
    cases r with
    | circ =>
      dsimp only
      split
      · exact freeLease_effect hw _ hf
      · refine releasing_effect ?_ _ (.inl rfl) hl'
        exact hw.trans (.of_idle rfl rfl rfl rfl rfl rfl rfl rfl)
    | doorDrive => exact releasing_effect (startRetract_effect hw) _ (.inr rfl) hl'
    | _ => exact freeLease_effect hw _ hf

/-- The entry of a lease just freed is FREE. -/
theorem State.entry_freeLease_self (s : State) (r : Resource) : ((s.freeLease r).entry r).lease = .free := by
  have : ∀ t u : State, (reportSwitching t u).arb = u.arb := fun t u => by unfold reportSwitching; split <;> rfl
  unfold State.freeLease
  rw [State.entry_congr (congrArg Arbiter.table (this _ _)), State.entry_putEntry, if_pos rfl]
  rfl

/-- A release, of whatever resource: SELECTOR is never let go under INLET (law 2). -/
theorem release_effect {a s : State} (h : Effect a s) (r : Resource) : Effect a (s.release r) := by
  unfold State.release
  split
  · refine letGo_effect (freeLease_effect (writeRelease_effect h .inlet) .inlet fun c => ?_) .selector fun _ _ => ?_
    · cases c
    · exact State.entry_freeLease_self _ _
  · rename_i hn
    refine letGo_effect h r fun c k => ?_
    subst c
    by_contra x
    exact hn ⟨rfl, by simpa [State.hasHolder] using x, (k x).2.symm⟩

theorem releaseIf_effect {a s : State} (h : Effect a s) (who : Holder) (r : Resource) : Effect a (s.releaseIf who r) := by
  unfold State.releaseIf
  split
  · exact release_effect h r
  · exact h

theorem releaseAll_effect {a s : State} (h : Effect a s) (who : Holder) : Effect a (s.releaseAll who) :=
  Effect.foldl _ (fun _ r h => releaseIf_effect h who r) _ h

theorem stopDrive_effect {a s : State} (h : Effect a s) (r : Resource) : Effect a (s.stopDrive r) := by
  unfold State.stopDrive
  split <;> first | exact h | exact h.trans (.of_idle rfl rfl rfl rfl rfl rfl rfl rfl)

/-- Stopping an output leaves the table. -/
theorem State.table_stopDrive (s : State) (r : Resource) : (s.stopDrive r).arb = s.arb := by
  unfold State.stopDrive; split <;> rfl

theorem suspend_effect {a s : State} (h : Effect a s) {r : Resource} (hr : r.guarded = true) : Effect a (s.suspend r) := by
  unfold State.suspend
  split
  · rename_i hl
    have hl : (s.entry r).lease = .held := by simpa using hl
    refine reportSwitching_effect (editEntry_effect (stopDrive_effect h r) r _ ?_ (.of_ne fun c => ?_)) s
    case refine_2 => subst c; cases hr
    refine .of_kept .suspended rfl ?_ (by decide) rfl (by decide) hr
    rw [State.entry_congr (s := s) (by rw [State.table_stopDrive]) r, hl]; decide
  · exact h

/-- A SUSPENDED lease returns to HELD while the door is CLOSED; HEATER is judged by the interlock instead. -/
theorem restore_effect {a s : State} (h : Effect a s) {r : Resource} (hd : s.doorClosed = true) (hr : r ≠ .heater)
    (hs : r ≠ .selector) :
    Effect a (s.restore r) := by
  unfold State.restore
  split
  · rename_i hl
    have hl : (s.entry r).lease = .suspended := by simpa using hl
    refine editEntry_effect h r _ ⟨fun _ => by rw [hl]; decide, fun k => ⟨⟨fun x => ?_, fun x => ?_⟩, ?_⟩,
      fun _ => rfl, fun _ _ => .inr hd, fun e => absurd e hr⟩ (.of_ne hs)
    · cases x
    · have := k.1.mpr x
      rw [hl] at this; cases this
    · rfl
  · exact h

theorem revoke_effect {a s : State} (h : Effect a s) (r : Resource) (hr : r ≠ .selector) : Effect a (s.revoke r) := by
  unfold State.revoke
  refine editSame_effect ?_ r _ rfl rfl
  split
  · exact freeLease_effect h r fun c => absurd c hr
  · exact h

theorem startTravel_effect {a s : State} (h : Effect a s) (c : Column) : Effect a (s.startTravel c) :=
  h.trans (.of_idle rfl rfl rfl rfl rfl rfl rfl rfl)

theorem changePosition_effect {a s : State} (h : Effect a s) (c : Column) : Effect a (s.changePosition c) := by
  unfold State.changePosition
  split
  · exact h
  · rename_i hl
    simp only [not_or, ne_eq, not_not, State.hasHolder, bne_iff_ne] at hl
    obtain ⟨hl, hi⟩ := hl
    split
    · exact h.trans (.of_idle rfl rfl rfl rfl rfl rfl rfl rfl)
    · refine editEntry_effect (startTravel_effect h c) _ _ ?_ fun _ _ => .inr hi
      refine .of_kept .moving rfl ?_ (by decide) rfl (by decide) rfl
      rw [State.entry_congr (s := s) (t := s.startTravel c) rfl, hl]; decide

end Sys2Proof.Machine
end

