-- ==== Sys2Proof/Laws/Accounts.lean ====
section
/-! SUPPORT. What the operations of the Account Unit do: they are effects, and keep law 8 and the draw log. -/

namespace Sys2Proof.Machine

/-- A change of the accounts alone that keeps law 8 and the log. -/
theorem acct_effect {a s : State} (h : Effect a s) (x : Accounts)
    (hx : s.amountsBounded → ({ s with acct := x } : State).amountsBounded)
    (hl : s.logLegal → ({ s with acct := x } : State).logLegal) : Effect a ({ s with acct := x } : State) :=
  h.trans (.of_rest rfl rfl rfl rfl rfl fun b => ⟨b.weak, b.descs, b.one, b.queue, b.columns, hx b.amounts, hl b.log, b.channels⟩)

theorem setReservoir_effect {a s : State} (h : Effect a s) (n : ReservoirId) (x : Reservoir)
    (hx : s.amountsBounded → x.amount ≤ s.cfg.resFull[n]) : Effect a (s.setReservoir n x) := by
  refine acct_effect h _ (fun b => ⟨fun m => ?_, b.2⟩) id
  show (upd s.acct.reservoirs n x)[m].amount ≤ _
  rw [upd_get]
  split
  · rename_i e; subst e; exact hx b
  · exact b.1 m

theorem setSalt_effect {a s : State} (h : Effect a s) (x : Salt) (hx : s.amountsBounded → x.amount ≤ s.cfg.saltFull) :
    Effect a (s.setSalt x) := acct_effect h _ (fun b => ⟨b.1, hx b⟩) id

/-- A stroke taken changes the amounts and nothing else. -/
theorem takeStroke_effect {a s t : State} (h : Effect a s) {n : ReservoirId} (ht : s.takeStroke n = some t) :
    Effect a t ∧ t.dose = s.dose ∧ t.arb = s.arb := by
  unfold State.takeStroke at ht
  dsimp only at ht
  split at ht
  · cases ht
  · split at ht
    · cases ht
      exact ⟨setReservoir_effect h n _ fun b => (Nat.sub_le _ _).trans (b.1 n), rfl, rfl⟩
    · cases ht; exact ⟨h, rfl, rfl⟩

theorem reservoirMark_le (g : Settings) (n : ReservoirId) : reservoirMark g n ≤ g.resFull[n] := Nat.min_le_right _ _

theorem saltMark_le (g : Settings) : saltMark g ≤ g.saltFull := Nat.min_le_right _ _

theorem lowUncovered_effect {a s : State} (h : Effect a s) (n : ReservoirId) : Effect a (s.lowUncovered n) := by
  unfold State.lowUncovered
  refine post_effect (setReservoir_effect h n _ fun _ => ?_) _ _ _
  dsimp only
  split
  · exact (Nat.min_le_right _ _).trans (reservoirMark_le _ _)
  · exact reservoirMark_le _ _

theorem emptyUncovered_effect {a s : State} (h : Effect a s) (n : ReservoirId) : Effect a (s.emptyUncovered n) :=
  post_effect (setReservoir_effect h n _ fun _ => Nat.zero_le _) _ _ _

theorem lowCovered_effect {a s : State} (h : Effect a s) (n : ReservoirId) : Effect a (s.lowCovered n) :=
  post_effect (setReservoir_effect h n _ fun _ => Nat.le_refl _) _ _ _

theorem emptyCovered_effect {a s : State} (h : Effect a s) (n : ReservoirId) : Effect a (s.emptyCovered n) :=
  setReservoir_effect h n _ fun _ => Nat.min_le_right _ _

theorem saltReported_effect {a s : State} (h : Effect a s) : Effect a s.saltReported := by
  unfold State.saltReported
  split
  · exact h
  · exact h.trans (.of_rest rfl rfl rfl rfl rfl fun b =>
      ⟨b.weak, b.descs, b.one, b.queue, fun c => by cases c <;> first | exact b.columns .a | exact b.columns .b, b.amounts, b.log,
        b.channels⟩)

theorem deductSalt_effect {a s : State} (h : Effect a s) (grams : Nat) : Effect a (s.deductSalt grams) := by
  unfold State.deductSalt
  dsimp only
  split
  · exact saltReported_effect (setSalt_effect h _ fun b => (Nat.sub_le _ _).trans b.2)
  · exact h

theorem saltUncovered_effect {a s : State} (h : Effect a s) : Effect a s.saltUncovered := by
  unfold State.saltUncovered
  refine post_effect (saltReported_effect (setSalt_effect h _ fun _ => ?_)) _ _ _
  dsimp only
  split
  · exact (Nat.min_le_right _ _).trans (saltMark_le _)
  · exact saltMark_le _

theorem saltCovered_effect {a s : State} (h : Effect a s) : Effect a s.saltCovered :=
  post_effect (saltReported_effect (setSalt_effect h _ fun _ => Nat.le_refl _)) _ _ _

theorem setHardness_effect {a s : State} (h : Effect a s) (x : Nat) (sensed : Bool) : Effect a (s.setHardness x sensed) := by
  unfold State.setHardness
  have : Effect a ({ s with acct := { s.acct with hardness := x, sensed := sensed } } : State) := acct_effect h _ id id
  dsimp only
  split
  · exact post_effect this _ _ _
  · exact this

theorem hardnessReading_effect {a s : State} (h : Effect a s) (count : Nat) (q : Quality) :
    Effect a (s.hardnessReading count q) := by
  unfold State.hardnessReading
  split
  · exact setHardness_effect h _ _
  · exact h

/-- A draw record joins the log: 16 are kept, and only a WASH record carries bypass. -/
theorem appendDraw_effect {a s : State} (h : Effect a s) (p : Purpose) (x y z w : Nat) (o : OutcomeCode)
    (hz : p ≠ .wash → z = 0) : Effect a (s.appendDraw p x y z w o) := by
  refine acct_effect h _ id fun b => ⟨?_, fun r hr => ?_⟩
  · have hb : s.acct.log.length ≤ 16 := b.1
    show (_ : List DrawRecord).length ≤ 16
    rw [List.length_append, List.length_singleton]
    split
    · rename_i hc
      exact hc
    · rw [List.length_drop]; omega
  · dsimp only at hr
    rcases List.mem_append.mp hr with hr | hr
    · split at hr
      · exact b.2 r hr
      · exact b.2 r (List.mem_of_mem_drop hr)
    · rw [List.mem_singleton] at hr; subst hr; exact hz

theorem appendRegenDraw_effect {a s : State} (h : Effect a s) (p : Purpose) (c : Column) (v w : Nat) (o : OutcomeCode) :
    Effect a (s.appendRegenDraw p c v w o) := by
  cases c <;> exact appendDraw_effect h _ _ _ _ _ _ fun _ => rfl

theorem clearLevelFlags_effect {a s : State} (h : Effect a s) : Effect a s.clearLevelFlags := by
  unfold State.clearLevelFlags
  refine setSalt_effect (Effect.foldl _ (fun s n h => ?_) _ h) _ fun b => b.2
  exact setReservoir_effect h n _ fun b => b.1 n

end Sys2Proof.Machine
end

