-- ==== Sys2Proof/Laws/Dosing.lean ====
section
/-! SUPPORT. What the operations of the Dose Engine do: they are effects, and keep law 9. -/

namespace Sys2Proof.Machine

/-- A channel replaced by one whose counts are right. -/
theorem setChannel_effect {a s : State} (h : Effect a s) (c : ChannelId) (x : Channel)
    (hx : s.descsLegal → ChannelOk (s.channel c) → ChannelOk x) : Effect a (s.setChannel c x) := by
  refine h.trans (.of_rest rfl rfl rfl rfl rfl fun b =>
    ⟨b.weak, b.descs, b.one, b.queue, fun d => by cases d <;> first | exact b.columns .a | exact b.columns .b, b.amounts, b.log,
      fun d => ?_⟩)
  rw [State.channel_setChannel]
  split
  · exact hx b.descs (b.channels c)
  · exact b.channels d

/-- A channel whose counts stand, in another state. -/
theorem ChannelOk.of_counts {x y : Channel} (hx : ChannelOk x) (hi : x.state ≠ .idle) (hs : x.step ≠ .stroke)
    (h1 : y.loaded = x.loaded) (h2 : y.completed = x.completed) (h3 : y.started = x.started) (h4 : y.step ≠ .stroke) :
    ChannelOk y := fun _ => by
  obtain ⟨k1, k2, _⟩ := hx hi
  rw [if_neg hs] at k2
  exact ⟨by rw [h1, h2]; exact k1, by rw [h2, h3, if_neg h4]; exact k2, fun _ => h4⟩

/-- A channel none of whose counts, state and step change. -/
theorem ChannelOk.of_same {x y : Channel} (hx : ChannelOk x) (h0 : y.state = x.state) (h1 : y.loaded = x.loaded)
    (h2 : y.completed = x.completed) (h3 : y.started = x.started) (h4 : y.step = x.step) : ChannelOk y := by
  unfold ChannelOk at *
  rw [h0, h1, h2, h3, h4]; exact hx

theorem ChannelOk.of_idle {x : Channel} (h : x.state = .idle) : ChannelOk x := fun e => absurd h e

/-- A channel not IDLE has a step that is no stroke unless it is DOSING. -/
theorem ChannelOk.step {x : Channel} (hx : ChannelOk x) (hi : x.state ≠ .idle) (hd : x.state ≠ .dosing) :
    x.step ≠ .stroke := (hx hi).2.2 hd

/-- The channel of an effect that leaves the dose engine. -/
theorem State.channel_congr {s t : State} (h : t.dose = s.dose) (c : ChannelId) : t.channel c = s.channel c := by
  simp only [State.channel, h]

/-- The books of the blocks that own no lease: what the Resource Arbiter's operations leave. -/
def State.owned (s : State) : Dose × Softener × Accounts := (s.dose, s.soft, s.acct)

theorem State.owned_reportSwitching (s t : State) : (reportSwitching s t).owned = t.owned := by
  unfold reportSwitching; split <;> rfl

theorem State.owned_editEntry (s : State) (r : Resource) (f : Entry → Entry) : (s.editEntry r f).owned = s.owned := by
  unfold State.editEntry; dsimp only; rw [State.owned_reportSwitching]; rfl

theorem State.owned_ask (s : State) (r : Resource) (who : Holder) (serial : Nat) (want : Option Column) :
    (s.ask r who serial want).owned = s.owned := State.owned_editEntry s r _

theorem State.owned_withdrawFrom (s : State) (who : Holder) (r : Resource) : (s.withdrawFrom who r).owned = s.owned := by
  unfold State.withdrawFrom
  split
  · exact State.owned_editEntry s r _
  · rfl

theorem State.owned_withdraw (s : State) (who : Holder) : (s.withdraw who).owned = s.owned := by
  unfold State.withdraw
  generalize allResources = l
  induction l generalizing s with
  | nil => rfl
  | cons r rest ih => rw [List.foldl_cons, ih, State.owned_withdrawFrom]

theorem State.owned_freeLease (s : State) (r : Resource) : (s.freeLease r).owned = s.owned := by
  unfold State.freeLease
  rw [State.owned_reportSwitching]
  show (s.dropDrive r).owned = s.owned
  unfold State.dropDrive; split <;> rfl

theorem State.owned_letGo (s : State) (r : Resource) : (s.letGo r).owned = s.owned := by
  unfold State.letGo
  split
  · rfl
  · rfl
  · rw [State.owned_freeLease]; rfl
  · show ((s.writeRelease r).freeLease r).owned = _
    rw [State.owned_freeLease]; rfl
  · cases r with
    | circ =>
      dsimp only
      split
      · rw [State.owned_freeLease]; rfl
      · rw [State.owned_editEntry]; rfl
    | doorDrive => show (State.editEntry _ _ _).owned = _; rw [State.owned_editEntry]; rfl
    | _ => show (State.freeLease _ _).owned = _; rw [State.owned_freeLease]; rfl

theorem State.owned_release (s : State) (r : Resource) : (s.release r).owned = s.owned := by
  unfold State.release
  split
  · rw [State.owned_letGo, State.owned_freeLease]; rfl
  · exact State.owned_letGo s r

theorem State.owned_releaseIf (s : State) (who : Holder) (r : Resource) : (s.releaseIf who r).owned = s.owned := by
  unfold State.releaseIf
  split
  · exact State.owned_release s r
  · rfl

theorem State.dose_of_owned {s t : State} (h : t.owned = s.owned) : t.dose = s.dose := congrArg Prod.fst h

theorem State.soft_of_owned {s t : State} (h : t.owned = s.owned) : t.soft = s.soft :=
  congrArg (fun x => Prod.fst (Prod.snd x)) h

theorem State.dose_withdraw (s : State) (who : Holder) : (s.withdraw who).dose = s.dose :=
  State.dose_of_owned (State.owned_withdraw s who)

theorem State.dose_release (s : State) (r : Resource) : (s.release r).dose = s.dose :=
  State.dose_of_owned (State.owned_release s r)

theorem State.dose_releaseIf (s : State) (who : Holder) (r : Resource) : (s.releaseIf who r).dose = s.dose :=
  State.dose_of_owned (State.owned_releaseIf s who r)

theorem State.soft_releaseIf (s : State) (who : Holder) (r : Resource) : (s.releaseIf who r).soft = s.soft :=
  State.soft_of_owned (State.owned_releaseIf s who r)

theorem State.soft_withdraw (s : State) (who : Holder) : (s.withdraw who).soft = s.soft :=
  State.soft_of_owned (State.owned_withdraw s who)

theorem State.dose_post (s : State) (e : Event) (x v : Nat) : (s.post e x v).dose = s.dose := rfl

/-! ### Runs -/

theorem armedAct_effect {a s : State} (h : Effect a s) (c : ChannelId) : Effect a (s.armedAct c) := by
  unfold State.armedAct
  dsimp only
  split
  · rename_i ha
    have hi : (s.channel c).state ≠ .idle := by rw [ha]; decide
    have hd : (s.channel c).state ≠ .dosing := by rw [ha]; decide
    split
    · refine ask_effect (setChannel_effect h c _ ?_) _ _ _ _
      exact fun _ k => k.of_counts hi (k.step hi hd) rfl rfl rfl (k.step hi hd)
    · split
      · refine ask_effect (setChannel_effect h c _ ?_) _ _ _ _
        exact fun _ k => k.of_counts hi (k.step hi hd) rfl rfl rfl (k.step hi hd)
      · exact h
  · exact h

/-- The loaded count of a descriptor that is not empty is at least 1 (R93, R98). -/
theorem loadedCount_pos {s : State} (hs : s.descsLegal) {n : DescId} (he : descEmpty s.dose.descs[n] = false) :
    0 < s.loadedCount s.dose.descs[n] := by
  have := hs n he
  simp only [descFieldsInRange, Bool.and_eq_true, decide_eq_true_eq] at this
  unfold State.loadedCount
  split
  · omega
  · omega

theorem loadDesc_effect {a s : State} (h : Effect a s) (c : ChannelId) {n : DescId}
    (he : descEmpty s.dose.descs[n] = false) : Effect a (s.loadDesc c n) := by
  unfold State.loadDesc
  refine armedAct_effect (setChannel_effect h c _ fun hs _ _ => ?_) c
  exact ⟨loadedCount_pos hs he, rfl, fun _ => by simp [Channel.reset]⟩

theorem triggerChannel_effect {a s : State} (h : Effect a s) (c : ChannelId) : Effect a (s.triggerChannel c) := by
  unfold State.triggerChannel
  dsimp only
  split
  · exact h
  · refine armedAct_effect (setChannel_effect h c _ ?_) c
    exact fun _ k => k.of_same rfl rfl rfl rfl rfl

theorem offerTrigger_effect {a s : State} (h : Effect a s) (src : TriggerSource) : Effect a (s.offerTrigger src) :=
  Effect.foldl _ (fun s c h => by
    split
    · exact triggerChannel_effect h c
    · exact h) _ h

theorem offerChannelDone_effect {a s : State} (h : Effect a s) (done : ChannelId) : Effect a (s.offerChannelDone done) :=
  Effect.foldl _ (fun s c h => by
    dsimp only
    split
    · exact triggerChannel_effect h c
    · exact h) _ h

/-! ### Halts -/

/-- A channel that is not IDLE and has no stroke running is HALTED. -/
theorem haltChannel_effect {a s : State} (h : Effect a s) (c : ChannelId) (cause : HaltCause)
    (hi : (s.channel c).state ≠ .idle) (hs : ChannelOk (s.channel c) → (s.channel c).step ≠ .stroke) :
    Effect a (s.haltChannel c cause) := by
  refine post_effect (setChannel_effect h c _ ?_) _ _ _
  exact fun _ k => k.of_counts hi (hs k) rfl rfl rfl (by simp)

theorem haltEmpty_effect {a s : State} (h : Effect a s) (c : ChannelId) (hi : (s.channel c).state ≠ .idle)
    (hs : (s.channel c).step ≠ .stroke) : Effect a (s.haltEmpty c) := by
  have e := State.channel_congr (State.dose_releaseIf s (channelWho c) (s.channelPump (s.channel c))) c
  exact haltChannel_effect (releaseIf_effect h _ _) c _ (by rw [e]; exact hi) fun _ => by rw [e]; exact hs

/-- A stroke that is cut leaves the started count at the completed count. -/
theorem ChannelOk.cut {x : Channel} (h : ChannelOk x) : ChannelOk x.cut ∧ x.cut.step ≠ .stroke ∧ x.cut.state = x.state := by
  unfold Channel.cut
  split
  · rename_i hs
    refine ⟨fun hi => ?_, by simp, rfl⟩
    obtain ⟨k1, k2, _⟩ := h hi
    rw [if_pos hs] at k2
    exact ⟨k1, by simp [k2], fun _ => by simp⟩
  · rename_i hs
    refine ⟨fun hi => ?_, by simp, rfl⟩
    obtain ⟨k1, k2, _⟩ := h hi
    rw [if_neg hs] at k2
    exact ⟨k1, by simp [k2], fun _ => by simp⟩

theorem cut_step (x : Channel) : x.cut.step ≠ .stroke ∧ x.cut.state = x.state := by
  unfold Channel.cut; split <;> simp

theorem channelDoorOpened_effect {a s : State} (h : Effect a s) (c : ChannelId) : Effect a (s.channelDoorOpened c) := by
  unfold State.channelDoorOpened
  dsimp only
  split
  · rename_i hd
    have hi : (s.channel c).cut.state ≠ .idle := by rw [(cut_step _).2, hd]; decide
    have h1 : Effect a ((s.setChannel c (s.channel c).cut).haltChannel c .door) :=
      haltChannel_effect (setChannel_effect h c _ fun _ k => k.cut.1) c _
        (by rw [State.channel_setChannel_self]; exact hi)
        fun _ => by rw [State.channel_setChannel_self]; exact (cut_step _).1
    have hch : ((s.setChannel c (s.channel c).cut).haltChannel c .door).channel c =
        { (s.channel c).cut with state := .halted, cause := .door, step := .none, interval := Timer.zero } := by
      unfold State.haltChannel
      rw [State.channel_congr (State.dose_post _ _ _ _), State.channel_setChannel_self, State.channel_setChannel_self]
    split
    · refine haltChannel_effect (releaseIf_effect h1 _ _) c _ ?_ fun _ => ?_
      · rw [State.channel_congr (State.dose_releaseIf _ _ _), hch]; simp
      · rw [State.channel_congr (State.dose_releaseIf _ _ _), hch]; simp
    · exact h1
  · exact h

theorem channelTripped_effect {a s : State} (h : Effect a s) (c : ChannelId) : Effect a (s.channelTripped c) := by
  unfold State.channelTripped
  dsimp only
  split
  · exact h
  · rename_i hi
    have h1 := setChannel_effect h c { (s.channel c).cut with stopPending := false } fun _ k =>
      k.cut.1.of_same rfl rfl rfl rfl rfl
    split
    · exact h1
    · refine haltChannel_effect h1 c _ ?_ fun _ => ?_
      · rw [State.channel_setChannel_self]
        show (s.channel c).cut.state ≠ .idle
        rw [(cut_step _).2]; exact hi
      · rw [State.channel_setChannel_self]; exact (cut_step (s.channel c)).1

/-- The cut of a stroke, as the lease stands. -/
theorem strokeCut_effect {a s : State} (h : Effect a s) (c : ChannelId) : Effect a (s.strokeCut c) := by
  unfold State.strokeCut
  split
  · exact channelDoorOpened_effect h c
  · exact channelTripped_effect h c

theorem strokeStage3_effect {a s : State} (h : Effect a s) (c : ChannelId) (hd : (s.channel c).state = .dosing)
    (hs : (s.channel c).step ≠ .stroke) : Effect a (s.strokeStage3 c) := by
  have hi : (s.channel c).state ≠ .idle := by rw [hd]; decide
  unfold State.strokeStage3
  dsimp only
  split
  · exact haltEmpty_effect h c hi hs
  · rename_i t ht
    obtain ⟨e1, e2, _⟩ := takeStroke_effect h ht
    have e3 : Effect a (t.setChannel c { s.channel c with
        started := (s.channel c).started + 1, step := .stroke, interval := Timer.zero }) :=
      setChannel_effect e1 c _ fun _ k _ => by
        rw [State.channel_congr e2] at k
        obtain ⟨k1, k2, _⟩ := k hi
        rw [if_neg hs] at k2
        exact ⟨k1, by simp [k2], fun x => absurd hd x⟩
    split
    · exact Effect.trans e3 (.of_idle rfl rfl rfl rfl rfl rfl rfl rfl)
    · exact strokeCut_effect e3 c

theorem strokeStart_effect {a s : State} (h : Effect a s) (c : ChannelId) (hd : (s.channel c).state = .dosing)
    (hs : (s.channel c).step ≠ .stroke) : Effect a (s.strokeStart c) := by
  have hi : (s.channel c).state ≠ .idle := by rw [hd]; decide
  unfold State.strokeStart
  dsimp only
  split
  · exact haltEmpty_effect h c hi hs
  · split
    · exact setChannel_effect h c _ fun _ k => k.of_counts hi hs rfl rfl rfl (by simp)
    · exact strokeStage3_effect h c hd hs

theorem channelGranted_effect {a s : State} (h : Effect a s) (c : ChannelId) : Effect a (s.channelGranted c) := by
  unfold State.channelGranted
  split
  · rename_i hw
    have hi : (s.channel c).state ≠ .idle := by rw [hw]; decide
    refine strokeStart_effect (setChannel_effect h c _ ?_) c ?_ ?_
    · exact fun _ k => k.of_counts hi (k.step hi (by rw [hw]; decide)) rfl rfl rfl (by simp)
    · rw [State.channel_setChannel_self]
    · rw [State.channel_setChannel_self]; simp
  · exact h

theorem stopChannel_effect {a s : State} (h : Effect a s) (c : ChannelId) : Effect a (s.stopChannel c) := by
  have e1 := State.channel_congr (State.dose_releaseIf s (channelWho c) (s.channelPump (s.channel c))) c
  unfold State.stopChannel
  dsimp only
  split
  · exact h
  · rename_i hw
    have hi : (s.channel c).state ≠ .idle := by rw [hw]; decide
    exact haltChannel_effect h c _ hi fun k => k.step hi (by rw [hw]; decide)
  · rename_i hw
    have hi : (s.channel c).state ≠ .idle := by rw [hw]; decide
    have e := State.channel_congr (State.dose_withdraw s (channelWho c)) c
    exact haltChannel_effect (withdraw_effect h _) c _ (by rw [e]; exact hi) fun k => by
      rw [e] at *; exact k.step hi (by rw [hw]; decide)
  · rename_i hw
    have hi : (s.channel c).state ≠ .idle := by rw [hw]; decide
    split
    · exact setChannel_effect h c _ fun _ k => k.of_same rfl rfl rfl rfl rfl
    · rename_i hs
      exact haltChannel_effect (releaseIf_effect h _ _) c _ (by rw [e1]; exact hi) fun _ => by rw [e1]; exact hs
  · rename_i hw
    have hi : (s.channel c).state ≠ .idle := by rw [hw]; decide
    have hd : (s.channel c).state ≠ .dosing := by rw [hw]; decide
    split
    · exact haltChannel_effect (releaseIf_effect h _ _) c _ (by rw [e1]; exact hi) fun k => by
        rw [e1] at *; exact k.step hi hd
    · exact haltChannel_effect h c _ hi fun k => k.step hi hd
    all_goals exact h

theorem idleChannel_effect {a s : State} (h : Effect a s) (c : ChannelId) : Effect a (s.idleChannel c) :=
  setChannel_effect h c _ fun _ _ => .of_idle rfl

theorem finishDesc_effect {a s : State} (h : Effect a s) (c : ChannelId) : Effect a (s.finishDesc c) := by
  unfold State.finishDesc
  dsimp only
  have h1 := releaseIf_effect h (channelWho c) (s.channelPump (s.channel c))
  have h2 : Effect a (match descLink (s.currentDesc (s.channel c)) with
      | some l => if descEmpty (s.releaseIf (channelWho c) (s.channelPump (s.channel c))).dose.descs[l] then
          (s.releaseIf (channelWho c) (s.channelPump (s.channel c))).idleChannel c
        else (s.releaseIf (channelWho c) (s.channelPump (s.channel c))).loadDesc c l
      | none => (s.releaseIf (channelWho c) (s.channelPump (s.channel c))).idleChannel c) := by
    split
    · split
      · exact idleChannel_effect h1 c
      · rename_i he
        exact loadDesc_effect h1 c (by simpa using he)
    · exact idleChannel_effect h1 c
  have h3 := offerChannelDone_effect h2 c
  have h4 : ∀ t, Effect a t → Effect a (if (s.currentDesc (s.channel c)).endReport == 1 then
      match (s.channel c).current with
      | some n => t.post .doseDescDone c.val n.val
      | none => t
    else t) := fun t ht => by
    split
    · split
      · exact post_effect ht _ _ _
      · exact ht
    · exact ht
  split
  · exact stopChannel_effect (h4 _ h3) c
  · exact h4 _ h3

theorem strokeEnded_effect {a s : State} (h : Effect a s) (c : ChannelId) : Effect a (s.strokeEnded c) := by
  have e1 := State.channel_congr (State.dose_releaseIf s (channelWho c) (s.channelPump (s.channel c))) c
  unfold State.strokeEnded
  dsimp only
  split
  · exact h
  · rename_i hc
    rw [not_or, not_not, not_not] at hc
    obtain ⟨hd, hst⟩ := hc
    have hi : (s.channel c).state ≠ .idle := by rw [hd]; decide
    -- a counted stroke leaves the counts right, whatever state the channel goes to
    have key : ∀ y : Channel, (s.channel c).completed + 1 ≠ (s.channel c).loaded → y.loaded = (s.channel c).loaded →
        y.completed = (s.channel c).completed + 1 → y.started = (s.channel c).started → y.step ≠ .stroke →
        ChannelOk (s.channel c) → ChannelOk y := fun y hn h1 h2 h3 h4 k _ => by
      obtain ⟨k1, k2, _⟩ := k hi
      rw [if_pos hst] at k2
      exact ⟨by rw [h1, h2]; omega, by rw [h2, h3, if_neg h4]; omega, fun _ => h4⟩
    split
    · exact finishDesc_effect h c
    · rename_i hn
      split
      · refine haltChannel_effect (setChannel_effect (releaseIf_effect h _ _) c _ fun _ k => ?_) c _ ?_ fun _ => ?_
        · rw [e1] at k; exact key _ hn rfl rfl rfl (by simp) k
        · rw [State.channel_setChannel_self]; exact hi
        · rw [State.channel_setChannel_self]; simp
      · split
        · refine armedAct_effect (setChannel_effect (releaseIf_effect h _ _) c _ fun _ k => ?_) c
          rw [e1] at k; exact key _ hn rfl rfl rfl (by simp) k
        · exact setChannel_effect h c _ fun _ k => key _ hn rfl rfl rfl (by simp) k

theorem channelDoorClosed_effect {a s : State} (h : Effect a s) (c : ChannelId) : Effect a (s.channelDoorClosed c) := by
  unfold State.channelDoorClosed
  dsimp only
  split
  · rename_i hc
    have hi : (s.channel c).state ≠ .idle := by rw [hc.1]; decide
    refine strokeStart_effect (setChannel_effect h c _ ?_) c ?_ ?_
    · exact fun _ k => k.of_counts hi (k.step hi (by rw [hc.1]; decide)) rfl rfl rfl (by simp)
    · rw [State.channel_setChannel_self]
    · rw [State.channel_setChannel_self]; simp
  · exact h

theorem returnChannel_effect {a s : State} (h : Effect a s) (c : ChannelId) (hi : (s.channel c).state ≠ .idle)
    (hd : (s.channel c).state ≠ .dosing) : Effect a (s.returnChannel c) := by
  refine armedAct_effect (setChannel_effect h c _ ?_) c
  exact fun _ k => k.of_counts hi (k.step hi hd) rfl rfl rfl (k.step hi hd)

theorem refillChannels_effect {a s : State} (h : Effect a s) (n : ReservoirId) : Effect a (s.refillChannels n) :=
  Effect.foldl _ (fun s c h => by
    dsimp only
    split
    · rename_i hc
      exact returnChannel_effect h c (by rw [hc.1]; decide) (by rw [hc.1]; decide)
    · exact h) _ h

theorem waterChannels_effect {a s : State} (h : Effect a s) : Effect a s.waterChannels := by
  unfold State.waterChannels
  split
  · exact Effect.foldl _ (fun s c h => by
      dsimp only
      split
      · rename_i hc
        exact strokeStage3_effect h c hc.1 (by rw [hc.2]; decide)
      · exact h) _ h
  · exact h

theorem yieldChannel_effect {a s : State} (h : Effect a s) (c : ChannelId) (hi : (s.channel c).state ≠ .idle)
    (hs : (s.channel c).step ≠ .stroke) : Effect a (s.yieldChannel c) := by
  have e := State.channel_congr (State.dose_release s (s.channelPump (s.channel c))) c
  exact ask_effect (setChannel_effect (release_effect h _) c _ fun _ k => by
    rw [e] at k; exact k.of_counts hi hs rfl rfl rfl (by simp)) _ _ _ _

end Sys2Proof.Machine
end

