-- ==== Sys2Proof/Laws/Softener.lean ====
section
/-! SUPPORT. What the operations of the Softener Unit and the Water Path Unit's FILL positions do: they are effects, and keep
laws 5 and 6. -/

namespace Sys2Proof.Machine

/-! ### Columns and the queue -/

/-- A column replaced by one that keeps laws 5 and 6. -/
theorem setColumn_effect {a s : State} (h : Effect a s) (c : Column) (x : ColumnRec)
    (h5 : s.oneInService → x.state = .inService → (s.column (Column.other c)).state ≠ .inService)
    (h6 : s.cfg.weakPercent ≤ 100 → s.columnsBounded → x.remaining ≤ s.rated c) : Effect a (s.setColumn c x) := by
  refine h.trans (.of_rest (by cases c <;> rfl) (by simp) (by simp) (by simp) (by simp) fun b => ⟨?_, ?_, ?_, ?_, ?_, ?_, ?_, ?_⟩)
  · simpa using b.weak
  · intro n; simpa using b.descs n
  · have := h5 b.one
    cases c with
    | a => exact fun k => this k
    | b => exact fun k k' => this k' k
  · have hq : (s.setColumn c x).soft.queue = s.soft.queue ∧ (s.setColumn c x).soft.regen = s.soft.regen := by
      cases c <;> exact ⟨rfl, rfl⟩
    unfold State.queueLegal
    rw [hq.1, hq.2]; exact b.queue
  · intro d
    have hr : (s.setColumn c x).rated d = s.rated d := by cases c <;> cases d <;> rfl
    rw [State.column_setColumn, hr]
    split
    · rename_i e; subst e; exact h6 b.weak b.columns
    · exact b.columns d
  · simpa [State.amountsBounded] using b.amounts
  · simpa [State.logLegal] using b.log
  · intro d
    rw [State.channel_congr (State.setColumn_dose s c x) d]; exact b.channels d

/-- A change of the softener that leaves both column records and keeps the queue's law. -/
theorem soft_effect {a s : State} (h : Effect a s) (x : Softener) (ha : x.colA = s.soft.colA) (hb : x.colB = s.soft.colB)
    (hq : s.queueLegal → ({ s with soft := x } : State).queueLegal) : Effect a ({ s with soft := x } : State) := by
  refine h.trans (.of_rest rfl rfl rfl rfl rfl fun b =>
    ⟨b.weak, b.descs, ?_, hq b.queue, fun c => ?_, b.amounts, b.log, b.channels⟩)
  · show x.colA.state = .inService → x.colB.state ≠ .inService
    rw [ha, hb]; exact b.one
  · cases c with
    | a => show x.colA.remaining ≤ s.cfg.capRatedA; rw [ha]; exact b.columns .a
    | b => show x.colB.remaining ≤ s.cfg.capRatedB; rw [hb]; exact b.columns .b

/-- There are two columns: a list that names none twice has at most two entries. -/
theorem columns_length {l : List QueueEntry} (h : (l.map (·.column)).Nodup) : l.length ≤ 2 := by
  have hs : l.map (·.column) ⊆ [Column.a, Column.b] := fun c _ => by cases c <;> simp
  simpa using (List.subperm_of_subset h hs).length_le

/-- A queue in which no column stands twice, none of it the column of the regeneration in progress. -/
theorem setQueue_effect {a s : State} (h : Effect a s) (q : List QueueEntry)
    (hn : s.queueLegal → (q.map (·.column)).Nodup)
    (hr : s.queueLegal → ∀ g, s.soft.regen = some g → ∀ e ∈ q, e.column ≠ g.column) : Effect a (s.setQueue q) :=
  soft_effect h _ rfl rfl fun k => ⟨columns_length (hn k), hn k, hr k⟩

/-- A queue some of whose entries are left out. -/
theorem setQueue_sublist_effect {a s : State} (h : Effect a s) {q : List QueueEntry} (hq : q.Sublist s.soft.queue) :
    Effect a (s.setQueue q) :=
  setQueue_effect h q (fun k => k.2.1.sublist (hq.map _)) fun k g hg e he => k.2.2 g hg e (hq.subset he)

/-- A regeneration whose column has no entry. -/
theorem setRegen_effect {a s : State} (h : Effect a s) (g : Regen)
    (hg : s.queueLegal → ∀ q ∈ s.soft.queue, q.column ≠ g.column) : Effect a (s.setRegen (some g)) :=
  soft_effect h _ rfl rfl fun k => ⟨k.1, k.2.1, fun x hx => by cases hx; exact hg k⟩

/-- The regeneration in progress replaced by one of the same column. -/
theorem setRegenSame_effect {a s : State} (h : Effect a s) {g : Regen} (hs : s.soft.regen = some g) (x : Regen)
    (hx : x.column = g.column) : Effect a (s.setRegen (some x)) :=
  setRegen_effect h x fun k q hq => hx ▸ k.2.2 g hs q hq

theorem endRegenRecord_effect {a s : State} (h : Effect a s) : Effect a (s.setRegen none) :=
  soft_effect h _ rfl rfl fun k => ⟨k.1, k.2.1, fun x hx => by cases hx⟩

/-- A column has no entry where the queue says so. -/
theorem isQueued_false {s : State} {c : Column} (h : s.isQueued c = false) : ∀ q ∈ s.soft.queue, q.column ≠ c := by
  simpa [State.isQueued] using h

/-- A regeneration is of another column where the record says so. -/
theorem regenOf_false {s : State} {c : Column} (h : s.regenOf c = false) : ∀ g, s.soft.regen = some g → g.column ≠ c := by
  intro g hg
  unfold State.regenOf at h
  rw [hg] at h
  simpa using h

theorem joinTail_effect {a s : State} (h : Effect a s) (c : Column) : Effect a (s.joinTail c) := by
  unfold State.joinTail
  split
  · exact h
  · rename_i hn
    simp only [Bool.or_eq_true, not_or, Bool.not_eq_true] at hn
    refine setQueue_effect h _ (fun k => ?_) fun k g hg e he => ?_
    · rw [List.map_append, List.nodup_append]
      refine ⟨k.2.1, by simp, ?_⟩
      intro x hx y hy
      simp only [List.map_cons, List.map_nil, List.mem_singleton] at hy
      subst hy
      obtain ⟨q, hq, rfl⟩ := List.mem_map.mp hx
      exact isQueued_false hn.1 q hq
    · rcases List.mem_append.mp he with he | he
      · exact k.2.2 g hg e he
      · rw [List.mem_singleton] at he; subst he
        exact (regenOf_false hn.2 g hg).symm

/-- A REGEN entry at the head, while no regeneration is in progress. -/
theorem joinHead_effect {a s : State} (h : Effect a s) (c : Column) (hr : s.soft.regen = none) :
    Effect a (s.joinHead c) := by
  unfold State.joinHead
  split
  · exact h
  · rename_i hn
    rw [Bool.not_eq_true] at hn
    refine setQueue_effect h _ (fun k => ?_) fun k g hg => by rw [hr] at hg; cases hg
    rw [List.map_cons, List.nodup_cons]
    refine ⟨fun hx => ?_, k.2.1⟩
    obtain ⟨q, hq, hc⟩ := List.mem_map.mp hx
    exact isQueued_false hn q hq hc

theorem State.column_joinTail (s : State) (c d : Column) : (s.joinTail c).column d = s.column d := by
  unfold State.joinTail; split <;> rfl

theorem queueExhausted_effect {a s : State} (h : Effect a s) : Effect a s.queueExhausted := by
  have h1 := ite_effect ((s.soft.colA.state == .exhausted) = true) (joinTail_effect h .a) h
  exact ite_effect _ (joinTail_effect h1 .b) h1

/-! ### FILL positions -/

theorem rewriteWant_effect {a s : State} (h : Effect a s) (who : Holder) (c : Column) : Effect a (s.rewriteWant who c) :=
  putEntry_effect h _ _ (.of_same rfl rfl) fun _ _ => .inl ⟨rfl, rfl⟩

theorem enterWaitSoft_effect {a s : State} (h : Effect a s) (i : SlotId) : Effect a (s.enterWaitSoft i) := by
  unfold State.enterWaitSoft
  split
  · exact setWork_effect (releaseIf_effect (releaseIf_effect (withdraw_effect h _) _ _) _ _) _ _
  · exact h

theorem fillAsks_effect {a s : State} (h : Effect a s) (i : SlotId) : Effect a (s.fillAsks i) := by
  unfold State.fillAsks
  split
  · dsimp only
    split
    · exact ask_effect (setWork_effect h _ _) _ _ _ _
    · exact setWork_effect h _ _
  · exact h

theorem toInlet_effect {a s : State} (h : Effect a s) (who : Holder) (serial : Nat) (c : Column) :
    Effect a (s.toInlet who serial c) := by
  unfold State.toInlet
  dsimp only
  split
  · exact ask_effect (changePosition_effect h c) _ _ _ _
  · exact changePosition_effect h c

theorem judgeFill_effect {a s : State} (h : Effect a s) (i : SlotId) : Effect a (s.judgeFill i) := by
  unfold State.judgeFill
  split
  · exact h
  · dsimp only
    split
    · split
      · exact fillAsks_effect h i
      · exact h
    · split
      · split
        · exact rewriteWant_effect h _ _
        · exact enterWaitSoft_effect h i
      · split
        · split
          · exact enterWaitSoft_effect h i
          · split
            · exact h
            · exact toInlet_effect (withdraw_effect h _) _ _ _
        · exact h

theorem judgeFills_effect {a s : State} (h : Effect a s) (but : Option SlotId) : Effect a (s.judgeFills but) :=
  Effect.foldl _ (fun s i h => by
    split
    · exact h
    · exact judgeFill_effect h i) _ h

theorem fillSelectorHeld_effect {a s : State} (h : Effect a s) (i : SlotId) : Effect a (s.fillSelectorHeld i) := by
  unfold State.fillSelectorHeld
  split
  · exact h
  · dsimp only
    split
    · exact enterWaitSoft_effect h i
    · exact toInlet_effect h _ _ _

theorem yieldPath_effect {a s : State} (h : Effect a s) (who : Holder) (serial : Nat) :
    Effect a (s.yieldPath who serial) := by
  unfold State.yieldPath
  split
  · exact ask_effect (release_effect (releaseIf_effect h _ _) _) _ _ _ _
  · split
    · exact ask_effect (release_effect h _) _ _ _ _
    · exact h

/-! ### Charges and exhaustion -/

theorem standbyIn_effect {a s : State} (h : Effect a s) (c : Column)
    (ho : (s.column (Column.other c)).state ≠ .inService) : Effect a (s.standbyIn c).1 := by
  unfold State.standbyIn
  split
  · exact setColumn_effect h c _ (fun _ _ => ho) fun _ b => b c
  · exact h

theorem postInService_effect {a s : State} (h : Effect a s) (c : Column) (came : Bool) :
    Effect a (s.postInService c came) := by
  unfold State.postInService
  split
  · exact post_effect h _ _ _
  · exact h

theorem Column.other_other (c : Column) : Column.other (Column.other c) = c := by cases c <;> rfl

theorem Column.other_ne (c : Column) : Column.other c ≠ c := by cases c <;> decide

theorem regenAsks_effect {a s : State} (h : Effect a s) (g : Regen) : Effect a (s.regenAsks g) := ask_effect h _ _ _ _

/-- The head stays where nothing is queued, a condition of R62 but the salt fails, or the wait for salt has begun. -/
theorem takeHead_stays {s : State}
    (h : s.soft.queue = [] ∨ s.headReady = false ∨ (s.saltOut = true ∧ s.soft.saltWait = true)) : s.takeHead = s := by
  unfold State.takeHead
  split
  · rfl
  · rename_i hq
    rcases h with h | h | ⟨h, h'⟩
    · exact absurd (hq.symm.trans h) (List.cons_ne_nil _ _)
    · rw [if_neg (by simp [h])]
    · rw [if_pos h, if_pos h', ite_self]

/-- The head begins its wait for salt. -/
theorem takeHead_waits {s : State} {q : QueueEntry} {rest : List QueueEntry} (hq : s.soft.queue = q :: rest)
    (hr : s.headReady = true) (ho : s.saltOut = true) (hw : s.soft.saltWait = false) :
    s.takeHead = ({ s with soft := { s.soft with saltWait := true } } : State).post .saltNeeded (columnCode q.column) 0 := by
  simp [State.takeHead, hq, hr, ho, hw]

/-- The head is taken for a regeneration, which asks for SELECTOR. -/
theorem takeHead_takes {s : State} {q : QueueEntry} {rest : List QueueEntry} (hq : s.soft.queue = q :: rest)
    (hr : s.headReady = true) (ho : s.saltOut = false) :
    s.takeHead = ((s.setQueue rest).setRegen (some (freshRegen q))).regenAsks (freshRegen q) := by
  simp [State.takeHead, hq, hr, ho]

theorem takeHead_effect {a s : State} (h : Effect a s) : Effect a s.takeHead := by
  unfold State.takeHead
  split
  · exact h
  · rename_i q rest hq
    refine ite_effect _ (ite_effect _ (ite_effect _ h (post_effect ?_ _ _ _)) ?_) h
    · exact soft_effect h _ rfl rfl id
    · refine regenAsks_effect (s := (s.setQueue rest).setRegen (some (freshRegen q))) (h.trans (.of_rest rfl rfl rfl rfl rfl fun b =>
        ⟨b.weak, b.descs, b.one, ?_, fun c => by cases c <;> first | exact b.columns .a | exact b.columns .b, b.amounts,
          b.log, b.channels⟩)) _
      have hn := b.queue.2.1
      rw [hq, List.map_cons, List.nodup_cons] at hn
      refine ⟨columns_length hn.2, hn.2, fun g hg e he hc => hn.1 ?_⟩
      cases hg
      exact List.mem_map.mpr ⟨e, he, hc⟩

theorem exhaustColumn_effect {a s : State} (h : Effect a s) (c : Column) (value : Nat) (but : Option SlotId) :
    Effect a (s.exhaustColumn c value but) := by
  unfold State.exhaustColumn
  dsimp only
  have h1 := setColumn_effect h c { s.column c with state := .exhausted, remaining := 0, breakthrough := none }
    (fun _ k => by cases k) fun _ _ => Nat.zero_le _
  have hc : ∀ t : State, (t = s.setColumn c { s.column c with state := .exhausted, remaining := 0, breakthrough := none } ∨
      t = (s.setColumn c { s.column c with state := .exhausted, remaining := 0, breakthrough := none }).joinTail c) →
      (t.column (Column.other (Column.other c))).state ≠ .inService := by
    rintro t (rfl | rfl)
    · rw [Column.other_other, State.column_setColumn, if_pos rfl]; simp
    · rw [Column.other_other, State.column_joinTail, State.column_setColumn, if_pos rfl]; simp
  split
  · exact takeHead_effect (judgeFills_effect (postInService_effect (post_effect
      (standbyIn_effect (joinTail_effect h1 c) _ (hc _ (.inr rfl))) _ _ _) _ _) _)
  · exact takeHead_effect (judgeFills_effect (postInService_effect (post_effect
      (standbyIn_effect h1 _ (hc _ (.inl rfl))) _ _ _) _ _) _)

theorem chargeDecilitre_effect {a s : State} (h : Effect a s) (i : SlotId) : Effect a (s.chargeDecilitre i).1 := by
  unfold State.chargeDecilitre
  dsimp only
  split
  · rename_i hs
    have hs : (s.column s.arb.selHeld).state = .inService := by simpa using hs
    have h1 := setColumn_effect h s.arb.selHeld
      { s.column s.arb.selHeld with remaining := (s.column s.arb.selHeld).remaining - s.acct.hardness }
      (fun o _ => by
        unfold State.oneInService at o
        cases hc : s.arb.selHeld with
        | a => rw [hc] at hs; exact o hs
        | b => rw [hc] at hs; exact fun k => o k hs)
      (fun _ b => (Nat.sub_le _ _).trans (b _))
    split
    · exact exhaustColumn_effect h1 _ _ _
    · split
      · exact exhaustColumn_effect h1 _ _ _
      · exact h1
  · exact h

theorem takeBreakthrough_effect {a s : State} (h : Effect a s) (i : SlotId) : Effect a (s.takeBreakthrough i) := by
  have h1 := ite_effect (s.soft.colA.breakthrough = some i) (exhaustColumn_effect h .a 1 none) h
  exact ite_effect _ (exhaustColumn_effect h1 .b 1 none) h1

theorem markBreakthrough_effect {a s : State} (h : Effect a s) : Effect a s.markBreakthrough := by
  unfold State.markBreakthrough
  split
  · dsimp only
    split
    · refine setColumn_effect h _ _ (fun o k => ?_) fun _ b => b _
      unfold State.oneInService at o
      cases hc : s.arb.selHeld with
      | a => rw [hc] at k; exact o k
      | b => rw [hc] at k; exact fun k' => o k' k
    · exact h
  · exact h

end Sys2Proof.Machine
end

