-- ==== Sys2Proof/Laws/Water.lean ====
section
/-! SUPPORT. What the operations of the Water Path Unit do: they are effects. -/

namespace Sys2Proof.Machine

theorem setTank_effect {a s : State} (h : Effect a s) (tank : Nat) (known : Bool) : Effect a (s.setTank tank known) :=
  h.trans (.of_idle rfl rfl rfl rfl rfl rfl rfl rfl)

theorem raiseTank_effect {a s : State} (h : Effect a s) : Effect a s.raiseTank := setTank_effect h _ _

theorem finishFill_effect {a s : State} (h : Effect a s) (i : SlotId) (o : OutcomeCode) (answer : Bool) :
    Effect a (s.finishFill i o answer) := by
  unfold State.finishFill
  split
  · exact h
  · rename_i sl w _
    dsimp only
    have h1 := takeBreakthrough_effect (withdraw_effect (releaseAll_effect (fixOutcome_effect h i o) (slotWho i sl))
      (slotWho i sl)) i
    refine endSlot_effect (ite_effect _ (offerTrigger_effect ?_ _) ?_) i o _ answer <;>
      exact appendDraw_effect h1 _ _ _ _ _ _ fun k => absurd rfl k

theorem takeUpFill_effect {a s : State} (h : Effect a s) (i : SlotId) : Effect a (s.takeUpFill i) := by
  unfold State.takeUpFill
  split
  · exact h
  · exact ite_effect _ (fillAsks_effect h i) (finishFill_effect h i _ _)

theorem fillInletGranted_effect {a s : State} (h : Effect a s) (i : SlotId) : Effect a (s.fillInletGranted i) := by
  unfold State.fillInletGranted
  split
  · exact h
  · exact ite_effect _ (finishFill_effect h i _ _) (setWork_effect h i _)

theorem finishCirc_effect {a s : State} (h : Effect a s) (i : SlotId) (o : OutcomeCode) (answer : Bool) :
    Effect a (s.finishCirc i o answer) := by
  unfold State.finishCirc
  split
  · exact h
  · rename_i sl w _
    have h1 := withdraw_effect (releaseAll_effect (fixOutcome_effect h i o) (slotWho i sl)) (slotWho i sl)
    exact ite_effect _ h1 (endSlot_effect h1 i o [] answer)

theorem circFreed_effect {a s : State} (h : Effect a s) (x : Option Holder) : Effect a (s.circFreed x) := by
  unfold State.circFreed
  split
  · split
    · split
      · exact endSlot_effect h _ _ _ _
      · exact h
    · exact h
  · exact h

theorem endCircWindDown_effect {a s : State} (h : Effect a s) : Effect a s.endCircWindDown :=
  circFreed_effect (freeLease_effect h _ fun c => by cases c) _

theorem takeUpCirc_effect {a s : State} (h : Effect a s) (i : SlotId) : Effect a (s.takeUpCirc i) := by
  unfold State.takeUpCirc
  split
  · exact h
  · exact ite_effect _ (ask_effect h _ _ _ _) (finishCirc_effect h i _ _)

theorem circGranted_effect {a s : State} (h : Effect a s) (i : SlotId) : Effect a (s.circGranted i) := by
  unfold State.circGranted
  split
  · exact h
  · exact h.trans (.of_idle rfl rfl rfl rfl rfl rfl rfl rfl)

theorem circReached_effect {a s : State} (h : Effect a s) : Effect a s.circReached := by
  unfold State.circReached
  dsimp only
  split
  · split
    · exact ite_effect _ (offerTrigger_effect (post_effect (setWork_effect h _ _) _ _ _) _) h
    · exact h
  · exact h

theorem yieldCirc_effect {a s : State} (h : Effect a s) (i : SlotId) : Effect a (s.yieldCirc i) := by
  unfold State.yieldCirc
  split
  · exact h
  · exact ask_effect (release_effect h _) _ _ _ _

theorem finishHeat_effect {a s : State} (h : Effect a s) (i : SlotId) (o : OutcomeCode) (answer : Bool) :
    Effect a (s.finishHeat i o answer) := by
  unfold State.finishHeat
  split
  · exact h
  · rename_i sl w _
    have h1 := withdraw_effect (releaseAll_effect (fixOutcome_effect h i o) (slotWho i sl)) (slotWho i sl)
    exact endSlot_effect (ite_effect _ (offerTrigger_effect (post_effect h1 _ _ _) _) h1) i o [] answer

theorem takeUpHeat_effect {a s : State} (h : Effect a s) (i : SlotId) : Effect a (s.takeUpHeat i) := by
  unfold State.takeUpHeat
  split
  · exact h
  · exact ite_effect _ (ask_effect h _ _ _ _) (finishHeat_effect h i _ _)

theorem yieldHeat_effect {a s : State} (h : Effect a s) (i : SlotId) : Effect a (s.yieldHeat i) := by
  unfold State.yieldHeat
  split
  · exact h
  · exact ask_effect (release_effect h _) _ _ _ _

theorem heatsReading_effect {a s : State} (h : Effect a s) : Effect a s.heatsReading :=
  Effect.foldl _ (fun s i h => by
    split
    · exact ite_effect _ (finishHeat_effect h i _ _) h
    · exact h) _ h

theorem heatsProbeFault_effect {a s : State} (h : Effect a s) : Effect a s.heatsProbeFault :=
  Effect.foldl _ (fun _ i h => finishHeat_effect h i _ _) _ h

theorem finishDrain_effect {a s : State} (h : Effect a s) (i : SlotId) (o : OutcomeCode) (answer : Bool) :
    Effect a (s.finishDrain i o answer) := by
  unfold State.finishDrain
  split
  · exact h
  · rename_i sl w _
    have h1 := withdraw_effect (releaseAll_effect (fixOutcome_effect h i o) (slotWho i sl)) (slotWho i sl)
    exact endSlot_effect (ite_effect _ (setTank_effect h1 _ _) h1) i o [] answer

theorem takeUpDrain_effect {a s : State} (h : Effect a s) (i : SlotId) : Effect a (s.takeUpDrain i) := by
  unfold State.takeUpDrain
  split
  · exact h
  · exact ask_effect h _ _ _ _

theorem drainTimeout_effect {a s : State} (h : Effect a s) (i : SlotId) : Effect a (s.drainTimeout i) := by
  unfold State.drainTimeout
  split
  · exact fault_effect (finishDrain_effect h i _ _) _ _ _
  · exact h

theorem judgeDrain_effect {a s : State} (h : Effect a s) (i : SlotId) : Effect a (s.judgeDrain i) := by
  unfold State.judgeDrain
  split
  · exact h
  · split
    · split
      · exact ite_effect _ (finishDrain_effect h i _ _) (setWork_effect h i _)
      · exact ite_effect _ (drainTimeout_effect h i) (setWork_effect h i _)
      · exact h
      · exact h
    · exact h

theorem judgeDrains_effect {a s : State} (h : Effect a s) : Effect a s.judgeDrains :=
  Effect.foldl _ (fun _ i h => judgeDrain_effect h i) _ h

theorem drainGranted_effect {a s : State} (h : Effect a s) (i : SlotId) : Effect a (s.drainGranted i) :=
  judgeDrain_effect (setWork_effect h i _) i

end Sys2Proof.Machine
end

