-- ==== Sys2Proof/Laws/Regen.lean ====
section
/-! SUPPORT. What a regeneration's steps do: they are effects, and keep laws 5 and 6. -/

namespace Sys2Proof.Machine

theorem State.regen_setColumn (s : State) (c : Column) (x : ColumnRec) : (s.setColumn c x).soft.regen = s.soft.regen := by
  cases c <;> rfl

theorem State.regen_standbyIn (s : State) (c : Column) : (s.standbyIn c).1.soft.regen = s.soft.regen := by
  unfold State.standbyIn
  split
  · exact State.regen_setColumn s c _
  · rfl

theorem startRegen_effect {a s : State} (h : Effect a s) {g : Regen} (hg : s.soft.regen = some g) :
    Effect a (s.startRegen g) := by
  unfold State.startRegen
  dsimp only
  have h1 := setColumn_effect h g.column
    { s.column g.column with state := .regenerating, remaining := 0, breakthrough := none }
    (fun _ k => by cases k) fun _ _ => Nat.zero_le _
  have h0 : (s.setColumn g.column
      { s.column g.column with state := .regenerating, remaining := 0, breakthrough := none }).soft.regen = some g := by
    rw [State.regen_setColumn]; exact hg
  refine judgeFills_effect (postInService_effect (post_effect (setRegenSame_effect (g := g) ?_ ?_ _ (by rfl)) _ _ _) _ _) _
  · split
    · refine standbyIn_effect h1 _ ?_
      rw [Column.other_other, State.column_setColumn, if_pos rfl]; simp
    · exact h1
  · split
    · exact (State.regen_standbyIn _ _).trans h0
    · exact h0

theorem regenSelectorGranted_effect {a s : State} (h : Effect a s) : Effect a s.regenSelectorGranted := by
  unfold State.regenSelectorGranted
  split
  · rename_i g hg; exact ite_effect _ (startRegen_effect h hg) h
  · exact h

theorem regenSelectorHeld_effect {a s : State} (h : Effect a s) : Effect a s.regenSelectorHeld := by
  unfold State.regenSelectorHeld
  split
  · exact h
  · split
    · exact ask_effect h _ _ _ _
    · exact ask_effect h _ _ _ _
    · exact h
    · exact h

theorem regenBrineGranted_effect {a s : State} (h : Effect a s) : Effect a s.regenBrineGranted := by
  unfold State.regenBrineGranted
  split
  · exact ask_effect h _ _ _ _
  · exact h

theorem regenInletGranted_effect {a s : State} (h : Effect a s) : Effect a s.regenInletGranted := by
  unfold State.regenInletGranted
  split
  · exact h
  · split
    · rename_i g hg _ _; exact setRegenSame_effect h hg _ (by rfl)
    · rename_i g hg _ _; exact setRegenSame_effect h hg _ (by rfl)
    · exact h
    · exact h

theorem answerRegen_effect {a s : State} (h : Effect a s) (g : Regen) (o : OutcomeCode) (fields : List Byte)
    (answer : Bool) : Effect a (s.answerRegen g o fields answer) := by
  unfold State.answerRegen
  split
  · exact endSlot_effect h _ _ _ _
  · exact h

theorem endInStarting_effect {a s : State} (h : Effect a s) (g : Regen) (o : OutcomeCode) (answer : Bool) :
    Effect a (s.endInStarting g o answer) := by
  unfold State.endInStarting
  have h1 := endRegenRecord_effect (withdraw_effect h (regenWho g))
  exact takeHead_effect (answerRegen_effect (ite_effect _ (joinHead_effect h1 _ rfl) h1) _ _ _ _)

theorem recordAborted_effect {a s : State} (h : Effect a s) (g : Regen) (o : OutcomeCode) (recorded : Bool) :
    Effect a (s.recordAborted g o recorded) :=
  ite_effect _ (deductSalt_effect (appendRegenDraw_effect h _ _ _ _ _) _)
    (ite_effect _ (appendRegenDraw_effect h _ _ _ _ _) h)

theorem abortRegen_effect {a s : State} (h : Effect a s) (g : Regen) (o : OutcomeCode) (recorded answer : Bool) :
    Effect a (s.abortRegen g o recorded answer) := by
  unfold State.abortRegen
  dsimp only
  have h1 := recordAborted_effect (withdraw_effect (releaseAll_effect h (regenWho g)) (regenWho g)) g o recorded
  generalize ((s.releaseAll (regenWho g)).withdraw (regenWho g)).recordAborted g o recorded = t at h1
  have h2 := endRegenRecord_effect (setColumn_effect h1 g.column
    { t.column g.column with state := .exhausted, remaining := 0, last := .aborted, breakthrough := none }
    (fun _ k => by cases k) fun _ _ => Nat.zero_le _)
  exact takeHead_effect
    (judgeFills_effect (answerRegen_effect (post_effect (ite_effect _ (joinTail_effect h2 _) h2) _ _ _) _ _ _ _) _)

theorem endRegen_effect {a s : State} (h : Effect a s) (o : OutcomeCode) (answer : Bool) :
    Effect a (s.endRegen o answer) := by
  unfold State.endRegen
  split
  · exact h
  · exact ite_effect _ (endInStarting_effect h _ _ _) (abortRegen_effect h _ _ _ _)

theorem State.regen_deductSalt (s : State) (n : Nat) : (s.deductSalt n).soft.regen = s.soft.regen := by
  unfold State.deductSalt State.saltReported
  dsimp only
  split
  · split <;> rfl
  · rfl

theorem State.soft_appendRegenDraw (s : State) (p : Purpose) (c : Column) (v w : Nat) (o : OutcomeCode) :
    (s.appendRegenDraw p c v w o).soft = s.soft := by cases c <;> rfl

theorem endBrineDraw_effect {a s : State} (h : Effect a s) {g x : Regen} (hg : s.soft.regen = some x)
    (hc : g.column = x.column) : Effect a (s.endBrineDraw g) := by
  unfold State.endBrineDraw
  dsimp only
  have h1 := releaseIf_effect (releaseIf_effect h (regenWho g) .inlet) (regenWho g) .brine
  have hs : ((s.releaseIf (regenWho g) .inlet).releaseIf (regenWho g) .brine).soft.regen = some x := by
    rw [State.soft_releaseIf, State.soft_releaseIf]; exact hg
  generalize (s.releaseIf (regenWho g) .inlet).releaseIf (regenWho g) .brine = t at h1 hs
  have h2 := fun n w o => appendRegenDraw_effect (deductSalt_effect h1 n) .brine g.column g.counted w o
  refine ite_effect _ (abortRegen_effect (h2 _ _ _) _ _ _ _)
    (releaseIf_effect (setRegenSame_effect (h2 _ _ _) ?_ _ (by exact hc)) _ _)
  rw [State.soft_appendRegenDraw, State.regen_deductSalt]; exact hs

theorem endSoak_effect {a s : State} (h : Effect a s) {g : Regen} (hg : s.soft.regen = some g) : Effect a (s.endSoak g) :=
  regenAsks_effect (setRegenSame_effect h hg _ (by rfl)) _

theorem restoredCapacity_le {s : State} (h : s.cfg.weakPercent ≤ 100) (g : Regen) :
    s.restoredCapacity g ≤ s.rated g.column := by
  unfold State.restoredCapacity
  split
  · refine Nat.div_le_of_le_mul ?_
    rw [Nat.mul_comm 100]
    exact Nat.mul_le_mul_left _ h
  · exact Nat.le_refl _

theorem inService_none {s : State} (h : s.inService.isNone = true) (c : Column) : (s.column c).state ≠ .inService := by
  unfold State.inService at h
  cases c with
  | a => intro k; rw [show s.soft.colA.state = .inService from k] at h; simp at h
  | b => intro k; rw [show s.soft.colB.state = .inService from k] at h; split at h <;> simp at h

theorem restoreColumn_effect {a s : State} (h : Effect a s) (g : Regen) : Effect a (s.restoreColumn g) := by
  refine setColumn_effect h _ _ (fun _ k => ?_) fun hw _ => restoredCapacity_le hw g
  dsimp only at k
  split at k
  · rename_i hn; exact inService_none hn _
  · cases k

theorem endRinse_effect {a s : State} (h : Effect a s) (g : Regen) : Effect a (s.endRinse g) := by
  unfold State.endRinse
  dsimp only
  have h1 := fun w => appendRegenDraw_effect (withdraw_effect (releaseIf_effect (releaseIf_effect h (regenWho g) .inlet)
    (regenWho g) .selector) (regenWho g)) .rinse g.column g.counted w .done
  exact takeHead_effect (judgeFills_effect (answerRegen_effect (postInService_effect (post_effect (endRegenRecord_effect
    (restoreColumn_effect (h1 _) g)) _ _ _) _ _) _ _ _ _) _)

theorem regenDecilitre_effect {a s : State} (h : Effect a s) {g : Regen} (hg : s.soft.regen = some g) :
    Effect a (s.regenDecilitre g) := by
  unfold State.regenDecilitre
  dsimp only
  have h0 := setRegenSame_effect h hg { g with
    counted := g.counted + 1, pulses := 0, noFlow := Timer.zero, lastHardness := s.acct.hardness } rfl
  split
  · exact ite_effect _ (endBrineDraw_effect h0 rfl rfl) h0
  · have h1 := raiseTank_effect h0
    exact ite_effect _ (abortRegen_effect h1 _ _ _ _)
      (ite_effect _ (endRinse_effect h1 _) (yieldPath_effect h1 _ _))
  · exact h0
  · exact h0

theorem brineReading_effect {a s : State} (h : Effect a s) : Effect a s.brineReading := by
  unfold State.brineReading
  split
  · rename_i g hg; exact ite_effect _ (setRegenSame_effect h hg _ (by rfl)) h
  · exact h

theorem rinseSuspended_effect {a s : State} (h : Effect a s) : Effect a s.rinseSuspended := by
  unfold State.rinseSuspended
  split
  · exact ite_effect _ (abortRegen_effect h _ _ _ _) h
  · exact h

/-- An entry of the queue replaced by at most one entry of its column: the columns named are among those named before. -/
theorem flatMap_columns (f : QueueEntry → List QueueEntry)
    (hf : ∀ q, f q = [] ∨ ∃ x, f q = [x] ∧ x.column = q.column) (l : List QueueEntry) :
    ((l.flatMap f).map (·.column)).Sublist (l.map (·.column)) := by
  induction l with
  | nil => simp
  | cons q rest ih =>
    rw [List.flatMap_cons, List.map_append, List.map_cons]
    rcases hf q with e | ⟨x, e, hx⟩
    · rw [e]; exact ih.cons _
    · rw [e, List.map_cons, List.map_nil, hx]; exact ih.cons_cons _

theorem unqueue_effect {a s : State} (h : Effect a s) (p : Port) (i : SlotId) : Effect a (s.unqueue p i) := by
  have hs := flatMap_columns (fun q : QueueEntry => if q.requester = some (p, i) then
      if s.cfg.autoRegen && (s.column q.column).state == .exhausted then [⟨q.column, none, s.drive.clock⟩] else []
    else [q]) (fun q => by
      split
      · split
        · exact .inr ⟨_, rfl, rfl⟩
        · exact .inl rfl
      · exact .inr ⟨q, rfl, rfl⟩) s.soft.queue
  refine setQueue_effect h _ (fun k => k.2.1.sublist hs) fun k g hg e he hc => ?_
  have := hs.subset (List.mem_map.mpr ⟨e, he, hc⟩)
  obtain ⟨q, hq, hqc⟩ := List.mem_map.mp this
  exact k.2.2 g hg q hq hqc

theorem endQueued_effect {a s : State} (h : Effect a s) (p : Port) (i : SlotId) (o : OutcomeCode) (answer : Bool) :
    Effect a (s.endQueued p i o answer) := endSlot_effect (unqueue_effect h _ _) _ _ _ _

theorem takeUpRegenerate_effect {a s : State} (h : Effect a s) (i : SlotId) (column : Nat) :
    Effect a (s.takeUpRegenerate i column) := by
  unfold State.takeUpRegenerate
  split
  · exact h
  · split
    · exact refuseSlot_effect h _ _
    · rename_i c _
      split
      · exact refuseSlot_effect h _ _
      · rename_i hn
        simp only [Bool.or_eq_true, not_or, Bool.not_eq_true] at hn
        refine ite_effect _ (refuseSlot_effect h _ _) (ite_effect _ (refuseSlot_effect h _ _) ?_)
        refine takeHead_effect (setQueue_effect h _ (fun k => ?_) fun k g hg e he => ?_)
        · rw [List.map_cons, List.nodup_cons]
          refine ⟨fun hx => ?_, k.2.1.sublist (List.filter_sublist.map _)⟩
          obtain ⟨q, hq, hc⟩ := List.mem_map.mp hx
          have := (List.mem_filter.mp hq).2
          rw [hc] at this; simp at this
        · rcases List.mem_cons.mp he with rfl | he
          · exact (regenOf_false hn.2 g hg).symm
          · exact k.2.2 g hg e (List.mem_filter.mp he).1

theorem cancelRegenerate_effect {a s : State} (h : Effect a s) (p : Port) (i : SlotId) (answer : Bool) :
    Effect a (s.cancelRegenerate p i answer) := by
  unfold State.cancelRegenerate
  refine ite_effect _ (endQueued_effect h _ _ _ _) ?_
  split
  · exact h
  · rename_i g hg
    exact ite_effect _ (ite_effect _ (setRegenSame_effect h hg _ (by rfl)) (endRegen_effect h _ _)) h

end Sys2Proof.Machine
end

