-- ==== Sys2Proof/Laws/Door.lean ====
section
/-! SUPPORT. What the operations of the Door Unit do: they are effects, but for the door state itself. -/

namespace Sys2Proof.Machine

/-- A change of the rod record alone. -/
theorem setRod_effect {a s : State} (h : Effect a s) (r : Rod) : Effect a (s.setRod r) :=
  h.trans (.of_idle rfl rfl rfl rfl rfl rfl rfl rfl)

theorem endDoorSlot_effect {a s : State} (h : Effect a s) (i : SlotId) (o : OutcomeCode) (answer : Bool) :
    Effect a (s.endDoorSlot i o answer) := by
  unfold State.endDoorSlot
  split
  · exact endSlot_effect h _ _ _ _
  · exact h

theorem fixDoor_effect {a s : State} (h : Effect a s) (i : SlotId) (o : OutcomeCode) : Effect a (s.fixDoor i o) := by
  unfold State.fixDoor
  split
  · exact setWork_effect (fixOutcome_effect h _ _) _ _
  · exact h

theorem finishDoor_effect {a s : State} (h : Effect a s) (i : SlotId) (o : OutcomeCode) (answer : Bool) :
    Effect a (s.finishDoor i o answer) := by
  unfold State.finishDoor
  split
  · exact h
  · have h1 := fixDoor_effect h i o
    have h2 := release_effect h1 .doorDrive
    exact ite_effect _ (ite_effect _ h2 (endDoorSlot_effect h2 _ _ _))
      (endDoorSlot_effect (withdraw_effect h1 _) _ _ _)

theorem askDoor_effect {a s : State} (h : Effect a s) (i : SlotId) : Effect a (s.askDoor i) := by
  unfold State.askDoor
  split
  · exact h
  · exact ite_effect _ (setWork_effect h _ _) (ask_effect (setWork_effect h _ _) _ _ _ _)

theorem takeUpDoorPush_effect {a s : State} (h : Effect a s) (i : SlotId) : Effect a (s.takeUpDoorPush i) :=
  ite_effect _ (finishDoor_effect h _ _ _) (ite_effect _ (finishDoor_effect h _ _ _) (askDoor_effect h i))

theorem dryDelayPassed_effect {a s : State} (h : Effect a s) (i : SlotId) : Effect a (s.dryDelayPassed i) :=
  ite_effect _ (finishDoor_effect h _ _ _) (askDoor_effect h i)

theorem dryAjar_effect {a s : State} (h : Effect a s) (i : SlotId) : Effect a (s.dryAjar i) := by
  unfold State.dryAjar
  split
  · exact setWork_effect h _ _
  · exact h

theorem takeUpDry_effect {a s : State} (h : Effect a s) (i : SlotId) : Effect a (s.takeUpDry i) := by
  unfold State.takeUpDry
  split
  · exact h
  · exact ite_effect _ (finishDoor_effect h _ _ _) (ite_effect _ (finishDoor_effect h _ _ _)
      (ite_effect _ (finishDoor_effect h _ _ _) (ite_effect _ (dryAjar_effect h i)
        (ite_effect _ (dryDelayPassed_effect h i) h))))

theorem doorGranted_effect {a s : State} (h : Effect a s) (i : SlotId) : Effect a (s.doorGranted i) := by
  unfold State.doorGranted
  split
  · exact h
  · refine setRod_effect (drive_effect (setWork_effect h i _) _ ?_ ?_) _ <;> rfl

theorem doorFreed_effect {a s : State} (h : Effect a s) (x : Option Holder) : Effect a (s.doorFreed x) := by
  unfold State.doorFreed
  split
  · split
    · exact h
    · split
      · exact endDoorSlot_effect h _ _ _
      · exact endDoorSlot_effect h _ _ _
      · exact ite_effect _ (finishDoor_effect h _ _ _) h
      · exact ite_effect _ (ite_effect _ (finishDoor_effect h _ _ _) (dryAjar_effect h _)) h
      · exact h
  · exact h

theorem endDoorWindDown_effect {a s : State} (h : Effect a s) : Effect a s.endDoorWindDown :=
  ite_effect _ (doorFreed_effect (freeLease_effect h _ fun c => by cases c) _) h

theorem stallWaiters_effect {a s : State} (h : Effect a s) : Effect a s.stallWaiters :=
  Effect.foldl _ (fun s i h => by
    split
    · exact ite_effect _ (finishDoor_effect h _ _ _) h
    · exact h) _ h

theorem pushStalled_effect {a s : State} (h : Effect a s) (cause : StallCause) : Effect a (s.pushStalled cause) := by
  unfold State.pushStalled
  dsimp only
  have h1 := fault_effect (setRod_effect h { s.door.rod with state := .stalled }) .pushStall 0 s.drive.doorRamp.level
  refine stallWaiters_effect (post_effect (release_effect ?_ _) _ _ _)
  split
  · exact finishDoor_effect h1 _ _ _
  · exact h1

theorem askHeldBack_effect {a s : State} (h : Effect a s) : Effect a s.askHeldBack :=
  Effect.foldl _ (fun s i h => by
    split
    · exact ite_effect _ (askDoor_effect h _) h
    · exact h) _ h

theorem retractEnded_effect {a s : State} (h : Effect a s) : Effect a s.retractEnded :=
  ite_effect _ (endDoorWindDown_effect (setRod_effect h _)) (askHeldBack_effect (setRod_effect h _))

theorem stallHolder_effect {a s : State} (h : Effect a s) : Effect a s.stallHolder := by
  unfold State.stallHolder
  split
  · split
    · exact ite_effect _ (fixDoor_effect h _ _) h
    · exact h
  · exact h

theorem retractTimedOut_effect {a s : State} (h : Effect a s) : Effect a s.retractTimedOut := by
  unfold State.retractTimedOut
  have h1 := setRod_effect h { s.door.rod with state := .stalled, retract := none }
  have h2 := fun p : Prop => fun [Decidable p] => ite_effect p (endDoorWindDown_effect (stallHolder_effect h1)) h1
  have h3 := fault_effect (h2 ((s.door.rod.retract.map (·.1)) = some .lease)) .retractTimeout 0
    (retractCode (s.door.rod.retract.map (·.1)))
  exact stallWaiters_effect (ite_effect _ h3 (post_effect h3 _ _ _))

theorem restartNoFlow_effect {a s : State} (h : Effect a s) : Effect a s.restartNoFlow := by
  unfold State.restartNoFlow
  split
  · split
    · exact setWork_effect h _ _
    · exact h
  · split
    · rename_i g hg; exact ite_effect _ (setRegenSame_effect h hg _ (by rfl)) h
    · exact h

theorem seeOpen_effect {a s : State} (h : Effect a s) (i : SlotId) : Effect a (s.seeOpen i) := by
  unfold State.seeOpen
  split
  · split <;> first | exact setWork_effect h _ _ | exact h
  · exact h

theorem doorOpsOpened_effect {a s : State} (h : Effect a s) : Effect a s.doorOpsOpened :=
  Effect.foldl _ (fun s i h => by
    have h1 := seeOpen_effect h i
    dsimp only
    split
    · exact h1
    · split
      · exact finishDoor_effect h1 _ _ _
      · exact dryAjar_effect (withdraw_effect h1 _) _
      · exact dryAjar_effect h1 _
      · exact h1) _ h

theorem doorOpsClosed_effect {a s : State} (h : Effect a s) : Effect a s.doorOpsClosed :=
  Effect.foldl _ (fun s i h => by
    split
    · exact ite_effect _ (finishDoor_effect h _ _ _) h
    · exact h) _ h

/-- Every door-guarded lease suspended. -/
theorem suspendGuarded_effect {a s : State} (h : Effect a s) : Effect a (guardedResources.foldl State.suspend s) := by
  unfold guardedResources
  simp only [List.foldl_cons, List.foldl_nil]
  exact suspend_effect (suspend_effect (suspend_effect (suspend_effect (suspend_effect (suspend_effect h rfl) rfl) rfl) rfl)
    rfl) rfl

/-- An opening is an effect on the state in which the door is OPEN. -/
theorem openDoor_effect (s : State) : Effect (s.setDoor false) s.openDoor := by
  unfold State.openDoor
  dsimp only
  have h1 := suspendGuarded_effect (Effect.refl (s.setDoor false))
  exact post_effect (doorOpsOpened_effect (rinseSuspended_effect (Effect.foldl _ (fun _ c h => channelDoorOpened_effect h c) _
    (ite_effect _ (endCircWindDown_effect h1) h1)))) _ _ _

/-- A closing is an effect on the state in which the door is CLOSED. -/
theorem closeDoor_effect (s : State) : Effect (s.setDoor true) s.closeDoor := by
  unfold State.closeDoor
  dsimp only
  have h0 : (s.setDoor true).doorClosed = true := rfl
  have r : ∀ {t : State} (_ : Effect (s.setDoor true) t) {q : Resource} (_ : q ≠ .heater ∧ q ≠ .selector),
      Effect (s.setDoor true) (t.restore q) := fun h _ hq => restore_effect h (h.doorClosed.trans h0) hq.1 hq.2
  simp only [List.foldl_cons, List.foldl_nil]
  have h1 := r (r (r (r (r (Effect.refl _) (q := .inlet) (by decide)) (q := .circ) (by decide)) (q := .dose 0) (by decide))
    (q := .dose 1) (by decide)) (q := .dose 2) (by decide)
  exact post_effect (doorOpsClosed_effect (Effect.foldl _ (fun _ c h => channelDoorClosed_effect h c) _
    (restartNoFlow_effect h1))) _ _ _

end Sys2Proof.Machine
end

