-- ==== Sys2Proof/Laws/Arbiter.lean ====
section
/-! SUPPORT. What the grants and `settle` do, said once: `Settled s t`. They change what an effect changes and the record of
the interlock, and they make new holders only as the rules of 1.4 and 1.5 allow, so the laws of the resource table stand. -/

namespace Sys2Proof.Machine

/-- What a settled command does: as an effect, but for new holders and the interlock record. -/
structure Settled (s t : State) : Prop where
  fixed : t.fixed = s.fixed
  pool : PoolStep s t
  ports : ∀ p, PortStep s t p
  books : s.booksSafe → t.booksSafe
  tables : s.tableSafe → t.tableSafe

/-! ### Effects keep the laws of the table -/

theorem State.latched_congr {s t : State} (h : t.fixed = s.fixed) : t.latched = s.latched := by
  have h1 := congrArg Fixed.flood h
  have h2 := congrArg Fixed.overfill h
  have h3 := congrArg Fixed.overtemp h
  simp only [State.fixed] at h1 h2 h3
  simp only [State.latched, h1, h2, h3]

theorem State.doorClosed_congr {s t : State} (h : t.fixed = s.fixed) : t.doorClosed = s.doorClosed := by
  have := congrArg Fixed.doorFilter h
  simp only [State.fixed] at this
  simp [State.doorClosed, this]

theorem State.cfg_congr {s t : State} (h : t.fixed = s.fixed) : t.cfg = s.cfg := congrArg Fixed.cfg h

theorem State.hasHolder_iff (s : State) (r : Resource) : s.hasHolder r = true ↔ (s.entry r).lease ≠ .free := by
  simp [State.hasHolder]

theorem State.hasHolder_false (s : State) (r : Resource) : s.hasHolder r = false ↔ (s.entry r).lease = .free := by
  simp [State.hasHolder]

/-- An effect makes no new holder. -/
theorem Effect.noHolder {s t : State} (h : Effect s t) {r : Resource} (k : s.hasHolder r = false) : t.hasHolder r = false := by
  rw [State.hasHolder_false] at *
  by_contra c
  exact (h.table r).holder c k

theorem Effect.hasHolder {s t : State} (h : Effect s t) {r : Resource} (k : t.hasHolder r = true) : s.hasHolder r = true := by
  rw [State.hasHolder_iff] at *
  exact (h.table r).holder k

theorem Effect.tables {s t : State} (h : Effect s t) (k : s.tableSafe) : t.tableSafe where
  legal r := (h.table r).legal (k.legal r)
  path := h.path k.path
  apart x := h.noHolder (k.apart (h.hasHolder x))
  alone x r hr := h.noHolder (k.alone (h.hasHolder x) r hr)
  withdrawn x r hr := h.noHolder (k.withdrawn (State.latched_congr h.fixed ▸ x) r hr)
  shut r hr x := by
    rw [h.doorClosed]
    exact ((h.table r).held hr x).elim (k.shut r hr) id

theorem Effect.settled {s t : State} (h : Effect s t) : Settled s t := ⟨h.fixed, h.pool, h.ports, h.books, h.tables⟩

theorem Settled.refl (s : State) : Settled s s := (Effect.refl s).settled

theorem Settled.trans {s t u : State} (h : Settled s t) (k : Settled t u) : Settled s u where
  fixed := k.fixed.trans h.fixed
  pool := h.pool.trans k.pool
  ports p := (h.ports p).trans h.pool k.pool (k.ports p)
  books x := k.books (h.books x)
  tables x := k.tables (h.tables x)

theorem Settled.effect {s t u : State} (h : Settled s t) (k : Effect t u) : Settled s u := h.trans k.settled

/-- A settled command that is an effect on the pool, the ports and the books, and replaces one entry. -/
theorem Settled.foldl {α : Type} {a : State} (f : State → α → State) (hf : ∀ s x, Settled a s → Settled a (f s x))
    (l : List α) {s : State} (h : Settled a s) : Settled a (l.foldl f s) := by
  induction l generalizing s with
  | nil => exact h
  | cons x rest ih => exact ih (hf s x h)

theorem ite_settled {a s t : State} (p : Prop) [Decidable p] (h : Settled a s) (k : Settled a t) :
    Settled a (if p then s else t) := by
  split
  · exact h
  · exact k

/-! ### The choice of a grant -/

/-- The first of two waiters is one of them. -/
theorem rrFirst_mem (pos : Option Ident) (v w : Waiter) : rrFirst pos v w = v ∨ rrFirst pos v w = w := by
  unfold rrFirst; dsimp only; split
  · exact .inr rfl
  · exact .inl rfl

theorem foldl_rrFirst_mem (pos : Option Ident) (l : List Waiter) (w : Waiter) : l.foldl (rrFirst pos) w ∈ w :: l := by
  induction l generalizing w with
  | nil => simp
  | cons x rest ih =>
    rw [List.foldl_cons]
    rcases rrFirst_mem pos w x with h | h <;> rw [h]
    · have := ih w; simp at this ⊢; tauto
    · have := ih x; simp at this ⊢; tauto

theorem pickWaiter_mem {pos : Option Ident} {l : List Waiter} {w : Waiter} (h : pickWaiter pos l = some w) : w ∈ l := by
  cases l with
  | nil => cases h
  | cons x rest => cases h; exact foldl_rrFirst_mem pos rest x

/-- The waiter that is granted: the resource is FREE, and the waiter stands in its list and is eligible (R10). -/
theorem chosenWaiter_spec {s : State} {r : Resource} {w : Waiter} (h : s.chosenWaiter r = some w) :
    (s.entry r).lease = .free ∧ w ∈ (s.entry r).waiters ∧ s.eligible r w = true := by
  unfold State.chosenWaiter at h
  dsimp only at h
  split at h
  · cases h
  · rename_i hl
    have hl : (s.entry r).lease = .free := by simpa using hl
    split at h
    · have := List.mem_filter.mp (pickWaiter_mem h)
      exact ⟨hl, this.1, this.2⟩
    · have := List.mem_filter.mp (List.mem_filter.mp (pickWaiter_mem h)).1
      exact ⟨hl, this.1, this.2⟩

/-! ### A grant -/

/-- The lease state a grant gives: SELECTOR HELD at its position or MOVING, HEATER SUSPENDED until it is judged, any other
HELD (R10, R23, R45). -/
def grantedLease (s : State) (r : Resource) (w : Waiter) : LeaseState :=
  match r with
  | .selector => if s.arb.selCurrent = some (w.want.getD .a) then .held else .moving
  | .heater => .suspended
  | .brine => .held | .inlet => .held | .circ => .held | .drain => .held | .dose _ => .held | .doorDrive => .held

theorem reportSwitching_rest (s t : State) :
    (reportSwitching s t).arb = t.arb ∧ (reportSwitching s t).pool = t.pool ∧ (reportSwitching s t).ports = t.ports ∧
      (reportSwitching s t).fixed = t.fixed ∧ (reportSwitching s t).soft = t.soft ∧ (reportSwitching s t).acct = t.acct ∧
      (reportSwitching s t).dose = t.dose ∧ (reportSwitching s t).water = t.water ∧ (reportSwitching s t).door = t.door ∧
      (reportSwitching s t).drive = t.drive ∧ (reportSwitching s t).prot = t.prot := by
  unfold reportSwitching; split <;> exact ⟨rfl, rfl, rfl, rfl, rfl, rfl, rfl, rfl, rfl, rfl, rfl⟩

/-- An entry of the table after one was edited: its function's value with the yield flag judged (R18). -/
theorem State.entry_editEntry (s : State) (r q : Resource) (f : Entry → Entry) :
    (s.editEntry r f).entry q = if q = r then
      { f (s.entry r) with yieldRequested := yieldCondition s.cfg s.drive.clock (f (s.entry r)) } else s.entry q := by
  unfold State.editEntry
  dsimp only
  rw [State.entry_congr (congrArg Arbiter.table (reportSwitching_rest s _).1), State.entry_putEntry]

/-- Editing one entry leaves everything but the table and the drive unit's report. -/
theorem editEntry_rest (s : State) (r : Resource) (f : Entry → Entry) :
    (s.editEntry r f).fixed = s.fixed ∧ (s.editEntry r f).pool = s.pool ∧ (s.editEntry r f).ports = s.ports ∧
      (s.editEntry r f).soft = s.soft ∧ (s.editEntry r f).acct = s.acct ∧ (s.editEntry r f).dose = s.dose ∧
      (s.editEntry r f).water = s.water := by
  unfold State.editEntry
  dsimp only
  obtain ⟨_, k2, k3, k4, k5, k6, k7, k8, _⟩ := reportSwitching_rest s (s.putEntry r
    { f (s.entry r) with yieldRequested := yieldCondition s.cfg s.drive.clock (f (s.entry r)) })
  exact ⟨k4, k2, k3, k5, k6, k7, k8⟩

/-- What a grant makes of the entries: the granted one has the waiter as holder, the others stand. -/
theorem entry_grantLease (s : State) (r q : Resource) (w : Waiter) :
    ((s.grantLease r w).entry q).lease = (if q = r then grantedLease s r w else (s.entry q).lease) ∧
      ((s.grantLease r w).entry q).holder = (if q = r then some w.who else (s.entry q).holder) := by
  have key : ∀ (t : State) (l : LeaseState), t.arb.table = s.arb.table →
      ((t.editEntry r (Entry.granted t.cfg t.drive.clock (t.waiterPort w.who) w l)).entry q).lease = (if q = r then l else (s.entry q).lease) ∧
      ((t.editEntry r (Entry.granted t.cfg t.drive.clock (t.waiterPort w.who) w l)).entry q).holder =
        (if q = r then some w.who else (s.entry q).holder) := fun t l ht => by
    rw [State.entry_editEntry]
    split
    · unfold Entry.granted; dsimp only; split <;> exact ⟨rfl, rfl⟩
    · rw [State.entry_congr ht]; exact ⟨rfl, rfl⟩
  cases r with
  | selector =>
    unfold State.grantLease grantedLease
    dsimp only
    split
    · exact key _ .held rfl
    · exact key _ .moving rfl
  | heater => exact key s .suspended rfl
  | _ => exact key s .held rfl

/-- A grant leaves what an effect leaves. -/
theorem grantLease_rest (s : State) (r : Resource) (w : Waiter) :
    (s.grantLease r w).fixed = s.fixed ∧ (s.grantLease r w).pool = s.pool ∧ (s.grantLease r w).ports = s.ports ∧
      (s.grantLease r w).soft = s.soft ∧ (s.grantLease r w).acct = s.acct ∧ (s.grantLease r w).dose = s.dose ∧
      (s.grantLease r w).water = s.water := by
  have key : ∀ (t : State) (f : Entry → Entry), t.fixed = s.fixed → t.pool = s.pool → t.ports = s.ports → t.soft = s.soft →
      t.acct = s.acct → t.dose = s.dose → t.water = s.water →
      (t.editEntry r f).fixed = s.fixed ∧ (t.editEntry r f).pool = s.pool ∧ (t.editEntry r f).ports = s.ports ∧
      (t.editEntry r f).soft = s.soft ∧ (t.editEntry r f).acct = s.acct ∧ (t.editEntry r f).dose = s.dose ∧
      (t.editEntry r f).water = s.water := fun t f h1 h2 h3 h4 h5 h6 h7 => by
    obtain ⟨k1, k2, k3, k4, k5, k6, k7⟩ := editEntry_rest t r f
    exact ⟨k1.trans h1, k2.trans h2, k3.trans h3, k4.trans h4, k5.trans h5, k6.trans h6, k7.trans h7⟩
  cases r with
  | selector =>
    unfold State.grantLease
    dsimp only
    split <;> exact key _ _ rfl rfl rfl rfl rfl rfl rfl
  | _ => exact key s _ rfl rfl rfl rfl rfl rfl rfl

/-- What eligibility says of the table (R12 to R15). -/
theorem eligible_spec {s : State} {r : Resource} {w : Waiter} (h : s.eligible r w = true) :
    (r.guarded = true → s.doorClosed = true ∧ s.hasHolder .doorDrive = false) ∧
      (r.inTripSet = true → s.latched = false) ∧ (r = .inlet → s.hasHolder .drain = false ∧ s.holdsHeld w.who .selector = true) ∧
      (r = .drain → s.hasHolder .inlet = false) ∧ (r = .doorDrive → s.guardedHeld = false ∧ s.door.rod.state ≠ .stalled) := by
  simp only [State.eligible, State.eligibleBase, Bool.and_eq_true] at h
  obtain ⟨⟨⟨h1, h2⟩, h3⟩, -⟩ := h
  refine ⟨fun g => ?_, fun g => ?_, fun g => ?_, fun g => ?_, fun g => ?_⟩
  · rw [g] at h1; simpa [and_assoc] using (by simpa using h1 : (s.doorClosed = true ∧ s.hasHolder .doorDrive = false) ∧ _).1
  · rw [g] at h2; simpa using h2
  · subst g; simpa using h3
  · subst g; simpa using h3
  · subst g; simpa using h3

/-- No guarded resource has a holder (R15). -/
theorem guardedHeld_false {s : State} (h : s.guardedHeld = false) {r : Resource} (hr : r.guarded = true) :
    s.hasHolder r = false := by
  simp only [State.guardedHeld, guardedResources, List.any_cons, List.any_nil, Bool.or_eq_false_iff] at h
  obtain ⟨h1, h2, h3, h4, h5, h6, -⟩ := h
  cases r with
  | dose n =>
    fin_cases n
    · exact h4
    · exact h5
    · exact h6
  | inlet => exact h1
  | circ => exact h2
  | heater => exact h3
  | _ => cases hr

theorem Resource.guarded_ne {r q : Resource} (hr : r.guarded = true) (hq : q.guarded = false) : r ≠ q := by
  rintro rfl; rw [hr] at hq; cases hq

/-- A grant to the waiter of R10 keeps the laws of the table. -/
theorem grantLease_tables {s : State} (k : s.tableSafe) {r : Resource} {w : Waiter} (h : s.chosenWaiter r = some w) :
    (s.grantLease r w).tableSafe := by
  obtain ⟨hf, -, he⟩ := chosenWaiter_spec h
  obtain ⟨e1, e2, e3, e4, e5⟩ := eligible_spec he
  have hl := fun q => (entry_grantLease s r q w).1
  have hh := fun q => (entry_grantLease s r q w).2
  have hx := (grantLease_rest s r w).1
  have hne : grantedLease s r w ≠ .free := by
    unfold grantedLease
    split <;> first | (split <;> simp) | simp
  -- a resource has a holder after the grant if it had one, or is the one granted
  have hold : ∀ q, (s.grantLease r w).hasHolder q = true ↔ q = r ∨ s.hasHolder q = true := fun q => by
    rw [State.hasHolder_iff, State.hasHolder_iff, hl]
    by_cases c : q = r
    · simp [c, hne]
    · simp [c]
  have nohold : ∀ q, q ≠ r → s.hasHolder q = false → (s.grantLease r w).hasHolder q = false := fun q c x => by
    rw [State.hasHolder_false] at *
    rw [hl, if_neg c]; exact x
  refine ⟨fun q => ?_, fun x => ?_, fun x => ?_, fun x q hq => ?_, fun x q hq => ?_, fun q hq x => ?_⟩
  · unfold EntryOk
    rw [hl, hh]
    by_cases c : q = r
    · subst c
      refine ⟨by simp [hne], ?_⟩
      rw [if_pos rfl]
      unfold grantedLease
      split <;> first | (split <;> rfl) | rfl
    · rw [if_neg c, if_neg c]; exact k.legal q
  · have hx : (s.grantLease r w).hasHolder .inlet = true := (State.hasHolder_iff _ _).mpr x
    rw [hl, hh, hh]
    by_cases c : r = .selector
    · subst c
      rcases (hold _).mp hx with c | c
      · cases c
      · exact absurd hf (by rw [(k.path ((State.hasHolder_iff _ _).mp c)).1]; decide)
    · rw [if_neg (Ne.symm c), if_neg (Ne.symm c)]
      by_cases d : r = .inlet
      · subst d
        rw [if_pos rfl]
        have := (e3 rfl).2
        simpa [State.holdsHeld] using this
      · rw [if_neg (Ne.symm d)]
        rcases (hold _).mp hx with c' | c'
        · exact absurd c'.symm d
        · exact k.path ((State.hasHolder_iff _ _).mp c')
  · rcases (hold _).mp x with c | c
    · exact nohold _ (by rw [← c]; decide) (e3 c.symm).1
    · refine nohold _ (fun d => ?_) (k.apart c)
      have := e4 d.symm
      rw [c] at this; cases this
  · rcases (hold _).mp x with c | c
    · exact nohold q (c ▸ Resource.guarded_ne hq rfl) (guardedHeld_false (e5 c.symm).1 hq)
    · refine nohold q (fun d => ?_) (k.alone c q hq)
      have := (e1 (d ▸ hq)).2
      rw [c] at this; cases this
  · have x' : s.latched = true := State.latched_congr hx ▸ x
    refine nohold q (fun d => ?_) (k.withdrawn x' q hq)
    have := e2 (d ▸ hq)
    rw [x'] at this; cases this
  · rw [State.doorClosed_congr hx]
    rw [hl] at x
    split at x
    · rename_i c; exact (e1 (c ▸ hq)).1
    · exact k.shut q hq x

theorem grantLease_settled (s : State) {r : Resource} {w : Waiter} (h : s.chosenWaiter r = some w) :
    Settled s (s.grantLease r w) := by
  obtain ⟨h1, h2, h3, h4, h5, h6, -⟩ := grantLease_rest s r w
  exact ⟨h1, .of_eq h2, PortStep.of_eq h3, fun b => b.congr (State.cfg_congr h1) h4 h5 h6,
    fun k => grantLease_tables k h⟩

/-! ### The interlock -/

/-- The four conditions are read through CIRC, the points, the door and the probe alone (R45). -/
theorem interlockMet_congr {s t : State} (h : t.fixed = s.fixed)
    (hc : (t.entry .circ).lease = (s.entry .circ).lease) : t.interlockMet = s.interlockMet := by
  have hp : t.sense.points = s.sense.points := congrArg Fixed.points h
  have hv : t.water.probeValid = s.water.probeValid := congrArg Fixed.probeValid h
  have hr : t.roleHolder .tankMin = s.roleHolder .tankMin := by simp only [State.roleHolder, hp]
  have hw : t.waterPresent = s.waterPresent := by simp only [State.waterPresent, hr, hp]
  simp only [State.interlockMet, State.interlockConditions, hc, hw, hv, State.doorClosed_congr h]

theorem interlockMet_door {s : State} (h : s.interlockMet = true) : s.doorClosed = true := by
  simp only [State.interlockMet, State.interlockConditions, List.all_cons, Bool.and_eq_true, id] at h
  exact h.2.2.1

/-- A suspended guarded lease returned to HELD while the door is CLOSED: settled, with the table's laws. -/
theorem editHeld_settled (s : State) (r : Resource) (hl : (s.entry r).lease = .suspended) (h : s.doorClosed = true) :
    Settled s (s.editEntry r fun e => { e with lease := .held }) := by
  obtain ⟨k1, k2, k3, k4, k5, k6, -⟩ := editEntry_rest s r fun e => { e with lease := .held }
  have ht := fun q => State.entry_editEntry s r q fun e => { e with lease := .held }
  generalize (s.editEntry r fun e => { e with lease := .held }) = t at *
  have hlt : ∀ q, (t.entry q).lease = if q = r then .held else (s.entry q).lease := fun q => by
    rw [ht]; split <;> rfl
  have hht : ∀ q, (t.entry q).holder = (s.entry q).holder := fun q => by
    rw [ht]; split
    · rename_i c; rw [c]
    · rfl
  have hold : ∀ q, t.hasHolder q = s.hasHolder q := fun q => by
    unfold State.hasHolder
    rw [hlt]
    split
    · rename_i c; rw [c, hl]; rfl
    · rfl
  have hd : t.doorClosed = s.doorClosed := State.doorClosed_congr k1
  refine ⟨k1, .of_eq k2, PortStep.of_eq k3, fun b => b.congr (State.cfg_congr k1) k4 k5 k6, fun k => ⟨fun q => ?_,
    fun x => ?_, fun x => ?_, fun x q hq => ?_, fun x q hq => ?_, fun q hq x => ?_⟩⟩
  · have := k.legal q
    unfold EntryOk at this ⊢
    rw [hlt, hht]
    split
    · rename_i c
      rw [c, hl] at this
      rw [c]
      exact ⟨⟨fun y => (by cases y), fun y => absurd (this.1.mpr y) (by simp)⟩, rfl⟩
    · exact this
  · have hi : (s.entry .inlet).lease ≠ .free := by
      rw [← State.hasHolder_iff, ← hold, State.hasHolder_iff]; exact x
    obtain ⟨k1, k2⟩ := k.path hi
    rw [hlt, hht, hht]
    refine ⟨?_, k2⟩
    split
    · rfl
    · exact k1
  · rw [hold] at *; exact k.apart x
  · rw [hold] at *; exact k.alone x q hq
  · rw [hold] at *; exact k.withdrawn (State.latched_congr k1 ▸ x) q hq
  · rw [hd, h]

/-- HEATER returned to HELD while the interlock is met: settled, with the table's laws. -/
theorem restoreHeater_settled (s : State) (h : s.doorClosed = true) : Settled s (s.restore .heater) := by
  unfold State.restore
  split
  · rename_i hl
    exact editHeld_settled s .heater (by simpa using hl) h
  · exact .refl s

/-- A change of the interlock record alone. -/
theorem interlock_settled (s : State) (b : Bool) : Settled s ({ s with water := { s.water with interlock := b } } : State) :=
  ⟨rfl, .of_eq rfl, PortStep.of_eq rfl, fun k => k.congr rfl rfl rfl rfl, fun k => 
    ⟨k.legal, k.path, k.apart, k.alone, k.withdrawn, k.shut⟩⟩

theorem settleInterlock_settled (s : State) : Settled s s.settleInterlock := by
  unfold State.settleInterlock
  dsimp only
  split
  · exact .refl s
  · have h1 := interlock_settled s s.interlockMet
    split
    · rename_i hd
      exact ite_settled _ (h1.trans (restoreHeater_settled _ hd)) (h1.effect (suspend_effect (.refl _) rfl))
    · exact h1

/-! ### The owners and the sequence -/

theorem heatGranted_settled {a s : State} (h : Settled a s) (i : SlotId) : Settled a (s.heatGranted i) := by
  unfold State.heatGranted
  split
  · exact h
  · rename_i sl w _
    have hx : Settled a (if w.granted = true then s else s.setWork i (.heat { w with granted := true, passed := Timer.zero })) :=
      ite_settled _ h (h.effect (setWork_effect (.refl s) i _))
    dsimp only
    generalize (if w.granted = true then s else s.setWork i (.heat { w with granted := true, passed := Timer.zero })) = x at hx ⊢
    refine ite_settled _ (hx.effect (finishHeat_effect (.refl _) _ _ _)) ?_
    split
    · rename_i hm; exact hx.trans (restoreHeater_settled x (interlockMet_door hm))
    · exact hx

theorem selectorHeld_effect {a s : State} (h : Effect a s) (x : Holder) : Effect a (s.selectorHeld x) := by
  unfold State.selectorHeld
  refine ite_effect _ (regenSelectorHeld_effect h) ?_
  split
  · exact fillSelectorHeld_effect h _
  · exact h

theorem selectorGranted_effect {a s : State} (h : Effect a s) (x : Holder) : Effect a (s.selectorGranted x) := by
  have h1 := ite_effect (s.isRegen x = true) (regenSelectorGranted_effect h) h
  exact ite_effect _ (selectorHeld_effect h1 x) h1

theorem slotGranted_effect {a s : State} (h : Effect a s) (x : Holder) (f : State → SlotId → State)
    (hf : ∀ i, Effect a (f s i)) : Effect a (s.slotGranted x f) := by
  unfold State.slotGranted
  split
  · exact hf _
  · exact h

/-- What the owners do with a grant of any resource but HEATER is an effect. -/
theorem ownerGranted_effect {a s : State} (h : Effect a s) {r : Resource} (hr : r ≠ .heater) (x : Holder) :
    Effect a (s.ownerGranted r x) := by
  cases r with
  | selector => exact selectorGranted_effect h x
  | brine => exact regenBrineGranted_effect h
  | inlet => exact ite_effect _ (regenInletGranted_effect h) (slotGranted_effect h x _ fun i => fillInletGranted_effect h i)
  | circ => exact slotGranted_effect h x _ fun i => circGranted_effect h i
  | heater => exact absurd rfl hr
  | drain => exact slotGranted_effect h x _ fun i => drainGranted_effect h i
  | doorDrive => exact slotGranted_effect h x _ fun i => doorGranted_effect h i
  | dose n =>
    unfold State.ownerGranted
    dsimp only
    split
    · exact channelGranted_effect h _
    all_goals exact h

theorem ownerGranted_settled {a s : State} (h : Settled a s) (r : Resource) (x : Holder) :
    Settled a (s.ownerGranted r x) := by
  by_cases hr : r = .heater
  · subst hr
    show Settled a (s.slotGranted x State.heatGranted)
    unfold State.slotGranted
    split
    · exact heatGranted_settled h _
    · exact h
  · exact h.effect (ownerGranted_effect (.refl s) hr x)

theorem grant_settled (s : State) (r : Resource) : Settled s (s.grant r) := by
  unfold State.grant
  split
  · rename_i w hw
    exact ownerGranted_settled (grantLease_settled s hw) r _
  · exact .refl s

/-- The counter of the free choices is no part of the books, the table, the pool or the ports. -/
theorem choose_settled (s : State) : Settled s s.choose.2 := 
  (Effect.of_idle rfl rfl rfl rfl rfl rfl rfl rfl : Effect s s.choose.2).settled

theorem grantNext_settled {s t : State} (h : s.grantNext = some t) : Settled s t := by
  unfold State.grantNext at h
  split at h
  · cases h
  · split at h
    · cases h; exact (choose_settled s).trans (grant_settled _ _)
    · cases h; exact grant_settled _ _

/-- The channel that yields is DOSING and between two strokes (R109). -/
theorem doseYielder_spec {s : State} {c : ChannelId} (h : s.doseYielder = some c) :
    (s.channel c).state = .dosing ∧ (s.channel c).step ≠ .stroke := by
  have := List.find?_some h
  simp only [Bool.and_eq_true, Bool.or_eq_true, beq_iff_eq] at this
  obtain ⟨⟨⟨⟨h1, h2⟩, -⟩, -⟩, -⟩ := this
  exact ⟨h1, by rcases h2 with h2 | h2 <;> rw [h2] <;> decide⟩

theorem yieldNext_effect {s t : State} (h : s.yieldNext = some t) : Effect s t := by
  unfold State.yieldNext at h
  split at h
  · cases h; exact yieldHeat_effect (.refl s) _
  · obtain ⟨c, hc, rfl⟩ := Option.map_eq_some_iff.mp h
    obtain ⟨h1, h2⟩ := doseYielder_spec hc
    exact yieldChannel_effect (.refl s) c (by rw [h1]; decide) h2

/-- The marks of the door priority: the waiters of DOOR_DRIVE alone change. -/
theorem markBarred_effect {a s : State} (h : Effect a s) : Effect a s.markBarred :=
  ite_effect _ (putEntry_effect h _ _ (.of_same rfl rfl) (.of_ne (by decide))) h

theorem judge_settled (s : State) : Settled s s.judge := (settleInterlock_settled s).effect (markBarred_effect (.refl _))

theorem settleFor_settled (n : Nat) {a s : State} (h : Settled a s) : Settled a (s.settleFor n) := by
  induction n generalizing s with
  | zero => exact h.trans (judge_settled s)
  | succ n ih =>
    unfold State.settleFor
    dsimp only
    have h1 := h.trans (judge_settled s)
    split
    · rename_i hy; exact ih (h1.effect (yieldNext_effect hy))
    · split
      · rename_i hg; exact ih (h1.trans (grantNext_settled hg))
      · exact h1

theorem settle_settled {a s : State} (h : Settled a s) : Settled a s.settle := settleFor_settled 128 h

theorem Effect.settle {a s : State} (h : Effect a s) : Settled a s.settle := settle_settled h.settled

end Sys2Proof.Machine
end

