-- ==== Sys2Proof/Laws/Settle.lean ====
section
/-! SUPPORT. `settle` where it has nothing to do, where it makes one grant, and what it always leaves: the law of the heater
(law 3). -/

namespace Sys2Proof.Machine

/-! ### Nothing to settle -/

theorem State.calm_vacant {s : State} (h : s.vacant) : s.calm := fun r => (h r).2

theorem State.calm.noHeatYield {s : State} (h : s.calm) : s.heatYielder = none := by
  simp [State.heatYielder, (h .heater).2]

theorem State.calm.noDoseYield {s : State} (h : s.calm) : s.doseYielder = none := by
  refine List.find?_eq_none.mpr fun c _ => ?_
  simp [(h (s.channelPump (s.channel c))).2]

theorem State.calm.noYield {s : State} (h : s.calm) : s.yieldNext = none := by
  simp [State.yieldNext, h.noHeatYield, h.noDoseYield]

/-- Nobody is chosen where nobody waits. -/
theorem chosenWaiter_noWaiters {s : State} {r : Resource} (h : (s.entry r).waiters = []) : s.chosenWaiter r = none := by
  unfold State.chosenWaiter
  dsimp only
  split
  · rfl
  · simp [h, pickWaiter]

theorem State.calm.noGrant {s : State} (h : s.calm) : s.grantNext = none := by
  have : s.grantable = [] := List.filter_eq_nil_iff.mpr fun r _ => by simp [chosenWaiter_noWaiters (h r).1]
  unfold State.grantNext
  rw [this]

theorem settleInterlock_same {s : State} (h : s.water.interlock = s.interlockMet) : s.settleInterlock = s := by
  unfold State.settleInterlock
  simp [h]

/-- Nobody is marked where nobody waits for DOOR_DRIVE, or no guarded resource has a holder. -/
theorem markBarred_same {s : State} (h : (s.entry .doorDrive).waiters = [] ∨ s.guardedHeld = false) : s.markBarred = s := by
  unfold State.markBarred
  rcases h with h | h <;> simp [h]

theorem judge_same {s : State} (h : s.water.interlock = s.interlockMet)
    (hd : (s.entry .doorDrive).waiters = [] ∨ s.guardedHeld = false) : s.judge = s := by
  unfold State.judge
  rw [settleInterlock_same h, markBarred_same hd]

theorem State.atRest.judge {s : State} (h : s.atRest) : s.judge = s := judge_same h.2 (.inl (h.1 .doorDrive).1)

/-- At rest, `settle` does nothing, whatever its fuel. -/
theorem State.atRest.settleFor {s : State} (h : s.atRest) (n : Nat) : s.settleFor n = s := by
  cases n with
  | zero => exact h.judge
  | succ n =>
    unfold State.settleFor
    simp [h.judge, h.1.noYield, h.1.noGrant]

theorem State.atRest.settle {s : State} (h : s.atRest) : s.settle = s := h.settleFor 128

/-! ### One grant -/

/-- Where the waiters of one resource alone can be granted, and nobody is asked to yield, `settle` makes that grant and goes
on. -/
theorem settleFor_one {s : State} {r : Resource} (n : Nat) (hi : s.water.interlock = s.interlockMet)
    (hy : ∀ q, (s.entry q).yieldRequested = false) (hr : r ∈ allResources) (hw : (s.chosenWaiter r).isSome)
    (ho : ∀ q, q ≠ r → (s.entry q).waiters = []) : s.settleFor (n + 1) = (s.grant r).settleFor n := by
  have hh : s.heatYielder = none := by simp [State.heatYielder, hy]
  have hd : s.doseYielder = none := List.find?_eq_none.mpr fun c _ => by simp [hy]
  have hyn : s.yieldNext = none := by simp [State.yieldNext, hh, hd]
  have hg : s.grantable = [r] := by
    have key : ∀ q, (s.chosenWaiter q).isSome = decide (q = r) := fun q => by
      by_cases c : q = r
      · subst c; simp [hw]
      · simp [c, chosenWaiter_noWaiters (ho q c)]
    unfold State.grantable
    rw [show (fun q => (s.chosenWaiter q).isSome) = fun q => decide (q = r) from funext key]
    clear hw ho key
    cases r with
    | dose k => fin_cases k <;> decide
    | _ => decide
  have hc : grantsConflict [r] = false := by
    cases r with
    | dose k => fin_cases k <;> decide
    | _ => decide
  have hgn : s.grantNext = some (s.grant r) := by
    unfold State.grantNext
    rw [hg]
    simp [hc]
  have hj : s.judge = s := judge_same hi <| by
    by_cases c : Resource.doorDrive = r
    · subst c
      obtain ⟨w, hx⟩ := Option.isSome_iff_exists.mp hw
      exact .inr ((eligible_spec (chosenWaiter_spec hx).2.2).2.2.2.2 rfl).1
    · exact .inl (ho _ c)
  conv => lhs; unfold State.settleFor
  simp [hj, hyn, hgn]

/-- The same at the fuel that `settle` has. -/
theorem settle_one {s : State} {r : Resource} (hi : s.water.interlock = s.interlockMet)
    (hy : ∀ q, (s.entry q).yieldRequested = false) (hr : r ∈ allResources) (hw : (s.chosenWaiter r).isSome)
    (ho : ∀ q, q ≠ r → (s.entry q).waiters = []) : s.settle = (s.grant r).settleFor 127 :=
  settleFor_one 127 hi hy hr hw ho

/-! ### The law of the heater (R45) -/

/-- While HEATER is HELD the record of the interlock is met: what every step between two judgements keeps. -/
def State.heaterFlag (s : State) : Prop := (s.entry .heater).lease = .held → s.water.interlock = true

theorem Effect.heaterFlag {s t : State} (h : Effect s t) (k : s.heaterFlag) : t.heaterFlag := fun x => by
  rw [h.interlock]
  exact k ((h.table .heater).heater rfl x)

theorem State.heaterSafe.flag {s : State} (h : s.heaterSafe) : s.heaterFlag := fun x => h.1.trans (h.2 x)

/-- A suspension of HEATER: not HELD after it, and what the interlock is read through stands. -/
theorem suspendHeater_spec (s : State) :
    ((s.suspend .heater).entry .heater).lease ≠ .held ∧
      ((s.suspend .heater).entry .circ).lease = (s.entry .circ).lease ∧ (s.suspend .heater).fixed = s.fixed ∧
      (s.suspend .heater).water = s.water := by
  unfold State.suspend
  split
  · have hl := fun q => State.entry_editEntry s .heater q fun e => { e with lease := .suspended }
    obtain ⟨k1, -, -, -, -, -, k7⟩ := editEntry_rest s .heater fun e => { e with lease := .suspended }
    obtain ⟨r1, -, -, r4, -, -, -, r8, -⟩ := reportSwitching_rest s (s.editEntry .heater fun e => { e with lease := .suspended })
    have he := fun q => (State.entry_congr (congrArg Arbiter.table r1) q).trans (hl q)
    refine ⟨fun x => ?_, ?_, r4.trans k1, r8.trans k7⟩
    · have hx := congrArg Entry.lease (he .heater)
      rw [if_pos rfl] at hx
      cases hx.symm.trans x
    · exact congrArg Entry.lease ((he .circ).trans (if_neg (by decide)))
  · rename_i h
    exact ⟨by simpa using h, rfl, rfl, rfl⟩

/-- The judgement of the interlock leaves the law of the heater. -/
theorem settleInterlock_heaterSafe {s : State} (hs : s.tableSafe) (hf : s.heaterFlag) : s.settleInterlock.heaterSafe := by
  unfold State.settleInterlock
  dsimp only
  split
  · rename_i h; exact ⟨h, fun x => h ▸ hf x⟩
  · rename_i h
    generalize hm : s.interlockMet = m at *
    have hi : ∀ t : State, t.fixed = s.fixed → (t.entry .circ).lease = (s.entry .circ).lease → t.interlockMet = m :=
      fun t h1 h2 => (interlockMet_congr h1 h2).trans hm
    have hx : ({ s with water := { s.water with interlock := m } } : State).interlockMet = m := hi _ rfl rfl
    split
    · split
      · rename_i hmt
        unfold State.restore
        split
        · have hl := fun q => State.entry_editEntry ({ s with water := { s.water with interlock := m } } : State) .heater q
            fun e => { e with lease := .held }
          obtain ⟨k1, -, -, -, -, -, k7⟩ := editEntry_rest ({ s with water := { s.water with interlock := m } } : State)
            .heater fun e => { e with lease := .held }
          have hj := hi _ (k1.trans rfl) (by rw [hl, if_neg (by decide)]; rfl)
          exact ⟨by rw [hj, k7], fun _ => by rw [hj]; exact hmt⟩
        · exact ⟨hx.symm, fun _ => hx.trans hmt⟩
      · rename_i hmf
        obtain ⟨k1, k2, k3, k4⟩ := suspendHeater_spec ({ s with water := { s.water with interlock := m } } : State)
        exact ⟨by rw [k4, hi _ k3 k2], fun x => absurd x k1⟩
    · rename_i hd
      refine ⟨hx.symm, fun x => ?_⟩
      exact absurd (hs.shut .heater rfl x) hd

/-- The law of the heater is read through what an effect leaves, so an entry other than HEATER's may change. -/
theorem heaterFlag_congr {s t : State} (hf : s.heaterFlag) (hw : t.water = s.water)
    (he : (t.entry .heater).lease = (s.entry .heater).lease) : t.heaterFlag := fun x => by
  rw [hw]; exact hf (he ▸ x)

/-- HEATER restored by its owner: only where the interlock is met, which the record says too. -/
theorem heatGranted_flag {s : State} (i : SlotId) (hf : s.heaterFlag) (hm : s.water.interlock = s.interlockMet) :
    (s.heatGranted i).heaterFlag := by
  unfold State.heatGranted
  split
  · exact hf
  · rename_i sl w _
    have hx : ∀ x : State, x = (if w.granted = true then s else s.setWork i (.heat { w with granted := true, passed := Timer.zero })) →
        Effect s x ∧ x.water.interlock = x.interlockMet := by
      rintro x rfl
      refine ⟨ite_effect _ (.refl s) (setWork_effect (.refl s) i _), ?_⟩
      split
      · exact hm
      · have he := setWork_effect (Effect.refl s) i (.heat { w with granted := true, passed := Timer.zero })
        refine he.interlock.trans (hm.trans (interlockMet_congr he.fixed ?_).symm)
        unfold State.setWork
        split <;> rfl
    dsimp only
    generalize hy : (if w.granted = true then s else s.setWork i (.heat { w with granted := true, passed := Timer.zero })) = x
    obtain ⟨he, hi⟩ := hx x hy.symm
    split
    · exact (he.trans (finishHeat_effect (.refl x) i .done true)).heaterFlag hf
    · split
      · rename_i k
        intro _
        unfold State.restore
        split
        · rw [(editEntry_rest x .heater _).2.2.2.2.2.2, hi, k]
        · rw [hi, k]
      · exact he.heaterFlag hf

theorem grant_heaterFlag {s : State} (r : Resource) (h : s.heaterSafe) : (s.grant r).heaterFlag := by
  unfold State.grant
  split
  · rename_i w hw
    have hl := fun q => (entry_grantLease s r q w).1
    obtain ⟨k1, -, -, -, -, -, k7⟩ := grantLease_rest s r w
    by_cases hr : r = .heater
    · subst hr
      have hg : (s.grantLease .heater w).heaterFlag := fun x => by
        rw [hl, if_pos rfl] at x; cases x
      have hm : (s.grantLease .heater w).water.interlock = (s.grantLease .heater w).interlockMet := by
        rw [k7, h.1]
        exact (interlockMet_congr k1 (by rw [hl, if_neg (by decide)])).symm
      show (State.slotGranted _ _ State.heatGranted).heaterFlag
      unfold State.slotGranted
      split
      · exact heatGranted_flag _ hg hm
      · exact hg
    · refine (ownerGranted_effect (.refl _) hr _).heaterFlag (heaterFlag_congr h.flag k7 ?_)
      rw [hl, if_neg (Ne.symm hr)]
  · exact h.flag

theorem grantNext_heaterFlag {s t : State} (hs : s.heaterSafe) (h : s.grantNext = some t) : t.heaterFlag := by
  unfold State.grantNext at h
  split at h
  · cases h
  · split at h
    · cases h
      exact grant_heaterFlag _ ⟨hs.1.trans (interlockMet_congr rfl rfl).symm, fun x => (interlockMet_congr rfl rfl).trans (hs.2 x)⟩
    · cases h; exact grant_heaterFlag _ hs

/-- The marks of the door priority leave the law of the heater. -/
theorem markBarred_heaterSafe {s : State} (h : s.heaterSafe) : s.markBarred.heaterSafe := by
  have he := markBarred_effect (Effect.refl s)
  have hc : (s.markBarred.entry .circ).lease = (s.entry .circ).lease := by
    unfold State.markBarred
    dsimp only
    split
    · rw [State.entry_putEntry, if_neg (by decide)]
    · rfl
  have hm := interlockMet_congr he.fixed hc
  exact ⟨he.interlock.trans (h.1.trans hm.symm), fun x => hm.trans (h.2 ((he.table .heater).heater rfl x))⟩

theorem judge_heaterSafe {s : State} (hs : s.tableSafe) (hf : s.heaterFlag) : s.judge.heaterSafe :=
  markBarred_heaterSafe (settleInterlock_heaterSafe hs hf)

theorem settleFor_heaterSafe (n : Nat) {s : State} (hs : s.tableSafe) (hf : s.heaterFlag) : (s.settleFor n).heaterSafe := by
  induction n generalizing s with
  | zero => exact judge_heaterSafe hs hf
  | succ n ih =>
    unfold State.settleFor
    dsimp only
    have h1 := judge_heaterSafe hs hf
    have ht := (judge_settled s).tables hs
    split
    · rename_i hy
      have he := yieldNext_effect hy
      exact ih (he.tables ht) (he.heaterFlag h1.flag)
    · split
      · rename_i hg
        exact ih ((grantNext_settled hg).tables ht) (grantNext_heaterFlag h1 hg)
      · exact h1

/-- `settle` leaves the law of the heater, and keeps the laws of the table. -/
theorem settle_heaterSafe {s : State} (hs : s.tableSafe) (hf : s.heaterFlag) : s.settle.heaterSafe :=
  settleFor_heaterSafe 128 hs hf

end Sys2Proof.Machine
end

