-- ==== Sys2Proof/Laws/Protect.lean ====
section
/-! SUPPORT. What the Protection Unit's work, and what the Sense Scanner's deliveries to the other blocks do: they are effects,
but for the cause itself and the force's own grant of DRAIN. -/

namespace Sys2Proof.Machine

/-! ### The latching and the force (R172, R173) -/

theorem tripSlot_effect {a s : State} (h : Effect a s) (i : SlotId) : Effect a (s.tripSlot i) := by
  unfold State.tripSlot
  split
  · exact h
  · split
    · exact finishFill_effect h _ _ _
    · split
      · exact endSlot_effect h _ _ _ _
      · exact finishCirc_effect h _ _ _
    · exact finishHeat_effect h _ _ _
    · exact ite_effect _ (endQueued_effect h _ _ _ _) h
    · exact h
    · exact h
    · exact h

theorem tripWork_effect {a s : State} (h : Effect a s) : Effect a s.tripWork := by
  unfold State.tripWork
  have h1 : Effect a (tripResources.foldl State.revoke s) := by
    unfold tripResources
    simp only [List.foldl_cons, List.foldl_nil]
    refine revoke_effect (revoke_effect (revoke_effect (revoke_effect (revoke_effect (revoke_effect (revoke_effect h _ ?_)
      _ ?_) _ ?_) _ ?_) _ ?_) _ ?_) _ ?_ <;> decide
  have h2 : Effect a (allSlots.foldl State.tripSlot (tripResources.foldl State.revoke s)) :=
    Effect.foldl _ (fun _ i h => tripSlot_effect h i) _ h1
  exact Effect.foldl _ (fun _ c h => channelTripped_effect h c) _ (endRegen_effect h2 _ _)

theorem tripFault_effect {a s : State} (h : Effect a s) (c : TripCause) (point : Nat) : Effect a (s.tripFault c point) := by
  unfold State.tripFault
  split <;> exact fault_effect h _ _ _

theorem endForce_effect {a s : State} (h : Effect a s) : Effect a s.endForce := by
  unfold State.endForce
  refine freeLease_effect ?_ _ fun c => by cases c
  exact h.trans (.of_idle rfl rfl rfl rfl rfl rfl rfl rfl)

theorem judgeForce_effect {a s : State} (h : Effect a s) : Effect a s.judgeForce := by
  unfold State.judgeForce
  have h1 : Effect a ({ s with prot := { s.prot with force := .postrun, postrun := Timer.zero } } : State) :=
    h.trans (.of_idle rfl rfl rfl rfl rfl rfl rfl rfl)
  exact ite_effect _ (ite_effect _ (endForce_effect h1) h1) h

/-- A cause already in the set for which the force stands FORCING is an effect; so is OVERTEMP already in the set. -/
theorem handIn_again_effect {a s : State} (h : Effect a s) {c : TripCause} (hc : s.hasCause c = true)
    (hf : c = .overtemp ∨ s.prot.force ≠ .off) (point : Nat) : Effect a (s.handIn c point) := by
  unfold State.handIn
  rw [if_pos hc]
  split
  · exact h
  · rename_i hn
    have hf := hf.resolve_left hn
    unfold State.takeForce
    dsimp only
    split
    · rename_i k; exact absurd k hf
    · cases c <;> exact h.trans (.of_idle rfl rfl rfl rfl rfl rfl rfl rfl)
    · cases c <;> exact h.trans (.of_idle rfl rfl rfl rfl rfl rfl rfl rfl)

/-! ### Groups and deliveries (R120, R133) -/

theorem setGroup_effect {a s : State} (h : Effect a s) (g : GroupId) (r : Group) : Effect a (s.setGroup g r) :=
  h.trans (.of_idle rfl rfl rfl rfl rfl rfl rfl rfl)

theorem keepResult_effect {a s : State} (h : Effect a s) (g : GroupId) (p : PointId) (count : Nat) (q : Quality) :
    Effect a (s.keepResult g p count q) := setGroup_effect h g _

theorem startMeasurement_effect {a s : State} (h : Effect a s) (g : GroupId) (p : PointId) (slot : Option (Fin 4)) :
    Effect a (s.startMeasurement g p slot) := setGroup_effect h g _

theorem deliverLow_effect {a s : State} (h : Effect a s) (n : ReservoirId) (old : PointState) (side : Side) :
    Effect a (s.deliverLow n old side) := by
  unfold State.deliverLow
  split
  · exact lowUncovered_effect h n
  · exact ite_effect _ (refillChannels_effect (lowCovered_effect h n) n) h

theorem deliverEmpty_effect {a s : State} (h : Effect a s) (n : ReservoirId) (old : PointState) (side : Side) :
    Effect a (s.deliverEmpty n old side) := by
  unfold State.deliverEmpty
  split
  · exact emptyUncovered_effect h n
  · exact ite_effect _ (emptyCovered_effect h n) h

theorem deliverSalt_effect {a s : State} (h : Effect a s) (old : PointState) (side : Side) :
    Effect a (s.deliverSalt old side) := by
  unfold State.deliverSalt
  split
  · exact takeHead_effect (saltUncovered_effect h)
  · exact ite_effect _ (takeHead_effect (saltCovered_effect h)) h

/-- A confirmed change delivered to any owner but the Protection Unit is an effect. -/
theorem deliver_effect {a s : State} (h : Effect a s) (p : PointId) (old : PointState) (side : Side)
    (h1 : (s.point p).role ≠ .leak) (h2 : (s.point p).role ≠ .tankHigh) : Effect a (s.deliver p old side) := by
  unfold State.deliver
  dsimp only
  split
  · exact h
  · split
    · rename_i k; exact absurd k h1
    · rename_i k; exact absurd k h2
    · exact waterChannels_effect (judgeDrains_effect h)
    · exact deliverLow_effect h _ _ _
    · exact deliverEmpty_effect h _ _ _
    · exact deliverSalt_effect h _ _
    · exact ite_effect _ (markBreakthrough_effect h) h
    · exact h
    · exact h
    · exact h

end Sys2Proof.Machine
end

