-- ==== Sys2Proof/Laws/Flow.lean ====
section
/-! SUPPORT. What a flow pulse, a decilitre, the softener's own steps, the ends by time and the dose engine's own steps do: the
work is an effect, and with the `settle` that closes it a settled command. -/

namespace Sys2Proof.Machine

/-! ### Pulses and decilitres -/

theorem closedPulse_effect {a s : State} (h : Effect a s) : Effect a s.closedPulse := by
  unfold State.closedPulse
  refine ite_effect _ (fault_effect ?_ _ _ _) ?_ <;> exact h.trans (.of_idle rfl rfl rfl rfl rfl rfl rfl rfl)

theorem fillStage5_effect {a s : State} (h : Effect a s) (i : SlotId) (who : Holder) (serial : Nat) :
    Effect a (s.fillStage5 i who serial) := by
  unfold State.fillStage5
  split
  · exact enterWaitSoft_effect h i
  · exact ite_effect _ h (toInlet_effect (releaseIf_effect h _ _) _ _ _)

theorem fillDecilitre_effect {a s : State} (h : Effect a s) (i : SlotId) : Effect a (s.fillDecilitre i) := by
  unfold State.fillDecilitre
  split
  · exact h
  · dsimp only
    have h1 := fun w => setWork_effect (raiseTank_effect (chargeDecilitre_effect h i)) i (.fill w)
    exact ite_effect _ h <| ite_effect _ (finishFill_effect (h1 _) i _ _) (ite_effect _ (finishFill_effect (h1 _) i _ _)
      (yieldPath_effect (fillStage5_effect (h1 _) i _ _) _ _))

theorem regenPulse_effect {a s : State} (h : Effect a s) {g : Regen} (hg : s.soft.regen = some g) :
    Effect a (s.regenPulse g) :=
  ite_effect _ (regenDecilitre_effect h hg) (setRegenSame_effect h hg _ (by rfl))

theorem fillPulse_effect {a s : State} (h : Effect a s) (i : SlotId) : Effect a (s.fillPulse i) := by
  unfold State.fillPulse
  split
  · exact h
  · exact ite_effect _ (fillDecilitre_effect h i) (setWork_effect h i _)

theorem flowPulse_effect {a s : State} (h : Effect a s) : Effect a s.flowPulse := by
  unfold State.flowPulse
  split
  · exact fillPulse_effect h _
  · split
    · rename_i g hg; exact ite_effect _ (regenPulse_effect h hg) (closedPulse_effect h)
    · exact closedPulse_effect h

/-! ### The ends of work -/

/-- A command that answers an effect settled where a condition holds, and nothing else: settled. -/
theorem when_settled {s t : State} (p : Prop) [Decidable p] (h : Effect s t) : Settled s (if p then t.settle else s) :=
  ite_settled p h.settle (.refl s)

theorem fillNoFlow_settled (s : State) : Settled s s.fillNoFlow := by
  unfold State.fillNoFlow
  split
  · exact .refl s
  · split
    · exact when_settled _ (fault_effect (finishFill_effect (.refl s) _ _ _) _ _ _)
    · exact .refl s

theorem regenNoFlow_settled (s : State) : Settled s s.regenNoFlow := by
  unfold State.regenNoFlow
  split
  · exact when_settled _ (endRegen_effect (fault_effect (.refl s) _ _ _) _ _)
  · exact .refl s

theorem soakEnded_settled (s : State) : Settled s s.soakEnded := by
  unfold State.soakEnded
  split
  · rename_i g hg; exact when_settled _ (endSoak_effect (.refl s) hg)
  · exact .refl s

theorem circRunEnd_settled (s : State) : Settled s s.circRunEnd := by
  unfold State.circRunEnd
  split
  · exact .refl s
  · split
    · exact when_settled _ (finishCirc_effect (.refl s) _ _ _)
    · exact .refl s

theorem heatLimitEnd_settled (s : State) (i : SlotId) : Settled s (s.heatLimitEnd i) := by
  unfold State.heatLimitEnd
  split
  · exact when_settled _ (finishHeat_effect (.refl s) _ _ _)
  · exact .refl s

theorem drainPostrunEnd_settled (s : State) : Settled s s.drainPostrunEnd := by
  unfold State.drainPostrunEnd
  split
  · exact .refl s
  · split
    · split
      · exact when_settled _ (finishDrain_effect (.refl s) _ _ _)
      · exact .refl s
    · exact .refl s

theorem drainLimitEnd_settled (s : State) : Settled s s.drainLimitEnd := by
  unfold State.drainLimitEnd
  split
  · exact .refl s
  · split
    · exact when_settled _ (drainTimeout_effect (.refl s) _)
    · exact .refl s

theorem forcePostrunEnd_settled (s : State) : Settled s s.forcePostrunEnd :=
  when_settled _ (endForce_effect (.refl s))

/-! ### The dose engine's own steps -/

theorem strokeEnd_settled (s : State) (n : ReservoirId) : Settled s (s.strokeEnd n) := by
  unfold State.strokeEnd
  dsimp only
  have h1 : Effect s ({ s with drive := { s.drive with strokes := upd s.drive.strokes n ⟨false, 0⟩ } } : State) :=
    .of_idle rfl rfl rfl rfl rfl rfl rfl rfl
  split
  · split
    · exact (strokeEnded_effect h1 _).settle
    · exact h1.settled
  · exact .refl s

theorem intervalEnd_settled (s : State) (c : ChannelId) : Settled s (s.intervalEnd c) := by
  unfold State.intervalEnd
  dsimp only
  split
  · rename_i k
    simp only [Bool.and_eq_true, beq_iff_eq] at k
    exact (strokeStart_effect (.refl s) c k.1.1 (by rw [k.1.2]; decide)).settle
  · exact .refl s

theorem delayExpiry_settled (s : State) (c : ChannelId) : Settled s (s.delayExpiry c) := by
  unfold State.delayExpiry
  refine when_settled _ (triggerChannel_effect (setChannel_effect (.refl s) c _ ?_) c)
  exact fun _ k => k.of_same rfl rfl rfl rfl rfl

end Sys2Proof.Machine
end

