-- ==== Sys2Proof/Laws/Link.lean ====
section
/-! SUPPORT. What the frame does around every request (R182, R183): one equation for each case of the judging, so that no proof
about a request unfolds the link; and what CANCEL and a port reset do to the slots. -/

namespace Sys2Proof.Machine

/-! ### The frame -/

@[simp] theorem State.port_setPort_same (s : State) (p : Port) (x : PortState) : (s.setPort p x).port p = x := by cases p <;> rfl

theorem State.port_setPort_ne (s : State) {p q : Port} (h : q ≠ p) (x : PortState) : (s.setPort p x).port q = s.port q := by
  cases p <;> cases q <;> first | rfl | exact absurd rfl h

@[simp] theorem State.pool_setPort (s : State) (p : Port) (x : PortState) : (s.setPort p x).pool = s.pool := by cases p <;> rfl
@[simp] theorem State.fixed_setPort (s : State) (p : Port) (x : PortState) : (s.setPort p x).fixed = s.fixed := by cases p <;> rfl
@[simp] theorem State.arb_setPort (s : State) (p : Port) (x : PortState) : (s.setPort p x).arb = s.arb := by cases p <;> rfl

@[simp] theorem State.tagSlot_setRx (s : State) (p q : Port) (rx : RxState) (tag : Nat) :
    (s.setRx p rx).tagSlot q tag = s.tagSlot q tag := by
  simp only [State.tagSlot, State.setRx, State.pool_setPort]

theorem State.judges_setRx {s : State} {p : Port} (h : s.judges p) :
    ¬(s.port p).rx = .resync ∧ ((s.setRx p .synced).port p).resetPending = false ∧
      ¬Config.immediateResponses ≤ ((s.setRx p .synced).port p).immediateCount := by
  unfold State.setRx
  rw [State.port_setPort_same]
  exact ⟨h.1, h.2.1, Nat.not_le.mpr h.2.2⟩

/-- A judged frame is handed on, the receiver SYNCED. -/
theorem takeFrame_judges {s : State} {p : Port} (h : s.judges p) (act : State → State) :
    s.takeFrame p act = act (s.setRx p .synced) := by
  obtain ⟨h0, h1, h2⟩ := s.judges_setRx h
  unfold State.takeFrame
  dsimp only
  rw [if_neg h0, if_neg (by rw [h1]; decide), if_neg h2]

/-- In RESYNC the receiver takes no byte: no frame is seen (R180). -/
theorem takeFrame_resync {s : State} {p : Port} (h : (s.port p).rx = .resync) (act : State → State) :
    s.takeFrame p act = s := by
  unfold State.takeFrame
  dsimp only
  rw [if_pos h]

/-- A frame that completes while a PORT_RESET waits is discarded (R186). -/
theorem takeFrame_resetPending {s : State} {p : Port} (h0 : (s.port p).rx ≠ .resync) (h : (s.port p).resetPending = true) (act : State → State) :
    s.takeFrame p act = s.setRx p .synced := by
  unfold State.takeFrame
  dsimp only
  rw [if_neg h0, if_pos (by unfold State.setRx; rw [State.port_setPort_same]; exact h)]

/-- A frame that completes while 8 immediate responses wait is discarded with its fault (R182). -/
theorem takeFrame_full {s : State} {p : Port} (h0 : (s.port p).rx ≠ .resync) (h : (s.port p).resetPending = false)
    (hf : Config.immediateResponses ≤ (s.port p).immediateCount) (act : State → State) :
    s.takeFrame p act = (s.setRx p .synced).fault .frameError (portCode p) 65535 := by
  unfold State.takeFrame
  dsimp only
  have h1 : (s.setRx p .synced).port p = { s.port p with rx := .synced } := State.port_setPort_same s p _
  rw [if_neg h0, if_neg (by rw [h1, h]; decide), if_pos (by rw [h1]; exact hf)]

/-- A frame judged or not: it is not seen, discarded, discarded with its fault, or handed on. -/
theorem takeFrame_cases (s : State) (p : Port) (act : State → State) :
    s.takeFrame p act = s ∨ s.takeFrame p act = s.setRx p .synced ∨
      s.takeFrame p act = (s.setRx p .synced).fault .frameError (portCode p) 65535 ∨
      (s.judges p ∧ s.takeFrame p act = act (s.setRx p .synced)) := by
  by_cases h0 : (s.port p).rx = .resync
  · exact .inl (takeFrame_resync h0 act)
  · by_cases h : (s.port p).resetPending = true
    · exact .inr (.inl (takeFrame_resetPending h0 h act))
    · rw [Bool.not_eq_true] at h
      by_cases hf : Config.immediateResponses ≤ (s.port p).immediateCount
      · exact .inr (.inr (.inl (takeFrame_full h0 h hf act)))
      · have hj : s.judges p := ⟨h0, h, Nat.lt_of_not_le hf⟩
        exact .inr (.inr (.inr ⟨hj, takeFrame_judges hj act⟩))

/-! ### Immediate requests -/

/-- TAG_IN_USE (R183 case 2). -/
theorem immediate_tagInUse {s : State} {p : Port} {tag : Nat} (h : s.judges p) (ht : (s.tagSlot p tag).isSome = true)
    (act : State → State) : s.immediate p tag act = s.answered p tag .tagInUse [] := by
  unfold State.immediate
  rw [takeFrame_judges h, State.tagSlot_setRx, if_pos ht]
  rfl

/-- An immediate request that is heard reaches its owner (R183 case 7). -/
theorem immediate_hears {s : State} {p : Port} {tag : Nat} (h : s.hears p tag) (act : State → State) :
    s.immediate p tag act = act (s.setRx p .synced) := by
  unfold State.immediate
  rw [takeFrame_judges h.1, State.tagSlot_setRx, h.2]
  rfl

@[simp] theorem State.mode_setRx (s : State) (p : Port) (rx : RxState) : (s.setRx p rx).mode = s.mode :=
  congrArg Fixed.mode (State.fixed_setPort s p _)

@[simp] theorem State.pool_setRx (s : State) (p : Port) (rx : RxState) : (s.setRx p rx).pool = s.pool := State.pool_setPort s p _
@[simp] theorem State.arb_setRx (s : State) (p : Port) (rx : RxState) : (s.setRx p rx).arb = s.arb := State.arb_setPort s p _
@[simp] theorem State.fixed_setRx (s : State) (p : Port) (rx : RxState) : (s.setRx p rx).fixed = s.fixed :=
  State.fixed_setPort s p _

/-- DOSE_ARM and DOSE_TRIGGER in SETUP: NOT_READY (R183 case 3). -/
theorem immediateInRun_setup {s : State} {p : Port} {tag : Nat} (h : s.hears p tag) (hm : s.mode = .setup)
    (act : State → State) : s.immediateInRun p tag act = s.answered p tag .notReady [] := by
  unfold State.immediateInRun
  rw [immediate_hears h, State.mode_setRx, if_pos hm]
  rfl

/-- DOSE_ARM and DOSE_TRIGGER in RUN reach their owner. -/
theorem immediateInRun_hears {s : State} {p : Port} {tag : Nat} (h : s.hears p tag) (hm : s.mode = .run)
    (act : State → State) : s.immediateInRun p tag act = act (s.setRx p .synced) := by
  unfold State.immediateInRun
  rw [immediate_hears h, State.mode_setRx, if_neg (by rw [hm]; decide)]

/-! ### Operations (R183, R184) -/

@[simp] theorem State.freeSlot_setRx (s : State) (p : Port) (rx : RxState) : (s.setRx p rx).freeSlot = s.freeSlot := by
  simp only [State.freeSlot, State.pool_setRx]

@[simp] theorem State.latched_setRx (s : State) (p : Port) (rx : RxState) : (s.setRx p rx).latched = s.latched :=
  State.latched_congr (State.fixed_setRx s p rx)

@[simp] theorem State.meetsReserve_setRx (s : State) (p q : Port) (rx : RxState) :
    (s.setRx p rx).meetsReserve q = s.meetsReserve q := by
  have hc : (s.setRx p rx).cfg = s.cfg := State.cfg_congr (State.fixed_setRx s p rx)
  have hp : (s.setRx p rx).portSlots q = s.portSlots q := by unfold State.portSlots; rw [State.pool_setRx]
  have hf : (s.setRx p rx).freeSlots = s.freeSlots := by unfold State.freeSlots; rw [State.pool_setRx]
  unfold State.meetsReserve
  rw [hc, hp, hf]

section Operation

variable {s : State} {p : Port} {tag : Nat} (w : Work) {trips : Bool} (takeUp : State → SlotId → State)

/-- TAG_IN_USE (R183 case 2). -/
theorem operation_tagInUse (h : s.judges p) (ht : (s.tagSlot p tag).isSome = true) :
    s.operation p tag w trips takeUp = s.answered p tag .tagInUse [] := by
  unfold State.operation
  rw [takeFrame_judges h]
  rw [State.tagSlot_setRx, if_pos ht]
  rfl

/-- NOT_READY (R183 case 3). -/
theorem operation_setup (h : s.hears p tag) (hm : s.mode = .setup) :
    s.operation p tag w trips takeUp = s.answered p tag .notReady [] := by
  unfold State.operation
  rw [takeFrame_judges h.1]
  rw [State.tagSlot_setRx, h.2, if_neg (by decide), State.mode_setRx, if_pos hm]
  rfl

/-- TRIPPED (R183 case 4). -/
theorem operation_tripped (h : s.hears p tag) (hm : s.mode = .run) (ht : trips = true) (hl : s.latched = true) :
    s.operation p tag w trips takeUp = s.answered p tag .tripped [] := by
  unfold State.operation
  rw [takeFrame_judges h.1]
  rw [State.tagSlot_setRx, h.2, if_neg (by decide), State.mode_setRx, if_neg (by rw [hm]; decide), State.latched_setRx,
    if_pos (by rw [ht, hl]; rfl)]
  rfl

/-- RETRY (R183 case 5). -/
theorem operation_retry (h : s.hears p tag) (hm : s.mode = .run) (ht : trips = true → s.latched = false)
    (hr : s.meetsReserve p = false) : s.operation p tag w trips takeUp = s.answered p tag .retry [] := by
  unfold State.operation
  rw [takeFrame_judges h.1]
  rw [State.tagSlot_setRx, h.2, if_neg (by decide), State.mode_setRx, if_neg (by rw [hm]; decide), State.latched_setRx,
    if_neg (by cases trips with
      | false => simp
      | true => rw [ht rfl]; decide), State.freeSlot_setRx]
  split
  · rw [State.meetsReserve_setRx, hr, if_neg (by decide)]; rfl
  · rfl

/-- The operation is accepted and taken up (R183 case 6). -/
theorem operation_accepts {i : SlotId} (h : s.accepts p tag i) (ht : trips = true → s.latched = false) :
    s.operation p tag w trips takeUp = (takeUp ((s.setRx p .synced).accept p tag w i) i).settle := by
  obtain ⟨h1, hm, hf, hr⟩ := h
  unfold State.operation
  rw [takeFrame_judges h1.1]
  rw [State.tagSlot_setRx, h1.2, if_neg (by decide), State.mode_setRx, if_neg (by rw [hm]; decide), State.latched_setRx,
    if_neg (by cases trips with
      | false => simp
      | true => rw [ht rfl]; decide), State.freeSlot_setRx, hf]
  dsimp only
  rw [State.meetsReserve_setRx, hr, if_pos rfl]

end Operation

/-! ### CANCEL and port reset (R185, R186) -/

theorem cancelSlot_effect {a s : State} (h : Effect a s) (i : SlotId) (answer : Bool) : Effect a (s.cancelSlot i answer) := by
  unfold State.cancelSlot
  split
  · exact h
  · split
    · exact finishFill_effect h _ _ _
    · exact finishCirc_effect h _ _ _
    · exact finishHeat_effect h _ _ _
    · exact finishDrain_effect h _ _ _
    · exact cancelRegenerate_effect h _ _ _
    · exact finishDoor_effect h _ _ _
    · exact finishDoor_effect h _ _ _

theorem resetSlot_effect {a s : State} (h : Effect a s) (p : Port) (i : SlotId) : Effect a (s.resetSlot p i) := by
  unfold State.resetSlot
  split
  · exact h
  · exact ite_effect _ (freeSlot_effect (cancelSlot_effect h _ _) _) h

/-- The slots a port reset ends are an effect; what follows is the port's own record and `settle`. -/
theorem resetSlots_effect {a s : State} (h : Effect a s) (p : Port) :
    Effect a (allSlots.foldl (fun s i => s.resetSlot p i) s) :=
  Effect.foldl _ (fun _ i h => resetSlot_effect h p i) _ h

end Sys2Proof.Machine
end

