-- ==== Sys2Proof/Tests/Slice0.lean ====
section
/-! SUPPORT. The model's own tests: an ill-formed command for each check of well-formedness, frames written out from the
spec, single steps, and for every statement a state and operands that meet its hypotheses. -/

namespace Sys2Proof.Tests

open Sys2Proof.Machine

-- One test at a time: a test the kernel evaluates waits for every declaration before it, and each one that waits takes a thread.
set_option Elab.async false

/-! ### Well-formedness: each check refuses an ill-formed command -/

theorem test_wf_taken : (Instr.frameGapTimeout .l1 125).wf = false := by decide
theorem test_wf_length : (Instr.overlong .l1 256).wf = false := by decide
theorem test_wf_covered : (Instr.checkError .l1 [2, 4, 256] 0).wf = false ∧
    (Instr.checkError .l1 [] 65536).wf = false ∧
    (Instr.checkError .l1 (List.replicate 124 0) 0).wf = false := by decide +kernel
theorem test_wf_body : (Instr.badRequest .l1 0x77 1 [300]).wf = false ∧ (Instr.badRequest .l1 256 1 []).wf = false ∧
    (Instr.badRequest .l1 0x77 256 []).wf = false ∧
    (Instr.badRequest .l1 0x77 1 (List.replicate 121 0)).wf = false := by decide +kernel
theorem test_wf_config : (Instr.configWrite .l1 1 0x22 0 (.value 3)).wf = false ∧
    (Instr.configWrite .l1 1 0x01 0 (.value 65536)).wf = false ∧
    (Instr.configWrite .l1 1 0x22 0 (.hardnessBands [(1, 2)])).wf = false ∧
    (Instr.configWrite .l1 1 0x23 0 (.factorBands (List.replicate 8 (256, 16)))).wf = false ∧
    (Instr.configWrite .l1 1 0x01 0 (.factorBands (List.replicate 8 (1, 16)))).wf = false ∧
    (Instr.configRead .l1 1 256 0).wf = false := by decide
theorem test_wf_operands : (Instr.accountLoad .l1 1 0 65536 0).wf = false ∧ (Instr.fill .l1 1 256).wf = false ∧
    (Instr.circulate .l1 1 50 65536).wf = false ∧ (Instr.circSpeed .l1 1 256 50).wf = false ∧
    (Instr.heat .l1 1 65536 60).wf = false ∧ (Instr.regenerate .l1 1 256).wf = false ∧
    (Instr.dry .l1 1 0 65536).wf = false ∧ (Instr.descRead .l1 1 256).wf = false ∧
    (Instr.doseArm .l1 1 0 256).wf = false ∧ (Instr.senseRead .l1 1 0 256).wf = false ∧
    (Instr.senseTableRead .l1 1 0 256).wf = false ∧ (Instr.status .l1 1 256).wf = false ∧
    (Instr.readDraws .l1 1 65536).wf = false ∧ (Instr.faultClear .l1 1 256).wf = false ∧
    (Instr.cancel .l1 1 256).wf = false ∧ (Instr.subscribe .l1 1 0 0 256 1).wf = false ∧
    (Instr.fetchEvents .l1 256).wf = false := by decide
theorem test_wf_desc :
    (Instr.descWrite .l1 1 0 ⟨1, 0, 65536, 1, 0, 2, 0, 0, 0, 0, 255, 0⟩).wf = false ∧
    (Instr.descWrite .l1 1 0 ⟨256, 0, 1, 1, 0, 2, 0, 0, 0, 0, 255, 0⟩).wf = false := by decide
theorem test_wf_sense : (Instr.senseTableWrite .l1 1 (.point 0 1 65536 0 0 1 0)).wf = false ∧
    (Instr.senseTableWrite .l1 1 (.group 0 256 255 255 255)).wf = false := by decide
theorem test_wf_probe : (Instr.drivePeriodEnd ⟨true, false, true, false, true, 32768⟩).wf = false ∧
    (Instr.drivePeriodEnd ⟨true, false, true, false, true, -32769⟩).wf = false := by decide
theorem test_wf_count : (Instr.measurementEnd 0 65536).wf = false := by decide

/-! ### Frames (R181, R190) -/

/-- The check value of CRC-16/CCITT-FALSE over the ASCII digits 1 to 9. -/
theorem test_crc : crc16 [0x31, 0x32, 0x33, 0x34, 0x35, 0x36, 0x37, 0x38, 0x39] = 0x29B1 := by decide +kernel
theorem test_frame : (frameBytes 0x14 7 []).take 4 = [0x5B, 2, 0x14, 7] ∧ (frameBytes 0x14 7 []).length = 6 := by
  decide +kernel
theorem test_decode_fill : decodeRequest .l2 0x10 9 [40] = some (.fill .l2 9 40) := by decide
theorem test_decode_heat : decodeRequest .l1 0x13 3 [0xBC, 0x02, 0x08, 0x07] = some (.heat .l1 3 700 1800) := by decide
theorem test_decode_config : decodeRequest .l1 0x01 1 [0x24, 2, 0xA0, 0x0F] =
    some (.configWrite .l1 1 0x24 2 (.value 4000)) := by decide
theorem test_decode_bands : decodeRequest .l1 0x01 1
    ([0x23, 0] ++ [10, 16, 20, 16, 30, 16, 40, 16, 50, 16, 60, 16, 80, 16, 100, 16]) =
    some (.configWrite .l1 1 0x23 0 (.factorBands
      [(10, 16), (20, 16), (30, 16), (40, 16), (50, 16), (60, 16), (80, 16), (100, 16)])) := by decide
theorem test_decode_desc : decodeRequest .l1 0x20 1 [5, 1, 0, 0x2C, 0x01, 4, 0, 20, 1, 0x3C, 0x00, 0, 1, 255, 1] =
    some (.descWrite .l1 1 5 ⟨1, 0, 300, 4, 0, 20, 1, 60, 0, 1, 255, 1⟩) := by decide
theorem test_decode_sense : decodeRequest .l3 0x2E 1 [0, 12, 12, 0x10, 0x00, 0xA0, 0x0F, 1, 3, 1] =
    some (.senseTableWrite .l3 1 (.point 12 12 16 4000 1 3 1)) ∧
    decodeRequest .l3 0x2E 1 [1, 3, 12, 13, 255, 255] = some (.senseTableWrite .l3 1 (.group 3 12 13 255 255)) := by decide
theorem test_decode_none : decodeRequest .l1 0x77 1 [] = none ∧ decodeRequest .l1 0x10 1 [] = none ∧
    decodeRequest .l1 0x10 1 [1, 2] = none ∧ decodeRequest .l1 0x01 1 [0x22, 0, 1, 2] = none := by decide
theorem test_table_word : decodeTableWord 8 0x10 = none := by decide

/-! ### Small states -/

/-- Every resource, from the ten of the table. -/
theorem all_resources {P : Resource → Prop} (h : ∀ r ∈ allResources, P r) : ∀ r, P r := by
  intro r; refine h r ?_; cases r <;> first | decide | (rename_i n; revert n; decide)

/-- Both columns. -/
theorem all_columns {P : Column → Prop} (h : ∀ c ∈ [Column.a, Column.b], P c) : ∀ c, P c := by
  intro c; refine h c ?_; cases c <;> decide

/-- All three ports. -/
theorem all_ports {P : Port → Prop} (h : ∀ p ∈ [Port.l1, Port.l2, Port.l3], P p) : ∀ p, P p := by
  intro p; refine h p ?_; cases p <;> decide

theorem vacant_of {s : State} (h : ∀ r ∈ allResources, (s.entry r).lease = .free ∧ (s.entry r).waiters = [] ∧
    (s.entry r).yieldRequested = false) : s.vacant := all_resources h

theorem atRest_of {s : State} (h : (∀ r ∈ allResources, (s.entry r).waiters = [] ∧ (s.entry r).yieldRequested = false) ∧
    s.water.interlock = s.interlockMet) : s.atRest := ⟨all_resources h.1, h.2⟩

theorem calmBut_of {s : State} {r : Resource}
    (h : (∀ q ∈ allResources, q ≠ r → (s.entry q).waiters = [] ∧ (s.entry q).yieldRequested = false) ∧
      s.water.interlock = s.interlockMet) : s.calmBut r := ⟨all_resources h.1, h.2⟩

theorem hears_of {s : State} {p : Port} {tag : Nat}
    (h : ((s.port p).rx ≠ .resync ∧ (s.port p).resetPending = false ∧ (s.port p).immediateCount < 8) ∧
      s.tagSlot p tag = none) : s.hears p tag := h

theorem accepts_of {s : State} {p : Port} {tag : Nat} {i : SlotId}
    (h : (((s.port p).rx ≠ .resync ∧ (s.port p).resetPending = false ∧ (s.port p).immediateCount < 8) ∧
      s.tagSlot p tag = none) ∧ s.mode = .run ∧ s.freeSlot = some i ∧ s.meetsReserve p = true) : s.accepts p tag i := h

theorem tableSafe_of {s : State}
    (h : (∀ r ∈ allResources, ((s.entry r).lease = .free ↔ (s.entry r).holder = none) ∧ r.allows (s.entry r).lease = true) ∧
      ((s.entry .inlet).lease ≠ .free → (s.entry .selector).lease = .held ∧
        (s.entry .selector).holder = (s.entry .inlet).holder) ∧
      (s.hasHolder .inlet = true → s.hasHolder .drain = false) ∧
      (∀ r ∈ allResources, s.hasHolder .doorDrive = true → r.guarded = true → s.hasHolder r = false) ∧
      (∀ r ∈ allResources, s.latched = true → r.inTripSet = true → s.hasHolder r = false) ∧
      ∀ r ∈ allResources, r.guarded = true → (s.entry r).lease = .held → s.doorClosed = true) : s.tableSafe :=
  ⟨all_resources h.1, h.2.1, h.2.2.1, fun hd r => all_resources (P := fun r => s.hasHolder .doorDrive = true →
      r.guarded = true → s.hasHolder r = false) h.2.2.2.1 r hd,
    fun hl r => all_resources (P := fun r => s.latched = true → r.inTripSet = true → s.hasHolder r = false) h.2.2.2.2.1 r hl,
    all_resources h.2.2.2.2.2⟩

theorem legal_of {s : State} (h : ∀ r ∈ allResources, ((s.entry r).lease = .free ↔ (s.entry r).holder = none) ∧
    r.allows (s.entry r).lease = true) : s.leasesLegal := all_resources h

theorem inPlace_of {s : State} (h : ∀ (i : SlotId), ∀ r ∈ allResources, (s.pool[i].all fun sl => sl.work.resources.contains r ||
    (!s.waitsFor (slotWho i sl) r && (!s.holds (slotWho i sl) r || (s.entry r).lease == .releasing))) = true) : s.inPlace := by
  intro i sl hp r hr
  have := all_resources (h i) r
  rw [hp] at this
  rcases hh : s.holds (slotWho i sl) r <;> simp_all

theorem heatsInTime_of {s : State} (h : ∀ j, ((s.heatAt j).all fun x =>
    !x.2.granted || (!x.2.passed.due && decide (x.2.passed.passed + 1 < 50 * x.2.limit))) = true) : s.heatsInTime := by
  intro j x hx hg
  have := h j
  rw [hx] at this
  simpa [hg] using this

/-- The part after a reset with every line idle: each receiver SYNCED. -/
def fresh : State := ((State.reset.setRx .l1 .synced).setRx .l2 .synced).setRx .l3 .synced

/-- A part in RUN with nothing to do: the door CLOSED, the rod RETRACTED, the selector at A, column A in service. -/
def idle : State :=
  { fresh with
    mode := .run
    door := { fresh.door with door := ⟨true, true, 0⟩ }
    soft := { Softener.reset with colA := ⟨.inService, 12000, 0, .none, none⟩, colB := ⟨.standby, 9000, 0, .none, none⟩ } }

/-- The state a command leaves. -/
def nextOf (c : Instr) (s : State) : State :=
  match exec c s with
  | .next t => t
  | .fault _ => s
  | .refused _ => s

/-- Pool slot 0 holds this work for L1 with tag 7. -/
def work (w : Work) (s : State) : State := s.setSlot 0 (some ⟨.l1, 7, w, 0, 0, none⟩)

/-- A resource in this lease state under a holder. -/
def leased (r : Resource) (l : LeaseState) (h : Holder) (s : State) : State :=
  s.putEntry r { s.entry r with lease := l, holder := some h }

/-- These requesters wait for a resource. -/
def waiting (r : Resource) (l : List Waiter) (s : State) : State := s.putEntry r { s.entry r with waiters := l }

/-- L1's operation in slot 0. -/
def l1Op : Holder := ⟨.port .l1, some 0⟩

/-- The door-opening operation in slot 0. -/
def dryOp : Holder := ⟨.dry, some 0⟩

/-- A span that has passed. -/
def due : Timer := ⟨500, true⟩

/-- A point with a role and a confirmed state. -/
def role (n : PointId) (r : Role) (st : PointState) (s : State) : State :=
  { s with sense := { s.sense with points := upd s.sense.points n { s.point n with role := r, state := st } } }

/-- Descriptor 0: reservoir R1, three strokes, source REQUEST, no link, an end report; channel 0 loaded with it. -/
def dosed (ch : Channel) (s : State) : State :=
  { s with dose := { descs := upd s.dose.descs 0 ⟨1, 0, 3, 1, 0, 2, 0, 0, 0, 0, 255, 1⟩, channels := upd s.dose.channels 0 ch } }

/-- A loaded channel in this state and step. -/
def loaded (st : ChannelState) (k : DoseStep) : Channel :=
  { Channel.reset with state := st, current := some 0, loaded := 3, step := k, runLeft := if k = .none then 0 else 3 }

/-- The rod in this state. -/
def rodIn (r : RodState) (s : State) : State :=
  { s with door := { s.door with rod := { s.door.rod with state := r } } }

/-- Each of the ten slots 0..9 holds a DRAIN of L2: two slots are free. -/
def crowded : State :=
  (allSlots.take 10).foldl (fun s i => s.setSlot i (some ⟨.l2, i.val, .drain ⟨Timer.zero, none⟩, 0, 0, none⟩)) idle

/-- A HEAT under a met interlock. -/
def heating : State :=
  leased .heater .held l1Op (leased .circ .held ⟨.port .l2, some 1⟩
    (role 4 .tankMin .clear { idle with water := { idle.water with probeValid := true, interlock := true } }))

/-- A FILL that holds SELECTOR and INLET, one pulse short of a decilitre. -/
def filling (counted : Nat) : State :=
  leased .selector .held l1Op <| leased .inlet .held l1Op (work (.fill { freshFill 3 with counted := counted, pulses := 11, noFlow := due }) idle)

/-- A regeneration of column B, of L1's REGENERATE in slot 0 or of none, in a phase with this many decilitres counted, one pulse
short of the next. -/
def regenerating (own : Bool) (ph : RegenPhase) (counted : Nat) : State :=
  let s := idle.setRegen (some ⟨.b, if own then some (.l1, 0) else none, ph, counted, 11, due, due, false, .full, true, true, false, 30⟩)
  let s := s.setColumn .b ⟨.regenerating, 0, 65535, .none, none⟩
  if own then work (.regenerate .b) s else s

/-- The requester of that regeneration. -/
def regenOp (own : Bool) : Holder := if own then l1Op else ⟨.regen, none⟩

/-- The regeneration in RINSE, holding SELECTOR and INLET. -/
def rinsing (own : Bool) (counted : Nat) : State :=
  leased .selector .held (regenOp own) (leased .inlet .held (regenOp own) (regenerating own .rinse counted))

/-- The regeneration in BRINE_DRAW, holding SELECTOR, BRINE and INLET. -/
def drawing (own : Bool) (counted : Nat) : State :=
  leased .brine .held (regenOp own) (leased .selector .held (regenOp own)
    (leased .inlet .held (regenOp own) (regenerating own .brineDraw counted)))

theorem legal_default : Settings.default.legal := by
  refine ⟨?_, by decide, by decide⟩
  intro i h1 h2
  cases i <;> first
    | decide
    | (rename_i n; revert n; decide)
    | (rename_i n; cases n <;> decide)
    | exact absurd rfl h1
    | exact absurd rfl h2

/-! ### Every command answers somewhere: single steps from the idle part -/

theorem test_fill_two_grants : ((nextOf (.fill .l1 5 40) idle).entry .selector).lease = .held ∧
    ((nextOf (.fill .l1 5 40) idle).entry .inlet).holder = some ⟨.port .l1, some 0⟩ := by decide +kernel

/-! ### States that meet the hypotheses of the statements -/

theorem test_step_met : idle.pending = [] := by decide
theorem test_tableLaws_met : heating.tableSafe ∧ ∃ t, step { heating with pending := [.runClockSecond] } = .next t :=
  ⟨tableSafe_of (by decide +kernel), _, rfl⟩
theorem test_heaterLaw_met : heating.heaterSafe ∧ (heating.entry .heater).lease = .held := by
  refine ⟨⟨?_, ?_⟩, ?_⟩ <;> decide +kernel
theorem test_booksLaws_met : idle.booksSafe :=
  ⟨by decide, by unfold State.descsLegal; decide +kernel, by unfold State.oneInService; decide,
    ⟨by decide, by decide, fun _ h => nomatch h⟩, all_columns (by decide +kernel), by unfold State.amountsBounded; decide +kernel,
    by unfold State.logLegal; decide +kernel, by unfold State.channelsCounted ChannelOk; decide +kernel⟩
theorem test_settingsLaw_met : idle.cfg.legal ∧ ∃ t, step idle = .next t := ⟨legal_default, _, rfl⟩
theorem test_poolLaw_met : crowded.poolShared ∧ crowded.normalSlots = 10 := by
  refine ⟨⟨?_, ?_, ?_⟩, ?_⟩ <;> first | decide +kernel | exact all_ports (by decide +kernel)
theorem test_whatChanges_met : ∃ t, exec .flowPulse idle = .next t := ⟨_, rfl⟩
theorem test_readBack_met : (Instr.heat .l1 255 65535 0).wf = true ∧
    encodeRequest (.heat .l1 255 65535 0) = some (.l1, 255, 0x13, [255, 255, 0, 0]) := by decide
theorem test_refused_met : idle.judges .l1 ∧ decodeRequest .l1 0x77 1 [] = none ∧
    requestOf (.fill .l1 7 1) = some (.l1, 7) ∧ (Instr.fill .l1 7 1).wf = true ∧
    ((work (.drain ⟨Timer.zero, none⟩) idle).tagSlot .l1 7).isSome = true ∧
    fresh.hears .l1 7 ∧ needsRun (.fill .l1 7 1) = true ∧ fresh.mode = .setup ∧
    tripRefused (.fill .l1 7 1) = true ∧ ({ idle with prot := { idle.prot with flood := true } } : State).latched = true ∧
    crowded.judges .l3 ∧ crowded.tagSlot .l3 1 = none ∧ isOperation (.drain .l3 1) = true ∧
    crowded.meetsReserve .l3 = false := by
  repeat' apply And.intro
  all_goals decide +kernel
theorem test_accepted_met : isOperation (.fill .l1 5 1) = true ∧ requestOf (.fill .l1 5 1) = some (.l1, 5) ∧
    idle.accepts .l1 5 0 ∧ idle.latched = false ∧ ({ idle with accepted := 65535 } : State).accepts .l1 5 0 := by
  repeat' apply And.intro
  all_goals decide +kernel
theorem test_receiver_met : (State.reset.port .l1).rx = .resync ∧ requestOf (.drain .l1 3) = some (.l1, 3) ∧
    (idle.port .l1).rx = .synced ∧
    ((idle.setRx .l1 (.inFrame 124)).port .l1).rx = .inFrame 124 ∧ crc16 [2, 0x14, 7] ≠ 0 ∧
    (idle.port .l1).resetPending = false ∧
    8 ≤ ((idle.setPort .l1 { idle.port .l1 with txq := List.replicate 8 ⟨1, [0], true, false⟩ }).port .l1).immediateCount := by
  decide +kernel
theorem test_fault_met : idle.cfg.capture[faultKindIndex .noFlow] = true ∧
    idle.prot.groups[faultGroupIndex .water] = none ∧
    ((idle.fault .noFlow 0 1).prot.groups[faultGroupIndex .water] = some ⟨.noFlow, 0, 0, 1⟩) ∧
    (idle.cfg.put (.capture 8) 0).capture[faultKindIndex .noFlow] = false := by decide +kernel

/-- Two subscription slots of L1 that take every report, the second one HELD. -/
def listening (held : Option Report) : State :=
  let subs := upd (idle.port .l1).subs 1 ⟨0, 0, true, held, false⟩
  idle.setPort .l1 { idle.port .l1 with subs := upd subs 4 ⟨0, 0, true, some ⟨0x11, 0, 0, 0⟩, false⟩ }

theorem test_report_met : ((listening none).port .l1).subs[(1 : SubId)].takes (eventCode .trip) = true ∧
    ((listening none).port .l1).subs[(1 : SubId)].held = none ∧
    (∀ j : SubId, j < 1 → ((listening none).port .l1).subs[j].takes (eventCode .trip) = false) ∧
    (∀ j : SubId, ((listening (some ⟨0x12, 0, 0, 0⟩)).port .l1).subs[j].takes (eventCode .trip) = true →
      ((listening (some ⟨0x12, 0, 0, 0⟩)).port .l1).subs[j].held ≠ none) ∧
    (∀ j : SubId, (idle.port .l1).subs[j].takes (eventCode .trip) = false) := by decide +kernel
theorem test_portReset_met : idle.hears .l1 1 ∧
    ((nextOf (.portReset .l1 1) idle).port .l1).txq = [⟨1, [0], true, true⟩] ∧
    ((idle.reply .l1 1 .ok []).port .l1).txq = [⟨1, [0], true, false⟩] := by
  repeat' apply And.intro
  all_goals decide +kernel
theorem test_cancel_met : idle.hears .l1 1 ∧ idle.tagSlot .l1 7 = none ∧
    (work (.drain ⟨Timer.zero, none⟩) idle).tagSlot .l1 7 = some 0 ∧
    (work (.drain ⟨Timer.zero, none⟩) idle).pool[(0 : SlotId)] = some ⟨.l1, 7, .drain ⟨Timer.zero, none⟩, 0, 0, none⟩ ∧
    (idle.setSlot 0 (some ⟨.l1, 7, .drain ⟨Timer.zero, none⟩, 0, 0, some .done⟩)).tagSlot .l1 7 = some 0 := by
  repeat' apply And.intro
  all_goals decide +kernel

/-- L1's operation in slot 0, tag 7, is in flight, and L1 can send the CANCEL with tag 1. -/
def cancellable (s : State) : Prop :=
  ((s.port .l1).rx ≠ .resync ∧ (s.port .l1).resetPending = false ∧ (s.port .l1).immediateCount < 8) ∧
    s.tagSlot .l1 1 = none ∧ s.tagSlot .l1 7 = some 0 ∧ (s.pool[(0 : SlotId)].bind (·.outcome)) = none

/-- L1's REGENERATE in slot 0 stands in the queue. -/
def regenWaits : State :=
  work (.regenerate .b) { idle with soft := { idle.soft with queue := [⟨.b, some (.l1, 0), 0⟩] } }

theorem test_immediate_met : idle.hears .l1 255 ∧ fresh.hears .l3 0 := by
  repeat' apply And.intro
  all_goals decide +kernel
theorem test_accountLoad_met : State.reset.mode = .setup ∧ idle.mode = .run ∧ State.reset.cfg.resFull[(2 : Fin 3)] = 4000 ∧
    State.reset.cfg.saltFull = 1500 ∧ loadedState 2 = some .exhausted ∧ loadedState 0 = some .inService ∧
    loadedState 3 = none ∧ (30000 ≤ State.reset.rated .b ∧ (State.reset.column .a).state ≠ .inService) ∧
    ¬ 30001 ≤ State.reset.rated .b := by decide +kernel

/-- A part in SETUP that COMMIT takes: LEAK and TANK_MIN have their points; column A STANDBY. -/
def ready : State :=
  role 0 .leak .unseen (role 4 .tankMin .unseen { fresh with soft := { fresh.soft with
    colA := ⟨.standby, 100, 0, .none, none⟩ } })

/-- None of the first checks of COMMIT fails: check 1, then 2, then 3, then 4. -/
theorem check1_of {s : State} (h : ∀ m n : PointId, m ≠ n → (s.point m).role ≠ .none → (s.point n).role ≠ (s.point m).role) (x : Nat) :
    ¬s.fails 1 x := fun ⟨m, n, hm, hr, he, _⟩ => h m n hm hr he
theorem check2_of {s : State} (h : (∃ n, (s.point n).role = .leak) ∧ ∃ n, (s.point n).role = .tankMin) (x : Nat) : ¬s.fails 2 x := by
  rintro ⟨r, rfl | rfl, hr, _⟩
  · obtain ⟨n, hn⟩ := h.1; exact hr n hn
  · obtain ⟨n, hn⟩ := h.2; exact hr n hn
theorem check3_of {s : State} (h : (∀ n : ReservoirId, ¬s.cfg.resFull[n] < s.cfg.resLowmark[n]) ∧ ¬s.cfg.saltFull < s.cfg.saltLowmark)
    (x : Nat) : ¬s.fails 3 x := by
  rintro (⟨n, hn, _⟩ | ⟨hs, _⟩)
  · exact h.1 n hn
  · exact h.2 hs
theorem check4_of {s : State} (h : ∀ (g : GroupId) (k : Fin 4), ((s.group g).map[k].all fun n => groupOf n == g) = true) (x : Nat) :
    ¬s.fails 4 x := by
  rintro ⟨g, k, n, hm, hg, _⟩
  have := h g k
  rw [hm] at this
  exact hg (by simpa using this)

/-- Nothing stands against a COMMIT in `ready`. -/
theorem ready_fails : ∀ check item, ¬ready.fails check item
  | 0, _ => id
  | 1, x => check1_of (by decide +kernel) x
  | 2, x => check2_of ⟨⟨0, by decide +kernel⟩, ⟨4, by decide +kernel⟩⟩ x
  | 3, x => check3_of (by decide +kernel) x
  | 4, x => check4_of (by decide +kernel) x
  | 5, _ => fun h => by have := h.1 .l2; revert this; decide +kernel
  | _ + 6, _ => id

/-- LEAK is held by points 0 and 1, and TANK_MIN by points 4 and 5. -/
def twice : State := role 1 .leak .unseen (role 5 .tankMin .unseen ready)

/-- Each check of COMMIT is the first to fail somewhere, and carries the first of several items: of two roles held twice LEAK, of two
missing roles LEAK, the salt after the reservoirs, the lowest group. -/
theorem test_commitFails_met : twice.failsFirst 1 1 ∧ twice.fails 1 2 ∧ State.reset.failsFirst 2 1 ∧ State.reset.fails 2 2 ∧
    ({ ready with cfg := { ready.cfg with saltLowmark := 4000 } } : State).failsFirst 3 4 ∧
    (ready.setGroup 2 { ready.group 2 with map := #v[none, some 0, none, none] }).failsFirst 4 2 ∧
    ({ ready with cfg := { ready.cfg with portUrgent := #v[true, true, true] } } : State).failsFirst 5 0 := by
  have low : ∀ (s : State) (c : Nat), (∀ k x, 0 < k → k < c → ¬s.fails k x) → ∀ k x, k < c → ¬s.fails k x := fun s c h k x hk => by
    rcases k with _ | k
    · exact id
    · exact h _ x (Nat.succ_pos k) hk
  refine ⟨⟨⟨0, 1, by decide, by decide +kernel, by decide +kernel, by decide +kernel⟩, ?_, low _ _ (fun k _ h h' => absurd h' (by omega))⟩,
    ⟨4, 5, by decide, by decide +kernel, by decide +kernel, by decide +kernel⟩,
    ⟨⟨.leak, .inl rfl, by decide +kernel, rfl⟩, ?_, low _ _ ?_⟩, ⟨.tankMin, .inr rfl, by decide +kernel, rfl⟩,
    ⟨.inr ⟨by decide +kernel, rfl⟩, ?_, low _ _ ?_⟩, ⟨⟨2, 1, 0, by decide +kernel, by decide, rfl⟩, ?_, low _ _ ?_⟩,
    ⟨⟨all_ports (by decide +kernel), rfl⟩, ?_, low _ _ ?_⟩⟩
  · rintro x ⟨m, n, _, hr, _, rfl⟩
    revert hr; generalize (twice.point m).role = r
    cases r <;> simp [roleCode] <;> omega
  · rintro x ⟨r, rfl | rfl, _, rfl⟩ <;> decide
  · intro k x h1 h2
    obtain rfl : k = 1 := by omega
    exact check1_of (by decide +kernel) x
  · rintro x (⟨n, hn, -⟩ | ⟨_, rfl⟩)
    · exact absurd hn (by clear hn; revert n; decide +kernel)
    · exact Nat.le_refl _
  · intro k x h1 h2
    obtain rfl | rfl : k = 1 ∨ k = 2 := by omega
    · exact check1_of (by decide +kernel) x
    · exact check2_of ⟨⟨0, by decide +kernel⟩, ⟨4, by decide +kernel⟩⟩ x
  · rintro x ⟨g, k, n, hm, hg, rfl⟩
    revert hm hg; revert g k n; decide +kernel
  · intro k x h1 h2
    obtain rfl | rfl | rfl : k = 1 ∨ k = 2 ∨ k = 3 := by omega
    · exact check1_of (by decide +kernel) x
    · exact check2_of ⟨⟨0, by decide +kernel⟩, ⟨4, by decide +kernel⟩⟩ x
    · exact check3_of (by decide +kernel) x
  · rintro x ⟨_, rfl⟩; exact Nat.le_refl _
  · intro k x h1 h2
    obtain rfl | rfl | rfl | rfl : k = 1 ∨ k = 2 ∨ k = 3 ∨ k = 4 := by omega
    · exact check1_of (by decide +kernel) x
    · exact check2_of ⟨⟨0, by decide +kernel⟩, ⟨4, by decide +kernel⟩⟩ x
    · exact check3_of (by decide +kernel) x
    · exact check4_of (by decide +kernel) x

/-- The answer of a COMMIT that fails, with the item of log 46. -/
theorem test_commit_refused : (nextOf (.commit .l1 1) { fresh with sense := twice.sense }).port .l1 =
    (fresh.answered .l1 1 .badConfig [1, 1]).port .l1 := by decide +kernel

theorem test_commit_met : ready.hears .l1 1 ∧ ready.mode = .setup ∧ (∀ check item, ¬ready.fails check item) ∧
    ready.inService = none ∧ (ready.column .b).state = .exhausted ∧ ready.regenOf .b = false ∧
    ready.soft.queue = [] ∧ ready.soft.regen = none ∧ ready.latched = false ∧ ready.cfg.autoRegen = true ∧
    ready.acct.salt.known = false ∧ ready.atRest ∧ (ready.entry .selector).lease = .free ∧ (∀ i, ready.fillAt i = none) ∧
    ∀ check item, ¬({ ready with acct := { ready.acct with salt := ⟨0, true, false⟩ } } : State).fails check item := by
  refine ⟨hears_of (by decide +kernel), ?_, ready_fails, ?_, ?_, ?_, ?_, ?_, ?_, ?_, ?_, atRest_of (by decide +kernel), ?_, ?_,
    ready_fails⟩
  all_goals decide +kernel

/-- COMMIT takes the head of the queue and posts no event; REGEN_HEAD_TAKEN has the SELECTOR granted to it (R62, R64, R187). -/
theorem test_commit_takes_head :
    (nextOf (.commit .l1 1) (ready.setPort .l1 ((listening none).port .l1))).ports =
      ((ready.setPort .l1 ((listening none).port .l1)).answered .l1 1 .ok []).ports ∧
    ((nextOf (.commit .l1 1) ready).entry .selector).lease = .free ∧ (nextOf (.commit .l1 1) ready).soft.regen.isSome = true ∧
    ((nextOf .regenHeadTaken (nextOf (.commit .l1 1) ready)).entry .selector).holder = some ⟨.regen, none⟩ ∧
    ((nextOf .regenHeadTaken (nextOf (.commit .l1 1) ready)).column .b).state = .regenerating := by decide +kernel
theorem test_enterSetup_met : idle.mode = .run ∧ (∀ i : SlotId, idle.pool[i] = none) ∧
    (∀ r, idle.hasHolder r = false) ∧ idle.soft.regen = none ∧ (∀ c, (idle.channel c).state = .idle) ∧
    ¬(∀ i : SlotId, crowded.pool[i] = none) := by
  repeat' apply And.intro
  all_goals first | decide +kernel | exact all_resources (by decide +kernel)
theorem test_fillStarts_met : idle.accepts .l1 5 0 ∧ idle.latched = false ∧ idle.vacant ∧ idle.water.interlock = false ∧
    idle.doorClosed = true ∧ idle.inService = some .a ∧ idle.water.tank < idle.cfg.tankLimit ∧ idle.soft.regen = none ∧
    idle.arb.selCurrent = some .a ∧
    ({ idle with arb := { idle.arb with selCurrent := none } } : State).arb.selCurrent ≠ some .a := by
  repeat' apply And.intro
  all_goals first | decide +kernel | exact vacant_of (by decide +kernel)
theorem test_washStarts_met : ¬(idle.water.probeValid = true ∧ 200 ≤ idle.water.temperature) ∧ idle.waterAbsent = false ∧
    idle.accepts .l2 5 0 ∧ idle.vacant ∧ ({ idle with water := { idle.water with probeValid := true, temperature := 200 } } : State).vacant ∧
    (∀ c, (idle.channel c).state ≠ .armed) := by
  repeat' apply And.intro
  all_goals first | decide +kernel | exact vacant_of (by decide +kernel)

/-- A HEAT whose target is reached at its grant is DONE in that step (R46). -/
theorem test_heat_done_at_grant : ((nextOf (.heat .l1 5 200 60)
      { idle with water := { idle.water with probeValid := true, temperature := 200 } }).port .l1).txq = [opResponse 5 .done []] := by
  decide +kernel

/-- L1's CIRCULATE in slot 0 holds CIRC at this level; its start has been reported or not. -/
def circling (level : Nat) (started : Bool := true) : State :=
  leased .circ .held l1Op (work (.circulate ⟨50, 7200, due, started⟩)
    { idle with drive := { idle.drive with circRamp := ⟨level, 0, true⟩, circ := ⟨50, 0, false⟩ } })

theorem test_circSpeed_met : (circling 0).hears .l1 9 ∧ (circling 0).circHeldBy .l1 7 = true ∧
    (circling 0).circHeldBy .l1 9 = false := by
  repeat' apply And.intro
  all_goals decide +kernel
theorem test_closedFlow_met : (idle.entry .inlet).lease ≠ .held ∧ idle.atRest ∧
    idle.water.closedFlow + 1 < idle.cfg.flowPulsesPerDl ∧
    idle.cfg.flowPulsesPerDl ≤ ({ idle with water := { idle.water with closedFlow := 11 } } : State).water.closedFlow + 1 := by
  repeat' apply And.intro
  all_goals first | decide +kernel | exact (atRest_of (by decide +kernel)).1
theorem test_fillCounts_met : (filling 2).pool[(0 : SlotId)] = some ⟨.l1, 7,
      .fill { freshFill 3 with counted := 2, pulses := 11, noFlow := due }, 0, 0, none⟩ ∧
    ((filling 2).entry .inlet).lease = .held ∧ ((filling 2).entry .inlet).holder = some l1Op ∧ (filling 2).atRest ∧
    (filling 2).cfg.flowPulsesPerDl ≤ 11 + 1 ∧ (filling 2).inService = some (filling 2).arb.selHeld ∧
    (filling 2).acct.hardness < ((filling 2).column .a).remaining ∧ (∀ c, ((filling 2).column c).breakthrough ≠ some 0) ∧
    (∀ c, ((filling 2).channel c).state = .idle) ∧
    (∀ r, (filling 2).holds l1Op r = true → r = .inlet ∨ r = .selector) ∧ (filling 2).tableSafe ∧ (filling 1).tableSafe ∧
    min 255 ((filling 1).water.tank + 1) < (filling 1).cfg.tankLimit := by
  repeat' apply And.intro
  all_goals first
    | decide +kernel
    | exact tableSafe_of (by decide +kernel)
    | exact all_resources (by decide +kernel)
    | exact all_columns (by decide +kernel)

/-- L1's FILL was charged, freed and answered by the pulse that completes it (R31, R40). -/
theorem test_fill_done : ((nextOf .flowPulse (filling 2)).column .a).remaining = 11970 ∧
    (nextOf .flowPulse (filling 2)).pool[(0 : SlotId)] = none ∧
    ((nextOf .flowPulse (filling 2)).port .l1).txq = [opResponse 7 .done [3, 1, 0, 0]] := by decide +kernel

theorem test_noWash_met : (((filling 1).setColumn .a ⟨.regenerating, 0, 0, .none, none⟩).column
      ((filling 1).setColumn .a ⟨.regenerating, 0, 0, .none, none⟩).arb.selHeld).state = .regenerating ∧
    ((filling 1).setColumn .a ⟨.regenerating, 0, 0, .none, none⟩).atRest := by
  repeat' apply And.intro
  all_goals first | decide +kernel | exact all_resources (by decide +kernel)

theorem test_noFlow_met : ((rinsing false 0).entry .inlet).holder = some ⟨.regen, none⟩ ∧ (rinsing false 0).atRest ∧
    (∀ i, (rinsing false 0).fillAt i = none) ∧
    (∀ r, (rinsing false 0).holds ⟨.regen, none⟩ r = true → r = .inlet ∨ r = .selector) ∧
    (rinsing false 0).cfg.autoRegen = true ∧ (rinsing true 7).atRest ∧
    (rinsing true 7).pool[(0 : SlotId)] = some ⟨.l1, 7, .regenerate .b, 0, 0, none⟩ ∧
    (∀ r, (rinsing true 7).holds l1Op r = true → r = .inlet ∨ r = .selector) ∧
    (rinsing true 7).soft.queue = [] ∧ (drawing false 2).atRest ∧ (drawing true 0).atRest ∧ (∀ i, (drawing true 0).fillAt i = none) ∧
    (∀ r, (drawing true 0).holds l1Op r = true → r = .inlet ∨ r = .selector ∨ r = .brine) ∧ (rinsing false 0).leasesLegal ∧
    (rinsing true 7).leasesLegal ∧ (drawing false 2).leasesLegal ∧ (drawing true 0).leasesLegal := by
  repeat' apply And.intro
  all_goals first
    | decide +kernel
    | exact legal_of (by decide +kernel)
    | exact all_resources (by decide +kernel)

/-- L1's HEAT holds HEATER, past its limit; the lease is SUSPENDED. -/
def heatLate : State := leased .heater .suspended l1Op (work (.heat ⟨600, 60, due, true⟩) idle)

/-- L1's DRAIN holds DRAIN, its limit passed, in this post-run. -/
def draining (postrun : Option Timer) : State := leased .drain .held l1Op (work (.drain ⟨due, postrun⟩) idle)

theorem test_washEnds_met : (circling 1).calm ∧ (∀ r, (circling 1).holds l1Op r = true → r = .circ) ∧
    0 < (circling 1).circLevel ∧ (circling 0).circLevel = 0 ∧ heatLate.atRest ∧ heatLate.leasesLegal ∧
    (∀ r, heatLate.holds l1Op r = true → r = .heater) ∧ heatLate.holds l1Op .heater = true ∧
    (draining none).atRest ∧ (∀ r, (draining none).holds l1Op r = true → r = .drain) ∧
    ((draining (some due)).entry .drain).holder = some l1Op := by
  repeat' apply And.intro
  all_goals first
    | decide +kernel
    | exact all_resources (by decide +kernel)
    | exact (tableSafe_of (by decide +kernel)).legal

/-- Column A exhausted and queued. -/
def queued : State :=
  { idle with soft := { idle.soft with
    colA := ⟨.exhausted, 0, 0, .none, none⟩, colB := ⟨.inService, 9000, 0, .none, none⟩, queue := [⟨.a, none, 0⟩] } }

theorem test_regenerate_met : idle.accepts .l1 5 0 ∧ idle.latched = false ∧ idle.atRest ∧ columnOf 2 = none ∧
    columnOf 1 = some .b ∧ (idle.column .b).state ≠ .regenerating ∧ idle.regenOf .b = false ∧
    ((idle.column .a).state = .inService → (idle.column .b).state = .standby) ∧ (rinsing false 2).regenOf .b = true ∧
    (queued.column .b).state = .inService ∧ (queued.column .a).state ≠ .standby := by
  repeat' apply And.intro
  all_goals first | decide +kernel | exact (atRest_of (by decide +kernel)).1

/-- A queue whose head cannot be granted SELECTOR yet, with this salt. -/
def selectorBusy (salt : Salt) (s : State) : State :=
  leased .selector .held ⟨.port .l2, some 1⟩ { s with acct := { s.acct with salt := salt } }

/-- A SOAK of column B that is over. -/
def soaking : State :=
  selectorBusy ⟨10, true, false⟩ (idle.setRegen (some
    ⟨.b, none, .soak, 4, 0, Timer.zero, due, false, .none, true, false, false, 30⟩))

theorem test_regeneration_met : (selectorBusy ⟨0, true, false⟩ queued).soft.queue = [⟨.a, none, 0⟩] ∧
    (selectorBusy ⟨0, true, false⟩ queued).atRest ∧ ((selectorBusy ⟨0, true, false⟩ queued).entry .selector).lease ≠ .free ∧
    (selectorBusy ⟨0, false, false⟩ queued).acct.salt.known = false ∧ soaking.atRest ∧
    (soaking.entry .selector).lease ≠ .free := by
  repeat' apply And.intro
  all_goals first | decide +kernel | exact (atRest_of (by decide +kernel)).1

/-- A regeneration waits at the head of the queue of a part with nothing else to do; the selector stands here. -/
def headFree (cur : Option Column) : State := { queued with arb := { queued.arb with selCurrent := cur } }

/-- The selector has reached column B for the regeneration, in this phase. -/
def regenTravels (ph : RegenPhase) : State :=
  let s := regenerating false ph 0
  leased .selector .moving ⟨.regen, none⟩ { s with
    arb := { s.arb with selCurrent := none, selHeld := .b }
    drive := { s.drive with travel := some due, travelReading := some (false, true) } }

theorem test_regenStarts_met : (headFree (some .a)).soft.queue = [⟨.a, none, 0⟩] ∧ (headFree (some .a)).vacant ∧
    (headFree (some .a)).soft.regen = none ∧ (headFree (some .a)).water.interlock = false ∧
    (headFree (some .a)).doorClosed = true ∧ (headFree (some .a)).acct.salt.known = false ∧
    (∀ i, (headFree (some .a)).fillAt i = none) ∧ (headFree none).arb.selCurrent ≠ some .a ∧
    (idle.column .a).state = .inService ∧ (idle.column .b).state = .standby := by
  repeat' apply And.intro
  all_goals first | decide +kernel | exact vacant_of (by decide +kernel)
theorem test_regenArrives_met : (regenTravels .brineDraw).travelArrived = true ∧ (regenTravels .brineDraw).atRest ∧
    ((regenTravels .brineDraw).entry .selector).holder = some ⟨.regen, none⟩ ∧
    ((regenTravels .brineDraw).entry .inlet).lease = .free ∧ (regenTravels .rinse).travelArrived = true ∧
    (regenTravels .rinse).atRest ∧ (regenTravels .rinse).latched = false := by
  repeat' apply And.intro
  all_goals first | decide +kernel | exact all_resources (by decide +kernel)
theorem test_regenDraws_met : (drawing false 2).atRest ∧ (drawing true 3).atRest ∧
    2 + 1 < (drawing false 2).cfg.brineVolume ∧ (drawing true 3).cfg.brineVolume ≤ 3 + 1 ∧
    (drawing true 3).fillAt 0 = none ∧ ((drawing true 3).entry .brine).holder = some l1Op ∧
    (drawing true 3).cfg.flowPulsesPerDl ≤ 11 + 1 ∧ (rinsing false 6).atRest ∧ (rinsing true 7).atRest ∧
    6 + 1 < (rinsing false 6).cfg.rinseVolume ∧ (rinsing true 7).cfg.rinseVolume ≤ 7 + 1 ∧
    (∀ i, (rinsing true 7).fillAt i = none) := by
  repeat' apply And.intro
  all_goals first | decide +kernel | exact all_resources (by decide +kernel)

/-- The last decilitre of RINSE: column B is STANDBY again at its rated capacity, its count gone from 65535 to 0, and the REGENERATE
is answered DONE (R68, R69, R74). -/
theorem test_rinse_done : (nextOf .flowPulse (rinsing true 7)).column .b = ⟨.standby, 30000, 0, .full, none⟩ ∧
    ((nextOf .flowPulse (rinsing true 7)).port .l1).txq =
      [opResponse 7 .done (byte1 1 ++ byte2 30000 ++ byte2 0)] := by decide +kernel

theorem test_descriptors_met : descFieldsInRange ⟨1, 2, 4095, 255, 1, 100, 5, 3600, 3, 1, 31, 1⟩ = true ∧
    descFieldsInRange ⟨1, 2, 4096, 255, 1, 100, 5, 3600, 3, 1, 31, 1⟩ = false ∧
    ((dosed (loaded .armed .none) idle).channel 0).current = some 0 ∧
    (∀ c, (idle.channel c).state = .idle ∨ (idle.channel c).current ≠ some 31) := by decide +kernel
theorem test_doseArm_met : (dosed Channel.reset idle).hears .l1 1 ∧ (dosed Channel.reset idle).atRest ∧
    (dosed Channel.reset idle).dose.descs[(0 : DescId)].reservoir ≠ 0 ∧
    ((dosed Channel.reset idle).channel 3).state = .idle ∧ (dosed Channel.reset idle).dose.descs[(31 : DescId)].reservoir = 0 ∧
    ¬(sourceOf (dosed Channel.reset idle).dose.descs[(0 : DescId)].source = some .delay ∧
      (dosed Channel.reset idle).dose.descs[(0 : DescId)].delay = 0) := by
  repeat' apply And.intro
  all_goals first | decide +kernel | exact (atRest_of (by decide +kernel)).1
theorem test_doseTrigger_met : (dosed (loaded .armed .none) idle).hears .l1 1 ∧ (dosed (loaded .armed .none) idle).atRest ∧
    sourceOf ((dosed (loaded .armed .none) idle).currentDesc (loaded .armed .none)).source = some .request ∧
    (dosed (loaded .armed .none) idle).channelReservoir (loaded .armed .none) = 0 ∧
    ((dosed (loaded .armed .none) idle).entry (.dose 0)).lease = .free ∧
    (dosed (loaded .armed .none) idle).hasHolder .doorDrive = false ∧
    (dosed (loaded .armed .none) idle).acct.reservoirs[(0 : Fin 3)].empty = false := by
  repeat' apply And.intro
  all_goals first | decide +kernel | exact (atRest_of (by decide +kernel)).1

/-- Descriptor 1 has source DELAY with delay 0 and no link; descriptor 2 scales by hardness. -/
def described (s : State) : State :=
  let descs := upd s.dose.descs 1 ⟨1, 2, 300, 4, 0, 20, 4, 0, 0, 0, 255, 0⟩
  { s with dose := { s.dose with descs := upd descs 2 ⟨1, 0, 7, 1, 1, 2, 0, 0, 0, 0, 255, 0⟩ } }

/-- The pump of reservoir R1 is held by channel 3, in a stroke. -/
def pumpTaken : State :=
  leased (.dose 0) .held (channelWho 3) ((described (dosed Channel.reset idle)).setChannel 3 (loaded .dosing .stroke))

theorem test_doseLoads_met :
    (described (dosed Channel.reset idle)).loads ⟨1, 2, 300, 4, 0, 20, 4, 0, 0, 0, 255, 0⟩ 300 ∧
    opensRun ⟨1, 2, 300, 4, 0, 20, 4, 0, 0, 0, 255, 0⟩ 300 4 ∧
    (described (dosed Channel.reset idle)).loads ⟨1, 0, 7, 1, 1, 2, 0, 0, 0, 0, 255, 0⟩ 7 ∧
    (described (dosed Channel.reset idle)).hears .l1 1 ∧ (described (dosed Channel.reset idle)).atRest ∧
    ((described (dosed Channel.reset idle)).entry (.dose 0)).lease = .free ∧ pumpTaken.hears .l1 1 ∧ pumpTaken.atRest ∧
    (pumpTaken.entry (.dose 0)).lease ≠ .free ∧ (pumpTaken.channel 0).state = .idle ∧
    (∀ j, (pumpTaken.entry (.dose 0)).holder = some (channelWho j) → (pumpTaken.channel j).step = .stroke) := by
  refine ⟨.inl ⟨by decide, rfl⟩, .inr (.inr ⟨rfl, by decide⟩), .inr ⟨rfl, 30, 16, .inr ⟨by decide +kernel, by decide +kernel⟩,
    ⟨(30, 16), by decide +kernel, rfl⟩, by decide +kernel⟩, hears_of (by decide +kernel), atRest_of (by decide +kernel), by decide +kernel,
    hears_of (by decide +kernel), atRest_of (by decide +kernel), by decide +kernel, by decide +kernel, by decide +kernel⟩

/-- A trigger taken in ARMED with the pump free starts the first stroke in the same step (R100, R102, R105). -/
theorem test_dose_first_stroke :
    ((nextOf (.doseTrigger .l1 1 0) (dosed (loaded .armed .none) idle)).channel 0).step = .stroke ∧
    ((nextOf (.doseTrigger .l1 1 0) (dosed (loaded .armed .none) idle)).channel 0).started = 1 := by decide +kernel

/-- Channel 0 in DOSING holds its pump. -/
def dosing (k : DoseStep) (ch : Channel → Channel) : State :=
  leased (.dose 0) .held (channelWho 0) (dosed (ch (loaded .dosing k))
    { idle with drive := { idle.drive with strokes := upd idle.drive.strokes 0 ⟨k == .stroke, 15⟩ } })

theorem test_doseStops_met : (dosing .interval id).hears .l1 1 ∧ (dosing .interval id).atRest ∧
    ((dosing .interval id).entry ((dosing .interval id).channelPump ((dosing .interval id).channel 0))).lease = .held ∧
    (dosed { loaded .halted .none with cause := .stop } idle).atRest ∧
    ((dosed { loaded .halted .none with cause := .trip } idle).channel 0).runLeft = 0 ∧
    (dosed { loaded .halted .none with cause := .empty } idle).acct.reservoirs[(0 : Fin 3)].empty = false ∧
    (dosed (loaded .halted .none) idle).holds (channelWho 0)
      ((dosed (loaded .halted .none) idle).channelPump (loaded .halted .none)) = false ∧
    (dosed { loaded .halted .none with cause := .empty } idle).atRest ∧
    (leased (.dose 0) .suspended (channelWho 0) (dosed { loaded .halted .none with cause := .door } idle)).atRest ∧
    (leased (.dose 0) .suspended (channelWho 0) (dosed { loaded .halted .none with cause := .door } idle)).holds (channelWho 0)
      (.dose 0) = true ∧ (dosing .interval id).leasesLegal ∧
    (leased (.dose 0) .suspended (channelWho 0) (dosed { loaded .halted .none with cause := .door } idle)).leasesLegal ∧
    (dosed { loaded .halted .none with cause := .stop, runLeft := 2 } idle).atRest ∧
    (dosed { loaded .halted .none with cause := .stop, flag := true } idle).atRest ∧ (4 : Nat) ≤ 4 := by
  repeat' apply And.intro
  all_goals first | decide +kernel | exact legal_of (by decide +kernel) | exact (atRest_of (by decide +kernel)).1

/-- A DOSE_DISARM lets the pump of a DOOR halt go, and a DOSE_RESUME goes on with the run that was left open (R116, R117). -/
theorem test_dose_disarm : ((nextOf (.doseDisarm .l1 1 0) (leased (.dose 0) .suspended (channelWho 0)
      (dosed { loaded .halted .none with cause := .door } idle))).entry (.dose 0)).lease = .free ∧
    ((nextOf (.doseResume .l1 1 0) (dosed { loaded .halted .none with cause := .stop, runLeft := 2 } idle)).channel 0).started = 1 := by
  decide +kernel
theorem test_strokes_met : (dosing .stroke id).drive.strokes[(0 : Fin 3)] = ⟨true, 15⟩ ∧ (dosing .stroke id).atRest ∧
    (dosing .stroke id).channelReservoir ((dosing .stroke id).channel 0) = 0 ∧ 1 < (loaded .dosing .stroke).runLeft ∧
    ((dosing .stroke fun c => { c with completed := 2, runLeft := 1 }).channel 0).completed + 1 = (loaded .dosing .stroke).loaded ∧
    (∀ k, k ≠ 0 → ((dosing .stroke id).channel k).state = .idle) ∧
    descLink ((dosing .stroke id).currentDesc ((dosing .stroke id).channel 0)) = none ∧
    ((dosing .interval fun c => { c with interval := due }).channel 0).interval.due = true ∧
    ((dosed { loaded .halted .none with delayArmed := true } idle).channel 0).delayLeft = 0 ∧
    ({ dosing .interval id with acct := { idle.acct with
      reservoirs := upd idle.acct.reservoirs 0 ⟨0, true, true, true⟩ } } : State).acct.reservoirs[(0 : Fin 3)].empty = true := by
  repeat' apply And.intro
  all_goals first | decide +kernel | exact (atRest_of (by decide +kernel)).1

/-- Channel 0 in the last stroke of a run of one or of its descriptor, linked to descriptor `link`, with this flag and stop pending. -/
def ending (last flag stop : Bool) (link : Nat) : State :=
  let s := described (dosing .stroke fun c =>
    { c with runLeft := 1, completed := if last then 2 else 0, flag := flag, stopPending := stop })
  { s with dose := { s.dose with descs := upd s.dose.descs 0 { s.dose.descs[(0 : DescId)] with link := link } } }

theorem test_delayTriggers_met : (dosing .interval fun c => { c with delayArmed := true }).calmBut (.dose 0) ∧
    ((dosing .interval fun c => { c with delayArmed := true }).channel 0).delayLeft = 0 ∧
    ((dosing .interval fun c => { c with delayArmed := true }).entry (.dose 0)).waiters = [] ∧
    (waiting (.dose 0) [⟨channelWho 0, 0, none, false⟩]
      (pumpTaken.setChannel 0 { loaded .waitingPump .none with delayArmed := true })).calmBut (.dose 0) ∧
    (dosed { loaded .armed .none with delayArmed := true } idle).atRest ∧
    opensRun ((dosed (loaded .armed .none) idle).currentDesc (loaded .armed .none)) 3 1 ∧ (loaded .armed .none).remaining = 3 := by
  refine ⟨calmBut_of (by decide +kernel), by decide +kernel, by decide +kernel, calmBut_of (by decide +kernel),
    atRest_of (by decide +kernel), .inl (by decide +kernel), by decide⟩
theorem test_runEnds_met : (ending false false false 255).atRest ∧ (ending false true false 255).atRest ∧
    (ending false false false 255).drive.strokes[(0 : Fin 3)] = ⟨true, 15⟩ ∧
    ((ending false true false 255).channel 0).completed + 1 ≠ ((ending false true false 255).channel 0).loaded ∧
    ((ending false true false 255).channel 0).runLeft = 1 ∧
    opensRun ((ending false true false 255).currentDesc ((ending false true false 255).channel 0)) 2 1 ∧
    (ending false false true 255).atRest ∧ (ending false false true 255).channelReservoir ((ending false false true 255).channel 0) = 0 :=
  ⟨atRest_of (by decide +kernel), atRest_of (by decide +kernel), by decide +kernel, by decide +kernel, by decide +kernel,
    .inl (by decide +kernel), atRest_of (by decide +kernel), by decide +kernel⟩
theorem test_descEnds_met : (ending true false false 2).atRest ∧ (ending true false true 2).atRest ∧
    (ending true false false 255).atRest ∧ (ending true false false 31).atRest ∧
    ((ending true false true 2).channel 0).completed + 1 = ((ending true false true 2).channel 0).loaded ∧
    (∀ k, k ≠ 0 → ((ending true false true 2).channel k).state ≠ .armed) ∧
    (ending true false false 2).dose.descs[(2 : DescId)].reservoir ≠ 0 ∧ (ending true false false 2).dose.descs[(2 : DescId)].source ≠ 4 ∧
    (ending true false false 31).dose.descs[(31 : DescId)].reservoir = 0 := by
  refine ⟨atRest_of (by decide +kernel), atRest_of (by decide +kernel), atRest_of (by decide +kernel), atRest_of (by decide +kernel), ?_⟩
  decide +kernel

/-- The last stroke of a descriptor arms the linked one, and with a stop pending halts it at once (R98, R110, R115). -/
theorem test_link : ((nextOf (.doseStrokeEnd 0) (ending true false false 2)).channel 0).state = .armed ∧
    ((nextOf (.doseStrokeEnd 0) (ending true false false 2)).channel 0).current = some 2 ∧
    ((nextOf (.doseStrokeEnd 0) (ending true false true 2)).channel 0).cause = .stop := by decide +kernel

/-- Point 5 with a published result of this age. -/
def aged (age : Nat) : State := idle.setPoint 5 { idle.point 5 with published := some ⟨4000, .valid, age, 0⟩ }

theorem test_senseRead_met : ((aged 2550).point 5).published = some ⟨4000, .valid, 2550, 0⟩ ∧ 2550 ≤ 10 * 255 ∧
    (∀ r, ((aged 2551).point 5).published = some r → 10 * 255 < r.age) ∧ (idle.point 15).published = none := by
  refine ⟨by decide +kernel, by decide, ?_, by decide +kernel⟩
  intro r h
  have h2 : ((aged 2551).point 5).published = some ⟨4000, .valid, 2551, 0⟩ := by decide +kernel
  rw [h2] at h
  cases h
  decide

/-- Group 1 measuring its first point in a WATCH round. -/
def measuring (disturbed : Bool) : State :=
  idle.setGroup 1 { idle.group 1 with
    round := some ⟨.watch, [], true, []⟩, measuring := some ⟨4, some 0, disturbed, false, none⟩ }

theorem test_scan_met : scanModeOf 2 = some .continuous ∧ idle.sense.mode ≠ .continuous ∧ (idle.group 0).round = none ∧
    scanModeOf 4 ≠ none ∧ scanModeOf 5 = none ∧ (∃ k, k < 5 ∧ scanModeOf k = some idle.sense.mode) ∧
    ((measuring false).group 1).round = some ⟨.watch, [], true, []⟩ ∧
    ((idle.setGroup 1 { idle.group 1 with roundDue := true }).group 1).roundDue = true ∧
    roundSlots 1 (idle.group 1) .watch = [(0, 4)] ∧ (idle.group 1).refresh = [] := by decide +kernel
theorem test_senseTable_met : fresh.hears .l1 1 ∧ roleOf 12 = some .softCond ∧ roleOf 13 = some .brineCond ∧
    slotValueOf 255 = some none ∧ slotValueOf 15 = some (some 15) ∧ idle.hears .l1 1 ∧ idle.mode = .run ∧ fresh.mode = .setup ∧
    roleOf 0 = some (idle.point 5).role ∧ (idle.group (groupOf 5)).round = none ∧ (measuring false).hears .l1 1 ∧
    ((measuring false).group (groupOf 5)).round ≠ none ∧ (measuring false).mode = .run ∧
    ((measuring false).group (groupOf 4)).measuring = some ⟨4, some 0, false, false, none⟩ := by
  repeat' apply And.intro
  all_goals decide +kernel
theorem test_measurement_met : ((measuring true).group 1).measuring = some ⟨4, some 0, true, false, none⟩ ∧
    ((measuring false).point 4).candidate = none ∧ 1 < ((measuring false).point 4).debounce := by decide +kernel

/-- Group 1 in this round, in this measurement, with these points to refresh. -/
def rounding (mode : ScanMode) (rest : List (Fin 4 × PointId)) (slot : Option (Fin 4)) (refresh : List PointId) : State :=
  idle.setGroup 1 { idle.group 1 with
    mode := mode, round := some ⟨mode, rest, true, []⟩, measuring := some ⟨5, slot, false, false, none⟩, refresh := refresh
    singleDue := mode == .single }

/-- Group 1, IDLE in this mode, with point 5 to refresh. -/
def refreshing (mode : ScanMode) (roundDue : Bool) : State :=
  idle.setGroup 1 { idle.group 1 with mode := mode, refresh := [5], roundDue := roundDue, refreshDue := true }

theorem test_rounds_met : ((refreshing .watch true).group 1).refresh = [5] ∧ ((refreshing .watch true).group 1).round = none ∧
    roundSlots 1 ((refreshing .watch true).group 1) .watch ≠ [] ∧ ((refreshing .watch false).group 1).refreshDue = true ∧
    ((refreshing .off false).group 1).mode = .off ∧ ((refreshing .periodic false).group 1).roundDue = false ∧
    ((rounding .periodic [(1, 6)] (some 0) []).group 1).round = some ⟨.periodic, [(1, 6)], true, []⟩ ∧
    ((rounding .watch [] (some 0) [6, 7]).group 1).refresh = [6, 7] ∧
    ((rounding .single [] (some 0) []).group 1).measuring = some ⟨5, some 0, false, false, none⟩ ∧
    ((rounding .single [] none [5]).group 1).refresh = [5] ∧ groupOf 5 = 1 ∧
    ((rounding .off [] (some 0) []).group 1).next = none ∧ ((rounding .periodic [] (some 0) []).group 1).roundsToPublish = 1 ∧
    idle.hears .l1 1 ∧ (∃ (k : Fin 4) (n : PointId), (idle.group 2).map[k] = some n ∧ groupOf n = 2) := by
  repeat' apply And.intro
  all_goals decide +kernel

/-- The last PERIODIC round before the publication publishes its measurement, and a SINGLE round leaves the scan in OFF (R124, R126,
R135). -/
theorem test_rounds : ((nextOf (.measurementEnd 1 4000) (rounding .periodic [] (some 0) [])).point 5).published =
      some ⟨4000, .valid, 0, 0⟩ ∧
    ((nextOf (.measurementEnd 1 4000) (rounding .single [] (some 0) [])).group 1).mode = .off := by decide +kernel

/-- Group 1 measures point 5, of this role and confirmed state, in a WATCH round; one result confirms, CROSSED below 4000. -/
def deciding (ro : Role) (st : PointState) (s : State) : State :=
  let s := role 5 ro st s
  let s := s.setPoint 5 { s.point 5 with threshold := 4000, above := false, debounce := 1, candidate := none, run := 0 }
  s.setGroup 1 { s.group 1 with round := some ⟨.watch, [], true, []⟩, measuring := some ⟨5, some 1, false, false, none⟩ }

theorem changes_of {s : State} {count : Nat} {side : Side}
    (h : ((s.group 1).measuring = some ⟨5, some 1, false, false, none⟩ ∧ (s.group 1).round = some ⟨.watch, [], true, []⟩) ∧
      count ≠ 0 ∧ count ≠ 65535 ∧ side = compareCount (s.point 5) count ∧ side.state ≠ (s.point 5).state ∧
      (s.point 5).debounce ≤ (if (s.point 5).candidate = some side then (s.point 5).run + 1 else 1)) :
    s.changes 1 count 5 side := ⟨⟨_, _, h.1.1, h.1.2, rfl, rfl, rfl, .inr rfl⟩, h.2⟩

theorem confirms_of {s : State} {count : Nat} {side : Side}
    (h : (((s.group 1).measuring = some ⟨5, some 1, false, false, none⟩ ∧ (s.group 1).round = some ⟨.watch, [], true, []⟩) ∧
      count ≠ 0 ∧ count ≠ 65535 ∧ side = compareCount (s.point 5) count ∧ side.state ≠ (s.point 5).state ∧
      (s.point 5).debounce ≤ (if (s.point 5).candidate = some side then (s.point 5).run + 1 else 1)) ∧
      s.roleHolder (s.point 5).role = some 5) : s.confirms 1 count 5 side := ⟨changes_of h.1, h.2⟩

/-- The queue of `queued` with the salt KNOWN and 0, its head waiting for it or not yet. -/
def saltGone (wait : Bool) : State :=
  { queued with acct := { queued.acct with salt := ⟨0, true, true⟩ }, soft := { queued.soft with saltWait := wait } }

theorem test_levels_met : (deciding (.low 0) .clear idle).confirms 1 3999 5 .crossed ∧ (deciding (.low 0) .clear idle).atRest ∧
    (deciding (.low 2) .crossed idle).confirms 1 4001 5 .clear ∧ (deciding (.empty 1) .clear idle).confirms 1 1 5 .crossed ∧
    (deciding (.empty 1) .crossed idle).confirms 1 65534 5 .clear ∧ (deciding .saltLow .clear idle).confirms 1 3999 5 .crossed ∧
    (deciding .saltLow .crossed idle).confirms 1 4001 5 .clear ∧ (deciding .saltLow .unseen idle).confirms 1 4001 5 .clear ∧
    (deciding .saltLow .unseen idle).atRest ∧ (deciding (.low 1) .unseen idle).confirms 1 4001 5 .clear ∧
    (∀ c, ((deciding (.low 0) .clear idle).channel c).state = .idle) ∧
    (deciding .saltLow .clear (saltGone false)).confirms 1 3999 5 .crossed ∧ (deciding .saltLow .clear (saltGone false)).atRest ∧
    (deciding .saltLow .crossed (saltGone true)).confirms 1 4001 5 .clear ∧ (deciding .saltLow .crossed (saltGone true)).atRest ∧
    (saltGone false).soft.queue = [⟨.a, none, 0⟩] ∧ (saltGone false).mode = .run ∧ (saltGone false).soft.regen = none ∧
    (saltGone false).latched = false ∧ min (saltGone false).acct.salt.amount 200 = 0 ∧ (saltGone true).cfg.saltFull ≠ 0 :=
  ⟨confirms_of (by decide +kernel), atRest_of (by decide +kernel), confirms_of (by decide +kernel), confirms_of (by decide +kernel),
    confirms_of (by decide +kernel), confirms_of (by decide +kernel), confirms_of (by decide +kernel), confirms_of (by decide +kernel),
    atRest_of (by decide +kernel), confirms_of (by decide +kernel), by decide +kernel, confirms_of (by decide +kernel),
    atRest_of (by decide +kernel), confirms_of (by decide +kernel), atRest_of (by decide +kernel), by decide +kernel,
    by decide +kernel, by decide +kernel, by decide +kernel, by decide +kernel, by decide +kernel⟩

/-- With no salt left the head of the queue begins its wait in the step of the reading; covered again, the salt lets it go in the
step of that reading, and it has SELECTOR (R62, R85). -/
theorem test_salt_head : (nextOf (.measurementEnd 1 3999) (deciding .saltLow .clear (saltGone false))).soft.saltWait = true ∧
    ((nextOf (.measurementEnd 1 4001) (deciding .saltLow .crossed (saltGone true))).soft.regen.map (·.column)) = some .a ∧
    ((nextOf (.measurementEnd 1 4001) (deciding .saltLow .crossed (saltGone true))).entry .selector).holder = some ⟨.regen, none⟩ := by
  decide +kernel

/-- HEATER and CIRC are HELD by two operations, under an interlock that is met or not. -/
def warm (met : Bool) : State :=
  leased .heater (if met then .held else .suspended) l1Op (leased .circ .held ⟨.port .l2, some 1⟩
    { idle with water := { idle.water with probeValid := true, interlock := met } })

/-- DRAIN_POSTRUN is 0 in the present drive period. -/
def noPostrun (s : State) : State := { s with drive := { s.drive with postrun := 0 } }

theorem test_tankMin_met : (deciding .tankMin .clear (warm true)).confirms 1 3999 5 .crossed ∧
    (deciding .tankMin .clear (warm true)).atRest ∧ (deciding .tankMin .crossed (warm false)).confirms 1 4001 5 .clear ∧
    (deciding .tankMin .crossed (warm false)).atRest ∧ ((deciding .tankMin .crossed (warm false)).entry .heater).lease = .suspended ∧
    (∀ i, (deciding .tankMin .clear (warm true)).drainAt i = none) ∧
    (deciding .tankMin .clear (draining none)).confirms 1 3999 5 .crossed ∧ (deciding .tankMin .clear (draining none)).atRest ∧
    (draining none).holdsHeld l1Op .drain = true ∧ (∀ r, (draining none).holds l1Op r = true → r = .drain) ∧
    (deciding .tankMin .clear (noPostrun (draining none))).confirms 1 3999 5 .crossed ∧
    (deciding .tankMin .clear (noPostrun (draining none))).atRest ∧
    (deciding .tankMin .crossed (draining (some due))).confirms 1 4001 5 .clear ∧
    (deciding .tankMin .crossed (draining (some due))).atRest ∧
    (deciding .tankMin .crossed (dosing .water id)).confirms 1 4001 5 .clear ∧
    (deciding .tankMin .crossed (dosing .water id)).atRest ∧ (dosing .water id).holdsHeld (channelWho 0) (.dose 0) = true ∧
    (deciding .tankMin .clear (warm true)).heaterSafe ∧ (deciding .tankMin .clear (warm true)).inPlace ∧
    (deciding .tankMin .crossed (warm false)).inPlace :=
  ⟨confirms_of (by decide +kernel), atRest_of (by decide +kernel), confirms_of (by decide +kernel), atRest_of (by decide +kernel),
    by decide +kernel, by decide +kernel, confirms_of (by decide +kernel), atRest_of (by decide +kernel), by decide +kernel,
    all_resources (by decide +kernel), confirms_of (by decide +kernel), atRest_of (by decide +kernel),
    confirms_of (by decide +kernel), atRest_of (by decide +kernel), confirms_of (by decide +kernel), atRest_of (by decide +kernel),
    by decide +kernel, ⟨by decide +kernel, fun _ => by decide +kernel⟩, inPlace_of (by decide +kernel), inPlace_of (by decide +kernel)⟩
theorem test_conductivity_met : (deciding .softCond .clear (filling 0)).changes 1 3999 5 .crossed ∧
    (deciding .softCond .clear (filling 0)).atRest ∧ (deciding .softCond .clear (filling 0)).roleHolder .softCond = some 5 ∧
    (deciding .softCond .clear (filling 0)).flowingFill = some 0 ∧ ((filling 0).column (filling 0).arb.selHeld).state = .inService ∧
    (deciding .none .clear idle).changes 1 3999 5 .crossed ∧
    (role 4 .leak .clear (deciding .leak .clear idle)).changes 1 3999 5 .crossed ∧
    (role 4 .leak .clear (deciding .leak .clear idle)).roleHolder .leak = some 4 ∧
    (deciding .brineCond .clear soaking).atRest ∧ ((deciding .brineCond .clear soaking).point 5).role = .brineCond ∧
    soaking.soft.regen.map (·.phase) = some .soak :=
  ⟨changes_of (by decide +kernel), atRest_of (by decide +kernel), by decide +kernel, by decide +kernel, by decide +kernel,
    changes_of (by decide +kernel), changes_of (by decide +kernel), by decide +kernel, atRest_of (by decide +kernel),
    by decide +kernel, by decide +kernel⟩

/-- A flowing FILL while the INLET_COND point is measured, with a table of eight rising bounds. -/
def sensing : State :=
  deciding .inletCond .clear { filling 0 with cfg := { (filling 0).cfg with
    hardnessSensed := true
    hardnessTable := [(1, 1), (1000, 10), (2000, 20), (3000, 30), (4000, 40), (5000, 50), (6000, 60), (7000, 70)] } }

theorem test_hardness_met : sensing.atRest ∧ sensing.flowingFill ≠ none ∧ (sensing.point 5).role = .inletCond ∧
    (∃ b ∈ sensing.cfg.hardnessTable, b.1 ≠ 0) ∧
    (∃ b ∈ sensing.cfg.hardnessTable, 4000 ≤ b.1 ∧ 40 = b.2 ∧ ∀ b' ∈ sensing.cfg.hardnessTable, b'.1 < b.1 → b'.1 < 4000) ∧
    strictlyRising (sensing.cfg.hardnessTable.map (·.1)) = true ∧ (∀ b ∈ sensing.cfg.hardnessTable, b.1 < 7001) ∧
    sensing.cfg.hardnessTable.getLast? = some (7000, 70) := by
  repeat' apply And.intro
  all_goals first | decide +kernel | exact all_resources (by decide +kernel)

theorem test_period_met : idle.catchUp = idle ∧ idle.vacant ∧ (∀ i : SlotId, idle.pool[i] = none) ∧
    (849 : Int).toNat < idle.cfg.overtempLimit ∧ idle.prot.force = .off ∧ (∀ c, (idle.channel c).step ≠ .interval) := by
  repeat' apply And.intro
  all_goals first | decide +kernel | exact vacant_of (by decide +kernel)
/-- L1's HEAT of slot 0 has held HEATER for a while, under an interlock that is met. -/
def heatRuns : State := work (.heat ⟨600, 60, ⟨5, false⟩, true⟩) heating

/-- L2's HEAT waits behind it. -/
def heatQueued : State :=
  waiting .heater [⟨⟨.port .l2, some 2⟩, 4, none, false⟩]
    (heatRuns.setSlot 2 (some ⟨.l2, 9, .heat ⟨700, 60, Timer.zero, false⟩, 4, 0, none⟩))

/-- The readings of a period end with this probe reading: the door and the rod as they stand. -/
def readings (x : Int) : PeriodReadings := { probe := x, doorSw := true, rodRet := true, rodExt := false, selA := true, selB := false }

theorem test_heatReading_met : heatQueued.catchUp = heatQueued ∧ heatQueued.calmBut .heater ∧ heatRuns.catchUp = heatRuns ∧
    heatRuns.calmBut .heater ∧ (heatQueued.entry .heater).yieldRequested = false ∧
    ¬heatQueued.cfg.yieldAsked heatQueued.drive.clock (heatQueued.entry .heater) ∧ heatQueued.inPlace ∧ heatRuns.inPlace ∧
    heatQueued.leasesLegal ∧ heatQueued.heatsInTime ∧ heatRuns.heatsInTime ∧ (∀ j, heatQueued.circAt j = none) ∧
    (∀ c, (heatQueued.channel c).state ≠ .armed) ∧ heatRuns.holds l1Op .heater = true ∧
    (600 : Int).toNat < heatRuns.cfg.overtempLimit := by
  refine ⟨by decide +kernel, calmBut_of (by decide +kernel), by decide +kernel, calmBut_of (by decide +kernel), by decide +kernel,
    ?_, inPlace_of (by decide +kernel), inPlace_of (by decide +kernel), legal_of (by decide +kernel), heatsInTime_of (by decide +kernel),
    heatsInTime_of (by decide +kernel), by decide +kernel, by decide +kernel, by decide +kernel, by decide +kernel⟩
  rintro ⟨-, h, -, -, ⟨w, hw, hu, -⟩, -⟩
  have : w = ⟨⟨.port .l2, some 2⟩, 4, none, false⟩ := List.mem_singleton.1 hw
  subst this
  revert hu; decide

/-- The reading at the target ends the HEAT, HEATER passes on to the one that waited, and an invalid reading ends both (R46). -/
theorem test_heat_reading : (nextOf (.drivePeriodEnd (readings 600)) heatQueued).pool[(0 : SlotId)] = none ∧
    ((nextOf (.drivePeriodEnd (readings 600)) heatQueued).port .l1).txq = [opResponse 7 .done []] ∧
    ((nextOf (.drivePeriodEnd (readings 600)) heatQueued).entry .heater).holder = some ⟨.port .l2, some 2⟩ ∧
    ((nextOf (.drivePeriodEnd (readings (-1))) heatQueued).port .l2).txq = [opResponse 9 .probeFault []] ∧
    (nextOf (.drivePeriodEnd (readings (-1))) heatQueued).prot.groups[faultGroupIndex .sense] =
      some ⟨.tempProbe, 0, 0, 65535⟩ := by decide +kernel

/-- CIRC in this lease state and the rod EXTENDING under DOOR_DRIVE, each with a staged setting to apply. -/
def counting (circ : LeaseState) : State :=
  let s := leased .circ circ l1Op (work (.circulate ⟨50, 60, ⟨3, false⟩, true⟩) (rodIn .extending idle))
  let s := { s with drive := { s.drive with
    circ := ⟨50, 70, true⟩, circRamp := ⟨3, 0, false⟩, door := ⟨40, 60, true⟩, doorRamp := ⟨9, 0, false⟩ } }
  leased .doorDrive .held dryOp s

theorem test_generators_met : (counting .held).catchUp = counting .held ∧ (counting .releasing).catchUp = counting .releasing ∧
    ((counting .releasing).entry .circ).yieldRequested = false ∧
    ((counting .held).entry .circ).holder = some l1Op ∧ ((counting .held).entry .doorDrive).lease = .held ∧
    (rodIn .extended (counting .held)).catchUp = rodIn .extended (counting .held) ∧ (counting .held).inPlace ∧
    (counting .releasing).inPlace ∧ (rodIn .extended (counting .held)).inPlace ∧ (counting .held).heatsInTime ∧
    (counting .releasing).heatsInTime :=
  ⟨by decide +kernel, by decide +kernel, by decide +kernel, by decide +kernel, by decide +kernel, by decide +kernel,
    inPlace_of (by decide +kernel), inPlace_of (by decide +kernel), inPlace_of (by decide +kernel), heatsInTime_of (by decide +kernel),
    heatsInTime_of (by decide +kernel)⟩
theorem test_second_met : ({ idle with drive := { idle.drive with secondDue := true, clock := 4294967295 } } : State).drive.clock + 1 =
    4294967296 ∧ (∀ r, (idle.entry r).waiters = []) ∧ idle.water.interlock = idle.interlockMet := by
  repeat' apply And.intro
  all_goals first | decide +kernel | exact all_resources (by decide +kernel)
theorem test_ramp_met : (circling 1).drive.circRamp.due = true ∧ (circling 1).atRest ∧
    (∀ c, ((circling 1).channel c).state = .idle) ∧
    ((leased .circ .releasing l1Op (circling 1)).entry .circ).lease = .releasing ∧
    (leased .circ .releasing l1Op (circling 1)).atRest ∧
    (circling 49 false).drive.circRamp.level + 1 = (circling 49 false).drive.circ.active ∧ (circling 49 false).atRest ∧
    (circling 51).drive.circRamp.level = (circling 51).drive.circ.active + 1 ∧ (circling 51).atRest ∧
    (∀ c, ((circling 49 false).channel c).state ≠ .armed) ∧ 1 < (leased .circ .releasing l1Op (circling 2)).drive.circRamp.level ∧
    (leased .circ .releasing l1Op (circling 2)).atRest := by
  repeat' apply And.intro
  all_goals first | decide +kernel | exact (atRest_of (by decide +kernel)).1

/-- L1's FILL travels to column A; the reading is this one. -/
def travelling (reading : Option (Bool × Bool)) : State :=
  leased .selector .moving l1Op (work (.fill (freshFill 3)) { idle with
    arb := { idle.arb with selCurrent := none }
    drive := { idle.drive with travel := some due, travelReading := reading } })

theorem test_selector_met : (travelling (some (true, false))).travelArrived = true ∧
    (travelling (some (true, false))).atRest ∧ (travelling none).drive.travel = some due ∧ (travelling none).atRest ∧
    (∀ r, (travelling none).holds l1Op r = true → r = .selector) ∧
    (∀ c, ((travelling none).column c).breakthrough ≠ some 0) ∧ (travelling none).inService = some .a ∧
    ((travelling none).entry .inlet).lease = .free ∧ (travelling none).hasHolder .drain = false ∧
    (travelling none).hasHolder .doorDrive = false := by
  repeat' apply And.intro
  all_goals first
    | decide +kernel
    | exact all_resources (by decide +kernel)
    | exact all_columns (by decide +kernel)

/-- The door switch has agreed three times on this state. -/
def doorTurned (closed : Bool) (s : State) : State :=
  { s with door := { s.door with door := { s.door.door with candidate := closed, agree := 3 } } }

theorem test_doorChange_met : (doorTurned false heating).tableSafe ∧ (doorTurned false heating).heaterSafe ∧
    (doorTurned false heating).door.door.agree = 3 ∧ (doorTurned false heating).calm ∧
    ((doorTurned false heating).entry .circ).lease = .held ∧ (doorTurned false heating).soft.regen = none ∧
    (∀ c, ((doorTurned false heating).channel c).state ≠ .dosing) ∧
    (∀ i, (doorTurned false heating).doorAt i = none) ∧ (doorTurned true idle).vacant ∧
    (∀ c, ((doorTurned true idle).channel c).state = .idle) ∧ (doorTurned false heatRuns).inPlace ∧
    (∀ c, ((doorTurned false heatRuns).channel c).stopPending = false) := by
  refine ⟨tableSafe_of (by decide +kernel), ⟨?_, ?_⟩, ?_, all_resources (by decide +kernel), ?_, ?_, ?_, ?_,
    vacant_of (by decide +kernel), ?_, inPlace_of (by decide +kernel), ?_⟩ <;> decide +kernel

/-- L1's HEAT and L2's CIRCULATE in a part whose door is OPEN: both leases SUSPENDED; or the circulation is winding down. -/
def opened (circ : LeaseState) : State :=
  let s := leased .heater .suspended l1Op (leased .circ circ ⟨.port .l2, some 1⟩ idle)
  { s with door := { s.door with door := ⟨false, false, 0⟩ }, water := { s.water with probeValid := true } }

theorem test_doorCloses_met : (doorTurned true (opened .suspended)).tableSafe ∧ (doorTurned true (opened .suspended)).heaterSafe ∧
    (doorTurned true (opened .suspended)).doorClosed = false ∧ (doorTurned true (opened .suspended)).calm ∧
    (∀ n : ReservoirId, (doorTurned true (opened .suspended)).acct.reservoirs[n].empty = false) ∧
    ((doorTurned true (opened .suspended)).entry .heater).lease = .suspended ∧
    (∀ i, (doorTurned true (opened .suspended)).doorAt i = none) ∧
    (doorTurned false (opened .releasing)).tableSafe ∧ (doorTurned false (opened .releasing)).heaterSafe ∧
    ((doorTurned false (opened .releasing)).entry .circ).lease = .releasing ∧ idle.door.door.agree < 3 := by
  refine ⟨tableSafe_of (by decide +kernel), ⟨?_, ?_⟩, ?_, all_resources (by decide +kernel), ?_, ?_, ?_,
    tableSafe_of (by decide +kernel), ⟨?_, ?_⟩, ?_, ?_⟩ <;> decide +kernel

/-- The opening of the door suspends HEATER and CIRC (R5, R45). -/
theorem test_door_suspends : ((nextOf .doorStateChange (doorTurned false heating)).entry .heater).lease = .suspended ∧
    ((nextOf .doorStateChange (doorTurned false heating)).entry .circ).lease = .suspended := by decide +kernel

theorem test_doorStarts_met : idle.accepts .l3 1 0 ∧ idle.vacant ∧ idle.door.rod.state = .retracted ∧
    idle.doorSlot = none := by
  repeat' apply And.intro
  all_goals first | decide +kernel | exact vacant_of (by decide +kernel)

/-- L1's DOOR_PUSH holds DOOR_DRIVE in this lease state, with the rod as given. -/
def pushing (l : LeaseState) (rod : Rod → Rod) : State :=
  leased .doorDrive l dryOp (work (.doorPush { freshDoor 0 0 .pushing with pushed := true })
    { idle with door := { idle.door with rod := rod idle.door.rod } })

/-- L1's DOOR_PUSH or DRY, CANCELLED, whose rod has just been drawn in under DOOR_DRIVE in this lease state. -/
def pushEnding (l : LeaseState) (dry : Bool) : State :=
  let s := pushing l fun r => { r with state := .retracting, retEdge := true, retract := some (.lease, due) }
  let w : DoorWork := { freshDoor 0 0 .pushing with pushed := true }
  s.setSlot 0 (some ⟨.l1, 7, if dry then .dry { w with fixed := [2, 1, 0, 0] } else .doorPush { w with fixed := [1, 1] }, 0, 0, some .cancelled⟩)

/-- A push CANCELLED while it wound out is answered at the end of its retract with the rod RETRACTED, a DRY with what it kept (R169,
R190). -/
theorem test_cancelled_push :
    ((nextOf .rodRetracted (pushEnding .releasing false)).port .l1).txq = [opResponse 7 .cancelled [0, 1, 1]] ∧
    ((nextOf .rodRetracted (pushEnding .releasing true)).port .l1).txq = [opResponse 7 .cancelled [2, 1, 0, 0]] ∧
    ((nextOf (.cancel .l1 1 7) (pushing .held fun r => { r with state := .extending })).pool[(0 : SlotId)].map
      (·.work.fixedFields)) = some [1, 0] := by decide +kernel

/-- A part whose rod alone moves, under a RESET retract past its time. -/
def drawingIn : State :=
  { idle with door := { idle.door with rod := { idle.door.rod with
    state := .retracting, retract := some (.reset, due), retEdge := true } } }

theorem test_rod_met : ((pushing .held fun r => { r with state := .extending, extEdge := true }).door.rod.extEdge = true) ∧
    (pushing .held fun r => { r with state := .extended, hold := due }).atRest ∧
    (pushing .releasing fun r => { r with state := .retracting, retEdge := true, retract := some (.lease, due) }).atRest ∧
    (pushEnding .releasing false).atRest ∧ (pushEnding .releasing true).atRest ∧
    (pushEnding .releasing true).pool[(0 : SlotId)].bind (·.outcome) = some .cancelled ∧
    drawingIn.atRest ∧ (∀ i, drawingIn.doorAt i = none) := by
  repeat' apply And.intro
  all_goals first | decide +kernel | exact (atRest_of (by decide +kernel)).1
/-- L1's DRY holds DOOR_DRIVE, and the rod has been drawn in. -/
def dryDrawn : State :=
  (pushing .releasing fun r => { r with state := .retracting, retEdge := true, retract := some (.lease, due) }).setSlot 0
    (some ⟨.l1, 7, .dry { freshDoor 1 60 .pushing with pushed := true }, 0, 0, none⟩)

/-- A rod that is STALLED under a retract, at ROD_RET. -/
def stalledDrawn : State :=
  rodIn .stalled (pushing .releasing fun r => { r with retEdge := true, retract := some (.lease, due) })

theorem test_leaseRetract_met : dryDrawn.atRest ∧ dryDrawn.doorClosed = true ∧ dryDrawn.door.rod.retract = some (.lease, due) ∧
    ((dryDrawn.entry .doorDrive).holder = some ⟨.dry, some 0⟩) ∧ stalledDrawn.atRest ∧ (∀ j, j ≠ 0 → dryDrawn.doorAt j = none) ∧
    ({ dryDrawn with door := { dryDrawn.door with door := ⟨false, false, 0⟩ } } : State).atRest := by
  repeat' apply And.intro
  all_goals first | decide +kernel | exact (atRest_of (by decide +kernel)).1

/-- A LEASE retract that times out answers STALLED; a DRY drawn in behind a CLOSED door ends CLOSED_EARLY (R161, R165). -/
theorem test_lease_retract : ((nextOf .retractTimeout dryDrawn).port .l1).txq = [opResponse 7 .stalled [2, 1, 0, 0]] ∧
    ((nextOf .rodRetracted dryDrawn).port .l1).txq = [opResponse 7 .closedEarly [2, 1, 0, 0]] := by decide +kernel
theorem test_doorPushed_met :
    (doorTurned false (pushing .held fun r => { r with state := .extending })).tableSafe ∧
    (doorTurned false (pushing .held fun r => { r with state := .extending })).calm ∧
    ((doorTurned false (pushing .held fun r => { r with state := .extending })).entry .doorDrive).lease = .held :=
  ⟨tableSafe_of (by decide +kernel), all_resources (by decide +kernel), by decide +kernel⟩
theorem test_stall_met :
    (pushing .held fun r => { r with state := .extending, maxHoldDue := true }).door.rod.stallDue .maxHold = true ∧
    (pushing .held fun r => { r with state := .extending, extend := due }).door.rod.stallDue .timeout = true ∧
    (pushing .held fun r => { r with state := .extending, extend := due }).atRest ∧
    (∀ j, j ≠ 0 → (pushing .held fun r => { r with state := .extending, extend := due }).doorAt j = none) := by
  repeat' apply And.intro
  all_goals first | decide +kernel | exact (atRest_of (by decide +kernel)).1
theorem test_doorReset_met : (rodIn .stalled idle).hears .l1 1 ∧ (rodIn .stalled idle).door.rod.ret.value = true ∧
    (rodIn .stalled idle).hasHolder .doorDrive = false ∧ (rodIn .stalled idle).atRest ∧ idle.door.rod.state ≠ .stalled ∧
    (pushing .releasing fun r => { r with state := .stalled }).hasHolder .doorDrive = true := by
  repeat' apply And.intro
  all_goals first | decide +kernel | exact (atRest_of (by decide +kernel)).1

theorem test_configItems_met : idle.hears .l1 1 ∧
    (∃ x ∈ idle.cfg.itemRows, x.code = 0x03 ∧ x.index = 0 ∧ x.live = false ∧ x.low = 10 ∧ x.high = 200) ∧
    (∃ x ∈ idle.cfg.itemRows, x.code = 0x02 ∧ x.live = true) ∧
    (∀ x ∈ idle.cfg.itemRows, ¬(x.code = 0x24 ∧ x.index = 4)) ∧ ConfigPayload.wf 0x24 (.value 0) = true := by
  repeat' apply And.intro
  all_goals decide +kernel
theorem test_configBands_met : ConfigPayload.wf 0x22 (.hardnessBands (List.replicate 8 (0, 100))) = true ∧
    hardnessBandsOk (List.replicate 8 (0, 100)) ∧ hardnessBandsOk sensing.cfg.hardnessTable ∧
    ConfigPayload.wf 0x22 (.hardnessBands (List.replicate 8 (1, 0))) = true ∧ ¬hardnessBandsOk (List.replicate 8 (1, 0)) ∧
    ¬hardnessBandsOk (List.replicate 8 (0, 101)) ∧ factorBandsOk Settings.default.factorTable ∧
    ConfigPayload.wf 0x23 (.factorBands (List.replicate 8 (100, 48))) = true ∧ ¬factorBandsOk (List.replicate 8 (100, 48)) := by
  unfold hardnessBandsOk factorBandsOk
  decide +kernel
theorem test_configActs_met : idle.hears .l1 1 ∧ idle.atRest ∧ fresh.hears .l1 1 ∧ fresh.atRest ∧ fresh.mode = .setup ∧
    idle.cfg.hardnessSensed = false ∧ sensing.hears .l1 1 ∧ sensing.cfg.hardnessSensed = true ∧
    (pushing .held fun r => { r with state := .extending }).atRest := by
  repeat' apply And.intro
  all_goals first | decide +kernel | exact (atRest_of (by decide +kernel)).1

/-- L1's FILL waits for soft water with both columns EXHAUSTED. -/
def softWaits : State :=
  work (.fill { freshFill 3 with waitSoft := true }) { idle with soft := { idle.soft with
    colA := ⟨.exhausted, 0, 0, .none, none⟩, colB := ⟨.exhausted, 0, 0, .none, none⟩ } }

theorem test_configQueues_met : softWaits.hears .l1 1 ∧ softWaits.atRest ∧ softWaits.vacant ∧ softWaits.inService = none ∧
    softWaits.pool[(0 : SlotId)] = some ⟨.l1, 7, .fill { freshFill 3 with waitSoft := true }, 0, 0, none⟩ ∧
    softWaits.soft.regen = none ∧ softWaits.water.tank < softWaits.cfg.tankLimit ∧
    (∀ j, j ≠ 0 → softWaits.fillAt j = none) ∧ (∀ i, idle.fillAt i = none) := by
  repeat' apply And.intro
  all_goals first | decide +kernel | exact (atRest_of (by decide +kernel)).1 | exact vacant_of (by decide +kernel)

/-- AUTO_REGEN switched on queues both columns, and A begins in that step; EXHAUST_POLICY BYPASS has the FILL flow (R57, R62). -/
theorem test_config_queues :
    ((nextOf (.configWrite .l1 1 0x13 0 (.value 1)) softWaits).soft.regen.map (·.column)) = some .a ∧
    ((nextOf (.configWrite .l1 1 0x13 0 (.value 1)) softWaits).soft.queue.map (·.column)) = [.b] ∧
    ((nextOf (.configWrite .l1 1 0x12 0 (.value 1)) softWaits).entry .inlet).lease = .held := by decide +kernel

/-- L1's DRY in this phase, its times passed, while L2 holds CIRC. -/
def drying (ph : DoorPhase) : State :=
  leased .circ .held ⟨.port .l2, some 1⟩ (work (.dry { freshDoor 1 60 ph with delayPassed := due, ajarPassed := due }) idle)

theorem test_dry_met : (drying .delay).doorSlot = some 0 ∧ (drying .delay).atRest ∧ (drying .delay).guardedHeld = true ∧
    (drying .delay).hasHolder .doorDrive = false ∧ (drying .ajar).atRest := by
  repeat' apply And.intro
  all_goals first | decide +kernel | exact (atRest_of (by decide +kernel)).1

/-- L1's DRY in PUSHING holds DOOR_DRIVE. -/
def dryPushing : State :=
  leased .doorDrive .held dryOp (work (.dry { freshDoor 1 60 .pushing with pushed := true }) (rodIn .extending idle))

/-- L1's DOOR_PUSH or DRY waits for DOOR_DRIVE, which a DRAIN of L2 keeps from it. -/
def doorWaiting (dry : Bool) : State :=
  let w : DoorWork := freshDoor 1 60 .waitQuiet
  waiting .doorDrive [⟨dryOp, 0, none, false⟩]
    (leased .drain .held ⟨.port .l2, some 1⟩ (work (if dry then .dry w else .doorPush w) idle))

theorem test_doorOnChannel_met : (doorTurned false (dosing .stroke id)).tableSafe ∧ (doorTurned false (dosing .stroke id)).heaterSafe ∧
    (doorTurned false (dosing .stroke id)).calm ∧
    (doorTurned false (dosing .stroke fun c => { c with stopPending := true })).tableSafe ∧
    (doorTurned false (dosing .stroke fun c => { c with stopPending := true })).calm ∧
    (doorTurned false (dosing .stroke id)).holdsHeld (channelWho 0) (.dose 0) = true ∧
    (∀ d, d ≠ 0 → ((doorTurned false (dosing .stroke id)).channel d).state ≠ .dosing) := by
  refine ⟨tableSafe_of (by decide +kernel), ⟨?_, ?_⟩, all_resources (by decide +kernel), tableSafe_of (by decide +kernel),
    all_resources (by decide +kernel), ?_, ?_⟩ <;> decide +kernel
theorem test_doorOnOperation_met : (doorTurned false (doorWaiting false)).calmBut .doorDrive ∧
    (doorTurned false (doorWaiting true)).leasesLegal ∧
    (∀ v ∈ ((doorTurned false (doorWaiting true)).entry .doorDrive).waiters, v.who = ⟨.dry, some 0⟩) ∧
    (doorTurned false (drying .delay)).calmBut .doorDrive ∧ (doorTurned false dryPushing).calmBut .doorDrive ∧
    ((doorTurned false dryPushing).doorAt 0).map (·.2.2.phase) = some .pushing ∧ (doorTurned true (drying .ajar)).calm ∧
    (doorTurned true (drying .ajar)).door.door.candidate = true ∧
    (∀ j, j ≠ 0 → (doorTurned true (drying .ajar)).doorAt j = none) ∧ (doorTurned true (drying .delay)).calm ∧
    ((doorTurned false (drying .delay)).entry .doorDrive).waiters = [] ∧ ((doorTurned false dryPushing).entry .doorDrive).waiters = [] :=
  ⟨calmBut_of (by decide +kernel), (tableSafe_of (by decide +kernel)).legal, by decide +kernel, calmBut_of (by decide +kernel),
    calmBut_of (by decide +kernel), by decide +kernel, all_resources (by decide +kernel), by decide +kernel, by decide +kernel,
    all_resources (by decide +kernel), by decide +kernel, by decide +kernel⟩

/-- An opening halts a channel with a stop pending with cause STOP at once, and puts a DRY that waits in AJAR (R115, R159). -/
theorem test_door_opens :
    ((nextOf .doorStateChange (doorTurned false (dosing .stroke fun c => { c with stopPending := true }))).channel 0).cause = .stop ∧
    ((nextOf .doorStateChange (doorTurned false (doorWaiting true))).doorAt 0).map (·.2.2.phase) = some .ajar := by decide +kernel

/-- An operation with nothing to wind down, of every kind, in every case the statement names. -/
theorem test_cancelAtOnce_met : cancellable heatLate ∧ cancellable (draining none) ∧ cancellable (filling 0) ∧
    cancellable (circling 0) ∧ ¬(0 < (circling 0).circLevel) ∧ cancellable regenWaits ∧ regenWaits.regenQueued .l1 0 = true ∧
    cancellable (regenerating true .starting 0) ∧ (regenerating true .starting 0).regenQueued .l1 0 = false ∧
    cancellable (regenerating true .soak 15) ∧ cancellable (regenerating true .rinse 0) ∧
    (regenerating true .rinse 0).holdsHeld l1Op .inlet = false ∧
    cancellable (work (.doorPush (freshDoor 0 0 .waitQuiet)) idle) ∧ cancellable (drying .ajar) := by
  repeat' apply And.intro
  all_goals decide +kernel
theorem test_cancelWindsDown_met : cancellable (circling 1) ∧ (circling 1).atRest ∧ cancellable (drawing true 3) ∧
    (drawing true 3).atRest ∧ cancellable (rinsing true 3) ∧ (rinsing true 3).holdsHeld l1Op .inlet = true ∧
    (rinsing true 3).atRest ∧ cancellable (pushing .held id) ∧ (pushing .held id).atRest ∧ cancellable dryPushing ∧
    dryPushing.atRest ∧ cancellable (pushing .releasing id) ∧ (pushing .releasing id).atRest ∧
    cancellable (leased .doorDrive .releasing dryOp dryPushing) ∧ (leased .doorDrive .releasing dryOp dryPushing).atRest := by
  repeat' apply And.intro
  all_goals first | decide +kernel | exact all_resources (by decide +kernel)

theorem test_status_met : (drying .delay).hears .l1 1 ∧ (drying .delay).doorSlot = some 0 ∧ idle.doorSlot = none ∧
    idle.hears .l2 255 ∧ (filling 0).slotState 0 ⟨.l1, 7, .fill (freshFill 3), 0, 0, none⟩ = .active := by
  repeat' apply And.intro
  all_goals decide +kernel

/-- A latched flood whose leak point, 0, reads this. -/
def flooded (st : PointState) : State := role 0 .leak st { idle with prot := { idle.prot with flood := true } }

theorem test_trip_met : (flooded .clear).hears .l1 1 ∧ (flooded .clear).latched = true ∧
    (flooded .clear).roleGone .leak = true ∧ (flooded .clear).atRest ∧ (flooded .crossed).roleGone .leak = false ∧
    idle.latched = false ∧ (leased .drain .held ⟨.protect, none⟩
      { idle with prot := { idle.prot with force := .postrun, postrun := due } }).atRest := by
  repeat' apply And.intro
  all_goals first | decide +kernel | exact (atRest_of (by decide +kernel)).1
/-- A flood forces the drain, here with TANK_HIGH's force too, or not. -/
def forcing (overfill : Bool) : State :=
  leased .drain .held ⟨.protect, none⟩ (role 6 .tankHigh .crossed { idle with
    prot := { idle.prot with flood := true, overfill := overfill, force := .forcing, forceFlood := true, forceOverfill := overfill } })

theorem test_force_met : (deciding .leak .crossed (forcing false)).confirms 1 4001 5 .clear ∧
    (deciding .leak .crossed (forcing false)).atRest ∧
    (deciding .leak .crossed (noPostrun (forcing false))).confirms 1 4001 5 .clear ∧
    (deciding .leak .crossed (noPostrun (forcing false))).atRest ∧
    (deciding .leak .crossed (forcing true)).confirms 1 4001 5 .clear ∧ (deciding .leak .crossed (forcing true)).atRest ∧
    (deciding .leak .crossed (forcing true)).roleGone .tankHigh = false :=
  ⟨confirms_of (by decide +kernel), atRest_of (by decide +kernel), confirms_of (by decide +kernel), atRest_of (by decide +kernel),
    confirms_of (by decide +kernel), atRest_of (by decide +kernel), by decide +kernel⟩

/-- The force goes on to its post-run, or ends where there is none (R173). -/
theorem test_force : (nextOf (.measurementEnd 1 4001) (deciding .leak .crossed (forcing false))).prot.force = .postrun ∧
    (nextOf (.measurementEnd 1 4001) (deciding .leak .crossed (noPostrun (forcing false)))).prot.force = .off ∧
    (nextOf (.measurementEnd 1 4001) (deciding .leak .crossed (forcing true))).prot.force = .forcing := by decide +kernel

theorem test_latch_met : (filling 1).latched = false ∧ (filling 1).tableSafe ∧ (filling 1).prot.force = .off ∧
    ((filling 1).entry .drain).holder = none :=
  ⟨by decide, tableSafe_of (by decide +kernel), by decide, by decide +kernel⟩

/-- A flood takes the FILL, answers it TRIPPED and forces the drain (R171, R172, R173). -/
theorem test_flood : (((filling 1).handIn .flood 0).entry .inlet).lease = .free ∧
    (((filling 1).handIn .flood 0).entry .drain).holder = some ⟨.protect, none⟩ ∧
    (((filling 1).handIn .flood 0).port .l1).txq = [opResponse 7 .tripped [1, 0, 0, 0]] := by decide +kernel

theorem test_faultClear_met : (31 : Nat) < 32 ∧
    (∃ g : Fin 5, (nextOf (.faultClear .l1 1 30) (idle.fault .checkError 0 1)).prot.groups[g] ≠ none) ∧
    (∀ g : Fin 5, (nextOf (.faultClear .l1 1 1) (idle.fault .checkError 0 1)).prot.groups[g] = none) := by decide +kernel

/-- A first round in a new mode stays owed while priority measurements run (R124). -/
theorem test_owedRoundWaits :
    (Group.judgeDue 50 1 { State.reset.group 1 with
      fresh := true, round := some { mode := .watch, rest := [], own := false, results := [] } }).fresh = true := by
  decide +kernel

/-! ### Leases passed on, and the trips that a measurement latches -/

/-- The holder of a resource is asked to yield. -/
def asked (r : Resource) (s : State) : State := s.putEntry r { s.entry r with yieldRequested := true }

/-- Pool slot 1 holds this work for L2 with tag 8, and its operation waits for a resource. -/
def behind (r : Resource) (w : Work) (want : Option Column) (s : State) : State :=
  waiting r [⟨⟨.port .l2, some 1⟩, 4, want, false⟩] (s.setSlot 1 (some ⟨.l2, 8, w, 4, 0, none⟩))

/-- L1's DRAIN at the end of its post-run, with a DRAIN of L2 behind it, or one of its own port. -/
def drainPasses (own : Bool) : State :=
  let s := behind .drain (.drain ⟨Timer.zero, none⟩) none (draining (some due))
  if own then waiting .drain [⟨⟨.port .l1, some 1⟩, 4, none, false⟩] (s.setSlot 1 (some ⟨.l1, 8, .drain ⟨Timer.zero, none⟩, 4, 0, none⟩))
  else s

theorem test_drainPasses_met : (drainPasses false).calmBut .drain ∧ (drainPasses true).calmBut .drain ∧
    ((drainPasses false).entry .drain).waiters = [⟨⟨.port .l2, some 1⟩, 4, none, false⟩] ∧
    ((drainPasses true).entry .drain).waiters = [⟨⟨.port .l1, some 1⟩, 4, none, false⟩] ∧
    ((drainPasses false).entry .drain).lease = .held ∧ ((drainPasses false).entry .drain).positionsLegal ∧
    (drainPasses false).hasHolder .inlet = false ∧ 0 < (drainPasses false).drive.postrun ∧
    (∀ r, (drainPasses false).holds l1Op r = true → r = .drain) := by
  refine ⟨calmBut_of (by decide +kernel), calmBut_of (by decide +kernel), ?_, ?_, ?_, ⟨?_, ?_⟩, ?_, ?_,
    all_resources (by decide +kernel)⟩ <;> decide +kernel

/-- DRAIN goes to L2, whose place in the ring is written, and L1's release is on record (R10, R16). -/
theorem test_drain_passes : (nextOf .drainPostrunEnd (drainPasses false)).entry .drain =
    { (drainPasses false).entry .drain with
      holder := some ⟨.port .l2, some 1⟩, holderPort := some .l2, rrNormal := some (.port .l2),
      lastRelease := some (.port .l1, 0), waiters := [] } := by decide +kernel

/-- Channel 0 at the end of a stroke, asked to yield its pump to channel 1. -/
def pumpPasses : State :=
  asked (.dose 0) (waiting (.dose 0) [⟨channelWho 1, 0, none, false⟩]
    ((dosing .stroke id).setChannel 1 (loaded .waitingPump .none)))

theorem test_pumpPasses_met : pumpPasses.calmBut (.dose 0) ∧ pumpPasses.drive.strokes[(0 : Fin 3)] = ⟨true, 15⟩ ∧
    (pumpPasses.entry (.dose 0)).holder = some (channelWho 0) ∧ (pumpPasses.channel 0).step = .stroke ∧
    (pumpPasses.channel 1).state = .waitingPump ∧ pumpPasses.channelReservoir (pumpPasses.channel 1) = 0 ∧
    (pumpPasses.channel 0).completed + 1 ≠ (pumpPasses.channel 0).loaded ∧ 1 < (pumpPasses.channel 0).runLeft ∧
    ¬(pumpPasses.currentDesc (pumpPasses.channel 1)).needsWater = 1 ∧ (pumpPasses.entry (.dose 0)).positionsLegal ∧
    0 < pumpPasses.cfg.regrantHoldoff ∧ pumpPasses.acct.reservoirs[(0 : Fin 3)].empty = false := by
  refine ⟨calmBut_of (by decide +kernel), ?_, ?_, ?_, ?_, ?_, ?_, ?_, ?_, ⟨?_, ?_⟩, ?_, ?_⟩ <;> decide +kernel

/-- Channel 1 alone waits for a FREE pump. -/
def pumpFree : State := waiting (.dose 0) [⟨channelWho 1, 0, none, false⟩]
  ((dosed Channel.reset { idle with door := { idle.door with door := ⟨false, false, 0⟩ } }).setChannel 1 (loaded .waitingPump .none))

theorem test_doseStopWaiting_met : pumpPasses.hears .l1 1 ∧ pumpPasses.calmBut (.dose 0) ∧
    (pumpPasses.entry (.dose 0)).lease ≠ .free ∧ pumpPasses.channelPump (pumpPasses.channel 1) = .dose 0 ∧
    (pumpPasses.channel 1).state = .waitingPump ∧ pumpPasses.waitsFor (channelWho 1) (.dose 0) = true ∧
    (∀ k, (pumpPasses.entry (.dose 0)).holder = some (channelWho k) → (pumpPasses.channel k).step = .stroke) ∧
    (∀ r, r ≠ .dose 0 → pumpPasses.waitsFor (channelWho 1) r = false) ∧ pumpFree.hears .l1 1 ∧ pumpFree.calmBut (.dose 0) ∧
    (pumpFree.entry (.dose 0)).waiters = [⟨channelWho 1, 0, none, false⟩] ∧ (pumpFree.entry (.dose 0)).lease = .free ∧
    (pumpFree.channel 1).state = .waitingPump ∧
    (∀ r, r ≠ .dose 0 → pumpFree.waitsFor (channelWho 1) r = false) :=
  ⟨hears_of (by decide +kernel), calmBut_of (by decide +kernel), by decide +kernel, by decide +kernel, by decide +kernel,
    by decide +kernel, by decide +kernel,
    all_resources (P := fun r => r ≠ .dose 0 → pumpPasses.waitsFor (channelWho 1) r = false) (by decide +kernel),
    hears_of (by decide +kernel), calmBut_of (by decide +kernel), by decide +kernel, by decide +kernel, by decide +kernel,
    all_resources (P := fun r => r ≠ .dose 0 → pumpFree.waitsFor (channelWho 1) r = false) (by decide +kernel)⟩

/-- Channel 0 at the end of its interval, its pump SUSPENDED, or revoked. -/
def strokeLate (revoked : Bool) : State :=
  let s := dosing .interval fun c => { c with interval := due }
  if revoked then s.putEntry (.dose 0) Entry.reset else leased (.dose 0) .suspended (channelWho 0) s

theorem test_strokeCut_met : (strokeLate false).atRest ∧ (strokeLate true).atRest ∧
    (strokeLate false).holdsHeld (channelWho 0) (.dose 0) = false ∧ (strokeLate false).holds (channelWho 0) (.dose 0) = true ∧
    (strokeLate true).holds (channelWho 0) (.dose 0) = false ∧ ((strokeLate true).channel 0).stopPending = false := by
  repeat' apply And.intro
  all_goals first | decide +kernel | exact (atRest_of (by decide +kernel)).1

/-- A stroke start on a lease no longer HELD is not made and is reported as cut (R148). -/
theorem test_stroke_cut : ((nextOf (.doseIntervalEnd 0) (strokeLate false)).channel 0).cause = .door ∧
    ((nextOf (.doseIntervalEnd 0) (strokeLate true)).channel 0).cause = .trip ∧
    ((nextOf (.doseIntervalEnd 0) (strokeLate false)).channel 0).started = 0 := by decide +kernel

/-- L1's HEAT holds HEATER at a second that is due, and L3's HEAT waits; L3 is URGENT. -/
def heatAsked : State :=
  let s := work (.heat ⟨600, 60, Timer.zero, true⟩) (leased .heater .held l1Op heating)
  let s := waiting .heater [⟨⟨.port .l3, some 2⟩, 4, none, false⟩] (s.setSlot 2 (some ⟨.l3, 9, .heat ⟨600, 60, Timer.zero, false⟩, 4, 0, none⟩))
  { s with cfg := { s.cfg with portUrgent := #v[false, false, true] }, drive := { s.drive with secondDue := true } }

theorem test_heatYields_met : heatAsked.calmBut .heater ∧ heatAsked.cfg.yieldAsked 1 (heatAsked.entry .heater) ∧
    (heatAsked.entry .heater).holder = some l1Op ∧ heatAsked.interlockMet = true ∧ heatAsked.latched = false ∧
    heatAsked.hasHolder .doorDrive = false ∧ 0 < heatAsked.cfg.urgentTenure ∧ heatAsked.water.temperature < 600 := by
  refine ⟨calmBut_of (by decide +kernel), ⟨by decide +kernel, l1Op, by decide +kernel, by decide,
    ⟨⟨⟨.port .l3, some 2⟩, 4, none, false⟩, by decide +kernel, by decide +kernel, by decide⟩, .inl (by decide +kernel)⟩, ?_⟩
  decide +kernel

/-- The water is at L3's target. -/
def heatAskedDone : State := { heatAsked with water := { heatAsked.water with temperature := 600 } }

theorem test_heatYieldsDone_met : heatAskedDone.calmBut .heater ∧ heatAskedDone.inPlace ∧ heatAskedDone.interlockMet = true ∧
    (heatAskedDone.entry .heater).waiters = [⟨⟨.port .l3, some 2⟩, 4, none, false⟩] ∧ 0 < heatAskedDone.cfg.regrantHoldoff ∧
    heatAskedDone.cfg.yieldAsked 1 (heatAskedDone.entry .heater) ∧ (∀ c, (heatAskedDone.channel c).state ≠ .armed) ∧
    ((nextOf .runClockSecond heatAskedDone).entry .heater).holder = some l1Op :=
  ⟨calmBut_of (by decide +kernel), inPlace_of (by decide +kernel), by decide +kernel, by decide +kernel, by decide +kernel,
    ⟨by decide +kernel, l1Op, by decide +kernel, by decide,
      ⟨⟨⟨.port .l3, some 2⟩, 4, none, false⟩, by decide +kernel, by decide +kernel, by decide⟩, .inl (by decide +kernel)⟩,
    by decide +kernel, by decide +kernel⟩

/-- HEATER goes to L3's HEAT, whose time starts; L1's waits for it again (R10, R18, R19). -/
theorem test_heat_yields : ((nextOf .runClockSecond heatAsked).entry .heater).holder = some ⟨.port .l3, some 2⟩ ∧
    ((nextOf .runClockSecond heatAsked).entry .heater).grantTime = 1 ∧
    ((nextOf .runClockSecond heatAsked).entry .heater).waiters = [⟨l1Op, 0, none, false⟩] := by decide +kernel

/-- L1's CIRCULATE in the period before the second second of its run, asked to yield to L2's. -/
def circAsked : State :=
  asked .circ (behind .circ (.circulate ⟨50, 60, Timer.zero, false⟩) none
    (leased .circ .held l1Op (work (.circulate ⟨50, 60, ⟨49, false⟩, true⟩)
      { idle with drive := { idle.drive with circRamp := ⟨50, 0, false⟩, circ := ⟨50, 0, false⟩ } })))

theorem test_circYields_met : circAsked.catchUp = circAsked ∧ (circAsked.entry .circ).yieldRequested = true ∧
    (circAsked.entry .circ).holder = some l1Op ∧ 0 < circAsked.circLevel ∧ circAsked.heaterSafe ∧ circAsked.inPlace ∧
    circAsked.heatsInTime :=
  ⟨by decide +kernel, by decide +kernel, by decide +kernel, by decide +kernel, ⟨by decide +kernel, by decide +kernel⟩,
    inPlace_of (by decide +kernel), heatsInTime_of (by decide +kernel)⟩

/-- The run of a CIRCULATE comes to a whole second with its count, and a run not counted at this period end does not (R42). -/
theorem test_circ_second : ((circAsked.setWork 0 (.circulate ⟨50, 60, ⟨50, false⟩, true⟩)).circSecond = some 0) ∧
    circAsked.circSecond = none ∧ ((circAsked.circYield none).entry .circ).lease = .held ∧
    ((circAsked.circYield (some 0)).entry .circ).lease = .releasing := by decide +kernel

/-- The wind-down of CIRC ends with a CIRCULATE of L2 behind it. -/
def circPasses : State :=
  behind .circ (.circulate ⟨70, 60, Timer.zero, false⟩) none (leased .circ .releasing l1Op (circling 1))

theorem test_circPasses_met : circPasses.calmBut .circ ∧ circPasses.drive.circRamp = ⟨1, 0, true⟩ ∧
    (circPasses.entry .circ).lease = .releasing ∧ circPasses.doorClosed = true ∧ circPasses.latched = false ∧
    (circPasses.entry .circ).positionsLegal ∧ circPasses.hasHolder .doorDrive = false := by
  refine ⟨calmBut_of (by decide +kernel), ?_, ?_, ?_, ?_, ⟨?_, ?_⟩, ?_⟩ <;> decide +kernel

/-- L1's FILL at the last soft decilitre of column A, with column B in this state. -/
def exhausting (counted tank : Nat) (other : ColumnState) (bypass : Bool) : State :=
  let s := ((filling counted).setColumn .a ⟨.inService, 30, 0, .none, none⟩).setColumn .b ⟨other, 9000, 0, .none, none⟩
  { s with cfg := { s.cfg with exhaustBypass := bypass }, water := { s.water with tank := tank }, acct := { s.acct with hardness := 30 } }

/-- The salt is out. -/
def saltless (s : State) : State := { s with acct := { s.acct with salt := ⟨0, true, false⟩ } }

theorem test_exhausts_met : (exhausting 0 0 .standby true).atRest ∧ (exhausting 0 0 .exhausted true).atRest ∧
    (exhausting 0 0 .exhausted false).atRest ∧ (exhausting 2 0 .standby true).atRest ∧
    ((exhausting 0 0 .standby true).column .a).remaining ≤ (exhausting 0 0 .standby true).acct.hardness ∧
    (exhausting 0 59 .standby true).cfg.tankLimit ≤ min 255 ((exhausting 0 59 .standby true).water.tank + 1) ∧
    (∀ j, j ≠ 0 → (exhausting 0 0 .standby true).fillAt j = none) ∧
    (∀ r, (exhausting 0 0 .standby true).holds l1Op r = true → r = .inlet ∨ r = .selector) ∧
    (((exhausting 0 0 .standby true).setColumn .a ⟨.inService, 20000, 0, .none, some 0⟩).column .a).breakthrough = some 0 ∧
    (saltless (exhausting 0 0 .standby true)).atRest ∧ (saltless (exhausting 0 0 .standby true)).acct.salt = ⟨0, true, false⟩ ∧
    (saltless (exhausting 0 0 .standby true)).soft.saltWait = false ∧ (exhausting 0 0 .standby true).soft.queue = [] ∧
    ({ exhausting 0 0 .exhausted false with cfg := { (exhausting 0 0 .exhausted false).cfg with autoRegen := false } } : State).atRest := by
  repeat' apply And.intro
  all_goals first | decide +kernel | exact all_resources (by decide +kernel)

/-- What `FillExhaustsHeadTaken` asks beside that: the regeneration of column A can begin. -/
theorem test_exhaustsHead_met : (exhausting 0 0 .standby true).mode = .run ∧ (exhausting 0 0 .standby true).soft.regen = none ∧
    (exhausting 0 0 .standby true).latched = false ∧ (exhausting 0 0 .standby true).cfg.autoRegen = true ∧
    (exhausting 0 0 .standby true).cfg.regenUrgent = false ∧ (exhausting 0 0 .standby true).acct.salt.known = false ∧
    (exhausting 0 0 .standby true).doorClosed = true ∧ (exhausting 0 0 .standby true).hasHolder .doorDrive = false ∧
    (exhausting 2 0 .exhausted true).atRest ∧ (exhausting 0 59 .exhausted true).atRest := by
  repeat' apply And.intro
  all_goals first | decide +kernel | exact all_resources (by decide +kernel)

/-- Step 5 of the first example of chapter 2: in the decilitre that exhausts column A its regeneration asks for SELECTOR, behind the
FILL that moves to column B; a FILL that ends in it passes SELECTOR on (R55, R62, R64). -/
theorem test_exhausts_head :
    ((nextOf .flowPulse (exhausting 0 0 .standby true)).entry .selector).waiters = [⟨⟨.regen, none⟩, 0, some .a, false⟩] ∧
    ((nextOf .flowPulse (exhausting 0 0 .standby true)).soft.regen.map (·.phase)) = some .starting ∧
    ((nextOf .flowPulse (exhausting 2 0 .standby true)).entry .selector).holder = some ⟨.regen, none⟩ ∧
    ((nextOf .flowPulse (exhausting 2 0 .standby true)).soft.regen.map (·.phase)) = some .brineDraw ∧
    (nextOf .flowPulse (saltless (exhausting 0 0 .standby true))).soft.saltWait = true := by decide +kernel

/-- Step 6 of the second example of chapter 3: the rinse of column B ends while a FILL of L1 waits for soft water and column A is
queued; the FILL has SELECTOR where its ring is served first, and the regeneration where REGEN is URGENT (R10, R58, R62, R69). -/
def rinseEnds (regenUrgent : Bool) : State :=
  let s := (rinsing false 7).setColumn .a ⟨.exhausted, 0, 0, .none, none⟩
  let s := (s.setQueue [⟨.a, none, 0⟩]).setSlot 1 (some ⟨.l1, 8, .fill { freshFill 10 with counted := 2, waitSoft := true }, 4, 0, none⟩)
  { s with arb := { s.arb with selHeld := .b, selCurrent := some .b }, cfg := { s.cfg with regenUrgent := regenUrgent, portUrgent := #v[!regenUrgent, false, false] } }

theorem test_rinse_head :
    ((nextOf .flowPulse (rinseEnds false)).entry .selector).holder = some ⟨.port .l1, some 1⟩ ∧
    ((nextOf .flowPulse (rinseEnds false)).entry .selector).waiters.map (·.who) = [⟨.regen, none⟩] ∧
    ((nextOf .flowPulse (rinseEnds false)).soft.queue = []) ∧
    ((nextOf .flowPulse (rinseEnds true)).entry .selector).holder = some ⟨.regen, none⟩ ∧
    ((nextOf .flowPulse (rinseEnds true)).entry .selector).waiters.map (·.who) = [⟨.port .l1, some 1⟩] := by decide +kernel

/-- The FILL moves its selector to column B, flows on as bypass, or waits for soft water, SELECTOR then passing to the regeneration
(R57, R58, R62). -/
theorem test_exhausts : ((nextOf .flowPulse (exhausting 0 0 .standby true)).entry .selector).lease = .moving ∧
    ((nextOf .flowPulse (exhausting 0 0 .exhausted true)).entry .inlet).lease = .held ∧
    ((nextOf .flowPulse (exhausting 0 0 .exhausted false)).entry .selector).holder = some ⟨.regen, none⟩ ∧
    ((nextOf .flowPulse (saltless (exhausting 0 0 .exhausted false))).entry .selector).lease = .free ∧
    ((nextOf .flowPulse (exhausting 0 59 .standby true)).port .l1).txq = [opResponse 7 .limit [1, 1, 0, 0]] := by
  decide +kernel

/-- L1's FILL at a decilitre, asked to yield SELECTOR to L2's. -/
def pathAsked : State := asked .selector (behind .selector (.fill (freshFill 2)) (some .a) (filling 0))

theorem test_fillYields_met : pathAsked.calmBut .selector ∧
    (pathAsked.entry .selector).waiters = [⟨⟨.port .l2, some 1⟩, 4, some .a, false⟩] ∧
    (pathAsked.entry .selector).yieldRequested = true ∧ pathAsked.soft.regen = none ∧
    pathAsked.inService = some pathAsked.arb.selHeld ∧ pathAsked.arb.selCurrent = some pathAsked.arb.selHeld ∧
    pathAsked.acct.hardness < (pathAsked.column .a).remaining ∧ (∀ c, (pathAsked.column c).breakthrough ≠ some 0) ∧
    (pathAsked.entry .selector).positionsLegal ∧ pathAsked.hasHolder .drain = false := by
  refine ⟨calmBut_of (by decide +kernel), ?_, ?_, ?_, ?_, ?_, ?_, all_columns (by decide +kernel), ⟨?_, ?_⟩, ?_⟩ <;>
    decide +kernel

/-- L2's FILL has SELECTOR and INLET in the same step, and L1's waits for SELECTOR again (R13, R19, R34). -/
theorem test_fill_yields : ((nextOf .flowPulse pathAsked).entry .inlet).holder = some ⟨.port .l2, some 1⟩ ∧
    ((nextOf .flowPulse pathAsked).entry .selector).waiters = [⟨l1Op, 0, some .a, false⟩] := by decide +kernel

/-- An idle part in which an OVERTEMP trip is latched. -/
def tripped : State := { idle with prot := { idle.prot with overtemp := true } }

theorem test_leakTrips_met : (deciding .leak .clear (filling 1)).confirms 1 3999 5 .crossed ∧
    (deciding .leak .unseen (filling 1)).confirms 1 3999 5 .crossed ∧
    (deciding .tankHigh .clear (filling 1)).confirms 1 3999 5 .crossed ∧ (deciding .leak .clear (filling 1)).tableSafe ∧
    (deciding .leak .clear (filling 1)).prot.force = .off ∧ ((deciding .leak .clear (filling 1)).entry .drain).holder = none ∧
    (deciding .leak .clear (filling 1)).cfg.capture[faultKindIndex .flood] = true ∧
    (deciding .leak .clear tripped).tableSafe ∧ (deciding .leak .clear tripped).confirms 1 3999 5 .crossed :=
  ⟨confirms_of (by decide +kernel), confirms_of (by decide +kernel), confirms_of (by decide +kernel),
    tableSafe_of (by decide +kernel), by decide +kernel, by decide +kernel, by decide +kernel, tableSafe_of (by decide +kernel),
    confirms_of (by decide +kernel)⟩
theorem test_overtemp_met : heating.tableSafe ∧ heating.cfg.overtempLimit ≤ (850 : Int).toNat ∧ heating.prot.overtemp = false ∧
    heating.cfg.capture[faultKindIndex .overtemp] = true ∧ heating.prot.groups[faultGroupIndex .protect] = none :=
  ⟨tableSafe_of (by decide +kernel), by decide +kernel, by decide, by decide +kernel, by decide +kernel⟩

/-- A flood whose leak point reads CLEAR again, a regeneration of column A at the head of the queue, two free subscriptions. -/
def floodQueued : State :=
  let s := role 0 .leak .clear { headFree (some .a) with prot := { idle.prot with flood := true } }
  s.setPort .l1 { s.port .l1 with subs := upd (upd (s.port .l1).subs 1 ⟨0, 0, true, none, false⟩) 4 ⟨0, 0, true, none, false⟩ }

theorem test_tripHead_met : floodQueued.hears .l1 1 ∧ floodQueued.latched = true ∧ floodQueued.roleGone .leak = true ∧
    floodQueued.soft.queue = [⟨.a, none, 0⟩] := by
  repeat' apply And.intro
  all_goals decide +kernel

/-- Step 6 of the first example of chapter 9: after TRIP_CLEAR the regeneration holds SELECTOR, and TRIP_CLEARED is the last report
(R175). -/
theorem test_trip_clear : ((nextOf (.tripClear .l1 1) floodQueued).entry .selector).holder = some ⟨.regen, none⟩ ∧
    ((nextOf (.tripClear .l1 1) floodQueued).entry .selector).lease = .held ∧
    (((nextOf (.tripClear .l1 1) floodQueued).port .l1).subs[(1 : SubId)].held.map (·.code)) = some (eventCode .regenStarted) ∧
    (((nextOf (.tripClear .l1 1) floodQueued).port .l1).subs[(4 : SubId)].held.map (·.code)) = some (eventCode .tripCleared) := by
  decide +kernel

/-! ### Law 5, its second half -/

/-- L1's FILL flows through column A while column B regenerates, and a pulse is to be taken. -/
def washes : State :=
  let s := (filling 1).setRegen (some ⟨.b, none, .soak, 4, 0, Timer.zero, Timer.zero, false, .none, true, false, false, 30⟩)
  { s.setColumn .b ⟨.regenerating, 0, 0, .none, none⟩ with pending := [.flowPulse] }

/-- Its slot. -/
def washing : Slot := ⟨.l1, 7, .fill { freshFill 3 with counted := 1, pulses := 11, noFlow := due }, 0, 0, none⟩

theorem washes_placed : washes.placed := by
  have slots : ∀ j : SlotId, washes.pool[j] = if j = 0 then some washing else none := by decide +kernel
  have waits : ∀ r w, w ∉ (washes.entry r).waiters := fun r w h => by
    rw [all_resources (P := fun r => (washes.entry r).waiters = []) (by decide +kernel) r] at h; cases h
  have holds : ∀ r h, (washes.entry r).holder = some h → (r = .selector ∨ r = .inlet) ∧ h = l1Op := by
    intro r h e
    rw [all_resources (P := fun r => (washes.entry r).holder = if r = .selector ∨ r = .inlet then some l1Op else none)
      (by decide +kernel) r] at e
    split at e <;> cases e
    exact ⟨‹_›, rfl⟩
  have fills : ∀ j : SlotId, ((washes.fillAt j).all fun x =>
      !washes.waitsFor (slotWho j x.1) .selector && !x.2.waitSoft) = true := by decide +kernel
  have doors : ∀ j : SlotId, washes.doorAt j = none := by decide +kernel
  refine
    { waits := fun r w h => absurd h (waits r w)
      holds := fun r h i e k => ?_
      ending := fun i sl h k => ?_
      door := fun i sl dry w h => by rw [doors i] at h; cases h
      retract := by decide +kernel
      position := by decide +kernel
      fills := fun i sl w h => ?_
      regen := ⟨fun h e k => ?_, fun w h => absurd h (waits _ w), fun h e k => ?_, fun w h => absurd h (waits _ w)⟩
      brine := ⟨fun h e => ?_, fun w h => absurd h (waits _ w)⟩
      flow := fun g e k => ?_ }
  · obtain ⟨hr, rfl⟩ := holds r h e
    cases k
    exact .inr ⟨washing, by decide +kernel, rfl, rfl, by rcases hr with rfl | rfl <;> decide⟩
  · rw [slots i] at h
    split at h <;> cases h
    exact absurd rfl k
  · have hf := fills i
    rw [h] at hf
    simp only [Option.all_some, Bool.and_eq_true, Bool.not_eq_true'] at hf
    refine ⟨fun k => ?_, fun k => ?_⟩
    · rw [hf.1] at k; cases k
    · rw [hf.2] at k; cases k
  · obtain ⟨-, rfl⟩ := holds _ h e; cases k
  · obtain ⟨-, rfl⟩ := holds _ h e; cases k
  · exact absurd (holds _ h e).1 (by decide)
  · exact absurd k (by cases e; decide +kernel)

theorem test_fillWater_met : washes.tableSafe ∧ washes.queueLegal ∧ washes.placed ∧ washes.fillSafe ∧ ∃ t, step washes = .next t := by
  have hu : ∀ b h, h = l1Op → washes.pathUser b h := fun b h e i hi => by
    subst e
    obtain rfl : (0 : SlotId) = i := Option.some.inj hi
    exact .inl ⟨(⟨.l1, 7, .fill { freshFill 3 with counted := 1, pulses := 11, noFlow := due }, 0, 0, none⟩,
      { freshFill 3 with counted := 1, pulses := 11, noFlow := due }), by decide +kernel, rfl⟩
  have hs : (washes.entry .selector).holder = some l1Op := by decide +kernel
  have hi : (washes.entry .inlet).holder = some l1Op := by decide +kernel
  have ws : ∀ w, w ∉ (washes.entry .selector).waiters := by
    rw [show (washes.entry .selector).waiters = [] by decide +kernel]; exact fun _ => List.not_mem_nil
  have wi : ∀ w, w ∉ (washes.entry .inlet).waiters := by
    rw [show (washes.entry .inlet).waiters = [] by decide +kernel]; exact fun _ => List.not_mem_nil
  have hr : washes.soft.regen = some ⟨.b, none, .soak, 4, 0, Timer.zero, Timer.zero, false, .none, true, false, false, 30⟩ := rfl
  have hq : ∀ q, q ∉ washes.soft.queue := fun _ => List.not_mem_nil
  have hn : ∀ c, (washes.column c).breakthrough = none := all_columns (by decide +kernel)
  refine ⟨tableSafe_of (by decide +kernel), ⟨by decide, by decide, fun _ _ q h => absurd h (hq q)⟩, washes_placed,
    { regenerating := fun c => ?_, standby := fun _ => all_columns (by decide +kernel)
      marked := fun c i h => by rw [hn c] at h; cases h
      asked := fun c p i h => ?_, quiet := fun h => by cases h
      users := ⟨fun h e => hu _ h ?_, fun w h => absurd h (ws w), fun h e => hu _ h ?_, fun w h => absurd h (wi w)⟩
      asking := fun w h => absurd h (wi w)
      flow := fun h i e _ _ => ?_ }, _, rfl⟩
  · rw [hr]
    cases c
    · exact ⟨fun h => by revert h; decide +kernel, fun ⟨g, e, k, _⟩ => by cases e; cases k⟩
    · exact ⟨fun _ => ⟨_, rfl, rfl, by decide⟩, fun _ => by decide +kernel⟩
  · rcases h with ⟨q, h, _⟩ | ⟨g, h, _, k⟩
    · exact absurd h (hq q)
    · rw [hr] at h; cases h; cases k
  · rw [hs] at e; cases e; rfl
  · rw [hi] at e; cases e; rfl
  · rw [hi] at e; cases e; decide +kernel

end Sys2Proof.Tests
end

/-! The requests that read the accounts: ACCOUNTS_READ (R92) and READ_DRAWS (R90). A read takes its values after the frame has
left the receiver SYNCED; they are those of the state before it, since no account stands in the receiver. -/

namespace Sys2Proof.Machine

/-! ### Requests that only read -/

/-- A request that only reads is answered OK with the values as they stand when it is taken, provided that they do not depend on
the receiver (R183 case 7). -/
theorem immediate_reads {s : State} {p : Port} {tag : Nat} (h : s.hears p tag) (values : State → List Byte)
    (hv : values (s.setRx p .synced) = values s) :
    s.immediate p tag (fun t => t.reply p tag .ok (values t)) = s.answered p tag .ok (values s) := by
  rw [immediate_hears h, hv, State.answered]

/-! ### Values of the accounts and the receiver -/

@[simp] theorem State.columnBytes_setRx (s : State) (p : Port) (rx : RxState) (c : Column) :
    (s.setRx p rx).columnBytes c = s.columnBytes c := by
  cases c <;> simp only [State.columnBytes, State.column, State.rated, State.setRx_soft, State.setRx_cfg]

@[simp] theorem State.oldestDraw_setRx (s : State) (p : Port) (rx : RxState) :
    (s.setRx p rx).oldestDraw = s.oldestDraw := by
  simp only [State.oldestDraw, State.setRx_acct]

@[simp] theorem State.drawsFrom_setRx (s : State) (p : Port) (rx : RxState) (start : Nat) :
    (s.setRx p rx).drawsFrom start = s.drawsFrom start := by
  simp only [State.drawsFrom, State.setRx_acct]

@[simp] theorem State.accountBytes_setRx (s : State) (p : Port) (rx : RxState) :
    (s.setRx p rx).accountBytes = s.accountBytes := by
  simp only [State.accountBytes, State.columnBytes_setRx, State.oldestDraw_setRx, State.setRx_acct, State.setRx_cfg,
    State.setRx_water]

/-! ### The draw log (R90) -/

/-- The oldest number held is the number at the head of the log. -/
theorem State.oldestDraw_eq_head (s : State) :
    s.oldestDraw = (s.acct.log.head?.map fun r => r.number).getD s.acct.nextDraw := by
  unfold State.oldestDraw
  cases s.acct.log with
  | nil => rfl
  | cons r rest => rfl

/-- The list that READ_DRAWS returns begins with the number of its records. -/
theorem listField_draws (l : List DrawRecord) :
    listField (l.map drawBytes) = byte1 l.length ++ (l.map drawBytes).flatten := by
  rw [listField, List.length_map]

/-! ### The two requests -/

theorem exec_accountsRead {s : State} {p : Port} {tag : Nat} (h : s.hears p tag) :
    exec (.accountsRead p tag) s = .next (s.answered p tag .ok s.accountBytes) :=
  congrArg Host.Outcome.next (immediate_reads h State.accountBytes (s.accountBytes_setRx p .synced))

theorem exec_readDraws {s : State} {p : Port} {tag : Nat} (h : s.hears p tag) (start : Nat) :
    exec (.readDraws p tag start) s = .next (s.answered p tag .ok
      (byte2 s.oldestDraw ++ byte2 s.acct.nextDraw ++ listField ((s.drawsFrom start).map drawBytes))) := by
  refine congrArg Host.Outcome.next (immediate_reads h
    (fun t => byte2 t.oldestDraw ++ byte2 t.acct.nextDraw ++ listField ((t.drawsFrom start).map drawBytes)) ?_)
  simp only [State.oldestDraw_setRx, State.setRx_acct, State.drawsFrom_setRx]

/-- Settles O58: the values are those of the model's own account, which the receiver does not touch; the columns and reservoirs are
written out field by field, and the oldest draw is the head of the log. -/
theorem accountsReadGives : Obligations.AccountsReadGives := by
  intro s p tag h
  rw [exec_accountsRead h, State.accountBytes, State.oldestDraw_eq_head]
  rfl

/-- Settles O59: the records are the first eight of the log at or after the starting number, counted before they are listed. -/
theorem readDrawsGives : Obligations.ReadDrawsGives := by
  intro s p tag start h _
  rw [exec_readDraws h, State.oldestDraw_eq_head, listField_draws, ← List.append_assoc]
  rfl

end Sys2Proof.Machine

/-! The requests that name a dose channel: the channel's number judged (R97 to R101, R115 to R118), DOSE_CLEAR_TRIGGER (R101) and
DOSE_STATUS (R118). Neither the channels nor the leases stand in the receiver, so both requests find them as they stood before the
frame was taken. -/

namespace Sys2Proof.Machine

/-! ### A number read as a member of a finite list -/

theorem finOf_val {n : Nat} (k : Fin n) : finOf n k.val = some k := dif_pos k.isLt

theorem finOf_eq_none {n k : Nat} (h : n ≤ k) : finOf n k = none := dif_neg (Nat.not_lt.mpr h)

/-! ### A request that names a channel -/

theorem State.onChannel_val (s : State) (p : Port) (tag : Nat) (c : ChannelId) (act : ChannelId → State) :
    s.onChannel p tag c.val act = act c := by
  rw [State.onChannel, finOf_val]

theorem State.onChannel_badParam (s : State) (p : Port) (tag : Nat) {channel : Nat} (h : 4 ≤ channel)
    (act : ChannelId → State) : s.onChannel p tag channel act = s.reply p tag .badParam [] := by
  rw [State.onChannel, finOf_eq_none h]

/-! ### The dose channels and their leases under a change of the receiver -/

@[simp] theorem State.channel_setRx (s : State) (p : Port) (rx : RxState) (c : ChannelId) :
    (s.setRx p rx).channel c = s.channel c :=
  State.channel_congr (s.setRx_dose p rx) c

/-- The receiver and a channel are written independently of each other. -/
theorem State.setChannel_setRx (s : State) (p : Port) (rx : RxState) (c : ChannelId) (ch : Channel) :
    (s.setRx p rx).setChannel c ch = (s.setChannel c ch).setRx p rx := by
  cases p <;> rfl

@[simp] theorem State.entry_setRx (s : State) (p : Port) (rx : RxState) (r : Resource) :
    (s.setRx p rx).entry r = s.entry r :=
  State.entry_congr (congrArg Arbiter.table (s.setRx_arb p rx)) r

@[simp] theorem State.waitsFor_setRx (s : State) (p : Port) (rx : RxState) (who : Holder) (r : Resource) :
    (s.setRx p rx).waitsFor who r = s.waitsFor who r := by
  simp only [State.waitsFor, State.entry_setRx]

@[simp] theorem State.holds_setRx (s : State) (p : Port) (rx : RxState) (who : Holder) (r : Resource) :
    (s.setRx p rx).holds who r = s.holds who r := by
  simp only [State.holds, State.hasHolder, State.entry_setRx]

@[simp] theorem State.currentDesc_setRx (s : State) (p : Port) (rx : RxState) (ch : Channel) :
    (s.setRx p rx).currentDesc ch = s.currentDesc ch := by
  simp only [State.currentDesc, State.setRx_dose]

@[simp] theorem State.channelPump_setRx (s : State) (p : Port) (rx : RxState) (ch : Channel) :
    (s.setRx p rx).channelPump ch = s.channelPump ch := by
  simp only [State.channelPump, State.channelReservoir, State.currentDesc_setRx]

@[simp] theorem State.channelLease_setRx (s : State) (p : Port) (rx : RxState) (c : ChannelId) :
    (s.setRx p rx).channelLease c = s.channelLease c := by
  simp only [State.channelLease, State.channel_setRx, State.channelPump_setRx, State.waitsFor_setRx, State.holds_setRx,
    State.entry_setRx]

@[simp] theorem State.channelBytes_setRx (s : State) (p : Port) (rx : RxState) (c : ChannelId) :
    (s.setRx p rx).channelBytes c = s.channelBytes c := by
  simp only [State.channelBytes, State.channel_setRx, State.channelLease_setRx]

/-! ### DOSE_CLEAR_TRIGGER (R101) -/

theorem flagByte_eq_ite (b : Bool) : flagByte b = byte1 (if b = true then 1 else 0) := by
  cases b <;> rfl

theorem exec_doseClearTrigger_badParam {s : State} {p : Port} {tag channel : Nat} (h : s.hears p tag) (hc : 4 ≤ channel) :
    exec (.doseClearTrigger p tag channel) s = .next (s.answered p tag .badParam []) := by
  refine congrArg Host.Outcome.next ((immediate_hears h _).trans ?_)
  rw [State.onChannel_badParam _ _ _ hc, State.answered]

theorem exec_doseClearTrigger_val {s : State} {p : Port} {tag : Nat} (h : s.hears p tag) (c : ChannelId) :
    exec (.doseClearTrigger p tag c.val) s = .next
      ((s.setChannel c { s.channel c with flag := false }).answered p tag .ok (flagByte (s.channel c).flag)) := by
  refine congrArg Host.Outcome.next ((immediate_hears h _).trans ?_)
  simp only [State.onChannel_val, State.channel_setRx, State.setChannel_setRx, State.answered]

/-- Settles O36: outside 0..3 the number names no channel; else the flag is answered as it stood, and its clearing does not meet the
receiver, where the answer is put. -/
theorem doseClearTriggerClears : Obligations.DoseClearTriggerClears := by
  intro s p tag channel h
  refine ⟨exec_doseClearTrigger_badParam h, ?_⟩
  rintro c rfl
  rw [exec_doseClearTrigger_val h, flagByte_eq_ite]

/-! ### DOSE_STATUS (R118) -/

theorem exec_doseStatus_badParam {s : State} {p : Port} {tag channel : Nat} (h : s.hears p tag) (hc : 4 ≤ channel)
    (hn : channel ≠ 255) : exec (.doseStatus p tag channel) s = .next (s.answered p tag .badParam []) := by
  refine congrArg Host.Outcome.next ((immediate_hears h _).trans ?_)
  rw [if_neg hn, State.onChannel_badParam _ _ _ hc, State.answered]

theorem exec_doseStatus_all {s : State} {p : Port} {tag : Nat} (h : s.hears p tag) :
    exec (.doseStatus p tag 255) s = .next (s.answered p tag .ok (allChannels.flatMap s.channelBytes)) :=
  congrArg Host.Outcome.next (immediate_reads h (fun t => allChannels.flatMap t.channelBytes)
    (List.flatMap_congr fun c _ => s.channelBytes_setRx p .synced c))

theorem exec_doseStatus_val {s : State} {p : Port} {tag : Nat} (h : s.hears p tag) (c : ChannelId) :
    exec (.doseStatus p tag c.val) s = .next (s.answered p tag .ok (s.channelBytes c)) := by
  have hn : c.val ≠ 255 := by omega
  refine congrArg Host.Outcome.next ((immediate_hears h _).trans ?_)
  rw [if_neg hn, State.onChannel_val, State.channelBytes_setRx, State.answered]

/-- The list of all channels is read in channel order. -/
theorem flatMap_allChannels {α : Type} (f : ChannelId → List α) :
    allChannels.flatMap f = f 0 ++ f 1 ++ f 2 ++ f 3 := by
  simp only [allChannels, List.flatMap_cons, List.flatMap_nil, List.append_nil, List.append_assoc]

/-- Settles O38: 255 gives all channels and a number within 0..3 its own; the fields are those of the model's own channel record, with
its remaining count and its lease written out. -/
theorem doseStatusGives : Obligations.DoseStatusGives := by
  intro s p tag channel h
  refine ⟨exec_doseStatus_badParam h, ?_, fun c => ⟨exec_doseStatus_val h c, ?_⟩⟩
  · rw [exec_doseStatus_all h, flatMap_allChannels]
  · rw [State.channelBytes, State.channelLease, Channel.remaining, optByte]

end Sys2Proof.Machine

/-! Fault capture (R177) and FAULT_CLEAR (R179): what a posted fault records, and which records a clear empties. Both write the
Protection Unit's share of the state; what else changes is a port's: the report of a record made, the answer to a clear. -/

namespace Sys2Proof.Machine

/-! ### Frames -/

theorem State.same_trans {s t u : State} {b : Block} (hst : s.same t b) (htu : t.same u b) : s.same u b := by
  cases b with
  | accepted => exact ⟨htu.1.trans hst.1, htu.2.trans hst.2⟩
  | _ => exact Eq.trans htu hst

/-- Two changes one after the other leave what both leave. -/
theorem State.keepsBut_trans {s t u : State} {l m : List Block} (hst : s.keepsBut t l) (htu : t.keepsBut u m) :
    s.keepsBut u (l ++ m) := fun b hb =>
  have ⟨hl, hm⟩ := not_or.mp (List.mem_append.not.mp hb)
  State.same_trans (hst b hl) (htu b hm)

theorem State.keepsBut_withProt (s : State) (pr : Protection) : s.keepsBut { s with prot := pr } [.prot] := by
  intro b hb
  cases b with
  | prot => exact absurd List.mem_cons_self hb
  | accepted => exact ⟨rfl, rfl⟩
  | _ => rfl

theorem State.keepsBut_setPort (s : State) (p : Port) (ps : PortState) : s.keepsBut (s.setPort p ps) [.ports] := by
  intro b hb
  cases b with
  | ports => exact absurd List.mem_cons_self hb
  | accepted => cases p <;> exact ⟨rfl, rfl⟩
  | _ => cases p <;> rfl

theorem State.keepsBut_answered (s : State) (p : Port) (tag : Nat) (o : OutcomeCode) (fields : List Byte) :
    s.keepsBut (s.answered p tag o fields) [.ports] := by
  have hsynced := s.keepsBut_setPort p { s.port p with rx := .synced }
  have hsent := (s.setRx p .synced).keepsBut_setPort p
  intro b hb
  exact State.same_trans (hsynced b hb) (hsent _ b hb)

/-! ### A fault posted (R177) -/

/-- The state in which the fault is its group's record, not yet reported. -/
def State.withRecord (s : State) (k : FaultKind) (subject detail : Nat) : State :=
  { s with prot := { s.prot with
      groups := upd s.prot.groups (faultGroupIndex (faultGroupOf k)) (some ⟨k, subject, s.drive.clock, detail⟩) } }

/-- Only the record of the fault's own group is written. -/
theorem State.withRecord_groups (s : State) (k : FaultKind) (subject detail : Nat) (g : Fin 5) :
    (s.withRecord k subject detail).prot.groups[g] =
      if g = faultGroupIndex (faultGroupOf k) then some ⟨k, subject, s.drive.clock, detail⟩ else s.prot.groups[g] :=
  upd_get _ _ _ _

theorem State.fault_captureOff {s : State} {k : FaultKind} (h : s.cfg.capture[faultKindIndex k] = false)
    (subject detail : Nat) : s.fault k subject detail = s := by
  rw [State.fault, if_neg (Bool.eq_false_iff.mp h)]

theorem State.fault_groupHeld {s : State} {k : FaultKind} {r : FaultRecord}
    (h : s.cfg.capture[faultKindIndex k] = true) (hr : s.prot.groups[faultGroupIndex (faultGroupOf k)] = some r)
    (subject detail : Nat) : s.fault k subject detail = { s with prot := { s.prot with multiple := true } } := by
  rw [State.fault, if_pos h]
  exact if_neg (by rw [hr]; exact Bool.false_ne_true)

theorem State.fault_groupEmpty {s : State} {k : FaultKind}
    (h : s.cfg.capture[faultKindIndex k] = true) (hg : s.prot.groups[faultGroupIndex (faultGroupOf k)] = none)
    (subject detail : Nat) : s.fault k subject detail = (s.withRecord k subject detail).post .faultCaptured
      (faultGroupIndex (faultGroupOf k)).val (faultKindCode k) := by
  rw [State.fault, if_pos h]
  exact if_pos (by rw [hg]; rfl)

/-- Settles O14: the three cases of R177 are the two tests of a posted fault, its capture enable and then its group; what is
reported is the state with the record, which differs in that record alone. -/
theorem faultCaptured : Obligations.FaultCaptured := by
  intro s k subject detail
  refine ⟨fun hoff => State.fault_captureOff hoff subject detail,
    fun hon _ hr => State.fault_groupHeld hon hr subject detail, fun hon hg => ?_⟩
  exact ⟨s.withRecord k subject detail, State.fault_groupEmpty hon hg subject detail, s.keepsBut_withProt _, rfl,
    s.withRecord_groups k subject detail, rfl, rfl, rfl, rfl⟩

/-! ### The records a clear empties (R179) -/

/-- The set of groups names a group by the bit of its place. -/
theorem named_eq_testBit (groups : Nat) (g : Fin 5) : named groups g = groups.testBit g.val :=
  (Nat.testBit_eq_decide_div_mod_eq ..).symm

theorem Protection.heldOf_eq (pr : Protection) (groups : Nat) :
    pr.heldOf groups = ((List.finRange 5).map fun g =>
      if groups.testBit g.val && pr.groups[g].isSome then 2 ^ g.val else 0).sum := by
  simp only [Protection.heldOf, named_eq_testBit]

/-- Emptying the named groups in turn is emptying each group of the filtered list, which holds no group twice. -/
theorem Protection.cleared_groups (pr : Protection) (groups : Nat) (g : Fin 5) :
    (pr.cleared groups).groups[g] = if groups.testBit g.val then none else pr.groups[g] := by
  have hfold : (pr.cleared groups).groups =
      ((List.finRange 5).filter (named groups)).foldl (fun v i => upd v i none) pr.groups := List.foldl_filter.symm
  rw [hfold, foldl_upd_get (fun _ => none) _ ((List.nodup_finRange 5).filter _)]
  simp only [List.mem_filter, List.mem_finRange, true_and, named_eq_testBit]

theorem Protection.cleared_multiple (pr : Protection) (groups : Nat) :
    (pr.cleared groups).multiple =
      (pr.multiple && (List.finRange 5).any fun g => (pr.cleared groups).groups[g].isSome) := rfl

theorem Protection.cleared_multiple_of_empty {pr : Protection} {groups : Nat}
    (h : ∀ g : Fin 5, (pr.cleared groups).groups[g] = none) : (pr.cleared groups).multiple = false := by
  have hany : ((List.finRange 5).any fun g => (pr.cleared groups).groups[g].isSome) = false :=
    List.any_eq_false.mpr fun g _ => by rw [h g]; exact Bool.false_ne_true
  rw [Protection.cleared_multiple, hany, Bool.and_false]

theorem Protection.cleared_multiple_of_held {pr : Protection} {groups : Nat}
    (h : ∃ g : Fin 5, (pr.cleared groups).groups[g] ≠ none) : (pr.cleared groups).multiple = pr.multiple := by
  obtain ⟨g, hg⟩ := h
  have hany : ((List.finRange 5).any fun g => (pr.cleared groups).groups[g].isSome) = true :=
    List.any_eq_true.mpr ⟨g, List.mem_finRange g, Option.isSome_iff_ne_none.mpr hg⟩
  rw [Protection.cleared_multiple, hany, Bool.and_true]

/-! ### FAULT_CLEAR (R179) -/

/-- The fault records and the receiver are written independently of each other. -/
theorem State.withProt_setRx (s : State) (p : Port) (rx : RxState) (pr : Protection) :
    ({ s.setRx p rx with prot := pr } : State) = ({ s with prot := pr } : State).setRx p rx := by
  cases p <;> rfl

/-- What stands at the ports after an answer does not depend on the fault records. -/
theorem State.answered_ports_withProt (s : State) (pr : Protection) (p : Port) (tag : Nat) (o : OutcomeCode)
    (fields : List Byte) :
    (({ s with prot := pr } : State).answered p tag o fields).ports = (s.answered p tag o fields).ports := by
  cases p <;> rfl

theorem exec_faultClear_badParam {s : State} {p : Port} {tag groups : Nat} (h : s.hears p tag) (hg : 31 < groups) :
    exec (.faultClear p tag groups) s = .next (s.answered p tag .badParam []) := by
  refine congrArg Host.Outcome.next ((immediate_hears h _).trans ?_)
  rw [if_pos hg, State.answered]

theorem exec_faultClear_ok {s : State} {p : Port} {tag groups : Nat} (h : s.hears p tag) (hg : groups ≤ 31) :
    exec (.faultClear p tag groups) s = .next
      (({ s with prot := s.prot.cleared groups } : State).answered p tag .ok (byte1 (s.prot.heldOf groups))) := by
  refine congrArg Host.Outcome.next ((immediate_hears h _).trans ?_)
  rw [if_neg (Nat.not_lt.mpr hg), State.setRx_prot, State.withProt_setRx, State.answered]

/-- Settles O56: above 31 nothing but the answer; else the Protection Unit's share is the cleared one, which differs in its groups and
MULTIPLE, and the answer is made beside it. -/
theorem faultClearEmptiesTheGroups : Obligations.FaultClearEmptiesTheGroups := by
  intro s p tag groups h
  refine ⟨exec_faultClear_badParam h, fun hg => ⟨_, exec_faultClear_ok h hg, ?_⟩⟩
  have hframe := State.keepsBut_trans (s.keepsBut_withProt (s.prot.cleared groups))
    (State.keepsBut_answered _ p tag .ok (byte1 (s.prot.heldOf groups)))
  rw [State.answered_prot, State.answered_ports_withProt, ← s.prot.heldOf_eq]
  exact ⟨s.prot.cleared_groups groups, Protection.cleared_multiple_of_empty, Protection.cleared_multiple_of_held,
    rfl, rfl, rfl, rfl, hframe, rfl⟩

end Sys2Proof.Machine

/-! ENTER_SETUP (R188): the part is quiet when no slot, no resource, no regeneration and no channel is at work, and only then is
SETUP entered from RUN. None of these, nor the mode, nor the queue of regenerations stands in the receiver. -/

namespace Sys2Proof.Machine

/-! ### The lists of all slots, resources and channels -/

theorem Resource.mem_allResources (r : Resource) : r ∈ allResources := by
  cases r with
  | dose n => revert n; decide
  | _ => decide

theorem mem_allChannels : ∀ c : ChannelId, c ∈ allChannels := by decide

/-! ### The quiet part (R188) -/

/-- 12 is the length of the pool: every slot is counted as free when none is left out of the count. -/
theorem State.freeSlots_eq_twelve_iff (s : State) : s.freeSlots = 12 ↔ ∀ i : SlotId, s.pool[i] = none := by
  have hcount : s.freeSlots = 12 ↔ ∀ i ∈ allSlots, s.pool[i].isNone = true := List.length_filter_eq_length_iff
  simp only [hcount, allSlots, List.mem_finRange, Option.isNone_iff_eq_none, true_imp_iff]

theorem State.allResources_free_iff (s : State) :
    (allResources.all fun r => !s.hasHolder r) = true ↔ ∀ r, s.hasHolder r = false := by
  simp only [List.all_eq_true, Resource.mem_allResources, Bool.not_eq_true', true_imp_iff]

theorem State.allChannels_idle_iff (s : State) :
    (allChannels.all fun c => (s.channel c).state == .idle) = true ↔ ∀ c, (s.channel c).state = .idle := by
  simp only [List.all_eq_true, mem_allChannels, beq_iff_eq, true_imp_iff]

theorem State.quiet_iff (s : State) : s.quiet = true ↔
    (∀ i : SlotId, s.pool[i] = none) ∧ (∀ r, s.hasHolder r = false) ∧ s.soft.regen = none ∧
      ∀ c, (s.channel c).state = .idle := by
  simp only [State.quiet, Bool.and_eq_true, beq_iff_eq, s.freeSlots_eq_twelve_iff, s.allResources_free_iff,
    Option.isNone_iff_eq_none, s.allChannels_idle_iff, and_assoc]

@[simp] theorem State.quiet_setRx (s : State) (p : Port) (rx : RxState) : (s.setRx p rx).quiet = s.quiet := by
  simp only [State.quiet, State.freeSlots, State.hasHolder, State.pool_setRx, State.entry_setRx, State.setRx_soft,
    State.channel_setRx]

/-! ### ENTER_SETUP (R188) -/

/-- SETUP, with the queue of regenerations emptied (R61). -/
def State.setupEntered (s : State) : State := { s with mode := .setup, soft := { s.soft with queue := [] } }

/-- The entry into SETUP as the request makes it, in two writes beside the receiver. -/
theorem State.setQueue_setup_setRx (s : State) (p : Port) (rx : RxState) :
    ({ s.setRx p rx with mode := .setup } : State).setQueue [] = s.setupEntered.setRx p rx := by
  cases p <;> rfl

theorem exec_enterSetup_setup {s : State} {p : Port} {tag : Nat} (h : s.hears p tag) (hm : s.mode = .setup) :
    exec (.enterSetup p tag) s = .next (s.answered p tag .ok []) := by
  refine congrArg Host.Outcome.next ((immediate_hears h _).trans ?_)
  rw [State.mode_setRx, if_pos hm, State.answered]

theorem exec_enterSetup_quiet {s : State} {p : Port} {tag : Nat} (h : s.hears p tag) (hm : s.mode = .run)
    (hq : s.quiet = true) : exec (.enterSetup p tag) s = .next (s.setupEntered.answered p tag .ok []) := by
  refine congrArg Host.Outcome.next ((immediate_hears h _).trans ?_)
  rw [State.mode_setRx, if_neg (by rw [hm]; decide), State.quiet_setRx, if_pos hq, State.setQueue_setup_setRx,
    State.answered]

theorem exec_enterSetup_busy {s : State} {p : Port} {tag : Nat} (h : s.hears p tag) (hm : s.mode = .run)
    (hq : ¬s.quiet = true) : exec (.enterSetup p tag) s = .next (s.answered p tag .busy []) := by
  refine congrArg Host.Outcome.next ((immediate_hears h _).trans ?_)
  rw [State.mode_setRx, if_neg (by rw [hm]; decide), State.quiet_setRx, if_neg hq, State.answered]

/-- Settles O23: the request's own test for a quiet part is R188's condition, and is made of what the frame leaves as it was. -/
theorem enterSetupOnlyWhenQuiet : Obligations.EnterSetupOnlyWhenQuiet := by
  intro s p tag h
  rw [← s.quiet_iff]
  exact ⟨exec_enterSetup_setup h, fun hm => ⟨exec_enterSetup_quiet h hm, exec_enterSetup_busy h hm⟩⟩

end Sys2Proof.Machine

/-! The Event Unit: where a report is placed at a port (R194), the attention line (R195), and the requests FETCH_EVENTS (R196) and
SUBSCRIBE (R197). Both requests rewrite the slots of their own port beside its receiver and its transmit queue. -/

namespace Sys2Proof.Machine

/-! ### The first slot that satisfies a test -/

theorem PortState.firstSub_eq_some_iff (ps : PortState) (f : Sub → Bool) (k : SubId) :
    ps.firstSub f = some k ↔ f ps.subs[k] = true ∧ ∀ j : SubId, j < k → f ps.subs[j] = false := by
  refine (List.find?_ofFn_eq_some_of_injective Function.injective_id).trans ?_
  simp only [id, Bool.not_eq_true]

theorem PortState.firstSub_eq_none_iff (ps : PortState) (f : Sub → Bool) :
    ps.firstSub f = none ↔ ∀ j : SubId, f ps.subs[j] = false := by
  simp only [PortState.firstSub, List.find?_eq_none, List.mem_finRange, true_imp_iff, Bool.not_eq_true]

/-! ### The attention line (R195) -/

theorem PortState.attention_iff (ps : PortState) : ps.attention = true ↔ ∃ j : SubId, ps.subs[j].held ≠ none := by
  simp only [PortState.attention, List.any_eq_true, List.mem_finRange, true_and, Option.isSome_iff_ne_none]

theorem PortState.attention_eq_false {ps : PortState} (h : ∀ j : SubId, ps.subs[j].held = none) : ps.attention = false :=
  Bool.eq_false_iff.mpr fun ha =>
    have ⟨j, hj⟩ := ps.attention_iff.mp ha
    hj (h j)

/-! ### A report placed at one port (R194) -/

/-- The test for a matching EMPTY slot fails where a matching slot is HELD. -/
theorem Sub.takes_and_empty_eq_false_iff (sub : Sub) (code : Byte) :
    (sub.takes code && sub.held.isNone) = false ↔ (sub.takes code = true → sub.held ≠ none) := by
  rw [Bool.and_eq_false_imp, Option.isNone_eq_false_iff, Option.isSome_iff_ne_none]

section Place

variable {ps : PortState} {rep : Report}

theorem PortState.place_of_empty {k : SubId} (ht : ps.subs[k].takes rep.code = true) (hk : ps.subs[k].held = none)
    (hlow : ∀ j : SubId, j < k → ps.subs[j].takes rep.code = true → ps.subs[j].held ≠ none) :
    ps.place rep = { ps with subs := upd ps.subs k { ps.subs[k] with held := some rep } } := by
  have hfirst : (ps.firstSub fun sub => sub.takes rep.code && sub.held.isNone) = some k :=
    (ps.firstSub_eq_some_iff _ k).mpr
      ⟨by rw [ht, hk]; rfl, fun j hj => (Sub.takes_and_empty_eq_false_iff _ _).mpr (hlow j hj)⟩
  rw [PortState.place, hfirst]

theorem PortState.firstSub_empty_eq_none
    (hfull : ∀ j : SubId, ps.subs[j].takes rep.code = true → ps.subs[j].held ≠ none) :
    (ps.firstSub fun sub => sub.takes rep.code && sub.held.isNone) = none :=
  (ps.firstSub_eq_none_iff _).mpr fun j => (Sub.takes_and_empty_eq_false_iff _ _).mpr (hfull j)

theorem PortState.place_of_full (hfull : ∀ j : SubId, ps.subs[j].takes rep.code = true → ps.subs[j].held ≠ none)
    {k : SubId} (ht : ps.subs[k].takes rep.code = true) (hlow : ∀ j : SubId, j < k → ps.subs[j].takes rep.code = false) :
    ps.place rep = { ps with subs := upd ps.subs k { ps.subs[k] with held := some rep, overrun := true } } := by
  have hfirst : (ps.firstSub fun sub => sub.takes rep.code) = some k := (ps.firstSub_eq_some_iff _ k).mpr ⟨ht, hlow⟩
  rw [PortState.place, PortState.firstSub_empty_eq_none hfull]
  dsimp only
  rw [hfirst]

theorem PortState.place_of_unmatched (hnone : ∀ j : SubId, ps.subs[j].takes rep.code = false) : ps.place rep = ps := by
  have hfull : ∀ j : SubId, ps.subs[j].takes rep.code = true → ps.subs[j].held ≠ none :=
    fun j ht => absurd ht (Bool.eq_false_iff.mp (hnone j))
  have hfirst : (ps.firstSub fun sub => sub.takes rep.code) = none := (ps.firstSub_eq_none_iff _).mpr hnone
  rw [PortState.place, PortState.firstSub_empty_eq_none hfull]
  dsimp only
  rw [hfirst]

end Place

/-! ### A report posted (R192, R194) -/

theorem State.keepsBut_post (s : State) (e : Event) (subject value : Nat) :
    s.keepsBut (s.post e subject value) [.ports] := by
  intro b hb
  cases b with
  | ports => exact absurd List.mem_cons_self hb
  | accepted => exact ⟨rfl, rfl⟩
  | _ => rfl

/-- Settles O15: the posted report is placed at each port by itself, and the first slot that the placing looks for is the
lowest-numbered one of R194. -/
theorem reportPlaced : Obligations.ReportPlaced := by
  rintro s e subject value p t rfl
  rw [State.port_post]
  obtain ⟨hrx, htxq, hpending⟩ := (s.port p).place_rest ⟨eventCode e, subject, value, s.drive.clock⟩
  refine ⟨s.keepsBut_post e subject value, hrx, htxq, hpending, PortState.attention_iff _,
    fun k ht hk hlow j => ?_, fun hfull => ⟨fun k ht hlow j => ?_, fun hnone => ?_⟩⟩
  · rw [PortState.place_of_empty ht hk hlow]
    exact upd_get _ _ _ _
  · rw [PortState.place_of_full hfull ht hlow]
    exact upd_get _ _ _ _
  · exact PortState.place_of_unmatched hnone

/-! ### A request that rewrites the slots of its port -/

/-- The subscription slots of a port replaced. -/
def State.setSubs (s : State) (p : Port) (subs : Vector Sub 6) : State := s.setPort p { s.port p with subs := subs }

/-- The slots as they stand when a request is taken are those before its frame. -/
@[simp] theorem State.subs_setRx (s : State) (p : Port) (rx : RxState) : ((s.setRx p rx).port p).subs = (s.port p).subs := by
  rw [State.port_setRx, if_pos rfl]

/-- The receiver and the slots of a port are written independently of each other. -/
theorem State.setSubs_setRx (s : State) (p : Port) (rx : RxState) (subs : Vector Sub 6) :
    (s.setRx p rx).setSubs p subs = (s.setSubs p subs).setRx p rx := by
  cases p <;> rfl

theorem State.port_setSubs_answered (s : State) (p : Port) (subs : Vector Sub 6) (tag : Nat) (o : OutcomeCode)
    (fields : List Byte) : ((s.setSubs p subs).answered p tag o fields).port p =
      { s.port p with rx := .synced, txq := (s.port p).txq ++ [immResponse tag o fields], subs := subs } := by
  rw [State.port_answered, if_pos rfl, State.setSubs, State.port_setPort_self]
  rfl

theorem State.port_setSubs_answered_ne (s : State) {p q : Port} (h : q ≠ p) (subs : Vector Sub 6) (tag : Nat)
    (o : OutcomeCode) (fields : List Byte) : ((s.setSubs p subs).answered p tag o fields).port q = s.port q := by
  rw [State.port_answered, if_neg h, State.setSubs, State.port_setPort_ne s h]

theorem State.keepsBut_setSubs_answered (s : State) (p : Port) (subs : Vector Sub 6) (tag : Nat) (o : OutcomeCode)
    (fields : List Byte) : s.keepsBut ((s.setSubs p subs).answered p tag o fields) [.ports] := by
  intro b hb
  exact State.same_trans (s.keepsBut_setPort p _ b hb) (State.keepsBut_answered _ p tag o fields b hb)

theorem State.hears.resetPending {s : State} {p : Port} {tag : Nat} (h : s.hears p tag) :
    (s.port p).resetPending = false := by
  obtain ⟨⟨_, hpending, _⟩, _⟩ := h
  exact hpending

/-! ### SUBSCRIBE (R197) -/

theorem Sub.written_eq (filter mask enable : Nat) : Sub.written filter mask enable =
    { filter := BitVec.ofNat 8 filter, mask := BitVec.ofNat 8 mask, enable := decide (enable = 1), held := none,
      overrun := false } := rfl

theorem exec_subscribe_badSlot {s : State} {p : Port} {tag slot : Nat} (h : s.hears p tag) (hs : 6 ≤ slot)
    (filter mask enable : Nat) :
    exec (.subscribe p tag slot filter mask enable) s = .next (s.answered p tag .badParam []) := by
  refine congrArg Host.Outcome.next ((immediate_hears h _).trans ?_)
  rw [finOf_eq_none hs, State.answered]

theorem exec_subscribe_badEnable {s : State} {p : Port} {tag enable : Nat} (h : s.hears p tag) (he : 1 < enable)
    (k : SubId) (filter mask : Nat) :
    exec (.subscribe p tag k.val filter mask enable) s = .next (s.answered p tag .badParam []) := by
  refine congrArg Host.Outcome.next ((immediate_hears h _).trans ?_)
  rw [finOf_val]
  dsimp only
  rw [if_pos he, State.answered]

theorem exec_subscribe_ok {s : State} {p : Port} {tag enable : Nat} (h : s.hears p tag) (he : enable ≤ 1)
    (k : SubId) (filter mask : Nat) :
    exec (.subscribe p tag k.val filter mask enable) s = .next
      ((s.setSubs p (upd (s.port p).subs k (Sub.written filter mask enable))).answered p tag .ok
        (flagByte (s.port p).subs[k].held.isSome)) := by
  refine congrArg Host.Outcome.next ((immediate_hears h _).trans ?_)
  rw [finOf_val]
  dsimp only
  rw [if_neg (Nat.not_lt.mpr he), ← State.setSubs, State.setSubs_setRx, State.subs_setRx, State.answered]

theorem exec_subscribe_badParam {s : State} {p : Port} {tag slot enable : Nat} (h : s.hears p tag)
    (hbad : 6 ≤ slot ∨ 1 < enable) (filter mask : Nat) :
    exec (.subscribe p tag slot filter mask enable) s = .next (s.answered p tag .badParam []) := by
  by_cases hs : 6 ≤ slot
  · exact exec_subscribe_badSlot h hs filter mask enable
  · have he : 1 < enable := hbad.resolve_left hs
    exact exec_subscribe_badEnable h he ⟨slot, Nat.lt_of_not_le hs⟩ filter mask

/-- Settles O18: the slot's number is judged before the enable, with the same answer; a slot that is rewritten stands beside the
receiver and the queue of its port, which take the frame and the answer. -/
theorem subscribeRewritesTheSlot : Obligations.SubscribeRewritesTheSlot := by
  intro s p tag slot filter mask enable h
  refine ⟨fun hbad => exec_subscribe_badParam h hbad filter mask, ?_⟩
  rintro k rfl he
  refine ⟨_, exec_subscribe_ok h he k filter mask, s.keepsBut_setSubs_answered p _ tag _ _, ?_⟩
  rw [State.responds, State.port_setSubs_answered, ← Sub.written_eq]
  exact ⟨fun j => upd_get _ k j _, rfl, PortState.attention_iff _, rfl, h.resetPending,
    fun q hq => s.port_setSubs_answered_ne hq _ tag _ _⟩

/-! ### FETCH_EVENTS (R196) -/

theorem Sub.fetched_eq (sub : Sub) :
    sub.fetched = if sub.held = none then sub else { sub with held := none, overrun := false } := by
  rw [Sub.fetched]
  cases hheld : sub.held with
  | none => rfl
  | some r => rfl

theorem Sub.fetched_held (sub : Sub) : sub.fetched.held = none := by
  rw [Sub.fetched_eq]
  split
  · assumption
  · rfl

theorem State.heldEntries_setRx (s : State) (p : Port) (rx : RxState) :
    ((s.setRx p rx).port p).heldEntries = (s.port p).heldEntries := by
  simp only [PortState.heldEntries, State.subs_setRx]

theorem exec_fetchEvents {s : State} {p : Port} {tag : Nat} (h : s.hears p tag) :
    exec (.fetchEvents p tag) s = .next ((s.setSubs p (updAll Sub.fetched (s.port p).subs)).answered p tag .ok
      (listField (s.port p).heldEntries)) := by
  refine congrArg Host.Outcome.next ((immediate_hears h _).trans ?_)
  dsimp only
  rw [← State.setSubs, State.setSubs_setRx, State.subs_setRx, State.heldEntries_setRx, State.answered]

/-- Settles O19: each slot is emptied by itself and none is left HELD, so that the attention line is deasserted; the entries
returned are those of the slots before the frame. -/
theorem fetchEventsEmptiesTheSlots : Obligations.FetchEventsEmptiesTheSlots := by
  intro s p tag h
  have hslot : ∀ k : SubId, (updAll Sub.fetched (s.port p).subs)[k] = (s.port p).subs[k].fetched := updAll_get _ _
  refine ⟨_, exec_fetchEvents h, s.keepsBut_setSubs_answered p _ tag _ _, ?_⟩
  rw [State.responds, State.port_setSubs_answered, listField]
  exact ⟨fun k => (hslot k).trans (Sub.fetched_eq _),
    PortState.attention_eq_false fun k => (congrArg Sub.held (hslot k)).trans (Sub.fetched_held _),
    rfl, rfl, rfl, h.resetPending, fun q hq => s.port_setSubs_answered_ne hq _ tag _ _⟩

end Sys2Proof.Machine

/-! What every step keeps, said once for all commands (introduction 1.8). `Works s t` is what the work of a command does to the laws
before the closing `settle`; `Kept s t` is what the command as a whole does, with the law of the heater, which only the judgement of
the interlock in `settle` restores. `Plain s t` adds that nothing changed that only some commands change. -/

namespace Sys2Proof.Machine

/-! ### The relations -/

/-- Work keeps the laws; of the heater's law the half that holds between two judgements of the interlock (R45). -/
structure Works (s t : State) : Prop where
  tables : s.tableSafe → t.tableSafe
  flag : s.tableSafe → s.heaterFlag → t.heaterFlag
  books : s.cfg.legal → s.booksSafe → t.booksSafe
  legal : s.cfg.legal → t.cfg.legal
  pool : s.poolShared → t.poolShared

/-- A command keeps the laws. -/
structure Kept (s t : State) : Prop extends Works s t where
  heater : s.tableSafe → s.heaterSafe → t.heaterSafe

/-- Work that keeps the laws and what no owner's work changes. -/
structure PlainWork (s t : State) : Prop where
  fixed : t.fixed = s.fixed
  works : Works s t

/-- A command that keeps the laws and what no owner's work changes. -/
structure Plain (s t : State) : Prop where
  fixed : t.fixed = s.fixed
  kept : Kept s t

theorem Works.refl (s : State) : Works s s := ⟨id, fun _ => id, fun _ => id, id, id⟩

theorem Works.trans {s t u : State} (h : Works s t) (k : Works t u) : Works s u where
  tables a := k.tables (h.tables a)
  flag a b := k.flag (h.tables a) (h.flag a b)
  books a b := k.books (h.legal a) (h.books a b)
  legal a := k.legal (h.legal a)
  pool a := k.pool (h.pool a)

theorem Kept.refl (s : State) : Kept s s := ⟨.refl s, fun _ => id⟩

theorem Kept.trans {s t u : State} (h : Kept s t) (k : Kept t u) : Kept s u where
  toWorks := h.toWorks.trans k.toWorks
  heater a b := k.heater (h.tables a) (h.heater a b)

theorem PlainWork.trans {s t u : State} (h : PlainWork s t) (k : PlainWork t u) : PlainWork s u :=
  ⟨k.fixed.trans h.fixed, h.works.trans k.works⟩

theorem Plain.refl (s : State) : Plain s s := ⟨rfl, .refl s⟩

theorem Plain.trans {s t u : State} (h : Plain s t) (k : Plain t u) : Plain s u :=
  ⟨k.fixed.trans h.fixed, h.kept.trans k.kept⟩

theorem Plain.work {s t : State} (h : Plain s t) : PlainWork s t := ⟨h.fixed, h.kept.toWorks⟩

theorem Plain.ite {s t u : State} (p : Prop) [Decidable p] (h : Plain s t) (k : Plain s u) :
    Plain s (if p then t else u) := by
  split
  · exact h
  · exact k

theorem Works.foldl {α : Type} {a : State} (f : State → α → State) (hf : ∀ s x, Works s (f s x)) (l : List α) {s : State}
    (h : Works a s) : Works a (l.foldl f s) := by
  induction l generalizing s with
  | nil => exact h
  | cons x xs ih => exact ih (h.trans (hf s x))

theorem Kept.foldl {α : Type} {a : State} (f : State → α → State) (hf : ∀ s x, Kept s (f s x)) (l : List α) {s : State}
    (h : Kept a s) : Kept a (l.foldl f s) := by
  induction l generalizing s with
  | nil => exact h
  | cons x xs ih => exact ih (h.trans (hf s x))

/-! ### The pool's shares (R184) -/

/-- A filter by a weaker test is no shorter. -/
theorem length_filter_le {α : Type} {f g : α → Bool} (l : List α) (h : ∀ x, f x = true → g x = true) :
    (l.filter f).length ≤ (l.filter g).length :=
  (List.monotone_filter_right l h).length_le

/-- A slot taken under work was taken before, by an operation of the same port. -/
theorem PoolStep.normalSlots_le {s t : State} (h : PoolStep s t) (hc : t.cfg = s.cfg) : t.normalSlots ≤ s.normalSlots := by
  refine length_filter_le _ fun i hi => ?_
  cases ht : t.pool[i] with
  | none => simp [ht] at hi
  | some x =>
    obtain ⟨y, hy, hp, -⟩ := h i x ht
    simpa [ht, hy, hc, hp] using hi

theorem PoolStep.portSlots_le {s t : State} (h : PoolStep s t) (p : Port) :
    (t.portSlots p).length ≤ (s.portSlots p).length := by
  refine length_filter_le _ fun i hi => ?_
  cases ht : t.pool[i] with
  | none => simp [ht] at hi
  | some x =>
    obtain ⟨y, hy, hp, -⟩ := h i x ht
    simpa [ht, hy, hp] using hi

/-- Law 10 is kept where the pool is only worked in. -/
theorem State.poolShared.step {s t : State} (h : s.poolShared) (hp : PoolStep s t) (hc : t.cfg = s.cfg) (hm : t.mode = s.mode) :
    t.poolShared := by
  obtain ⟨hsetup, hnormal, hurgent⟩ := h
  refine ⟨fun m i => hp.none (hsetup (hm ▸ m) i), (hp.normalSlots_le hc).trans hnormal, fun p u => ?_⟩
  exact (hp.portSlots_le p).trans (hurgent p (hc ▸ u))

/-! ### The laws of the table -/

/-- The laws of the table are read through the table, the door state and the trip state alone. -/
theorem State.tableSafe.congr {s t : State} (h : s.tableSafe) (ha : t.arb.table = s.arb.table)
    (hd : t.doorClosed = s.doorClosed) (hl : t.latched = s.latched) : t.tableSafe := by
  have he := State.entry_congr ha
  have hh : ∀ r, t.hasHolder r = s.hasHolder r := fun r => by simp only [State.hasHolder, he]
  exact
    { legal := fun r => he r ▸ h.legal r
      path := h.path.congr ha
      apart := by simpa only [State.inletDrainApart, hh] using h.apart
      alone := by simpa only [State.doorDriveAlone, hh] using h.alone
      withdrawn := by simpa only [State.tripWithdrawn, hh, hl] using h.withdrawn
      shut := by simpa only [State.guardedShut, he, hd] using h.shut }

/-- Work that touches neither the table nor what its laws are read through, nor the configuration and the mode. -/
theorem Works.of_same {s t : State} (ha : t.arb.table = s.arb.table) (hd : t.doorClosed = s.doorClosed)
    (hl : t.latched = s.latched) (hw : t.water.interlock = s.water.interlock) (hc : t.cfg = s.cfg) (hm : t.mode = s.mode)
    (hp : PoolStep s t) (hb : s.cfg.legal → s.booksSafe → t.booksSafe) : Works s t where
  tables h := h.congr ha hd hl
  flag _ h x := hw.trans (h (State.entry_congr ha _ ▸ x))
  books := hb
  legal h := hc ▸ h
  pool h := h.step hp hc hm

/-- The law of the heater is read through the record of the interlock, the interlock and HEATER's lease. -/
theorem State.heaterSafe.congr {s t : State} (h : s.heaterSafe) (hw : t.water.interlock = s.water.interlock)
    (hi : t.interlockMet = s.interlockMet) (hl : (t.entry .heater).lease = (s.entry .heater).lease) : t.heaterSafe := by
  unfold State.heaterSafe
  rw [hw, hi, hl]
  exact h

theorem Works.kept {s t : State} (h : Works s t) (hw : t.water.interlock = s.water.interlock)
    (hi : t.interlockMet = s.interlockMet) (hl : (t.entry .heater).lease = (s.entry .heater).lease) : Kept s t :=
  ⟨h, fun _ k => k.congr hw hi hl⟩

theorem PlainWork.plain {s t : State} (h : PlainWork s t) (hw : t.water.interlock = s.water.interlock)
    (hc : (t.entry .circ).lease = (s.entry .circ).lease) (hl : (t.entry .heater).lease = (s.entry .heater).lease) : Plain s t :=
  ⟨h.fixed, h.works.kept hw (interlockMet_congr h.fixed hc) hl⟩

/-! ### Effects and `settle` -/

theorem Effect.work {s t : State} (h : Effect s t) : PlainWork s t where
  fixed := h.fixed
  works :=
    { tables := h.tables
      flag := fun _ => h.heaterFlag
      books := fun _ => h.books
      legal := fun k => h.cfg ▸ k
      pool := fun k => k.step h.pool h.cfg h.mode }

/-- What `settle` makes of work: the command keeps the laws. -/
theorem Works.settle {s t : State} (h : Works s t) : Kept s t.settle := by
  have k := settle_settled (Settled.refl t)
  have hs : s.tableSafe → s.heaterFlag → t.settle.heaterSafe := fun a b => settle_heaterSafe (h.tables a) (h.flag a b)
  exact
    { tables := fun a => k.tables (h.tables a)
      flag := fun a b => (hs a b).flag
      books := fun a b => k.books (h.books a b)
      legal := fun a => State.cfg_congr k.fixed ▸ h.legal a
      pool := fun a => (h.pool a).step k.pool (State.cfg_congr k.fixed) (congrArg Fixed.mode k.fixed)
      heater := fun a b => hs a b.flag }

theorem PlainWork.settle {s t : State} (h : PlainWork s t) : Plain s t.settle :=
  ⟨(settle_settled (Settled.refl t)).fixed.trans h.fixed, h.works.settle⟩

/-- An effect, settled. -/
theorem Effect.plain {s t : State} (h : Effect s t) : Plain s t.settle := h.work.settle

/-- A command that answers an effect settled where a condition holds, and nothing else. -/
theorem Effect.plain_when {s t : State} (p : Prop) [Decidable p] (h : Effect s t) : Plain s (if p then t.settle else s) :=
  .ite p h.plain (.refl s)

/-- An effect that leaves the table and the record of the interlock needs no `settle`. -/
theorem Effect.plain_of_table {s t : State} (h : Effect s t) (ha : t.arb.table = s.arb.table) : Plain s t :=
  h.work.plain h.interlock (congrArg Entry.lease (State.entry_congr ha _)) (congrArg Entry.lease (State.entry_congr ha _))

/-! ### The ports -/

/-- A change of the ports alone. -/
theorem Plain.of_ports {s t : State} (hf : t.fixed = s.fixed) (ha : t.arb = s.arb) (hp : t.pool = s.pool)
    (hw : t.water = s.water) (hs : t.soft = s.soft) (hc : t.acct = s.acct) (hd : t.dose = s.dose) : Plain s t := by
  have he := State.entry_congr (congrArg Arbiter.table ha)
  refine PlainWork.plain ⟨hf, .of_same (congrArg Arbiter.table ha) (State.doorClosed_congr hf) (State.latched_congr hf)
    (congrArg Water.interlock hw) (State.cfg_congr hf) (congrArg Fixed.mode hf) (.of_eq hp) fun _ b =>
      b.congr (State.cfg_congr hf) hs hc hd⟩ (congrArg Water.interlock hw) ?_ ?_
  · rw [he]
  · rw [he]

theorem setPort_plain (s : State) (p : Port) (x : PortState) : Plain s (s.setPort p x) :=
  .of_ports (s.fixed_setPort p x) (s.setPort_arb p x) (s.setPort_pool p x) (s.setPort_water p x) (s.setPort_soft p x)
    (s.setPort_acct p x) (s.setPort_dose p x)

theorem setRx_plain (s : State) (p : Port) (rx : RxState) : Plain s (s.setRx p rx) := setPort_plain s p _

theorem reply_plain (s : State) (p : Port) (tag : Nat) (o : OutcomeCode) (fields : List Byte) :
    Plain s (s.reply p tag o fields) := setPort_plain s p _

theorem post_plain (s : State) (e : Event) (x v : Nat) : Plain s (s.post e x v) :=
  (post_effect (.refl s) e x v).plain_of_table rfl

theorem State.arb_fault (s : State) (k : FaultKind) (x d : Nat) : (s.fault k x d).arb = s.arb := by
  unfold State.fault
  dsimp only
  split
  · split <;> rfl
  · rfl

theorem fault_plain (s : State) (k : FaultKind) (x d : Nat) : Plain s (s.fault k x d) :=
  (fault_effect (.refl s) k x d).plain_of_table (congrArg Arbiter.table (s.arb_fault k x d))

/-! ### Requests -/

/-- A relation that the frame's own work has, and that what is done with the request has, a request has. -/
theorem takeFrame_plain (s : State) (p : Port) {act : State → State} (h : ∀ u, Plain u (act u)) : Plain s (s.takeFrame p act) := by
  have h1 := setRx_plain s p .synced
  rcases takeFrame_cases s p act with e | e | e | ⟨-, e⟩ <;> rw [e]
  · exact .refl s
  · exact h1
  · exact h1.trans (fault_plain _ _ _ _)
  · exact h1.trans (h _)

theorem immediate_plain (s : State) (p : Port) (tag : Nat) {act : State → State} (h : ∀ u, Plain u (act u)) :
    Plain s (s.immediate p tag act) :=
  takeFrame_plain s p fun u => .ite _ (reply_plain u _ _ _ _) (h u)

theorem immediateInRun_plain (s : State) (p : Port) (tag : Nat) {act : State → State} (h : ∀ u, Plain u (act u)) :
    Plain s (s.immediateInRun p tag act) :=
  immediate_plain s p tag fun u => .ite _ (reply_plain u _ _ _ _) (h u)

theorem onChannel_plain (s : State) (p : Port) (tag channel : Nat) {act : ChannelId → State} (h : ∀ c, Plain s (act c)) :
    Plain s (s.onChannel p tag channel act) := by
  unfold State.onChannel
  split
  · exact reply_plain s _ _ _ _
  · exact h _

/-- The same for a request that changes what only some commands change. -/
theorem takeFrame_kept (s : State) (p : Port) {act : State → State} (h : ∀ u, Kept u (act u)) : Kept s (s.takeFrame p act) := by
  have h1 := (setRx_plain s p .synced).kept
  rcases takeFrame_cases s p act with e | e | e | ⟨-, e⟩ <;> rw [e]
  · exact .refl s
  · exact h1
  · exact h1.trans (fault_plain _ _ _ _).kept
  · exact h1.trans (h _)

theorem immediate_kept (s : State) (p : Port) (tag : Nat) {act : State → State} (h : ∀ u, Kept u (act u)) :
    Kept s (s.immediate p tag act) := by
  refine takeFrame_kept s p fun u => ?_
  split
  · exact (reply_plain u _ _ _ _).kept
  · exact h u

end Sys2Proof.Machine

/-! The commands that change nothing but what the owners' work changes: each is plain. -/

namespace Sys2Proof.Machine

/-! ### The ends of work by time -/

theorem fillNoFlow_plain (s : State) : Plain s s.fillNoFlow := by
  unfold State.fillNoFlow
  split
  · exact .refl s
  · split
    · exact (fault_effect (finishFill_effect (.refl s) _ _ _) _ _ _).plain_when _
    · exact .refl s

theorem regenNoFlow_plain (s : State) : Plain s s.regenNoFlow := by
  unfold State.regenNoFlow
  split
  · exact (endRegen_effect (fault_effect (.refl s) _ _ _) _ _).plain_when _
  · exact .refl s

theorem soakEnded_plain (s : State) : Plain s s.soakEnded := by
  unfold State.soakEnded
  split
  next g hg => exact (endSoak_effect (.refl s) hg).plain_when _
  next => exact .refl s

theorem circRunEnd_plain (s : State) : Plain s s.circRunEnd := by
  unfold State.circRunEnd
  split
  · exact .refl s
  · split
    · exact (finishCirc_effect (.refl s) _ _ _).plain_when _
    · exact .refl s

theorem heatLimitEnd_plain (s : State) (i : SlotId) : Plain s (s.heatLimitEnd i) := by
  unfold State.heatLimitEnd
  split
  · exact (finishHeat_effect (.refl s) _ _ _).plain_when _
  · exact .refl s

theorem drainPostrunEnd_plain (s : State) : Plain s s.drainPostrunEnd := by
  unfold State.drainPostrunEnd
  split
  · exact .refl s
  · split
    · split
      · exact (finishDrain_effect (.refl s) _ _ _).plain_when _
      · exact .refl s
    · exact .refl s

theorem drainLimitEnd_plain (s : State) : Plain s s.drainLimitEnd := by
  unfold State.drainLimitEnd
  split
  · exact .refl s
  · split
    · exact (drainTimeout_effect (.refl s) _).plain_when _
    · exact .refl s

theorem forcePostrunEnd_plain (s : State) : Plain s s.forcePostrunEnd := by
  unfold State.forcePostrunEnd
  exact (endForce_effect (.refl s)).plain_when _

/-! ### The dose engine's own steps -/

/-- A stroke generator stopped touches no lease. -/
theorem stopStroke_effect (s : State) (n : ReservoirId) :
    Effect s ({ s with drive := { s.drive with strokes := upd s.drive.strokes n ⟨false, 0⟩ } } : State) :=
  .of_idle rfl rfl rfl rfl rfl rfl rfl rfl

theorem strokeEnd_plain (s : State) (n : ReservoirId) : Plain s (s.strokeEnd n) := by
  unfold State.strokeEnd
  dsimp only
  split
  · split
    · exact (strokeEnded_effect (stopStroke_effect s n) _).plain
    · exact (stopStroke_effect s n).plain_of_table rfl
  · exact .refl s

theorem intervalEnd_plain (s : State) (c : ChannelId) : Plain s (s.intervalEnd c) := by
  unfold State.intervalEnd
  dsimp only
  split
  next k =>
    simp only [Bool.and_eq_true, beq_iff_eq] at k
    obtain ⟨⟨hd, hi⟩, -⟩ := k
    exact (strokeStart_effect (.refl s) c hd (by rw [hi]; decide)).plain
  next => exact .refl s

theorem delayExpiry_plain (s : State) (c : ChannelId) : Plain s (s.delayExpiry c) := by
  unfold State.delayExpiry
  dsimp only
  refine (triggerChannel_effect (setChannel_effect (.refl s) c _ ?_) c).plain_when _
  exact fun _ k => k.of_same rfl rfl rfl rfl rfl

/-! ### The ramps and the selector -/

/-- A generator's step leaves the table. -/
theorem circRamp_effect (s : State) (x : Ramp) :
    Effect s (reportSwitching s { s with drive := { s.drive with circRamp := x } }) :=
  reportSwitching_effect (drive_effect (.refl s) { s.drive with circRamp := x } rfl rfl) s

theorem circStep_plain (s : State) : Plain s s.circStep := by
  unfold State.circStep
  dsimp only
  have h := circRamp_effect s (s.drive.circRamp.step s.circTarget)
  exact (ite_effect _ (endCircWindDown_effect h) (circReached_effect h)).plain_when _

theorem doorStep_effect (s : State) : Effect s s.doorStep :=
  ite_effect _ (drive_effect (.refl s) { s.drive with doorRamp := s.drive.doorRamp.step s.drive.door.active } rfl rfl) (.refl s)

theorem State.arb_doorStep (s : State) : s.doorStep.arb = s.arb := by
  unfold State.doorStep
  split <;> rfl

theorem doorStep_plain (s : State) : Plain s s.doorStep :=
  (doorStep_effect s).plain_of_table (congrArg Arbiter.table s.arb_doorStep)

/-- The part whose travel has stopped at the held position. -/
def State.arrived (s : State) : State :=
  { s with arb := { s.arb with selCurrent := some s.arb.selHeld },
           drive := { s.drive with travel := none, travelReading := none } }

theorem State.arrived_effect (s : State) : Effect s s.arrived := .of_idle rfl rfl rfl rfl rfl rfl rfl rfl

theorem State.selectorArrive_eq (s : State) : s.selectorArrive =
    if (s.entry .selector).lease = .moving ∧ s.travelArrived = true then
      match (s.entry .selector).holder with
      | some h => ((s.arrived.editEntry .selector fun e => { e with lease := .held }).selectorHeld h).settle
      | none => s.arrived.editEntry .selector fun e => { e with lease := .held }
    else s := rfl

/-- While SELECTOR is MOVING, INLET is FREE (law 2). -/
theorem State.pathHeld.inlet_free {s : State} (k : s.pathHeld) (h : (s.entry .selector).lease = .moving) :
    (s.entry .inlet).lease = .free := by
  by_contra c
  obtain ⟨k, -⟩ := k c
  exact absurd (h.symm.trans k) (by decide)

/-- A selector that arrives is HELD by who had it MOVING. -/
theorem arrive_effect {s : State} (h : (s.entry .selector).lease = .moving) :
    Effect s (s.arrived.editEntry .selector fun e => { e with lease := .held }) := by
  have he : s.arrived.entry .selector = s.entry .selector := rfl
  have hn : (s.entry .selector).lease ≠ .free := by rw [h]; decide
  refine editEntry_effect s.arrived_effect _ _ ?_ fun _ k => .inr (k.inlet_free (he ▸ h))
  rw [he]
  refine ⟨fun _ => hn, fun ⟨hf, _⟩ => ⟨⟨nofun, fun c => absurd (hf.mpr c) hn⟩, rfl⟩, fun _ => rfl, nofun, nofun⟩

theorem selectorArrive_plain (s : State) : Plain s s.selectorArrive := by
  rw [State.selectorArrive_eq]
  split
  next h =>
    have h1 := arrive_effect h.1
    split
    · exact (selectorHeld_effect h1 _).plain
    · refine h1.work.plain h1.interlock ?_ ?_ <;> rw [State.entry_editEntry, if_neg (by decide)] <;> rfl
  next => exact .refl s

theorem selectorFailed_effect {a s : State} (h : Effect a s) (x : Holder) : Effect a (s.selectorFailed x) := by
  unfold State.selectorFailed
  split
  · exact endRegen_effect h _ _
  · split
    · exact finishFill_effect h _ _ _
    · exact h

theorem State.lease_freeLease_ne (s : State) {r q : Resource} (h : q ≠ r) :
    ((s.freeLease r).entry q).lease = (s.entry q).lease := by
  unfold State.freeLease
  rw [State.entry_congr (congrArg Arbiter.table (reportSwitching_rest s _).1), State.entry_putEntry, if_neg h,
    State.entry_congr (congrArg Arbiter.table (s.table_dropDrive r))]

/-- The part whose travel has been given up: the fault, SELECTOR FREE, its position UNKNOWN. -/
def State.travelFailed (s : State) : State :=
  let t := (s.fault .selectorTimeout 0 (columnCode s.arb.selHeld)).freeLease .selector
  { t with arb := { t.arb with selCurrent := none } }

/-- A travel has passed its limit. -/
def State.travelLate (s : State) : Bool :=
  match s.drive.travel with
  | some t => t.due
  | none => false

theorem State.selectorTimeOut_eq (s : State) : s.selectorTimeOut =
    if (s.entry .selector).lease = .moving ∧ s.travelLate = true then
      match (s.entry .selector).holder with
      | some h => (s.travelFailed.selectorFailed h).settle
      | none => s.travelFailed
    else s := rfl

theorem State.entry_fault (s : State) (k : FaultKind) (x d : Nat) (r : Resource) : (s.fault k x d).entry r = s.entry r :=
  State.entry_congr (congrArg Arbiter.table (s.arb_fault k x d)) r

theorem travelFailed_effect {s : State} (h : (s.entry .selector).lease = .moving) : Effect s s.travelFailed := by
  refine (freeLease_effect (fault_effect (.refl s) .selectorTimeout 0 (columnCode s.arb.selHeld)) .selector
    fun _ k => ?_).trans (.of_idle rfl rfl rfl rfl rfl rfl rfl rfl)
  exact k.inlet_free (by rw [State.entry_fault, h])

theorem State.lease_travelFailed_ne (s : State) {r : Resource} (h : r ≠ .selector) :
    (s.travelFailed.entry r).lease = (s.entry r).lease :=
  (State.lease_freeLease_ne _ h).trans (congrArg Entry.lease (s.entry_fault _ _ _ r))

theorem selectorTimeOut_plain (s : State) : Plain s s.selectorTimeOut := by
  rw [State.selectorTimeOut_eq]
  split
  next h =>
    have h1 := travelFailed_effect h.1
    split
    · exact (selectorFailed_effect h1 _).plain
    · exact h1.work.plain h1.interlock (s.lease_travelFailed_ne (by decide)) (s.lease_travelFailed_ne (by decide))
  next => exact .refl s

/-! ### The door and the rod -/

theorem rodExtend_plain (s : State) : Plain s s.rodExtend :=
  .ite _ ((setRod_effect (.refl s) _).plain_of_table rfl) (.refl s)

theorem rodHold_plain (s : State) : Plain s s.rodHold := by
  unfold State.rodHold
  exact (release_effect (.refl s) _).plain_when _

theorem pushStall_plain (s : State) (cause : StallCause) : Plain s (s.pushStall cause) := by
  unfold State.pushStall
  exact (pushStalled_effect (doorStep_effect s) cause).plain_when _

theorem rodRetract_plain (s : State) : Plain s s.rodRetract := by
  unfold State.rodRetract
  exact (retractEnded_effect (.refl s)).plain_when _

theorem retractLate_plain (s : State) : Plain s s.retractLate := by
  unfold State.retractLate
  split
  · exact (retractTimedOut_effect (.refl s)).plain_when _
  · exact .refl s

theorem dryDelay_plain (s : State) : Plain s s.dryDelay := by
  unfold State.dryDelay
  split
  · exact .refl s
  · split
    · exact (dryDelayPassed_effect (.refl s) _).plain_when _
    · exact .refl s

theorem dryAjarPassed_plain (s : State) : Plain s s.dryAjarPassed := by
  unfold State.dryAjarPassed
  split
  · exact .refl s
  · split
    · exact (finishDoor_effect (.refl s) _ _ _).plain_when _
    · exact .refl s

/-! ### The link -/

theorem resetPort_plain (s : State) (p : Port) : Plain s (s.resetPort p) := by
  unfold State.resetPort
  exact ((resetSlots_effect (.refl s) p).work.trans (setPort_plain _ p _).work).settle

theorem lineFault_plain (s : State) (p : Port) (rx : RxState) (k : FaultKind) (x d : Nat) :
    Plain s ((s.setRx p rx).fault k x d) := (setRx_plain s p rx).trans (fault_plain _ k x d)

theorem checkError_plain (s : State) (p : Port) (covered : List Nat) (check : Nat) :
    Plain s (if crc16 covered = check ∨ (s.port p).rx = .resync then s
      else if ((s.setRx p .synced).port p).resetPending then s.setRx p .synced
      else (s.setRx p .synced).fault .checkError (portCode p) check) :=
  .ite _ (.refl s) (.ite _ (setRx_plain s p _) (lineFault_plain s p _ _ _ _))

theorem responseSent_plain (s : State) (p : Port) : Plain s (match (s.port p).txq with
    | [] => s
    | r :: rest => if r.makesReset then (s.setPort p { s.port p with txq := rest }).resetPort p
        else s.setPort p { s.port p with txq := rest }) := by
  split
  · exact .refl s
  · have h := setPort_plain s p { s.port p with txq := ‹List Response› }
    exact .ite _ (h.trans (resetPort_plain _ p)) h

theorem cancelSlot_reply_plain (s : State) (i : SlotId) (p : Port) (tag : Nat) (o : OutcomeCode) (fields : List Byte) :
    Plain s ((s.cancelSlot i true).reply p tag o fields).settle :=
  ((cancelSlot_effect (.refl s) i true).work.trans (reply_plain _ p tag o fields).work).settle

/-! ### Requests that change an owner's block -/

/-- An effect answered and settled. -/
theorem Effect.reply_settle {s t : State} (h : Effect s t) (p : Port) (tag : Nat) (o : OutcomeCode) (fields : List Byte) :
    Plain s (t.reply p tag o fields).settle :=
  (h.work.trans (reply_plain t p tag o fields).work).settle

/-- An effect that leaves the table, answered. -/
theorem Effect.reply_of_table {s t : State} (h : Effect s t) (ha : t.arb.table = s.arb.table) (p : Port) (tag : Nat)
    (o : OutcomeCode) (fields : List Byte) : Plain s (t.reply p tag o fields) :=
  (h.plain_of_table ha).trans (reply_plain t p tag o fields)

theorem saltReported_plain (s : State) : Plain s s.saltReported := by
  refine (saltReported_effect (.refl s)).plain_of_table ?_
  unfold State.saltReported
  split <;> rfl

theorem loadReservoir_plain {s t : State} {n : ReservoirId} {x : Nat} (h : s.loadReservoir n x = some t) : Plain s t := by
  simp only [State.loadReservoir, Option.ite_none_right_eq_some, Option.some.injEq] at h
  obtain ⟨hle, rfl⟩ := h
  exact (setReservoir_effect (.refl s) n _ fun _ => hle).plain_of_table rfl

theorem loadSalt_plain {s t : State} {x : Nat} (h : s.loadSalt x = some t) : Plain s t := by
  simp only [State.loadSalt, Option.ite_none_right_eq_some, Option.some.injEq] at h
  obtain ⟨hle, rfl⟩ := h
  exact ((setSalt_effect (.refl s) { s.acct.salt with amount := x, known := true } fun _ => hle).plain_of_table rfl).trans (saltReported_plain _)

theorem loadColumn_plain {s t : State} {c : Column} {x st : Nat} (h : s.loadColumn c x st = some t) : Plain s t := by
  unfold State.loadColumn at h
  split at h
  · cases h
  · simp only [Option.ite_none_right_eq_some, Option.some.injEq] at h
    obtain ⟨⟨hle, hother, -⟩, rfl⟩ := h
    refine (setColumn_effect (.refl s) c _ (fun _ k => hother k) fun _ _ => hle).plain_of_table ?_
    exact congrArg Arbiter.table (s.setColumn_arb c _)

theorem loadAccount_plain {s t : State} {target amount st : Nat} (h : s.loadAccount target amount st = some t) : Plain s t := by
  unfold State.loadAccount at h
  split at h
  · exact loadReservoir_plain h
  · exact loadReservoir_plain h
  · exact loadReservoir_plain h
  · exact loadSalt_plain h
  · exact loadColumn_plain h
  · exact loadColumn_plain h
  · cases h

theorem doorReset_plain (u : State) (p : Port) (tag : Nat) (f : State → List Byte) :
    Plain u (if u.door.rod.state ≠ .stalled then u.reply p tag .state (f u)
      else if u.hasHolder .doorDrive then u.reply p tag .busy (f u)
      else if u.door.rod.ret.value = false then u.reply p tag .state (f u)
      else (u.clearRod.reply p tag .ok (f u.clearRod)).settle) :=
  .ite _ (reply_plain u _ _ _ _) <| .ite _ (reply_plain u _ _ _ _) <| .ite _ (reply_plain u _ _ _ _)
    ((setRod_effect (.refl u) _).reply_settle _ _ _ _)

theorem halted_ne {ch : Channel} (h : ch.state = .halted) : ch.state ≠ .idle ∧ ch.state ≠ .dosing := by
  rw [h]; decide

theorem doseDisarm_plain (s : State) (p : Port) (tag : Nat) (c : ChannelId) :
    Plain s (match (s.channel c).state with
      | .idle => s.reply p tag .state []
      | .waitingPump => s.reply p tag .busy []
      | .dosing => s.reply p tag .busy []
      | .armed => (s.idleChannel c).reply p tag .ok []
      | .halted => (((s.releaseIf (channelWho c) (s.channelPump (s.channel c))).idleChannel c).reply p tag .ok []).settle) := by
  split
  · exact reply_plain s _ _ _ _
  · exact reply_plain s _ _ _ _
  · exact reply_plain s _ _ _ _
  · exact (idleChannel_effect (.refl s) c).reply_of_table rfl _ _ _ _
  · exact (idleChannel_effect (releaseIf_effect (.refl s) _ _) c).reply_settle _ _ _ _

end Sys2Proof.Machine

/-! Every command keeps the laws: the plain ones from their owners' lemmas, the others one by one. -/

namespace Sys2Proof.Machine

/-! ### The plain commands -/

/-- The commands that change nothing but what an owner's work changes. -/
def plainCommand : Instr → Bool
  | .deviceReset _ => false | .configWrite _ _ _ _ _ => false | .commit _ _ => false | .enterSetup _ _ => false
  | .descWrite _ _ _ _ => false | .senseRead _ _ _ _ => false | .senseMode _ _ _ => false | .senseTableWrite _ _ _ => false
  | .tripClear _ _ => false | .drivePeriodEnd _ => false | .runClockSecond => false | .doorStateChange => false
  | .scanRoundStart _ => false | .measurementEnd _ _ => false
  | c => !isOperation c

/-- A change of the Protection Unit's records that leaves the causes. -/
theorem prot_effect (s : State) (x : Protection) (hf : x.flood = s.prot.flood) (ho : x.overfill = s.prot.overfill)
    (ht : x.overtemp = s.prot.overtemp) : Effect s { s with prot := x } :=
  .of_idle (by simp only [State.fixed, hf, ho, ht]) rfl rfl rfl rfl rfl rfl rfl

theorem accountLoad_plain (s : State) (p : Port) (tag target amount st : Nat) :
    Plain s (if s.mode = .run then s.reply p tag .wrongMode []
      else match s.loadAccount target amount st with
        | some t => t.reply p tag .ok []
        | none => s.reply p tag .badParam []) := by
  refine .ite _ (reply_plain s _ _ _ _) ?_
  split
  next t h => exact (loadAccount_plain h).trans (reply_plain t _ _ _ _)
  next => exact reply_plain s _ _ _ _

theorem cancel_plain (s : State) (p : Port) (tag target : Nat) :
    Plain s (match s.tagSlot p target with
      | none => s.reply p tag .unknownTag []
      | some i =>
        match s.pool[i].bind (·.outcome) with
        | some _ => s.reply p tag .ok (byte1 1)
        | none => ((s.cancelSlot i true).reply p tag .ok (byte1 0)).settle) := by
  split
  · exact reply_plain s _ _ _ _
  · split
    · exact reply_plain s _ _ _ _
    · exact cancelSlot_reply_plain s _ _ _ _ _

theorem subscribe_plain (s : State) (p : Port) (tag slot filter mask enable : Nat) :
    Plain s (match finOf 6 slot with
      | none => s.reply p tag .badParam []
      | some k =>
        if 1 < enable then s.reply p tag .badParam []
        else (s.setPort p { s.port p with subs := upd (s.port p).subs k (Sub.written filter mask enable) }).reply p tag .ok
          (flagByte (s.port p).subs[k].held.isSome)) := by
  split
  · exact reply_plain s _ _ _ _
  · exact .ite _ (reply_plain s _ _ _ _) ((setPort_plain s p _).trans (reply_plain _ p _ _ _))

theorem doseArm_plain (s : State) (p : Port) (tag channel number : Nat) :
    Plain s (match finOf 4 channel, finOf 32 number with
      | some c, some n =>
        if descEmpty s.dose.descs[n] then s.reply p tag .badParam []
        else if (s.channel c).state ≠ .idle then s.reply p tag .busy []
        else ((s.loadDesc c n).reply p tag .ok (byte2 ((s.loadDesc c n).channel c).loaded)).settle
      | _, _ => s.reply p tag .badParam []) := by
  split
  next c n _ _ =>
    split
    next => exact reply_plain s _ _ _ _
    next he =>
      have hload := loadDesc_effect (.refl s) c (Bool.eq_false_iff.mpr he)
      exact .ite _ (reply_plain s _ _ _ _) (hload.reply_settle _ _ _ _)
  next => exact reply_plain s _ _ _ _

theorem doseTrigger_plain (s : State) (p : Port) (tag : Nat) (c : ChannelId) :
    Plain s (if (s.channel c).state = .idle ∨ sourceOf (s.currentDesc (s.channel c)).source ≠ some .request
      then s.reply p tag .state []
      else ((s.triggerChannel c).reply p tag .ok (flagByte (s.channel c).flag)).settle) :=
  .ite _ (reply_plain s _ _ _ _) ((triggerChannel_effect (.refl s) c).reply_settle _ _ _ _)

theorem doseClearTrigger_plain (s : State) (p : Port) (tag : Nat) (c : ChannelId) :
    Plain s ((s.setChannel c { s.channel c with flag := false }).reply p tag .ok (flagByte (s.channel c).flag)) :=
  Effect.reply_of_table (setChannel_effect (.refl s) c { s.channel c with flag := false }
    fun _ k => k.of_same rfl rfl rfl rfl rfl) rfl _ _ _ _

theorem doseStop_plain (s : State) (p : Port) (tag : Nat) (c : ChannelId) :
    Plain s (if (s.channel c).state = .idle then s.reply p tag .state []
      else ((s.stopChannel c).reply p tag .ok []).settle) :=
  .ite _ (reply_plain s _ _ _ _) ((stopChannel_effect (.refl s) c).reply_settle _ _ _ _)

theorem doseResume_plain (s : State) (p : Port) (tag : Nat) (c : ChannelId) :
    Plain s (if (s.channel c).state = .halted ∧ s.resumable (s.channel c) = true
      then ((s.returnChannel c).reply p tag .ok []).settle else s.reply p tag .state []) := by
  split
  next h =>
    obtain ⟨hi, hd⟩ := halted_ne h.1
    exact (returnChannel_effect (.refl s) c hi hd).reply_settle _ _ _ _
  next => exact reply_plain s _ _ _ _

theorem circSpeed_plain (s : State) (p : Port) (tag circTag duty : Nat) :
    Plain s (if duty < 1 ∨ 255 < duty then s.reply p tag .badParam []
      else if s.circHeldBy p circTag then
        ({ s with drive := { s.drive with circ := { s.drive.circ with staged := duty, applyPending := true } } }
          : State).reply p tag .ok []
      else s.reply p tag .state []) :=
  .ite _ (reply_plain s _ _ _ _) <| .ite _ (Effect.reply_of_table
    (drive_effect (.refl s) { s.drive with circ := { s.drive.circ with staged := duty, applyPending := true } } rfl rfl) rfl
    _ _ _ _) (reply_plain s _ _ _ _)

theorem senseTableRead_plain (s : State) (p : Port) (tag form number : Nat) :
    Plain s (match form with
      | 0 =>
        match finOf 16 number with
        | some n => s.reply p tag .ok (pointBytes (s.point n))
        | none => s.reply p tag .badParam []
      | 1 =>
        match finOf 4 number with
        | some g => s.reply p tag .ok (s.groupBytes g)
        | none => s.reply p tag .badParam []
      | _ => s.reply p tag .badParam []) := by
  split
  · split <;> exact reply_plain s _ _ _ _
  · split <;> exact reply_plain s _ _ _ _
  · exact reply_plain s _ _ _ _

theorem faultClear_plain (s : State) (p : Port) (tag groups : Nat) :
    Plain s (if 31 < groups then s.reply p tag .badParam []
      else ({ s with prot := s.prot.cleared groups } : State).reply p tag .ok (byte1 (s.prot.heldOf groups))) :=
  .ite _ (reply_plain s _ _ _ _) (Effect.reply_of_table (prot_effect s (s.prot.cleared groups) rfl rfl rfl) rfl _ _ _ _)

theorem portReset_plain (s : State) (p : Port) (r : Response) :
    Plain s ((s.send p r).setPort p { (s.send p r).port p with resetPending := true }) :=
  (setPort_plain s p _).trans (setPort_plain _ p _)

theorem rampStep_plain (s : State) (g : RampGen) : Plain s (s.rampStep g) := by
  cases g with
  | circ => exact circStep_plain s
  | doorDrive => exact doorStep_plain s

theorem transmitQueueFull_plain (s : State) (p : Port) :
    Plain s (if Config.immediateResponses ≤ (s.port p).immediateCount then s.takeFrame p id else s) :=
  .ite _ (takeFrame_plain s p fun u => .refl u) (.refl s)

theorem badRequest_plain (s : State) (p : Port) (kind tag : Nat) (body : List Nat) :
    Plain s (if (decodeRequest p kind tag body).isNone then s.takeFrame p fun s => s.reply p tag .badRequest [] else s) :=
  .ite _ (takeFrame_plain s p fun u => reply_plain u _ _ _ _) (.refl s)

theorem decilitreCounted_plain (s : State) : Plain s (if s.decilitreNext then s.flowPulse.settle else s) :=
  (flowPulse_effect (.refl s)).plain_when _

/-- One command of the receiver, whatever its state. -/
theorem rx_plain {s : State} {p : Port} {a b : State} {c : Nat → State} (ha : Plain s a) (hb : Plain s b)
    (hc : ∀ n, Plain s (c n)) :
    Plain s (match (s.port p).rx with | .resync => a | .synced => b | .inFrame n => c n) := by
  split
  · exact ha
  · exact hb
  · exact hc _

theorem optReply_plain (s : State) (p : Port) (tag : Nat) {α : Type} (x : Option α) (f : α → List Byte) :
    Plain s (match x with | some a => s.reply p tag .ok (f a) | none => s.reply p tag .badParam []) := by
  cases x with
  | some a => exact reply_plain s _ _ _ _
  | none => exact reply_plain s _ _ _ _

theorem exec_plain {c : Instr} (h : plainCommand c = true) (s : State) : ∃ t, exec c s = .next t ∧ Plain s t := by
  cases c with
  | breakLine p => exact ⟨_, rfl, (resetPort_plain s p).trans (setRx_plain _ p _)⟩
  | lineIdle p => exact ⟨_, rfl, rx_plain (setRx_plain s p _) (.refl s) fun _ => .refl s⟩
  | startByte p =>
    refine ⟨_, rfl, ?_⟩
    split
    · exact setRx_plain s p _
    · exact .refl s
    · exact .refl s
  | frameError p =>
    refine ⟨_, rfl, ?_⟩
    split
    · exact lineFault_plain s p _ _ _ _
    · exact .refl s
    · exact .refl s
  | frameGapTimeout p taken =>
    refine ⟨_, rfl, ?_⟩
    split
    · exact lineFault_plain s p _ _ _ _
    · exact .refl s
    · exact .refl s
  | overlong p length =>
    refine ⟨_, rfl, ?_⟩
    split
    · exact .ite _ (lineFault_plain s p _ _ _ _) (.refl s)
    · exact .refl s
    · exact .refl s
  | checkError p covered check => exact ⟨_, rfl, checkError_plain s p covered check⟩
  | transmitQueueFull p => exact ⟨_, rfl, transmitQueueFull_plain s p⟩
  | badRequest p kind tag body => exact ⟨_, rfl, badRequest_plain s p kind tag body⟩
  | responseSent p => exact ⟨_, rfl, responseSent_plain s p⟩
  | configRead p tag item index =>
    exact ⟨_, rfl, immediate_plain s p tag fun u => by split <;> exact reply_plain u _ _ _ _⟩
  | accountLoad p tag target amount st => exact ⟨_, rfl, immediate_plain s p tag fun u => accountLoad_plain u p tag _ _ _⟩
  | circSpeed p tag circTag duty => exact ⟨_, rfl, immediate_plain s p tag fun u => circSpeed_plain u p tag _ _⟩
  | doorReset p tag =>
    exact ⟨_, rfl, immediate_plain s p tag fun u => doorReset_plain u p tag fun v => byte1 (rodStateCode v.door.rod.state)⟩
  | descRead p tag number =>
    exact ⟨_, rfl, immediate_plain s p tag fun u => by split <;> exact reply_plain u _ _ _ _⟩
  | doseArm p tag channel number => exact ⟨_, rfl, immediateInRun_plain s p tag fun u => doseArm_plain u p tag _ _⟩
  | doseTrigger p tag channel =>
    exact ⟨_, rfl, immediateInRun_plain s p tag fun u => onChannel_plain u p tag channel fun c => doseTrigger_plain u p tag c⟩
  | doseClearTrigger p tag channel =>
    exact ⟨_, rfl, immediate_plain s p tag fun u => onChannel_plain u p tag channel fun c => doseClearTrigger_plain u p tag c⟩
  | doseStop p tag channel =>
    exact ⟨_, rfl, immediate_plain s p tag fun u => onChannel_plain u p tag channel fun c => doseStop_plain u p tag c⟩
  | doseResume p tag channel =>
    exact ⟨_, rfl, immediate_plain s p tag fun u => onChannel_plain u p tag channel fun c => doseResume_plain u p tag c⟩
  | doseDisarm p tag channel =>
    exact ⟨_, rfl, immediate_plain s p tag fun u => onChannel_plain u p tag channel fun c => doseDisarm_plain u p tag c⟩
  | doseStatus p tag channel =>
    exact ⟨_, rfl, immediate_plain s p tag fun u => .ite _ (reply_plain u _ _ _ _)
      (onChannel_plain u p tag channel fun c => reply_plain u _ _ _ _)⟩
  | senseTableRead p tag form number => exact ⟨_, rfl, immediate_plain s p tag fun u => senseTableRead_plain u p tag _ _⟩
  | status p tag sec => exact ⟨_, rfl, immediate_plain s p tag fun u => by split <;> exact reply_plain u _ _ _ _⟩
  | accountsRead p tag => exact ⟨_, rfl, immediate_plain s p tag fun u => reply_plain u _ _ _ _⟩
  | readDraws p tag start => exact ⟨_, rfl, immediate_plain s p tag fun u => reply_plain u _ _ _ _⟩
  | faultRead p tag => exact ⟨_, rfl, immediate_plain s p tag fun u => reply_plain u _ _ _ _⟩
  | faultClear p tag groups => exact ⟨_, rfl, immediate_plain s p tag fun u => faultClear_plain u p tag groups⟩
  | cancel p tag target => exact ⟨_, rfl, immediate_plain s p tag fun u => cancel_plain u p tag target⟩
  | portReset p tag => exact ⟨_, rfl, immediate_plain s p tag fun u => portReset_plain u p _⟩
  | subscribe p tag slot filter mask enable =>
    exact ⟨_, rfl, immediate_plain s p tag fun u => subscribe_plain u p tag _ _ _ _⟩
  | fetchEvents p tag =>
    exact ⟨_, rfl, immediate_plain s p tag fun u => (setPort_plain u p _).trans (reply_plain _ p _ _ _)⟩
  | rampStep g => exact ⟨_, rfl, rampStep_plain s g⟩
  | selectorArrival => exact ⟨_, rfl, selectorArrive_plain s⟩
  | selectorTimeout => exact ⟨_, rfl, selectorTimeOut_plain s⟩
  | flowPulse => exact ⟨_, rfl, (flowPulse_effect (.refl s)).plain⟩
  | decilitreCounted => exact ⟨_, rfl, decilitreCounted_plain s⟩
  | fillNoFlowTimeout => exact ⟨_, rfl, fillNoFlow_plain s⟩
  | circulateRunEnd => exact ⟨_, rfl, circRunEnd_plain s⟩
  | heatLimitExpiry slot => exact ⟨_, rfl, heatLimitEnd_plain s slot⟩
  | drainPostrunEnd => exact ⟨_, rfl, drainPostrunEnd_plain s⟩
  | drainLimitExpiry => exact ⟨_, rfl, drainLimitEnd_plain s⟩
  | regenHeadTaken => exact ⟨_, rfl, (takeHead_effect (.refl s)).plain⟩
  | soakEnd => exact ⟨_, rfl, soakEnded_plain s⟩
  | regenNoFlowTimeout => exact ⟨_, rfl, regenNoFlow_plain s⟩
  | doseStrokeEnd pump => exact ⟨_, rfl, strokeEnd_plain s pump⟩
  | doseIntervalEnd channel => exact ⟨_, rfl, intervalEnd_plain s channel⟩
  | doseDelayExpiry channel => exact ⟨_, rfl, delayExpiry_plain s channel⟩
  | forcePostrunEnd => exact ⟨_, rfl, forcePostrunEnd_plain s⟩
  | rodExtended => exact ⟨_, rfl, rodExtend_plain s⟩
  | rodHoldEnd => exact ⟨_, rfl, rodHold_plain s⟩
  | pushStall cause => exact ⟨_, rfl, pushStall_plain s cause⟩
  | rodRetracted => exact ⟨_, rfl, rodRetract_plain s⟩
  | retractTimeout => exact ⟨_, rfl, retractLate_plain s⟩
  | dryDelayEnd => exact ⟨_, rfl, dryDelay_plain s⟩
  | dryAjarEnd => exact ⟨_, rfl, dryAjarPassed_plain s⟩
  | _ => exact absurd h (by simp [plainCommand, isOperation])

end Sys2Proof.Machine

/-! The commands that change something only they change: the part mode, the descriptors, the acceptances, the sense points, the
causes. `Alters f s t`: what the view `f` leaves of the fixed part stands, and the laws are kept. -/

namespace Sys2Proof.Machine

/-! ### Commands that alter the fixed part -/

/-- A command that keeps the laws, and what the view `f` shows of what no owner's work changes. -/
structure Alters (f : Fixed → Fixed) (s t : State) : Prop where
  fixed : f t.fixed = f s.fixed
  kept : Kept s t

theorem Plain.alters {s t : State} (h : Plain s t) (f : Fixed → Fixed) : Alters f s t := ⟨congrArg f h.fixed, h.kept⟩

theorem Alters.trans {f : Fixed → Fixed} {s t u : State} (h : Alters f s t) (k : Alters f t u) : Alters f s u :=
  ⟨k.fixed.trans h.fixed, h.kept.trans k.kept⟩

theorem Alters.refl (f : Fixed → Fixed) (s : State) : Alters f s s := ⟨rfl, .refl s⟩

theorem Alters.ite {f : Fixed → Fixed} {s t u : State} (p : Prop) [Decidable p] (h : Alters f s t) (k : Alters f s u) :
    Alters f s (if p then t else u) := by
  split
  · exact h
  · exact k

theorem Alters.reply {f : Fixed → Fixed} {s t : State} (h : Alters f s t) (p : Port) (tag : Nat) (o : OutcomeCode)
    (fields : List Byte) : Alters f s (t.reply p tag o fields) := h.trans ((reply_plain t p tag o fields).alters f)

theorem reply_alters (f : Fixed → Fixed) (s : State) (p : Port) (tag : Nat) (o : OutcomeCode) (fields : List Byte) :
    Alters f s (s.reply p tag o fields) := (reply_plain s p tag o fields).alters f

theorem takeFrame_alters {f : Fixed → Fixed} (s : State) (p : Port) {act : State → State} (h : ∀ u, Alters f u (act u)) :
    Alters f s (s.takeFrame p act) := by
  have h1 := (setRx_plain s p .synced).alters f
  rcases takeFrame_cases s p act with e | e | e | ⟨-, e⟩ <;> rw [e]
  · exact .refl f s
  · exact h1
  · exact h1.trans ((fault_plain _ _ _ _).alters f)
  · exact h1.trans (h _)

theorem immediate_alters {f : Fixed → Fixed} (s : State) (p : Port) (tag : Nat) {act : State → State}
    (h : ∀ u, Alters f u (act u)) : Alters f s (s.immediate p tag act) :=
  takeFrame_alters s p fun u => .ite _ (reply_alters f u _ _ _ _) (h u)

/-! ### An operation accepted (R184) -/

/-- One slot more is taken: a filter that gains at most place `i` is longer by at most 1. -/
theorem length_filter_le_succ {f g : SlotId → Bool} (i : SlotId) (h : ∀ j, j ≠ i → g j = f j) :
    (allSlots.filter g).length ≤ (allSlots.filter f).length + 1 := by
  have hsub : allSlots.filter g ⊆ i :: allSlots.filter f := fun j hj => by
    obtain ⟨hm, hj⟩ := List.mem_filter.mp hj
    by_cases e : j = i
    · exact e ▸ List.mem_cons_self
    · exact List.mem_cons_of_mem _ (List.mem_filter.mpr ⟨hm, h j e ▸ hj⟩)
  exact (((List.nodup_finRange 12).filter _).subperm hsub).length_le

/-- A slot is free or taken: the taken ones of any kind leave room for the free ones. -/
theorem State.normalSlots_add_freeSlots (s : State) : s.normalSlots + s.freeSlots ≤ 12 := by
  have htaken : s.normalSlots ≤ (allSlots.filter fun i => !s.pool[i].isNone).length :=
    length_filter_le _ fun i hi => by cases h : s.pool[i] <;> simp_all
  have hall := List.length_eq_length_filter_add (l := allSlots) fun i => s.pool[i].isNone
  have hlen : allSlots.length = 12 := rfl
  unfold State.freeSlots
  omega

theorem State.pool_accept_ne (s : State) (p : Port) (tag : Nat) (w : Work) {i j : SlotId} (h : j ≠ i) :
    (s.accept p tag w i).pool[j] = s.pool[j] := upd_ne _ h _

theorem State.pool_accept_self (s : State) (p : Port) (tag : Nat) (w : Work) (i : SlotId) :
    (s.accept p tag w i).pool[i] = some ⟨p, tag, w, s.accepted, s.laps, none⟩ := upd_self _ _ _

/-- The reserve that a NORMAL-ring port leaves. -/
theorem State.meetsReserve_normal {s : State} {p : Port} (hu : s.cfg.portUrgent[portIndex p] = false)
    (h : s.meetsReserve p = true) : 3 ≤ s.freeSlots := by
  unfold State.meetsReserve at h
  dsimp only at h
  rw [hu, if_neg (by decide)] at h
  exact of_decide_eq_true h

/-- The share that an URGENT-ring port may take. -/
theorem State.meetsReserve_urgent {s : State} {p : Port} (hu : s.cfg.portUrgent[portIndex p] = true)
    (h : s.meetsReserve p = true) : (s.portSlots p).length < 5 := by
  unfold State.meetsReserve at h
  dsimp only at h
  rw [hu, if_pos rfl, Bool.and_eq_true] at h
  exact of_decide_eq_true h.1

/-- Law 10 is what the reserve rule of an acceptance is for. -/
theorem State.poolShared.accept {s : State} (h : s.poolShared) {p : Port} (tag : Nat) (w : Work) (i : SlotId)
    (hm : s.mode = .run) (hr : s.meetsReserve p = true) : (s.accept p tag w i).poolShared := by
  obtain ⟨-, hnormal, hurgent⟩ := h
  have hroom := s.normalSlots_add_freeSlots
  refine ⟨fun k => absurd (hm.symm.trans k) (by decide), ?_, fun q hq => ?_⟩
  · by_cases hu : s.cfg.portUrgent[portIndex p] = true
    · refine le_trans (length_filter_le _ fun j hj => ?_) hnormal
      by_cases e : j = i
      · subst e
        rw [s.pool_accept_self p tag w j] at hj
        have hn : (!s.cfg.portUrgent[portIndex p]) = true := hj
        rw [hu] at hn
        exact absurd hn (by decide)
      · rwa [s.pool_accept_ne p tag w e] at hj
    · have hfree := State.meetsReserve_normal (Bool.eq_false_iff.mpr hu) hr
      have hone : (s.accept p tag w i).normalSlots ≤ s.normalSlots + 1 := length_filter_le_succ i fun j e => by
        rw [s.pool_accept_ne p tag w e]
        rfl
      omega
  · by_cases hqp : q = p
    · subst hqp
      have hcfg : s.cfg.portUrgent[portIndex q] = true := hq
      have hheld := State.meetsReserve_urgent hcfg hr
      have hone : ((s.accept q tag w i).portSlots q).length ≤ (s.portSlots q).length + 1 := length_filter_le_succ i fun j e => by
        rw [s.pool_accept_ne q tag w e]
      omega
    · refine le_trans (length_filter_le _ fun j hj => ?_) (hurgent q hq)
      by_cases e : j = i
      · subst e
        rw [s.pool_accept_self p tag w j] at hj
        exact absurd (beq_iff_eq.mp hj) (Ne.symm hqp)
      · rwa [s.pool_accept_ne p tag w e] at hj

theorem accept_works {s : State} {p : Port} (tag : Nat) (w : Work) (i : SlotId) (hm : s.mode = .run)
    (hr : s.meetsReserve p = true) : Works s (s.accept p tag w i) where
  tables h := h.congr rfl rfl rfl
  flag _ h := h
  books _ h := h.congr rfl rfl rfl rfl
  legal h := h
  pool h := h.accept tag w i hm hr

/-- What an accepted operation alters: the acceptance order and the count of its wraps. -/
def butAccepted (f : Fixed) : Fixed := { f with accepted := 0, laps := 0 }

theorem operation_alters (s : State) (p : Port) (tag : Nat) (w : Work) (trips : Bool) {takeUp : State → SlotId → State}
    (h : ∀ u i, Effect u (takeUp u i)) : Alters butAccepted s (s.operation p tag w trips takeUp) := by
  refine takeFrame_alters s p fun u => ?_
  refine .ite _ (reply_alters _ u _ _ _ _) ?_
  split
  next => exact reply_alters _ u _ _ _ _
  next hm =>
    have hm : u.mode = .run := by cases e : u.mode <;> simp_all
    refine .ite _ (reply_alters _ u _ _ _ _) ?_
    split
    next i _ =>
      split
      next hr =>
        have heff := h (u.accept p tag w i) i
        have hset := settle_settled heff.settled
        exact ⟨(congrArg butAccepted hset.fixed).trans rfl, ((accept_works tag w i hm hr).trans heff.work.works).settle⟩
      next => exact reply_alters _ u _ _ _ _
    next => exact reply_alters _ u _ _ _ _

/-! ### DESC_WRITE (R94) -/

def butDescs (f : Fixed) : Fixed := { f with descs := Vector.replicate 32 descReset }

theorem writeDesc_alters (s : State) (n : DescId) (d : Desc) (h : descEmpty d = false → descFieldsInRange d = true) :
    Alters butDescs s ({ s with dose := { s.dose with descs := upd s.dose.descs n d } } : State) := by
  refine ⟨rfl, Works.kept (.of_same rfl rfl rfl rfl rfl rfl (.of_eq rfl) fun _ b => ?_) rfl rfl rfl⟩
  refine ⟨b.weak, fun m hm => ?_, b.one, b.queue, b.columns, b.amounts, b.log, b.channels⟩
  change descEmpty (upd s.dose.descs n d)[m] = false at hm
  show descFieldsInRange (upd s.dose.descs n d)[m] = true
  rw [upd_get] at hm ⊢
  split at hm
  next e => rw [if_pos e]; exact h hm
  next e => rw [if_neg e]; exact b.descs m hm

theorem descWrite_alters (s : State) (p : Port) (tag number : Nat) (d : Desc) :
    Alters butDescs s (match finOf 32 number with
      | none => s.reply p tag .badParam []
      | some n =>
        if 3 < d.reservoir then s.reply p tag .badParam []
        else if d.reservoir ≠ 0 ∧ descFieldsInRange d = false then s.reply p tag .badParam []
        else if s.descCurrent n then s.reply p tag .busy []
        else ({ s with dose := { s.dose with descs := upd s.dose.descs n d } } : State).reply p tag .ok []) := by
  split
  next => exact reply_alters _ s _ _ _ _
  next n _ =>
    refine .ite _ (reply_alters _ s _ _ _ _) ?_
    split
    next => exact reply_alters _ s _ _ _ _
    next hd =>
      refine .ite _ (reply_alters _ s _ _ _ _) ((writeDesc_alters s n d fun he => ?_).reply _ _ _ _)
      simp only [descEmpty, beq_eq_false_iff_ne] at he
      simpa [he] using hd

/-! ### COMMIT and ENTER_SETUP (R187, R188) -/

def butMode (f : Fixed) : Fixed := { f with mode := .run }

theorem State.lease_editEntry (s : State) (r q : Resource) (f : Entry → Entry) (h : (f (s.entry r)).lease = (s.entry r).lease) :
    ((s.editEntry r f).entry q).lease = (s.entry q).lease := by
  rw [State.entry_editEntry]
  split
  next e => subst e; exact h
  next => rfl

theorem State.lease_ask (s : State) (r q : Resource) (who : Holder) (n : Nat) (want : Option Column) :
    ((s.ask r who n want).entry q).lease = (s.entry q).lease := s.lease_editEntry r q _ rfl

/-- A judgement of the queue grants nothing. -/
theorem State.lease_takeHead (s : State) (q : Resource) : (s.takeHead.entry q).lease = (s.entry q).lease := by
  unfold State.takeHead
  split
  · rfl
  · split
    · split
      · split <;> rfl
      · exact State.lease_ask _ _ _ _ _ _
    · rfl

theorem takeHead_plain (s : State) : Plain s s.takeHead :=
  have h := takeHead_effect (.refl s)
  h.work.plain h.interlock (s.lease_takeHead _) (s.lease_takeHead _)

theorem State.arb_joinTail (s : State) (c : Column) : (s.joinTail c).arb = s.arb := by
  unfold State.joinTail
  split <;> rfl

theorem State.arb_queueExhausted (s : State) : s.queueExhausted.arb = s.arb := by
  unfold State.queueExhausted
  dsimp only
  split <;> split <;> simp only [State.arb_joinTail]

theorem queueExhausted_plain (s : State) : Plain s s.queueExhausted :=
  (queueExhausted_effect (.refl s)).plain_of_table (congrArg Arbiter.table s.arb_queueExhausted)

theorem clearLevelFlags_plain (s : State) : Plain s s.clearLevelFlags :=
  (clearLevelFlags_effect (.refl s)).plain_of_table rfl

/-- No column is IN_SERVICE where one is to be put in service. -/
theorem State.columnToServe_none {s : State} {c : Column} (h : s.columnToServe = some c) : s.inService.isNone = true := by
  unfold State.columnToServe at h
  split at h
  next => cases h
  next k => simpa using k

theorem serve_plain (s : State) : Plain s (match s.columnToServe with
    | some c => s.setColumn c { s.column c with state := .inService }
    | none => s) := by
  split
  next c h =>
    have heff := setColumn_effect (.refl s) c { s.column c with state := .inService }
      (fun _ _ => inService_none (State.columnToServe_none h) _) fun _ k => k c
    exact heff.plain_of_table (congrArg Arbiter.table (s.setColumn_arb c _))
  next => exact .refl s

theorem takeHeadAtCommit_plain (s : State) : Plain s s.takeHeadAtCommit := .ite _ (.refl s) (takeHead_plain s)

/-- RUN is taken: no law asks anything of RUN. -/
theorem enterRun_alters (s : State) : Alters butMode s ({ s with mode := .run } : State) := by
  refine ⟨rfl, Works.kept ⟨fun h => h.congr rfl rfl rfl, fun _ => id, fun _ h => h.congr rfl rfl rfl rfl, id, ?_⟩ rfl rfl rfl⟩
  exact fun ⟨_, hnormal, hurgent⟩ => ⟨nofun, hnormal, hurgent⟩

theorem committed_alters (s : State) : Alters butMode s s.committed := by
  unfold State.committed
  refine (enterRun_alters s).trans (Plain.alters ?_ _)
  refine (serve_plain _).trans ?_
  exact (Plain.ite _ (queueExhausted_plain _) (.refl _)).trans ((clearLevelFlags_plain _).trans (takeHeadAtCommit_plain _))

theorem commit_alters (s : State) (p : Port) (tag : Nat) :
    Alters butMode s (if s.mode = .run then s.reply p tag .state []
      else match s.failedCheck with
        | some (check, item) => s.reply p tag .badConfig (byte1 check ++ byte1 item)
        | none => s.committed.reply p tag .ok []) := by
  refine .ite _ (reply_alters _ s _ _ _ _) ?_
  split
  · exact reply_alters _ s _ _ _ _
  · exact (committed_alters s).reply _ _ _ _

/-- All twelve slots are free where that many are counted. -/
theorem State.freeSlots_full {s : State} (h : s.freeSlots = 12) (i : SlotId) : s.pool[i] = none := by
  have hlen : (allSlots.filter fun i => s.pool[i].isNone).length = allSlots.length := h
  exact Option.isNone_iff_eq_none.mp (List.length_filter_eq_length_iff.mp hlen i (List.mem_finRange i))

/-- SETUP is taken by a quiet part, its queue emptied. -/
theorem enterSetup_quiet {s : State} (h : s.quiet = true) :
    Alters butMode s (({ s with mode := .setup } : State).setQueue []) := by
  refine ⟨rfl, Works.kept ⟨fun h => h.congr rfl rfl rfl, fun _ => id, fun _ b => ?_, id, ?_⟩ rfl rfl rfl⟩
  · exact ⟨b.weak, b.descs, b.one, ⟨Nat.zero_le 2, List.nodup_nil, fun _ _ _ hq => absurd hq List.not_mem_nil⟩, b.columns, b.amounts,
      b.log, b.channels⟩
  · simp only [State.quiet, Bool.and_eq_true, beq_iff_eq] at h
    obtain ⟨⟨⟨hfree, -⟩, -⟩, -⟩ := h
    have hnone := State.freeSlots_full hfree
    have hpool : PoolStep s (({ s with mode := .setup } : State).setQueue []) := .of_eq rfl
    exact fun ⟨_, hnormal, hurgent⟩ => ⟨fun _ => hnone, (hpool.normalSlots_le rfl).trans hnormal,
      fun p hp => (hpool.portSlots_le p).trans (hurgent p hp)⟩

theorem enterSetup_alters (s : State) (p : Port) (tag : Nat) :
    Alters butMode s (if s.mode = .setup then s.reply p tag .ok []
      else if s.quiet then (({ s with mode := .setup } : State).setQueue []).reply p tag .ok []
      else s.reply p tag .busy []) := by
  refine .ite _ (reply_alters _ s _ _ _ _) ?_
  split
  next hq => exact (enterSetup_quiet hq).reply _ _ _ _
  next => exact reply_alters _ s _ _ _ _

/-! ### The sense points -/

def butSense (f : Fixed) : Fixed := { f with points := Vector.replicate 16 Point.reset, scan := .off }

/-- TANK_MIN is read through the roles and the confirmed states of the points alone (R34). -/
theorem State.waterPresent_congr {s t : State} (hr : ∀ p : PointId, t.sense.points[p].role = s.sense.points[p].role)
    (hs : ∀ p : PointId, t.sense.points[p].state = s.sense.points[p].state) : t.waterPresent = s.waterPresent := by
  simp only [State.waterPresent, State.roleHolder, hr, hs]

/-- A change of the Sense Scanner that leaves every role and every confirmed state. -/
theorem sense_alters (s : State) (x : Sense) (hr : ∀ p : PointId, x.points[p].role = s.sense.points[p].role)
    (hs : ∀ p : PointId, x.points[p].state = s.sense.points[p].state) : Alters butSense s { s with sense := x } := by
  refine ⟨rfl, Works.kept (.of_same rfl rfl rfl rfl rfl rfl (.of_eq rfl) fun _ b => b.congr rfl rfl rfl rfl) rfl ?_ rfl⟩
  have hw : ({ s with sense := x } : State).waterPresent = s.waterPresent := State.waterPresent_congr hr hs
  unfold State.interlockMet State.interlockConditions
  rw [hw]
  rfl

theorem setPoint_alters (s : State) (n : PointId) (r : Point) (hr : r.role = (s.point n).role) (hs : r.state = (s.point n).state) :
    Alters butSense s (s.setPoint n r) := by
  refine sense_alters s _ (fun p => ?_) fun p => ?_ <;> rw [upd_get] <;> split
  next e => subst e; exact hr
  next => rfl
  next e => subst e; exact hs
  next => rfl

theorem setGroup_plain (s : State) (g : GroupId) (r : Group) : Plain s (s.setGroup g r) :=
  (setGroup_effect (.refl s) g r).plain_of_table rfl

theorem setGroup_alters (s : State) (g : GroupId) (r : Group) : Alters butSense s (s.setGroup g r) :=
  (setGroup_plain s g r).alters _

theorem askRefresh_alters (s : State) (n : PointId) : Alters butSense s (s.askRefresh n) :=
  .ite _ (.refl _ s) ((setPoint_alters s n _ (by rfl) (by rfl)).trans (setGroup_alters _ _ _))

theorem senseRead_alters (s : State) (p : Port) (tag point maxAge : Nat) :
    Alters butSense s (match finOf 16 point with
      | none => s.reply p tag .badParam []
      | some n =>
        if 255 < maxAge then s.reply p tag .badParam []
        else match (s.point n).fresh maxAge with
          | some r =>
            s.reply p tag .ok (byte2 r.count ++ byte1 (qualityCode r.quality) ++ byte1 (pointStateCode (s.point n).state) ++
              byte2 r.age ++ byte1 (roleCode (s.point n).role) ++ byte1 (candidateCode (s.point n).candidate) ++
              byte1 (s.point n).run)
          | none =>
            (s.askRefresh n).reply p tag .retry
              (byte1 (pointStateCode (s.point n).state) ++ optField ((s.point n).published.map fun r => byte2 r.age))) := by
  split
  · exact reply_alters _ s _ _ _ _
  · refine .ite _ (reply_alters _ s _ _ _ _) ?_
    split
    · exact reply_alters _ s _ _ _ _
    · exact (askRefresh_alters s _).reply _ _ _ _

/-- The scan mode is no law's. -/
theorem scanMode_alters (s : State) (m : ScanMode) : Alters butSense s ({ s with sense := { s.sense with mode := m } } : State) :=
  sense_alters s { s.sense with mode := m } (fun _ => rfl) fun _ => rfl

theorem endSingleScan_alters (s : State) : Alters butSense s s.endSingleScan := .ite _ (scanMode_alters s _) (.refl _ s)

theorem Alters.foldl {α : Type} {f : Fixed → Fixed} (act : State → α → State) (hf : ∀ s x, Alters f s (act s x)) (l : List α)
    (s : State) : Alters f s (l.foldl act s) := by
  induction l generalizing s with
  | nil => exact .refl f s
  | cons x xs ih => exact (hf s x).trans (ih _)

theorem takeScanMode_alters (s : State) (m : ScanMode) : Alters butSense s (s.takeScanMode m) :=
  (scanMode_alters s m).trans ((Alters.foldl _ (fun u g => setGroup_alters u g _) _ _).trans (endSingleScan_alters _))

/-- Work before a `settle` that leaves what the view shows. -/
theorem Alters.settle {f : Fixed → Fixed} {s t : State} (h : Works s t) (hf : f t.fixed = f s.fixed) : Alters f s t.settle :=
  ⟨(congrArg f (settle_settled (Settled.refl t)).fixed).trans hf, h.settle⟩

/-- A change of a point, before the interlock is judged again. -/
theorem setPoint_works (s : State) (n : PointId) (r : Point) : Works s (s.setPoint n r) :=
  .of_same rfl rfl rfl rfl rfl rfl (.of_eq rfl) fun _ b => b.congr rfl rfl rfl rfl

/-- A point written anew, its measurement in progress voided. -/
theorem voidPoint_works (s : State) (n : PointId) (r : Point) :
    Works s ((s.setPoint n r).setGroup (groupOf n) (((s.setPoint n r).group (groupOf n)).void n)) :=
  (setPoint_works s n r).trans (setGroup_plain _ _ _).kept.toWorks

theorem writePoint_alters (s : State) (n : PointId) (role : Role) (trim threshold : Nat) (above : Bool) (debounce : Nat)
    (auto : Bool) : Alters butSense s (s.writePoint n role trim threshold above debounce auto) := by
  unfold State.writePoint
  dsimp only
  split
  next =>
    split
    · refine .settle ((voidPoint_works s n _).trans (judgeForce_effect (.refl _)).work.works) ?_
      exact (congrArg butSense (judgeForce_effect (.refl _)).fixed).trans rfl
    · exact .settle (voidPoint_works s n _) rfl
  next hdeep =>
    simp only [Bool.or_eq_true, bne_iff_ne, ne_eq, not_or, not_not] at hdeep
    obtain ⟨⟨hrole, -⟩, -⟩ := hdeep
    exact .ite _ (setPoint_alters s n _ hrole.symm rfl) (setPoint_alters s n _ hrole.symm rfl)

theorem pointWrite_alters (s : State) (p : Port) (tag : Nat) (n : PointId) (role : Role)
    (trim threshold direction debounce hop : Nat) :
    Alters butSense s (s.pointWrite p tag n role trim threshold direction debounce hop) :=
  .ite _ (reply_alters _ s _ _ _ _) (.ite _ (reply_alters _ s _ _ _ _) ((writePoint_alters s n _ _ _ _ _ _).reply _ _ _ _))

theorem senseTableWrite_alters (s : State) (p : Port) (tag : Nat) (payload : SensePayload) :
    Alters butSense s (match payload with
      | .point point role trim threshold direction debounce hop =>
        match finOf 16 point, roleOf role with
        | some n, some r =>
          if 1023 < trim ∨ 65535 < threshold ∨ 1 < direction ∨ debounce < 1 ∨ 8 < debounce ∨ 1 < hop then
            s.reply p tag .badParam []
          else s.pointWrite p tag n r trim threshold direction debounce hop
        | _, _ => s.reply p tag .badParam []
      | .group group a b c d =>
        match finOf 4 group, slotValueOf a, slotValueOf b, slotValueOf c, slotValueOf d with
        | some g, some a, some b, some c, some d =>
          if s.mode = .run then s.reply p tag .wrongMode []
          else (s.setGroup g { (s.group g) with map := #v[a, b, c, d] }).reply p tag .ok []
        | _, _, _, _, _ => s.reply p tag .badParam []) := by
  split
  · split
    · exact .ite _ (reply_alters _ s _ _ _ _) (pointWrite_alters s p tag _ _ _ _ _ _ _)
    · exact reply_alters _ s _ _ _ _
  · split
    · exact .ite _ (reply_alters _ s _ _ _ _) ((setGroup_alters s _ _).reply _ _ _ _)
    · exact reply_alters _ s _ _ _ _

/-! ### TRIP_CLEAR (R175) -/

def butCauses (f : Fixed) : Fixed := { f with flood := false, overfill := false, overtemp := false }

/-- An empty cause set asks nothing of the table. -/
theorem clearTrip_works (s : State) : Works s s.clearTrip where
  tables h := ⟨h.legal, h.path, h.apart, h.alone, nofun, h.shut⟩
  flag _ h := h
  books _ h := h.congr rfl rfl rfl rfl
  legal h := h
  pool h := h

theorem tripClear_alters (s : State) (p : Port) (tag : Nat) :
    Alters butCauses s (if s.latched = false then s.reply p tag .state (byte1 0)
      else if s.causesLeft ≠ 0 then s.reply p tag .state (byte1 s.causesLeft)
      else (s.clearTrip.reply p tag .ok (byte1 s.causeSet)).takeHead.settle.post .tripCleared 0 s.causeSet) := by
  refine .ite _ (reply_alters _ s _ _ _ _) (.ite _ (reply_alters _ s _ _ _ _) ?_)
  have h1 := (reply_plain s.clearTrip p tag .ok (byte1 s.causeSet)).trans (takeHead_plain _)
  refine Alters.trans (Alters.settle ((clearTrip_works s).trans h1.kept.toWorks) ?_) ((post_plain _ _ _ _).alters _)
  exact (congrArg butCauses h1.fixed).trans rfl

end Sys2Proof.Machine

/-! The door, the latching of a trip and the measurements keep the laws: their work is an effect on a state whose door, causes or
points have changed, and restores the law that the change alone would break. -/

namespace Sys2Proof.Machine

/-! ### Views -/

/-- Work that keeps the laws, and what the view `f` shows of what no owner's work changes. -/
structure AltersWork (f : Fixed → Fixed) (s t : State) : Prop where
  fixed : f t.fixed = f s.fixed
  works : Works s t

theorem Alters.work {f : Fixed → Fixed} {s t : State} (h : Alters f s t) : AltersWork f s t := ⟨h.fixed, h.kept.toWorks⟩

theorem PlainWork.alters {s t : State} (h : PlainWork s t) (f : Fixed → Fixed) : AltersWork f s t :=
  ⟨congrArg f h.fixed, h.works⟩

theorem Effect.alters {s t : State} (h : Effect s t) (f : Fixed → Fixed) : AltersWork f s t := h.work.alters f

theorem AltersWork.refl (f : Fixed → Fixed) (s : State) : AltersWork f s s := ⟨rfl, .refl s⟩

theorem AltersWork.trans {f : Fixed → Fixed} {s t u : State} (h : AltersWork f s t) (k : AltersWork f t u) : AltersWork f s u :=
  ⟨k.fixed.trans h.fixed, h.works.trans k.works⟩

theorem AltersWork.settle {f : Fixed → Fixed} {s t : State} (h : AltersWork f s t) : Alters f s t.settle :=
  Alters.settle h.works h.fixed

theorem AltersWork.ite {f : Fixed → Fixed} {s t u : State} (p : Prop) [Decidable p] (h : AltersWork f s t)
    (k : AltersWork f s u) : AltersWork f s (if p then t else u) := by
  split
  · exact h
  · exact k

theorem AltersWork.foldl {α : Type} {f : Fixed → Fixed} (act : State → α → State) (hf : ∀ s x, AltersWork f s (act s x))
    (l : List α) (s : State) : AltersWork f s (l.foldl act s) := by
  induction l generalizing s with
  | nil => exact .refl f s
  | cons x xs ih => exact (hf s x).trans (ih _)

theorem Settings.legal.of_cfg {s t : State} (k : s.cfg.legal) (h : t.cfg = s.cfg) : t.cfg.legal := by
  rw [h]
  exact k

/-- A coarser view shows no more. -/
theorem Alters.weaken {f : Fixed → Fixed} {s t : State} (h : Alters f s t) (g : Fixed → Fixed) (hg : ∀ a, g (f a) = g a) :
    Alters g s t := ⟨by rw [← hg t.fixed, h.fixed, hg], h.kept⟩

theorem AltersWork.weaken {f : Fixed → Fixed} {s t : State} (h : AltersWork f s t) (g : Fixed → Fixed)
    (hg : ∀ a, g (f a) = g a) : AltersWork g s t := ⟨by rw [← hg t.fixed, h.fixed, hg], h.works⟩

/-! ### The run clock (R18, R99, R140) -/

def butClock (f : Fixed) : Fixed := { f with clock := 0 }

/-- A change of the clock or the period, which no law reads. -/
theorem drive_works (s : State) (x : Drive) : Works s { s with drive := x } :=
  .of_same rfl rfl rfl rfl rfl rfl (.of_eq rfl) fun _ b => b.congr rfl rfl rfl rfl

theorem delaySecond_ok {ch : Channel} (h : ChannelOk ch) : ChannelOk ch.delaySecond := by
  unfold Channel.delaySecond
  split
  · exact h
  · exact h.of_same rfl rfl rfl rfl rfl

/-- The clock raised by a second. -/
def State.nextSecond (s : State) : State :=
  { s with drive := { s.drive with clock := clockSucc s.drive.clock, secondDue := false } }

/-- The delays counted down by a second. -/
def State.delaySeconds (s : State) : State :=
  { s with dose := { s.dose with channels := updAll Channel.delaySecond s.dose.channels } }

theorem delaySeconds_work (s : State) : PlainWork s s.delaySeconds := by
  refine ⟨rfl, .of_same rfl rfl rfl rfl rfl rfl (.of_eq rfl) fun _ b => ?_⟩
  refine ⟨b.weak, b.descs, b.one, b.queue, b.columns, b.amounts, b.log, fun c => ?_⟩
  show ChannelOk (updAll Channel.delaySecond s.dose.channels)[c]
  rw [updAll_get]
  exact delaySecond_ok (b.channels c)

theorem State.clockSecond_eq (s : State) : s.clockSecond =
    if s.drive.secondDue then (allResources.foldl State.judgeYield s.nextSecond).delaySeconds.settle else s := by
  unfold State.clockSecond State.delaySeconds State.nextSecond
  rfl

theorem judgeYields_effect (s : State) : Effect s (allResources.foldl State.judgeYield s) :=
  Effect.foldl State.judgeYield (fun _ r h => judgeYield_effect h r) allResources (.refl s)

theorem clockSecond_alters (s : State) : Alters butClock s s.clockSecond := by
  rw [State.clockSecond_eq]
  split
  · have hclock : AltersWork butClock s s.nextSecond := ⟨rfl, drive_works s _⟩
    exact (hclock.trans (((judgeYields_effect _).work.trans (delaySeconds_work _)).alters _)).settle
  · exact .refl _ s

/-! ### The door (R154, R155) -/

def butDoor (f : Fixed) : Fixed := { f with doorFilter := ⟨false, false, 0⟩ }

/-- The laws of the table, but the door guard, whatever the door state. -/
theorem State.tableSafe.setDoor {s : State} (h : s.tableSafe) : (s.setDoor true).tableSafe :=
  ⟨h.legal, h.path, h.apart, h.alone, h.withdrawn, fun _ _ _ => rfl⟩

theorem State.booksSafe.setDoor {s : State} (h : s.booksSafe) (closed : Bool) : (s.setDoor closed).booksSafe :=
  h.congr rfl rfl rfl rfl

/-- Work with the door OPEN is work with the door CLOSED too: it makes no HELD lease. -/
theorem Effect.closed {s t : State} (h : Effect (s.setDoor false) t) : Effect (s.setDoor true) (t.setDoor true) where
  fixed := by
    have hf := h.fixed
    simp only [State.fixed, Fixed.mk.injEq] at hf ⊢
    obtain ⟨h1, h2, h3, h4, h5, h6, h7, h8, h9, h10, h11, h12⟩ := hf
    refine ⟨h1, h2, h3, h4, h5, h6, h7, h8, h9, h10, ?_, h12⟩
    show ({ t.door.door with value := true, agree := 0 } : Filter) = { s.door.door with value := true, agree := 0 }
    rw [h11]
    rfl
  interlock := h.interlock
  pool := h.pool
  ports p := ⟨(h.ports p).rx, (h.ports p).resetPending, (h.ports p).txq, (h.ports p).subs⟩
  table r :=
    have k := h.table r
    ⟨k.holder, k.legal, k.same, fun hr hl => .inl ((k.held hr hl).resolve_right Bool.false_ne_true), k.heater⟩
  path := h.path
  books b := (h.books (b.congr rfl rfl rfl rfl)).congr rfl rfl rfl rfl

/-- Once the door is OPEN no guarded lease is HELD, and none becomes so. -/
def State.noneHeld (s : State) : Prop := ∀ r, r.guarded = true → (s.entry r).lease ≠ .held

theorem Effect.noneHeld {s t : State} (h : Effect s t) (hd : s.doorClosed = false) (k : s.noneHeld) : t.noneHeld :=
  fun r hr hl => ((h.table r).held hr hl).elim (k r hr) fun c => absurd (hd.symm.trans c) (by decide)

theorem State.tableSafe.opened {s t : State} (h : s.tableSafe) (e : Effect (s.setDoor false) t) (hn : t.noneHeld) :
    t.tableSafe :=
  have k := e.closed.tables h.setDoor
  ⟨k.legal, k.path, k.apart, k.alone, k.withdrawn, fun r hr hl => absurd hl (hn r hr)⟩

theorem State.entry_suspend (s : State) (r q : Resource) :
    ((s.suspend r).entry q).lease = if q = r ∧ (s.entry r).lease = .held then .suspended else (s.entry q).lease := by
  unfold State.suspend
  split
  next h =>
    have h := beq_iff_eq.mp h
    rw [State.entry_congr (congrArg Arbiter.table (reportSwitching_rest s _).1), State.entry_editEntry]
    split
    next e => rw [if_pos ⟨e, h⟩]
    next e =>
      rw [if_neg fun c => e c.1, State.entry_congr (congrArg Arbiter.table (s.table_stopDrive r))]
  next h => rw [if_neg fun c => h (beq_iff_eq.mpr c.2)]

/-- Suspended one after the other, none of them is HELD. -/
theorem foldl_suspend_not_held (l : List Resource) (s : State) (r : Resource) (h : r ∈ l ∨ (s.entry r).lease ≠ .held) :
    ((l.foldl State.suspend s).entry r).lease ≠ .held := by
  induction l generalizing s with
  | nil => exact h.resolve_left List.not_mem_nil
  | cons q qs ih =>
    refine ih (s.suspend q) ?_
    rcases h with h | h
    · rcases List.mem_cons.mp h with rfl | h
      · refine .inr ?_
        rw [State.entry_suspend]
        split
        next => decide
        next k => exact fun c => k ⟨rfl, c⟩
      · exact .inl h
    · refine .inr ?_
      rw [State.entry_suspend]
      split
      next => decide
      next => exact h

theorem mem_guardedResources {r : Resource} (h : r.guarded = true) : r ∈ guardedResources := by
  cases r with
  | dose n => fin_cases n <;> decide
  | inlet => decide
  | circ => decide
  | heater => decide
  | selector => cases h
  | brine => cases h
  | drain => cases h
  | doorDrive => cases h

/-- What an opening does once every guarded lease is suspended. -/
theorem openDoor_rest_effect (s : State) : Effect (guardedResources.foldl State.suspend (s.setDoor false)) s.openDoor := by
  unfold State.openDoor
  dsimp only
  exact post_effect (doorOpsOpened_effect (rinseSuspended_effect (Effect.foldl _ (fun _ c h => channelDoorOpened_effect h c) _
    (ite_effect _ (endCircWindDown_effect (.refl _)) (.refl _))))) _ _ _

theorem openDoor_noneHeld (s : State) : s.openDoor.noneHeld := by
  have hdoor := (suspendGuarded_effect (Effect.refl (s.setDoor false))).doorClosed
  exact (openDoor_rest_effect s).noneHeld (hdoor.trans rfl) fun r hr => foldl_suspend_not_held _ _ r (.inl (mem_guardedResources hr))

theorem openDoor_works (s : State) : AltersWork butDoor s s.openDoor := by
  have h := openDoor_effect s
  have hcfg : s.openDoor.cfg = s.cfg := h.cfg
  refine ⟨(congrArg butDoor h.fixed).trans rfl, fun k => k.opened h (openDoor_noneHeld s), fun _ k => ?_,
    fun _ b => h.books (b.setDoor false), fun k => k.of_cfg hcfg, fun k => ?_⟩
  · exact fun c => absurd c (openDoor_noneHeld s .heater rfl)
  · exact k.step h.pool h.cfg h.mode

theorem closeDoor_works (s : State) : AltersWork butDoor s s.closeDoor := by
  have h := closeDoor_effect s
  have hcfg : s.closeDoor.cfg = s.cfg := h.cfg
  refine ⟨(congrArg butDoor h.fixed).trans rfl, fun k => h.tables k.setDoor, fun _ k => ?_,
    fun _ b => h.books (b.setDoor true), fun k => k.of_cfg hcfg, fun k => ?_⟩
  · exact h.heaterFlag k
  · exact k.step h.pool h.cfg h.mode

theorem doorChange_alters (s : State) : Alters butDoor s s.doorChange := by
  unfold State.doorChange
  dsimp only
  split
  · exact AltersWork.settle (.ite _ (closeDoor_works s) (openDoor_works s))
  · exact .refl _ s

/-! ### The latching of a trip (R172) -/

/-- What work does to the rest of the state does not depend on the causes. -/
theorem Effect.uncaused {s t : State} (h : Effect s t) : Effect s.clearTrip t.clearTrip where
  fixed := by
    have hf := h.fixed
    simp only [State.fixed, Fixed.mk.injEq] at hf ⊢
    obtain ⟨h1, h2, h3, h4, h5, h6, h7, h8, h9, h10, h11, h12, h13, h14, h15, -⟩ := hf
    exact ⟨h1, h2, h3, h4, h5, h6, h7, h8, h9, h10, h11, h12, h13, h14, h15, rfl, rfl, rfl⟩
  interlock := h.interlock
  pool := h.pool
  ports p := ⟨(h.ports p).rx, (h.ports p).resetPending, (h.ports p).txq, (h.ports p).subs⟩
  table := h.table
  path := h.path
  books b := (h.books (b.congr rfl rfl rfl rfl)).congr rfl rfl rfl rfl

/-- Nothing of the trip set has a holder. -/
def State.tripSetFree (s : State) : Prop := ∀ r, r.inTripSet = true → s.hasHolder r = false

theorem Effect.tripSetFree {s t : State} (h : Effect s t) (k : s.tripSetFree) : t.tripSetFree :=
  fun r hr => h.noHolder (k r hr)

/-- The entry of a revoked resource is FREE, and nobody waits for it. -/
theorem State.entry_revoke_self (s : State) (r : Resource) :
    ((s.revoke r).entry r).lease = .free ∧ ((s.revoke r).entry r).waiters = [] := by
  unfold State.revoke
  dsimp only
  rw [State.entry_editEntry, if_pos rfl]
  refine ⟨?_, rfl⟩
  split
  next => exact State.entry_freeLease_self s r
  next h => exact (State.hasHolder_false s r).mp (Bool.eq_false_iff.mpr h)

theorem mem_tripResources {r : Resource} (h : r.inTripSet = true) : r ∈ tripResources := by
  cases r with
  | dose n => fin_cases n <;> decide
  | brine => decide
  | inlet => decide
  | circ => decide
  | heater => decide
  | selector => cases h
  | drain => cases h
  | doorDrive => cases h

/-- Revoked one after the other, none of them has a holder. -/
theorem foldl_revoke_free {l : List Resource} (hs : .selector ∉ l) (s : State) {r : Resource}
    (h : r ∈ l ∨ s.hasHolder r = false) : (l.foldl State.revoke s).hasHolder r = false := by
  induction l generalizing s with
  | nil => exact h.resolve_left List.not_mem_nil
  | cons q qs ih =>
    rw [List.mem_cons, not_or] at hs
    have heff := revoke_effect (.refl s) q (Ne.symm hs.1)
    refine ih hs.2 _ ?_
    rcases h with h | h
    · rcases List.mem_cons.mp h with rfl | h
      · exact .inr ((State.hasHolder_false _ _).mpr (s.entry_revoke_self r).1)
      · exact .inl h
    · exact .inr (heff.noHolder h)

/-- The work of the latching after the revocations. -/
theorem tripWork_rest_effect (s : State) : Effect (tripResources.foldl State.revoke s) s.tripWork := by
  unfold State.tripWork
  exact Effect.foldl _ (fun _ c h => channelTripped_effect h c) _
    (endRegen_effect (Effect.foldl _ (fun _ i h => tripSlot_effect h i) _ (.refl _)) _ _)

theorem tripWork_free (s : State) : s.tripWork.tripSetFree :=
  (tripWork_rest_effect s).tripSetFree fun _ hr => foldl_revoke_free (by decide) s (.inl (mem_tripResources hr))

theorem State.addCause_clear (s : State) (c : TripCause) : (s.addCause c).clearTrip = s.clearTrip := by
  cases c <;> rfl

theorem State.booksSafe.addCause {s : State} (h : s.booksSafe) (c : TripCause) : (s.addCause c).booksSafe := by
  cases c <;> exact h.congr rfl rfl rfl rfl

/-- The laws of the table stand where the causes are put back and the trip set is free. -/
theorem State.tableSafe.caused {s : State} (h : s.clearTrip.tableSafe) (hf : s.tripSetFree) : s.tableSafe :=
  ⟨h.legal, h.path, h.apart, h.alone, fun _ => hf, h.shut⟩

theorem State.poolShared.addCause {s : State} (h : s.poolShared) (c : TripCause) : (s.addCause c).poolShared := by
  cases c <;> exact h.step (.of_eq rfl) rfl rfl

theorem State.fixed_clearTrip (s : State) : s.clearTrip.fixed = butCauses s.fixed := rfl

theorem State.heaterFlag_clearTrip (s : State) : s.clearTrip.heaterFlag ↔ s.heaterFlag := Iff.rfl

/-- The latching, with the cause that makes it. -/
theorem latch_works (s : State) (c : TripCause) : AltersWork butCauses s (s.addCause c).tripWork := by
  have h := tripWork_effect (.refl (s.addCause c))
  have hclear := h.uncaused
  rw [s.addCause_clear] at hclear
  have hcfg : (s.addCause c).tripWork.cfg = s.cfg := h.cfg.trans (by cases c <;> rfl)
  have hfixed := hclear.fixed
  rw [State.fixed_clearTrip, State.fixed_clearTrip] at hfixed
  refine ⟨hfixed, fun k => ?_, fun _ k => ?_, fun _ b => h.books (b.addCause c), fun k => k.of_cfg hcfg, fun k => ?_⟩
  · exact (hclear.tables ((clearTrip_works s).tables k)).caused (tripWork_free _)
  · exact (State.heaterFlag_clearTrip _).mp (hclear.heaterFlag ((State.heaterFlag_clearTrip _).mpr k))
  · exact (k.addCause c).step h.pool h.cfg h.mode

/-- A cause that joins others. -/
theorem addCause_works {s : State} (c : TripCause) (hl : s.latched = true) : AltersWork butCauses s (s.addCause c) := by
  refine ⟨by cases c <;> rfl, ?_⟩
  have hl' : (s.addCause c).latched = s.latched := by
    rw [hl]
    cases c <;> simp [State.addCause, State.latched]
  cases c <;> exact .of_same rfl rfl hl' rfl rfl rfl (.of_eq rfl) fun _ b => b.congr rfl rfl rfl rfl

/-! ### The forced drain (R7, R173) -/

/-- DRAIN as the force takes it. -/
def State.seizeDrain (s : State) : State :=
  s.editEntry .drain fun e =>
    { e with lease := .held, holder := some ⟨.protect, none⟩, holderPort := none, grantTime := s.drive.clock }

theorem State.entry_seizeDrain_ne (s : State) {r : Resource} (h : r ≠ .drain) : s.seizeDrain.entry r = s.entry r := by
  unfold State.seizeDrain
  rw [State.entry_editEntry, if_neg h]

theorem State.entry_seizeDrain (s : State) :
    (s.seizeDrain.entry .drain).lease = .held ∧ (s.seizeDrain.entry .drain).holder = some ⟨.protect, none⟩ := by
  unfold State.seizeDrain
  rw [State.entry_editEntry, if_pos rfl]
  exact ⟨rfl, rfl⟩

theorem seizeDrain_tables {s : State} (h : s.tableSafe) (hi : s.hasHolder .inlet = false) : s.seizeDrain.tableSafe := by
  obtain ⟨hfixed, -⟩ := editEntry_rest s .drain _
  have he : ∀ {r}, r ≠ .drain → s.seizeDrain.entry r = s.entry r := s.entry_seizeDrain_ne
  have hh : ∀ {r}, r ≠ .drain → s.seizeDrain.hasHolder r = s.hasHolder r := fun k => by simp only [State.hasHolder, he k]
  have hg : ∀ {r : Resource}, r.guarded = true → r ≠ .drain := fun k => Resource.guarded_ne k rfl
  obtain ⟨hl, hd⟩ := s.entry_seizeDrain
  refine ⟨fun r => ?_, ?_, fun c => absurd c ?_, fun c r hr => ?_, fun c r hr => ?_, fun r hr c => ?_⟩
  · by_cases e : r = .drain
    · subst e
      refine ⟨?_, hl ▸ rfl⟩
      rw [hl, hd]
      exact ⟨nofun, nofun⟩
    · rw [he e]; exact h.legal r
  · unfold State.pathHeld
    rw [he (by decide), he (by decide)]
    exact h.path
  · rw [hh (by decide), hi]; decide
  · rw [hh (by decide)] at c
    rw [hh (hg hr)]; exact h.alone c r hr
  · have hne : r ≠ .drain := by rintro rfl; cases hr
    rw [hh hne]
    exact h.withdrawn ((State.latched_congr hfixed).symm.trans c) r hr
  · rw [he (hg hr)] at c
    exact (State.doorClosed_congr hfixed).trans (h.shut r hr c)

theorem seizeDrain_works {s : State} (hi : s.tableSafe → s.hasHolder .inlet = false) : PlainWork s s.seizeDrain := by
  obtain ⟨hf, hp, -, hs, ha, hd, hw⟩ := editEntry_rest s .drain _
  refine ⟨hf, fun k => seizeDrain_tables k (hi k), fun _ k => ?_, fun _ b => ?_, fun k => ?_, fun k => ?_⟩
  · exact heaterFlag_congr k hw (congrArg Entry.lease (s.entry_seizeDrain_ne (by decide)))
  · exact b.congr (State.cfg_congr hf) hs ha hd
  · exact k.of_cfg (State.cfg_congr hf)
  · exact k.step (.of_eq hp) (State.cfg_congr hf) (congrArg Fixed.mode hf)

theorem State.forceDrain_eq (s : State) : s.forceDrain = match (s.entry .drain).holder with
    | some ⟨.protect, _⟩ => s
    | some ⟨_, some i⟩ => s.seizeDrain.finishDrain i .tripped true
    | _ => s.seizeDrain := by
  unfold State.forceDrain State.seizeDrain
  dsimp only
  cases (s.entry .drain).holder with
  | none => rfl
  | some h =>
    obtain ⟨i, o⟩ := h
    cases i <;> cases o <;> rfl

theorem forceDrain_works {s : State} (hi : s.tableSafe → s.hasHolder .inlet = false) : PlainWork s s.forceDrain := by
  rw [State.forceDrain_eq]
  split
  · exact ⟨rfl, .refl s⟩
  · exact (seizeDrain_works hi).trans (finishDrain_effect (.refl _) _ _ _).work
  · exact seizeDrain_works hi

/-- The force taken while nothing of the trip set has a holder. -/
theorem takeForce_works {s : State} (c : TripCause) (hi : s.tableSafe → s.hasHolder .inlet = false) :
    PlainWork s (s.takeForce c) := by
  unfold State.takeForce
  dsimp only
  split
  next =>
    have heff : ∀ x : Protection, x.flood = s.prot.flood → x.overfill = s.prot.overfill → x.overtemp = s.prot.overtemp →
        PlainWork s ({ s with prot := x } : State).forceDrain := fun x h1 h2 h3 =>
      (prot_effect s x h1 h2 h3).work.trans (forceDrain_works fun k => by
        rw [State.hasHolder_false]
        refine (State.hasHolder_false s .inlet).mp (hi (k.congr rfl rfl ?_))
        show (s.prot.flood || s.prot.overfill || s.prot.overtemp) = (x.flood || x.overfill || x.overtemp)
        rw [h1, h2, h3])
    cases c <;> exact heff _ rfl rfl rfl
  next => cases c <;> refine Effect.work (prot_effect s _ ?_ ?_ ?_) <;> rfl
  next => cases c <;> refine Effect.work (prot_effect s _ ?_ ?_ ?_) <;> rfl

theorem State.latched_of_cause {s : State} {c : TripCause} (h : s.hasCause c = true) : s.latched = true := by
  unfold State.latched
  cases c <;> simp_all [State.hasCause]

theorem State.latched_addCause (s : State) (c : TripCause) : (s.addCause c).latched = true := by
  unfold State.latched
  cases c <;> simp [State.addCause]

theorem State.tableSafe.inlet_free {s : State} (h : s.tableSafe) (hl : s.latched = true) : s.hasHolder .inlet = false :=
  h.withdrawn hl .inlet rfl

theorem handIn_works (s : State) (c : TripCause) (point : Nat) : AltersWork butCauses s (s.handIn c point) := by
  unfold State.handIn
  split
  next h =>
    exact .ite _ (.refl _ s) ((takeForce_works c fun k => k.inlet_free (State.latched_of_cause h)).alters _)
  next h =>
    dsimp only
    have hjoin : AltersWork butCauses s (if s.latched then s.addCause c else (s.addCause c).tripWork) := by
      split
      next hl => exact addCause_works c hl
      next => exact latch_works s c
    have hlatched : (if s.latched then s.addCause c else (s.addCause c).tripWork).latched = true := by
      split
      · exact s.latched_addCause c
      · exact (State.latched_congr (tripWork_effect (.refl _)).fixed).trans (s.latched_addCause c)
    generalize (if s.latched then s.addCause c else (s.addCause c).tripWork) = u at hjoin hlatched ⊢
    have hforce : PlainWork u (if c = .overtemp then u else u.takeForce c) := by
      split
      · exact ⟨rfl, .refl u⟩
      · exact takeForce_works c fun k => k.inlet_free hlatched
    exact hjoin.trans ((hforce.trans (post_effect (tripFault_effect (.refl _) c point) _ _ _).work).alters _)

end Sys2Proof.Machine

/-! The measurements, the rounds and the drive period keep the laws. -/

namespace Sys2Proof.Machine

/-! ### Publication and comparison (R130 to R133) -/

/-- What a measurement alters: the Sense Scanner's records, and the causes of a trip that it latches. -/
def butSensing (f : Fixed) : Fixed := butCauses (butSense f)

theorem butSensing_sense (f : Fixed) : butSensing (butSense f) = butSensing f := rfl

theorem butSensing_causes (f : Fixed) : butSensing (butCauses f) = butSensing f := rfl

theorem State.arb_setHardness (s : State) (x : Nat) (b : Bool) : (s.setHardness x b).arb = s.arb := by
  unfold State.setHardness
  dsimp only
  split <;> rfl

theorem hardnessReading_plain (s : State) (count : Nat) (q : Quality) : Plain s (s.hardnessReading count q) := by
  refine (hardnessReading_effect (.refl s) count q).plain_of_table (congrArg Arbiter.table ?_)
  unfold State.hardnessReading
  split
  · exact s.arb_setHardness _ _
  · rfl

theorem brineReading_plain (s : State) : Plain s s.brineReading := by
  refine (brineReading_effect (.refl s)).plain_of_table ?_
  unfold State.brineReading
  split
  · split <;> rfl
  · rfl

theorem publish_alters (s : State) (p : PointId) (count : Nat) (q : Quality) : Alters butSense s (s.publish p count q) := by
  unfold State.publish
  dsimp only
  have h : Alters butSense s ((s.setPoint p { s.point p with published := some ⟨count, q, 0, 0⟩, refresh := false }).setGroup
      (groupOf p) { s.group (groupOf p) with refresh := (s.group (groupOf p)).refresh.filter fun x => x != p }) :=
    (setPoint_alters s p _ (by rfl) (by rfl)).trans (setGroup_alters _ _ _)
  split
  · exact h.trans ((hardnessReading_plain _ _ _).alters _)
  · exact .ite _ (h.trans ((brineReading_plain _).alters _)) h
  · exact h

theorem noteQuality_alters (s : State) (p : PointId) (count : Nat) (q : Quality) :
    Alters butSense s (s.noteQuality p count q) := by
  have h : Alters butSense s (s.setPoint p { s.point p with inFault := q == .fault }) :=
    setPoint_alters s p _ (by rfl) (by rfl)
  exact .ite _ (h.trans ((fault_plain _ _ _ _).alters _)) h

theorem deliverTrip_works (s : State) (c : TripCause) (p : PointId) (side : Side) :
    AltersWork butCauses s (s.deliverTrip c p side) := by
  have h : AltersWork butCauses s (if side = .crossed then s.handIn c p.val else s) :=
    .ite _ (handIn_works s c p.val) (.refl _ s)
  exact h.trans ((judgeForce_effect (.refl _)).alters _)

theorem deliver_works (s : State) (p : PointId) (old : PointState) (side : Side) :
    AltersWork butCauses s (s.deliver p old side) := by
  by_cases hl : (s.point p).role = .leak
  · unfold State.deliver
    dsimp only
    rw [hl]
    exact .ite _ (.refl _ s) (deliverTrip_works s .flood p side)
  by_cases hh : (s.point p).role = .tankHigh
  · unfold State.deliver
    dsimp only
    rw [hh]
    exact .ite _ (.refl _ s) (deliverTrip_works s .overfill p side)
  · exact (deliver_effect (.refl s) p old side hl hh).alters _

theorem confirm_works (s : State) (p : PointId) (side : Side) : AltersWork butSensing s (s.confirm p side) := by
  have hpoint : AltersWork butSensing s (s.setPoint p { s.point p with state := side.state, candidate := none, run := 0 }) :=
    ⟨rfl, setPoint_works s p _⟩
  exact (hpoint.trans ((deliver_works _ p _ side).weaken _ butSensing_causes)).trans ((post_plain _ _ _ _).work.alters _)

theorem compare_works (s : State) (p : PointId) (count : Nat) (q : Quality) : AltersWork butSensing s (s.compare p count q) := by
  have hsame : ∀ (c : Option Side) (n : Nat), AltersWork butSensing s (s.setPoint p { s.point p with candidate := c, run := n }) :=
    fun c n => (setPoint_alters s p _ (by rfl) (by rfl)).work.weaken _ butSensing_sense
  unfold State.compare
  dsimp only
  split
  · exact .refl _ s
  · exact hsame _ _
  · exact .ite _ (hsame _ _) (.ite _ (confirm_works s p _) (hsame _ _))

/-! ### Rounds (R120, R125 to R127, R135) -/

theorem startMeasurement_alters (s : State) (g : GroupId) (p : PointId) (slot : Option (Fin 4)) :
    Alters butSense s (s.startMeasurement g p slot) := setGroup_alters s g _

theorem endPeriodic_alters (s : State) (g : GroupId) (r : Round) : Alters butSense s (s.endPeriodic g r) :=
  .ite _ (setGroup_alters s g _) ((setGroup_alters s g _).trans (Alters.foldl _ (fun u _ => publish_alters u _ _ _) _ _))

theorem endRound_alters (s : State) (g : GroupId) (r : Round) : Alters butSense s (s.endRound g r) := by
  unfold State.endRound
  dsimp only
  have h := setGroup_alters s g { s.group g with round := none, measuring := none }
  have h2 := Alters.ite (r.own = true ∧ r.mode = .periodic) (h.trans (endPeriodic_alters _ g r)) h
  exact h2.trans ((setGroup_alters _ g _).trans (endSingleScan_alters _))

theorem nextSlot_alters (s : State) (g : GroupId) : Alters butSense s (s.nextSlot g) := by
  unfold State.nextSlot
  dsimp only
  split
  · exact .refl _ s
  · split
    · exact (setGroup_alters s g _).trans (startMeasurement_alters _ g _ _)
    · exact endRound_alters s g _

theorem nextMeasurement_alters (s : State) (g : GroupId) : Alters butSense s (s.nextMeasurement g) := by
  unfold State.nextMeasurement
  dsimp only
  split
  · exact .refl _ s
  · exact startMeasurement_alters s g _ _
  · exact nextSlot_alters s g

theorem beginRound_alters (s : State) (g : GroupId) : Alters butSense s (s.beginRound g) :=
  .ite _ (.refl _ s) <| .ite _ ((setGroup_alters s g _).trans (nextMeasurement_alters _ g)) <|
    .ite _ ((setGroup_alters s g _).trans (nextMeasurement_alters _ g)) (.refl _ s)

/-- What a measurement does before the grants that follow it. -/
theorem measured_works (s : State) (p : PointId) (count : Nat) (q : Quality) (g : GroupId) (voided compared kept : Prop)
    [Decidable voided] [Decidable compared] [Decidable kept] :
    AltersWork butSensing s (if voided then s
      else if kept then (if compared then s.compare p count q else s).keepResult g p count q
      else (if compared then s.compare p count q else s).publish p count q) := by
  have h : AltersWork butSensing s (if compared then s.compare p count q else s) :=
    .ite _ (compare_works s p count q) (.refl _ s)
  exact .ite _ (.refl _ s) <| .ite _ (h.trans ((setGroup_alters _ g _).work.weaken _ butSensing_sense))
    (h.trans ((publish_alters _ _ _ _).work.weaken _ butSensing_sense))

theorem endMeasurement_alters (s : State) (g : GroupId) (count : Nat) : Alters butSensing s (s.endMeasurement g count) := by
  unfold State.endMeasurement
  dsimp only
  split
  next m r _ _ =>
    have hnote : AltersWork butSensing s ((s.setGroup g { s.group g with measuring := none }).noteQuality m.point count (quality m count)) :=
      ((setGroup_alters s g _).trans (noteQuality_alters _ _ _ _)).work.weaken _ butSensing_sense
    have hset := (hnote.trans (measured_works _ m.point count (quality m count) g (m.voided = true) (r.mode.compared = true)
      (m.slot.isSome = true ∧ r.mode = .periodic))).settle
    exact .ite _ (hset.trans ((nextSlot_alters _ g).weaken _ butSensing_sense))
      (hset.trans ((nextMeasurement_alters _ g).weaken _ butSensing_sense))
  next => exact .refl _ s

/-! ### The due steps (R140) -/

/-- What a drive period alters of the fixed part: all but the configuration, the mode, the queue, the acceptances and the
descriptors. -/
def butPeriod (f : Fixed) : Fixed :=
  { State.reset.fixed with cfg := f.cfg, mode := f.mode, pending := f.pending, accepted := f.accepted, laps := f.laps, descs := f.descs }

theorem Plain.period {s t : State} (h : Plain s t) : Alters butPeriod s t := h.alters _

theorem dueSteps_alters : ∀ f ∈ dueSteps, ∀ s, Alters butPeriod s (f s) := by
  simp only [dueSteps, List.forall_mem_cons, List.not_mem_nil, false_imp_iff, implies_true, and_true]
  refine ⟨fun s => (clockSecond_alters s).weaken _ fun _ => rfl, fun s => (circStep_plain s).period,
    fun s => (doorStep_plain s).period, fun s => (selectorArrive_plain s).period, fun s => (selectorTimeOut_plain s).period,
    fun s => (doorChange_alters s).weaken _ fun _ => rfl, fun s => (rodExtend_plain s).period,
    fun s => (rodRetract_plain s).period, fun s => (pushStall_plain s _).period, fun s => (pushStall_plain s _).period,
    fun s => (rodHold_plain s).period, fun s => (retractLate_plain s).period, fun s => (strokeEnd_plain s 0).period,
    fun s => (strokeEnd_plain s 1).period, fun s => (strokeEnd_plain s 2).period,
    fun s => .foldl _ (fun u c => (intervalEnd_plain u c).period) _ s,
    fun s => .foldl _ (fun u c => (delayExpiry_plain u c).period) _ s,
    fun s => (fillNoFlow_plain s).period, fun s => (regenNoFlow_plain s).period, fun s => (circRunEnd_plain s).period,
    fun s => .foldl _ (fun u i => (heatLimitEnd_plain u i).period) _ s, fun s => (drainPostrunEnd_plain s).period,
    fun s => (drainLimitEnd_plain s).period, fun s => (forcePostrunEnd_plain s).period, fun s => (soakEnded_plain s).period,
    fun s => (dryDelay_plain s).period, fun s => (dryAjarPassed_plain s).period,
    fun s => (takeHead_effect (.refl s)).plain.period,
    fun s => (Alters.foldl _ (fun u g => beginRound_alters u g) _ s).weaken _ fun _ => rfl⟩

theorem catchUp_alters (s : State) : Alters butPeriod s s.catchUp := by
  unfold State.catchUp
  have h : ∀ l : List (State → State), (∀ f ∈ l, ∀ s, Alters butPeriod s (f s)) → ∀ s, Alters butPeriod s (l.foldl (fun s f => f s) s) := by
    intro l hl
    induction l with
    | nil => exact fun s => .refl _ s
    | cons f fs ih =>
      exact fun s => (hl f List.mem_cons_self s).trans (ih (fun g hg => hl g (List.mem_cons_of_mem f hg)) (f s))
  exact h dueSteps dueSteps_alters s

/-! ### The spans (R28, R140) -/

/-- A slot's work moved on by one period, in the pool `v`. -/
def State.tickSlot (s : State) (v : Vector (Option Slot) 12) (i : SlotId) : Vector (Option Slot) 12 :=
  match v[i] with
  | some sl => if sl.outcome.isSome then v else upd v i (some { sl with work := s.tickWork i sl })
  | none => v

theorem State.tickPool_eq (s : State) : s.tickPool = { s with pool := allSlots.foldl s.tickSlot s.pool } := by
  unfold State.tickPool State.tickSlot
  rfl

/-- The pool `v` has no slot but those of the pool `w`. -/
def SlotsOf (w v : Vector (Option Slot) 12) : Prop :=
  ∀ (i : SlotId) (x : Slot), v[i] = some x →
    ∃ y, w[i] = some y ∧ x.port = y.port ∧ x.tag = y.tag ∧ x.serial = y.serial ∧ x.lap = y.lap

theorem SlotsOf.tickSlot {w v : Vector (Option Slot) 12} (s : State) (h : SlotsOf w v) (i : SlotId) :
    SlotsOf w (s.tickSlot v i) := by
  unfold State.tickSlot
  split
  next sl hi =>
    split
    next => exact h
    next =>
      intro j x hx
      rw [upd_get] at hx
      split at hx
      next e =>
        subst e
        obtain rfl := Option.some.inj hx
        exact h j sl hi
      next => exact h j x hx
  next => exact h

theorem SlotsOf.tickSlots {w : Vector (Option Slot) 12} (s : State) (l : List SlotId) {v : Vector (Option Slot) 12}
    (h : SlotsOf w v) : SlotsOf w (l.foldl s.tickSlot v) := by
  induction l generalizing v with
  | nil => exact h
  | cons i is ih => exact ih (h.tickSlot s i)

/-- A pool with no slot but those there were. -/
theorem pool_work (s : State) {v : Vector (Option Slot) 12} (h : SlotsOf s.pool v) : PlainWork s { s with pool := v } :=
  ⟨rfl, .of_same rfl rfl rfl rfl rfl rfl h fun _ b => b.congr rfl rfl rfl rfl⟩

theorem tickPool_work (s : State) : PlainWork s s.tickPool := by
  rw [State.tickPool_eq]
  exact pool_work s (.tickSlots s allSlots fun i x hx => ⟨x, hx, rfl, rfl, rfl, rfl⟩)

theorem tickRegen_effect {a s : State} (h : Effect a s) : Effect a s.tickRegen := by
  unfold State.tickRegen
  split
  next => exact h
  next g hg =>
    refine setRegenSame_effect h hg _ ?_
    split <;> split <;> rfl

theorem tickChannel_effect {a s : State} (h : Effect a s) (c : ChannelId) : Effect a (s.tickChannel c) :=
  ite_effect _ (setChannel_effect h c _ fun _ k => k.of_same rfl rfl rfl rfl rfl) h

theorem tickRod_effect {a s : State} (h : Effect a s) : Effect a s.tickRod := setRod_effect h _

/-- A change of the Sense Scanner's record, which no law of the work reads. -/
theorem sense_works (s : State) (x : Sense) : AltersWork butPeriod s { s with sense := x } :=
  ⟨rfl, .of_same rfl rfl rfl rfl rfl rfl (.of_eq rfl) fun _ b => b.congr rfl rfl rfl rfl⟩

theorem driveKept_works (s : State) (x : Drive) (hc : x.clock = s.drive.clock) (hp : x.period = s.drive.period) :
    AltersWork butPeriod s { s with drive := x } := (drive_effect (.refl s) x hc hp).alters _

/-- The spans of the Drive Unit, which no law reads. -/
def State.tickDrive (s : State) : State :=
  { s with drive := { s.drive with strokes := updAll Stroke.tick s.drive.strokes,
                                   travel := s.drive.travel.map fun t => t.tick Config.travelPeriods } }

/-- The span of a force's post-run. -/
def State.tickForce (s : State) : State :=
  if s.prot.force = .postrun then { s with prot := { s.prot with postrun := s.prot.postrun.tick (seconds s.drive.postrun) } }
  else s

/-- The ages and counts of the Sense Scanner. -/
def State.tickSense (s : State) : State :=
  { s with sense := { s.sense with
      points := updAll (fun p => { p with published := p.published.map Published.tick }) s.sense.points,
      groups := updAll (fun g => { g with sinceStart := g.sinceStart + 1 }) s.sense.groups } }

theorem State.tickSpans_eq (s : State) : s.tickSpans =
    (allChannels.foldl State.tickChannel s.tickPool.tickRegen).tickRod.tickDrive.tickForce.tickSense := by
  unfold State.tickSpans
  dsimp only
  generalize (allChannels.foldl State.tickChannel s.tickPool.tickRegen).tickRod = u
  unfold State.tickSense State.tickForce State.tickDrive
  split <;> rfl

theorem tickForce_effect (s : State) : Effect s s.tickForce :=
  ite_effect _ (prot_effect s { s.prot with postrun := s.prot.postrun.tick (seconds s.drive.postrun) } rfl rfl rfl) (.refl s)

theorem tickDrive_works (s : State) : AltersWork butPeriod s s.tickDrive := driveKept_works s _ rfl rfl

theorem tickSense_works (s : State) : AltersWork butPeriod s s.tickSense := sense_works s _

theorem tickSpans_works (s : State) : AltersWork butPeriod s s.tickSpans := by
  rw [State.tickSpans_eq]
  have heff := tickRod_effect (Effect.foldl State.tickChannel (fun _ c h => tickChannel_effect h c) allChannels
    (tickRegen_effect (.refl s.tickPool)))
  exact (((tickPool_work s).trans heff.work |>.alters _).trans (tickDrive_works _)).trans
    (((tickForce_effect _).alters _).trans (tickSense_works _))

/-! ### The readings (R44, R147, R150, R154) -/

/-- A reading leaves the value of a filtered switch. -/
theorem Filter.value_read (f : Filter) (x : Bool) : (f.read x).value = f.value := by
  unfold Filter.read
  split
  · rfl
  · split <;> rfl

/-- A change of the door block that leaves the door state. -/
theorem door_works (s : State) (x : Door) (h : x.door.value = s.door.door.value) :
    AltersWork butPeriod s { s with door := x } :=
  ⟨rfl, .of_same rfl h rfl rfl rfl rfl (.of_eq rfl) fun _ b => b.congr rfl rfl rfl rfl⟩

theorem takeReadings_works (s : State) (r : PeriodReadings) : AltersWork butPeriod s (s.takeReadings r) := by
  unfold State.takeReadings
  dsimp only
  exact (driveKept_works s { s.drive with
    travelReading := if (s.entry .selector).lease = .moving then some (r.selA, r.selB) else none } rfl rfl).trans
    (door_works _ _ (s.door.door.value_read r.doorSw))

/-- A change of the water path's record that leaves the record of the interlock. -/
theorem water_works (s : State) (x : Water) (h : x.interlock = s.water.interlock) :
    AltersWork butPeriod s ({ s with water := x } : State) :=
  ⟨rfl, .of_same rfl rfl rfl h rfl rfl (.of_eq rfl) fun _ b => b.congr rfl rfl rfl rfl⟩

theorem takeReading_works (s : State) (t : Nat) (heatsFirst : Bool) {between : State → State}
    (hb : ∀ u, AltersWork butPeriod u (between u)) : AltersWork butPeriod s (s.takeReading t heatsFirst between) := by
  have heats : ∀ u : State, AltersWork butPeriod u u.heatsReading := fun u => (heatsReading_effect (.refl u)).alters _
  have trip : ∀ u : State, AltersWork butPeriod u (u.handIn .overtemp 0) := fun u => (handIn_works u _ _).weaken _ fun _ => rfl
  exact .ite _ (.ite _ ((heats s).trans ((hb _).trans (trip _))) ((trip s).trans ((hb _).trans (heats _))))
    ((heats s).trans (hb _))

theorem validReading_works (s : State) (t : Nat) (heatsFirst : Bool) {between : State → State}
    (hb : ∀ u, AltersWork butPeriod u (between u)) : AltersWork butPeriod s (s.validReading t heatsFirst between) := by
  unfold State.validReading
  exact (water_works s { s.water with temperature := t, probeValid := true, probeRead := true,
                                      overTemp := overTempAfter s.cfg s.water.overTemp t } rfl).trans (takeReading_works _ t _ hb)

theorem invalidReading_works (s : State) (x : Int) : AltersWork butPeriod s (s.invalidReading x) := by
  unfold State.invalidReading
  refine (water_works s { s.water with probeValid := false, probeRead := true } rfl).trans (Effect.alters ?_ _)
  exact heatsProbeFault_effect (ite_effect _ (fault_effect (.refl _) _ _ _) (.refl _))

theorem readProbe_works (s : State) (x : Int) (heatsFirst : Bool) {between : State → State}
    (hb : ∀ u, AltersWork butPeriod u (between u)) : AltersWork butPeriod s (s.readProbe x heatsFirst between) :=
  .ite _ (validReading_works s _ _ hb) (invalidReading_works s x)

theorem choose_works (s : State) : AltersWork butPeriod s s.choose.2 :=
  ⟨rfl, .of_same rfl rfl rfl rfl rfl rfl (.of_eq rfl) fun _ b => b.congr rfl rfl rfl rfl⟩

theorem takeProbe_works (s : State) (x : Int) : AltersWork butPeriod s (s.takeProbe x) := by
  have still : ∀ u : State, AltersWork butPeriod u u.still := fun u => .refl _ u
  have due : ∀ u : State, AltersWork butPeriod u u.catchUp := fun u => (catchUp_alters u).work
  have h := choose_works s
  unfold State.takeProbe
  split
  · split
    · exact h.trans (readProbe_works _ x _ still)
    · exact h.trans (readProbe_works _ x _ still)
    · exact (h.trans (due _)).trans (readProbe_works _ x _ still)
    · exact (h.trans (due _)).trans (readProbe_works _ x _ still)
    · exact h.trans (readProbe_works _ x _ due)
    · exact h.trans (readProbe_works _ x _ due)
  · exact readProbe_works s x _ still

theorem circYield_effect {a s : State} (h : Effect a s) (second : Option SlotId) : Effect a (s.circYield second) := by
  unfold State.circYield
  split
  · exact h
  · split
    · exact ite_effect _ (yieldCirc_effect h _) h
    · exact h

theorem judgeRounds_alters (s : State) : Alters butPeriod s s.judgeRounds :=
  (Alters.foldl _ (fun u g => setGroup_alters u g _) _ s).weaken _ fun _ => rfl

theorem countPeriod_works (s : State) : AltersWork butPeriod s s.countPeriod := ⟨rfl, drive_works s _⟩

theorem applyStaging_works (s : State) : AltersWork butPeriod s s.applyStaging := driveKept_works s _ rfl rfl

theorem countRamps_works (s : State) : AltersWork butPeriod s s.countRamps := driveKept_works s _ rfl rfl

theorem endPeriod_alters (s : State) (r : PeriodReadings) : Alters butPeriod s (s.endPeriod r) := by
  unfold State.endPeriod
  dsimp only
  have hspans : AltersWork butPeriod s s.catchUp.countPeriod.applyStaging.circReached.countRamps.tickSpans :=
    ((((((catchUp_alters s).work).trans (countPeriod_works _)).trans (applyStaging_works _)).trans
      ((circReached_effect (.refl _)).alters _)).trans (countRamps_works _)).trans (tickSpans_works _)
  exact ((((hspans.trans (takeReadings_works _ r)).trans (takeProbe_works _ _)).trans
    ((circYield_effect (.refl _) _).alters _)).trans (judgeRounds_alters _).work).settle

end Sys2Proof.Machine

/-! CONFIG_WRITE keeps the laws: a number of its range is read back from its item and changes no other (R189), and what a write
does beyond the item lowers what stands above a bound. -/

namespace Sys2Proof.Machine

/-! ### The item table (R189) -/

theorem itemInRange_iff (i : Item) (v : Nat) : itemInRange i v = true ↔ (itemRange i).1 ≤ v ∧ v ≤ (itemRange i).2 := by
  simp [itemInRange]

theorem toNat_bne_zero {v : Nat} (h : v ≤ 1) : (v != 0).toNat = v := by
  interval_cases v <;> rfl

theorem toNat_beq_zero {v : Nat} (h : v ≤ 1) : (!(v == 0)).toNat = v := by
  interval_cases v <;> rfl

/-- An item holds the number that was written. -/
theorem Settings.read_put_self (g : Settings) {i : Item} {v : Nat} (h : itemInRange i v = true) : (g.put i v).read i = v := by
  obtain ⟨hlow, hhigh⟩ := (itemInRange_iff i v).mp h
  cases i with
  | capRated c => cases c <;> rfl
  | exhaustPolicy => exact toNat_bne_zero hhigh
  | autoRegen => exact toNat_bne_zero hhigh
  | hardnessSource => exact toNat_bne_zero hhigh
  | hardnessTable => exact absurd (hlow.trans hhigh) (by decide)
  | factorTable => exact absurd (hlow.trans hhigh) (by decide)
  | resFull n => exact upd_self _ n v
  | resLowmark n => exact upd_self _ n v
  | strokeVol n => exact upd_self _ n v
  | portRing p => exact (congrArg (fun b => (!b).toNat) (upd_self _ (portIndex p) _)).trans (toNat_beq_zero hhigh)
  | regenRing => exact toNat_beq_zero hhigh
  | channelRing c => exact (congrArg (fun b => (!b).toNat) (upd_self _ c _)).trans (toNat_beq_zero hhigh)
  | dryRing => exact toNat_beq_zero hhigh
  | scanPeriod =>
    have hv : v < 4 := Nat.lt_succ_of_le hhigh
    simp [Settings.put, Settings.read, finOf, hv]
  | capture k => exact (congrArg Bool.toNat (upd_self _ k _)).trans (toNat_bne_zero hhigh)
  | _ => rfl

theorem portIndex_injective {p q : Port} (h : portIndex p = portIndex q) : p = q := by
  cases p <;> cases q <;> first | rfl | cases h

theorem Settings.read_capRated_put (g : Settings) {i : Item} {c : Column} (v : Nat) (h : .capRated c ≠ i) :
    (g.put i v).read (.capRated c) = g.read (.capRated c) := by
  cases i with
  | capRated d => cases c <;> cases d <;> first | rfl | exact absurd rfl h
  | _ => cases c <;> rfl

/-- A write leaves every other item: two items of one kind differ in their index, of two kinds in the field that holds them. -/
theorem Settings.read_put_ne (g : Settings) {i j : Item} (v : Nat) (h : j ≠ i) : (g.put i v).read j = g.read j := by
  cases i with
  | capRated c =>
    cases j with
    | capRated d => exact g.read_capRated_put v h
    | _ => cases c <;> rfl
  | resFull n =>
    cases j with
    | resFull m => exact upd_ne _ (fun e => h (congrArg _ e)) v
    | capRated d => exact g.read_capRated_put v h
    | _ => rfl
  | resLowmark n =>
    cases j with
    | resLowmark m => exact upd_ne _ (fun e => h (congrArg _ e)) v
    | capRated d => exact g.read_capRated_put v h
    | _ => rfl
  | strokeVol n =>
    cases j with
    | strokeVol m => exact upd_ne _ (fun e => h (congrArg _ e)) v
    | capRated d => exact g.read_capRated_put v h
    | _ => rfl
  | portRing p =>
    cases j with
    | portRing q => exact congrArg (fun b => (!b).toNat) (upd_ne _ (fun e => h (congrArg _ (portIndex_injective e))) _)
    | capRated d => exact g.read_capRated_put v h
    | _ => rfl
  | channelRing c =>
    cases j with
    | channelRing d => exact congrArg (fun b => (!b).toNat) (upd_ne _ (fun e => h (congrArg _ e)) _)
    | capRated d => exact g.read_capRated_put v h
    | _ => rfl
  | capture k =>
    cases j with
    | capture l => exact congrArg Bool.toNat (upd_ne _ (fun e => h (congrArg _ e)) _)
    | capRated d => exact g.read_capRated_put v h
    | _ => rfl
  | _ => cases j <;> first | rfl | exact g.read_capRated_put v h | exact absurd rfl h

theorem Settings.read_put (g : Settings) {i : Item} {v : Nat} (hv : itemInRange i v = true) (j : Item) :
    (g.put i v).read j = if j = i then v else g.read j := by
  split
  next e => subst e; exact g.read_put_self hv
  next e => exact g.read_put_ne v e

/-- A write of a number leaves the two band tables. -/
theorem Settings.tables_put (g : Settings) (i : Item) (v : Nat) :
    (g.put i v).hardnessTable = g.hardnessTable ∧ (g.put i v).factorTable = g.factorTable := by
  cases i with
  | capRated c => cases c <;> exact ⟨rfl, rfl⟩
  | _ => exact ⟨rfl, rfl⟩

theorem Settings.put_legal {g : Settings} (h : g.legal) {i : Item} {v : Nat} (hv : itemInRange i v = true) : (g.put i v).legal := by
  obtain ⟨hitems, htables⟩ := h
  refine ⟨fun j h1 h2 => ?_, ?_⟩
  · rw [g.read_put hv]
    split
    next e => exact e ▸ hv
    next => exact hitems j h1 h2
  · obtain ⟨e1, e2⟩ := g.tables_put i v
    rw [e1, e2]
    exact htables

theorem Settings.write_value {g g' : Settings} {i : Item} {v : Nat} (h : g.write i (.value v) = some g') :
    itemInRange i v = true ∧ g' = g.put i v := by
  simp only [Settings.write, Option.ite_none_right_eq_some, Option.some.injEq] at h
  exact ⟨h.1, h.2.symm⟩

theorem Settings.write_legal {g g' : Settings} (hg : g.legal) {i : Item} {x : ConfigPayload} (h : g.write i x = some g') :
    g'.legal := by
  cases x with
  | value v =>
    obtain ⟨hv, rfl⟩ := Settings.write_value h
    exact Settings.put_legal hg hv
  | hardnessBands bs =>
    simp only [Settings.write, Option.ite_none_right_eq_some, Option.some.injEq] at h
    obtain ⟨⟨-, hb⟩, rfl⟩ := h
    exact ⟨hg.1, hb, hg.2.2⟩
  | factorBands bs =>
    simp only [Settings.write, Option.ite_none_right_eq_some, Option.some.injEq] at h
    obtain ⟨⟨-, hb⟩, rfl⟩ := h
    exact ⟨hg.1, hg.2.1, hb⟩

theorem Settings.legal.weak {g : Settings} (h : g.legal) : g.weakPercent ≤ 100 := by
  have hw := ((itemInRange_iff _ _).mp (h.1 .weakPercent nofun nofun)).2
  exact hw.trans (by decide)

/-! ### What a write leaves of the items that bound something -/

/-- The items that the laws are read through: the capacities, the full marks and the rings of the ports. -/
def Item.bounds : Item → Bool
  | .capRated _ => true | .resFull _ => true | .saltFull => true | .portRing _ => true
  | _ => false

/-- The table keeps its capacities and its full marks. -/
def Settings.sameBounds (g h : Settings) : Prop :=
  h.capRatedA = g.capRatedA ∧ h.capRatedB = g.capRatedB ∧ h.resFull = g.resFull ∧ h.saltFull = g.saltFull

theorem Settings.sameBounds_put (g : Settings) {i : Item} (v : Nat) (h : i.bounds = false) : g.sameBounds (g.put i v) := by
  cases i <;> first | exact ⟨rfl, rfl, rfl, rfl⟩ | cases h

theorem Settings.portUrgent_put (g : Settings) {i : Item} (v : Nat) (h : ∀ p, i ≠ .portRing p) :
    (g.put i v).portUrgent = g.portUrgent := by
  cases i with
  | capRated c => cases c <;> rfl
  | portRing p => exact absurd rfl (h p)
  | _ => rfl

/-! ### The write itself -/

/-- What a write of an item alters: the configuration. -/
def butCfg (f : Fixed) : Fixed := { f with cfg := Settings.default }

/-- A change of the configuration keeps the laws that are not read through it. -/
theorem cfg_alters {s u : State} (hf : butCfg u.fixed = butCfg s.fixed) (ha : u.arb = s.arb) (hp : u.pool = s.pool)
    (hw : u.water.interlock = s.water.interlock) (hl : s.cfg.legal → u.cfg.legal)
    (hr : s.mode = .run → u.cfg.portUrgent = s.cfg.portUrgent) (hb : s.cfg.legal → s.booksSafe → u.booksSafe) :
    Alters butCfg s u := by
  have hd : u.doorClosed = s.doorClosed := congrArg (fun f : Fixed => f.doorFilter.value) hf
  have hm : u.mode = s.mode := congrArg Fixed.mode hf
  have hlat : u.latched = s.latched := congrArg (fun f : Fixed => f.flood || f.overfill || f.overtemp) hf
  have hwater : u.waterPresent = s.waterPresent := by
    have hpoints : u.sense.points = s.sense.points := congrArg Fixed.points hf
    exact State.waterPresent_congr (fun p => by rw [hpoints]) fun p => by rw [hpoints]
  have hprobe : u.water.probeValid = s.water.probeValid := congrArg Fixed.probeValid hf
  have he := State.entry_congr (congrArg Arbiter.table ha)
  refine ⟨hf, Works.kept ⟨fun k => k.congr (congrArg Arbiter.table ha) hd hlat, fun _ k c => hw.trans (k (he .heater ▸ c)), hb, hl,
    fun ⟨hsetup, hnormal, hurgent⟩ => ?_⟩ hw ?_ (congrArg Entry.lease (he _))⟩
  · by_cases hs : s.mode = .setup
    · have hnone : ∀ i : SlotId, u.pool[i] = none := fun i => by rw [hp]; exact hsetup hs i
      refine ⟨fun _ => hnone, ?_, fun p _ => ?_⟩
      · simp [State.normalSlots, hnone]
      · simp [State.portSlots, hnone]
    · have hu := hr (by cases e : s.mode <;> simp_all)
      refine ⟨fun k => absurd (hm.symm.trans k) hs, ?_, fun p k => ?_⟩
      · simpa only [State.normalSlots, hu, hp] using hnormal
      · rw [hu] at k
        simpa only [State.portSlots, hp] using hurgent p k
  · simp only [State.interlockMet, State.interlockConditions, he, hd, hwater, hprobe]

theorem State.booksSafe.setCfg {s : State} (h : s.booksSafe) {g : Settings} (hl : g.legal) (hb : s.cfg.sameBounds g) :
    ({ s with cfg := g } : State).booksSafe := by
  obtain ⟨ha, hb, hr, hs⟩ := hb
  refine ⟨hl.weak, h.descs, h.one, h.queue, fun c => ?_, ⟨fun n => ?_, ?_⟩, h.log, h.channels⟩
  · cases c with
    | a => exact (h.columns .a).trans (le_of_eq ha.symm)
    | b => exact (h.columns .b).trans (le_of_eq hb.symm)
  · exact (h.amounts.1 n).trans (le_of_eq (congrArg (fun v : Vector Nat 3 => v[n]) hr.symm))
  · exact h.amounts.2.trans (le_of_eq hs.symm)

/-- The counts of rounds to publish are no law's. -/
theorem publishWritten_effect (s : State) : Effect s s.publishWritten :=
  .of_idle rfl rfl rfl rfl rfl rfl rfl rfl

/-- A write of an item that bounds nothing. -/
theorem setCfg_alters (s : State) {g : Settings} (hl : s.cfg.legal → g.legal) (hb : s.cfg.sameBounds g)
    (hr : s.mode = .run → g.portUrgent = s.cfg.portUrgent) : Alters butCfg s { s with cfg := g } :=
  cfg_alters rfl rfl rfl rfl hl hr fun k b => b.setCfg (hl k) hb

theorem rated_alters (s : State) {c : Column} {v : Nat} (hv : itemInRange (.capRated c) v = true) :
    Alters butCfg s (({ s with cfg := s.cfg.put (.capRated c) v } : State).ratedWritten c) := by
  refine cfg_alters (by cases c <;> rfl) (by cases c <;> rfl) (by cases c <;> rfl) (by cases c <;> rfl)
    (fun k => ?_) (fun _ => by cases c <;> rfl) fun k b => ?_
  · cases c <;> exact Settings.put_legal k hv
  · have hw : (s.cfg.put (.capRated c) v).weakPercent ≤ 100 := (Settings.put_legal k hv).weak
    cases c with
    | a =>
      refine ⟨hw, b.descs, b.one, b.queue, fun d => ?_, b.amounts, b.log, b.channels⟩
      cases d with
      | a => exact Nat.min_le_right _ _
      | b => exact b.columns .b
    | b =>
      refine ⟨hw, b.descs, b.one, b.queue, fun d => ?_, b.amounts, b.log, b.channels⟩
      cases d with
      | a => exact b.columns .a
      | b => exact Nat.min_le_right _ _

theorem resFull_alters (s : State) {n : ReservoirId} {v : Nat} (hv : itemInRange (.resFull n) v = true) :
    Alters butCfg s (({ s with cfg := s.cfg.put (.resFull n) v } : State).resFullWritten n) := by
  refine cfg_alters rfl rfl rfl rfl (fun k => Settings.put_legal k hv) (fun _ => rfl) fun k b => ?_
  refine ⟨(Settings.put_legal k hv).weak, b.descs, b.one, b.queue, b.columns, ⟨fun m => ?_, b.amounts.2⟩, b.log, b.channels⟩
  show (upd s.acct.reservoirs n _)[m].amount ≤ (upd s.cfg.resFull n v)[m]
  rw [upd_get, upd_get]
  split
  next e => exact (Nat.min_le_right _ _).trans (le_of_eq (upd_self _ _ _))
  next => exact b.amounts.1 m

theorem saltFull_alters (s : State) {v : Nat} (hv : itemInRange .saltFull v = true) :
    Alters butCfg s ({ s with cfg := s.cfg.put .saltFull v } : State).saltFullWritten := by
  unfold State.saltFullWritten
  dsimp only
  split
  · refine Alters.trans ?_ ((saltReported_plain _).alters _)
    refine cfg_alters rfl rfl rfl rfl (fun k => Settings.put_legal k hv) (fun _ => rfl) fun k b => ?_
    exact ⟨(Settings.put_legal k hv).weak, b.descs, b.one, b.queue, b.columns, ⟨b.amounts.1, le_refl v⟩, b.log, b.channels⟩
  · next h =>
    refine cfg_alters rfl rfl rfl rfl (fun k => Settings.put_legal k hv) (fun _ => rfl) fun k b => ?_
    exact ⟨(Settings.put_legal k hv).weak, b.descs, b.one, b.queue, b.columns, ⟨b.amounts.1, Nat.le_of_not_lt h⟩, b.log, b.channels⟩

/-- What a write does beyond an item that bounds nothing. -/
theorem itemWritten_plain (s : State) {i : Item} (h : i.bounds = false) : Plain s (s.itemWritten i) := by
  cases i with
  | capRated c => cases h
  | resFull n => cases h
  | saltFull => cases h
  | portRing p => cases h
  | exhaustPolicy => exact (judgeFills_effect (.refl s) none).plain
  | autoRegen =>
    exact .ite _ (takeHead_effect (queueExhausted_effect (.refl s))).plain
      ((setQueue_sublist_effect (.refl s) List.filter_sublist).plain_of_table rfl)
  | hardnessSource =>
    exact .ite _ (.refl s) ((setHardness_effect (.refl s) _ _).plain_of_table (congrArg Arbiter.table (s.arb_setHardness _ _)))
  | hardnessSet =>
    exact .ite _ (.refl s) ((setHardness_effect (.refl s) _ _).plain_of_table (congrArg Arbiter.table (s.arb_setHardness _ _)))
  | publishEvery => exact (publishWritten_effect s).plain_of_table rfl
  | pushMax =>
    exact .ite _ ((drive_effect (.refl s)
      { s.drive with door := { s.drive.door with staged := s.cfg.pushMax, applyPending := true } } rfl rfl).plain_of_table rfl) (.refl s)
  | _ => exact .refl s

theorem written_alters (s : State) {i : Item} {x : ConfigPayload} {g : Settings} (hm : ¬(s.mode = .run ∧ itemLive i = false))
    (h : s.cfg.write i x = some g) : Alters butCfg s (({ s with cfg := g } : State).itemWritten i) := by
  have hl : s.cfg.legal → g.legal := fun k => Settings.write_legal k h
  cases x with
  | value v =>
    obtain ⟨hv, rfl⟩ := Settings.write_value h
    by_cases hb : i.bounds = false
    · refine (setCfg_alters s hl (s.cfg.sameBounds_put v hb) fun _ => s.cfg.portUrgent_put v ?_).trans
        ((itemWritten_plain _ hb).alters _)
      rintro p rfl
      cases hb
    · cases i with
      | capRated c => exact rated_alters s hv
      | resFull n => exact resFull_alters s hv
      | saltFull => exact saltFull_alters s hv
      | portRing p =>
        exact setCfg_alters s hl ⟨rfl, rfl, rfl, rfl⟩ fun k => absurd ⟨k, rfl⟩ hm
      | _ => exact absurd rfl hb
  | hardnessBands bs =>
    simp only [Settings.write, Option.ite_none_right_eq_some, Option.some.injEq] at h
    obtain ⟨⟨rfl, -⟩, rfl⟩ := h
    exact setCfg_alters s hl ⟨rfl, rfl, rfl, rfl⟩ fun _ => rfl
  | factorBands bs =>
    simp only [Settings.write, Option.ite_none_right_eq_some, Option.some.injEq] at h
    obtain ⟨⟨rfl, -⟩, rfl⟩ := h
    exact setCfg_alters s hl ⟨rfl, rfl, rfl, rfl⟩ fun _ => rfl

theorem configWrite_alters (s : State) (p : Port) (tag : Nat) (item : Option Item) (payload : ConfigPayload) :
    Alters butCfg s (match item with
      | none => s.reply p tag .badParam []
      | some i =>
        if s.mode = .run ∧ itemLive i = false then s.reply p tag .wrongMode []
        else match s.cfg.write i payload with
          | none => s.reply p tag .badParam []
          | some g => (({ s with cfg := g } : State).itemWritten i).reply p tag .ok []) := by
  split
  next => exact reply_alters _ s _ _ _ _
  next i =>
    split
    next => exact reply_alters _ s _ _ _ _
    next hm =>
      split
      next => exact reply_alters _ s _ _ _ _
      next g hg => exact (written_alters s hm hg).reply _ _ _ _

end Sys2Proof.Machine

/-! A device reset meets every law, and so every command keeps them (introduction 1.8). -/

namespace Sys2Proof.Machine

/-! ### The part after a device reset (R2, R152, R156) -/

/-- Every block as at the release of a device reset, but the door block, the choices and the queue. -/
structure State.fresh (s : State) : Prop where
  entry : ∀ r, s.entry r = Entry.reset
  pool : ∀ i : SlotId, s.pool[i] = none
  water : s.water = Water.reset
  soft : s.soft = Softener.reset
  acct : s.acct = Accounts.reset
  dose : s.dose = Dose.reset
  prot : s.prot = Protection.reset
  mode : s.mode = .setup
  cfg : s.cfg = Settings.default

theorem ofReset_fresh (r : ResetReadings) : (State.ofReset r).fresh :=
  ⟨fun q => by cases q <;> simp [State.entry, State.ofReset], fun i => by simp [State.ofReset], rfl, rfl, rfl, rfl, rfl, rfl, rfl⟩

/-- The part after a device reset, with the choices and the queue of before. -/
def State.afterReset (s : State) (r : ResetReadings) : State := { State.ofReset r with choice := s.choice, pending := s.pending }

theorem afterReset_fresh (s : State) (r : ResetReadings) : (s.afterReset r).fresh :=
  have h := ofReset_fresh r
  ⟨h.entry, h.pool, rfl, rfl, rfl, rfl, rfl, rfl, rfl⟩

theorem State.ports_afterReset (s : State) (r : ResetReadings) (p : Port) : (s.afterReset r).port p = PortState.reset := by
  cases p <;> rfl

/-- No slot is enabled after a reset: an event is placed nowhere (R193). -/
theorem PortState.place_reset (rep : Report) : PortState.reset.place rep = PortState.reset :=
  PortState.place_of_unmatched fun k => by simp [PortState.reset, Sub.takes, Sub.reset]

theorem execDeviceReset_eq (r : ResetReadings) (s : State) : exec (.deviceReset r) s = .next (s.afterReset r) := by
  have hpost : (s.afterReset r).post .rodStalled 0 4 = s.afterReset r := by
    simp only [State.post, State.afterReset, State.ofReset, PortState.place_reset]
  show Host.Outcome.next (if (s.afterReset r).door.rod.state = .stalled then (s.afterReset r).post .rodStalled 0 4
    else s.afterReset r) = _
  rw [hpost, ite_self]

theorem State.fresh.hasHolder {s : State} (h : s.fresh) (r : Resource) : s.hasHolder r = false := by
  simp [State.hasHolder, h.entry, Entry.reset]

theorem State.fresh.tableSafe {s : State} (h : s.fresh) : s.tableSafe := by
  refine ⟨fun r => ?_, fun k => absurd ?_ k, fun _ => h.hasHolder _, fun _ r _ => h.hasHolder r, fun _ r _ => h.hasHolder r,
    fun r _ k => ?_⟩
  · rw [h.entry]
    exact ⟨⟨fun _ => rfl, fun _ => rfl⟩, by cases r <;> rfl⟩
  · rw [h.entry]
    rfl
  · rw [h.entry] at k
    cases k

theorem State.fresh.heaterSafe {s : State} (h : s.fresh) : s.heaterSafe := by
  have hmet : s.interlockMet = false := by
    simp [State.interlockMet, State.interlockConditions, h.entry, Entry.reset]
  refine ⟨by rw [hmet, h.water]; rfl, fun k => ?_⟩
  rw [h.entry] at k
  cases k

theorem default_legal : Settings.default.legal := by
  refine ⟨fun i h1 h2 => ?_, by decide, by decide⟩
  cases i with
  | capRated c => cases c <;> decide
  | resFull n => fin_cases n <;> decide
  | resLowmark n => fin_cases n <;> decide
  | strokeVol n => fin_cases n <;> decide
  | portRing p => cases p <;> decide
  | channelRing c => fin_cases c <;> decide
  | capture k => fin_cases k <;> decide
  | hardnessTable => exact absurd rfl h1
  | factorTable => exact absurd rfl h2
  | _ => decide

theorem State.fresh.booksSafe {s : State} (h : s.fresh) : s.booksSafe := by
  obtain ⟨-, -, -, hsoft, hacct, hdose, -, -, hcfg⟩ := h
  refine ⟨?_, fun n => ?_, ?_, ⟨?_, ?_, ?_⟩, fun c => ?_, ⟨fun n => ?_, ?_⟩, ⟨?_, ?_⟩, fun c => ?_⟩
  · rw [hcfg]; decide
  · have : s.dose.descs[n] = descReset := by rw [hdose]; simp [Dose.reset]
    rw [this]
    decide
  · unfold State.oneInService
    rw [hsoft]
    decide
  · rw [hsoft]; decide
  · rw [hsoft]; decide
  · rw [hsoft]; nofun
  · cases c <;> simp only [State.column, State.rated, hsoft, hcfg] <;> decide
  · have : s.acct.reservoirs[n].amount = 0 := by rw [hacct]; simp [Accounts.reset]
    rw [this]
    exact Nat.zero_le _
  · rw [hacct]; exact Nat.zero_le _
  · rw [hacct]; exact Nat.zero_le _
  · rw [hacct]; nofun
  · have : s.channel c = Channel.reset := by unfold State.channel; rw [hdose]; simp [Dose.reset]
    rw [this]
    exact fun k => absurd rfl k

theorem State.fresh.poolShared {s : State} (h : s.fresh) : s.poolShared := by
  refine ⟨fun _ => h.pool, ?_, fun p _ => ?_⟩
  · simp [State.normalSlots, h.pool]
  · simp [State.portSlots, h.pool]

theorem State.fresh.fillAt {s : State} (h : s.fresh) (i : SlotId) : s.fillAt i = none := by
  simp [State.fillAt, h.pool]

theorem State.fresh.fillSafe {s : State} (h : s.fresh) : s.fillSafe where
  regenerating c := by
    rw [h.soft]
    refine ⟨fun k => ?_, fun ⟨_, k, _⟩ => nomatch k⟩
    cases c <;> simp only [State.column, h.soft] at k <;> cases k
  standby k := absurd (h.mode.symm.trans k) (by decide)
  marked c i k := by cases c <;> simp only [State.column, h.soft] at k <;> cases k
  asked c p i k := by
    rw [h.soft] at k
    obtain ⟨q, hq, -⟩ | ⟨g, hg, -⟩ := k
    · cases hq
    · cases hg
  quiet _ := ⟨h.pool, by rw [h.soft]; rfl⟩
  users := by
    simp only [h.entry]
    exact ⟨nofun, nofun, nofun, nofun⟩
  asking w k := by
    rw [h.entry] at k
    cases k
  flow x i k := by
    rw [h.entry] at k
    cases k

theorem State.fresh.waitsFor {s : State} (h : s.fresh) (who : Holder) (r : Resource) : s.waitsFor who r = false := by
  simp [State.waitsFor, h.entry, Entry.reset]

/-- Nothing waits, holds or works after a reset; a retract is a RESET one. -/
theorem State.fresh.placed {s : State} (h : s.fresh) (hr : s.door.rod.retract.map (·.1) ≠ some .lease) : s.placed where
  waits r w k := by
    rw [h.entry] at k
    cases k
  holds r x i k := by
    rw [h.entry] at k
    cases k
  ending i sl k := by
    rw [h.pool] at k
    cases k
  door i sl dry w k := by
    simp [State.doorAt, h.pool] at k
  retract k := absurd k hr
  position k := by
    rw [h.entry] at k
    cases k
  fills i sl w k := by
    rw [h.fillAt] at k
    cases k
  regen := by
    simp only [h.entry]
    exact ⟨nofun, nofun, nofun, nofun⟩
  brine := by
    simp only [h.entry]
    exact ⟨nofun, nofun⟩
  flow g k := by
    rw [h.soft] at k
    cases k

/-- Settles O3. -/
theorem resetMeetsTheLaws : Obligations.ResetMeetsTheLaws := by
  have h : State.reset.fresh := ofReset_fresh _
  exact ⟨h.tableSafe, h.heaterSafe, h.booksSafe, default_legal, h.poolShared, h.fillSafe, h.placed (by decide)⟩

/-- A part that meets every law. -/
theorem State.fresh.kept {t : State} (h : t.fresh) (s : State) : Kept s t where
  tables _ := h.tableSafe
  flag _ _ := h.heaterSafe.flag
  books _ _ := h.booksSafe
  legal _ := h.cfg ▸ default_legal
  pool _ := h.poolShared
  heater _ _ := h.heaterSafe

/-- Settles O2. -/
theorem deviceResetLeavesResetValues : Obligations.DeviceResetLeavesResetValues := by
  intro r s
  have h := afterReset_fresh s r
  refine ⟨_, execDeviceReset_eq r s, h.entry, rfl, ?_, h.pool, rfl, rfl, fun p => ?_, rfl, rfl, rfl, rfl, rfl, rfl, rfl, rfl, ?_, ?_,
    rfl, rfl, rfl, rfl, rfl, rfl, rfl, rfl, rfl, rfl, rfl⟩
  · show selectorRead r.selA r.selB = _
    unfold selectorRead
    simp only [Bool.and_eq_true, Bool.not_eq_true']
  · rw [State.ports_afterReset]
    exact ⟨rfl, rfl, rfl, by decide, fun k => by simp [PortState.reset]⟩
  · show (rodRead r.rodRet r.rodExt).1 = _
    cases r.rodRet <;> cases r.rodExt <;> rfl
  · show (rodRead r.rodRet r.rodExt).2 = _
    cases r.rodRet <;> cases r.rodExt <;> rfl

end Sys2Proof.Machine

/-! Every command keeps the laws, and changes nothing but what it is for. -/

namespace Sys2Proof.Machine

/-! ### What each command may alter -/

/-- A device reset leaves the queue alone. -/
def butQueue (f : Fixed) : Fixed := { State.reset.fixed with pending := f.pending }

/-- What a command does not alter of what no owner's work changes. -/
def altered (c : Instr) : Fixed → Fixed :=
  match c with
  | .deviceReset _ => butQueue
  | .configWrite _ _ _ _ _ => butCfg
  | .commit _ _ => butMode
  | .enterSetup _ _ => butMode
  | .descWrite _ _ _ _ => butDescs
  | .senseRead _ _ _ _ => butSense
  | .senseMode _ _ _ => butSense
  | .senseTableWrite _ _ _ => butSense
  | .scanRoundStart _ => butSense
  | .tripClear _ _ => butCauses
  | .drivePeriodEnd _ => butPeriod
  | .runClockSecond => butClock
  | .doorStateChange => butDoor
  | .measurementEnd _ _ => butSensing
  | c => if isOperation c then butAccepted else id

/-- Every command completes, keeps the laws and alters nothing but its own. -/
theorem exec_alters (c : Instr) (s : State) : ∃ t, exec c s = .next t ∧ Alters (altered c) s t := by
  by_cases hp : plainCommand c = true
  · obtain ⟨t, ht, h⟩ := exec_plain hp s
    exact ⟨t, ht, h.alters _⟩
  · cases c with
    | deviceReset r =>
      exact ⟨_, execDeviceReset_eq r s, rfl, (afterReset_fresh s r).kept s⟩
    | configWrite p tag item index payload =>
      refine ⟨_, rfl, ?_⟩
      split
      · exact immediate_alters s p tag fun u => configWrite_alters u p tag _ payload
      · exact takeFrame_alters s p fun u => reply_alters _ u _ _ _ _
    | commit p tag => exact ⟨_, rfl, immediate_alters s p tag fun u => commit_alters u p tag⟩
    | enterSetup p tag => exact ⟨_, rfl, immediate_alters s p tag fun u => enterSetup_alters u p tag⟩
    | descWrite p tag number desc => exact ⟨_, rfl, immediate_alters s p tag fun u => descWrite_alters u p tag number desc⟩
    | senseRead p tag point maxAge => exact ⟨_, rfl, immediate_alters s p tag fun u => senseRead_alters u p tag point maxAge⟩
    | senseMode p tag mode =>
      refine ⟨_, rfl, immediate_alters s p tag fun u => ?_⟩
      split
      · exact reply_alters _ u _ _ _ _
      · exact (takeScanMode_alters u _).reply _ _ _ _
    | senseTableWrite p tag payload =>
      exact ⟨_, rfl, immediate_alters s p tag fun u => senseTableWrite_alters u p tag payload⟩
    | tripClear p tag => exact ⟨_, rfl, immediate_alters s p tag fun u => tripClear_alters u p tag⟩
    | drivePeriodEnd r => exact ⟨_, rfl, endPeriod_alters s r⟩
    | runClockSecond => exact ⟨_, rfl, clockSecond_alters s⟩
    | doorStateChange => exact ⟨_, rfl, doorChange_alters s⟩
    | scanRoundStart g => exact ⟨_, rfl, beginRound_alters s g⟩
    | measurementEnd g count => exact ⟨_, rfl, endMeasurement_alters s g count⟩
    | fill p tag volume => exact ⟨_, rfl, operation_alters s p tag _ _ fun u i => takeUpFill_effect (.refl u) i⟩
    | circulate p tag duty runTime => exact ⟨_, rfl, operation_alters s p tag _ _ fun u i => takeUpCirc_effect (.refl u) i⟩
    | heat p tag target limit => exact ⟨_, rfl, operation_alters s p tag _ _ fun u i => takeUpHeat_effect (.refl u) i⟩
    | drain p tag => exact ⟨_, rfl, operation_alters s p tag _ _ fun u i => takeUpDrain_effect (.refl u) i⟩
    | regenerate p tag column =>
      exact ⟨_, rfl, operation_alters s p tag _ _ fun u i => takeUpRegenerate_effect (.refl u) i column⟩
    | doorPush p tag => exact ⟨_, rfl, operation_alters s p tag _ _ fun u i => takeUpDoorPush_effect (.refl u) i⟩
    | dry p tag delay ajar => exact ⟨_, rfl, operation_alters s p tag _ _ fun u i => takeUpDry_effect (.refl u) i⟩
    | _ => exact absurd rfl hp

theorem exec_kept {c : Instr} {s t : State} (h : exec c s = .next t) : Kept s t := by
  obtain ⟨u, hu, k⟩ := exec_alters c s
  cases hu.symm.trans h
  exact k.kept

theorem exec_altered {c : Instr} {s t : State} (h : exec c s = .next t) : altered c t.fixed = altered c s.fixed := by
  obtain ⟨u, hu, k⟩ := exec_alters c s
  cases hu.symm.trans h
  exact k.fixed

/-! ### The step (O1) -/

theorem step_nil {s : State} (h : s.pending = []) : step s = .next s := by
  unfold step
  rw [h]

theorem step_cons {s : State} {c : Instr} {q : List Instr} (h : s.pending = c :: q) :
    step s = exec c { s with pending := q } := by
  unfold step
  rw [h]

/-- Settles O1. -/
theorem stepRunsFrontCommand : Obligations.StepRunsFrontCommand :=
  ⟨fun _ _ _ => step_cons rfl, fun _ => step_nil⟩

/-- No law is read through the queue of commands. -/
theorem dequeue_kept (s : State) (q : List Instr) : Kept s ({ s with pending := q } : State) :=
  Works.kept (.of_same rfl rfl rfl rfl rfl rfl (.of_eq rfl) fun _ b => b.congr rfl rfl rfl rfl) rfl rfl rfl

theorem step_kept {s t : State} (h : step s = .next t) : Kept s t := by
  cases hp : s.pending with
  | nil =>
    cases (step_nil hp).symm.trans h
    exact .refl s
  | cons c q => exact (dequeue_kept s q).trans (exec_kept ((step_cons hp).symm.trans h))

/-! ### The laws that every step keeps (O4 to O8) -/

/-- Settles O4. -/
theorem tableLawsKept : Obligations.TableLawsKept := fun _ _ h hs => (step_kept hs).tables h

/-- Settles O5: between two judgements of the interlock its record covers HEATER, and every command ends with a judgement or leaves
what the interlock is read through. -/
theorem heaterLawKept : Obligations.HeaterLawKept := fun _ _ ht h hs => (step_kept hs).heater ht h

/-- Settles O6. -/
theorem booksLawsKept : Obligations.BooksLawsKept := fun _ _ h hl hs => (step_kept hs).books hl h

/-- Settles O7. -/
theorem settingsLawKept : Obligations.SettingsLawKept := fun _ _ h hs => (step_kept hs).legal h

/-- Settles O8. -/
theorem poolLawKept : Obligations.PoolLawKept := fun _ _ h hs => (step_kept hs).pool h

/-! ### What only some commands change (O9) -/

theorem altered_pending (c : Instr) (f : Fixed) : (altered c f).pending = f.pending := by
  cases c <;> rfl

theorem altered_accepted {c : Instr} (ho : isOperation c = false) (hr : ∀ r, c ≠ .deviceReset r) (f : Fixed) :
    (altered c f).accepted = f.accepted ∧ (altered c f).laps = f.laps := by
  cases c <;> first | exact ⟨rfl, rfl⟩ | exact absurd rfl (hr _) | cases ho

theorem altered_doorFilter {c : Instr} (hr : ∀ r, c ≠ .deviceReset r) (hp : ∀ r, c ≠ .drivePeriodEnd r) (hd : c ≠ .doorStateChange)
    (f : Fixed) : (altered c f).doorFilter = f.doorFilter := by
  cases c <;> first | rfl | exact absurd rfl (hr _) | exact absurd rfl (hp _) | exact absurd rfl hd

theorem altered_causes {c : Instr} (hr : ∀ r, c ≠ .deviceReset r) (hp : ∀ r, c ≠ .drivePeriodEnd r)
    (hm : ∀ g n, c ≠ .measurementEnd g n) (ht : ∀ p tag, c ≠ .tripClear p tag) (f : Fixed) :
    (altered c f).flood = f.flood ∧ (altered c f).overfill = f.overfill ∧ (altered c f).overtemp = f.overtemp := by
  cases c <;> first | exact ⟨rfl, rfl, rfl⟩ | exact absurd rfl (hr _) | exact absurd rfl (hp _) | exact absurd rfl (hm _ _) |
    exact absurd rfl (ht _ _)

/-- Settles O9. -/
theorem whatOnlySomeCommandsChange : Obligations.WhatOnlySomeCommandsChange := by
  intro c s t h
  have hf := exec_altered h
  refine ⟨?_, ?_, fun ho hr => ?_, fun hr hp hd => ?_, fun hr hp hm ht => ?_⟩
  · exact (altered_pending c t.fixed).symm.trans ((congrArg Fixed.pending hf).trans (altered_pending c s.fixed))
  · cases c with
    | deviceReset r => trivial
    | configWrite => exact ⟨congrArg Fixed.mode hf, congrArg Fixed.descs hf, congrArg Fixed.clock hf⟩
    | commit => exact ⟨congrArg Fixed.cfg hf, congrArg Fixed.descs hf, congrArg Fixed.clock hf⟩
    | enterSetup => exact ⟨congrArg Fixed.cfg hf, congrArg Fixed.descs hf, congrArg Fixed.clock hf⟩
    | descWrite => exact ⟨congrArg Fixed.cfg hf, congrArg Fixed.mode hf, congrArg Fixed.clock hf⟩
    | drivePeriodEnd => exact ⟨congrArg Fixed.cfg hf, congrArg Fixed.mode hf, congrArg Fixed.descs hf⟩
    | runClockSecond => exact ⟨congrArg Fixed.cfg hf, congrArg Fixed.mode hf, congrArg Fixed.descs hf⟩
    | _ => exact ⟨congrArg Fixed.cfg hf, congrArg Fixed.mode hf, congrArg Fixed.descs hf, congrArg Fixed.clock hf⟩
  · obtain ⟨t1, t2⟩ := altered_accepted ho hr t.fixed
    obtain ⟨s1, s2⟩ := altered_accepted ho hr s.fixed
    exact ⟨t1.symm.trans ((congrArg Fixed.accepted hf).trans s1), t2.symm.trans ((congrArg Fixed.laps hf).trans s2)⟩
  · have hdoor := (altered_doorFilter hr hp hd t.fixed).symm.trans ((congrArg Fixed.doorFilter hf).trans (altered_doorFilter hr hp hd s.fixed))
    exact congrArg Filter.value hdoor
  · obtain ⟨t1, t2, t3⟩ := altered_causes hr hp hm ht t.fixed
    obtain ⟨s1, s2, s3⟩ := altered_causes hr hp hm ht s.fixed
    exact ⟨t1.symm.trans ((congrArg Fixed.flood hf).trans s1), t2.symm.trans ((congrArg Fixed.overfill hf).trans s2),
      t3.symm.trans ((congrArg Fixed.overtemp hf).trans s3)⟩

end Sys2Proof.Machine

/-! The requests that read: FAULT_READ (R178) and STATUS (R191). No value of either stands in the receiver, so each is read as it
stood before the frame was taken. -/

namespace Sys2Proof.Machine

/-! ### The receiver -/

/-- A change of a receiver is one of the ports alone. -/
theorem State.setRx_eq (s : State) (p : Port) (rx : RxState) : s.setRx p rx = { s with ports := (s.setRx p rx).ports } := by
  cases p <;> rfl

/-- What reads no port reads the same whatever a receiver is. -/
theorem read_setRx {α : Sort _} (f : State → α) (hf : ∀ (s : State) (x : Ports), f { s with ports := x } = f s) (s : State)
    (p : Port) (rx : RxState) : f (s.setRx p rx) = f s := by
  rw [State.setRx_eq]
  exact hf s _

/-! ### FAULT_READ (R178) -/

/-- Settles O57. -/
theorem faultReadGives : Obligations.FaultReadGives := by
  intro s p tag h
  have hread := immediate_reads h State.faultReadBytes (read_setRx State.faultReadBytes (fun _ _ => rfl) s p .synced)
  refine (congrArg Host.Outcome.next hread).trans ?_
  unfold State.faultReadBytes
  congr 5
  refine List.flatMap_congr fun g _ => ?_
  cases s.prot.groups[g] <;> rfl

/-! ### STATUS (R191) -/

theorem State.sectionBytes_setRx (s : State) (p : Port) (rx : RxState) (n : Nat) :
    (s.setRx p rx).sectionBytes n = s.sectionBytes n :=
  read_setRx (fun u => u.sectionBytes n) (fun _ _ => by unfold State.sectionBytes; rfl) s p rx

theorem exec_status_section {s : State} {p : Port} {tag n : Nat} {bs : List Byte} (h : s.hears p tag)
    (hb : s.sectionBytes n = some bs) : exec (.status p tag n) s = .next (s.answered p tag .ok (byte4 s.drive.clock ++ bs)) := by
  refine congrArg Host.Outcome.next ((immediate_hears h _).trans ?_)
  rw [State.sectionBytes_setRx, hb, State.setRx_drive, State.answered]

theorem exec_status_badParam {s : State} {p : Port} {tag n : Nat} (h : s.hears p tag) (hn : 4 < n) :
    exec (.status p tag n) s = .next (s.answered p tag .badParam []) := by
  have hb : s.sectionBytes n = none := by
    match n, hn with
    | n + 5, _ => rfl
  refine congrArg Host.Outcome.next ((immediate_hears h _).trans ?_)
  rw [State.sectionBytes_setRx, hb, State.answered]

/-! ### The sections -/

theorem positionCode_eq (x : Option Column) : positionCode x = match x with | some .a => 0 | some .b => 1 | none => 2 := by
  rcases x with - | c
  · rfl
  · cases c <;> rfl

theorem statusOfResources : Clauses.StatusOfResources := by
  intro s p tag h
  rw [exec_status_section h (bs := s.section0) rfl, State.section0, positionCode_eq]
  rfl

theorem State.slotBytes_free {s : State} {i : SlotId} (h : s.pool[i] = none) : s.slotBytes i = flagByte false := by
  unfold State.slotBytes
  rw [h]
  rfl

theorem State.slotBytes_held {s : State} {i : SlotId} {sl : Slot} (h : s.pool[i] = some sl) :
    s.slotBytes i = flagByte true ++ (byte1 (portCode sl.port) ++ byte1 sl.tag ++ byte1 (workKindCode sl.work) ++
      byte1 (slotStateCode (s.slotState i sl)) ++ byte2 (s.progress i sl)) := by
  unfold State.slotBytes
  rw [h]
  rfl

theorem toNat_eq_ite (b : Bool) : b.toNat = if b = true then 1 else 0 := by
  cases b <;> rfl

theorem statusOfPool : Clauses.StatusOfPool := by
  intro s p tag h
  rw [exec_status_section h (bs := s.section1) rfl, State.section1]
  congr 4
  refine List.flatMap_congr fun i _ => ?_
  cases hi : s.pool[i] with
  | none => exact State.slotBytes_free hi
  | some sl =>
    rw [State.slotBytes_held hi]
    refine congrArg (fun n => flagByte true ++ (byte1 (portCode sl.port) ++ byte1 sl.tag ++ byte1 (workKindCode sl.work) ++
      byte1 (slotStateCode (s.slotState i sl)) ++ byte2 n)) ?_
    unfold State.progress
    cases sl.work with
    | drain w => exact toNat_eq_ite _
    | regenerate c => cases s.soft.regen <;> simp only [beq_iff_eq]
    | _ => rfl

theorem State.failedConditions_eq (s : State) : s.failedConditions =
    flagByte ((s.entry .circ).lease != .held) ++ flagByte (!s.waterPresent) ++ flagByte (!s.doorClosed) ++
      flagByte (!s.water.probeValid) := by
  simp only [State.failedConditions, State.interlockConditions, List.flatMap_cons, List.flatMap_nil, List.append_nil,
    List.append_assoc, bne]

theorem State.selMotor_isSome (s : State) : s.selMotor.isSome = ((s.entry .selector).lease == .moving) := by
  unfold State.selMotor
  split <;> simp_all

theorem flatMap_reservoirs {α : Type} (f : ReservoirId → List α) : (List.finRange 3).flatMap f = f 0 ++ f 1 ++ f 2 := by
  have hlist : List.finRange 3 = [0, 1, 2] := rfl
  simp only [hlist, List.flatMap_cons, List.flatMap_nil, List.append_nil, List.append_assoc]

theorem statusOfWaterAndDrive : Clauses.StatusOfWaterAndDrive := by
  intro s p tag h
  rw [exec_status_section h (bs := s.waterBytes ++ s.driveBytes) rfl, State.waterBytes, State.failedConditions_eq, State.driveBytes,
    State.selMotor_isSome, flatMap_reservoirs]
  cases s.drive.travel <;> rfl

theorem requesterBytes_eq {who : Option (Port × SlotId) → List Byte}
    (h : ∀ q, who q = match q with | none => byte1 3 ++ byte1 255 | some (x, i) => byte1 (portCode x) ++ byte1 i.val) :
    who = requesterBytes := by
  funext q
  rw [h]
  cases q <;> rfl

theorem State.breakthroughByte_eq (s : State) : s.breakthroughByte =
    byte1 (if s.soft.colA.breakthrough ≠ none then 0 else if s.soft.colB.breakthrough ≠ none then 1 else 255) := by
  unfold State.breakthroughByte optByte
  cases s.soft.colA.breakthrough <;> cases s.soft.colB.breakthrough <;> rfl

theorem statusOfSoftener : Clauses.StatusOfSoftener := by
  intro s p tag who h hw
  obtain rfl := requesterBytes_eq hw
  rw [exec_status_section h (bs := s.section3) rfl, State.section3, State.breakthroughByte_eq, listField, List.length_map]
  cases s.soft.regen <;> rfl

theorem optField_dryBytes {s : State} {dry : List Byte}
    (h : (∃ i sl w, s.doorSlot = some i ∧ s.pool[i] = some sl ∧ sl.work = .dry w ∧
        dry = flagByte true ++ (byte1 (doorPhaseCode w.phase) ++ byte2 (w.delayPassed.passed / 50) ++
          byte2 (w.ajarPassed.passed / 50) ++ flagByte w.pushed ++ flagByte w.seenOpen)) ∨
      ((∀ i sl w, s.doorSlot = some i → s.pool[i] = some sl → sl.work ≠ .dry w) ∧ dry = flagByte false)) :
    optField s.dryBytes = dry := by
  rcases h with ⟨i, sl, w, hi, hsl, hw, rfl⟩ | ⟨hn, rfl⟩
  · simp only [State.dryBytes, hi, hsl, hw]
    rfl
  · have hnone : s.dryBytes = none := by
      unfold State.dryBytes
      split
      next => rfl
      next i hi =>
        split
        next sl hsl =>
          split
          next w hw => exact absurd hw (hn i sl w hi hsl)
          next => rfl
        next => rfl
    rw [hnone]
    rfl

theorem statusOfDoorAndTrip : Clauses.StatusOfDoorAndTrip := by
  intro s p tag dry h hd
  rw [exec_status_section h (bs := s.section4) rfl, State.section4, optField_dryBytes hd, rodBytes]
  cases s.door.rod.retract with
  | none => rfl
  | some x =>
    obtain ⟨k, t⟩ := x
    cases k <;> rfl

/-! ### Slot states (R27, R74) -/

theorem slotWho_eq (i : SlotId) (sl : Slot) :
    slotWho i sl = match sl.work with | .doorPush _ => ⟨.dry, some i⟩ | .dry _ => ⟨.dry, some i⟩ | _ => ⟨.port sl.port, some i⟩ := by
  unfold slotWho
  cases sl.work <;> rfl

theorem State.waits_iff (s : State) (who : Holder) : s.waits who = true ↔ ∃ r, ∃ w ∈ (s.entry r).waiters, w.who = who := by
  simp only [State.waits, State.waitsFor, List.any_eq_true, Resource.mem_allResources, true_and, beq_iff_eq]

theorem State.acquiringOr_acquiring {s : State} {who : Holder} (h : (∃ r, ∃ w ∈ (s.entry r).waiters, w.who = who) ∨
    ((s.entry .selector).lease = .moving ∧ (s.entry .selector).holder = some who)) : s.acquiringOr who = .acquiring := by
  refine if_pos ?_
  simpa only [Bool.or_eq_true, Bool.and_eq_true, beq_iff_eq, s.waits_iff] using h

theorem State.acquiringOr_active {s : State} {who : Holder} (h : ¬((∃ r, ∃ w ∈ (s.entry r).waiters, w.who = who) ∨
    ((s.entry .selector).lease = .moving ∧ (s.entry .selector).holder = some who))) : s.acquiringOr who = .active := by
  refine if_neg ?_
  simpa only [Bool.or_eq_true, Bool.and_eq_true, beq_iff_eq, s.waits_iff] using h

theorem State.regenQueued_iff (s : State) (p : Port) (i : SlotId) :
    s.regenQueued p i = true ↔ ∃ q ∈ s.soft.queue, q.requester = some (p, i) := by
  simp only [State.regenQueued, List.any_eq_true, beq_iff_eq]

theorem State.regenQueued_false_iff (s : State) (p : Port) (i : SlotId) :
    s.regenQueued p i = false ↔ ∀ q ∈ s.soft.queue, q.requester ≠ some (p, i) := by
  simp only [State.regenQueued, List.any_eq_false, beq_iff_eq]

theorem slotStates : Clauses.SlotStates := by
  intro s i sl who asks hwho hasks
  obtain rfl : who = slotWho i sl := hwho.trans (slotWho_eq i sl).symm
  have hacq : asks → s.acquiringOr (slotWho i sl) = .acquiring := fun a => State.acquiringOr_acquiring (hasks.mp a)
  have hact : ¬asks → s.acquiringOr (slotWho i sl) = .active := fun a => State.acquiringOr_active fun k => a (hasks.mpr k)
  refine ⟨fun ho => if_pos (Option.isSome_iff_ne_none.mpr ho), fun ho => ?_⟩
  have hend : s.slotState i sl = _ := if_neg (by rw [ho]; decide)
  refine ⟨fun w hw => ?_, fun hw => ?_, fun w hw => ?_, fun c hw => ⟨fun hq => ?_, fun hq g hg => ?_⟩⟩
  · simp only [hend, hw]
    exact ⟨fun k => if_pos k, fun k => ⟨fun a => (if_neg (by rw [k]; decide)).trans (hacq a),
      fun a => (if_neg (by rw [k]; decide)).trans (hact a)⟩⟩
  · rcases hw with ⟨w, hw⟩ | ⟨w, hw⟩ | ⟨w, hw⟩ <;> simp only [hend, hw] <;> exact ⟨hacq, hact⟩
  · have hdoor : s.slotState i sl = if w.heldBack then .acquiring else s.acquiringOr (slotWho i sl) := by
      rcases hw with hw | hw <;> simp only [hend, hw]
    rw [hdoor]
    refine ⟨fun k => ?_, fun k a => (if_neg (by rw [k]; decide)).trans (hact a)⟩
    split
    · rfl
    next hb => exact hacq (k.resolve_left hb)
  · simp only [hend, hw]
    exact if_pos ((s.regenQueued_iff _ _).mpr hq)
  · have hq' := (s.regenQueued_false_iff _ _).mpr hq
    simp only [hend, hw, hq', hg, Bool.false_eq_true, if_false, beq_iff_eq]
    refine ⟨fun k => ?_, fun k a => (if_neg k).trans (hact a)⟩
    split
    · rfl
    next hb => exact hacq (k.resolve_left hb)

/-- Settles O60. -/
theorem statusGivesTheSection : Obligations.StatusGivesTheSection :=
  ⟨fun _ _ _ _ h hn => exec_status_badParam h hn, statusOfResources, statusOfPool, slotStates, statusOfWaterAndDrive,
    statusOfSoftener, statusOfDoorAndTrip⟩

end Sys2Proof.Machine

/-! Requests as bytes (R181, R190): every well-formed request is read back from the frame that carries it. -/

namespace Sys2Proof

/-! ### Bytes and words (R182) -/

theorem wordOf_bytes (n : Nat) : wordOf (n % 256) (n / 256) = n := Nat.mod_add_div n 256

theorem isByte_iff (n : Nat) : isByte n = true ↔ n < 256 := by simp [isByte]

theorem isWord_iff (n : Nat) : isWord n = true ↔ n < 65536 := by simp [isWord]

theorem isByte_low (n : Nat) : isByte (n % 256) = true := (isByte_iff _).mpr (Nat.mod_lt _ (by decide))

theorem isByte_high {n : Nat} (h : isWord n = true) : isByte (n / 256) = true :=
  (isByte_iff _).mpr (Nat.div_lt_of_lt_mul ((isWord_iff n).mp h))

theorem all_wordBytes {n : Nat} (h : isWord n = true) : (wordBytes n).all isByte = true := by
  simp [wordBytes, isByte_low, isByte_high h]

/-! ### The payload of a CONFIG_WRITE (R189) -/

theorem parseHardnessBands_bytes (bs : List (Nat × Nat)) :
    parseHardnessBands (bs.flatMap fun b => wordBytes b.1 ++ [b.2]) = some bs := by
  induction bs with
  | nil => rfl
  | cons b bs ih => simpa [wordBytes, parseHardnessBands, wordOf_bytes] using ih

theorem parseFactorBands_bytes (bs : List (Nat × Nat)) : parseFactorBands (bs.flatMap fun b => [b.1, b.2]) = some bs := by
  induction bs with
  | nil => rfl
  | cons b bs ih => simp [parseFactorBands, ih]

theorem parseConfigPayload_bytes {item : Nat} {x : ConfigPayload} (h : x.wf item = true) :
    parseConfigPayload item x.bytes = some x := by
  cases x with
  | value v =>
    simp only [ConfigPayload.wf, Bool.and_eq_true, bne_iff_ne] at h
    obtain ⟨⟨-, hitem⟩, hitem'⟩ := h
    simp [parseConfigPayload, hitem, hitem', ConfigPayload.bytes, wordBytes, wordOf_bytes]
  | hardnessBands bs =>
    simp only [ConfigPayload.wf, Bool.and_eq_true, beq_iff_eq] at h
    obtain ⟨⟨rfl, hlen⟩, -⟩ := h
    simp [parseConfigPayload, ConfigPayload.bytes, parseHardnessBands_bytes, eightBands, hlen]
  | factorBands bs =>
    simp only [ConfigPayload.wf, Bool.and_eq_true, beq_iff_eq] at h
    obtain ⟨⟨rfl, hlen⟩, -⟩ := h
    simp [parseConfigPayload, ConfigPayload.bytes, parseFactorBands_bytes, eightBands, hlen]

/-- The longest payload is the eight bands of the hardness table, 24 bytes. -/
theorem configPayload_fits {item : Nat} {x : ConfigPayload} (h : x.wf item = true) :
    x.bytes.length ≤ 24 ∧ x.bytes.all isByte = true := by
  cases x with
  | value v =>
    simp only [ConfigPayload.wf, Bool.and_eq_true] at h
    exact ⟨by simp [ConfigPayload.bytes, wordBytes], all_wordBytes h.1.1⟩
  | hardnessBands bs =>
    simp only [ConfigPayload.wf, Bool.and_eq_true, beq_iff_eq, List.all_eq_true] at h
    obtain ⟨⟨-, hlen⟩, hbands⟩ := h
    refine ⟨by simp [ConfigPayload.bytes, wordBytes, hlen], List.all_eq_true.mpr fun x hx => ?_⟩
    obtain ⟨b, hb, hx⟩ := List.mem_flatMap.mp hx
    rcases List.mem_append.mp hx with hx | hx
    · exact List.all_eq_true.mp (all_wordBytes (hbands b hb).1) x hx
    · exact List.mem_singleton.mp hx ▸ (hbands b hb).2
  | factorBands bs =>
    simp only [ConfigPayload.wf, Bool.and_eq_true, beq_iff_eq, List.all_eq_true] at h
    obtain ⟨⟨-, hlen⟩, hbands⟩ := h
    refine ⟨by simp [ConfigPayload.bytes, hlen], List.all_eq_true.mpr fun x hx => ?_⟩
    obtain ⟨b, hb, hx⟩ := List.mem_flatMap.mp hx
    simp only [List.mem_cons, List.not_mem_nil, or_false] at hx
    rcases hx with rfl | rfl
    · exact (hbands b hb).1
    · exact (hbands b hb).2

/-! ### Requests (R190) -/

/-- A request's body is parsed back: its words are put together again from their bytes. -/
theorem decodeRequest_encodeRequest {c : Instr} {p : Port} {tag kind : Nat} {body : List Nat} (h : c.wf = true)
    (he : encodeRequest c = some (p, tag, kind, body)) : decodeRequest p kind tag body = some c := by
  cases c with
  | configWrite p tag item index payload =>
    cases he
    simp only [Instr.wf, Bool.and_eq_true] at h
    exact congrArg (Option.map _) (parseConfigPayload_bytes h.2)
  | accountLoad p tag target amount st =>
    cases he
    exact congrArg (fun n => some (Instr.accountLoad p tag target n st)) (wordOf_bytes amount)
  | circulate p tag duty runTime =>
    cases he
    exact congrArg (fun n => some (Instr.circulate p tag duty n)) (wordOf_bytes runTime)
  | heat p tag target limit =>
    cases he
    exact congrArg₂ (fun m n => some (Instr.heat p tag m n)) (wordOf_bytes target) (wordOf_bytes limit)
  | dry p tag delay ajar =>
    cases he
    exact congrArg₂ (fun m n => some (Instr.dry p tag m n)) (wordOf_bytes delay) (wordOf_bytes ajar)
  | descWrite p tag n d =>
    cases he
    exact congrArg₂ (fun b x => some (Instr.descWrite p tag n { d with baseCount := b, delay := x })) (wordOf_bytes d.baseCount)
      (wordOf_bytes d.delay)
  | senseTableWrite p tag payload =>
    cases payload with
    | point pt role trim threshold direction debounce hop =>
      cases he
      exact congrArg₂ (fun m n => some (Instr.senseTableWrite p tag (.point pt role m n direction debounce hop)))
        (wordOf_bytes trim) (wordOf_bytes threshold)
    | group g a b c d => cases he; rfl
  | readDraws p tag start =>
    cases he
    exact congrArg (fun n => some (Instr.readDraws p tag n)) (wordOf_bytes start)
  | _ => cases he <;> rfl

/-- The longest body is that of a CONFIG_WRITE of the hardness table, and every field fits its bytes. -/
theorem encodeRequest_fits {c : Instr} {p : Port} {tag kind : Nat} {body : List Nat} (h : c.wf = true)
    (he : encodeRequest c = some (p, tag, kind, body)) : body.length ≤ 120 ∧ body.all isByte = true ∧ isByte tag = true := by
  cases c with
  | configWrite p tag item index payload =>
    cases he
    simp only [Instr.wf, Bool.and_eq_true] at h
    obtain ⟨⟨⟨htag, hitem⟩, hindex⟩, hpayload⟩ := h
    obtain ⟨hlen, hall⟩ := configPayload_fits hpayload
    refine ⟨?_, by simp [hitem, hindex, hall], htag⟩
    simp only [List.length_cons]
    omega
  | senseTableWrite p tag payload =>
    cases payload <;> cases he <;> simp_all [Instr.wf, SensePayload.wf, SensePayload.bytes, wordBytes, isByte_low, isByte_high] <;> decide
  | _ => cases he <;> simp_all [Instr.wf, Desc.wf, Desc.bytes, wordBytes, isByte_low, isByte_high]

/-- Settles O10. -/
theorem requestReadBack : Obligations.RequestReadBack := fun _ _ _ _ _ h he =>
  ⟨decodeRequest_encodeRequest h he, encodeRequest_fits h he⟩

end Sys2Proof

/-! The port: which frames reach an owner and which are refused (R180 to R183), what is accepted into the pool (R184), and the
reset of a port (R186). -/

namespace Sys2Proof.Machine

/-! ### The forms of a request (10.6) -/

/-- How a request is judged: at once, in RUN only, or as an operation. -/
inductive RequestForm (c : Instr) (p : Port) (tag : Nat) : Prop where
  | immediate (run : needsRun c = false) (op : isOperation c = false) (trips : tripRefused c = false) (act : State → State)
      (h : ∀ s, exec c s = .next (s.immediate p tag act))
  | inRun (run : needsRun c = true) (op : isOperation c = false) (trips : tripRefused c = false) (act : State → State)
      (h : ∀ s, exec c s = .next (s.immediateInRun p tag act))
  | operation (run : needsRun c = true) (op : isOperation c = true) (w : Work) (takeUp : State → SlotId → State)
      (effect : ∀ u i, Effect u (takeUp u i)) (h : ∀ s, exec c s = .next (s.operation p tag w (tripRefused c) takeUp))

theorem requestOf_eq_some {c : Instr} {p : Port} {tag : Nat} (h : requestOf c = some (p, tag)) :
    ∃ kind body, encodeRequest c = some (p, tag, kind, body) := by
  obtain ⟨⟨q, n, kind, body⟩, he, hx⟩ := Option.map_eq_some_iff.mp h
  cases hx
  exact ⟨kind, body, he⟩

/-- A CONFIG_WRITE's payload has the length that R190 gives the item where the request is well-formed. -/
theorem exec_configWrite_wf {item : Nat} {payload : ConfigPayload} (h : payload.wf item = true) (p : Port) (tag index : Nat) :
    ∃ act, ∀ s, exec (.configWrite p tag item index payload) s = .next (s.immediate p tag act) :=
  ⟨_, fun _ => congrArg Host.Outcome.next (if_pos h)⟩

theorem requestForm {c : Instr} {p : Port} {tag : Nat} (h : requestOf c = some (p, tag)) (hw : c.wf = true) :
    RequestForm c p tag := by
  obtain ⟨kind, body, he⟩ := requestOf_eq_some h
  cases c with
  | configWrite q n item index payload =>
    cases he
    simp only [Instr.wf, Bool.and_eq_true] at hw
    obtain ⟨act, hact⟩ := exec_configWrite_wf hw.2 p tag index
    exact .immediate rfl rfl rfl act hact
  | doseArm => cases he; exact .inRun rfl rfl rfl _ fun _ => rfl
  | doseTrigger => cases he; exact .inRun rfl rfl rfl _ fun _ => rfl
  | fill => cases he; exact .operation rfl rfl _ _ (fun u i => takeUpFill_effect (.refl u) i) fun _ => rfl
  | circulate => cases he; exact .operation rfl rfl _ _ (fun u i => takeUpCirc_effect (.refl u) i) fun _ => rfl
  | heat => cases he; exact .operation rfl rfl _ _ (fun u i => takeUpHeat_effect (.refl u) i) fun _ => rfl
  | drain => cases he; exact .operation rfl rfl _ _ (fun u i => takeUpDrain_effect (.refl u) i) fun _ => rfl
  | regenerate q n column =>
    cases he
    exact .operation rfl rfl _ _ (fun u i => takeUpRegenerate_effect (.refl u) i column) fun _ => rfl
  | doorPush => cases he; exact .operation rfl rfl _ _ (fun u i => takeUpDoorPush_effect (.refl u) i) fun _ => rfl
  | dry => cases he; exact .operation rfl rfl _ _ (fun u i => takeUpDry_effect (.refl u) i) fun _ => rfl
  | _ => cases he <;> exact .immediate rfl rfl rfl _ fun _ => rfl

/-! ### Refusals at the port (R183) -/

theorem exec_badRequest {s : State} {p : Port} {kind tag : Nat} {body : List Nat} (h : s.judges p)
    (hd : decodeRequest p kind tag body = none) : exec (.badRequest p kind tag body) s = .next (s.answered p tag .badRequest []) := by
  refine congrArg Host.Outcome.next ((if_pos (by rw [hd]; rfl)).trans ?_)
  rw [takeFrame_judges h, State.answered]

/-- Settles O11. -/
theorem requestsRefusedAtThePort : Obligations.RequestsRefusedAtThePort := by
  refine ⟨fun s p kind tag body h hd => exec_badRequest h hd, fun c s p tag hr hw hj => ?_⟩
  cases requestForm hr hw with
  | immediate run op trips act h =>
    refine ⟨fun ht => (h s).trans (congrArg _ (immediate_tagInUse hj ht act)), fun _ => ⟨fun k => ?_, fun k => ?_, fun k => ?_⟩⟩
    · exact absurd (run.symm.trans k) (by decide)
    · exact absurd (trips.symm.trans k) (by decide)
    · exact absurd (op.symm.trans k) (by decide)
  | inRun run op trips act h =>
    refine ⟨fun ht => (h s).trans (congrArg _ (immediate_tagInUse hj ht _)), fun hn => ⟨fun _ hm => ?_, fun k => ?_, fun k => ?_⟩⟩
    · exact (h s).trans (congrArg _ (immediateInRun_setup ⟨hj, hn⟩ hm act))
    · exact absurd (trips.symm.trans k) (by decide)
    · exact absurd (op.symm.trans k) (by decide)
  | operation run op w takeUp effect h =>
    exact ⟨fun ht => (h s).trans (congrArg _ (operation_tagInUse w takeUp hj ht)), fun hn =>
      ⟨fun _ hm => (h s).trans (congrArg _ (operation_setup w takeUp ⟨hj, hn⟩ hm)),
        fun ht hm hl => (h s).trans (congrArg _ (operation_tripped w takeUp ⟨hj, hn⟩ hm ht hl)),
        fun _ hm ht hres => (h s).trans (congrArg _ (operation_retry w takeUp ⟨hj, hn⟩ hm ht hres))⟩⟩

/-! ### Acceptance (R184) -/

/-- Every operation of the catalogue has a form, well-formed or not. -/
theorem operationForm {c : Instr} {p : Port} {tag : Nat} (ho : isOperation c = true) (h : requestOf c = some (p, tag)) :
    ∃ w takeUp, (∀ u i, Effect u (takeUp u i)) ∧ ∀ s, exec c s = .next (s.operation p tag w (tripRefused c) takeUp) := by
  obtain ⟨kind, body, he⟩ := requestOf_eq_some h
  cases c with
  | fill => cases he; exact ⟨_, _, fun u i => takeUpFill_effect (.refl u) i, fun _ => rfl⟩
  | circulate => cases he; exact ⟨_, _, fun u i => takeUpCirc_effect (.refl u) i, fun _ => rfl⟩
  | heat => cases he; exact ⟨_, _, fun u i => takeUpHeat_effect (.refl u) i, fun _ => rfl⟩
  | drain => cases he; exact ⟨_, _, fun u i => takeUpDrain_effect (.refl u) i, fun _ => rfl⟩
  | regenerate q n column => cases he; exact ⟨_, _, fun u i => takeUpRegenerate_effect (.refl u) i column, fun _ => rfl⟩
  | doorPush => cases he; exact ⟨_, _, fun u i => takeUpDoorPush_effect (.refl u) i, fun _ => rfl⟩
  | dry => cases he; exact ⟨_, _, fun u i => takeUpDry_effect (.refl u) i, fun _ => rfl⟩
  | _ => cases ho

theorem State.port_accept (s : State) (p q : Port) (tag : Nat) (w : Work) (i : SlotId) : (s.accept p tag w i).port q = s.port q := by
  cases q <;> rfl

theorem exec_operation_settled {c : Instr} {s : State} {p : Port} {tag : Nat} {i : SlotId} (ho : isOperation c = true)
    (hr : requestOf c = some (p, tag)) (ha : s.accepts p tag i) (ht : tripRefused c = true → s.latched = false) :
    ∃ t w, exec c s = .next t ∧ Settled ((s.setRx p .synced).accept p tag w i) t := by
  obtain ⟨w, takeUp, heff, hexec⟩ := operationForm ho hr
  exact ⟨_, w, (hexec s).trans (congrArg _ (operation_accepts w takeUp ha ht)), settle_settled (heff _ _).settled⟩

/-- Settles O12. -/
theorem operationsAccepted : Obligations.OperationsAccepted := by
  intro c s p tag i ho hr ha ht
  obtain ⟨t, w, hexec, hset⟩ := exec_operation_settled ho hr ha ht
  have hf := hset.fixed
  have hrx : s.setRx p .synced = { s with ports := (s.setRx p .synced).ports } := s.setRx_eq p .synced
  have hacc : ((s.setRx p .synced).accept p tag w i).fixed = (s.accept p tag w i).fixed :=
    read_setRx (fun u => (u.accept p tag w i).fixed) (fun _ _ => rfl) s p .synced
  rw [hacc] at hf
  refine ⟨t, hexec, congrArg Fixed.accepted hf, congrArg Fixed.laps hf, ?_, congrArg Fixed.cfg hf, congrArg Fixed.mode hf,
    congrArg Fixed.pending hf, fun x hx => ?_, fun j x hj hx => ?_⟩
  · rw [(hset.ports p).rx, State.port_accept, State.port_setRx, if_pos rfl]
  · obtain ⟨y, hy, h1, h2, h3, h4⟩ := hset.pool i x hx
    rw [State.pool_accept_self] at hy
    obtain rfl := Option.some.inj hy
    refine ⟨h1, h2, h3.trans ?_, h4.trans ?_⟩
    · exact read_setRx State.accepted (fun _ _ => rfl) s p .synced
    · exact read_setRx State.laps (fun _ _ => rfl) s p .synced
  · obtain ⟨y, hy, h⟩ := hset.pool j x hx
    rw [State.pool_accept_ne _ p tag w hj, State.pool_setRx] at hy
    exact ⟨y, hy, h⟩

/-! ### The receiver (R180 to R182) -/

theorem immediateInRun_takeFrame (p : Port) (tag : Nat) (act : State → State) :
    ∃ f : State → State, ∀ s : State, s.immediateInRun p tag act = s.takeFrame p f := by
  unfold State.immediateInRun State.immediate
  exact ⟨_, fun _ => rfl⟩

/-- Every request is a frame taken. -/
theorem exec_request {c : Instr} {p : Port} {tag : Nat} (h : requestOf c = some (p, tag)) :
    ∃ act : State → State, ∀ s, exec c s = .next (s.takeFrame p act) := by
  obtain ⟨kind, body, he⟩ := requestOf_eq_some h
  cases c with
  | configWrite q n item index payload =>
    cases he
    by_cases hw : payload.wf item = true
    · exact ⟨_, fun s => congrArg Host.Outcome.next (if_pos hw)⟩
    · exact ⟨_, fun s => congrArg Host.Outcome.next (if_neg hw)⟩
  | doseArm =>
    cases he
    obtain ⟨f, hf⟩ := immediateInRun_takeFrame p tag _
    exact ⟨f, fun s => congrArg Host.Outcome.next (hf s)⟩
  | doseTrigger =>
    cases he
    obtain ⟨f, hf⟩ := immediateInRun_takeFrame p tag _
    exact ⟨f, fun s => congrArg Host.Outcome.next (hf s)⟩
  | _ => cases he <;> exact ⟨_, fun s => rfl⟩

/-- Settles O13. -/
theorem receiverSteps : Obligations.ReceiverSteps := by
  intro s p
  refine ⟨fun h => ?_, fun h => ?_, fun h => ?_, fun n k h => ?_, fun n len h hl => ?_, fun covered check hc hr hp => ?_,
    fun hf hr hp => ?_, fun h => ⟨fun c tag hreq => ?_, fun covered check => ?_, fun kind tag body => ?_, ?_, ?_, ?_⟩⟩
  · simp only [exec, execLineIdle, h]
  · simp only [exec, execStartByte, h]
  · simp only [exec, execFrameError, h]
  · simp only [exec, execFrameGapTimeout, h]
  · simp only [exec, execOverlong, h, if_pos hl]
  · have hpending : ((s.setRx p .synced).port p).resetPending = false := by rw [State.port_setRx, if_pos rfl]; exact hp
    refine congrArg Host.Outcome.next ((if_neg (not_or.mpr ⟨hc, hr⟩)).trans (if_neg ?_))
    rw [hpending]
    decide
  · exact congrArg Host.Outcome.next ((if_pos hf).trans (takeFrame_full hr hp hf id))
  · obtain ⟨act, hact⟩ := exec_request hreq
    exact (hact s).trans (congrArg _ (takeFrame_resync h _))
  · exact congrArg Host.Outcome.next (if_pos (.inr h))
  · refine congrArg Host.Outcome.next ?_
    split
    · exact takeFrame_resync h _
    · rfl
  · simp only [exec, execStartByte, h]
  · simp only [exec, execFrameError, h]
  · refine congrArg Host.Outcome.next ?_
    split
    · exact takeFrame_resync h _
    · rfl

/-! ### RESPONSE_SENT and PORT_RESET (R182, R186) -/

theorem responseSentLeavesTheQueue : Clauses.ResponseSentLeavesTheQueue := by
  intro s p r rest h
  refine ⟨fun covered hc => ?_, fun hr => ?_⟩
  · rw [PortState.sending, h, hc]
    simp [Response.frame, frameBytes, wordBytes, Config.responseKind]
  · simp only [exec, execResponseSent, h, hr, Bool.false_eq_true, if_false]

/-- The port under a change of it holds no slot that the port did not hold. -/
theorem resetSlot_pool (s : State) (p : Port) (i : SlotId) (x : Slot) (h : (s.resetSlot p i).pool[i] = some x) : x.port ≠ p := by
  unfold State.resetSlot at h
  split at h
  next hn => exact absurd (hn.symm.trans h) (by simp)
  next sl hsl =>
    split at h
    next => exact absurd ((upd_self _ i none).symm.trans h) (by simp)
    next hp =>
      obtain rfl := Option.some.inj (hsl.symm.trans h)
      exact hp

/-- The slots of a port are freed one after the other, and none is taken. -/
theorem resetSlots_pool (p : Port) (l : List SlotId) (s : State) (i : SlotId) (x : Slot)
    (hi : i ∈ l ∨ ∀ y, s.pool[i] = some y → y.port ≠ p) (h : (l.foldl (fun s i => s.resetSlot p i) s).pool[i] = some x) :
    x.port ≠ p := by
  induction l generalizing s with
  | nil => exact hi.resolve_left List.not_mem_nil x h
  | cons j js ih =>
    refine ih (s.resetSlot p j) ?_ h
    by_cases hm : i ∈ js
    · exact .inl hm
    · refine .inr fun y hy => ?_
      rcases hi with hi | hi
      · obtain rfl := (List.mem_cons.mp hi).resolve_right hm
        exact resetSlot_pool s p i y hy
      · obtain ⟨z, hz, hport, -⟩ := (resetSlot_effect (.refl s) p j).pool i y hy
        exact hport ▸ hi z hz

/-- What a reset of a port leaves (R186, R198). -/
structure State.portFreed (s t : State) (p : Port) : Prop where
  port : t.port p = (s.port p).afterReset
  pool : ∀ (i : SlotId) (x : Slot), t.pool[i] = some x →
    x.port ≠ p ∧ ∃ y, s.pool[i] = some y ∧ x.port = y.port ∧ x.tag = y.tag
  rx : ∀ q, q ≠ p → (t.port q).rx = (s.port q).rx
  fixed : t.fixed = s.fixed

/-- Work on a port whose subscription slots are all DISABLED and of whose slots none is left. -/
theorem PortStep.idle {s t : State} {p : Port} {ps : PortState} (h : PortStep s t p) (hs : s.port p = ps.afterReset)
    (hp : ∀ (i : SlotId) (x : Slot), s.pool[i] = some x → x.port ≠ p) : t.port p = ps.afterReset := by
  obtain ⟨hrx, hpending, ⟨more, htxq, hmore⟩, hsubs⟩ := h
  rw [hs] at hrx hpending htxq hsubs
  have hnil : more = [] := List.eq_nil_iff_forall_not_mem.mpr fun r hr => by
    obtain ⟨-, i, y, hy, hport, -⟩ := hmore r hr
    exact hp i y hy hport
  have hsub : (t.port p).subs = ps.afterReset.subs := Vector.ext fun k hk => by
    obtain ⟨-, -, -, hstep⟩ := hsubs ⟨k, hk⟩
    exact hstep (by simp [PortState.afterReset, Sub.reset])
  rw [hnil, List.append_nil] at htxq
  cases ht : t.port p
  simp_all [PortState.afterReset]

theorem resetPort_freed (s : State) (p : Port) : s.portFreed (s.resetPort p) p := by
  unfold State.resetPort
  have heff := resetSlots_effect (.refl s) p
  have hfree := fun i x => resetSlots_pool p allSlots s i x (.inl (List.mem_finRange i))
  generalize allSlots.foldl (fun s i => s.resetSlot p i) s = u at heff hfree ⊢
  dsimp only
  have hset := settle_settled (Settled.refl (u.setPort p (u.port p).afterReset))
  have hpool : ∀ (i : SlotId) (x : Slot), (u.setPort p (u.port p).afterReset).pool[i] = some x → u.pool[i] = some x :=
    fun i x hx => by rwa [State.pool_setPort] at hx
  refine ⟨?_, fun i x hx => ?_, fun q hq => ?_, ?_⟩
  · have hport := (hset.ports p).idle (ps := u.port p) (by simp) fun i x hx => hfree i x (hpool i x hx)
    rw [hport]
    simp only [PortState.afterReset, (heff.ports p).rx]
  · obtain ⟨y, hy, hyport, hytag, -⟩ := hset.pool i x hx
    obtain ⟨z, hz, hzport, hztag, -⟩ := heff.pool i y (hpool i y hy)
    exact ⟨hyport ▸ hfree i y (hpool i y hy), z, hz, hyport.trans hzport, hytag.trans hztag⟩
  · rw [(hset.ports q).rx, State.port_setPort_ne _ hq, (heff.ports q).rx]
  · rw [hset.fixed, State.fixed_setPort, heff.fixed]

theorem exec_portReset {s : State} {p : Port} {tag : Nat} (h : s.hears p tag) : exec (.portReset p tag) s = .next (s.setPort p
    { s.port p with
      rx := .synced, resetPending := true,
      txq := (s.port p).txq ++ [{ tag := tag, body := byte1 0, immediate := true, makesReset := true }] }) := by
  refine congrArg Host.Outcome.next ((immediate_hears h _).trans ?_)
  cases p <;> rfl

theorem PortState.attention_afterReset (ps : PortState) : ps.afterReset.attention = false :=
  PortState.attention_eq_false fun j => by simp [PortState.afterReset, Sub.reset]

theorem PortState.subs_afterReset (ps : PortState) (k : SubId) : ps.afterReset.subs[k] = Sub.reset := by
  simp [PortState.afterReset]

theorem portResetFreesThePort : Clauses.PortResetFreesThePort := by
  intro s p
  refine ⟨fun tag h => exec_portReset h, fun c hc => ?_⟩
  rcases hc with rfl | ⟨rfl, r, rest, htxq, hr⟩
  · have h := resetPort_freed s p
    have hport : ((s.resetPort p).setRx p .resync).port p = { (s.port p).afterReset with rx := .resync } := by
      rw [State.port_setRx, if_pos rfl, h.port]
    have hf : ((s.resetPort p).setRx p .resync).fixed = s.fixed := (State.fixed_setRx _ p _).trans h.fixed
    refine ⟨_, rfl, ?_, ?_, ?_, fun k => ?_, ?_, fun i x hx => ?_, fun q hq => ?_, congrArg Fixed.cfg hf, congrArg Fixed.mode hf,
      congrArg Fixed.pending hf⟩
    · rw [hport]; rfl
    · rw [hport]; rfl
    · rw [hport]; exact (s.port p).attention_afterReset
    · rw [hport]; exact (s.port p).subs_afterReset k
    · rw [hport]; exact (if_pos rfl).symm
    · rw [State.pool_setRx] at hx; exact h.pool i x hx
    · rw [State.port_setRx, if_neg hq]; exact h.rx q hq
  · have h := resetPort_freed (s.setPort p { s.port p with txq := rest }) p
    have hport : ((s.setPort p { s.port p with txq := rest }).resetPort p).port p = (s.port p).afterReset := by
      rw [h.port, State.port_setPort_self]
      rfl
    have hf : ((s.setPort p { s.port p with txq := rest }).resetPort p).fixed = s.fixed := h.fixed.trans (State.fixed_setPort s p _)
    refine ⟨(s.setPort p { s.port p with txq := rest }).resetPort p, ?_, ?_, ?_, ?_, fun k => ?_, ?_, fun i x hx => ?_, fun q hq => ?_,
      congrArg Fixed.cfg hf, congrArg Fixed.mode hf, congrArg Fixed.pending hf⟩
    · simp only [exec, execResponseSent, htxq, hr, if_true]
    · rw [hport]; rfl
    · rw [hport]; rfl
    · rw [hport]; exact (s.port p).attention_afterReset
    · rw [hport]; exact (s.port p).subs_afterReset k
    · rw [hport]; exact (if_neg nofun).symm
    · have hx' := h.pool i x hx
      rwa [State.pool_setPort] at hx'
    · rw [h.rx q hq, State.port_setPort_ne _ hq]

/-- Settles O16. -/
theorem portResets : Obligations.PortResets := ⟨responseSentLeavesTheQueue, portResetFreesThePort⟩

end Sys2Proof.Machine

/-! Immediate requests that write one block: CIRC_SPEED (R42), DESC_WRITE and DESC_READ (R94, R95), ACCOUNT_LOAD (R91), SENSE_READ
(R134); and the pulses counted apart (R32). -/

namespace Sys2Proof.Machine

/-! ### Frames of an answered request -/

theorem State.keepsBut_mono {s t : State} {l m : List Block} (h : s.keepsBut t l) (hs : l ⊆ m) : s.keepsBut t m :=
  fun b hb => h b fun k => hb (hs k)

theorem State.keepsBut_setRx (s : State) (p : Port) (rx : RxState) : s.keepsBut (s.setRx p rx) [.ports] := s.keepsBut_setPort p _

theorem State.keepsBut_reply (s : State) (p : Port) (tag : Nat) (o : OutcomeCode) (fields : List Byte) :
    s.keepsBut (s.reply p tag o fields) [.ports] := s.keepsBut_setPort p _

/-- A request whose work leaves all but some blocks, answered. -/
theorem State.keepsBut_replied {s u : State} {p : Port} {l : List Block} (h : (s.setRx p .synced).keepsBut u l)
    (tag : Nat) (o : OutcomeCode) (fields : List Byte) : s.keepsBut (u.reply p tag o fields) (l ++ [.ports]) :=
  State.keepsBut_mono (State.keepsBut_trans (s.keepsBut_setRx p .synced)
    (State.keepsBut_trans h (u.keepsBut_reply p tag o fields))) (by simp)

/-- What stands at the ports after an answer is read through the ports alone. -/
theorem State.ports_reply_congr {u v : State} (h : u.ports = v.ports) (p : Port) (tag : Nat) (o : OutcomeCode)
    (fields : List Byte) : (u.reply p tag o fields).ports = (v.reply p tag o fields).ports := by
  have hp : ∀ q, u.port q = v.port q := fun q => by simp only [State.port, h]
  cases p <;> simp only [State.reply, State.send, State.setPort, hp, h]

/-- The work of a request that leaves the ports, answered. -/
theorem State.ports_replied {s u : State} {p : Port} (h : u.ports = (s.setRx p .synced).ports) (tag : Nat) (o : OutcomeCode)
    (fields : List Byte) : (u.reply p tag o fields).ports = (s.answered p tag o fields).ports :=
  State.ports_reply_congr h p tag o fields

/-! ### CIRC_SPEED (R42) -/

theorem State.circHeldBy_setRx (s : State) (p q : Port) (rx : RxState) (tag : Nat) :
    (s.setRx p rx).circHeldBy q tag = s.circHeldBy q tag :=
  read_setRx (fun u => u.circHeldBy q tag) (fun _ _ => rfl) s p rx

/-- The drives and the receiver are written independently of each other. -/
theorem State.withDrive_setRx (s : State) (p : Port) (rx : RxState) (x : Drive) :
    ({ s.setRx p rx with drive := x } : State) = ({ s with drive := x } : State).setRx p rx := by
  cases p <;> rfl

/-- Settles O26. -/
theorem circSpeedStaged : Obligations.CircSpeedStaged := by
  intro s p tag circTag duty h
  refine ⟨fun hd => ?_, fun hlow hhigh hheld => ?_, fun hlow hhigh hheld => ?_⟩ <;>
    refine congrArg Host.Outcome.next ((immediate_hears h _).trans ?_)
  · rw [if_pos hd, State.answered]
  · rw [if_neg (by omega), State.circHeldBy_setRx, hheld, if_neg (by decide), State.answered]
  · rw [if_neg (by omega), State.circHeldBy_setRx, hheld, if_pos rfl, State.withDrive_setRx, State.setRx_drive, State.answered]

/-! ### Pulses counted apart (R32) -/

theorem State.flowingFill_closed {s : State} (h : (s.entry .inlet).lease ≠ .held) : s.flowingFill = none :=
  if_neg fun k => h (beq_iff_eq.mp k)

theorem State.regenFlowing_closed {s : State} (h : (s.entry .inlet).lease ≠ .held) : s.regenFlowing = false := by
  unfold State.regenFlowing
  split
  · simp [State.holdsHeld, h]
  · rfl

theorem State.flowPulse_closed {s : State} (h : (s.entry .inlet).lease ≠ .held) : s.flowPulse = s.closedPulse := by
  unfold State.flowPulse
  rw [State.flowingFill_closed h]
  dsimp only
  split
  · rw [State.regenFlowing_closed h, if_neg (by decide)]
  · rfl

/-- What leaves the table and what the interlock is read through is at rest still. -/
theorem State.atRest.congr {s t : State} (h : s.atRest) (hf : t.fixed = s.fixed) (he : ∀ r, t.entry r = s.entry r)
    (hw : t.water.interlock = s.water.interlock) : t.atRest := by
  obtain ⟨hcalm, hmet⟩ := h
  refine ⟨fun r => by rw [he]; exact hcalm r, ?_⟩
  rw [hw, hmet, interlockMet_congr hf (congrArg Entry.lease (he .circ))]

theorem State.atRest.fault {s : State} (h : s.atRest) (k : FaultKind) (x d : Nat) : (s.fault k x d).atRest :=
  h.congr (fault_plain s k x d).fixed (s.entry_fault k x d) (fault_effect (.refl s) k x d).interlock

/-- Settles O27. -/
theorem closedFlowCountedApart : Obligations.ClosedFlowCountedApart := by
  intro s hi hrest
  have hwater : ∀ n m, ({ s with water := { s.water with closedFlow := n, closedTally := m } } : State).atRest := fun n m =>
    hrest.congr rfl (fun _ => rfl) rfl
  refine ⟨fun hn => ?_, fun hn => ?_⟩ <;> refine congrArg Host.Outcome.next ?_ <;> rw [State.flowPulse_closed hi]
  · rw [State.closedPulse, if_neg (by omega)]
    exact (hwater _ s.water.closedTally).settle
  · rw [State.closedPulse, if_pos hn]
    exact ((hwater _ _).fault _ _ _).settle

/-! ### DESC_WRITE and DESC_READ (R94, R95) -/

theorem State.descUsers_setRx (s : State) (p : Port) (rx : RxState) (n : DescId) : (s.setRx p rx).descUsers n = s.descUsers n :=
  read_setRx (fun u => u.descUsers n) (fun _ _ => rfl) s p rx

theorem State.descCurrent_setRx (s : State) (p : Port) (rx : RxState) (n : DescId) :
    (s.setRx p rx).descCurrent n = s.descCurrent n :=
  read_setRx (fun u => u.descCurrent n) (fun _ _ => rfl) s p rx

theorem State.descCurrent_iff (s : State) (n : DescId) :
    s.descCurrent n = true ↔ ∃ c, (s.channel c).state ≠ .idle ∧ (s.channel c).current = some n := by
  simp only [State.descCurrent, List.any_eq_true, mem_allChannels, true_and, Bool.and_eq_true, bne_iff_ne, beq_iff_eq]

theorem State.keepsBut_withDose (s : State) (x : Dose) : s.keepsBut { s with dose := x } [.dose] := by
  intro b hb
  cases b with
  | dose => exact absurd List.mem_cons_self hb
  | accepted => exact ⟨rfl, rfl⟩
  | _ => rfl

section DescWrite

variable {s : State} {p : Port} {tag : Nat} (h : s.hears p tag) (n : DescId) (d : Desc)

include h

theorem exec_descRead : exec (.descRead p tag n.val) s = .next (s.answered p tag .ok
    (descBytes s.dose.descs[n] ++ listField (s.descUsers n))) := by
  refine congrArg Host.Outcome.next ((immediate_hears h _).trans ?_)
  rw [finOf_val]
  dsimp only
  rw [State.descUsers_setRx, State.setRx_dose, State.answered]

theorem exec_descWrite_badParam (hd : 3 < d.reservoir ∨ (d.reservoir ≠ 0 ∧ descFieldsInRange d = false)) :
    exec (.descWrite p tag n.val d) s = .next (s.answered p tag .badParam []) := by
  refine congrArg Host.Outcome.next ((immediate_hears h _).trans ?_)
  rw [finOf_val]
  dsimp only
  split
  · rfl
  next hres => rw [if_pos (hd.resolve_left hres), State.answered]

/-- A descriptor in its ranges is written unless a channel at work has it. -/
theorem exec_descWrite_inRange (hd : d.reservoir ≤ 3) (hr : d.reservoir ≠ 0 → descFieldsInRange d = true) :
    exec (.descWrite p tag n.val d) s = .next (if s.descCurrent n then s.answered p tag .busy []
      else ({ s.setRx p .synced with dose := { s.dose with descs := upd s.dose.descs n d } } : State).reply p tag .ok []) := by
  refine congrArg Host.Outcome.next ((immediate_hears h _).trans ?_)
  have hrange : ¬(d.reservoir ≠ 0 ∧ descFieldsInRange d = false) := fun ⟨h0, hf⟩ => by simp [hr h0] at hf
  rw [finOf_val]
  dsimp only
  rw [if_neg (by omega), if_neg hrange, State.descCurrent_setRx, State.setRx_dose]
  rfl

end DescWrite

theorem exec_descWrite_noDesc {s : State} {p : Port} {tag number : Nat} (h : s.hears p tag) (hn : 32 ≤ number) (d : Desc) :
    exec (.descWrite p tag number d) s = .next (s.answered p tag .badParam []) := by
  refine congrArg Host.Outcome.next ((immediate_hears h _).trans ?_)
  rw [finOf_eq_none hn, State.answered]

theorem exec_descRead_noDesc {s : State} {p : Port} {tag number : Nat} (h : s.hears p tag) (hn : 32 ≤ number) :
    exec (.descRead p tag number) s = .next (s.answered p tag .badParam []) := by
  refine congrArg Host.Outcome.next ((immediate_hears h _).trans ?_)
  rw [finOf_eq_none hn, State.answered]

/-- Settles O33. -/
theorem descriptorsWrittenAndRead : Obligations.DescriptorsWrittenAndRead := by
  intro s p tag number d h
  refine ⟨fun hn => ⟨exec_descWrite_noDesc h hn d, exec_descRead_noDesc h hn⟩, ?_⟩
  rintro n rfl
  refine ⟨exec_descRead h n, exec_descWrite_badParam h n d, fun hd hr => ⟨fun hc => ?_, fun hc => ?_⟩⟩ <;>
    rw [exec_descWrite_inRange h n d hd hr]
  · rw [if_pos ((s.descCurrent_iff n).mpr hc)]
  · have hfree : ¬s.descCurrent n = true := fun k => by
      obtain ⟨c, hbusy, hcur⟩ := (s.descCurrent_iff n).mp k
      exact (hc c).elim hbusy (· hcur)
    rw [if_neg hfree]
    refine ⟨_, rfl, fun m => ?_, ?_, State.keepsBut_replied (State.keepsBut_withDose _ _) tag .ok [],
      State.ports_replied (by rfl) tag .ok []⟩
    · rw [State.reply_dose]
      exact upd_get _ _ _ _
    · rw [State.reply_dose]

/-! ### ACCOUNT_LOAD (R91) -/

/-- A report of the salt amount ends a wait for salt where there is some. -/
theorem State.saltReported_eq (s : State) : s.saltReported =
    { s with soft := { s.soft with saltWait := s.soft.saltWait && (s.acct.salt.known && s.acct.salt.amount == 0) } } := by
  unfold State.saltReported
  split
  next h => rw [h, Bool.and_true]
  next h => rw [Bool.eq_false_iff.mpr h, Bool.and_false]

theorem State.port_congr {s t : State} (h : t.ports = s.ports) (p : Port) : t.port p = s.port p := by
  simp only [State.port, h]

theorem State.keepsBut_withAcct (s : State) (x : Accounts) : s.keepsBut { s with acct := x } [.acct] := by
  intro b hb
  cases b with
  | acct => exact absurd List.mem_cons_self hb
  | accepted => exact ⟨rfl, rfl⟩
  | _ => rfl

theorem State.keepsBut_withSoft (s : State) (x : Softener) : s.keepsBut { s with soft := x } [.soft] := by
  intro b hb
  cases b with
  | soft => exact absurd List.mem_cons_self hb
  | accepted => exact ⟨rfl, rfl⟩
  | _ => rfl

theorem State.keepsBut_refl (s : State) (l : List Block) : s.keepsBut s l := by
  intro b hb
  cases b with
  | accepted => exact ⟨rfl, rfl⟩
  | _ => rfl

theorem State.keepsBut_setColumn (s : State) (c : Column) (r : ColumnRec) : s.keepsBut (s.setColumn c r) [.soft] := by
  cases c <;> exact s.keepsBut_withSoft _

theorem State.keepsBut_saltReported (s : State) : s.keepsBut s.saltReported [.soft] := by
  unfold State.saltReported
  split
  · exact s.keepsBut_refl _
  · exact s.keepsBut_withSoft _

theorem exec_accountLoad_run {s : State} {p : Port} {tag : Nat} (h : s.hears p tag) (hm : s.mode = .run) (target amount st : Nat) :
    exec (.accountLoad p tag target amount st) s = .next (s.answered p tag .wrongMode []) := by
  refine congrArg Host.Outcome.next ((immediate_hears h _).trans ?_)
  rw [State.mode_setRx, if_pos hm, State.answered]

theorem exec_accountLoad_setup {s : State} {p : Port} {tag : Nat} (h : s.hears p tag) (hm : s.mode = .setup)
    (target amount st : Nat) : exec (.accountLoad p tag target amount st) s =
      .next (((s.setRx p .synced).loadAccount target amount st).elim (s.answered p tag .badParam [])
        fun t => t.reply p tag .ok []) := by
  refine congrArg Host.Outcome.next ((immediate_hears h _).trans ?_)
  rw [State.mode_setRx, if_neg (by rw [hm]; decide)]
  cases (s.setRx p .synced).loadAccount target amount st <;> rfl

theorem loadAccount_reservoir (s : State) (n : ReservoirId) (amount st : Nat) :
    s.loadAccount n.val amount st = s.loadReservoir n amount := by
  fin_cases n <;> rfl

theorem loadAccount_column (s : State) (c : Column) (amount st : Nat) :
    s.loadAccount (4 + columnCode c) amount st = s.loadColumn c amount st := by
  cases c <;> rfl

theorem loadAccount_noTarget (s : State) {target : Nat} (h : 5 < target) (amount st : Nat) :
    s.loadAccount target amount st = none := by
  match target, h with
  | n + 6, _ => rfl

/-- The states that a load names are the first three of R51's list. -/
theorem loadedState_none {st : Nat} (h : 3 ≤ st) : loadedState st = none := by
  match st, h with
  | n + 3, _ => rfl

theorem loadColumn_none {s : State} {c : Column} {amount st : Nat} (h : loadedState st = none) :
    s.loadColumn c amount st = none := by
  rw [State.loadColumn, h]

theorem loadColumn_some {s : State} {c : Column} {amount st : Nat} {x : ColumnState} (h : loadedState st = some x) :
    s.loadColumn c amount st = if amount ≤ s.rated c ∧ (x = .inService → (s.column (Column.other c)).state ≠ .inService) ∧
        (x = .exhausted → amount = 0) then
      some (s.setColumn c { s.column c with state := x, remaining := amount, breakthrough := none })
    else none := by
  rw [State.loadColumn, h]

theorem State.column_setRx (s : State) (p : Port) (rx : RxState) (c : Column) : (s.setRx p rx).column c = s.column c :=
  read_setRx (fun u => u.column c) (fun _ _ => by cases c <;> rfl) s p rx

theorem State.rated_setRx (s : State) (p : Port) (rx : RxState) (c : Column) : (s.setRx p rx).rated c = s.rated c :=
  read_setRx (fun u => u.rated c) (fun _ _ => by cases c <;> rfl) s p rx

theorem State.ports_setColumn (s : State) (c : Column) (r : ColumnRec) : (s.setColumn c r).ports = s.ports := by
  cases c <;> rfl

theorem State.column_congr {s t : State} (h : t.soft = s.soft) (c : Column) : t.column c = s.column c := by
  cases c <;> simp only [State.column, h]

/-- Settles O21. -/
theorem accountsLoaded : Obligations.AccountsLoaded := by
  intro s p tag target amount st h
  refine ⟨fun hm => exec_accountLoad_run h hm target amount st, fun hm ht => ?_, fun hm n ht => ?_, fun hm ht => ?_,
    fun hm ht hst => ?_, fun hm c ht x hx => ?_⟩ <;> rw [exec_accountLoad_setup h hm]
  · rw [loadAccount_noTarget _ ht]
    rfl
  · subst ht
    rw [loadAccount_reservoir, State.loadReservoir, State.setRx_cfg, State.setRx_acct]
    refine ⟨fun hlt => ?_, fun hle => ?_⟩
    · rw [if_neg (Nat.not_le.mpr hlt)]
      rfl
    · rw [if_pos hle]
      refine ⟨_, rfl, fun m => ?_, ?_, State.keepsBut_replied (State.keepsBut_withAcct _ _) tag .ok [], ?_⟩
      · rw [Option.elim_some, State.reply_acct]
        exact (upd_get _ _ _ _).trans (by rw [State.setRx_acct])
      · rw [Option.elim_some, State.reply_acct]
        show (s.setRx p .synced).acct.salt = _
        rw [State.setRx_acct]
      · exact State.port_congr (State.ports_replied (by rfl) tag .ok []) p
  · subst ht
    rw [show (s.setRx p .synced).loadAccount 3 amount st = (s.setRx p .synced).loadSalt amount from rfl, State.loadSalt,
      State.setRx_cfg, State.setRx_acct]
    refine ⟨fun hlt => ?_, fun hle => ?_⟩
    · rw [if_neg (Nat.not_le.mpr hlt)]
      rfl
    · rw [if_pos hle, Option.elim_some, State.saltReported_eq]
      refine ⟨_, rfl, ?_, ?_, ?_, ?_, ?_, State.port_congr (State.ports_replied (by rfl) tag .ok []) p⟩
      · rw [State.reply_acct]
        exact congrArg (fun a : Accounts => { a with salt := { s.acct.salt with amount := amount, known := true } })
          (s.setRx_acct p .synced)
      · rw [State.reply_soft]
        show (s.setRx p .synced).soft.colA = _
        rw [State.setRx_soft]
      · rw [State.reply_soft]
        show (s.setRx p .synced).soft.colB = _
        rw [State.setRx_soft]
      · rw [State.reply_soft]
        show (s.setRx p .synced).soft.queue = _
        rw [State.setRx_soft]
      · exact State.keepsBut_replied (State.keepsBut_trans (State.keepsBut_withAcct _ _) (State.keepsBut_withSoft _ _)) tag .ok []
  · have hnone : (s.setRx p .synced).loadAccount target amount st = none := by
      rcases ht with rfl | rfl <;> exact loadColumn_none (loadedState_none hst)
    rw [hnone]
    rfl
  · subst ht
    rw [loadAccount_column, loadColumn_some hx, State.rated_setRx, State.column_setRx, State.column_setRx]
    refine ⟨fun hc => ?_, fun hc => ?_⟩
    · rw [if_pos hc, Option.elim_some]
      have hcol : ∀ d, (((s.setRx p .synced).setColumn c
          { s.column c with state := x, remaining := amount, breakthrough := none }).reply p tag .ok []).column d =
          if d = c then { s.column c with state := x, remaining := amount, breakthrough := none } else s.column d := fun d => by
        rw [State.column_congr (State.reply_soft _ p tag .ok []), State.column_setColumn, State.column_setRx]
      have hother : Column.other c ≠ c := by cases c <;> decide
      refine ⟨_, rfl, ?_, ?_, ?_, ?_, ?_, State.keepsBut_replied (State.keepsBut_setColumn _ c _) tag .ok [],
        State.port_congr (State.ports_replied (State.ports_setColumn _ c _) tag .ok []) p⟩ <;> rw [hcol]
      · rw [if_pos rfl]
      · rw [if_pos rfl]
      · rw [if_pos rfl]
      · rw [if_pos rfl]
      · rw [if_neg hother]
    · rw [if_neg hc]
      rfl

end Sys2Proof.Machine

/-! Reading the Sense Scanner: SENSE_READ (R134) and SENSE_TABLE_READ (R139). -/

namespace Sys2Proof.Machine

/-! ### The scanner's records and the receiver -/

@[simp] theorem State.point_setRx (s : State) (p : Port) (rx : RxState) (n : PointId) : (s.setRx p rx).point n = s.point n :=
  read_setRx (fun u => u.point n) (fun _ _ => rfl) s p rx

@[simp] theorem State.group_setRx (s : State) (p : Port) (rx : RxState) (g : GroupId) : (s.setRx p rx).group g = s.group g :=
  read_setRx (fun u => u.group g) (fun _ _ => rfl) s p rx

@[simp] theorem State.groupBytes_setRx (s : State) (p : Port) (rx : RxState) (g : GroupId) :
    (s.setRx p rx).groupBytes g = s.groupBytes g :=
  read_setRx (fun u => u.groupBytes g) (fun _ _ => rfl) s p rx

/-- The scanner's records are read through its block alone. -/
theorem State.point_congr {s t : State} (h : t.sense = s.sense) (n : PointId) : t.point n = s.point n := by
  simp only [State.point, h]

theorem State.group_congr {s t : State} (h : t.sense = s.sense) (g : GroupId) : t.group g = s.group g := by
  simp only [State.group, h]

@[simp] theorem State.sense_reply (s : State) (p : Port) (tag : Nat) (o : OutcomeCode) (fields : List Byte) :
    (s.reply p tag o fields).sense = s.sense := s.setPort_sense p _

@[simp] theorem State.point_reply (s : State) (p : Port) (tag : Nat) (o : OutcomeCode) (fields : List Byte) (n : PointId) :
    (s.reply p tag o fields).point n = s.point n := State.point_congr (s.sense_reply p tag o fields) n

@[simp] theorem State.group_reply (s : State) (p : Port) (tag : Nat) (o : OutcomeCode) (fields : List Byte) (g : GroupId) :
    (s.reply p tag o fields).group g = s.group g := State.group_congr (s.sense_reply p tag o fields) g

theorem State.keepsBut_withSense (s : State) (x : Sense) : s.keepsBut { s with sense := x } [.sense] := by
  intro b hb
  cases b with
  | sense => exact absurd List.mem_cons_self hb
  | accepted => exact ⟨rfl, rfl⟩
  | _ => rfl

/-! ### A point that joins the refresh list (R134, R135) -/

theorem State.askRefresh_again {s : State} {n : PointId} (h : (s.point n).refresh = true) : s.askRefresh n = s := if_pos h

theorem State.askRefresh_first {s : State} {n : PointId} (h : (s.point n).refresh = false) :
    s.askRefresh n = (s.setPoint n { s.point n with refresh := true }).setGroup (groupOf n)
      { s.group (groupOf n) with refresh := (s.group (groupOf n)).refresh ++ [n] } := by
  unfold State.askRefresh
  rw [if_neg (by simp [h])]
  rfl

theorem State.askRefresh_eq (s : State) (n : PointId) : ∃ x, s.askRefresh n = { s with sense := x } := by
  cases h : (s.point n).refresh
  · exact ⟨_, State.askRefresh_first h⟩
  · exact ⟨s.sense, State.askRefresh_again h⟩

theorem State.keepsBut_askRefresh (s : State) (n : PointId) : s.keepsBut (s.askRefresh n) [.sense] := by
  obtain ⟨x, hx⟩ := s.askRefresh_eq n
  exact hx ▸ s.keepsBut_withSense x

theorem State.ports_askRefresh (s : State) (n : PointId) : (s.askRefresh n).ports = s.ports :=
  s.keepsBut_askRefresh n .ports (by decide)

theorem State.sense_askRefresh_again {s : State} {n : PointId} (h : (s.point n).refresh = true) :
    (s.askRefresh n).sense = s.sense := by rw [State.askRefresh_again h]

theorem State.point_askRefresh {s : State} {n : PointId} (h : (s.point n).refresh = false) (m : PointId) :
    (s.askRefresh n).point m = if m = n then { s.point n with refresh := true } else s.point m := by
  rw [State.askRefresh_first h, State.point_setGroup, State.point_setPoint]

theorem State.group_askRefresh {s : State} {n : PointId} (h : (s.point n).refresh = false) (g : GroupId) :
    (s.askRefresh n).group g = if g = groupOf n
      then { s.group (groupOf n) with refresh := (s.group (groupOf n)).refresh ++ [n] } else s.group g := by
  rw [State.askRefresh_first h, State.group_setGroup]
  rfl

/-! ### SENSE_READ (R134) -/

theorem Point.fresh_young {pt : Point} {maxAge : Nat} {r : Published} (h : pt.published = some r) (ha : r.age ≤ 10 * maxAge) :
    pt.fresh maxAge = some r := by
  simp only [Point.fresh, h, if_pos ha]

theorem Point.fresh_old {pt : Point} {maxAge : Nat} (h : ∀ r, pt.published = some r → 10 * maxAge < r.age) :
    pt.fresh maxAge = none := by
  unfold Point.fresh
  split
  next r hr => exact if_neg (Nat.not_le.mpr (h r hr))
  next => rfl

section SenseRead

variable {s : State} {p : Port} {tag : Nat} (h : s.hears p tag)

include h

theorem exec_senseRead_badParam {point maxAge : Nat} (hbad : 16 ≤ point ∨ 255 < maxAge) :
    exec (.senseRead p tag point maxAge) s = .next (s.answered p tag .badParam []) := by
  refine congrArg Host.Outcome.next ((immediate_hears h _).trans ?_)
  split
  next => rfl
  next n hn =>
    refine if_pos (hbad.resolve_left fun hp => ?_)
    rw [finOf_eq_none hp] at hn
    cases hn

theorem exec_senseRead_young (n : PointId) {maxAge : Nat} (ha : maxAge ≤ 255) {r : Published}
    (hr : (s.point n).published = some r) (hy : r.age ≤ 10 * maxAge) :
    exec (.senseRead p tag n.val maxAge) s = .next (s.answered p tag .ok
      (byte2 r.count ++ byte1 (qualityCode r.quality) ++ byte1 (pointStateCode (s.point n).state) ++ byte2 r.age ++
        byte1 (roleCode (s.point n).role) ++ byte1 (candidateCode (s.point n).candidate) ++ byte1 (s.point n).run)) := by
  refine congrArg Host.Outcome.next ((immediate_hears h _).trans ?_)
  rw [finOf_val]
  dsimp only
  rw [if_neg (by omega), State.point_setRx, Point.fresh_young hr hy]
  rfl

theorem exec_senseRead_old (n : PointId) {maxAge : Nat} (ha : maxAge ≤ 255)
    (hold : ∀ r, (s.point n).published = some r → 10 * maxAge < r.age) :
    exec (.senseRead p tag n.val maxAge) s = .next (((s.setRx p .synced).askRefresh n).reply p tag .retry
      (byte1 (pointStateCode (s.point n).state) ++ optField ((s.point n).published.map fun r => byte2 r.age))) := by
  refine congrArg Host.Outcome.next ((immediate_hears h _).trans ?_)
  rw [finOf_val]
  dsimp only
  rw [if_neg (by omega), State.point_setRx, Point.fresh_old hold]

end SenseRead

/-- Settles O40. -/
theorem senseReadAnswers : Obligations.SenseReadAnswers := by
  intro s p tag point maxAge h
  refine ⟨exec_senseRead_badParam h, fun n hn ha => ?_⟩
  subst hn
  refine ⟨fun r hr hy => exec_senseRead_young h n ha hr hy, fun hold => ⟨_, exec_senseRead_old h n ha hold, ?_, ?_, ?_, ?_⟩⟩
  · exact State.ports_replied (State.ports_askRefresh _ n) tag _ _
  · intro hr
    rw [State.sense_reply, State.sense_askRefresh_again (by rw [State.point_setRx]; exact hr), State.setRx_sense]
  · intro hr
    have hr' : ((s.setRx p .synced).point n).refresh = false := by rw [State.point_setRx]; exact hr
    refine ⟨?_, ?_, fun m hm => ?_, fun g hg => ?_⟩
    · rw [State.point_reply, State.point_askRefresh hr', if_pos rfl, State.point_setRx]
    · rw [State.group_reply, State.group_askRefresh hr', if_pos rfl, State.group_setRx]
    · rw [State.point_reply, State.point_askRefresh hr', if_neg hm, State.point_setRx]
    · rw [State.group_reply, State.group_askRefresh hr', if_neg hg, State.group_setRx]
  · exact State.keepsBut_replied (State.keepsBut_askRefresh _ n) tag _ _

/-! ### SENSE_TABLE_READ (R139) -/

/-- The published result of a point as it is read: a flag, then the result. -/
theorem optField_published (x : Option Published) :
    optField (x.map fun r => byte2 r.count ++ byte1 (qualityCode r.quality) ++ byte2 r.age) = match x with
      | none => byte1 0
      | some r => byte1 1 ++ byte2 r.count ++ byte1 (qualityCode r.quality) ++ byte2 r.age := by
  cases x <;> simp [optField, flagByte]

theorem flagByte_isSome {α : Type} [DecidableEq α] (x : Option α) : flagByte x.isSome = byte1 (if x = none then 0 else 1) := by
  cases x <;> rfl

theorem flatMap_finRange_four {α : Type} (f : Fin 4 → List α) : (List.finRange 4).flatMap f = f 0 ++ f 1 ++ f 2 ++ f 3 := by
  simp [List.finRange_succ, List.append_assoc]

theorem listField_points (l : List PointId) :
    listField (l.map fun n => byte1 n.val) = byte1 l.length ++ l.flatMap fun n => byte1 n.val := by
  simp [listField, List.flatMap]

theorem exec_senseTableRead_point {s : State} {p : Port} {tag : Nat} (h : s.hears p tag) (n : PointId) :
    exec (.senseTableRead p tag 0 n.val) s = .next (s.answered p tag .ok (pointBytes (s.point n))) := by
  refine congrArg Host.Outcome.next ((immediate_hears h _).trans ?_)
  rw [finOf_val]
  dsimp only
  rw [State.point_setRx]
  rfl

theorem exec_senseTableRead_group {s : State} {p : Port} {tag : Nat} (h : s.hears p tag) (g : GroupId) :
    exec (.senseTableRead p tag 1 g.val) s = .next (s.answered p tag .ok (s.groupBytes g)) := by
  refine congrArg Host.Outcome.next ((immediate_hears h _).trans ?_)
  rw [finOf_val]
  dsimp only
  rw [State.groupBytes_setRx]
  rfl

theorem exec_senseTableRead_badParam {s : State} {p : Port} {tag : Nat} (h : s.hears p tag) {form number : Nat}
    (hbad : 1 < form ∨ (form = 0 ∧ 15 < number) ∨ (form = 1 ∧ 3 < number)) :
    exec (.senseTableRead p tag form number) s = .next (s.answered p tag .badParam []) := by
  refine congrArg Host.Outcome.next ((immediate_hears h _).trans ?_)
  obtain hf | ⟨hf, hn⟩ | ⟨hf, hn⟩ := hbad
  · split
    · omega
    · omega
    · rfl
  · subst hf
    rw [finOf_eq_none (by omega)]
    rfl
  · subst hf
    rw [finOf_eq_none (n := 4) (by omega)]
    rfl

theorem senseTableRead : Clauses.SenseTableRead := by
  intro s p tag h
  refine ⟨fun n x hx => ?_, fun g x hx => ?_, fun form number hbad => exec_senseTableRead_badParam h hbad⟩
  · rw [exec_senseTableRead_point h, pointBytes, optField_published]
    subst hx
    cases (s.point n).published <;> rfl
  · rw [exec_senseTableRead_group h, State.groupBytes, flatMap_finRange_four, listField_points, flagByte_isSome, hx]
    simp [List.append_assoc]

end Sys2Proof.Machine

/-! Frames of the shared operations: which blocks and which entries of the resource table each leaves as they were. A run of
operations is framed by composing these (`State.keepsBut.step`). -/

namespace Sys2Proof.Machine

/-! ### Composition -/

/-- One more operation whose changes lie inside the blocks named already. -/
theorem State.keepsBut.step {s t u : State} {l m : List Block} (h : s.keepsBut t l) (k : t.keepsBut u m) (hm : m ⊆ l) :
    s.keepsBut u l := fun b hb => State.same_trans (h b hb) (k b fun c => hb (hm c))

/-- One more operation that changes another block. -/
theorem State.keepsBut.cons {s t u : State} {l : List Block} {b : Block} (h : s.keepsBut t l) (k : t.keepsBut u [b]) :
    s.keepsBut u (b :: l) := fun c hc =>
  State.same_trans (h c fun hl => hc (List.mem_cons_of_mem b hl))
    (k c fun hb => hc (List.mem_cons.mpr (.inl (List.mem_singleton.mp hb))))

theorem State.keepsBut.ite {s t u : State} {l : List Block} (p : Prop) [Decidable p] (h : s.keepsBut t l) (k : s.keepsBut u l) :
    s.keepsBut (if p then t else u) l := by
  split
  · exact h
  · exact k

theorem State.keepsBut.foldl {α : Type} {s : State} {l : List Block} (f : State → α → State)
    (hf : ∀ (t : State) (x : α), t.keepsBut (f t x) l) (xs : List α) {t : State} (h : s.keepsBut t l) : s.keepsBut (xs.foldl f t) l := by
  induction xs generalizing t with
  | nil => exact h
  | cons x xs ih => exact ih (h.step (hf t x) (List.Subset.refl l))

/-- What a frame leaves, block by block. -/
theorem State.keepsBut.pool {s t : State} {l : List Block} (h : s.keepsBut t l) (hb : Block.pool ∉ l := by decide) :
    t.pool = s.pool := h .pool hb
theorem State.keepsBut.arb {s t : State} {l : List Block} (h : s.keepsBut t l) (hb : Block.arb ∉ l := by decide) :
    t.arb = s.arb := h .arb hb
theorem State.keepsBut.ports {s t : State} {l : List Block} (h : s.keepsBut t l) (hb : Block.ports ∉ l := by decide) :
    t.ports = s.ports := h .ports hb
theorem State.keepsBut.drive {s t : State} {l : List Block} (h : s.keepsBut t l) (hb : Block.drive ∉ l := by decide) :
    t.drive = s.drive := h .drive hb
theorem State.keepsBut.cfg {s t : State} {l : List Block} (h : s.keepsBut t l) (hb : Block.cfg ∉ l := by decide) :
    t.cfg = s.cfg := h .cfg hb
theorem State.keepsBut.soft {s t : State} {l : List Block} (h : s.keepsBut t l) (hb : Block.soft ∉ l := by decide) :
    t.soft = s.soft := h .soft hb
theorem State.keepsBut.acct {s t : State} {l : List Block} (h : s.keepsBut t l) (hb : Block.acct ∉ l := by decide) :
    t.acct = s.acct := h .acct hb
theorem State.keepsBut.dose {s t : State} {l : List Block} (h : s.keepsBut t l) (hb : Block.dose ∉ l := by decide) :
    t.dose = s.dose := h .dose hb
theorem State.keepsBut.water {s t : State} {l : List Block} (h : s.keepsBut t l) (hb : Block.water ∉ l := by decide) :
    t.water = s.water := h .water hb
theorem State.keepsBut.door {s t : State} {l : List Block} (h : s.keepsBut t l) (hb : Block.door ∉ l := by decide) :
    t.door = s.door := h .door hb
theorem State.keepsBut.prot {s t : State} {l : List Block} (h : s.keepsBut t l) (hb : Block.prot ∉ l := by decide) :
    t.prot = s.prot := h .prot hb
theorem State.keepsBut.sense {s t : State} {l : List Block} (h : s.keepsBut t l) (hb : Block.sense ∉ l := by decide) :
    t.sense = s.sense := h .sense hb

theorem State.keepsBut.entry {s t : State} {l : List Block} (h : s.keepsBut t l) (r : Resource)
    (hb : Block.arb ∉ l := by decide) : t.entry r = s.entry r := State.entry_congr (congrArg Arbiter.table (h.arb hb)) r

theorem State.keepsEntriesBut_refl (s : State) (l : List Resource) : s.keepsEntriesBut s l := fun _ _ => rfl

theorem State.keepsEntriesBut.step {s t u : State} {l m : List Resource} (h : s.keepsEntriesBut t l)
    (k : t.keepsEntriesBut u m) (hm : m ⊆ l) : s.keepsEntriesBut u l := fun r hr => (k r fun c => hr (hm c)).trans (h r hr)

theorem State.keepsEntriesBut_mono {s t : State} {l m : List Resource} (h : s.keepsEntriesBut t l) (hs : l ⊆ m) :
    s.keepsEntriesBut t m := fun r hr => h r fun k => hr (hs k)

theorem State.keepsBut.entries {s t : State} {l : List Block} (h : s.keepsBut t l) (m : List Resource)
    (hb : Block.arb ∉ l := by decide) : s.keepsEntriesBut t m := fun r _ => h.entry r hb

/-! ### One block written -/

theorem State.keepsBut_withDrive (s : State) (x : Drive) : s.keepsBut { s with drive := x } [.drive] := by
  intro b hb
  cases b with
  | drive => exact absurd List.mem_cons_self hb
  | accepted => exact ⟨rfl, rfl⟩
  | _ => rfl

theorem State.keepsBut_withArb (s : State) (x : Arbiter) : s.keepsBut { s with arb := x } [.arb] := by
  intro b hb
  cases b with
  | arb => exact absurd List.mem_cons_self hb
  | accepted => exact ⟨rfl, rfl⟩
  | _ => rfl

theorem State.keepsBut_withWater (s : State) (x : Water) : s.keepsBut { s with water := x } [.water] := by
  intro b hb
  cases b with
  | water => exact absurd List.mem_cons_self hb
  | accepted => exact ⟨rfl, rfl⟩
  | _ => rfl

theorem State.keepsBut_withDoor (s : State) (x : Door) : s.keepsBut { s with door := x } [.door] := by
  intro b hb
  cases b with
  | door => exact absurd List.mem_cons_self hb
  | accepted => exact ⟨rfl, rfl⟩
  | _ => rfl

theorem State.keepsBut_withPool (s : State) (x : Vector (Option Slot) 12) : s.keepsBut { s with pool := x } [.pool] := by
  intro b hb
  cases b with
  | pool => exact absurd List.mem_cons_self hb
  | accepted => exact ⟨rfl, rfl⟩
  | _ => rfl

theorem State.keepsBut_withCfg (s : State) (x : Settings) : s.keepsBut { s with cfg := x } [.cfg] := by
  intro b hb
  cases b with
  | cfg => exact absurd List.mem_cons_self hb
  | accepted => exact ⟨rfl, rfl⟩
  | _ => rfl

theorem State.keepsBut_putEntry (s : State) (r : Resource) (e : Entry) : s.keepsBut (s.putEntry r e) [.arb] := s.keepsBut_withArb _

theorem State.keepsBut_setSlot (s : State) (i : SlotId) (sl : Option Slot) : s.keepsBut (s.setSlot i sl) [.pool] := s.keepsBut_withPool _

theorem State.keepsBut_setChannel (s : State) (c : ChannelId) (ch : Channel) : s.keepsBut (s.setChannel c ch) [.dose] :=
  s.keepsBut_withDose _

theorem State.keepsBut_setRod (s : State) (r : Rod) : s.keepsBut (s.setRod r) [.door] := s.keepsBut_withDoor _

theorem State.keepsBut_setTank (s : State) (n : Nat) (known : Bool) : s.keepsBut (s.setTank n known) [.water] := s.keepsBut_withWater _

theorem State.keepsBut_setQueue (s : State) (q : List QueueEntry) : s.keepsBut (s.setQueue q) [.soft] := s.keepsBut_withSoft _

theorem State.keepsBut_setRegen (s : State) (g : Option Regen) : s.keepsBut (s.setRegen g) [.soft] := s.keepsBut_withSoft _

theorem State.keepsBut_setGroup (s : State) (g : GroupId) (r : Group) : s.keepsBut (s.setGroup g r) [.sense] := s.keepsBut_withSense _

theorem State.keepsBut_setPoint (s : State) (n : PointId) (r : Point) : s.keepsBut (s.setPoint n r) [.sense] := s.keepsBut_withSense _

theorem State.keepsBut_disturb (s : State) : s.keepsBut s.disturb [.sense] := s.keepsBut_withSense _

theorem State.keepsBut_setReservoir (s : State) (n : ReservoirId) (a : Reservoir) : s.keepsBut (s.setReservoir n a) [.acct] :=
  s.keepsBut_withAcct _

theorem State.keepsBut_appendDraw (s : State) (p : Purpose) (x y z h : Nat) (o : OutcomeCode) :
    s.keepsBut (s.appendDraw p x y z h o) [.acct] := s.keepsBut_withAcct _

theorem State.keepsBut_send (s : State) (p : Port) (r : Response) : s.keepsBut (s.send p r) [.ports] := s.keepsBut_setPort p _

theorem State.keepsBut_fault (s : State) (k : FaultKind) (x d : Nat) : s.keepsBut (s.fault k x d) [.ports, .prot] := by
  unfold State.fault
  dsimp only
  split
  · split
    · exact ((s.keepsBut_withProt _).cons (State.keepsBut_post _ _ _ _))
    · exact State.keepsBut_mono (s.keepsBut_withProt _) (by decide)
  · exact s.keepsBut_refl _

/-! ### The pool -/

theorem State.keepsBut_setWork (s : State) (i : SlotId) (w : Work) : s.keepsBut (s.setWork i w) [.pool] := by
  unfold State.setWork
  split
  · exact s.keepsBut_setSlot _ _
  · exact s.keepsBut_refl _

theorem State.keepsBut_fixOutcome (s : State) (i : SlotId) (o : OutcomeCode) : s.keepsBut (s.fixOutcome i o) [.pool] := by
  unfold State.fixOutcome
  split
  · exact s.keepsBut_setSlot _ _
  · exact s.keepsBut_refl _

theorem State.keepsBut_endSlot (s : State) (i : SlotId) (o : OutcomeCode) (fields : List Byte) (answer : Bool) :
    s.keepsBut (s.endSlot i o fields answer) [.pool, .ports] := by
  unfold State.endSlot
  split
  · dsimp only
    split
    · exact (s.keepsBut_send _ _).cons (State.keepsBut_setSlot _ _ _)
    · exact State.keepsBut_mono (s.keepsBut_setSlot _ _) (by decide)
  · exact s.keepsBut_refl _

theorem State.setWork_held {s : State} {i : SlotId} {sl : Slot} (h : s.pool[i] = some sl) (w : Work) :
    s.setWork i w = s.setSlot i (some { sl with work := w }) := by simp only [State.setWork, h]

theorem State.fixOutcome_held {s : State} {i : SlotId} {sl : Slot} (h : s.pool[i] = some sl) (o : OutcomeCode) :
    s.fixOutcome i o = s.setSlot i (some { sl with outcome := some o }) := by simp only [State.fixOutcome, h]

/-- An operation that ends with an answer: its response, and its slot freed. -/
theorem State.endSlot_answered {s : State} {i : SlotId} {sl : Slot} (h : s.pool[i] = some sl) (o : OutcomeCode)
    (fields : List Byte) : s.endSlot i o fields true = (s.send sl.port (opResponse sl.tag o fields)).setSlot i none := by
  simp only [State.endSlot, h, if_pos, opResponse]

theorem State.pool_setSlot_self (s : State) (i : SlotId) (sl : Option Slot) : (s.setSlot i sl).pool[i] = sl := upd_self _ _ _

theorem State.pool_setSlot_ne (s : State) {i j : SlotId} (h : j ≠ i) (sl : Option Slot) : (s.setSlot i sl).pool[j] = s.pool[j] :=
  upd_ne _ h _

/-- The same place written twice. -/
theorem upd_upd {α : Type} {n : Nat} (v : Vector α n) (i : Fin n) (x y : α) : upd (upd v i x) i y = upd v i y := by
  apply Vector.ext
  intro j hj
  simp only [upd, Vector.getElem_set]
  split <;> rfl

theorem upd_eq_self {α : Type} {n : Nat} (v : Vector α n) (i : Fin n) : upd v i v[i] = v := by
  apply Vector.ext
  intro j hj
  simp only [upd, Vector.getElem_set]
  split
  next h => subst h; rfl
  next => rfl

theorem upd_comm {α : Type} {n : Nat} (v : Vector α n) {i j : Fin n} (h : i ≠ j) (x y : α) :
    upd (upd v i x) j y = upd (upd v j y) i x := by
  apply Vector.ext
  intro k hk
  simp only [upd, Vector.getElem_set]
  have hv : i.val ≠ j.val := fun c => h (Fin.ext c)
  split <;> split <;> first | rfl | omega

theorem State.setSlot_setSlot (s : State) (i : SlotId) (x y : Option Slot) : (s.setSlot i x).setSlot i y = s.setSlot i y := by
  simp only [State.setSlot, upd_upd]

theorem State.putEntry_putEntry (s : State) (r : Resource) (e f : Entry) : (s.putEntry r e).putEntry r f = s.putEntry r f := by
  simp only [State.putEntry, upd_upd]

theorem State.putEntry_entry (s : State) (r : Resource) : s.putEntry r (s.entry r) = s := by
  simp only [State.putEntry, State.entry, upd_eq_self]

/-! ### Switchings -/

theorem reportSwitching_same {s t : State} (h : s.reportedOutputs = t.reportedOutputs) : reportSwitching s t = t := if_pos h

theorem State.keepsBut_reportSwitching (s t : State) : t.keepsBut (reportSwitching s t) [.sense] :=
  (t.keepsBut_refl _).ite _ t.keepsBut_disturb

theorem State.keepsBut_editEntry (s : State) (r : Resource) (f : Entry → Entry) : s.keepsBut (s.editEntry r f) [.arb, .sense] :=
  (State.keepsBut_mono (s.keepsBut_putEntry r _) (by decide)).step (State.keepsBut_reportSwitching s _) (by decide)

theorem State.keepsEntriesBut_editEntry (s : State) (r : Resource) (f : Entry → Entry) : s.keepsEntriesBut (s.editEntry r f) [r] :=
  fun q hq => by rw [State.entry_editEntry, if_neg fun h => hq (List.mem_singleton.mpr h)]

/-- The entry that an edit leaves, its yield flag judged. -/
def State.edited (s : State) (r : Resource) (f : Entry → Entry) : Entry :=
  { f (s.entry r) with yieldRequested := yieldCondition s.cfg s.drive.clock (f (s.entry r)) }

theorem State.editEntry_self (s : State) (r : Resource) (f : Entry → Entry) : (s.editEntry r f).entry r = s.edited r f := by
  rw [State.entry_editEntry, if_pos rfl]
  rfl

/-- An edit that switches no reported output. -/
theorem State.editEntry_quiet {s : State} {r : Resource} {f : Entry → Entry}
    (h : ((f (s.entry r)).lease = .held ↔ (s.entry r).lease = .held) ∨ (r ≠ .drain ∧ r ≠ .heater)) :
    s.editEntry r f = s.putEntry r (s.edited r f) := by
  refine reportSwitching_same ?_
  have hout : ∀ q, q = .drain ∨ q = .heater → s.outputOn q = (s.putEntry r (s.edited r f)).outputOn q := fun q hq => by
    simp only [State.outputOn, State.entry_putEntry]
    split
    next hr =>
      subst hr
      obtain h | ⟨hd, hh⟩ := h
      · exact Bool.eq_iff_iff.mpr (by simpa [State.edited] using h.symm)
      · exact absurd hq (by simp [hd, hh])
    next => rfl
  exact Prod.ext rfl (Prod.ext (hout .drain (.inl rfl)) (hout .heater (.inr rfl)))

/-- A waiter record joins a list: nothing switches. -/
theorem State.ask_eq (s : State) (r : Resource) (who : Holder) (serial : Nat) (want : Option Column) :
    s.ask r who serial want =
      s.putEntry r (s.edited r fun e => { e with waiters := e.waiters ++ [⟨who, serial, want, false⟩] }) :=
  State.editEntry_quiet (.inl Iff.rfl)

theorem State.keepsBut_ask (s : State) (r : Resource) (who : Holder) (serial : Nat) (want : Option Column) :
    s.keepsBut (s.ask r who serial want) [.arb] := by
  rw [State.ask_eq]
  exact s.keepsBut_putEntry r _

/-- No holder is asked to yield a lease that is FREE or winds down (R18). -/
theorem yieldCondition_let_go {g : Settings} {clock : Nat} {e : Entry} (h : e.lease = .free ∨ e.lease = .releasing) :
    yieldCondition g clock e = false := by
  unfold yieldCondition
  split
  · rfl
  · rcases h with h | h <;> simp [h]

theorem yieldCondition_noWaiters {g : Settings} {clock : Nat} {e : Entry} (h : e.waiters = []) : yieldCondition g clock e = false := by
  unfold yieldCondition
  split
  · rfl
  · simp [h]

/-- The yield flag's condition is that of R18. -/
theorem yieldCondition_iff (g : Settings) (clock : Nat) (e : Entry) : yieldCondition g clock e = true ↔ g.yieldAsked clock e := by
  unfold yieldCondition Settings.yieldAsked
  cases he : e.holder with
  | none => simp
  | some h =>
    rw [show (clock + 4294967296 - e.grantTime) % 4294967296 = clockElapsed clock e.grantTime from rfl]
    simp [and_assoc, and_left_comm, and_comm, or_assoc]

end Sys2Proof.Machine

/-! Leases let go and granted, and what `settle` makes of a part at rest in which one requester has asked (R4, R10, R16). -/

namespace Sys2Proof.Machine

/-! ### A lease let go -/

/-- The entry of a lease that is let go and FREE at once: the release recorded (R4, R16). -/
def State.letFree (s : State) (r : Resource) : Entry :=
  { s.entry r with
    lease := .free, holder := none, holderPort := none, yieldRequested := false
    lastRelease := releaseRecord s.drive.clock (s.entry r) }

/-- A lease that is FREE at once when it is let go, with nothing else let go before it. -/
def State.freesAtOnce (s : State) (r : Resource) : Prop :=
  ((s.entry r).lease = .suspended ∨ ((s.entry r).lease = .held ∧ r ≠ .circ ∧ r ≠ .doorDrive)) ∧
    (r = .selector → ¬(s.hasHolder .inlet = true ∧ (s.entry .inlet).holder = (s.entry .selector).holder))

theorem State.reportedOutputs_writeRelease (s : State) (r : Resource) : (s.writeRelease r).reportedOutputs = s.reportedOutputs := by
  have hout : ∀ q, (s.writeRelease r).outputOn q = s.outputOn q := fun q => by
    by_cases hq : q = r
    · subst hq
      simp only [State.outputOn, State.entry_writeRelease_lease]
    · simp only [State.outputOn, State.entry_writeRelease_ne s hq]
  exact Prod.ext rfl (Prod.ext (hout _) (hout _))

theorem State.entry_dropDrive (s : State) (r q : Resource) : (s.dropDrive r).entry q = s.entry q :=
  State.entry_congr (congrArg Arbiter.table (s.table_dropDrive r)) q

theorem State.freeLease_writeRelease (s : State) (r : Resource) :
    (s.writeRelease r).freeLease r = reportSwitching s ((s.dropDrive r).putEntry r (s.letFree r)) := by
  have hdrop : ((s.writeRelease r).dropDrive r).putEntry r ((s.writeRelease r).entry r).freed =
      (s.dropDrive r).putEntry r (s.letFree r) := by
    have hwrite : (s.writeRelease r).dropDrive r = (s.dropDrive r).putEntry r
        { s.entry r with lastRelease := releaseRecord s.drive.clock (s.entry r) } := by cases r <;> rfl
    rw [hwrite, State.putEntry_putEntry, State.writeRelease, State.entry_putEntry_self]
    rfl
  unfold State.freeLease reportSwitching
  rw [hdrop, State.reportedOutputs_writeRelease]

theorem State.release_eq {s : State} {r : Resource} (h : s.freesAtOnce r) :
    s.release r = reportSwitching s ((s.dropDrive r).putEntry r (s.letFree r)) := by
  obtain ⟨hlease, hpath⟩ := h
  rw [← State.freeLease_writeRelease, State.release, if_neg fun ⟨hr, hi⟩ => hpath hr hi, State.letGo]
  rcases hlease with hl | ⟨hl, hc, hd⟩
  · rw [hl]
  · rw [hl]
    cases r with
    | circ => exact absurd rfl hc
    | doorDrive => exact absurd rfl hd
    | _ => rfl

theorem State.entry_release {s : State} {r : Resource} (h : s.freesAtOnce r) (q : Resource) :
    (s.release r).entry q = if q = r then s.letFree r else s.entry q := by
  rw [State.release_eq h, State.entry_congr (congrArg Arbiter.table (reportSwitching_rest s _).1), State.entry_putEntry,
    State.entry_dropDrive]

theorem State.keepsEntriesBut_release {s : State} {r : Resource} (h : s.freesAtOnce r) : s.keepsEntriesBut (s.release r) [r] :=
  fun q hq => by rw [State.entry_release h, if_neg fun k => hq (List.mem_singleton.mpr k)]

/-- A release outside the three outputs that are reported. -/
theorem State.release_quiet {s : State} {r : Resource} (h : s.freesAtOnce r) (hr : r ≠ .circ ∧ r ≠ .heater ∧ r ≠ .drain) :
    s.release r = (s.dropDrive r).putEntry r (s.letFree r) := by
  rw [State.release_eq h]
  obtain ⟨hc, hh, hd⟩ := hr
  refine reportSwitching_same ?_
  have hlevel : s.circLevel = ((s.dropDrive r).putEntry r (s.letFree r)).circLevel := by
    cases r with
    | circ => exact absurd rfl hc
    | _ => rfl
  have hout : ∀ q, q ≠ r → s.outputOn q = ((s.dropDrive r).putEntry r (s.letFree r)).outputOn q := fun q hq => by
    simp only [State.outputOn, State.entry_putEntry, if_neg hq, State.entry_dropDrive]
  exact Prod.ext (congrArg (fun n => decide (0 < n)) hlevel) (Prod.ext (hout _ (Ne.symm hd)) (hout _ (Ne.symm hh)))

/-- A release of HEATER or DRAIN, which drops no setting. -/
theorem State.release_pump {s : State} {r : Resource} (h : s.freesAtOnce r) (hr : r = .heater ∨ r = .drain) :
    s.release r = reportSwitching s (s.putEntry r (s.letFree r)) := by
  rw [State.release_eq h]
  rcases hr with rfl | rfl <;> rfl

theorem State.keepsBut_dropDrive (s : State) (r : Resource) : s.keepsBut (s.dropDrive r) [.drive] := by
  cases r with
  | brine => exact s.keepsBut_refl _
  | inlet => exact s.keepsBut_refl _
  | heater => exact s.keepsBut_refl _
  | drain => exact s.keepsBut_refl _
  | _ => exact s.keepsBut_withDrive _

theorem State.keepsBut_release_quiet {s : State} {r : Resource} (h : s.freesAtOnce r)
    (hr : r ≠ .circ ∧ r ≠ .heater ∧ r ≠ .drain) : s.keepsBut (s.release r) [.arb, .drive] := by
  rw [State.release_quiet h hr]
  exact (s.keepsBut_dropDrive r).cons (State.keepsBut_putEntry _ _ _)

theorem State.keepsBut_release_pump {s : State} {r : Resource} (h : s.freesAtOnce r) (hr : r = .heater ∨ r = .drain) :
    s.keepsBut (s.release r) [.arb, .sense] := by
  rw [State.release_pump h hr]
  exact (State.keepsBut_mono (s.keepsBut_putEntry _ _) (by decide)).step (State.keepsBut_reportSwitching s _) (by decide)

/-- INLET and BRINE have no setting to drop. -/
theorem State.keepsBut_release_valve {s : State} {r : Resource} (h : s.freesAtOnce r) (hr : r = .inlet ∨ r = .brine) :
    s.keepsBut (s.release r) [.arb] := by
  rw [State.release_quiet h (by rcases hr with rfl | rfl <;> decide)]
  rcases hr with rfl | rfl <;> exact s.keepsBut_putEntry _ _

/-- Where nobody waits, nothing is recorded of a release (R16). -/
theorem releaseRecord_noWaiters {e : Entry} (h : e.waiters = []) (clock : Nat) : releaseRecord clock e = none := by
  unfold releaseRecord
  split
  · simp [h]
  · rfl

/-! ### At rest still -/

/-- What changes leases other than CIRC's leaves a part at rest where nobody new waits or is asked to yield. -/
theorem State.atRest.leases {s t : State} (h : s.atRest) (hf : t.fixed = s.fixed) (hw : t.water.interlock = s.water.interlock)
    (hc : (t.entry .circ).lease = (s.entry .circ).lease)
    (he : ∀ r, (t.entry r).waiters = [] ∧ (t.entry r).yieldRequested = false) : t.atRest :=
  ⟨he, by rw [hw, h.2, interlockMet_congr hf hc]⟩

theorem State.atRest.release {s : State} (h : s.atRest) {r : Resource} (hr : s.freesAtOnce r) (hc : r ≠ .circ) :
    (s.release r).atRest := by
  have k := release_effect (.refl s) r
  refine h.leases k.fixed k.interlock ?_ fun q => ?_
  · rw [State.entry_release hr, if_neg (Ne.symm hc)]
  · rw [State.entry_release hr]
    split
    · exact ⟨(h.1 r).1, rfl⟩
    · exact h.1 q

/-! ### Nobody there -/

theorem State.waitsFor_noWaiters {s : State} {r : Resource} (h : (s.entry r).waiters = []) (who : Holder) :
    s.waitsFor who r = false := by simp [State.waitsFor, h]

theorem State.withdraw_absent {s : State} {who : Holder} (h : ∀ r, s.waitsFor who r = false) : s.withdraw who = s := by
  have key : ∀ l : List Resource, l.foldl (fun s r => s.withdrawFrom who r) s = s := fun l => by
    induction l with
    | nil => rfl
    | cons r rs ih => rw [List.foldl_cons, State.withdrawFrom, if_neg (by simp [h r]), ih]
  exact key allResources

theorem State.calm.withdraw {s : State} (h : s.calm) (who : Holder) : s.withdraw who = s :=
  State.withdraw_absent fun r => State.waitsFor_noWaiters (h r).1 who

theorem State.holds_iff (s : State) (who : Holder) (r : Resource) :
    s.holds who r = true ↔ (s.entry r).lease ≠ .free ∧ (s.entry r).holder = some who := by
  simp [State.holds, State.hasHolder]

theorem State.releaseIf_holds {s : State} {who : Holder} {r : Resource} (h : s.holds who r = true) :
    s.releaseIf who r = s.release r := if_pos h

theorem State.releaseIf_absent {s : State} {who : Holder} {r : Resource} (h : s.holds who r = false) :
    s.releaseIf who r = s := if_neg (by simp [h])

/-- A release takes no lease for its requester. -/
theorem State.holds_releaseIf {s : State} {who : Holder} {r q : Resource} (h : (s.releaseIf who r).holds who q = true) :
    s.holds who q = true := by
  obtain ⟨hl, hh⟩ := (State.holds_iff _ _ _).mp h
  have k := (releaseIf_effect (.refl s) who r).table q
  exact (State.holds_iff _ _ _).mpr ⟨k.holder hl, (k.same hl).symm.trans hh⟩

/-- A requester lets go the leases it can hold, in the order of the list. -/
theorem State.releaseList_eq (who : Holder) (l keep : List Resource) (s : State) (h : ∀ r, s.holds who r = true → r ∈ keep) :
    l.foldl (fun s r => s.releaseIf who r) s = (l.filter (· ∈ keep)).foldl (fun s r => s.releaseIf who r) s := by
  induction l generalizing s with
  | nil => rfl
  | cons r rs ih =>
    rw [List.foldl_cons]
    by_cases hr : r ∈ keep
    · rw [List.filter_cons_of_pos (by simpa using hr), List.foldl_cons]
      exact ih _ fun q hq => h q (State.holds_releaseIf hq)
    · rw [List.filter_cons_of_neg (by simpa using hr),
        State.releaseIf_absent (Bool.eq_false_iff.mpr fun c => hr (h r c))]
      exact ih s h

theorem State.releaseAll_only {s : State} {who : Holder} {r : Resource} (h : ∀ q, s.holds who q = true → q = r) :
    s.releaseAll who = s.releaseIf who r := by
  rw [State.releaseAll, State.releaseList_eq who _ [r] s fun q hq => List.mem_singleton.mpr (h q hq)]
  have hfilter : allResources.reverse.filter (· ∈ [r]) = [r] := by
    cases r with
    | dose k => fin_cases k <;> decide
    | _ => decide
  rw [hfilter]
  rfl

theorem State.releaseAll_path {s : State} {who : Holder} (h : ∀ q, s.holds who q = true → q = .inlet ∨ q = .selector) :
    s.releaseAll who = (s.releaseIf who .inlet).releaseIf who .selector := by
  rw [State.releaseAll, State.releaseList_eq who _ [.inlet, .selector] s fun q hq => by simpa using h q hq,
    show allResources.reverse.filter (· ∈ ([.inlet, .selector] : List Resource)) = [.inlet, .selector] by decide]
  rfl

theorem State.releaseAll_absent {s : State} {who : Holder} (h : ∀ q, s.holds who q = false) : s.releaseAll who = s := by
  rw [State.releaseAll_only (r := .selector) fun q hq => by simp [h q] at hq, State.releaseIf_absent (h _)]

/-! ### A grant -/

theorem Entry.granted_eq (g : Settings) (clock : Nat) (port : Option Port) (w : Waiter) (l : LeaseState) (e : Entry) :
    e.granted g clock port w l =
      { g.grantRecord clock w.who port l e with waiters := e.waiters.filter fun v => v.who != w.who } := by
  unfold Entry.granted Settings.grantRecord
  cases h : ringOf g w.who.ident <;> rfl

/-- A lease granted to a requester that nobody else contends with (R10). -/
def State.grantedTo (s : State) (r : Resource) (who : Holder) (l : LeaseState) : State :=
  reportSwitching s (s.putEntry r (s.cfg.grantRecord s.drive.clock who (s.waiterPort who) l (s.entry r)))

theorem State.entry_grantedTo (s : State) (r : Resource) (who : Holder) (l : LeaseState) (q : Resource) :
    (s.grantedTo r who l).entry q =
      if q = r then s.cfg.grantRecord s.drive.clock who (s.waiterPort who) l (s.entry r) else s.entry q := by
  rw [State.grantedTo, State.entry_congr (congrArg Arbiter.table (reportSwitching_rest s _).1), State.entry_putEntry]

theorem State.keepsEntriesBut_grantedTo (s : State) (r : Resource) (who : Holder) (l : LeaseState) :
    s.keepsEntriesBut (s.grantedTo r who l) [r] :=
  fun q hq => by rw [State.entry_grantedTo, if_neg fun k => hq (List.mem_singleton.mpr k)]

theorem State.keepsBut_grantedTo (s : State) (r : Resource) (who : Holder) (l : LeaseState) :
    s.keepsBut (s.grantedTo r who l) [.arb, .sense] :=
  (State.keepsBut_mono (s.keepsBut_putEntry r _) (by decide)).step (State.keepsBut_reportSwitching s _) (by decide)

/-- A grant that switches no reported output. -/
theorem State.grantedTo_quiet {s : State} {r : Resource} {l : LeaseState}
    (h : (l ≠ .held ∧ (s.entry r).lease ≠ .held) ∨ (r ≠ .drain ∧ r ≠ .heater)) (who : Holder) :
    s.grantedTo r who l = s.putEntry r (s.cfg.grantRecord s.drive.clock who (s.waiterPort who) l (s.entry r)) := by
  refine reportSwitching_same ?_
  have hout : ∀ q, q = .drain ∨ q = .heater → s.outputOn q =
      (s.putEntry r (s.cfg.grantRecord s.drive.clock who (s.waiterPort who) l (s.entry r))).outputOn q := fun q hq => by
    simp only [State.outputOn, State.entry_putEntry]
    split
    next hr =>
      subst hr
      obtain ⟨hl, he⟩ | ⟨hd, hh⟩ := h
      · simp [Settings.grantRecord, hl, he]
      · exact absurd hq (by simp [hd, hh])
    next => rfl
  exact Prod.ext rfl (Prod.ext (hout .drain (.inl rfl)) (hout .heater (.inr rfl)))

theorem State.keepsBut_grantedTo_quiet {s : State} {r : Resource} {l : LeaseState}
    (h : (l ≠ .held ∧ (s.entry r).lease ≠ .held) ∨ (r ≠ .drain ∧ r ≠ .heater)) (who : Holder) :
    s.keepsBut (s.grantedTo r who l) [.arb] := by
  rw [State.grantedTo_quiet h]
  exact s.keepsBut_putEntry r _

theorem State.atRest.grantedTo {s : State} (h : s.atRest) {r : Resource} (hc : r ≠ .circ) (who : Holder) (l : LeaseState) :
    (s.grantedTo r who l).atRest := by
  have k := s.keepsBut_grantedTo r who l
  have hentry := s.entry_grantedTo r who l
  have hrest := reportSwitching_rest s (s.putEntry r (s.cfg.grantRecord s.drive.clock who (s.waiterPort who) l (s.entry r)))
  refine h.leases hrest.2.2.2.1 (congrArg Water.interlock k.water) ?_ fun q => ?_
  · rw [hentry, if_neg (Ne.symm hc)]
  · rw [hentry]
    split
    · exact h.1 r
    · exact h.1 q

/-! ### One requester asks in a part at rest -/

/-- Everything that R12 to R15 ask of a grant, where the door priority is not in force and no hold-off stands. -/
structure State.admits (s : State) (r : Resource) (who : Holder) : Prop where
  free : (s.entry r).lease = .free
  guarded : r.guarded = true → s.doorClosed = true ∧ s.hasHolder .doorDrive = false
  trip : r.inTripSet = true → s.latched = false
  inlet : r = .inlet → s.hasHolder .drain = false ∧ s.holdsHeld who .selector = true
  drain : r = .drain → s.hasHolder .inlet = false
  door : r = .doorDrive → s.guardedHeld = false ∧ s.door.rod.state ≠ .stalled

theorem State.admits.eligibleBase {s : State} {r : Resource} {w : Waiter} (h : s.admits r w.who)
    (hb : ∀ v ∈ (s.entry .doorDrive).waiters, v.barred = false) : s.eligibleBase r w = true := by
  have hpass : s.passesDoorPriority w.who.ident = true := by
    have hnone : (s.entry .doorDrive).waiters.any (·.barred) = false := List.any_eq_false.mpr fun v hv => by simp [hb v hv]
    simp [State.passesDoorPriority, State.doorPriority, hnone]
  unfold State.eligibleBase
  have hguarded : (!r.guarded || (s.doorClosed && !s.hasHolder .doorDrive && s.passesDoorPriority w.who.ident)) = true := by
    cases hr : r.guarded with
    | false => rfl
    | true => simp [h.guarded hr, hpass]
  have htrip : (!r.inTripSet || !s.latched) = true := by
    cases hr : r.inTripSet with
    | false => rfl
    | true => simp [h.trip hr]
  rw [hguarded, htrip]
  cases r with
  | inlet => simp [h.inlet rfl]
  | drain => simp [h.drain rfl]
  | doorDrive => simp [h.door rfl]
  | _ => rfl

/-- The only waiter is chosen where it is eligible: no hold-off stands against it alone (R10, R16). -/
theorem State.chosenWaiter_alone {s : State} {r : Resource} {w : Waiter} (hl : (s.entry r).lease = .free)
    (hw : (s.entry r).waiters = [w]) (he : s.eligibleBase r w = true) : s.chosenWaiter r = some w := by
  have hheld : s.heldOff r w = false := by
    unfold State.heldOff
    rw [hw]
    cases (s.entry r).lastRelease with
    | none => rfl
    | some x =>
      obtain ⟨i, t⟩ := x
      by_cases hi : w.who.ident = i <;> simp [hi]
  have hel : s.eligible r w = true := by simp [State.eligible, he, hheld]
  unfold State.chosenWaiter
  simp only [hl, hw, bne_self_eq_false, Bool.false_eq_true, if_false, List.filter_cons, hel, if_true, List.filter_nil]
  cases hring : ringOf s.cfg w.who.ident <;> simp [pickWaiter]

/-- What the eligibility of a requester is read through stands when a requester joins a list. -/
theorem State.admits.ask {s : State} {r : Resource} {who : Holder} (h : s.admits r who) (q : Resource) (x : Holder)
    (serial : Nat) (want : Option Column) : (s.ask q x serial want).admits r who := by
  have k := s.keepsBut_ask q x serial want
  have he : ∀ p, ((s.ask q x serial want).entry p).lease = (s.entry p).lease ∧
      ((s.ask q x serial want).entry p).holder = (s.entry p).holder := fun p => by
    rw [State.ask, State.entry_editEntry]
    split
    next c => exact c ▸ ⟨rfl, rfl⟩
    next => exact ⟨rfl, rfl⟩
  have hh : ∀ p, (s.ask q x serial want).hasHolder p = s.hasHolder p := fun p => by simp only [State.hasHolder, he]
  have hd : (s.ask q x serial want).doorClosed = s.doorClosed := congrArg (fun d : Door => d.door.value) k.door
  have hl : (s.ask q x serial want).latched = s.latched := by
    simp only [State.latched, k.prot]
  exact
    { free := (he r).1.trans h.free
      guarded := fun hr => by rw [hd, hh]; exact h.guarded hr
      trip := fun hr => hl.trans (h.trip hr)
      inlet := fun hr => by rw [hh, State.holdsHeld, (he _).1, (he _).2]; exact h.inlet hr
      drain := fun hr => by rw [hh]; exact h.drain hr
      door := fun hr => by
        rw [k.door, State.guardedHeld, show (s.ask q x serial want).hasHolder = s.hasHolder from funext hh]
        exact h.door hr }

section Asked

variable {s : State} {r : Resource} {who : Holder} (serial : Nat) (want : Option Column)

/-- The entry asked for, where nobody waited. -/
theorem State.entry_ask_alone (hw : (s.entry r).waiters = []) :
    ((s.ask r who serial want).entry r).waiters = [⟨who, serial, want, false⟩] := by
  rw [State.ask, State.entry_editEntry, if_pos rfl, hw]
  rfl

theorem State.entry_ask_ne {q : Resource} (hq : q ≠ r) : (s.ask r who serial want).entry q = s.entry q := by
  rw [State.ask, State.entry_editEntry, if_neg hq]

theorem State.keepsEntriesBut_ask : s.keepsEntriesBut (s.ask r who serial want) [r] := State.keepsEntriesBut_editEntry s r _

/-- The requester that asks for a FREE resource alone is granted it. -/
theorem settleFor_ask (n : Nat) (h : s.atRest) (ha : s.admits r who) :
    (s.ask r who serial want).settleFor (n + 1) =
      (((s.ask r who serial want).grantLease r ⟨who, serial, want, false⟩).ownerGranted r who).settleFor n := by
  have k := s.keepsBut_ask r who serial want
  have hwait := State.entry_ask_alone (s := s) (who := who) serial want (h.1 r).1
  have hchosen : (s.ask r who serial want).chosenWaiter r = some ⟨who, serial, want, false⟩ := by
    refine State.chosenWaiter_alone ((s.lease_ask r r who serial want).trans ha.free) hwait
      (State.admits.eligibleBase (ha.ask r who serial want) fun v hv => ?_)
    by_cases hr : Resource.doorDrive = r
    · subst hr
      rw [hwait, List.mem_singleton] at hv
      exact hv ▸ rfl
    · rw [State.entry_ask_ne _ _ hr, (h.1 .doorDrive).1] at hv
      cases hv
  rw [settleFor_one n ?_ (fun q => ?_) (Resource.mem_allResources r) (hchosen ▸ rfl) (fun q hq => ?_), State.grant, hchosen]
  · have hmet : (s.ask r who serial want).interlockMet = s.interlockMet :=
      interlockMet_congr (ask_effect (.refl s) r who serial want).fixed (s.lease_ask r _ who serial want)
    rw [k.water, hmet, h.2]
  · by_cases hq : q = r
    · subst hq
      rw [State.ask, State.editEntry_self]
      exact yieldCondition_let_go (.inl ha.free)
    · rw [State.entry_ask_ne _ _ hq]
      exact (h.1 q).2
  · rw [State.entry_ask_ne _ _ hq]
    exact (h.1 q).1

/-- The entry of a FREE resource with a first request in its list. -/
theorem edited_ask {e : Entry} (hf : e.lease = .free) (hw : e.waiters = []) (hy : e.yieldRequested = false) (g : Settings)
    (clock : Nat) (w : Waiter) :
    ({ e with waiters := e.waiters ++ [w], yieldRequested := yieldCondition g clock { e with waiters := e.waiters ++ [w] } } : Entry) =
      { e with waiters := [w] } := by
  have hyield : yieldCondition g clock { e with waiters := e.waiters ++ [w] } = false := yieldCondition_let_go (.inl hf)
  cases e
  simp_all

/-- What a grant to the only waiter makes of the entry. -/
theorem granted_alone {e : Entry} (hw : e.waiters = []) (hy : e.yieldRequested = false) (g : Settings) (clock : Nat)
    (port : Option Port) (w : Waiter) (l : LeaseState) :
    ({ Entry.granted g clock port w l { e with waiters := [w] } with
      yieldRequested := yieldCondition g clock (Entry.granted g clock port w l { e with waiters := [w] }) } : Entry) =
      g.grantRecord clock w.who port l e := by
  have hnone : (Entry.granted g clock port w l { e with waiters := [w] }).waiters = [] := by simp [Entry.granted_eq]
  rw [yieldCondition_noWaiters hnone, Entry.granted_eq]
  cases e
  simp_all [Settings.grantRecord]

theorem State.reportedOutputs_putEntry {s : State} {r : Resource} {e : Entry} (h : e.lease = (s.entry r).lease) :
    (s.putEntry r e).reportedOutputs = s.reportedOutputs := by
  have hout : ∀ q, (s.putEntry r e).outputOn q = s.outputOn q := fun q => by
    simp only [State.outputOn, State.entry_putEntry]
    split
    next c => rw [h, c]
    next => rfl
  exact Prod.ext rfl (Prod.ext (hout _) (hout _))

/-- A grant to the requester that asked alone, as it is written. -/
theorem State.editEntry_granted_ask (h : s.atRest) (hf : (s.entry r).lease = .free) (l : LeaseState) :
    (s.ask r who serial want).editEntry r (Entry.granted s.cfg s.drive.clock (s.waiterPort who) ⟨who, serial, want, false⟩ l) =
      s.grantedTo r who l := by
  obtain ⟨hw, hy⟩ := h.1 r
  have k := s.keepsBut_ask r who serial want
  have hentry : (s.ask r who serial want).entry r = { s.entry r with waiters := [⟨who, serial, want, false⟩] } := by
    rw [State.ask, State.editEntry_self]
    exact edited_ask hf hw hy _ _ _
  unfold State.editEntry
  dsimp only
  rw [hentry, k.cfg, k.drive, granted_alone hw hy, State.ask_eq, State.putEntry_putEntry]
  have houts : (s.putEntry r (s.edited r fun e => { e with waiters := e.waiters ++ [⟨who, serial, want, false⟩] })).reportedOutputs =
      s.reportedOutputs := State.reportedOutputs_putEntry rfl
  unfold State.grantedTo reportSwitching
  rw [houts]

/-- The grant itself, but for SELECTOR, whose travel it may start. -/
theorem State.grantLease_ask (h : s.atRest) (hf : (s.entry r).lease = .free) (hr : r ≠ .selector) :
    (s.ask r who serial want).grantLease r ⟨who, serial, want, false⟩ =
      s.grantedTo r who (if r = .heater then .suspended else .held) := by
  have k := s.keepsBut_ask r who serial want
  have hport : (s.ask r who serial want).waiterPort who = s.waiterPort who := by simp only [State.waiterPort, k.pool]
  have hedit := State.editEntry_granted_ask (who := who) serial want h hf
  rw [← hport, ← k.cfg, ← k.drive] at hedit
  cases r with
  | selector => exact absurd rfl hr
  | heater => exact hedit .suspended
  | _ => exact hedit .held

end Asked

/-! ### Nothing more to take -/

/-- Where the judgement changes nothing, nobody yields and nobody is chosen, `settle` is done. -/
theorem settleFor_stays {s : State} (hj : s.judge = s) (hy : s.yieldNext = none) (hg : ∀ r, s.chosenWaiter r = none) (n : Nat) :
    s.settleFor n = s := by
  have hnone : s.grantNext = none := by
    have : s.grantable = [] := List.filter_eq_nil_iff.mpr fun r _ => by simp [hg r]
    unfold State.grantNext
    rw [this]
  cases n with
  | zero => exact hj
  | succ n =>
    unfold State.settleFor
    simp [hj, hy, hnone]

theorem settleFor_yields {s t : State} (hj : s.judge = s) (hy : s.yieldNext = some t) (n : Nat) :
    s.settleFor (n + 1) = t.settleFor n := by
  conv => lhs; unfold State.settleFor
  simp [hj, hy]

theorem chosenWaiter_leased {s : State} {r : Resource} (h : (s.entry r).lease ≠ .free) : s.chosenWaiter r = none := by
  unfold State.chosenWaiter
  simp [h]

end Sys2Proof.Machine

/-! The door-opening operations: how one is read from its slot, how it ends, and how it waits behind guarded holders (chapter 8).
Settles O53. -/

namespace Sys2Proof.Machine

/-! ### At rest, read through the blocks that say so -/

theorem interlockMet_of {s t : State} (hc : (t.entry .circ).lease = (s.entry .circ).lease) (hp : t.sense.points = s.sense.points)
    (hd : t.door.door = s.door.door) (hv : t.water.probeValid = s.water.probeValid) : t.interlockMet = s.interlockMet := by
  have hr : t.roleHolder .tankMin = s.roleHolder .tankMin := by simp only [State.roleHolder, hp]
  simp only [State.interlockMet, State.interlockConditions, State.waterPresent, State.doorClosed, hr, hc, hp, hd, hv]

/-- Nothing that the table or the interlock is read through has changed. -/
theorem State.atRest.of {s t : State} (h : s.atRest) (ha : t.arb.table = s.arb.table) (hp : t.sense.points = s.sense.points)
    (hd : t.door.door = s.door.door) (hw : t.water = s.water) : t.atRest := by
  have he := State.entry_congr ha
  refine ⟨fun r => by rw [he]; exact h.1 r, ?_⟩
  rw [interlockMet_of (congrArg Entry.lease (he .circ)) hp hd (congrArg Water.probeValid hw), hw, h.2]

theorem State.atRest.frame {s t : State} {l : List Block} (h : s.atRest) (k : s.keepsBut t l) (ha : Block.arb ∉ l := by decide)
    (hp : Block.sense ∉ l := by decide) (hd : Block.door ∉ l := by decide) (hw : Block.water ∉ l := by decide) : t.atRest :=
  h.of (congrArg Arbiter.table (k.arb ha)) (congrArg Sense.points (k.sense hp)) (congrArg Door.door (k.door hd)) (k.water hw)

/-! ### One operation of the door -/

/-- A slot's door-opening operation, whichever of the two it is. -/
theorem doorAt_eq {s : State} {i : SlotId} {sl : Slot} {dry : Bool} {w : DoorWork} (h : s.pool[i] = some sl)
    (hw : sl.work = doorWork dry w) (ho : sl.outcome = none) : s.doorAt i = some (sl, dry, w) := by
  unfold State.doorAt
  cases dry <;> simp [h, hw, ho, doorWork]

theorem slotWho_door {i : SlotId} {sl : Slot} {dry : Bool} {w : DoorWork} (hw : sl.work = doorWork dry w) :
    slotWho i sl = ⟨.dry, some i⟩ := by
  unfold slotWho
  cases dry <;> simp [hw, doorWork]

/-- The result fields with which a door-opening operation ends now. -/
def State.fieldsAtEnd (s : State) (dry : Bool) (w : DoorWork) : List Byte :=
  if dry = true then byte1 (doorPhaseCode w.phase) ++ flagByte w.pushed ++ byte2 (w.ajarPassed.passed / 50)
  else byte1 (rodStateCode s.door.rod.state) ++ (flagByte w.pushed ++ flagByte w.seenOpen)

theorem fieldsAtEnd_eq (s : State) (dry : Bool) (w : DoorWork) :
    s.doorFields ((doorWork dry w).fixFields (doorWork dry w).fieldsNow) = s.fieldsAtEnd dry w := by cases dry <;> rfl

theorem fixDoor_held {s : State} {i : SlotId} {sl : Slot} (h : s.pool[i] = some sl) (o : OutcomeCode) :
    s.fixDoor i o = s.setSlot i (some { sl with outcome := some o, work := sl.work.fixFields sl.work.fieldsNow }) := by
  simp only [State.fixDoor, h, State.fixOutcome_held h]
  rw [State.setWork_held (State.pool_setSlot_self _ _ _), State.setSlot_setSlot]

theorem State.send_setSlot (s : State) (i : SlotId) (x : Option Slot) (p : Port) (r : Response) :
    (s.setSlot i x).send p r = (s.send p r).setSlot i x := by cases p <;> rfl

/-- An operation ends with an answer and its slot is freed, whatever stood in the slot last. -/
theorem endSlot_setSlot (s : State) (i : SlotId) (sl : Slot) (o : OutcomeCode) (fields : List Byte) :
    (s.setSlot i (some sl)).endSlot i o fields true = (s.send sl.port (opResponse sl.tag o fields)).setSlot i none := by
  rw [State.endSlot_answered (State.pool_setSlot_self _ _ _), State.send_setSlot, State.setSlot_setSlot]

/-- One that does not hold DOOR_DRIVE, and waits for nothing, is answered at once. -/
theorem finishDoor_answered {s : State} {i : SlotId} {sl : Slot} {dry : Bool} {w : DoorWork} (h : s.pool[i] = some sl)
    (hw : sl.work = doorWork dry w) (ho : sl.outcome = none) (hc : s.calm)
    (hn : w.phase ≠ .pushing ∨ s.holds ⟨.dry, some i⟩ .doorDrive = false) (o : OutcomeCode) :
    s.finishDoor i o true = (s.send sl.port (opResponse sl.tag o (s.fieldsAtEnd dry w))).setSlot i none := by
  have hfix := fixDoor_held h o
  have hcalm : (s.fixDoor i o).calm := by
    rw [hfix]
    exact hc
  have hholds : (s.fixDoor i o).holds ⟨.dry, some i⟩ .doorDrive = s.holds ⟨.dry, some i⟩ .doorDrive := by
    rw [hfix]
    rfl
  unfold State.finishDoor
  simp only [doorAt_eq h hw ho, slotWho_door hw, hholds, hcalm.withdraw]
  rw [if_neg fun ⟨hp, hh⟩ => hn.elim (· hp) fun k => by simp [k] at hh, hfix, State.endDoorSlot, State.pool_setSlot_self]
  dsimp only
  rw [endSlot_setSlot, hw]
  congr 3
  exact fieldsAtEnd_eq s dry w

/-! ### Waiting behind guarded holders (R15, R17) -/

theorem chosenWaiter_ineligible {s : State} {r : Resource} (h : ∀ w ∈ (s.entry r).waiters, s.eligibleBase r w = false) :
    s.chosenWaiter r = none := by
  have hnone : (s.entry r).waiters.filter (s.eligible r) = [] := List.filter_eq_nil_iff.mpr fun w hw => by
    simp [State.eligible, h w hw]
  unfold State.chosenWaiter
  dsimp only
  rw [hnone]
  split
  · rfl
  · simp [pickWaiter]

/-- The part after a request for DOOR_DRIVE that guarded holders keep out: the door priority is in force for it. -/
def State.keptOut (s : State) (who : Holder) (serial : Nat) : State :=
  s.putEntry .doorDrive { s.entry .doorDrive with waiters := [⟨who, serial, none, true⟩] }

/-- A request for DOOR_DRIVE while a guarded resource has a holder waits, and bars others (R15, R17). -/
theorem settle_ask_keptOut {s : State} (who : Holder) (serial : Nat) (h : s.atRest) (hf : (s.entry .doorDrive).lease = .free)
    (hg : s.guardedHeld = true) (hr : s.door.rod.state ≠ .stalled) :
    (s.ask .doorDrive who serial none).settle = s.keptOut who serial := by
  obtain ⟨hw, hy⟩ := h.1 .doorDrive
  have hask : s.ask .doorDrive who serial none =
      s.putEntry .doorDrive { s.entry .doorDrive with waiters := [⟨who, serial, none, false⟩] } := by
    rw [State.ask_eq]
    exact congrArg _ (edited_ask hf hw hy _ _ _)
  have hentry : ∀ (e : Entry) (q : Resource), q ≠ .doorDrive → (s.putEntry .doorDrive e).entry q = s.entry q := fun e q hq => by
    rw [State.entry_putEntry, if_neg hq]
  have hguard : ∀ e : Entry, (s.putEntry .doorDrive e).guardedHeld = true := fun e => by
    simpa [State.guardedHeld, guardedResources, State.hasHolder, hentry] using hg
  have hmet : ∀ e : Entry, (s.putEntry .doorDrive e).water.interlock = (s.putEntry .doorDrive e).interlockMet := fun e => by
    rw [interlockMet_of (t := s.putEntry .doorDrive e) (s := s) (by rw [hentry e .circ (by decide)]) rfl rfl rfl]
    exact h.2
  have hjudge : (s.ask .doorDrive who serial none).judge = s.keptOut who serial := by
    rw [hask, State.judge, settleInterlock_same (hmet _), State.markBarred, hguard]
    simp [State.putEntry, hr, State.keptOut, State.entry, upd_upd]
  have hentries : ∀ r, ((s.keptOut who serial).entry r).yieldRequested = false := fun r => by
    rw [State.keptOut, State.entry_putEntry]
    split
    · exact hy
    · exact (h.1 r).2
  have hyield : (s.keptOut who serial).yieldNext = none := by
    have heat : (s.keptOut who serial).heatYielder = none := by simp [State.heatYielder, hentries]
    have dose : (s.keptOut who serial).doseYielder = none := List.find?_eq_none.mpr fun c _ => by simp [hentries]
    simp [State.yieldNext, heat, dose]
  have hgrant : (s.keptOut who serial).grantNext = none := by
    have hnone : ∀ r, (s.keptOut who serial).chosenWaiter r = none := fun r => by
      by_cases hd : r = .doorDrive
      · subst hd
        exact chosenWaiter_ineligible fun w _ => by
          simp [State.eligibleBase, show (s.keptOut who serial).guardedHeld = true from hguard _]
      · exact chosenWaiter_noWaiters (by rw [State.keptOut, hentry _ _ hd, (h.1 r).1])
    have : (s.keptOut who serial).grantable = [] := List.filter_eq_nil_iff.mpr fun r _ => by simp [hnone r]
    unfold State.grantNext
    rw [this]
  unfold State.settle State.settleFor
  simp [hjudge, hyield, hgrant]

/-- Settles O53. -/
theorem dryDelayAndAjarEnd : Obligations.DryDelayAndAjarEnd := by
  intro s i sl w hslot hpool hwork ho hrest
  have hdoor := doorAt_eq (dry := true) hpool hwork ho
  refine ⟨fun hphase hdue hrod hguard hfree => ?_, fun hphase hdue => ?_⟩
  · have hlease : (s.entry .doorDrive).lease = .free := by simpa [State.hasHolder] using hfree
    have kset := s.keepsBut_setSlot i (some { sl with work := .dry { w with phase := .waitQuiet, heldBack := false } })
    have hexec : exec .dryDelayEnd s = .next ((s.setSlot i (some
        { sl with work := .dry { w with phase := .waitQuiet, heldBack := false } })).keptOut ⟨.dry, some i⟩ sl.age) := by
      rw [← settle_ask_keptOut ⟨.dry, some i⟩ sl.age (hrest.frame kset) hlease hguard (by rw [kset.door, hrod]; decide)]
      show Host.Outcome.next s.dryDelay = _
      unfold State.dryDelay
      simp [hslot, hdoor, hphase, hdue, State.dryDelayPassed, hrod, State.askDoor, State.setWork_held hpool,
        slotWho_door (dry := true) hwork, doorWork]
    have kout := State.keepsBut_putEntry (s.setSlot i (some
      { sl with work := .dry { w with phase := .waitQuiet, heldBack := false } })) .doorDrive
    refine ⟨_, hexec, State.pool_setSlot_self _ _ _, ?_, ?_, fun j hj => State.pool_setSlot_ne s hj _, fun r hr => ?_,
      State.keepsBut_mono (kset.cons (kout _)) (by decide)⟩
    · rw [State.keptOut, State.entry_putEntry_self]
    · rw [State.keptOut, State.entry_putEntry_self]
      exact hlease
    · rw [State.keptOut, State.entry_putEntry, if_neg (by simpa using hr)]
      rfl
  · have hend := finishDoor_answered (dry := true) hpool hwork ho hrest.1 (.inl (by rw [hphase]; decide)) .done
    have kend : s.keepsBut ((s.send sl.port (opResponse sl.tag .done (s.fieldsAtEnd true w))).setSlot i none) [.pool, .ports] :=
      (s.keepsBut_send _ _).cons (State.keepsBut_setSlot _ _ _)
    refine ⟨_, ?_, State.pool_setSlot_self _ _ _, ?_, fun j hj => ?_, kend⟩
    · show Host.Outcome.next s.dryAjarPassed = _
      unfold State.dryAjarPassed
      simp only [hslot, hdoor, hphase, hdue, and_self, if_pos, hend, (hrest.frame kend).settle]
    · show ((s.send _ _).port _).txq = _
      rw [State.port_send, if_pos rfl, State.fieldsAtEnd, if_pos rfl, hphase]
      rfl
    · rw [State.pool_setSlot_ne _ hj, (s.keepsBut_send _ _).pool]

end Sys2Proof.Machine

/-! A confirmed change of a point, from the end of its measurement to the delivery and what follows (chapter 6). -/

namespace Sys2Proof.Machine

/-! ### Points and their roles -/

theorem point_get (s : State) (n : PointId) : s.sense.points[n] = s.point n := rfl

/-- A point written with its role kept. -/
theorem State.roleHolder_setPoint {s : State} {n : PointId} {r : Point} (hr : r.role = (s.point n).role) (x : Role) :
    (s.setPoint n r).roleHolder x = s.roleHolder x := by
  have hrole : ∀ q : PointId, (s.setPoint n r).sense.points[q].role = s.sense.points[q].role := fun q => by
    rw [point_get, point_get, State.point_setPoint]
    split
    next h => rw [h, hr]
    next => rfl
  simp only [State.roleHolder, hrole]

theorem roleHolder_role {s : State} {x : Role} {n : PointId} (h : s.roleHolder x = some n) : (s.point n).role = x := by
  simpa [State.point] using List.find?_some h

/-- What is read of the holder of another role stands. -/
theorem State.holderState_setPoint {s : State} {n : PointId} (r : Point) {x : Role} (hx : (s.point n).role ≠ x) {q : PointId}
    (h : s.roleHolder x = some q) : ((s.setPoint n r).point q).state = (s.point q).state := by
  rw [State.point_setPoint, if_neg fun c : q = n => hx (c ▸ roleHolder_role h)]

theorem State.waterPresent_setPoint {s : State} {n : PointId} {r : Point} (hr : r.role = (s.point n).role)
    (hx : (s.point n).role ≠ .tankMin) : (s.setPoint n r).waterPresent = s.waterPresent := by
  unfold State.waterPresent
  rw [State.roleHolder_setPoint hr]
  split
  next q hq =>
    rw [point_get, point_get, State.holderState_setPoint r hx hq]
  next => rfl

theorem State.roleGone_setPoint {s : State} {n : PointId} {r : Point} (hr : r.role = (s.point n).role) {x : Role}
    (hx : (s.point n).role ≠ x) : (s.setPoint n r).roleGone x = s.roleGone x := by
  unfold State.roleGone
  rw [State.roleHolder_setPoint hr]
  split
  next q hq =>
    rw [point_get, point_get, State.holderState_setPoint r hx hq]
  next => rfl

theorem State.roleGone_holder {s : State} {n : PointId} {x : Role} (h : s.roleHolder x = some n) :
    s.roleGone x = ((s.point n).state == .clear) := by
  unfold State.roleGone
  rw [h]
  rfl

/-! ### The measurement that confirms a change -/

/-- The part when a measurement has confirmed a change: the measurement ended, the point's record written. -/
def State.measured (s : State) (g : GroupId) (n : PointId) (side : Side) : State :=
  (s.setGroup g { s.group g with measuring := none }).setPoint n
    { s.point n with inFault := false, state := side.state, candidate := none, run := 0 }

theorem State.setPoint_setPoint (s : State) (n : PointId) (x y : Point) : (s.setPoint n x).setPoint n y = s.setPoint n y := by
  simp only [State.setPoint, upd_upd]

theorem noteQuality_sound (s : State) (p : PointId) (count : Nat) :
    s.noteQuality p count .valid = s.setPoint p { s.point p with inFault := false } := by
  simp [State.noteQuality]
  rfl

theorem State.point_setPoint_self (s : State) (n : PointId) (x : Point) : (s.setPoint n x).point n = x := by
  rw [State.point_setPoint, if_pos rfl]

/-- A VALID count on the other side, for the last time the debounce asks (R131). -/
theorem compare_confirms {s : State} {p : PointId} {count : Nat} (hne : (compareCount (s.point p) count).state ≠ (s.point p).state)
    (hdeb : (s.point p).debounce ≤
      if (s.point p).candidate = some (compareCount (s.point p) count) then (s.point p).run + 1 else 1) :
    s.compare p count .valid = s.confirm p (compareCount (s.point p) count) := by
  simp only [State.compare, if_neg hne, if_pos hdeb]

/-- The part when the measurement of a group has ended. -/
def State.unmeasured (s : State) (g : GroupId) : State := s.setGroup g { s.group g with measuring := none }

/-- What a measurement that is not voided brings, by its quality and the mode of its round (R121, R125, R131). -/
def State.resultTaken (s : State) (g : GroupId) (m : Measurement) (r : Round) (count : Nat) : State :=
  let q := quality m count
  let s := (s.unmeasured g).noteQuality m.point count q
  let s := if r.mode.compared then s.compare m.point count q else s
  if m.slot.isSome ∧ r.mode = .periodic then s.keepResult g m.point count q else s.publish m.point count q

theorem exec_measurementEnd {s : State} {g : GroupId} {m : Measurement} {r : Round} (hm : (s.group g).measuring = some m)
    (hr : (s.group g).round = some r) (hv : m.voided = false) (count : Nat) :
    exec (.measurementEnd g count) s = .next ((s.resultTaken g m r count).settle.nextMeasurement g) := by
  refine congrArg Host.Outcome.next ?_
  unfold State.endMeasurement
  dsimp only
  split
  next m' r' hm' hr' =>
    cases hm.symm.trans hm'
    cases hr.symm.trans hr'
    simp only [hv, Bool.false_and, Bool.false_eq_true, if_false]
    rfl
  next h => exact absurd hr (h m r hm)

/-- What a confirmed change does: the record, the delivery, SENSE_CHANGED, and the publication. -/
theorem resultTaken_changes {s : State} {g : GroupId} {count : Nat} {m : Measurement} {r : Round} (hd : m.disturbed = false)
    (hmode : r.mode = .continuous ∨ r.mode = .watch) (h0 : count ≠ 0) (h1 : count ≠ 65535)
    (hne : (compareCount (s.point m.point) count).state ≠ (s.point m.point).state)
    (hdeb : (s.point m.point).debounce ≤
      if (s.point m.point).candidate = some (compareCount (s.point m.point) count) then (s.point m.point).run + 1 else 1) :
    s.resultTaken g m r count = (((s.measured g m.point (compareCount (s.point m.point) count)).deliver m.point
      (s.point m.point).state (compareCount (s.point m.point) count)).post .senseChanged m.point.val
      (pointStateCode (compareCount (s.point m.point) count).state)).publish m.point count .valid := by
  have hq : quality m count = .valid := by simp [quality, hd, h0, h1]
  have hcompared : r.mode.compared = true := by rcases hmode with e | e <;> rw [e] <;> rfl
  have hperiodic : ¬(m.slot.isSome = true ∧ r.mode = .periodic) := by rcases hmode with e | e <;> simp [e]
  have hpoint : ((s.unmeasured g).setPoint m.point { s.point m.point with inFault := false }).point m.point =
    { s.point m.point with inFault := false } := State.point_setPoint_self _ _ _
  have hcompare : ((s.unmeasured g).setPoint m.point { s.point m.point with inFault := false }).compare m.point count .valid =
      ((s.unmeasured g).setPoint m.point { s.point m.point with inFault := false }).confirm m.point
        (compareCount (s.point m.point) count) := by
    have k := compare_confirms (s := (s.unmeasured g).setPoint m.point { s.point m.point with inFault := false }) (p := m.point)
      (count := count) (by rw [hpoint]; exact hne) (by rw [hpoint]; exact hdeb)
    rwa [hpoint] at k
  unfold State.resultTaken
  simp only [hq, hcompared, if_true, if_neg hperiodic, noteQuality_sound]
  rw [show (s.unmeasured g).point m.point = s.point m.point from rfl, hcompare, State.confirm, hpoint, State.setPoint_setPoint]
  rfl

/-- A measurement that confirms a change, as a whole step. -/
theorem exec_measurementEnd_changes {s : State} {g : GroupId} {count : Nat} {n : PointId} {side : Side}
    (h : s.changes g count n side) :
    exec (.measurementEnd g count) s = .next ((((((s.measured g n side).deliver n (s.point n).state side).post .senseChanged n.val
      (pointStateCode side.state)).publish n count .valid).settle).nextMeasurement g) := by
  obtain ⟨⟨m, r, hm, hr, rfl, hvoid, hdist, hmode⟩, h0, h1, rfl, hne, hdeb⟩ := h
  rw [exec_measurementEnd hm hr hvoid, resultTaken_changes hdist hmode h0 h1 hne hdeb]

end Sys2Proof.Machine

/-! What follows a result in its round, TRIP_CLEAR, and the ends of a force (chapters 6 and 9). Settles O55. -/

namespace Sys2Proof.Machine

/-! ### Frames of what follows a result -/

/-- A result of a point that no owner takes readings of. -/
theorem publish_unread {s : State} {p : PointId} (hi : (s.point p).role ≠ .inletCond) (hb : (s.point p).role ≠ .brineCond)
    (count : Nat) (q : Quality) : s.publish p count q =
      (s.setPoint p { s.point p with published := some ⟨count, q, 0, 0⟩, refresh := false }).setGroup (groupOf p)
        { s.group (groupOf p) with refresh := (s.group (groupOf p)).refresh.filter fun x => x != p } := by
  have hrole : ((s.setPoint p { s.point p with published := some ⟨count, q, 0, 0⟩, refresh := false }).setGroup (groupOf p)
      { s.group (groupOf p) with refresh := (s.group (groupOf p)).refresh.filter fun x => x != p }).point p =
        { s.point p with published := some ⟨count, q, 0, 0⟩, refresh := false } := by
    rw [State.point_setGroup, State.point_setPoint_self]
  unfold State.publish
  dsimp only
  rw [hrole]
  split
  next h => exact absurd h hi
  next h => exact absurd h hb
  next => rfl

theorem State.keepsBut_publish_unread {s : State} {p : PointId} (hi : (s.point p).role ≠ .inletCond)
    (hb : (s.point p).role ≠ .brineCond) (count : Nat) (q : Quality) : s.keepsBut (s.publish p count q) [.sense] := by
  rw [publish_unread hi hb]
  exact (s.keepsBut_setPoint _ _).step (State.keepsBut_setGroup _ _ _) (by decide)

theorem State.keepsBut_startMeasurement (s : State) (g : GroupId) (p : PointId) (slot : Option (Fin 4)) :
    s.keepsBut (s.startMeasurement g p slot) [.sense] := s.keepsBut_setGroup _ _

theorem State.keepsBut_endSingleScan (s : State) : s.keepsBut s.endSingleScan [.sense] := by
  unfold State.endSingleScan
  exact (s.keepsBut_withSense _).ite _ (s.keepsBut_refl _)

/-- The end of a round that publishes nothing. -/
theorem State.keepsBut_endRound {s : State} {g : GroupId} {r : Round} (h : ¬(r.own = true ∧ r.mode = .periodic)) :
    s.keepsBut (s.endRound g r) [.sense] := by
  unfold State.endRound
  simp only [if_neg h]
  exact ((s.keepsBut_setGroup _ _).step (State.keepsBut_setGroup _ _ _) (by decide)).step (State.keepsBut_endSingleScan _) (by decide)

/-- What follows a result in a round that publishes nothing at its end. -/
theorem State.keepsBut_nextMeasurement {s : State} {g : GroupId}
    (h : ∀ r, (s.group g).round = some r → ¬(r.own = true ∧ r.mode = .periodic)) : s.keepsBut (s.nextMeasurement g) [.sense] := by
  unfold State.nextMeasurement
  dsimp only
  split
  next => exact s.keepsBut_refl _
  next => exact s.keepsBut_startMeasurement _ _ _
  next =>
    unfold State.nextSlot
    dsimp only
    split
    next => exact s.keepsBut_refl _
    next r hr =>
      split
      · exact (s.keepsBut_setGroup _ _).step (State.keepsBut_startMeasurement _ _ _ _) (by decide)
      · exact State.keepsBut_endRound (h r hr)

/-! ### The round goes on -/

theorem State.group_disturb (s : State) (g : GroupId) : s.disturb.group g = (s.group g).disturb := updAll_get _ _ _

theorem State.round_reportSwitching (s t : State) (g : GroupId) : ((reportSwitching s t).group g).round = (t.group g).round := by
  unfold reportSwitching
  split
  · rfl
  · rw [State.group_disturb]
    rfl

theorem State.round_publish_unread {s : State} {p : PointId} (hi : (s.point p).role ≠ .inletCond)
    (hb : (s.point p).role ≠ .brineCond) (count : Nat) (q : Quality) (g : GroupId) :
    ((s.publish p count q).group g).round = (s.group g).round := by
  rw [publish_unread hi hb, State.group_setGroup, State.group_setPoint]
  split
  next h => rw [h]
  next => rfl

theorem State.round_measured (s : State) (g h : GroupId) (n : PointId) (side : Side) :
    ((s.measured g n side).group h).round = (s.group h).round := by
  rw [State.measured, State.group_setPoint, State.group_setGroup]
  split
  next e => rw [e]
  next => rfl

theorem State.point_measured (s : State) (g : GroupId) (n : PointId) (side : Side) (q : PointId) :
    (s.measured g n side).point q =
      if q = n then { s.point n with inFault := false, state := side.state, candidate := none, run := 0 } else s.point q := by
  rw [State.measured, State.point_setPoint]
  rfl

theorem State.keepsBut_measured (s : State) (g : GroupId) (n : PointId) (side : Side) : s.keepsBut (s.measured g n side) [.sense] :=
  (s.keepsBut_setGroup _ _).step (State.keepsBut_setPoint _ _ _) (by decide)

theorem State.roleHolder_measured (s : State) (g : GroupId) (n : PointId) (side : Side) (x : Role) :
    (s.measured g n side).roleHolder x = s.roleHolder x := State.roleHolder_setPoint (by rfl) x

theorem State.atRest.measured {s : State} (h : s.atRest) (g : GroupId) {n : PointId} (hn : (s.point n).role ≠ .tankMin)
    (side : Side) : (s.measured g n side).atRest := by
  have hw : (s.measured g n side).waterPresent = s.waterPresent :=
    State.waterPresent_setPoint (s := s.setGroup g { s.group g with measuring := none }) (by rfl) hn
  refine ⟨h.1, ?_⟩
  show s.water.interlock = _
  rw [h.2]
  simp only [State.interlockMet, State.interlockConditions, hw]
  rfl

/-! ### The ends of a force -/

/-- DRAIN is let go at the end of a force. -/
theorem freeLease_drain (s : State) : s.freeLease .drain = reportSwitching s (s.putEntry .drain (s.entry .drain).freed) := rfl

theorem State.entry_freeLease_drain (s : State) (r : Resource) :
    (s.freeLease .drain).entry r = if r = .drain then (s.entry .drain).freed else s.entry r := by
  rw [freeLease_drain, State.entry_congr (congrArg Arbiter.table (reportSwitching_rest s _).1), State.entry_putEntry]

theorem State.keepsBut_freeLease_drain (s : State) : s.keepsBut (s.freeLease .drain) [.arb, .sense] :=
  (State.keepsBut_mono (s.keepsBut_putEntry .drain _) (by decide)).step (State.keepsBut_reportSwitching s _) (by decide)

theorem State.atRest.freeLease_drain {s : State} (h : s.atRest) : (s.freeLease .drain).atRest := by
  have k := freeLease_effect (.refl s) .drain (fun e => by cases e)
  refine h.leases k.fixed k.interlock ?_ fun q => ?_
  · rw [State.entry_freeLease_drain, if_neg (by decide)]
  · rw [State.entry_freeLease_drain]
    split
    · exact ⟨(h.1 .drain).1, rfl⟩
    · exact h.1 q

/-- The protection record when a force has ended. -/
def Protection.unforced (p : Protection) : Protection :=
  { p with force := .off, forceFlood := false, forceOverfill := false, postrun := Timer.zero }

theorem endForce_eq (s : State) : s.endForce = ({ s with prot := s.prot.unforced } : State).freeLease .drain := rfl

theorem State.keepsBut_endForce (s : State) : s.keepsBut s.endForce [.arb, .prot, .sense] :=
  (State.keepsBut_mono (s.keepsBut_withProt _) (by decide)).step (State.keepsBut_freeLease_drain _) (by decide)

theorem State.prot_endForce (s : State) : s.endForce.prot = s.prot.unforced :=
  (State.keepsBut_freeLease_drain { s with prot := s.prot.unforced }).prot

theorem State.entry_endForce (s : State) (r : Resource) :
    s.endForce.entry r = if r = .drain then (s.entry .drain).freed else s.entry r :=
  State.entry_freeLease_drain { s with prot := s.prot.unforced } r

theorem State.atRest.endForce {s : State} (h : s.atRest) : s.endForce.atRest :=
  State.atRest.freeLease_drain (h.frame (s.keepsBut_withProt s.prot.unforced))

theorem forceEnds : Clauses.ForceEnds := by
  intro s hforce hdue hrest
  have hentry := s.entry_endForce
  refine ⟨s.endForce, ?_, s.prot_endForce, ?_, ?_, ?_, fun r hr => ?_, s.keepsBut_endForce⟩
  · refine congrArg Host.Outcome.next ?_
    unfold State.forcePostrunEnd
    rw [if_pos ⟨hforce, hdue⟩, hrest.endForce.settle]
  · rw [hentry, if_pos rfl]
    rfl
  · rw [hentry, if_pos rfl]
    rfl
  · rw [State.outputOn, hentry, if_pos rfl]
    rfl
  · rw [hentry, if_neg (by simpa using hr)]

/-! ### TRIP_CLEAR (R175) -/

/-- The cause set of a trip emptied, and the response that says so. -/
theorem exec_tripClear {s : State} {p : Port} {tag : Nat} (h : s.hears p tag) (hl : s.latched = true) (hc : s.causesLeft = 0) :
    exec (.tripClear p tag) s = .next (((({ s with prot := { s.prot with flood := false, overfill := false, overtemp := false } } :
      State).answered p tag .ok (byte1 s.causeSet)).takeHead.settle).post .tripCleared 0 s.causeSet) := by
  refine congrArg Host.Outcome.next ((immediate_hears h _).trans ?_)
  have hleft : (s.setRx p .synced).causesLeft = 0 := (read_setRx State.causesLeft (fun _ _ => rfl) s p _).trans hc
  have hclear : (s.setRx p .synced).clearTrip = s.clearTrip.setRx p .synced := by cases p <;> rfl
  dsimp only
  rw [State.latched_setRx, hl, if_neg (by decide), hleft, if_neg (by decide), hclear,
    read_setRx State.causeSet (fun _ _ => rfl)]
  rfl

theorem exec_tripClear_left {s : State} {p : Port} {tag : Nat} (h : s.hears p tag) (hl : s.latched = true) (hc : s.causesLeft ≠ 0) :
    exec (.tripClear p tag) s = .next (s.answered p tag .state (byte1 s.causesLeft)) := by
  refine congrArg Host.Outcome.next ((immediate_hears h _).trans ?_)
  have hleft : (s.setRx p .synced).causesLeft = s.causesLeft := read_setRx State.causesLeft (fun _ _ => rfl) s p _
  rw [State.latched_setRx, hl, if_neg (by decide), hleft, if_pos hc]
  rfl

theorem exec_tripClear_unlatched {s : State} {p : Port} {tag : Nat} (h : s.hears p tag) (hl : s.latched = false) :
    exec (.tripClear p tag) s = .next (s.answered p tag .state (byte1 0)) := by
  refine congrArg Host.Outcome.next ((immediate_hears h _).trans ?_)
  rw [State.latched_setRx, if_pos hl]
  rfl

theorem causeSum_eq_zero (a b c : Bool) : causeSum a b c = 0 ↔ a = false ∧ b = false ∧ c = false := by
  revert a b c
  decide

theorem State.causesLeft_eq (s : State) : s.causesLeft = causeSum (s.prot.flood && !s.roleGone .leak)
    (s.prot.overfill && !s.roleGone .tankHigh) (s.prot.overtemp && s.water.overTemp) := by
  simp [State.causesLeft, State.causeGone]

theorem tripClearAllOrNothing : Clauses.TripClearAllOrNothing := by
  intro s p tag h
  refine ⟨exec_tripClear_unlatched h, fun hl => ⟨fun hleft => ?_, fun hflood hover htemp set u hset hu => ?_⟩⟩
  · rw [← State.causesLeft_eq]
    refine exec_tripClear_left h hl fun hc => ?_
    rw [State.causesLeft_eq, causeSum_eq_zero] at hc
    obtain ⟨h1, h2, h3⟩ := hc
    rcases hleft with ⟨x, y⟩ | ⟨x, y⟩ | ⟨x, y⟩
    · simp [x, y] at h1
    · simp [x, y] at h2
    · simp [x, y] at h3
  · have hnone : s.causesLeft = 0 := by
      rw [State.causesLeft_eq, causeSum_eq_zero]
      simpa using ⟨hflood, hover, htemp⟩
    have hexec := exec_tripClear h hl hnone
    rw [show s.causeSet = set from hset.symm, ← hu] at hexec
    have kprot := (s.keepsBut_withProt { s.prot with flood := false, overfill := false, overtemp := false })
    have kanswer : s.keepsBut u [.prot, .ports] := by
      rw [hu]
      exact (State.keepsBut_mono kprot (by decide)).step ((State.keepsBut_setRx _ p .synced).step (State.keepsBut_reply _ _ _ _ _)
        (List.Subset.refl _)) (by decide)
    refine ⟨fun hrest hqueue => ?_, fun v hv => ?_⟩
    · have hstays : u.takeHead = u := by
        refine takeHead_stays (hqueue.imp (fun e => by rw [kanswer.soft]; exact e) fun hq => .inl ?_)
        have hmode : u.mode = s.mode := kanswer .mode (by decide)
        unfold State.headReady
        rw [hmode, kanswer.soft]
        rcases hq with e | e
        · simp [e]
        · simp [Option.isNone_iff_eq_none, e]
      rw [hexec, hstays, (hrest.frame kanswer).settle]
    · rw [hexec, show u.takeHead.settle = v from Host.Outcome.next.inj hv]

/-! ### A force judged at a confirmed CLEAR (R173, R174) -/

theorem State.forceOver_measured {s : State} {g : GroupId} {n : PointId} (hholder : s.roleHolder (s.point n).role = some n) :
    (s.measured g n .clear).forceOver = true ↔ (s.prot.forceFlood = true → (s.point n).role ≠ .leak → s.roleGone .leak = true) ∧
      (s.prot.forceOverfill = true → (s.point n).role ≠ .tankHigh → s.roleGone .tankHigh = true) := by
  have hprot : (s.measured g n .clear).prot = s.prot := (s.keepsBut_measured g n .clear).prot
  have hgone : ∀ x, (s.measured g n .clear).roleGone x = true ↔ ((s.point n).role ≠ x → s.roleGone x = true) := fun x => by
    by_cases hx : (s.point n).role = x
    · subst hx
      rw [State.roleGone_holder ((s.roleHolder_measured g n .clear _).trans hholder), State.point_measured, if_pos rfl]
      simp [Side.state]
    · have := State.roleGone_setPoint (s := s.setGroup g { s.group g with measuring := none }) (n := n)
        (r := { s.point n with inFault := false, state := Side.clear.state, candidate := none, run := 0 }) (by rfl) hx
      rw [show (s.measured g n .clear).roleGone x = s.roleGone x from this]
      simp [hx]
  simp only [State.forceOver, hprot, Bool.and_eq_true, Bool.or_eq_true, Bool.not_eq_true', hgone]
  cases s.prot.forceFlood <;> cases s.prot.forceOverfill <;> simp

/-- The delivery of a CLEAR of a LEAK or TANK_HIGH point is the judgement of the force. -/
theorem deliver_trip_clear {s : State} {g : GroupId} {n : PointId} (hrole : (s.point n).role = .leak ∨ (s.point n).role = .tankHigh)
    (hholder : s.roleHolder (s.point n).role = some n) (old : PointState) :
    (s.measured g n .clear).deliver n old .clear = (s.measured g n .clear).judgeForce := by
  have hpoint : ((s.measured g n .clear).point n).role = (s.point n).role := by rw [State.point_measured, if_pos rfl]
  unfold State.deliver
  dsimp only
  rw [hpoint, s.roleHolder_measured, hholder, if_neg (by rcases hrole with e | e <;> simp [e])]
  rcases hrole with e | e <;> rw [e] <;> rfl

theorem State.judgeForce_stays {s : State} (h : s.forceOver = false) : s.judgeForce = s := if_neg (by simp [h])

theorem State.judgeForce_over {s : State} (hf : s.prot.force = .forcing) (h : s.forceOver = true) :
    s.judgeForce = if s.drive.postrun = 0 then ({ s with prot := { s.prot with force := .postrun, postrun := Timer.zero } } :
      State).endForce else { s with prot := { s.prot with force := .postrun, postrun := Timer.zero } } := if_pos ⟨hf, h⟩

/-- Everything that comes after the delivery of a change, in a part that it leaves at rest. -/
structure AfterDelivery (g : GroupId) (n : PointId) (u t : State) : Prop where
  frame : u.keepsBut t [.ports, .sense]
  ports : t.ports = (u.post .senseChanged n.val 1).ports

theorem afterDelivery_clear {g : GroupId} {n : PointId} {u : State} (count : Nat) (hrest : u.atRest)
    (hi : (u.point n).role ≠ .inletCond) (hb : (u.point n).role ≠ .brineCond) (hm : (u.point n).role ≠ .tankMin)
    (hround : ∀ r, (u.group g).round = some r → ¬(r.own = true ∧ r.mode = .periodic)) :
    AfterDelivery g n u ((((u.post .senseChanged n.val 1).publish n count .valid).settle).nextMeasurement g) := by
  have kpost := u.keepsBut_post .senseChanged n.val 1
  have kpub := State.keepsBut_publish_unread (s := u.post .senseChanged n.val 1) hi hb count .valid
  have hpub := publish_unread (s := u.post .senseChanged n.val 1) hi hb count .valid
  have hsettled : ((u.post .senseChanged n.val 1).publish n count .valid).atRest := by
    have hwater : ((u.post .senseChanged n.val 1).publish n count .valid).waterPresent = u.waterPresent := by
      rw [hpub]
      exact State.waterPresent_setPoint (s := u.post .senseChanged n.val 1) (by rfl) hm
    refine ⟨fun r => ?_, ?_⟩
    · rw [kpub.entry r, kpost.entry r]
      exact hrest.1 r
    · rw [kpub.water, kpost.water, hrest.2]
      simp only [State.interlockMet, State.interlockConditions, hwater, State.doorClosed, kpub.entry .circ, kpost.entry .circ,
        kpub.door, kpost.door, kpub.water, kpost.water]
  rw [hsettled.settle]
  have knext := State.keepsBut_nextMeasurement (s := (u.post .senseChanged n.val 1).publish n count .valid) (g := g) fun r hr => by
    rw [State.round_publish_unread (s := u.post .senseChanged n.val 1) hi hb] at hr
    exact hround r hr
  have kall := (State.keepsBut_mono kpost (by decide : _ ⊆ [Block.ports, .sense])).step (kpub.step knext (List.Subset.refl _))
    (by decide)
  exact ⟨kall, by rw [knext.ports, kpub.ports]⟩

theorem State.ports_post_congr {s t : State} (hp : t.ports = s.ports) (hc : t.drive = s.drive) (e : Event) (x v : Nat) :
    (t.post e x v).ports = (s.post e x v).ports := by simp only [State.post, hp, hc]

/-- The round of a group, in which the measurement that confirms a change is not PERIODIC. -/
theorem State.changes.notPeriodic {s : State} {g : GroupId} {count : Nat} {n : PointId} {side : Side}
    (h : s.changes g count n side) : ∀ r, (s.group g).round = some r → ¬(r.own = true ∧ r.mode = .periodic) := by
  obtain ⟨⟨m, r, -, hr, -, -, -, hmode⟩, -⟩ := h
  intro r' hr'
  cases hr.symm.trans hr'
  rcases hmode with e | e <;> simp [e]

theorem forceJudged : Clauses.ForceJudged := by
  intro s g count n all ⟨hchange, hholder⟩ hrole hforce hrest hall
  have km := s.keepsBut_measured g n .clear
  have hprot := km.prot
  have hM : (s.measured g n .clear).atRest := hrest.measured g (by rcases hrole with e | e <;> simp [e]) .clear
  have hover : (s.measured g n .clear).forceOver = true ↔ all := (State.forceOver_measured hholder).trans hall.symm
  have hpost : (s.measured g n .clear).prot.force = .forcing := by rw [hprot, hforce]
  have kp := (s.measured g n .clear).keepsBut_withProt { s.prot with force := .postrun, postrun := Timer.zero }
  have hlate : (s.measured g n .clear).judgeForce.atRest := by
    cases hf : (s.measured g n .clear).forceOver with
    | false => rwa [State.judgeForce_stays hf]
    | true =>
      rw [State.judgeForce_over hpost hf, hprot]
      split
      · exact (hM.frame kp).endForce
      · exact hM.frame kp
  have kj : (s.measured g n .clear).keepsBut (s.measured g n .clear).judgeForce [.arb, .prot, .sense] := by
    cases hf : (s.measured g n .clear).forceOver with
    | false =>
      rw [State.judgeForce_stays hf]
      exact State.keepsBut_refl _ _
    | true =>
      rw [State.judgeForce_over hpost hf, hprot]
      split
      · exact (State.keepsBut_mono kp (by decide)).step (State.keepsBut_endForce _) (by decide)
      · exact State.keepsBut_mono kp (by decide)
  have hpoints : (s.measured g n .clear).judgeForce.point n = (s.measured g n .clear).point n := by
    have := (judgeForce_effect (.refl (s.measured g n .clear))).points
    rw [State.point, this]
    rfl
  have hround : ∀ r, ((s.measured g n .clear).judgeForce.group g).round = some r → ¬(r.own = true ∧ r.mode = .periodic) := by
    have hsame : ((s.measured g n .clear).judgeForce.group g).round = (s.group g).round := by
      rw [← s.round_measured g g n .clear]
      unfold State.judgeForce
      dsimp only
      split
      · split
        · rw [endForce_eq, freeLease_drain, State.round_reportSwitching]
          rfl
        · rfl
      · rfl
    rw [hsame]
    exact hchange.notPeriodic
  have hrolen : ((s.measured g n .clear).judgeForce.point n).role = (s.point n).role := by
    rw [hpoints, State.point_measured, if_pos rfl]
  have hafter := afterDelivery_clear (g := g) (n := n) count hlate (by rw [hrolen]; rcases hrole with e | e <;> simp [e])
    (by rw [hrolen]; rcases hrole with e | e <;> simp [e]) (by rw [hrolen]; rcases hrole with e | e <;> simp [e]) hround
  refine ⟨_, ?_, fun ha hp => ?_, fun ha hp => ?_, fun ha => ?_, ?_,
    ((State.keepsBut_mono km (by decide)).step kj (by decide)).step hafter.frame (by decide)⟩
  · rw [exec_measurementEnd_changes hchange, deliver_trip_clear hrole hholder]
    rfl
  · rw [hafter.frame.prot, hafter.frame.arb, State.judgeForce_over hpost (hover.mpr ha), km.drive, if_neg (by omega), hprot]
    exact ⟨rfl, km.arb⟩
  · have hj := State.judgeForce_over hpost (hover.mpr ha)
    rw [km.drive, if_pos hp, hprot] at hj
    have hentry : ∀ r, (((((s.measured g n .clear).judgeForce.post .senseChanged n.val 1).publish n count .valid).settle).nextMeasurement
        g).entry r = if r = .drain then (s.entry .drain).freed else s.entry r := fun r => by
      rw [hafter.frame.entry r, hj, State.entry_endForce]
      rfl
    refine ⟨?_, ?_, ?_, fun r hr => ?_⟩
    · rw [hafter.frame.prot, hj, State.prot_endForce]
      rfl
    · rw [hentry, if_pos rfl]
      rfl
    · rw [State.outputOn, hentry, if_pos rfl]
      rfl
    · rw [hentry, if_neg (by simpa using hr)]
  · have hstays := State.judgeForce_stays (Bool.eq_false_iff.mpr fun c => ha (hover.mp c))
    rw [hafter.frame.prot, hafter.frame.arb, hstays, hprot]
    exact ⟨rfl, km.arb⟩
  · rw [hafter.ports]
    exact State.ports_post_congr ((kj.ports).trans km.ports) ((kj.drive).trans km.drive) _ _ _

/-- Settles O55. -/
theorem tripAndForceEnd : Obligations.TripAndForceEnd := ⟨tripClearAllOrNothing, forceJudged, forceEnds⟩

end Sys2Proof.Machine

/-! An operation that reaches its owner, and the door-opening operations as they start (chapters 8 and 10). Settles O49. -/

namespace Sys2Proof.Machine

/-! ### An operation as it is accepted -/

/-- The part when an operation has been accepted at a port, before its owner takes it up. -/
def State.withOperation (s : State) (p : Port) (tag : Nat) (w : Work) (i : SlotId) : State :=
  (s.setRx p .synced).accept p tag w i

section Accepted

variable (s : State) (p : Port) (tag : Nat) (w : Work) (i : SlotId)

theorem State.keepsBut_withOperation : s.keepsBut (s.withOperation p tag w i) [.pool, .accepted, .ports] := by
  have kaccept : (s.setRx p .synced).keepsBut (s.withOperation p tag w i) [.pool, .accepted] := by
    intro b hb
    cases b with
    | pool => exact absurd List.mem_cons_self hb
    | accepted => exact absurd (List.mem_cons_of_mem _ List.mem_cons_self) hb
    | _ => rfl
  exact (State.keepsBut_mono (s.keepsBut_setRx p .synced) (by decide)).step kaccept (by decide)

theorem State.ports_withOperation : (s.withOperation p tag w i).ports = (s.setRx p .synced).ports := rfl

theorem State.pool_withOperation_self : (s.withOperation p tag w i).pool[i] = some ⟨p, tag, w, s.accepted, s.laps, none⟩ := by
  have haccepted : (s.setRx p .synced).accepted = s.accepted ∧ (s.setRx p .synced).laps = s.laps := by cases p <;> exact ⟨rfl, rfl⟩
  rw [State.withOperation, State.accept, State.pool_setSlot_self]
  rw [haccepted.1, haccepted.2]

theorem State.pool_withOperation_ne {j : SlotId} (h : j ≠ i) : (s.withOperation p tag w i).pool[j] = s.pool[j] := by
  rw [State.withOperation, State.accept, State.pool_setSlot_ne _ h]
  show (s.setRx p .synced).pool[j] = _
  rw [State.pool_setRx]

end Accepted

/-! ### A part in which everything is FREE -/

theorem State.vacant.atRest {s : State} (h : s.vacant) (hi : s.water.interlock = false) : s.atRest :=
  ⟨State.calm_vacant h, by rw [hi]; simp [State.interlockMet, State.interlockConditions, (h .circ).1]⟩

theorem State.vacant.noHolder {s : State} (h : s.vacant) (r : Resource) : s.hasHolder r = false := by
  simp [State.hasHolder, (h r).1]

theorem State.vacant.unguarded {s : State} (h : s.vacant) : s.guardedHeld = false := by
  simp [State.guardedHeld, guardedResources, h.noHolder]

theorem State.vacant.of_entries {s t : State} (h : s.vacant) (he : ∀ r, t.entry r = s.entry r) : t.vacant := fun r => by
  rw [he]
  exact h r

/-- Everything FREE, a requester of any resource but INLET is granted it where the door, the rod and the trip let it (R12 to R15). -/
theorem State.vacant.admits {s : State} (h : s.vacant) {r : Resource} (who : Holder) (hi : r ≠ .inlet)
    (hg : r.guarded = true → s.doorClosed = true) (ht : r.inTripSet = true → s.latched = false)
    (hd : r = .doorDrive → s.door.rod.state ≠ .stalled) : s.admits r who where
  free := (h r).1
  guarded hr := ⟨hg hr, h.noHolder _⟩
  trip := ht
  inlet hr := absurd hr hi
  drain _ := h.noHolder _
  door hr := ⟨h.unguarded, hd hr⟩

/-! ### DOOR_DRIVE granted (R159, R165) -/

/-- The work of a door-opening operation that has been granted DOOR_DRIVE. -/
def DoorWork.granted (w : DoorWork) : DoorWork := { w with phase := .pushing, pushed := true, heldBack := false }

/-- The rod as a push begins. -/
def Rod.pushed (r : Rod) : Rod :=
  { r with state := .extending, extend := Timer.zero, maxHold := 0, maxHoldDue := false, hold := Timer.zero,
           retEdge := false, extEdge := false }

/-- The drive as a push begins. -/
def State.pushDrive (s : State) : Drive :=
  { s.drive with door := ⟨s.cfg.pushMax, 0, false⟩, doorRamp := ⟨s.cfg.pushStart, 0, false⟩, rodExtend := true }

theorem doorGranted_eq {s : State} {i : SlotId} {sl : Slot} {dry : Bool} {w : DoorWork} (h : s.pool[i] = some sl)
    (hw : sl.work = doorWork dry w) (ho : sl.outcome = none) : s.doorGranted i =
      { s.setSlot i (some { sl with work := doorWork dry w.granted }) with
        drive := s.pushDrive, door := { s.door with rod := s.door.rod.pushed } } := by
  simp only [State.doorGranted, doorAt_eq h hw ho, State.setWork_held h]
  rfl

theorem State.keepsBut_doorGranted {s : State} {i : SlotId} {sl : Slot} {dry : Bool} {w : DoorWork} (h : s.pool[i] = some sl)
    (hw : sl.work = doorWork dry w) (ho : sl.outcome = none) : s.keepsBut (s.doorGranted i) [.door, .drive, .pool] := by
  rw [doorGranted_eq h hw ho]
  have hslot := s.keepsBut_setSlot i (some { sl with work := doorWork dry w.granted })
  exact (hslot.cons (State.keepsBut_withDrive _ s.pushDrive)).cons
    (State.keepsBut_setRod { s.setSlot i (some { sl with work := doorWork dry w.granted }) with drive := s.pushDrive } s.door.rod.pushed)

/-! ### DOOR_PUSH and DRY taken up -/

/-- No door-opening operation holds a slot. -/
theorem doorSlot_none {s : State} (h : s.doorSlot = none) (i : SlotId) (sl : Slot) (w : DoorWork) (hp : s.pool[i] = some sl) :
    sl.work ≠ .doorPush w ∧ sl.work ≠ .dry w := by
  have hi := List.find?_eq_none.mp h i (List.mem_finRange i)
  rw [hp] at hi
  constructor <;> intro hw <;> simp [hw] at hi

theorem otherDoor_withOperation {s : State} (h : s.doorSlot = none) (p : Port) (tag : Nat) (w : Work) (i : SlotId) :
    (s.withOperation p tag w i).otherDoor i = false := by
  refine List.any_eq_false.mpr fun j _ => ?_
  by_cases hj : j = i
  · simp [hj]
  · rw [State.pool_withOperation_ne s p tag w i hj]
    cases hp : s.pool[j] with
    | none => simp
    | some sl =>
      have hdoor := fun w => doorSlot_none h j sl w hp
      cases hw : sl.work with
      | doorPush w => exact absurd hw (hdoor w).1
      | dry w => exact absurd hw (hdoor w).2
      | _ => simp [hw]

/-- A door-opening operation that asks for DOOR_DRIVE with everything FREE is granted it at once. -/
theorem settle_askDoor {s : State} {i : SlotId} {sl : Slot} {dry : Bool} {w : DoorWork} (hv : s.vacant)
    (hi : s.water.interlock = false) (hp : s.pool[i] = some sl) (hw : sl.work = doorWork dry w) (ho : sl.outcome = none)
    (hrod : s.door.rod.state = .retracted) :
    (s.askDoor i).settle = ((s.setSlot i (some { sl with work := doorWork dry { w with phase := .waitQuiet, heldBack := false } })).grantedTo
      .doorDrive ⟨.dry, some i⟩ .held).doorGranted i := by
  have kset := s.keepsBut_setSlot i (some { sl with work := doorWork dry { w with phase := .waitQuiet, heldBack := false } })
  have hset := State.pool_setSlot_self s i (some { sl with work := doorWork dry { w with phase := .waitQuiet, heldBack := false } })
  generalize hu : s.setSlot i (some { sl with work := doorWork dry { w with phase := .waitQuiet, heldBack := false } }) = u at kset hset
  have hvu : u.vacant := hv.of_entries kset.entry
  have hrest : u.atRest := hvu.atRest (by rw [kset.water, hi])
  have hadmits : u.admits .doorDrive ⟨.dry, some i⟩ := hvu.admits _ (by decide) (fun h => by cases h) (fun h => by cases h) fun _ => by
    rw [kset.door, hrod]
    decide
  have hask : s.askDoor i = u.ask .doorDrive ⟨.dry, some i⟩ sl.age none := by
    unfold State.askDoor
    simp only [doorAt_eq hp hw ho, slotWho_door hw, hrod, State.setWork_held hp]
    rw [if_neg (by simp), hu]
  have kgrant := State.keepsBut_grantedTo_quiet (s := u) (r := .doorDrive) (l := .held) (.inr (by decide)) ⟨.dry, some i⟩
  have hpool : (u.grantedTo .doorDrive ⟨.dry, some i⟩ .held).pool[i] =
      some { sl with work := doorWork dry { w with phase := .waitQuiet, heldBack := false } } := by rw [kgrant.pool, hset]
  have hgranted : ((u.grantedTo .doorDrive ⟨.dry, some i⟩ .held).doorGranted i).atRest := by
    have h := hrest.grantedTo (r := .doorDrive) (by decide) ⟨.dry, some i⟩ .held
    rw [doorGranted_eq hpool rfl ho]
    exact h.of rfl rfl rfl rfl
  rw [State.settle, hask, settleFor_ask _ _ _ hrest hadmits, State.grantLease_ask _ _ hrest hadmits.free (by decide),
    if_neg (by decide)]
  exact hgranted.settleFor 127

/-- Settles O49. -/
theorem doorOperationsStart : Obligations.DoorOperationsStart := by
  intro s p tag i hacc hv hi hclosed hrod hnone
  have hother := fun w => otherDoor_withOperation hnone p tag w i
  refine ⟨?_, fun delay ajar hd1 hd2 ha1 ha2 => ?_⟩
  · generalize hu : s.withOperation p tag (.doorPush (freshDoor 0 0 .waitQuiet)) i = u
    have ku := s.keepsBut_withOperation p tag (.doorPush (freshDoor 0 0 .waitQuiet)) i
    have hself := s.pool_withOperation_self p tag (.doorPush (freshDoor 0 0 .waitQuiet)) i
    have hne := fun j => s.pool_withOperation_ne p tag (.doorPush (freshDoor 0 0 .waitQuiet)) i (j := j)
    have hports := s.ports_withOperation p tag (.doorPush (freshDoor 0 0 .waitQuiet)) i
    have ho := hother (.doorPush (freshDoor 0 0 .waitQuiet))
    rw [hu] at ku hself hne hports ho
    have hsettle := settle_askDoor (dry := false) (w := freshDoor 0 0 .waitQuiet) (hv.of_entries ku.entry)
      (by rw [ku.water, hi]) hself rfl rfl (by rw [ku.door, hrod])
    have hsame : u.setSlot i (some ⟨p, tag, .doorPush (freshDoor 0 0 .waitQuiet), s.accepted, s.laps, none⟩) = u := by
      rw [← hself, State.setSlot, upd_eq_self]
    rw [show (⟨p, tag, doorWork false { freshDoor 0 0 .waitQuiet with phase := .waitQuiet, heldBack := false }, s.accepted, s.laps, none⟩ :
      Slot) = ⟨p, tag, .doorPush (freshDoor 0 0 .waitQuiet), s.accepted, s.laps, none⟩ from rfl, hsame] at hsettle
    have kgrant := State.keepsBut_grantedTo_quiet (s := u) (r := .doorDrive) (l := .held) (.inr (by decide)) ⟨.dry, some i⟩
    have hpool : (u.grantedTo .doorDrive ⟨.dry, some i⟩ .held).pool[i] =
        some ⟨p, tag, .doorPush (freshDoor 0 0 .waitQuiet), s.accepted, s.laps, none⟩ := by rw [kgrant.pool, hself]
    have hgranted := doorGranted_eq (dry := false) hpool rfl rfl
    have kdoor := State.keepsBut_doorGranted (dry := false) hpool rfl rfl
    have hport : u.waiterPort ⟨.dry, some i⟩ = some p := by
      show u.pool[i].map (·.port) = some p
      rw [hself]
      rfl
    have hentry : ∀ r, ((u.grantedTo .doorDrive ⟨.dry, some i⟩ .held).doorGranted i).entry r =
        if r = .doorDrive then s.cfg.grantRecord s.drive.clock ⟨.dry, some i⟩ (some p) .held (s.entry .doorDrive) else s.entry r := by
      intro r
      rw [kdoor.entry r, State.entry_grantedTo, hport, ku.cfg, ku.drive, ku.entry, ku.entry]
    refine ⟨_, ?_, fun j => ?_, by rw [hentry, if_pos rfl], ?_, ?_, ?_, ?_, ?_, fun r hr => ?_, ?_, ?_⟩
    · refine congrArg Host.Outcome.next ((operation_accepts _ _ hacc fun h => by cases h).trans (.trans ?_ hsettle))
      refine congrArg State.settle ?_
      rw [show (s.setRx p .synced).accept p tag (.doorPush (freshDoor 0 0 .waitQuiet)) i = u from hu]
      unfold State.takeUpDoorPush
      rw [ho, show u.doorClosed = s.doorClosed from congrArg (fun d : Door => d.door.value) ku.door, hclosed, ku.door, hrod]
      simp
    · rw [hgranted]
      split
      next h =>
        subst h
        exact State.pool_setSlot_self _ _ _
      next h =>
        refine (State.pool_setSlot_ne _ h _).trans ?_
        rw [kgrant.pool, hne j h]
    · rw [hgranted]
      show State.pushDrive _ = _
      rw [State.pushDrive, kgrant.drive, kgrant.cfg, ku.drive, ku.cfg]
    · rw [hgranted]
      rfl
    · rw [hgranted]
      rfl
    · rw [hgranted]
      rfl
    · rw [hgranted]
      show (u.grantedTo .doorDrive ⟨.dry, some i⟩ .held).door.door = _
      rw [kgrant.door, ku.door]
    · rw [hentry, if_neg (by simpa using hr)]
    · rw [kdoor.ports, kgrant.ports, hports]
    · exact ((State.keepsBut_mono ku (by decide)).step kgrant (by decide)).step kdoor (by decide)
  · generalize hu : s.withOperation p tag (.dry (freshDoor delay ajar .delay)) i = u
    have ku := s.keepsBut_withOperation p tag (.dry (freshDoor delay ajar .delay)) i
    have hself := s.pool_withOperation_self p tag (.dry (freshDoor delay ajar .delay)) i
    have hne := fun j => s.pool_withOperation_ne p tag (.dry (freshDoor delay ajar .delay)) i (j := j)
    have hports := s.ports_withOperation p tag (.dry (freshDoor delay ajar .delay)) i
    have ho := hother (.dry (freshDoor delay ajar .delay))
    rw [hu] at ku hself hne hports ho
    refine ⟨u, ?_, fun j => ?_, hports, ku⟩
    · refine congrArg Host.Outcome.next ((operation_accepts _ _ hacc fun h => by cases h).trans ?_)
      rw [show (s.setRx p .synced).accept p tag (.dry (freshDoor delay ajar .delay)) i = u from hu]
      have htake : u.takeUpDry i = u := by
        have hbad : ¬(3600 < delay ∨ ajar < 60 ∨ 7200 < ajar) := by omega
        have hdelay : delay ≠ 0 := by omega
        unfold State.takeUpDry
        simp only [doorAt_eq (dry := true) hself rfl rfl]
        rw [ho, show u.doorClosed = s.doorClosed from congrArg (fun d : Door => d.door.value) ku.door, hclosed, ku.door, hrod]
        simp [freshDoor, hbad, hdelay]
      rw [htake]
      exact ((hv.atRest hi).frame ku).settle
    · split
      next h =>
        subst h
        exact hself
      next h => exact hne j h

end Sys2Proof.Machine

/-! The rod: pushes that stall, holds that end, retracts and their ends (R156 to R163). Settles O50 and O51. -/

namespace Sys2Proof.Machine

theorem foldl_unchanged {α β : Type} {f : β → α → β} {b : β} {l : List α} (h : ∀ x ∈ l, f b x = b) : l.foldl f b = b := by
  induction l with
  | nil => rfl
  | cons x xs ih =>
    rw [List.foldl_cons, h x List.mem_cons_self]
    exact ih fun y hy => h y (List.mem_cons_of_mem x hy)

/-! ### DOOR_DRIVE let go -/

/-- The rod under a DOOR_DRIVE that has been let go. -/
def Rod.drawn (r : Rod) : Rod :=
  { r with
    state := match r.state with
      | .extending => .retracting | .extended => .retracting
      | .retracted => .retracted | .retracting => .retracting | .stalled => .stalled
    retract := some (.lease, Timer.zero), retEdge := false, extEdge := false }

/-- The entry of DOOR_DRIVE as it begins to wind down. -/
def State.doorReleasing (s : State) : Entry :=
  { s.entry .doorDrive with
    lease := .releasing, yieldRequested := false
    lastRelease := releaseRecord s.drive.clock (s.entry .doorDrive) }

/-- DOOR_DRIVE, HELD, is let go: it winds down under a LEASE retract (R147, R159). -/
theorem release_door {s : State} (h : (s.entry .doorDrive).lease = .held) : s.release .doorDrive =
    { s.putEntry .doorDrive s.doorReleasing with
      drive := { s.drive with doorRamp := Ramp.zero, rodExtend := false }
      door := { s.door with rod := s.door.rod.drawn } } := by
  have hgo : s.release .doorDrive =
      (s.writeRelease .doorDrive).startRetract.editEntry .doorDrive fun e => { e with lease := .releasing } := by
    rw [State.release, if_neg (by simp), State.letGo, h]
  have hentry : (s.writeRelease .doorDrive).startRetract.entry .doorDrive =
      { s.entry .doorDrive with lastRelease := releaseRecord s.drive.clock (s.entry .doorDrive) } := State.entry_putEntry_self _ _ _
  have hput : (s.writeRelease .doorDrive).putEntry .doorDrive s.doorReleasing = s.putEntry .doorDrive s.doorReleasing :=
    State.putEntry_putEntry s .doorDrive _ s.doorReleasing
  rw [hgo, State.editEntry_quiet (.inr (by decide)), State.edited, hentry, yieldCondition_let_go (.inr rfl), ← hput]
  rfl

theorem release_door_again {s : State} (h : (s.entry .doorDrive).lease = .releasing) : s.release .doorDrive = s := by
  rw [State.release, if_neg (by simp), State.letGo, h]

theorem State.keepsBut_withDriveDoor (s : State) (x : Drive) (y : Door) :
    s.keepsBut { s with drive := x, door := y } [.drive, .door] :=
  (State.keepsBut_mono (s.keepsBut_withDrive x) (by decide)).step
    (State.keepsBut_withDoor { s with drive := x } y) (by decide)

theorem State.keepsBut_release_door {s : State} (h : (s.entry .doorDrive).lease = .held) :
    s.keepsBut (s.release .doorDrive) [.arb, .drive, .door] := by
  rw [release_door h]
  exact (State.keepsBut_mono (s.keepsBut_putEntry .doorDrive s.doorReleasing) (by decide)).step
    (State.keepsBut_withDriveDoor (s.putEntry .doorDrive s.doorReleasing) _ _) (by decide)

theorem State.entry_release_door {s : State} (h : (s.entry .doorDrive).lease = .held) (r : Resource) :
    (s.release .doorDrive).entry r = if r = .doorDrive then s.doorReleasing else s.entry r := by
  rw [release_door h]
  exact State.entry_putEntry s .doorDrive r s.doorReleasing

/-- A part at rest but for an entry of DOOR_DRIVE in which nobody waits. -/
theorem State.atRest.ofDoor {s t : State} (h : s.atRest) (he : ∀ r, r ≠ .doorDrive → t.entry r = s.entry r)
    (hd : (t.entry .doorDrive).waiters = [] ∧ (t.entry .doorDrive).yieldRequested = false)
    (hp : t.sense.points = s.sense.points) (hf : t.door.door = s.door.door) (hw : t.water = s.water) : t.atRest := by
  refine ⟨fun r => ?_, ?_⟩
  · by_cases hr : r = .doorDrive
    · rw [hr]
      exact hd
    · rw [he r hr]
      exact h.1 r
  · rw [hw, h.2, interlockMet_of (congrArg Entry.lease (he .circ (by decide))) hp hf (by rw [hw])]

theorem State.atRest.release_door {s : State} (h : s.atRest) (hl : (s.entry .doorDrive).lease = .held) :
    (s.release .doorDrive).atRest := by
  have hrel := Machine.release_door hl
  have k := State.keepsBut_release_door hl
  have hdoor : (s.release .doorDrive).door.door = s.door.door := by rw [hrel]
  refine h.ofDoor (fun r hr => by rw [State.entry_release_door hl, if_neg hr]) ?_ (by rw [k.sense]) hdoor k.water
  rw [State.entry_release_door hl, if_pos rfl]
  exact ⟨(h.1 .doorDrive).1, rfl⟩

/-! ### DOOR_DRIVE FREE -/

theorem freeLease_door (s : State) : s.freeLease .doorDrive =
    { s.putEntry .doorDrive (s.entry .doorDrive).freed with
      drive := { s.drive with door := Setting.zero, doorRamp := Ramp.zero } } := by
  have hout : ∀ q, q ≠ .doorDrive → s.outputOn q =
      ((s.dropDrive .doorDrive).putEntry .doorDrive (s.entry .doorDrive).freed).outputOn q := fun q hq => by
    simp only [State.outputOn, State.entry_putEntry, if_neg hq, State.entry_dropDrive]
  unfold State.freeLease
  rw [reportSwitching_same]
  · rfl
  · exact Prod.ext rfl (Prod.ext (hout _ (by decide)) (hout _ (by decide)))

theorem State.keepsBut_freeLease_door (s : State) : s.keepsBut (s.freeLease .doorDrive) [.arb, .drive] := by
  rw [freeLease_door]
  exact (State.keepsBut_mono (s.keepsBut_putEntry .doorDrive (s.entry .doorDrive).freed) (by decide)).step
    (State.keepsBut_withDrive (s.putEntry .doorDrive (s.entry .doorDrive).freed) _) (by decide)

theorem State.entry_freeLease_door (s : State) (r : Resource) :
    (s.freeLease .doorDrive).entry r = if r = .doorDrive then (s.entry .doorDrive).freed else s.entry r := by
  rw [freeLease_door]
  exact State.entry_putEntry s .doorDrive r _

theorem State.atRest.freeLease_door {s : State} (h : s.atRest) : (s.freeLease .doorDrive).atRest := by
  have k := s.keepsBut_freeLease_door
  refine h.ofDoor (fun r hr => by rw [State.entry_freeLease_door, if_neg hr]) ?_ (by rw [k.sense]) (by rw [k.door]) k.water
  rw [State.entry_freeLease_door, if_pos rfl]
  exact ⟨(h.1 .doorDrive).1, rfl⟩

theorem endDoorWindDown_eq {s : State} (h : (s.entry .doorDrive).lease = .releasing) :
    s.endDoorWindDown = (s.freeLease .doorDrive).doorFreed (s.entry .doorDrive).holder := if_pos h

/-! ### The operations told of it -/

/-- One whose outcome was fixed before is answered with it. -/
theorem doorFreed_fixed {s : State} {i : SlotId} {sl : Slot} {dry : Bool} {w : DoorWork} {o : OutcomeCode}
    (h : s.pool[i] = some sl) (hw : sl.work = doorWork dry w) (ho : sl.outcome = some o) :
    s.doorFreed (some ⟨.dry, some i⟩) = (s.send sl.port (opResponse sl.tag o (s.doorFields sl.work))).setSlot i none := by
  have hend : s.endDoorSlot i o true = (s.send sl.port (opResponse sl.tag o (s.doorFields sl.work))).setSlot i none := by
    unfold State.endDoorSlot
    simp only [h]
    exact State.endSlot_answered h o _
  rw [← hend]
  unfold State.doorFreed
  simp only [h]
  cases dry <;> simp [hw, ho, doorWork]

/-- One that is still to be ended by it. -/
theorem doorFreed_open {s : State} {i : SlotId} {sl : Slot} {dry : Bool} {w : DoorWork} (h : s.pool[i] = some sl)
    (hw : sl.work = doorWork dry w) (ho : sl.outcome = none) : s.doorFreed (some ⟨.dry, some i⟩) =
      if w.phase = .pushing then (if dry = true then (if s.doorClosed then s.finishDoor i .closedEarly true else s.dryAjar i)
        else s.finishDoor i .done true) else s := by
  unfold State.doorFreed
  simp only [h]
  cases dry <;> simp [hw, ho, doorWork]

theorem dryAjar_eq {s : State} {i : SlotId} {sl : Slot} {w : DoorWork} (h : s.pool[i] = some sl) (hw : sl.work = .dry w)
    (ho : sl.outcome = none) : s.dryAjar i =
      s.setSlot i (some { sl with work := .dry { w with phase := .ajar, ajarPassed := Timer.zero, heldBack := false } }) := by
  unfold State.dryAjar
  simp only [doorAt_eq (dry := true) h hw ho, State.setWork_held h]

theorem doorAt_fixed {s : State} {i : SlotId} {sl : Slot} {o : OutcomeCode} (h : s.pool[i] = some sl) (ho : sl.outcome = some o) :
    s.doorAt i = none := by
  unfold State.doorAt
  simp only [h, ho]
  cases sl.work <;> rfl

theorem doorAt_empty {s : State} {i : SlotId} (h : s.pool[i] = none) : s.doorAt i = none := by
  unfold State.doorAt
  simp only [h]

theorem doorAt_congr {s t : State} {i : SlotId} (h : t.pool[i] = s.pool[i]) : t.doorAt i = s.doorAt i := by
  unfold State.doorAt
  rw [h]

theorem stallWaiters_none {s : State} (h : ∀ j, s.doorAt j = none) : s.stallWaiters = s :=
  foldl_unchanged fun j _ => by simp only [h j]

theorem askHeldBack_none {s : State} (h : ∀ j, s.doorAt j = none) : s.askHeldBack = s :=
  foldl_unchanged fun j _ => by simp only [h j]

/-! ### ROD_EXTENDED and ROD_HOLD_END -/

theorem rodExtendsAndHolds : Clauses.RodExtendsAndHolds := by
  intro s
  refine ⟨fun hs he => congrArg Host.Outcome.next (if_pos ⟨hs, he⟩), fun hs hdue hheld hrest => ?_⟩
  have hrel := release_door hheld
  have krel := State.keepsBut_release_door hheld
  have hentry := State.entry_release_door hheld
  have hrod : (s.release .doorDrive).door = { s.door with rod := s.door.rod.drawn } := by rw [hrel]
  have hdrive : (s.release .doorDrive).drive = { s.drive with doorRamp := Ramp.zero, rodExtend := false } := by rw [hrel]
  refine ⟨s.release .doorDrive, ?_, ?_, ?_, hdrive, ?_, ?_, fun hret => ?_, fun hret => ?_, ?_, fun r hr => ?_, krel⟩
  · refine congrArg Host.Outcome.next ?_
    unfold State.rodHold
    rw [if_pos ⟨hs, hdue⟩, (hrest.release_door hheld).settle]
  · rw [hentry, if_pos rfl]
    rfl
  · rw [hentry, if_pos rfl]
    rfl
  · rw [hrod]
    simp [Rod.drawn, hs]
  · rw [hrod]
    rfl
  · simp [State.rodLevel, hrod, hdrive, Rod.drawn, hret, Config.retractLevel]
  · simp [State.rodLevel, hrod, hdrive, Rod.drawn, hret]
  · rw [hrod]
  · rw [hentry, if_neg (by simpa using hr)]

end Sys2Proof.Machine

/-! The ends of a retract, a push that stalls and DOOR_RESET (R160 to R163). Settles O50 and O51. -/

namespace Sys2Proof.Machine

/-! ### A retract that ends at ROD_RET (R161) -/

/-- The rod when a retract has ended at ROD_RET. -/
def Rod.home (r : Rod) : Rod :=
  { r with
    state := match r.state with
      | .retracting => .retracted
      | .retracted => .retracted | .extending => .extending | .extended => .extended | .stalled => .stalled
    retract := none, retEdge := false }

/-- The part when a LEASE retract has ended: the rod written, DOOR_DRIVE FREE, its owner not told yet. -/
def State.retracted (s : State) (r : Rod) : State := (s.setRod r).freeLease .doorDrive

theorem State.keepsBut_retracted (s : State) (r : Rod) : s.keepsBut (s.retracted r) [.arb, .drive, .door] :=
  (State.keepsBut_mono (s.keepsBut_setRod r) (by decide)).step (State.keepsBut_freeLease_door _) (by decide)

theorem State.entry_retracted (s : State) (r : Rod) (q : Resource) :
    (s.retracted r).entry q = if q = .doorDrive then (s.entry .doorDrive).freed else s.entry q :=
  (s.setRod r).entry_freeLease_door q

theorem State.door_retracted (s : State) (r : Rod) : (s.retracted r).door = { s.door with rod := r } := by
  rw [State.retracted, freeLease_door]
  rfl

theorem State.drive_retracted (s : State) (r : Rod) :
    (s.retracted r).drive = { s.drive with door := Setting.zero, doorRamp := Ramp.zero } := by
  rw [State.retracted, freeLease_door]
  rfl

theorem State.atRest.retracted {s : State} (h : s.atRest) (r : Rod) : (s.retracted r).atRest :=
  State.atRest.freeLease_door (h.of (t := s.setRod r) rfl rfl rfl rfl)

theorem State.holds_retracted (s : State) (r : Rod) (who : Holder) : (s.retracted r).holds who .doorDrive = false := by
  have hfree : ((s.retracted r).entry .doorDrive).lease = .free := by
    rw [State.entry_retracted, if_pos rfl]
    rfl
  simp [State.holds, State.hasHolder, hfree]

theorem exec_rodRetracted {s : State} {k : RetractKind} {x : Timer} (hr : s.door.rod.retract = some (k, x))
    (he : s.door.rod.retEdge = true) : exec .rodRetracted s = .next s.retractEnded.settle := by
  refine congrArg Host.Outcome.next ?_
  unfold State.rodRetract
  rw [if_pos ⟨by rw [hr]; rfl, he⟩]

theorem retractEnded_lease {s : State} {x : Timer} (hr : s.door.rod.retract = some (.lease, x))
    (hl : (s.entry .doorDrive).lease = .releasing) :
    s.retractEnded = (s.retracted s.door.rod.home).doorFreed (s.entry .doorDrive).holder := by
  have hunfold : s.retractEnded = (s.setRod s.door.rod.home).endDoorWindDown := by
    unfold State.retractEnded
    dsimp only
    rw [if_pos (by rw [hr]; rfl)]
    rfl
  rw [hunfold]
  exact endDoorWindDown_eq (s := s.setRod s.door.rod.home) hl

/-- What the end of a LEASE retract leaves, whatever becomes of the operation of its slot. -/
structure RetractEnd (s : State) (i : SlotId) (r : Rod) (t : State) : Prop where
  free : (t.entry .doorDrive).lease = .free
  drive : t.drive = { s.drive with door := Setting.zero, doorRamp := Ramp.zero }
  pool : ∀ j : SlotId, j ≠ i → t.pool[j] = s.pool[j]
  rod : t.door.rod = r
  entries : s.keepsEntriesBut t [.doorDrive]
  frame : s.keepsBut t [.arb, .pool, .ports, .drive, .door]
  rest : t.atRest

/-- An end that touches the slot and the ports alone after the lease is FREE. -/
theorem RetractEnd.of_slot {s t : State} {i : SlotId} {r : Rod} (h : s.atRest) (k : (s.retracted r).keepsBut t [.pool, .ports])
    (hp : ∀ j : SlotId, j ≠ i → t.pool[j] = (s.retracted r).pool[j]) : RetractEnd s i r t where
  free := by
    rw [k.entry, State.entry_retracted, if_pos rfl]
    rfl
  drive := by rw [k.drive, State.drive_retracted]
  pool j hj := by rw [hp j hj, (s.keepsBut_retracted r).pool]
  rod := by rw [k.door, State.door_retracted]
  entries q hq := by rw [k.entry, State.entry_retracted, if_neg (by simpa using hq)]
  frame := (State.keepsBut_mono (s.keepsBut_retracted r) (by decide)).step k (by decide)
  rest := (h.retracted r).frame k

/-- The operation answered, its slot freed. -/
theorem RetractEnd.answered {s : State} (i : SlotId) (r : Rod) (h : s.atRest) (p : Port) (x : Response) :
    RetractEnd s i r (((s.retracted r).send p x).setSlot i none) := by
  refine .of_slot h (((s.retracted r).keepsBut_send p x).cons (State.keepsBut_setSlot _ i none)) fun j hj => ?_
  rw [State.pool_setSlot_ne _ hj, ((s.retracted r).keepsBut_send p x).pool]

theorem txq_answered {s t : State} (h : t.ports = s.ports) (i : SlotId) (p : Port) (x : Response) :
    s.responds ((t.send p x).setSlot i none) p [x] := by
  show ((t.send p x).port p).txq = _
  rw [State.port_send, if_pos rfl, State.port_congr h]

theorem doorFields_eq (s : State) (dry : Bool) (w : DoorWork) :
    s.doorFields (doorWork dry w) = if dry = true then w.fixed else byte1 (rodStateCode s.door.rod.state) ++ w.fixed := by
  cases dry <;> rfl

theorem rodRetracts : Clauses.RodRetracts := by
  intro s hstate hedge hrest
  have hhome : s.door.rod.home = { s.door.rod with state := .retracted, retract := none, retEdge := false } := by
    simp [Rod.home, hstate]
  have hcode : rodStateCode (s.retracted s.door.rod.home).door.rod.state = 0 := by
    rw [State.door_retracted, hhome]
    rfl
  have kback := s.keepsBut_retracted s.door.rod.home
  refine ⟨fun x i sl w hr hl hh hp hw ho hph => ?_, fun x i sl w o fields hr hl hh hp ho hf => ?_, fun x hr hd => ?_⟩
  · have hpool : (s.retracted s.door.rod.home).pool[i] = some sl := by rw [kback.pool, hp]
    have hfields : (s.retracted s.door.rod.home).fieldsAtEnd false w = byte1 0 ++ flagByte w.pushed ++ flagByte w.seenOpen := by
      rw [State.fieldsAtEnd, if_neg (by decide), hcode, List.append_assoc]
    have hend := RetractEnd.answered i s.door.rod.home hrest sl.port
      (opResponse sl.tag .done (byte1 0 ++ flagByte w.pushed ++ flagByte w.seenOpen))
    refine ⟨_, ?_, hend.rod.trans hhome, hend.free, State.pool_setSlot_self _ _ _, txq_answered kback.ports i _ _, hend.drive,
      hend.pool, hend.entries, hend.frame⟩
    rw [exec_rodRetracted hr hedge, retractEnded_lease hr hl, hh, doorFreed_open (dry := false) hpool hw ho, if_pos hph,
      if_neg (by decide), finishDoor_answered (dry := false) hpool hw ho (hrest.retracted _).1 (.inr (s.holds_retracted _ _)),
      hfields, hend.rest.settle]
  · have hpool : (s.retracted s.door.rod.home).pool[i] = some sl := by rw [kback.pool, hp]
    obtain ⟨dry, w', hw, hfields⟩ : ∃ dry w', sl.work = doorWork dry w' ∧
        fields = (s.retracted s.door.rod.home).doorFields sl.work := by
      rcases hf with ⟨hw, rfl⟩ | ⟨hw, rfl⟩
      · exact ⟨false, w, hw, by rw [show sl.work = doorWork false w from hw, doorFields_eq, if_neg (by decide), hcode]⟩
      · exact ⟨true, w, hw, by rw [show sl.work = doorWork true w from hw, doorFields_eq, if_pos rfl]⟩
    have hend := RetractEnd.answered i s.door.rod.home hrest sl.port (opResponse sl.tag o fields)
    refine ⟨_, ?_, hend.rod.trans hhome, hend.free, State.pool_setSlot_self _ _ _, txq_answered kback.ports i _ _, hend.drive,
      hend.pool, hend.entries, hend.frame⟩
    rw [exec_rodRetracted hr hedge, retractEnded_lease hr hl, hh, doorFreed_fixed hpool hw ho, ← hfields, hend.rest.settle]
  · rw [exec_rodRetracted hr hedge]
    have hended : s.retractEnded = s.setRod s.door.rod.home := by
      unfold State.retractEnded
      dsimp only
      rw [if_neg (by rw [hr]; simp)]
      exact askHeldBack_none fun j => hd j
    rw [hended, State.atRest.settle (hrest.of (t := s.setRod s.door.rod.home) rfl rfl rfl rfl), hhome]
    rfl

end Sys2Proof.Machine

/-! A retract that times out, a push that stalls and DOOR_RESET (R160 to R163). Settles O50 and O51. -/

namespace Sys2Proof.Machine

/-! ### Reports and faults, read through what they are made of -/

theorem PortState.subs_place_congr {a b : PortState} (h : a.subs = b.subs) (rep : Report) : (a.place rep).subs = (b.place rep).subs := by
  unfold PortState.place PortState.firstSub
  rw [h]
  split
  · rfl
  · split
    · rfl
    · exact h

theorem State.subs_post_congr {s t : State} (h : ∀ p, (t.port p).subs = (s.port p).subs) (hc : t.drive = s.drive) (e : Event)
    (x v : Nat) (p : Port) : ((t.post e x v).port p).subs = ((s.post e x v).port p).subs := by
  rw [State.port_post, State.port_post, hc]
  exact PortState.subs_place_congr (h p) _

theorem State.txq_post (s : State) (e : Event) (x v : Nat) (p : Port) : ((s.post e x v).port p).txq = (s.port p).txq := by
  rw [State.port_post]
  exact (PortState.place_rest _ _).2.1

/-- A fault is judged by the settings, the protection record and the clock. -/
structure SameFaults (s t : State) : Prop where
  cfg : t.cfg = s.cfg
  prot : t.prot = s.prot
  drive : t.drive.clock = s.drive.clock

theorem State.prot_fault_congr {s t : State} (h : SameFaults s t) (k : FaultKind) (x d : Nat) :
    (t.fault k x d).prot = (s.fault k x d).prot := by
  unfold State.fault
  rw [h.cfg]
  split
  · dsimp only
    rw [h.prot]
    split
    · simp only [State.post, h.drive]
    · rfl
  · exact h.prot

theorem State.subs_fault_congr {s t : State} (h : SameFaults s t) (hs : ∀ p, (t.port p).subs = (s.port p).subs) (k : FaultKind)
    (x d : Nat) (p : Port) : ((t.fault k x d).port p).subs = ((s.fault k x d).port p).subs := by
  unfold State.fault
  rw [h.cfg]
  split
  · dsimp only
    rw [h.prot]
    split
    · rw [State.port_post, State.port_post, h.drive]
      exact PortState.subs_place_congr (hs p) _
    · exact hs p
  · exact hs p

theorem State.ports_fault_congr {s t : State} (h : SameFaults s t) (hs : t.ports = s.ports) (k : FaultKind) (x d : Nat) :
    (t.fault k x d).ports = (s.fault k x d).ports := by
  unfold State.fault
  rw [h.cfg]
  split
  · dsimp only
    rw [h.prot]
    split
    · simp only [State.post, h.drive, hs]
    · exact hs
  · exact hs

theorem State.txq_fault (s : State) (k : FaultKind) (x d : Nat) (p : Port) : ((s.fault k x d).port p).txq = (s.port p).txq := by
  unfold State.fault
  split
  · dsimp only
    split
    · exact State.txq_post { s with prot := _ } _ _ _ p
    · rfl
  · rfl

theorem State.subs_send (s : State) (p q : Port) (r : Response) : ((s.send p r).port q).subs = (s.port q).subs := by
  rw [State.port_send]
  split
  next h => rw [h]
  next => rfl

/-! ### The ends of a LEASE retract at ROD_RET -/

/-- Whatever becomes of the operation, the retract leaves DOOR_DRIVE FREE and the rest of the part as it was. -/
theorem doorFreed_retractEnd {s : State} {i : SlotId} {sl : Slot} {dry : Bool} {w : DoorWork} (h : s.atRest)
    (hp : s.pool[i] = some sl) (hw : sl.work = doorWork dry w) (r : Rod) :
    RetractEnd s i r ((s.retracted r).doorFreed (some ⟨.dry, some i⟩)) := by
  have hpool : (s.retracted r).pool[i] = some sl := by rw [(s.keepsBut_retracted r).pool, hp]
  have hanswered : ∀ o, sl.outcome = none →
      RetractEnd s i r ((s.retracted r).finishDoor i o true) := fun o ho => by
    rw [finishDoor_answered hpool hw ho (h.retracted r).1 (.inr (s.holds_retracted r _))]
    exact .answered i r h _ _
  cases ho : sl.outcome with
  | some o =>
    rw [doorFreed_fixed hpool hw ho]
    exact .answered i r h _ _
  | none =>
    rw [doorFreed_open hpool hw ho]
    split
    · split
      next hdry =>
        split
        · exact hanswered _ ho
        · subst hdry
          rw [dryAjar_eq hpool hw ho]
          exact .of_slot h (State.keepsBut_mono ((s.retracted r).keepsBut_setSlot i _) (by decide))
            fun j hj => State.pool_setSlot_ne _ hj _
      next => exact hanswered _ ho
    · exact .of_slot h (State.keepsBut_refl _ _) fun _ _ => rfl

theorem State.doorClosed_retracted (s : State) (r : Rod) : (s.retracted r).doorClosed = s.doorClosed := by
  rw [State.doorClosed, State.door_retracted]
  rfl

/-! ### A retract that times out -/

/-- The rod when a retract has timed out. -/
def Rod.late (r : Rod) : Rod := { r with state := .stalled, retract := none }

theorem retracted_setSlot (s : State) (i : SlotId) (x : Option Slot) (r : Rod) :
    (s.setSlot i x).retracted r = (s.retracted r).setSlot i x := by
  rw [State.retracted, State.retracted, freeLease_door, freeLease_door]
  rfl

/-- The operation of a LEASE retract that times out is answered, STALLED where its outcome was not fixed. -/
theorem lateRetract_answered {s : State} {i : SlotId} {sl : Slot} {dry : Bool} {w : DoorWork} {o : OutcomeCode} {fields : List Byte}
    (hl : (s.entry .doorDrive).lease = .releasing) (hh : (s.entry .doorDrive).holder = some ⟨.dry, some i⟩)
    (hp : s.pool[i] = some sl) (hw : sl.work = doorWork dry w)
    (ho : (sl.outcome = none ∧ w.phase = .pushing ∧ o = .stalled ∧ fields = (if dry = true
          then byte1 2 ++ flagByte w.pushed ++ byte2 (w.ajarPassed.passed / 50)
          else byte1 4 ++ flagByte w.pushed ++ flagByte w.seenOpen)) ∨
        (sl.outcome = some o ∧ fields = (if dry = true then w.fixed else byte1 4 ++ w.fixed))) :
    (s.setRod s.door.rod.late).stallHolder.endDoorWindDown =
      ((s.retracted s.door.rod.late).send sl.port (opResponse sl.tag o fields)).setSlot i none := by
  have hholder : ((s.setRod s.door.rod.late).entry .doorDrive).holder = some ⟨.dry, some i⟩ := hh
  have hcode : rodStateCode (s.retracted s.door.rod.late).door.rod.state = 4 := by
    rw [State.door_retracted]
    rfl
  rcases ho with ⟨ho, hph, rfl, rfl⟩ | ⟨ho, rfl⟩
  · have hstall : (s.setRod s.door.rod.late).stallHolder = (s.setSlot i (some { sl with
        outcome := some .stalled, work := sl.work.fixFields sl.work.fieldsNow })).setRod s.door.rod.late := by
      unfold State.stallHolder
      rw [hholder]
      dsimp only
      rw [doorAt_eq (s := s.setRod s.door.rod.late) hp hw ho]
      dsimp only
      rw [if_pos hph, fixDoor_held (s := s.setRod s.door.rod.late) hp]
      rfl
    have hwork : sl.work.fixFields sl.work.fieldsNow = doorWork dry { w with fixed := sl.work.fieldsNow } := by
      rw [hw]
      cases dry <;> rfl
    rw [hstall, endDoorWindDown_eq (s := (s.setSlot i _).setRod s.door.rod.late) hl]
    show ((s.setSlot i _).retracted s.door.rod.late).doorFreed (s.entry .doorDrive).holder = _
    rw [retracted_setSlot, hh, doorFreed_fixed (State.pool_setSlot_self _ _ _) hwork rfl, State.send_setSlot, State.setSlot_setSlot]
    congr 3
    dsimp only
    rw [hwork, doorFields_eq, hw]
    cases dry
    · simp only [Bool.false_eq_true, if_false]
      rw [show ((s.retracted s.door.rod.late).setSlot i _).door = (s.retracted s.door.rod.late).door from rfl, hcode,
        List.append_assoc]
      rfl
    · simp only [if_true, Work.fieldsNow, doorWork, hph]
      rfl
  · have hstall : (s.setRod s.door.rod.late).stallHolder = s.setRod s.door.rod.late := by
      unfold State.stallHolder
      rw [hholder]
      dsimp only
      rw [doorAt_fixed (s := s.setRod s.door.rod.late) hp ho]
    rw [hstall, endDoorWindDown_eq (s := s.setRod s.door.rod.late) hl]
    show (s.retracted s.door.rod.late).doorFreed (s.entry .doorDrive).holder = _
    rw [hh, doorFreed_fixed (by rw [(s.keepsBut_retracted _).pool, hp]) hw ho, hw, doorFields_eq, hcode]

end Sys2Proof.Machine

/-! RETRACT_TIMEOUT, PUSH_STALL and DOOR_RESET as whole steps (R160 to R163). Settles O50 and O51. -/

namespace Sys2Proof.Machine

theorem State.atRest.setRod {s : State} (h : s.atRest) (r : Rod) : (s.setRod r).atRest := h.of rfl rfl rfl rfl

/-! ### RETRACT_TIMEOUT -/

/-- What a retract that times out reports, once the lease has been dealt with (R161). -/
def State.lateReported (s : State) (was : RodState) (detail : Nat) : State :=
  if was = .stalled then s.fault .retractTimeout 0 detail else (s.fault .retractTimeout 0 detail).post .rodStalled 0 3

theorem State.keepsBut_lateReported (s : State) (was : RodState) (detail : Nat) :
    s.keepsBut (s.lateReported was detail) [.ports, .prot] :=
  (s.keepsBut_fault _ _ _).ite _ ((s.keepsBut_fault _ _ _).step (State.keepsBut_post _ _ _ _) (by decide))

theorem State.prot_lateReported (s : State) (was : RodState) (detail : Nat) :
    (s.lateReported was detail).prot = (s.fault .retractTimeout 0 detail).prot := by
  unfold State.lateReported
  split <;> rfl

theorem State.txq_lateReported (s : State) (was : RodState) (detail : Nat) (p : Port) :
    ((s.lateReported was detail).port p).txq = (s.port p).txq := by
  unfold State.lateReported
  split
  · exact s.txq_fault _ _ _ p
  · rw [State.txq_post, State.txq_fault]

theorem exec_retractTimeout {s : State} {k : RetractKind} {x : Timer} (hr : s.door.rod.retract = some (k, x)) (hd : x.due = true) :
    exec .retractTimeout s = .next ((((if k = .lease then (s.setRod s.door.rod.late).stallHolder.endDoorWindDown
      else s.setRod s.door.rod.late).lateReported s.door.rod.state (retractCode (some k))).stallWaiters).settle) := by
  refine congrArg Host.Outcome.next ?_
  unfold State.retractLate
  rw [hr]
  simp only [hd, if_true]
  refine congrArg State.settle ?_
  unfold State.retractTimedOut State.lateReported
  simp only [hr, Option.map_some, Option.some.injEq]
  rfl

theorem retractTimesOut : Clauses.RetractTimesOut := by
  intro s x hr hd hnone hrest
  have kset := s.keepsBut_setRod s.door.rod.late
  have klate := (s.setRod s.door.rod.late).keepsBut_lateReported s.door.rod.state 2
  have kall : s.keepsBut ((s.setRod s.door.rod.late).lateReported s.door.rod.state 2) [.ports, .door, .prot] :=
    (State.keepsBut_mono kset (by decide)).step klate (by decide)
  have hdoor : ((s.setRod s.door.rod.late).lateReported s.door.rod.state 2).door = { s.door with rod := s.door.rod.late } := klate.door
  have hrestlate : ((s.setRod s.door.rod.late).lateReported s.door.rod.state 2).atRest :=
    (hrest.setRod _).frame klate
  have hsame : SameFaults s (s.setRod s.door.rod.late) := ⟨rfl, rfl, rfl⟩
  have hports := State.ports_fault_congr hsame rfl .retractTimeout 0 2
  have kfault := (s.setRod s.door.rod.late).keepsBut_fault .retractTimeout 0 2
  refine ⟨_, ?_, by rw [hdoor]; rfl, ?_, ?_, ?_, by rw [hdoor], kall⟩
  · rw [exec_retractTimeout hr hd, if_neg (by decide)]
    show Host.Outcome.next (((s.setRod s.door.rod.late).lateReported s.door.rod.state 2).stallWaiters.settle) = _
    rw [stallWaiters_none fun j => (doorAt_congr (by rw [kall.pool])).trans (hnone j), hrestlate.settle]
  · rw [State.rodLevel, hdoor, kall.drive, kall.entry]
    simp [Rod.late]
    split <;> simp_all
  · rw [State.prot_lateReported]
    exact State.prot_fault_congr hsame _ _ _
  · unfold State.lateReported
    split
    · exact hports
    · exact State.ports_post_congr hports (by rw [kfault.drive, (s.keepsBut_fault _ _ _).drive]; rfl) _ _ _

/-! ### LEASE retracts -/

/-- The code of a STALLED rod in the fields that a door-opening operation carries. -/
theorem doorFields_stalled {s : State} (h : s.door.rod.state = .stalled) (dry : Bool) (w : DoorWork) :
    s.doorFields (doorWork dry w) = if dry = true then w.fixed else byte1 4 ++ w.fixed := by
  rw [doorFields_eq, h]
  rfl

theorem leaseRetractEnds : Clauses.LeaseRetractEnds := by
  intro s x i sl dry w hr hl hh hp hw hrest hothers
  refine ⟨fun o fields u v hd ho hu hv => ?_, fun hedge => ?_⟩
  · have hanswer := lateRetract_answered hl hh hp hw ho
    have hend := RetractEnd.answered i s.door.rod.late hrest sl.port (opResponse sl.tag o fields)
    have kback := s.keepsBut_retracted s.door.rod.late
    have hslot : (((s.retracted s.door.rod.late).send sl.port (opResponse sl.tag o fields)).setSlot i none).pool[i] = none :=
      State.pool_setSlot_self _ _ _
    have htxq := txq_answered kback.ports i sl.port (opResponse sl.tag o fields)
    have hsubs : ∀ p, ((((s.retracted s.door.rod.late).send sl.port (opResponse sl.tag o fields)).setSlot i none).port p).subs =
        (s.port p).subs := fun p => by
      show (((s.retracted s.door.rod.late).send sl.port (opResponse sl.tag o fields)).port p).subs = _
      rw [State.subs_send, State.port_congr kback.ports]
    generalize ((s.retracted s.door.rod.late).send sl.port (opResponse sl.tag o fields)).setSlot i none = t
      at hanswer hend hslot htxq hsubs
    have hsame : SameFaults s t := ⟨hend.frame.cfg, hend.frame.prot, by rw [hend.drive]⟩
    have klate := t.keepsBut_lateReported s.door.rod.state 1
    refine ⟨t.lateReported s.door.rod.state 1, ?_, by rw [klate.door, hend.rod]; rfl, by rw [klate.entry]; exact hend.free,
      by rw [klate.pool]; exact hslot, ?_, ?_, fun p => ?_, by rw [klate.drive]; exact hend.drive,
      fun j hj => by rw [klate.pool]; exact hend.pool j hj, fun q hq => by rw [klate.entry]; exact hend.entries q hq,
      (State.keepsBut_mono hend.frame (by decide)).step klate (by decide)⟩
    · rw [exec_retractTimeout hr hd, if_pos rfl, hanswer]
      show Host.Outcome.next ((t.lateReported s.door.rod.state 1).stallWaiters.settle) = _
      rw [stallWaiters_none fun j => ?_, (hend.rest.frame klate).settle]
      by_cases hj : j = i
      · subst hj
        exact doorAt_empty (by rw [klate.pool]; exact hslot)
      · rw [doorAt_congr (s := s) (by rw [klate.pool]; exact hend.pool j hj)]
        exact hothers j hj
    · show ((t.lateReported s.door.rod.state 1).port sl.port).txq = _
      rw [State.txq_lateReported]
      exact htxq
    · rw [State.prot_lateReported, hu]
      exact State.prot_fault_congr hsame _ _ _
    · rw [hv, hu]
      unfold State.lateReported
      split
      · exact State.subs_fault_congr hsame hsubs _ _ _ p
      · rw [State.port_post, State.port_post, (t.keepsBut_fault _ _ _).drive, (s.keepsBut_fault _ _ _).drive, hsame.drive]
        exact PortState.subs_place_congr (State.subs_fault_congr hsame hsubs _ _ _ p) _
  · have hend := doorFreed_retractEnd hrest hp hw s.door.rod.home
    have hpool : (s.retracted s.door.rod.home).pool[i] = some sl := by rw [(s.keepsBut_retracted _).pool, hp]
    have hports : (s.retracted s.door.rod.home).ports = s.ports := (s.keepsBut_retracted _).ports
    refine ⟨_, ?_, fun hst => ⟨?_, fun o ho => ?_⟩, fun hst hdry ho hph => ⟨?_, fun hopen => ?_, fun hclosed => ?_⟩, hend.free, hend.drive,
      hend.pool, hend.entries, hend.frame⟩
    · rw [exec_rodRetracted hr hedge, retractEnded_lease hr hl, hh, hend.rest.settle]
    · rw [hend.rod]
      simp [Rod.home, hst]
    · have hfields : (s.retracted s.door.rod.home).doorFields sl.work = if dry = true then w.fixed else byte1 4 ++ w.fixed := by
        rw [hw]
        exact doorFields_stalled (by rw [State.door_retracted]; simp [Rod.home, hst]) dry w
      rw [doorFreed_fixed hpool hw ho, hfields]
      exact ⟨State.pool_setSlot_self _ _ _, txq_answered hports i _ _⟩
    · rw [hend.rod]
      simp [Rod.home, hst]
    · subst hdry
      rw [doorFreed_open hpool hw ho, if_pos hph, if_pos rfl, State.doorClosed_retracted, hopen, if_neg (by decide),
        dryAjar_eq hpool hw ho]
      exact ⟨State.pool_setSlot_self _ _ _, hports⟩
    · subst hdry
      rw [doorFreed_open hpool hw ho, if_pos hph, if_pos rfl, State.doorClosed_retracted, if_pos hclosed,
        finishDoor_answered hpool hw ho (hrest.retracted _).1 (.inr (s.holds_retracted _ _)), State.fieldsAtEnd, if_pos rfl, hph]
      exact ⟨State.pool_setSlot_self _ _ _, txq_answered hports i _ _⟩

/-! ### DOOR_RESET -/

theorem doorResetClearsTheRod : Clauses.DoorResetClearsTheRod := by
  intro s p tag h
  have hrod : (s.setRx p .synced).door = s.door := (s.keepsBut_setRx p .synced).door
  have hholder : (s.setRx p .synced).hasHolder .doorDrive = s.hasHolder .doorDrive :=
    read_setRx (fun u => u.hasHolder .doorDrive) (fun _ _ => rfl) s p _
  refine ⟨fun hs => congrArg Host.Outcome.next ((immediate_hears h _).trans ?_),
    fun hs hb => congrArg Host.Outcome.next ((immediate_hears h _).trans ?_),
    fun hs hb hret => congrArg Host.Outcome.next ((immediate_hears h _).trans ?_),
    fun hs hb hret hrest => congrArg Host.Outcome.next ((immediate_hears h _).trans ?_)⟩
  · dsimp only
    rw [hrod, if_pos hs]
    rfl
  · dsimp only
    rw [hrod, if_neg (by simp [hs]), hholder, if_pos hb, hs]
    rfl
  · dsimp only
    rw [hrod, if_neg (by simp [hs]), hholder, if_neg (by simp [hb]), if_pos hret, hs]
    rfl
  · have hclear : (s.setRx p .synced).clearRod = s.clearRod.setRx p .synced := by cases p <;> rfl
    have hrestclear : (s.clearRod.answered p tag .ok (byte1 0)).atRest := by
      have kreply := (s.clearRod.keepsBut_setRx p .synced).step (State.keepsBut_reply _ p tag .ok (byte1 0)) (List.Subset.refl _)
      exact (hrest.of (t := s.clearRod) rfl rfl rfl rfl).frame kreply
    dsimp only
    rw [hrod, if_neg (by simp [hs]), hholder, if_neg (by simp [hb]), if_neg (by simp [hret]), hclear,
      (s.clearRod.keepsBut_setRx p .synced).door]
    exact hrestclear.settle

/-! ### PUSH_STALL (R160) -/

/-- The slot of a DOOR_PUSH or DRY whose outcome is fixed now. -/
def Slot.fixedNow (sl : Slot) (o : OutcomeCode) : Slot :=
  { sl with outcome := some o, work := sl.work.fixFields sl.work.fieldsNow }

/-- One that holds DOOR_DRIVE in PUSHING has its outcome fixed, and lets it go. -/
theorem finishDoor_pushing {s : State} {i : SlotId} {sl : Slot} {dry : Bool} {w : DoorWork} (h : s.pool[i] = some sl)
    (hw : sl.work = doorWork dry w) (ho : sl.outcome = none) (hph : w.phase = .pushing)
    (hh : s.holds ⟨.dry, some i⟩ .doorDrive = true) (o : OutcomeCode) :
    s.finishDoor i o true = (s.setSlot i (some (sl.fixedNow o))).release .doorDrive := by
  have hfix : s.fixDoor i o = s.setSlot i (some (sl.fixedNow o)) := fixDoor_held h o
  have hholds : (s.setSlot i (some (sl.fixedNow o))).holds ⟨.dry, some i⟩ .doorDrive = true := hh
  unfold State.finishDoor
  simp only [doorAt_eq h hw ho, slotWho_door hw]
  rw [hfix, if_pos ⟨hph, hholds⟩, if_pos trivial]

/-- Settles O50. -/
theorem pushStalls : Obligations.PushStalls := by
  intro s cause i sl w hst hdue hl hh hp hw ho hph hothers hramp hrest
  obtain ⟨m, hm⟩ : ∃ m, m = (s.setRod { s.door.rod with state := .stalled }).fault .pushStall 0 s.drive.doorRamp.level := ⟨_, rfl⟩
  have hsame : SameFaults s (s.setRod { s.door.rod with state := .stalled }) := ⟨rfl, rfl, rfl⟩
  have km : (s.setRod { s.door.rod with state := .stalled }).keepsBut m [.ports, .prot] := hm ▸ State.keepsBut_fault _ _ _ _
  have kset := s.keepsBut_setRod { s.door.rod with state := .stalled }
  have ksm : s.keepsBut m [.door, .ports, .prot] := (State.keepsBut_mono kset (by decide)).step km (by decide)
  have hdoor : m.door = { s.door with rod := { s.door.rod with state := .stalled } } := km.door
  have hrestm : m.atRest := (hrest.setRod _).frame km
  have hpm : m.pool[i] = some sl := by rw [ksm.pool, hp]
  have hmheld : ((m.setSlot i (some (sl.fixedNow .stalled))).entry .doorDrive).lease = .held := by
    show (m.entry .doorDrive).lease = _
    rw [ksm.entry, hl]
  have hholds : m.holds ⟨.dry, some i⟩ .doorDrive = true :=
    (State.holds_iff _ _ _).mpr ⟨by rw [ksm.entry, hl]; decide, by rw [ksm.entry, hh]⟩
  have kslot := m.keepsBut_setSlot i (some (sl.fixedNow .stalled))
  have krel := State.keepsBut_release_door hmheld
  have hrel := release_door hmheld
  have hentry := State.entry_release_door hmheld
  have hrestrel := (hrestm.frame kslot).release_door hmheld
  obtain ⟨v, hv⟩ : ∃ v, v = (m.setSlot i (some (sl.fixedNow .stalled))).release .doorDrive := ⟨_, rfl⟩
  rw [← hv] at krel hrel hentry hrestrel
  have kpost := v.keepsBut_post .rodStalled 0 (stallCode cause)
  have hpoolv : v.pool[i] = some (sl.fixedNow .stalled) := by
    rw [krel.pool]
    exact State.pool_setSlot_self _ _ _
  have hpoolne : ∀ j : SlotId, j ≠ i → v.pool[j] = s.pool[j] := fun j hj => by
    rw [krel.pool, State.pool_setSlot_ne _ hj, ksm.pool]
  have hvports : v.ports = m.ports := by rw [krel.ports, kslot.ports]
  have hvdrive : v.drive = { s.drive with doorRamp := Ramp.zero, rodExtend := false } := by
    rw [hrel]
    show ({ m.drive with doorRamp := Ramp.zero, rodExtend := false } : Drive) = _
    rw [ksm.drive]
  have hvdoor : v.door = { s.door with rod := Rod.drawn { s.door.rod with state := .stalled } } := by
    rw [hrel]
    show ({ m.door with rod := m.door.rod.drawn } : Door) = _
    rw [hdoor]
  have kall : s.keepsBut (v.post .rodStalled 0 (stallCode cause)) [.arb, .pool, .ports, .drive, .door, .prot] :=
    (((State.keepsBut_mono ksm (by decide)).step kslot (by decide)).step krel (by decide)).step kpost (by decide)
  refine ⟨v.post .rodStalled 0 (stallCode cause), ?_, ?_, ?_, ?_, fun j hj => ?_, ?_, ?_, ?_, ?_, ?_, fun r hr => ?_, kall⟩
  · have hstall : s.pushStalled cause = (v.post .rodStalled 0 (stallCode cause)).stallWaiters := by
      unfold State.pushStalled
      rw [hh]
      dsimp only
      rw [← hm, finishDoor_pushing (dry := false) hpm hw ho hph hholds, ← hv, release_door_again]
      rw [hentry, if_pos rfl]
      rfl
    have hstep : s.doorStep = s := if_neg (by simp [hramp])
    refine congrArg Host.Outcome.next ?_
    unfold State.pushStall
    rw [if_pos ⟨hst, hdue⟩, hstep, hstall, stallWaiters_none fun j => ?_, (hrestrel.frame kpost).settle]
    by_cases hj : j = i
    · subst hj
      exact doorAt_fixed (by rw [kpost.pool]; exact hpoolv) rfl
    · rw [doorAt_congr (s := s) (by rw [kpost.pool]; exact hpoolne j hj)]
      exact hothers j hj
  · rw [kpost.door, hvdoor]
    rfl
  · rw [kpost.door, hvdoor]
    rfl
  · rw [kpost.pool, hpoolv, Slot.fixedNow, hw]
    rfl
  · rw [kpost.pool]
    exact hpoolne j hj
  · rw [kpost.entry, hentry, if_pos rfl]
    rfl
  · rw [kpost.drive, hvdrive]
  · have hm' : m.ports = (s.fault .pushStall 0 s.drive.doorRamp.level).ports := hm ▸ State.ports_fault_congr hsame rfl _ _ _
    have hclock : v.drive.clock = (s.fault .pushStall 0 s.drive.doorRamp.level).drive.clock := by
      rw [hvdrive, (s.keepsBut_fault _ _ _).drive]
    simp only [State.post, hvports, hm', hclock]
    cases cause <;> rfl
  · rw [kpost.prot, krel.prot, kslot.prot, hm]
    exact State.prot_fault_congr hsame _ _ _
  · rw [kpost.door, hvdoor]
  · rw [kpost.entry, hentry, if_neg (by simpa using hr)]
    show m.entry r = _
    rw [ksm.entry]

/-- Settles O51. -/
theorem rodTravels : Obligations.RodTravels :=
  ⟨rodExtendsAndHolds, rodRetracts, leaseRetractEnds, retractTimesOut, doorResetClearsTheRod⟩

end Sys2Proof.Machine

/-! The washing operations as they start with everything FREE (chapter 2). Settles O25. -/

namespace Sys2Proof.Machine

/-! ### A request granted with everything FREE -/

/-- The requester that the operation of a washing port in a slot is. -/
def washWho (p : Port) (i : SlotId) : Holder := ⟨.port p, some i⟩

/-- The part when an operation has been accepted and granted its resource. -/
def State.startedOn (s : State) (p : Port) (tag : Nat) (w : Work) (i : SlotId) (r : Resource) (l : LeaseState) : State :=
  (s.withOperation p tag w i).grantedTo r (washWho p i) l

section Started

variable (s : State) (p : Port) (tag : Nat) (w : Work) (i : SlotId) (r : Resource) (l : LeaseState)

theorem State.waiterPort_withOperation : (s.withOperation p tag w i).waiterPort (washWho p i) = some p := by
  show (s.withOperation p tag w i).pool[i].map (·.port) = some p
  rw [State.pool_withOperation_self]
  rfl

theorem State.entry_startedOn (q : Resource) : (s.startedOn p tag w i r l).entry q =
    if q = r then s.cfg.grantRecord s.drive.clock (washWho p i) (some p) l (s.entry r) else s.entry q := by
  have k := s.keepsBut_withOperation p tag w i
  rw [State.startedOn, State.entry_grantedTo, State.waiterPort_withOperation, k.cfg, k.drive, k.entry, k.entry]

theorem State.pool_startedOn : (s.startedOn p tag w i r l).pool = (s.withOperation p tag w i).pool :=
  (State.keepsBut_grantedTo _ r _ l).pool

theorem State.pool_startedOn_self :
    (s.startedOn p tag w i r l).pool[i] = some ⟨p, tag, w, s.accepted, s.laps, none⟩ := by
  rw [State.pool_startedOn, State.pool_withOperation_self]

theorem State.pool_startedOn_ne {j : SlotId} (h : j ≠ i) : (s.startedOn p tag w i r l).pool[j] = s.pool[j] := by
  rw [State.pool_startedOn, State.pool_withOperation_ne _ _ _ _ _ h]

theorem State.ports_startedOn : (s.startedOn p tag w i r l).ports = (s.setRx p .synced).ports :=
  (State.keepsBut_grantedTo _ r _ l).ports.trans (s.ports_withOperation p tag w i)

theorem State.keepsBut_startedOn : s.keepsBut (s.startedOn p tag w i r l) [.arb, .pool, .accepted, .ports, .sense] :=
  (State.keepsBut_mono (s.keepsBut_withOperation p tag w i) (by decide)).step (State.keepsBut_grantedTo _ r _ l) (by decide)

variable {s r l}

/-- A grant with everything FREE that switches no reported output. -/
theorem State.keepsBut_startedOn_quiet (hv : s.vacant) (h : l ≠ .held ∨ (r ≠ .drain ∧ r ≠ .heater)) :
    s.keepsBut (s.startedOn p tag w i r l) [.arb, .pool, .accepted, .ports] := by
  have hquiet : (l ≠ .held ∧ ((s.withOperation p tag w i).entry r).lease ≠ .held) ∨ (r ≠ .drain ∧ r ≠ .heater) :=
    h.imp (fun hl => ⟨hl, by rw [(s.keepsBut_withOperation p tag w i).entry, (hv r).1]; decide⟩) id
  exact (State.keepsBut_mono (s.keepsBut_withOperation p tag w i) (by decide)).step (State.keepsBut_grantedTo_quiet hquiet _) (by decide)

/-- An operation that asks for a FREE resource with everything FREE is granted it before anything else. -/
theorem settle_start (hv : s.vacant) (hi : s.water.interlock = false) (hr : r ≠ .selector ∧ r ≠ .inlet)
    (hg : r.guarded = true → s.doorClosed = true) (ht : r.inTripSet = true → s.latched = false) (hd : r ≠ .doorDrive) (serial : Nat) :
    ((s.withOperation p tag w i).ask r (washWho p i) serial none).settle =
      ((s.startedOn p tag w i r (if r = .heater then .suspended else .held)).ownerGranted r (washWho p i)).settleFor 127 := by
  have k := s.keepsBut_withOperation p tag w i
  have hvu : (s.withOperation p tag w i).vacant := hv.of_entries k.entry
  have hrest := hvu.atRest (by rw [k.water, hi])
  have hadmits : (s.withOperation p tag w i).admits r (washWho p i) :=
    hvu.admits _ hr.2 (fun h => (congrArg (fun d : Door => d.door.value) k.door).trans (hg h))
      (fun h => by simp only [State.latched, k.prot]; exact ht h) (fun h => absurd h hd)
  rw [State.settle, settleFor_ask _ _ _ hrest hadmits, State.grantLease_ask _ _ hrest hadmits.free hr.1]
  rfl

theorem State.vacant.calm_startedOn (hv : s.vacant) : (s.startedOn p tag w i r l).calm := fun q => by
  rw [State.entry_startedOn]
  split
  next h => exact h ▸ ⟨(hv q).2.1, (hv q).2.2⟩
  next => exact (hv q).2

/-- Where CIRC is FREE the interlock stays unmet. -/
theorem interlockMet_circFree {s : State} (h : (s.entry .circ).lease = .free) : s.interlockMet = false := by
  simp [State.interlockMet, State.interlockConditions, h]

theorem State.vacant.atRest_startedOn (hv : s.vacant) (hi : s.water.interlock = false) (hr : r ≠ .circ) :
    (s.startedOn p tag w i r l).atRest := by
  refine ⟨hv.calm_startedOn p tag w i, ?_⟩
  rw [(s.keepsBut_startedOn p tag w i r l).water, hi, interlockMet_circFree]
  rw [State.entry_startedOn, if_neg (Ne.symm hr)]
  exact (hv .circ).1

end Started

/-- The interlock alone is to be settled, with HEATER FREE. -/
theorem settleFor_interlock {s : State} (hc : s.calm) (hh : (s.entry .heater).lease = .free) (n : Nat) :
    s.settleFor n = { s with water := { s.water with interlock := s.interlockMet } } := by
  have hjudged : s.judge = { s with water := { s.water with interlock := s.interlockMet } } := by
    have hinter : s.settleInterlock = { s with water := { s.water with interlock := s.interlockMet } } := by
      unfold State.settleInterlock
      dsimp only
      split
      next h => rw [← h]
      next =>
        have hrestore : ({ s with water := { s.water with interlock := s.interlockMet } } : State).restore .heater =
            { s with water := { s.water with interlock := s.interlockMet } } := if_neg (by
          rw [show (({ s with water := { s.water with interlock := s.interlockMet } } : State).entry .heater).lease = .free from hh]
          decide)
        have hsuspend : ({ s with water := { s.water with interlock := s.interlockMet } } : State).suspend .heater =
            { s with water := { s.water with interlock := s.interlockMet } } := if_neg (by
          rw [show (({ s with water := { s.water with interlock := s.interlockMet } } : State).entry .heater).lease = .free from hh]
          decide)
        rw [hrestore, hsuspend, ite_self, ite_self]
    rw [State.judge, hinter]
    exact markBarred_same (.inl (hc .doorDrive).1)
  have hrest : ({ s with water := { s.water with interlock := s.interlockMet } } : State).atRest :=
    ⟨hc, (interlockMet_of (s := s) (t := { s with water := { s.water with interlock := s.interlockMet } }) rfl rfl rfl rfl).symm⟩
  cases n with
  | zero => exact hjudged
  | succ n =>
    have hstep : s.settleFor (n + 1) = ({ s with water := { s.water with interlock := s.interlockMet } } : State).settleFor (n + 1) := by
      conv => lhs; unfold State.settleFor
      conv => rhs; unfold State.settleFor
      rw [hjudged, hrest.judge]
    rw [hstep, hrest.settleFor]

/-- The slot that an accepted operation has. -/
def State.newSlot (s : State) (p : Port) (tag : Nat) (w : Work) : Slot := ⟨p, tag, w, s.accepted, s.laps, none⟩

/-- What stands when an operation has been accepted and granted its resource with everything FREE. -/
structure Started (s : State) (p : Port) (tag : Nat) (w : Work) (i : SlotId) (r : Resource) (l : LeaseState) (u : State) : Prop where
  self : u.pool[i] = some (s.newSlot p tag w)
  pool : ∀ j : SlotId, u.pool[j] = if j = i then some (s.newSlot p tag w) else s.pool[j]
  entry : ∀ q, u.entry q = if q = r then s.cfg.grantRecord s.drive.clock (washWho p i) (some p) l (s.entry r) else s.entry q
  entries : s.keepsEntriesBut u [r]
  frame : s.keepsBut u [.arb, .pool, .accepted, .ports, .sense]
  quiet : l ≠ .held ∨ (r ≠ .drain ∧ r ≠ .heater) → s.keepsBut u [.arb, .pool, .accepted, .ports]
  ports : u.ports = (s.setRx p .synced).ports
  calm : u.calm
  rest : r ≠ .circ → u.atRest
  drained : r = .drain → l = .held → u.sense = s.disturb.sense

/-- The switching of the drain pump at its grant is reported (R142). -/
theorem sense_startedOn_drain {s : State} (hv : s.vacant) (p : Port) (tag : Nat) (w : Work) (i : SlotId) :
    (s.startedOn p tag w i .drain .held).sense = s.disturb.sense := by
  have hdisturb : s.startedOn p tag w i .drain .held = ((s.withOperation p tag w i).putEntry .drain
      ((s.withOperation p tag w i).cfg.grantRecord (s.withOperation p tag w i).drive.clock (washWho p i)
        ((s.withOperation p tag w i).waiterPort (washWho p i)) .held ((s.withOperation p tag w i).entry .drain))).disturb := by
    refine if_neg fun h => ?_
    have hoff : (s.withOperation p tag w i).outputOn .drain = false := by
      rw [State.outputOn, (s.keepsBut_withOperation p tag w i).entry, (hv .drain).1]
      rfl
    have hon := (Prod.ext_iff.mp (Prod.ext_iff.mp h).2).1
    rw [show ((s.withOperation p tag w i).reportedOutputs.2.1) = (s.withOperation p tag w i).outputOn .drain from rfl, hoff] at hon
    simp [State.reportedOutputs, State.outputOn, Settings.grantRecord] at hon
  rw [hdisturb]
  show ({ (s.withOperation p tag w i).sense with groups := updAll Group.disturb (s.withOperation p tag w i).sense.groups } : Sense) = _
  rw [(s.keepsBut_withOperation p tag w i).sense]
  rfl

theorem started_startedOn {s : State} (hv : s.vacant) (hi : s.water.interlock = false) (p : Port) (tag : Nat) (w : Work) (i : SlotId)
    (r : Resource) (l : LeaseState) : Started s p tag w i r l (s.startedOn p tag w i r l) where
  self := s.pool_startedOn_self p tag w i r l
  pool j := by
    split
    next h => exact h ▸ s.pool_startedOn_self p tag w i r l
    next h => exact s.pool_startedOn_ne p tag w i r l h
  entry := s.entry_startedOn p tag w i r l
  entries q hq := by rw [State.entry_startedOn, if_neg (by simpa using hq)]
  frame := s.keepsBut_startedOn p tag w i r l
  quiet := State.keepsBut_startedOn_quiet p tag w i hv
  ports := s.ports_startedOn p tag w i r l
  calm := hv.calm_startedOn p tag w i
  rest := hv.atRest_startedOn p tag w i hi
  drained hr hl := by
    subst hr hl
    exact sense_startedOn_drain hv p tag w i

/-- An operation that asks for its resource as it is taken up, with everything FREE. -/
theorem operation_starts {s : State} {p : Port} {tag : Nat} {i : SlotId} {w : Work} {trips : Bool} {takeUp : State → SlotId → State}
    {r : Resource} (hacc : s.accepts p tag i) (htrip : trips = true → s.latched = false)
    (htake : ∀ u : State, u.pool[i] = some (s.newSlot p tag w) → takeUp u i = u.ask r (washWho p i) (s.newSlot p tag w).age none)
    (hv : s.vacant) (hi : s.water.interlock = false) (hr : r ≠ .selector ∧ r ≠ .inlet)
    (hg : r.guarded = true → s.doorClosed = true) (ht : r.inTripSet = true → s.latched = false) (hd : r ≠ .doorDrive) :
    ∃ u, s.operation p tag w trips takeUp = (u.ownerGranted r (washWho p i)).settleFor 127 ∧
      Started s p tag w i r (if r = .heater then .suspended else .held) u := by
  refine ⟨_, ?_, started_startedOn hv hi p tag w i r _⟩
  rw [operation_accepts w takeUp hacc htrip, ← settle_start p tag w i hv hi hr hg ht hd]
  exact congrArg State.settle (htake _ (s.pool_withOperation_self p tag w i))

/-! ### CIRCULATE -/

theorem takeUpCirc_asks {s : State} {i : SlotId} {sl : Slot} {w : CircWork} (h : s.pool[i] = some sl) (hw : sl.work = .circulate w)
    (ho : sl.outcome = none) (hr : 1 ≤ w.duty ∧ w.duty ≤ 255 ∧ 1 ≤ w.runTime ∧ w.runTime ≤ 7200) :
    s.takeUpCirc i = s.ask .circ (washWho sl.port i) sl.age none := by
  have hwho : slotWho i sl = washWho sl.port i := by simp [slotWho, hw, washWho]
  unfold State.takeUpCirc State.circAt
  simp only [h, hw, ho]
  rw [if_pos hr, hwho]

theorem circGranted_eq {s : State} {i : SlotId} {sl : Slot} {w : CircWork} (h : s.pool[i] = some sl) (hw : sl.work = .circulate w)
    (ho : sl.outcome = none) : s.circGranted i = { s with drive := { s.drive with circ := ⟨w.duty, 0, false⟩ } } := by
  unfold State.circGranted State.circAt
  simp only [h, hw, ho]

theorem circulateStarts : Clauses.CirculateStarts := by
  intro s p tag duty runTime i hacc hl hv hi hclosed hd1 hd2 hr1 hr2
  obtain ⟨u, hexec, hu⟩ := operation_starts (trips := false) (takeUp := State.takeUpCirc)
    (w := .circulate ⟨duty, runTime, Timer.zero, false⟩) hacc (fun h => by cases h)
    (fun u hp => (takeUpCirc_asks hp rfl rfl ⟨hd1, hd2, hr1, hr2⟩).trans rfl) hv hi (r := .circ) (by decide)
    (fun _ => hclosed) (fun _ => hl) (by decide)
  rw [if_neg (by decide)] at hu
  have k := hu.quiet (.inr (by decide))
  have hgranted : u.ownerGranted .circ (washWho p i) = { u with drive := { u.drive with circ := ⟨duty, 0, false⟩ } } :=
    circGranted_eq hu.self rfl rfl
  obtain ⟨v, hv'⟩ : ∃ v, v = ({ u with drive := { u.drive with circ := ⟨duty, 0, false⟩ } } : State) := ⟨_, rfl⟩
  have kv : u.keepsBut v [.drive] := hv' ▸ u.keepsBut_withDrive _
  have hcalm : v.calm := fun r => by
    rw [kv.entry]
    exact hu.calm r
  have hheater : (v.entry .heater).lease = .free := by
    rw [kv.entry, hu.entry, if_neg (by decide)]
    exact (hv .heater).1
  rw [hgranted, ← hv', settleFor_interlock hcalm hheater] at hexec
  have hmet : v.interlockMet = (s.waterPresent && s.water.probeValid) := by
    have hheld : (v.entry .circ).lease = .held := by
      rw [kv.entry, hu.entry, if_pos rfl]
      rfl
    have hwater : v.waterPresent = s.waterPresent := by
      simp only [State.waterPresent, State.roleHolder, kv.sense, k.sense]
    simp only [State.interlockMet, State.interlockConditions, hheld, hwater, State.doorClosed, kv.door, k.door, kv.water, k.water]
    simp [show s.door.door.value = true from hclosed]
  have kw := v.keepsBut_withWater { v.water with interlock := v.interlockMet }
  refine ⟨_, congrArg Host.Outcome.next hexec, fun j => ?_, ?_, ?_, ?_, fun r hr => ?_, ?_, ?_⟩
  · rw [kw.pool, kv.pool]
    exact hu.pool j
  · rw [kw.entry, kv.entry, hu.entry, if_pos rfl]
    rfl
  · rw [kw.drive, hv', k.drive]
  · show ({ v.water with interlock := v.interlockMet } : Water) = _
    rw [hmet, kv.water, k.water]
  · rw [kw.entry, kv.entry]
    exact hu.entries r hr
  · rw [kw.ports, kv.ports, hu.ports]
  · exact ((State.keepsBut_mono k (by decide)).step kv (by decide)).step kw (by decide)

/-! ### HEAT -/

theorem takeUpHeat_asks {s : State} {i : SlotId} {sl : Slot} {w : HeatWork} (h : s.pool[i] = some sl) (hw : sl.work = .heat w)
    (hr : 200 ≤ w.target ∧ w.target ≤ 750 ∧ 60 ≤ w.limit ∧ w.limit ≤ 7200) :
    s.takeUpHeat i = s.ask .heater (washWho sl.port i) sl.age none := by
  have hwho : slotWho i sl = washWho sl.port i := by simp [slotWho, hw, washWho]
  unfold State.takeUpHeat State.heatAt
  simp only [h, hw]
  rw [if_pos hr, hwho]

/-- The first grant of HEATER to a HEAT, with the interlock unmet. -/
theorem heatGranted_first {s : State} {i : SlotId} {sl : Slot} {w : HeatWork} (h : s.pool[i] = some sl) (hw : sl.work = .heat w)
    (hg : w.granted = false) (hm : s.interlockMet = false) (hr : ¬(s.water.probeValid = true ∧ w.target ≤ s.water.temperature)) :
    s.heatGranted i = s.setSlot i (some { sl with work := .heat { w with granted := true, passed := Timer.zero } }) := by
  have hmet : (s.setSlot i (some { sl with work := .heat { w with granted := true, passed := Timer.zero } })).interlockMet = false := hm
  have hreached : (!w.granted && s.water.probeValid && decide (w.target ≤ s.water.temperature)) = false := by
    simpa [hg] using hr
  unfold State.heatGranted State.heatAt
  simp only [h, hw, hreached, State.setWork_held h]
  simp only [hg, Bool.false_eq_true, if_false, hmet]

theorem heatStartsSuspended : Clauses.HeatStartsSuspended := by
  intro s p tag target limit i hacc hl hv hi hclosed ht1 ht2 hl1 hl2 hreached
  obtain ⟨u, hexec, hu⟩ := operation_starts (trips := false) (takeUp := State.takeUpHeat)
    (w := .heat ⟨target, limit, Timer.zero, false⟩) hacc (fun h => by cases h)
    (fun u hp => (takeUpHeat_asks hp rfl ⟨ht1, ht2, hl1, hl2⟩).trans rfl) hv hi (r := .heater) (by decide)
    (fun _ => hclosed) (fun _ => hl) (by decide)
  rw [if_pos rfl] at hu
  have k := hu.quiet (.inl (by decide))
  have hrest := hu.rest (by decide)
  have hmet : u.interlockMet = false := by rw [← hrest.2, k.water, hi]
  have hgranted : u.ownerGranted .heater (washWho p i) =
      u.setSlot i (some (s.newSlot p tag (.heat ⟨target, limit, Timer.zero, true⟩))) :=
    heatGranted_first hu.self rfl rfl hmet (by rw [k.water]; exact hreached)
  have kset := u.keepsBut_setSlot i (some (s.newSlot p tag (.heat ⟨target, limit, Timer.zero, true⟩)))
  rw [hgranted, (hrest.frame kset).settleFor] at hexec
  refine ⟨_, congrArg Host.Outcome.next hexec, fun j => ?_, ?_, fun r hr => ?_, ?_, ?_⟩
  · split
    next h =>
      subst h
      exact State.pool_setSlot_self _ _ _
    next h =>
      rw [State.pool_setSlot_ne _ h, hu.pool, if_neg h]
  · rw [kset.entry, hu.entry, if_pos rfl]
    rfl
  · rw [kset.entry]
    exact hu.entries r hr
  · rw [kset.ports, hu.ports]
  · exact (State.keepsBut_mono k (by decide)).step kset (by decide)

/-! ### DRAIN -/

theorem takeUpDrain_asks {s : State} {i : SlotId} {sl : Slot} {w : DrainWork} (h : s.pool[i] = some sl) (hw : sl.work = .drain w) :
    s.takeUpDrain i = s.ask .drain (washWho sl.port i) sl.age none := by
  have hwho : slotWho i sl = washWho sl.port i := by simp [slotWho, hw, washWho]
  unfold State.takeUpDrain State.drainAt
  simp only [h, hw]
  rw [hwho]

/-- A DRAIN that has just begun goes on while the tank is not read empty. -/
theorem drainGranted_goes {s : State} {i : SlotId} {sl : Slot} (h : s.pool[i] = some sl) (hw : sl.work = .drain ⟨Timer.zero, none⟩)
    (ha : s.waterAbsent = false) : s.drainGranted i = s := by
  have hset : s.setWork i (.drain ⟨Timer.zero, none⟩) = s := by
    rw [State.setWork_held h, ← hw, ← h, State.setSlot, upd_eq_self]
  unfold State.drainGranted State.judgeDrain State.drainAt
  rw [hset]
  simp only [h, hw, ha, ite_self]

theorem drainStarts : Clauses.DrainStarts := by
  intro s p tag i hacc hv hi habsent
  obtain ⟨u, hexec, hu⟩ := operation_starts (trips := false) (takeUp := State.takeUpDrain)
    (w := .drain ⟨Timer.zero, none⟩) hacc (fun h => by cases h)
    (fun u hp => (takeUpDrain_asks hp rfl).trans rfl) hv hi (r := .drain) (by decide) (fun h => by cases h)
    (fun h => by cases h) (by decide)
  rw [if_neg (by decide)] at hu
  have hsense := hu.drained rfl rfl
  have hgranted : u.ownerGranted .drain (washWho p i) = u := drainGranted_goes hu.self rfl (by
    simp only [State.waterAbsent, State.roleHolder, hsense]
    exact habsent)
  rw [hgranted, (hu.rest (by decide)).settleFor] at hexec
  refine ⟨u, congrArg Host.Outcome.next hexec, hu.pool, ?_, ?_, fun g m hm => ?_, ?_, ?_, hu.entries, hu.ports, hu.frame⟩
  · rw [hu.entry, if_pos rfl]
    rfl
  · rw [State.outputOn, hu.entry, if_pos rfl]
    rfl
  · rw [State.group_congr (s := s.disturb) hsense, State.group_disturb, Group.disturb, hm]
    rfl
  · rw [hsense]
    rfl
  · rw [hsense]
    rfl

end Sys2Proof.Machine

/-! A trigger offered to channels none of which is ARMED, and a HEAT that is DONE at its grant (R46, R99, R100). Settles O25. -/

namespace Sys2Proof.Machine

/-! ### Triggers that start no run -/

theorem triggerChannel_unarmed {s : State} {c : ChannelId} (h : (s.channel c).state ≠ .armed) :
    s.triggerChannel c = if (s.channel c).state = .idle then s else s.setChannel c { s.channel c with flag := true } := by
  unfold State.triggerChannel State.armedAct
  simp [h]

/-- What a trigger makes of a channel that is not ARMED: a loaded one that names it has its flag set. -/
def State.flagged (s : State) (src : TriggerSource) (c : ChannelId) : Channel :=
  if (s.channel c).state ≠ .idle ∧ sourceOf (s.currentDesc (s.channel c)).source = some src then { s.channel c with flag := true }
  else s.channel c

/-- The channels of a list are still to be offered a trigger. -/
structure Offering (s : State) (src : TriggerSource) (l : List ChannelId) (t : State) : Prop where
  todo : ∀ c ∈ l, t.channel c = s.channel c
  told : ∀ c, c ∉ l → t.channel c = s.flagged src c
  descs : t.dose.descs = s.dose.descs
  frame : s.keepsBut t [.dose]

/-- A trigger offered to one channel. -/
def State.offerTo (src : TriggerSource) (s : State) (c : ChannelId) : State :=
  if sourceOf (s.currentDesc (s.channel c)).source == some src then s.triggerChannel c else s

theorem Offering.step {s t : State} {src : TriggerSource} {c : ChannelId} {l : List ChannelId} (h : Offering s src (c :: l) t)
    (hn : c ∉ l) (ha : (s.channel c).state ≠ .armed) : Offering s src l (t.offerTo src c) := by
  have hc := h.todo c List.mem_cons_self
  have hdesc : t.currentDesc (s.channel c) = s.currentDesc (s.channel c) := by simp only [State.currentDesc, h.descs]
  have hto : t.offerTo src c = if (s.channel c).state ≠ .idle ∧ sourceOf (s.currentDesc (s.channel c)).source = some src
      then t.setChannel c { s.channel c with flag := true } else t := by
    unfold State.offerTo
    rw [triggerChannel_unarmed (by rw [hc]; exact ha), hc, hdesc]
    by_cases hi : (s.channel c).state = .idle <;> simp [hi]
  have hchan : ∀ d, (t.offerTo src c).channel d = if d = c then s.flagged src c else t.channel d := fun d => by
    rw [hto, State.flagged]
    split
    · rw [State.channel_setChannel]
    · split
      next e => rw [e, hc]
      next => rfl
  refine ⟨fun d hd => ?_, fun d hd => ?_, ?_, ?_⟩
  · rw [hchan, if_neg fun e : d = c => hn (e ▸ hd)]
    exact h.todo d (List.mem_cons_of_mem c hd)
  · rw [hchan]
    split
    next e => rw [e]
    next e => exact h.told d fun k => (List.mem_cons.mp k).elim e hd
  · rw [hto]
    split
    · exact h.descs
    · exact h.descs
  · rw [hto]
    split
    · exact h.frame.step (State.keepsBut_setChannel _ _ _) (List.Subset.refl _)
    · exact h.frame

theorem Offering.foldl {s : State} {src : TriggerSource} (ha : ∀ c, (s.channel c).state ≠ .armed) :
    ∀ (l : List ChannelId) (t : State), l.Nodup → Offering s src l t → Offering s src [] (l.foldl (State.offerTo src) t)
  | [], _, _, h => h
  | c :: l, _, hl, h => Offering.foldl ha l _ (List.nodup_cons.mp hl).2 (h.step (List.nodup_cons.mp hl).1 (ha c))

/-- A trigger offered where no channel is ARMED sets flags and does nothing else (R99, R100). -/
theorem offerTrigger_unarmed {s : State} (ha : ∀ c, (s.channel c).state ≠ .armed) (src : TriggerSource) :
    Offering s src [] (s.offerTrigger src) := by
  refine Offering.foldl ha allChannels s (by decide) ⟨fun _ _ => rfl, fun c hc => absurd ?_ hc, rfl, s.keepsBut_refl _⟩
  fin_cases c <;> decide

/-! ### The end of a HEAT -/

/-- A HEAT whose outcome is fixed has let HEATER go. -/
def State.heatLetGo (s : State) (i : SlotId) (sl : Slot) (o : OutcomeCode) : State :=
  (s.setSlot i (some { sl with outcome := some o })).releaseIf (washWho sl.port i) .heater

theorem finishHeat_eq {s : State} {i : SlotId} {sl : Slot} {w : HeatWork} {o : OutcomeCode} (h : s.pool[i] = some sl) (hw : sl.work = .heat w)
    (hh : ∀ q, s.holds (washWho sl.port i) q = true → q = .heater)
    (hwait : ∀ q, (s.heatLetGo i sl o).waitsFor (washWho sl.port i) q = false) (answer : Bool) :
    s.finishHeat i o answer = (if o = .done then ((s.heatLetGo i sl o).post .heatReached (portCode sl.port)
      (s.heatLetGo i sl o).water.temperature).offerTrigger .heatDone else s.heatLetGo i sl o).endSlot i o [] answer := by
  have hwho : slotWho i sl = washWho sl.port i := by simp [slotWho, hw, washWho]
  have hrelease : (s.setSlot i (some { sl with outcome := some o })).releaseAll (washWho sl.port i) = s.heatLetGo i sl o :=
    State.releaseAll_only (s := s.setSlot i (some { sl with outcome := some o })) hh
  unfold State.finishHeat State.heatAt
  simp only [h, hw, hwho]
  rw [State.fixOutcome_held h, hrelease, State.withdraw_absent hwait]

theorem State.reportedOutputs_putEntry_iff {s : State} {r : Resource} {e : Entry} (h : e.lease = .held ↔ (s.entry r).lease = .held) :
    (s.putEntry r e).reportedOutputs = s.reportedOutputs := by
  have hout : ∀ q, (s.putEntry r e).outputOn q = s.outputOn q := fun q => by
    simp only [State.outputOn, State.entry_putEntry]
    split
    next c => exact c ▸ Bool.eq_iff_iff.mpr (by simpa using h)
    next => rfl
  exact Prod.ext rfl (Prod.ext (hout _) (hout _))

/-- A SUSPENDED HEATER is let go: its output was off. -/
theorem release_heater_suspended {s : State} (h : (s.entry .heater).lease = .suspended) :
    s.release .heater = s.putEntry .heater (s.letFree .heater) := by
  rw [State.release_pump ⟨.inl h, fun e => by cases e⟩ (.inl rfl)]
  exact reportSwitching_same (State.reportedOutputs_putEntry_iff (by simp [State.letFree, h])).symm

theorem heatDoneAtItsGrant : Clauses.HeatDoneAtItsGrant := by
  intro s p tag target limit i hacc hl hv hi hclosed ht1 ht2 hl1 hl2 hvalid hreach harmed
  obtain ⟨u, hexec, hu⟩ := operation_starts (trips := false) (takeUp := State.takeUpHeat)
    (w := .heat ⟨target, limit, Timer.zero, false⟩) hacc (fun h => by cases h)
    (fun u hp => (takeUpHeat_asks hp rfl ⟨ht1, ht2, hl1, hl2⟩).trans rfl) hv hi (r := .heater) (by decide)
    (fun _ => hclosed) (fun _ => hl) (by decide)
  rw [if_pos rfl] at hu
  have k := hu.quiet (.inl (by decide))
  obtain ⟨sl, hsl⟩ : ∃ sl, sl = s.newSlot p tag (.heat ⟨target, limit, Timer.zero, true⟩) := ⟨_, rfl⟩
  have hreached : (true && s.water.probeValid && decide (target ≤ s.water.temperature)) = true := by simp [hvalid, hreach]
  have hgranted : u.ownerGranted .heater (washWho p i) = (u.setSlot i (some sl)).finishHeat i .done true := by
    show u.heatGranted i = _
    unfold State.heatGranted State.heatAt
    simp only [hu.self, State.newSlot, k.water, Bool.not_false, hreached, if_true, Bool.false_eq_true, if_false,
      State.setWork_held hu.self, hsl]
  have hlease : (u.entry .heater).lease = .suspended := by
    rw [hu.entry, if_pos rfl]
    rfl
  have hslot : (u.setSlot i (some sl)).setSlot i (some { sl with outcome := some .done }) =
      u.setSlot i (some { sl with outcome := some .done }) := State.setSlot_setSlot _ _ _ _
  have hholds : ∀ q, u.holds (washWho p i) q = true → q = .heater := fun q hq => by
    by_contra hne
    rw [State.holds_iff, hu.entry, if_neg hne] at hq
    exact hq.1 (hv q).1
  have hholder : u.holds (washWho p i) .heater = true := (State.holds_iff _ _ _).mpr
    ⟨by rw [hlease]; decide, by rw [hu.entry, if_pos rfl]; rfl⟩
  obtain ⟨v, hv'⟩ : ∃ v, v = (u.setSlot i (some { sl with outcome := some .done })).putEntry .heater (u.letFree .heater) := ⟨_, rfl⟩
  have hgo : (u.setSlot i (some sl)).heatLetGo i sl .done = v := by
    rw [State.heatLetGo, hslot, hv', State.releaseIf_holds (by rw [hsl]; exact hholder)]
    exact release_heater_suspended (s := u.setSlot i (some { sl with outcome := some .done })) hlease
  have hentry : ∀ q, v.entry q = if q = .heater then u.letFree .heater else u.entry q := fun q => by
    rw [hv']
    exact State.entry_putEntry (u.setSlot i _) .heater q _
  have kv : u.keepsBut v [.arb, .pool] := hv' ▸ (u.keepsBut_setSlot i _).cons (State.keepsBut_putEntry _ _ _)
  have hcalm : v.calm := fun q => by
    rw [hentry]
    split
    · exact ⟨(hu.calm .heater).1, rfl⟩
    · exact hu.calm q
  have hrest : v.atRest := by
    refine ⟨hcalm, ?_⟩
    rw [kv.water, k.water, hi, interlockMet_circFree]
    rw [hentry, if_neg (by decide), hu.entry, if_neg (by decide)]
    exact (hv .circ).1
  obtain ⟨x, hx⟩ : ∃ x, x = v.post .heatReached (portCode p) s.water.temperature := ⟨_, rfl⟩
  have kx : v.keepsBut x [.ports] := hx ▸ v.keepsBut_post _ _ _
  have hdose : x.dose = s.dose := by rw [kx.dose, kv.dose, k.dose]
  have hchannel : ∀ c, x.channel c = s.channel c := fun c => by simp only [State.channel, hdose]
  have hoffer := offerTrigger_unarmed (s := x) (fun c => by rw [hchannel]; exact harmed c) .heatDone
  obtain ⟨y, hy⟩ : ∃ y, y = x.offerTrigger .heatDone := ⟨_, rfl⟩
  rw [← hy] at hoffer
  have hpool : y.pool[i] = some { sl with outcome := some .done } := by
    rw [hoffer.frame.pool, kx.pool, hv']
    exact State.pool_setSlot_self _ _ _
  have kend : y.keepsBut ((y.send p (opResponse tag .done [])).setSlot i none) [.pool, .ports] :=
    (y.keepsBut_send _ _).cons (State.keepsBut_setSlot _ _ _)
  have hfinish : (u.setSlot i (some sl)).finishHeat i .done true = (y.send p (opResponse tag .done [])).setSlot i none := by
    rw [finishHeat_eq (State.pool_setSlot_self _ _ _) (w := ⟨target, limit, Timer.zero, true⟩) (by rw [hsl]; rfl)
      (by rw [hsl]; exact hholds) (fun q => by rw [hgo]; exact State.waitsFor_noWaiters (hcalm q).1 _), if_pos rfl, hgo]
    rw [show v.water.temperature = s.water.temperature by rw [kv.water, k.water], show sl.port = p by rw [hsl]; rfl, ← hx, ← hy,
      State.endSlot_answered hpool, hsl]
    rfl
  have hdone : ((y.send p (opResponse tag .done [])).setSlot i none).atRest :=
    (hrest.frame ((State.keepsBut_mono kx (by decide)).step hoffer.frame (l := [.ports, .dose]) (by decide))).frame kend
  rw [hgranted, hfinish, hdone.settleFor] at hexec
  have hfree : s.pool[i] = none := by simpa [State.freeSlot] using List.find?_some hacc.2.2.1
  have kall : s.keepsBut ((y.send p (opResponse tag .done [])).setSlot i none) [.arb, .pool, .accepted, .ports, .dose] :=
    (((State.keepsBut_mono k (by decide)).step kv (by decide)).step
      ((State.keepsBut_mono kx (by decide)).step hoffer.frame (l := [.ports, .dose]) (by decide)) (by decide)).step kend (by decide)
  have hback : ((y.send p (opResponse tag .done [])).setSlot i none).pool = s.pool := by
    refine Vector.ext fun j hj => ?_
    by_cases hji : (⟨j, hj⟩ : SlotId) = i
    · subst hji
      exact (State.pool_setSlot_self _ _ _).trans hfree.symm
    · refine (State.pool_setSlot_ne (y.send p (opResponse tag .done [])) hji none).trans ?_
      rw [(y.keepsBut_send _ _).pool, hoffer.frame.pool, kx.pool, hv']
      refine (State.pool_setSlot_ne u hji _).trans ?_
      exact (hu.pool ⟨j, hj⟩).trans (if_neg hji)
  have hflag : ∀ c, y.channel c = s.flagged .heatDone c := fun c => by
    rw [hoffer.told c (by simp)]
    simp only [State.flagged, hchannel, State.currentDesc, hdose]
    rfl
  refine ⟨_, congrArg Host.Outcome.next hexec, ?_, ?_, ?_, ?_, fun r hr => ?_, fun b hb => ?_⟩
  · rw [kend.entry, hoffer.frame.entry, kx.entry, hentry, if_pos rfl, State.letFree, releaseRecord_noWaiters (hu.calm .heater).1,
      hu.entry, if_pos rfl]
    have hy' := (hv .heater).2.2
    simp only [Settings.grantRecord, hy']
    rfl
  · have hports : v.ports = (s.setRx p .synced).ports := by rw [kv.ports, hu.ports]
    have hdrive : v.drive = (s.setRx p .synced).drive := by rw [kv.drive, k.drive, (s.keepsBut_setRx p .synced).drive]
    have hxports : y.ports = ((s.setRx p .synced).post .heatReached (portCode p) s.water.temperature).ports := by
      rw [hoffer.frame.ports, hx]
      exact State.ports_post_congr hports hdrive _ _ _
    show (y.send p (opResponse tag .done [])).ports = _
    simp only [State.send]
    cases p <;> simp only [State.setPort, State.port, hxports]
  · intro c
    rw [State.channel, kend.dose]
    exact hflag c
  · rw [kend.dose, hoffer.descs, hdose]
  · rw [kend.entry, hoffer.frame.entry, kx.entry, hentry, if_neg (by simpa using hr)]
    exact hu.entries r hr
  · by_cases hpool : b = .pool
    · subst hpool
      exact hback
    · exact kall b fun h => by
        simp only [List.mem_cons, List.not_mem_nil, or_false] at h hb
        tauto

/-- Settles O25. -/
theorem washOperationsStart : Obligations.WashOperationsStart :=
  ⟨circulateStarts, heatStartsSuspended, heatDoneAtItsGrant, drainStarts⟩

end Sys2Proof.Machine

/-! A FILL on its way to INLET: SELECTOR granted, the travel that arrives or fails (R23, R24, R35, R39). Settles O24 and O47. -/

namespace Sys2Proof.Machine

/-! ### Frames of leases let go, whatever they are -/

theorem State.keepsBut_freeLease (s : State) (r : Resource) : s.keepsBut (s.freeLease r) [.arb, .drive, .sense] :=
  ((State.keepsBut_mono (s.keepsBut_dropDrive r) (by decide)).step (State.keepsBut_putEntry _ _ _) (by decide)).step
    (State.keepsBut_reportSwitching s _) (by decide)

theorem State.keepsBut_writeRelease (s : State) (r : Resource) : s.keepsBut (s.writeRelease r) [.arb] := s.keepsBut_putEntry _ _

theorem State.keepsBut_startRetract (s : State) : s.keepsBut s.startRetract [.drive, .door] := s.keepsBut_withDriveDoor _ _

theorem State.keepsBut_letGo (s : State) (r : Resource) : s.keepsBut (s.letGo r) [.arb, .drive, .sense, .door] := by
  have kwrite := s.keepsBut_writeRelease r
  have kfree : s.keepsBut ((s.writeRelease r).freeLease r) [.arb, .drive, .sense, .door] :=
    (State.keepsBut_mono kwrite (by decide)).step (State.keepsBut_freeLease _ _) (by decide)
  unfold State.letGo
  split
  · exact s.keepsBut_refl _
  · exact s.keepsBut_refl _
  · exact kfree
  · exact kfree.step (State.keepsBut_withArb _ _) (by decide)
  · cases r with
    | circ =>
      dsimp only
      split
      · exact kfree
      · exact ((State.keepsBut_mono kwrite (by decide)).step (State.keepsBut_withDrive _ _) (by decide)).step
          (State.keepsBut_editEntry _ _ _) (by decide)
    | doorDrive =>
      exact ((State.keepsBut_mono kwrite (by decide)).step (State.keepsBut_startRetract _) (by decide)).step
        (State.keepsBut_editEntry _ _ _) (by decide)
    | _ => exact kfree

theorem State.keepsBut_release (s : State) (r : Resource) : s.keepsBut (s.release r) [.arb, .drive, .sense, .door] := by
  unfold State.release
  split
  · exact ((State.keepsBut_mono (s.keepsBut_writeRelease .inlet) (by decide)).step (State.keepsBut_freeLease _ _) (by decide)).step
      (State.keepsBut_letGo _ _) (by decide)
  · exact s.keepsBut_letGo r

theorem State.keepsBut_releaseIf (s : State) (who : Holder) (r : Resource) :
    s.keepsBut (s.releaseIf who r) [.arb, .drive, .sense, .door] := (s.keepsBut_release r).ite _ (s.keepsBut_refl _)

theorem State.keepsBut_releaseAll (s : State) (who : Holder) : s.keepsBut (s.releaseAll who) [.arb, .drive, .sense, .door] :=
  State.keepsBut.foldl _ (fun t r => t.keepsBut_releaseIf who r) _ (s.keepsBut_refl _)

theorem State.keepsBut_withdrawFrom (s : State) (who : Holder) (r : Resource) : s.keepsBut (s.withdrawFrom who r) [.arb, .sense] :=
  (s.keepsBut_editEntry r _).ite _ (s.keepsBut_refl _)

theorem State.keepsBut_withdraw (s : State) (who : Holder) : s.keepsBut (s.withdraw who) [.arb, .sense] :=
  State.keepsBut.foldl _ (fun t r => t.keepsBut_withdrawFrom who r) _ (s.keepsBut_refl _)

/-! ### The end of a FILL -/

theorem fillAt_eq {s : State} {i : SlotId} {sl : Slot} {w : FillWork} (h : s.pool[i] = some sl) (hw : sl.work = .fill w)
    (ho : sl.outcome = none) : s.fillAt i = some (sl, w) := by
  unfold State.fillAt
  simp only [h, hw, ho]

theorem slotWho_fill {i : SlotId} {sl : Slot} {w : FillWork} (hw : sl.work = .fill w) : slotWho i sl = washWho sl.port i := by
  simp [slotWho, hw, washWho]

/-- A FILL whose outcome is fixed has let go all that it holds. -/
def State.fillLetGo (s : State) (i : SlotId) (sl : Slot) (o : OutcomeCode) : State :=
  (s.setSlot i (some { sl with outcome := some o })).releaseAll (washWho sl.port i)

theorem State.keepsBut_fillLetGo (s : State) (i : SlotId) (sl : Slot) (o : OutcomeCode) :
    s.keepsBut (s.fillLetGo i sl o) [.pool, .arb, .drive, .sense, .door] :=
  (State.keepsBut_mono (s.keepsBut_setSlot _ _) (by decide)).step (State.keepsBut_releaseAll _ _) (by decide)

/-- The draw record of a FILL that has ended. -/
def State.fillDrawn (s : State) (i : SlotId) (sl : Slot) (w : FillWork) (o : OutcomeCode) : State :=
  (s.fillLetGo i sl o).appendDraw .wash w.softA w.softB w.bypass (if w.counted = 0 then s.acct.hardness else w.lastHardness) o

theorem takeBreakthrough_unmarked {s : State} {i : SlotId} (h : ∀ c, (s.column c).breakthrough ≠ some i) : s.takeBreakthrough i = s := by
  have ha : s.soft.colA.breakthrough ≠ some i := h .a
  have hb : s.soft.colB.breakthrough ≠ some i := h .b
  unfold State.takeBreakthrough
  simp only [if_neg ha, if_neg hb]

/-- The end of a FILL that nothing waits for and no breakthrough marks. -/
theorem finishFill_eq {s : State} {i : SlotId} {sl : Slot} {w : FillWork} {o : OutcomeCode} (h : s.pool[i] = some sl)
    (hw : sl.work = .fill w) (ho : sl.outcome = none)
    (hwait : ∀ q, (s.fillLetGo i sl o).waitsFor (washWho sl.port i) q = false) (hmark : ∀ c, (s.column c).breakthrough ≠ some i)
    (answer : Bool) : s.finishFill i o answer = (if o = .done ∨ o = .limit then (s.fillDrawn i sl w o).offerTrigger .fillDone
      else s.fillDrawn i sl w o).endSlot i o (fillFields w) answer := by
  have k := s.keepsBut_fillLetGo i sl o
  have hunmarked : ∀ c, ((s.fillLetGo i sl o).column c).breakthrough ≠ some i := fun c => by
    rw [State.column_congr k.soft]
    exact hmark c
  unfold State.finishFill
  simp only [fillAt_eq h hw ho, slotWho_fill hw]
  rw [State.fixOutcome_held h, show (s.setSlot i _).releaseAll (washWho sl.port i) = s.fillLetGo i sl o from rfl,
    State.withdraw_absent hwait, takeBreakthrough_unmarked hunmarked, show (s.fillLetGo i sl o).acct = s.acct from k.acct]
  rfl

/-! ### SELECTOR granted -/

/-- The position of the selector that is asked for. -/
def State.heldAt (s : State) (c : Column) : State := { s with arb := { s.arb with selHeld := c } }

/-- A grant of SELECTOR to the requester that asked alone: HELD where the selector stands there, else MOVING (R10, R23). -/
theorem State.grantLease_ask_selector {s : State} {who : Holder} (serial : Nat) (c : Column) (h : s.atRest)
    (hf : (s.entry .selector).lease = .free) :
    (s.ask .selector who serial (some c)).grantLease .selector ⟨who, serial, some c, false⟩ =
      if s.arb.selCurrent = some c then (s.heldAt c).grantedTo .selector who .held else (s.startTravel c).grantedTo .selector who .moving := by
  have k := s.keepsBut_ask .selector who serial (some c)
  have hport : (s.ask .selector who serial (some c)).waiterPort who = s.waiterPort who := by simp only [State.waiterPort, k.pool]
  have hcurrent : (s.ask .selector who serial (some c)).arb.selCurrent = s.arb.selCurrent := by
    rw [State.ask_eq]
    rfl
  have hheld : (s.ask .selector who serial (some c)).heldAt c = (s.heldAt c).ask .selector who serial (some c) := by
    rw [State.ask_eq, State.ask_eq]
    rfl
  have htravel : (s.ask .selector who serial (some c)).startTravel c = (s.startTravel c).ask .selector who serial (some c) := by
    rw [State.ask_eq, State.ask_eq]
    rfl
  have hgrantHeld := State.editEntry_granted_ask (s := s.heldAt c) (r := .selector) (who := who) serial (some c)
    (h.of rfl rfl rfl rfl) hf .held
  have hgrantMoving := State.editEntry_granted_ask (s := s.startTravel c) (r := .selector) (who := who) serial (some c)
    (h.of rfl rfl rfl rfl) hf .moving
  rw [← hheld] at hgrantHeld
  rw [← htravel] at hgrantMoving
  have hports : (s.heldAt c).waiterPort who = (s.ask .selector who serial (some c)).waiterPort who ∧
      (s.startTravel c).waiterPort who = (s.ask .selector who serial (some c)).waiterPort who := ⟨hport.symm, hport.symm⟩
  rw [hports.1] at hgrantHeld
  rw [hports.2] at hgrantMoving
  have hcfg : (s.ask .selector who serial (some c)).cfg = s.cfg ∧ (s.ask .selector who serial (some c)).drive = s.drive := ⟨k.cfg, k.drive⟩
  have hunfold : (s.ask .selector who serial (some c)).grantLease .selector ⟨who, serial, some c, false⟩ =
      if (s.ask .selector who serial (some c)).arb.selCurrent = some c then
        ((s.ask .selector who serial (some c)).heldAt c).editEntry .selector (Entry.granted (s.ask .selector who serial (some c)).cfg
          (s.ask .selector who serial (some c)).drive.clock ((s.ask .selector who serial (some c)).waiterPort who)
          ⟨who, serial, some c, false⟩ .held)
      else ((s.ask .selector who serial (some c)).startTravel c).editEntry .selector
        (Entry.granted (s.ask .selector who serial (some c)).cfg (s.ask .selector who serial (some c)).drive.clock
          ((s.ask .selector who serial (some c)).waiterPort who) ⟨who, serial, some c, false⟩ .moving) := rfl
  rw [hunfold, hcurrent, hcfg.1, hcfg.2]
  split
  · exact hgrantHeld
  · exact hgrantMoving

/-! ### SELECTOR HELD by a FILL -/

theorem State.isRegen_false {s : State} {who : Holder} (h : ∀ g, s.soft.regen = some g → regenWho g ≠ who) : s.isRegen who = false := by
  unfold State.isRegen
  split
  next g hg => simpa using h g hg
  next => rfl

/-- The part of a FILL that stands at its fill position with SELECTOR HELD, INLET FREE and eligible. -/
structure State.atPosition (s : State) (i : SlotId) (sl : Slot) (w : FillWork) : Prop where
  slot : s.pool[i] = some sl
  work : sl.work = .fill w
  outcome : sl.outcome = none
  held : (s.entry .selector).lease = .held
  holder : (s.entry .selector).holder = some (washWho sl.port i)
  regen : ∀ g, s.soft.regen = some g → regenWho g ≠ washWho sl.port i
  current : s.arb.selCurrent = some s.arb.selHeld
  service : s.inService = some s.arb.selHeld
  rest : s.atRest
  inlet : (s.entry .inlet).lease = .free
  drain : s.hasHolder .drain = false
  door : s.hasHolder .doorDrive = false
  closed : s.doorClosed = true
  latched : s.latched = false
  room : s.water.tank < s.cfg.tankLimit

/-- Such a FILL asks for INLET and is granted it at once (R25, R35). -/
theorem settleFor_selectorHeld {s : State} {i : SlotId} {sl : Slot} {w : FillWork} (h : s.atPosition i sl w) (n : Nat) :
    (s.selectorHeld (washWho sl.port i)).settleFor (n + 1) =
      (s.grantedTo .inlet (washWho sl.port i) .held).setSlot i (some { sl with work := .fill { w with noFlow := Timer.zero } }) := by
  have hask : s.selectorHeld (washWho sl.port i) = s.ask .inlet (washWho sl.port i) sl.age none := by
    have hposition : s.fillPosition (washWho sl.port i) = some s.arb.selHeld := by simp [State.fillPosition, h.service]
    have hchange : s.changePosition s.arb.selHeld = s := by
      unfold State.changePosition
      rw [if_neg (by simp [h.held, State.hasHolder, h.inlet]), if_pos h.current]
    unfold State.selectorHeld
    rw [State.isRegen_false h.regen, if_neg (by decide)]
    show s.fillSelectorHeld i = _
    unfold State.fillSelectorHeld
    simp only [fillAt_eq h.slot h.work h.outcome, slotWho_fill h.work, hposition]
    unfold State.toInlet
    rw [hchange]
    exact if_pos (by rw [h.held]; rfl)
  have hadmits : s.admits .inlet (washWho sl.port i) :=
    { free := h.inlet
      guarded := fun _ => ⟨h.closed, h.door⟩
      trip := fun _ => h.latched
      inlet := fun _ => ⟨h.drain, by simp [State.holdsHeld, h.held, h.holder]⟩
      drain := fun e => by cases e
      door := fun e => by cases e }
  have kgrant := State.keepsBut_grantedTo_quiet (s := s) (r := .inlet) (l := .held) (.inr (by decide)) (washWho sl.port i)
  have hgranted : (s.grantedTo .inlet (washWho sl.port i) .held).ownerGranted .inlet (washWho sl.port i) =
      (s.grantedTo .inlet (washWho sl.port i) .held).setSlot i (some { sl with work := .fill { w with noFlow := Timer.zero } }) := by
    have hslot : (s.grantedTo .inlet (washWho sl.port i) .held).pool[i] = some sl := by rw [kgrant.pool, h.slot]
    unfold State.ownerGranted
    dsimp only
    rw [State.isRegen_false (by rw [kgrant.soft]; exact h.regen), if_neg (by decide)]
    show State.fillInletGranted _ i = _
    unfold State.fillInletGranted
    simp only [fillAt_eq hslot h.work h.outcome]
    rw [kgrant.cfg, kgrant.water, if_neg (by have := h.room; omega), State.setWork_held hslot]
  have hrest := (h.rest.grantedTo (r := .inlet) (by decide) (washWho sl.port i) .held).frame
    (State.keepsBut_setSlot _ i (some { sl with work := .fill { w with noFlow := Timer.zero } }))
  rw [hask, settleFor_ask _ _ _ h.rest hadmits, State.grantLease_ask _ _ h.rest h.inlet (by decide), if_neg (by decide), hgranted,
    hrest.settleFor]

end Sys2Proof.Machine

/-! FILL taken up, SELECTOR_ARRIVAL and SELECTOR_TIMEOUT (R23, R24, R35). Settles O24 and O47. -/

namespace Sys2Proof.Machine

/-! ### FILL taken up -/

theorem setWork_same {s : State} {i : SlotId} {sl : Slot} (h : s.pool[i] = some sl) : s.setSlot i (some sl) = s := by
  rw [← h, State.setSlot, upd_eq_self]

/-- A FILL that has a position asks for SELECTOR there. -/
theorem takeUpFill_asks {s : State} {i : SlotId} {sl : Slot} {w : FillWork} {c : Column} (h : s.pool[i] = some sl)
    (hw : sl.work = .fill w) (ho : sl.outcome = none) (hsoft : w.waitSoft = false) (hv : 1 ≤ w.requested ∧ w.requested ≤ 100)
    (hc : s.inService = some c) : s.takeUpFill i = s.ask .selector (washWho sl.port i) sl.age (some c) := by
  have hsame : (.fill { w with waitSoft := false } : Work) = sl.work := by
    rw [hw]
    cases w
    simp_all
  have hposition : s.fillPosition (washWho sl.port i) = some c := by simp [State.fillPosition, hc]
  unfold State.takeUpFill State.fillAsks
  simp only [fillAt_eq h hw ho, slotWho_fill hw, if_pos hv, hposition, State.setWork_held h]
  rw [hsame, setWork_same h]

/-- SELECTOR is granted to a FILL in a part at rest: HELD it goes on to INLET, MOVING it waits for the travel. -/
theorem selectorGranted_fill {s : State} {who : Holder} (hr : ∀ g, s.soft.regen = some g → regenWho g ≠ who) :
    s.ownerGranted .selector who = if (s.entry .selector).lease = .held then s.selectorHeld who else s := by
  show s.selectorGranted who = _
  unfold State.selectorGranted
  simp only [State.isRegen_false hr, Bool.false_eq_true, if_false]

theorem State.keepsBut_heldAt (s : State) (c : Column) : s.keepsBut (s.heldAt c) [.arb] := s.keepsBut_withArb _

theorem State.keepsBut_startTravel (s : State) (c : Column) : s.keepsBut (s.startTravel c) [.arb, .drive] :=
  (State.keepsBut_mono (s.keepsBut_withArb { s.arb with selHeld := c, selCurrent := none }) (by decide)).step
    (State.keepsBut_withDrive { s with arb := { s.arb with selHeld := c, selCurrent := none } }
      { s.drive with travel := some Timer.zero, travelReading := none }) (by decide)

theorem State.arb_grantedTo_rest (s : State) (r : Resource) (who : Holder) (l : LeaseState) :
    (s.grantedTo r who l).arb.selHeld = s.arb.selHeld ∧ (s.grantedTo r who l).arb.selCurrent = s.arb.selCurrent := by
  unfold State.grantedTo reportSwitching
  split <;> exact ⟨rfl, rfl⟩

/-- A FILL accepted with everything FREE, a column in service and room in the tank. -/
structure FillAccepted (s : State) (p : Port) (tag volume : Nat) (i : SlotId) (c : Column) (u : State) : Prop where
  self : u.pool[i] = some (s.newSlot p tag (.fill (freshFill volume)))
  pool : ∀ j : SlotId, u.pool[j] = if j = i then some (s.newSlot p tag (.fill (freshFill volume))) else s.pool[j]
  frame : s.keepsBut u [.pool, .accepted, .ports]
  ports : u.ports = (s.setRx p .synced).ports
  port : u.waiterPort (washWho p i) = some p
  vacant : u.vacant
  rest : u.atRest
  service : u.inService = some c
  regen : ∀ g, u.soft.regen = some g → regenWho g ≠ washWho p i
  closed : u.doorClosed = true
  latched : u.latched = false
  room : u.water.tank < u.cfg.tankLimit

theorem fillAccepted {s : State} {p : Port} {tag volume : Nat} {i : SlotId} {c : Column} (hl : s.latched = false) (hv : s.vacant)
    (hi : s.water.interlock = false) (hclosed : s.doorClosed = true) (hservice : s.inService = some c)
    (hroom : s.water.tank < s.cfg.tankLimit) (hregen : ∀ g, s.soft.regen = some g → g.requester ≠ some (p, i)) :
    FillAccepted s p tag volume i c (s.withOperation p tag (.fill (freshFill volume)) i) := by
  have k := s.keepsBut_withOperation p tag (.fill (freshFill volume)) i
  have hvu : (s.withOperation p tag (.fill (freshFill volume)) i).vacant := hv.of_entries k.entry
  refine ⟨s.pool_withOperation_self _ _ _ _, fun j => ?_, k, s.ports_withOperation _ _ _ _, s.waiterPort_withOperation _ _ _ _, hvu,
    hvu.atRest (by rw [k.water, hi]), ?_, fun g hg hwho => ?_, ?_, ?_, ?_⟩
  · split
    next h => exact h ▸ s.pool_withOperation_self p tag (.fill (freshFill volume)) i
    next h => exact s.pool_withOperation_ne _ _ _ _ h
  · rw [← hservice]
    simp only [State.inService, k.soft]
  · rw [k.soft] at hg
    refine hregen g hg ?_
    unfold regenWho at hwho
    split at hwho
    · cases hwho
    next hreq =>
      cases hwho
      exact hreq
  · simp only [State.doorClosed, k.door]
    exact hclosed
  · simp only [State.latched, k.prot]
    exact hl
  · rw [k.water, k.cfg]
    exact hroom

section Granted

variable {s u : State} {p : Port} {tag volume : Nat} {i : SlotId} {c : Column}

/-- The entry of a resource as this FILL has it when it is granted it. -/
def State.fillGrant (s : State) (p : Port) (i : SlotId) (l : LeaseState) (r : Resource) : Entry :=
  s.cfg.grantRecord s.drive.clock (washWho p i) (some p) l (s.entry r)

/-- What a FILL has become part of once `settle` is done. -/
structure FillGranted (s : State) (p : Port) (tag volume : Nat) (i : SlotId) (c : Column) (t : State) : Prop where
  pool : ∀ j : SlotId, t.pool[j] = if j = i then some (s.newSlot p tag (.fill (freshFill volume))) else s.pool[j]
  held : t.arb.selHeld = c
  ports : t.ports = (s.setRx p .synced).ports
  entries : s.keepsEntriesBut t [.selector, .inlet]
  frame : s.keepsBut t [.arb, .pool, .accepted, .ports, .drive]

/-- The selector stands at the position: SELECTOR HELD, and INLET in the same step. -/
theorem FillAccepted.held (h : FillAccepted s p tag volume i c u) (hc : u.arb.selCurrent = some c) :
    ∃ t, (((u.heldAt c).grantedTo .selector (washWho p i) .held).ownerGranted .selector (washWho p i)).settleFor 127 = t ∧
      FillGranted s p tag volume i c t ∧ t.entry .selector = s.fillGrant p i .held .selector ∧
      t.entry .inlet = s.fillGrant p i .held .inlet ∧ t.arb.selCurrent = some c ∧ t.drive = s.drive := by
  obtain ⟨x, hx⟩ : ∃ x, x = (u.heldAt c).grantedTo .selector (washWho p i) .held := ⟨_, rfl⟩
  have kx : u.keepsBut x [.arb] := hx ▸ (u.keepsBut_heldAt c).step (State.keepsBut_grantedTo_quiet (.inr (by decide)) _) (by decide)
  have hxentry : ∀ q, x.entry q = if q = .selector then s.fillGrant p i .held .selector else s.entry q := fun q => by
    have he := State.entry_grantedTo (u.heldAt c) .selector (washWho p i) .held q
    rw [← hx] at he
    rw [he]
    show (if q = .selector then u.cfg.grantRecord u.drive.clock (washWho p i) (u.waiterPort (washWho p i)) .held (u.entry .selector)
      else u.entry q) = _
    rw [h.port, h.frame.cfg, h.frame.drive, h.frame.entry, h.frame.entry]
    rfl
  have harb : x.arb.selHeld = c ∧ x.arb.selCurrent = some c := by
    obtain ⟨h1, h2⟩ := State.arb_grantedTo_rest (u.heldAt c) .selector (washWho p i) .held
    rw [hx, h1, h2]
    exact ⟨rfl, hc⟩
  have hfree : ∀ q, q ≠ .selector → x.hasHolder q = false := fun q hq => by
    rw [State.hasHolder, hxentry, if_neg hq, ← h.frame.entry]
    exact h.vacant.noHolder q
  have hposition : x.atPosition i (s.newSlot p tag (.fill (freshFill volume))) (freshFill volume) :=
    { slot := by rw [kx.pool, h.self]
      work := rfl
      outcome := rfl
      held := by rw [hxentry, if_pos rfl]; rfl
      holder := by rw [hxentry, if_pos rfl]; rfl
      regen := by rw [kx.soft]; exact h.regen
      current := by rw [harb.1, harb.2]
      service := by
        rw [harb.1, ← h.service]
        simp only [State.inService, kx.soft]
      rest := hx ▸ State.atRest.grantedTo (s := u.heldAt c) (h.rest.of rfl rfl rfl rfl) (by decide) _ _
      inlet := by
        rw [hxentry, if_neg (by decide), ← h.frame.entry]
        exact (h.vacant .inlet).1
      drain := hfree _ (by decide)
      door := hfree _ (by decide)
      closed := by simp only [State.doorClosed, kx.door]; exact h.closed
      latched := by simp only [State.latched, kx.prot]; exact h.latched
      room := by rw [kx.water, kx.cfg]; exact h.room }
  obtain ⟨y, hy⟩ : ∃ y, y = x.grantedTo .inlet (washWho p i) .held := ⟨_, rfl⟩
  have ky : x.keepsBut y [.arb] := hy ▸ State.keepsBut_grantedTo_quiet (.inr (by decide)) _
  have hyport : x.waiterPort (washWho p i) = some p := by
    rw [← h.port]
    simp only [State.waiterPort, kx.pool]
  have hyentry : ∀ q, y.entry q = if q = .inlet then s.fillGrant p i .held .inlet else x.entry q := fun q => by
    rw [hy, State.entry_grantedTo, hyport, kx.cfg, h.frame.cfg, kx.drive, h.frame.drive, hxentry .inlet, if_neg (by decide : Resource.inlet ≠ .selector)]
    rfl
  have hyarb : y.arb.selHeld = c ∧ y.arb.selCurrent = some c := by
    obtain ⟨h1, h2⟩ := State.arb_grantedTo_rest x .inlet (washWho p i) .held
    rw [hy, h1, h2]
    exact harb
  have hypool : y.pool = u.pool := by rw [ky.pool, kx.pool]
  have hsettled : (x.ownerGranted .selector (washWho p i)).settleFor 127 = y := by
    rw [selectorGranted_fill (by rw [kx.soft]; exact h.regen), if_pos hposition.held]
    refine (settleFor_selectorHeld hposition 126).trans ?_
    have hslot : y.pool[i] = some (s.newSlot p tag (.fill (freshFill volume))) := by rw [hypool, h.self]
    have hsame := setWork_same hslot
    rw [hy] at hsame
    exact hsame.trans hy.symm
  refine ⟨y, hx ▸ hsettled, ⟨fun j => by rw [hypool]; exact h.pool j, hyarb.1, by rw [ky.ports, kx.ports, h.ports], fun q hq => ?_,
    ((State.keepsBut_mono h.frame (by decide)).step kx (by decide)).step ky (by decide)⟩, ?_, ?_, hyarb.2, ?_⟩
  · simp only [List.mem_cons, List.not_mem_nil, or_false, not_or] at hq
    rw [hyentry, if_neg hq.2, hxentry, if_neg hq.1]
  · rw [hyentry, if_neg (by decide), hxentry, if_pos rfl]
  · rw [hyentry, if_pos rfl]
  · rw [ky.drive, kx.drive, h.frame.drive]

/-- The selector stands elsewhere: it travels. -/
theorem FillAccepted.moving (h : FillAccepted s p tag volume i c u) :
    ∃ t, (((u.startTravel c).grantedTo .selector (washWho p i) .moving).ownerGranted .selector (washWho p i)).settleFor 127 = t ∧
      FillGranted s p tag volume i c t ∧ t.entry .selector = s.fillGrant p i .moving .selector ∧
      t.entry .inlet = s.entry .inlet ∧ t.arb.selCurrent = none ∧
      t.drive = { s.drive with travel := some Timer.zero, travelReading := none } := by
  obtain ⟨x, hx⟩ : ∃ x, x = (u.startTravel c).grantedTo .selector (washWho p i) .moving := ⟨_, rfl⟩
  have kgrant : (u.startTravel c).keepsBut x [.arb] := hx ▸ State.keepsBut_grantedTo_quiet (.inr (by decide)) _
  have kx : u.keepsBut x [.arb, .drive] := (u.keepsBut_startTravel c).step kgrant (by decide)
  have hxentry : ∀ q, x.entry q = if q = .selector then s.fillGrant p i .moving .selector else s.entry q := fun q => by
    have he := State.entry_grantedTo (u.startTravel c) .selector (washWho p i) .moving q
    rw [← hx] at he
    rw [he]
    show (if q = .selector then u.cfg.grantRecord u.drive.clock (washWho p i) (u.waiterPort (washWho p i)) .moving (u.entry .selector)
      else u.entry q) = _
    rw [h.port, h.frame.cfg, h.frame.drive, h.frame.entry, h.frame.entry]
    rfl
  have hlease : (x.entry .selector).lease = .moving := by
    rw [hxentry, if_pos rfl]
    rfl
  have hrest : x.atRest := hx ▸ State.atRest.grantedTo (s := u.startTravel c) (h.rest.of rfl rfl rfl rfl) (by decide) _ _
  have hsettled : (x.ownerGranted .selector (washWho p i)).settleFor 127 = x := by
    rw [selectorGranted_fill (by rw [kx.soft]; exact h.regen), if_neg (by rw [hlease]; decide), hrest.settleFor]
  obtain ⟨h1, h2⟩ := State.arb_grantedTo_rest (u.startTravel c) .selector (washWho p i) .moving
  rw [← hx] at h1 h2
  refine ⟨x, hx ▸ hsettled, ⟨fun j => by rw [kx.pool]; exact h.pool j, h1, by rw [kx.ports, h.ports], fun q hq => ?_,
    (State.keepsBut_mono h.frame (by decide)).step kx (by decide)⟩, ?_, ?_, h2, ?_⟩
  · simp only [List.mem_cons, List.not_mem_nil, or_false, not_or] at hq
    rw [hxentry, if_neg hq.1]
  · rw [hxentry, if_pos rfl]
  · rw [hxentry, if_neg (by decide)]
  · rw [kgrant.drive]
    show ({ u.drive with travel := some Timer.zero, travelReading := none } : Drive) = _
    rw [h.frame.drive]

end Granted

/-- Settles O24. -/
theorem fillStarts : Obligations.FillStarts := by
  intro s p tag volume i c hacc hl hv hi hclosed hv1 hv2 hservice hroom hregen
  obtain ⟨u, hu⟩ : ∃ u, u = s.withOperation p tag (.fill (freshFill volume)) i := ⟨_, rfl⟩
  have h : FillAccepted s p tag volume i c u := hu ▸ fillAccepted hl hv hi hclosed hservice hroom hregen
  have hexec : exec (.fill p tag volume) s = .next (((((if u.arb.selCurrent = some c then (u.heldAt c).grantedTo .selector (washWho p i) .held
      else (u.startTravel c).grantedTo .selector (washWho p i) .moving)).ownerGranted .selector (washWho p i))).settleFor 127) := by
    refine congrArg Host.Outcome.next ((operation_accepts _ _ hacc fun _ => hl).trans ?_)
    have htake := takeUpFill_asks h.self rfl rfl rfl ⟨hv1, hv2⟩ h.service
    have hadmits : u.admits .selector (washWho p i) := h.vacant.admits _ (by decide) (fun e => by cases e) (fun e => by cases e)
      (fun e => by cases e)
    rw [show (s.setRx p .synced).accept p tag (.fill (freshFill volume)) i = u from hu.symm, htake, State.settle,
      show (s.newSlot p tag (.fill (freshFill volume))).port = p from rfl, settleFor_ask _ _ _ h.rest hadmits,
      State.grantLease_ask_selector _ _ h.rest hadmits.free]
  have hsame : u.arb.selCurrent = s.arb.selCurrent := congrArg Arbiter.selCurrent h.frame.arb
  by_cases hc : s.arb.selCurrent = some c
  · obtain ⟨t, ht, hg, hsel, hinlet, hcur, hdrive⟩ := h.held (hsame.trans hc)
    rw [if_pos (hsame.trans hc), ht] at hexec
    exact ⟨t, hexec, hg.pool, by rw [if_pos hc]; exact hsel, hg.held, fun _ => ⟨hcur, hinlet, hdrive⟩, fun k => absurd hc k, hg.entries,
      hg.ports, hg.frame⟩
  · obtain ⟨t, ht, hg, hsel, hinlet, hcur, hdrive⟩ := h.moving
    rw [if_neg (hsame ▸ hc), ht] at hexec
    exact ⟨t, hexec, hg.pool, by rw [if_neg hc]; exact hsel, hg.held, fun k => absurd k hc, fun _ => ⟨hcur, hinlet, hdrive⟩, hg.entries,
      hg.ports, hg.frame⟩

end Sys2Proof.Machine

/-! SELECTOR_ARRIVAL and SELECTOR_TIMEOUT of a FILL's travel (R23, R24, R150, R151). Settles O47. -/

namespace Sys2Proof.Machine

/-- A part at rest in which one entry other than CIRC's has changed, without a waiter and not asked to yield. -/
theorem State.atRest.ofEntry {s t : State} {r : Resource} (h : s.atRest) (hc : r ≠ .circ) (he : ∀ q, q ≠ r → t.entry q = s.entry q)
    (hr : (t.entry r).waiters = [] ∧ (t.entry r).yieldRequested = false) (hp : t.sense.points = s.sense.points)
    (hf : t.door.door = s.door.door) (hw : t.water = s.water) : t.atRest := by
  refine ⟨fun q => ?_, ?_⟩
  · by_cases hq : q = r
    · rw [hq]
      exact hr
    · rw [he q hq]
      exact h.1 q
  · rw [interlockMet_of (congrArg Entry.lease (he .circ (Ne.symm hc))) hp hf (congrArg Water.probeValid hw), hw, h.2]

theorem State.keepsBut_arrived (s : State) : s.keepsBut s.arrived [.arb, .drive] :=
  (State.keepsBut_mono (s.keepsBut_withArb { s.arb with selCurrent := some s.arb.selHeld }) (by decide)).step
    (State.keepsBut_withDrive { s with arb := { s.arb with selCurrent := some s.arb.selHeld } }
      { s.drive with travel := none, travelReading := none }) (by decide)

theorem selectorArrives : Clauses.SelectorArrives := by
  intro s i sl w hl hholder harr hp hw ho hregen hservice hrest hinlet hdrain hdoor hclosed hlatch hroom
  have hcondition := yieldCondition_noWaiters (g := s.cfg) (clock := s.drive.clock)
    (e := { s.entry .selector with lease := .held }) (hrest.1 .selector).1
  obtain ⟨x, hx⟩ : ∃ x, x = s.arrived.putEntry .selector { s.entry .selector with lease := .held, yieldRequested := false } := ⟨_, rfl⟩
  have hedit : s.arrived.editEntry .selector (fun e => { e with lease := .held }) = x := by
    rw [State.editEntry_quiet (.inr (by decide)), hx]
    exact congrArg (fun b => s.arrived.putEntry .selector { s.entry .selector with lease := .held, yieldRequested := b }) hcondition
  have kx : s.keepsBut x [.arb, .drive] := hx ▸ s.keepsBut_arrived.step (State.keepsBut_putEntry _ .selector _) (by decide)
  have hxentry : ∀ q, x.entry q = if q = .selector then { s.entry .selector with lease := .held, yieldRequested := false }
      else s.entry q := fun q => by
    rw [hx, State.entry_putEntry]
    rfl
  have hxarb : x.arb.selHeld = s.arb.selHeld ∧ x.arb.selCurrent = some s.arb.selHeld := hx ▸ ⟨rfl, rfl⟩
  have hholderOf : ∀ q, q ≠ .selector → x.hasHolder q = s.hasHolder q := fun q hq => by
    rw [State.hasHolder, hxentry, if_neg hq]
    rfl
  have hposition : x.atPosition i sl w :=
    { slot := by rw [kx.pool, hp]
      work := hw
      outcome := ho
      held := by rw [hxentry, if_pos rfl]
      holder := by rw [hxentry, if_pos rfl, hholder]; rfl
      regen := by rw [kx.soft]; exact hregen
      current := by rw [hxarb.1, hxarb.2]
      service := by
        rw [hxarb.1, ← hservice]
        simp only [State.inService, kx.soft]
      rest := hrest.ofEntry (r := .selector) (by decide) (fun q hq => by rw [hxentry, if_neg hq])
        (by rw [hxentry, if_pos rfl]; exact ⟨(hrest.1 .selector).1, rfl⟩) (by rw [kx.sense]) (by rw [kx.door]) kx.water
      inlet := by rw [hxentry, if_neg (by decide), hinlet]
      drain := by rw [hholderOf _ (by decide), hdrain]
      door := by rw [hholderOf _ (by decide), hdoor]
      closed := by simp only [State.doorClosed, kx.door]; exact hclosed
      latched := by simp only [State.latched, kx.prot]; exact hlatch
      room := by rw [kx.water, kx.cfg]; exact hroom }
  obtain ⟨y, hy⟩ : ∃ y, y = (x.grantedTo .inlet (washWho sl.port i) .held).setSlot i
      (some { sl with work := .fill { w with noFlow := Timer.zero } }) := ⟨_, rfl⟩
  have ky : x.keepsBut y [.arb, .pool] := hy ▸ (State.keepsBut_mono (State.keepsBut_grantedTo_quiet (s := x) (r := .inlet) (l := .held)
    (.inr (by decide)) (washWho sl.port i)) (by decide)).step (State.keepsBut_setSlot _ _ _) (by decide)
  have hyentry : ∀ q, y.entry q = if q = .inlet then x.cfg.grantRecord x.drive.clock (washWho sl.port i)
      (x.waiterPort (washWho sl.port i)) .held (x.entry .inlet) else x.entry q := fun q => hy ▸ State.entry_grantedTo _ _ _ _ q
  have hyarb : y.arb.selHeld = x.arb.selHeld ∧ y.arb.selCurrent = x.arb.selCurrent := hy ▸ State.arb_grantedTo_rest _ _ _ _
  have hdrive : x.drive = { s.drive with travel := none, travelReading := none } := hx ▸ rfl
  have hsel : y.entry .selector = { s.entry .selector with lease := .held, yieldRequested := false } := by
    rw [hyentry, if_neg (by decide), hxentry, if_pos rfl]
  have hinl : y.entry .inlet = x.cfg.grantRecord x.drive.clock (washWho sl.port i) (x.waiterPort (washWho sl.port i)) .held
      (x.entry .inlet) := by rw [hyentry, if_pos rfl]
  refine ⟨y, ?_, by rw [hsel], by rw [hsel], by rw [hyarb.2, hxarb.2], by rw [hyarb.1, hxarb.1], ?_, by rw [ky.drive, hdrive], by rw [hinl]; rfl,
    by rw [hinl]; rfl, fun q hq => ?_, (State.keepsBut_mono kx (by decide)).step ky (by decide)⟩
  · show Host.Outcome.next s.selectorArrive = _
    rw [State.selectorArrive_eq, if_pos ⟨hl, harr⟩, hholder, hy]
    show Host.Outcome.next (((s.arrived.editEntry .selector fun e => { e with lease := .held }).selectorHeld (washWho sl.port i)).settleFor 128) = _
    rw [hedit, settleFor_selectorHeld hposition 127]
  · unfold State.selMotor
    rw [hsel]
    rfl
  · simp only [List.mem_cons, List.not_mem_nil, or_false, not_or] at hq
    rw [hyentry, if_neg hq.2, hxentry, if_neg hq.1]

/-! ### The travel that fails -/

theorem freeLease_selector_moving {s : State} (h : (s.entry .selector).lease = .moving) :
    s.freeLease .selector = (s.dropDrive .selector).putEntry .selector (s.entry .selector).freed :=
  reportSwitching_same (State.reportedOutputs_putEntry_iff (s := s.dropDrive .selector) (by
    show _ ↔ (s.entry .selector).lease = .held
    simp [Entry.freed, h])).symm

section Failed

variable {s : State} (h : (s.entry .selector).lease = .moving)
include h

theorem travelFailed_freed : (s.fault .selectorTimeout 0 (columnCode s.arb.selHeld)).freeLease .selector =
    ((s.fault .selectorTimeout 0 (columnCode s.arb.selHeld)).dropDrive .selector).putEntry .selector (s.entry .selector).freed := by
  have he := (s.keepsBut_fault .selectorTimeout 0 (columnCode s.arb.selHeld)).entry
  rw [freeLease_selector_moving (by rw [he, h]), he]

theorem State.keepsBut_travelFailed : s.keepsBut s.travelFailed [.ports, .prot, .arb, .drive] := by
  unfold State.travelFailed
  rw [travelFailed_freed h]
  exact ((State.keepsBut_mono (s.keepsBut_fault .selectorTimeout 0 (columnCode s.arb.selHeld)) (by decide)).step
    (State.keepsBut_withDrive _ { (s.fault .selectorTimeout 0 (columnCode s.arb.selHeld)).drive with travel := none, travelReading := none })
    (by decide)).step (State.keepsBut_withArb _ _) (by decide)

theorem State.entry_travelFailed (q : Resource) :
    s.travelFailed.entry q = if q = .selector then (s.entry .selector).freed else s.entry q := by
  have he := (s.keepsBut_fault .selectorTimeout 0 (columnCode s.arb.selHeld)).entry q
  unfold State.travelFailed
  rw [travelFailed_freed h, ← he]
  exact State.entry_putEntry _ _ _ _

theorem State.drive_travelFailed : s.travelFailed.drive = { s.drive with travel := none, travelReading := none } := by
  unfold State.travelFailed
  rw [travelFailed_freed h, ← (s.keepsBut_fault .selectorTimeout 0 (columnCode s.arb.selHeld)).drive]
  rfl

theorem State.faults_travelFailed : s.travelFailed.ports = (s.fault .selectorTimeout 0 (columnCode s.arb.selHeld)).ports ∧
    s.travelFailed.prot = (s.fault .selectorTimeout 0 (columnCode s.arb.selHeld)).prot := by
  unfold State.travelFailed
  rw [travelFailed_freed h]
  exact ⟨rfl, rfl⟩

theorem State.atRest.travelFailed (hr : s.atRest) : s.travelFailed.atRest := by
  have k := State.keepsBut_travelFailed h
  refine hr.ofEntry (r := .selector) (by decide) (fun q hq => by rw [State.entry_travelFailed h, if_neg hq]) ?_ (by rw [k.sense])
    (by rw [k.door]) k.water
  rw [State.entry_travelFailed h, if_pos rfl]
  exact ⟨(hr.1 .selector).1, rfl⟩

end Failed

theorem State.acct_appendDraw (s : State) (p : Purpose) (x y z hd : Nat) (o : OutcomeCode) :
    (s.appendDraw p x y z hd o).acct.log.getLast? = some ⟨s.acct.nextDraw, p, x, y, z, hd, o, s.drive.clock⟩ := by
  unfold State.appendDraw
  exact List.getLast?_concat

/-- A captured fault fills its group, or leaves the fault that stands there. -/
theorem State.group_fault {s : State} {k : FaultKind} (h : s.cfg.capture[faultKindIndex k] = true) (x d : Nat) :
    (s.fault k x d).prot.groups[faultGroupIndex (faultGroupOf k)] =
      some ((s.prot.groups[faultGroupIndex (faultGroupOf k)]).getD ⟨k, x, s.drive.clock, d⟩) := by
  unfold State.fault
  rw [if_pos h]
  dsimp only
  cases hg : s.prot.groups[faultGroupIndex (faultGroupOf k)] with
  | none =>
    rw [if_pos (by rfl)]
    exact upd_self _ _ _
  | some x =>
    rw [if_neg (by simp)]
    exact hg

theorem selectorTimesOut : Clauses.SelectorTimesOut := by
  intro s i sl w x hl hholder htravel hdue hp hw ho hregen hmark hholds hrest
  have hdrive := State.drive_travelFailed hl
  have hentry := State.entry_travelFailed hl
  have kf := State.keepsBut_travelFailed hl
  have hfrest : s.travelFailed.atRest := hrest.travelFailed hl
  have hcurrent : s.travelFailed.arb.selCurrent = none := rfl
  obtain ⟨hports, hprot⟩ := State.faults_travelFailed hl
  obtain ⟨u, hu⟩ : ∃ u, u = s.travelFailed := ⟨_, rfl⟩
  rw [← hu] at hdrive hentry kf hfrest hcurrent hports hprot
  have hup : u.pool[i] = some sl := by rw [kf.pool, hp]
  have hnone : ∀ q, (u.setSlot i (some { sl with outcome := some .selectorFault })).holds (washWho sl.port i) q = false := fun q => by
    rw [Bool.eq_false_iff]
    intro hq
    rw [State.holds_iff] at hq
    change (u.entry q).lease ≠ .free ∧ (u.entry q).holder = _ at hq
    rw [hentry] at hq
    split at hq
    next => exact hq.1 rfl
    next hne => exact hne (hholds q ((State.holds_iff _ _ _).mpr hq))
  have hletgo : u.fillLetGo i sl .selectorFault = u.setSlot i (some { sl with outcome := some .selectorFault }) :=
    State.releaseAll_absent hnone
  have hfinish : u.finishFill i .selectorFault true = ((u.fillDrawn i sl w .selectorFault).send sl.port
      (opResponse sl.tag .selectorFault (fillFields w))).setSlot i none := by
    rw [finishFill_eq hup hw ho (fun q => by rw [hletgo]; exact State.waitsFor_noWaiters (hfrest.1 q).1 _)
      (fun c => by rw [State.column_congr kf.soft]; exact hmark c), if_neg (by decide)]
    refine (State.endSlot_answered (sl := { sl with outcome := some .selectorFault }) ?_ _ _).trans rfl
    unfold State.fillDrawn
    rw [(State.keepsBut_appendDraw _ _ _ _ _ _ _).pool, hletgo]
    exact State.pool_setSlot_self _ _ _
  obtain ⟨y, hy⟩ : ∃ y, y = u.finishFill i .selectorFault true := ⟨_, rfl⟩
  have hdrawn : u.fillDrawn i sl w .selectorFault = (u.setSlot i (some { sl with outcome := some .selectorFault })).appendDraw .wash
      w.softA w.softB w.bypass (if w.counted = 0 then s.acct.hardness else w.lastHardness) .selectorFault := by
    rw [State.fillDrawn, hletgo, kf.acct]
  rw [hdrawn, ← hy] at hfinish
  have ky : u.keepsBut y [.pool, .acct, .ports] := hfinish ▸ (((State.keepsBut_mono (u.keepsBut_setSlot _ _) (by decide)).step
    (State.keepsBut_appendDraw _ _ _ _ _ _ _) (by decide)).step (State.keepsBut_send _ _ _) (by decide)).step
    (State.keepsBut_setSlot _ _ _) (by decide)
  have hpool : ∀ j : SlotId, y.pool[j] = if j = i then none else u.pool[j] := fun j => by
    rw [hfinish]
    by_cases hj : j = i
    · rw [if_pos hj, hj]
      exact State.pool_setSlot_self _ _ _
    · rw [if_neg hj, State.pool_setSlot_ne _ hj, (State.keepsBut_send _ _ _).pool, (State.keepsBut_appendDraw _ _ _ _ _ _ _).pool,
        State.pool_setSlot_ne _ hj]
  refine ⟨y, ?_, by rw [ky.entry, hentry, if_pos rfl]; rfl, by rw [ky.arb, hcurrent], by rw [ky.drive, hdrive],
    by rw [hpool, if_pos rfl], ?_, ?_, fun hcap => ?_, fun j hj => by rw [hpool, if_neg hj, kf.pool], fun q hq => ?_,
    (State.keepsBut_mono kf (by decide)).step ky (by decide)⟩
  · have hlate : s.travelLate = true := by
      unfold State.travelLate
      simp only [htravel, hdue]
    show Host.Outcome.next s.selectorTimeOut = _
    rw [State.selectorTimeOut_eq, if_pos ⟨hl, hlate⟩, hholder]
    show Host.Outcome.next (s.travelFailed.selectorFailed (washWho sl.port i)).settle = _
    rw [← hu, State.selectorFailed, State.isRegen_false (by rw [kf.soft]; exact hregen), if_neg (by decide)]
    show Host.Outcome.next (u.finishFill i .selectorFault true).settle = _
    rw [← hy, (hfrest.frame ky).settle]
  · rw [hfinish]
    show ((State.send _ sl.port _).port sl.port).txq = _
    rw [State.port_send, if_pos rfl]
    show (u.port sl.port).txq ++ _ = _
    rw [State.port_congr hports, State.txq_fault]
  · have hacct : y.acct = ((u.setSlot i (some { sl with outcome := some .selectorFault })).appendDraw .wash w.softA w.softB w.bypass
        (if w.counted = 0 then s.acct.hardness else w.lastHardness) .selectorFault).acct := by
      rw [hfinish]
      exact (State.keepsBut_send _ _ _).acct
    rw [hacct, State.acct_appendDraw]
    show some (⟨u.acct.nextDraw, _, _, _, _, _, _, u.drive.clock⟩ : DrawRecord) = _
    rw [kf.acct, hdrive]
  · rw [ky.prot, hprot]
    exact State.group_fault hcap _ _
  · rw [ky.entry, hentry, if_neg (by simpa using hq)]

/-- Settles O47. -/
theorem selectorTravels : Obligations.SelectorTravels := ⟨selectorArrives, selectorTimesOut⟩

end Sys2Proof.Machine

/-! A dose run that opens: its count, its size, and its first stroke in the step that grants the pump (R98, R102 to R105). -/

namespace Sys2Proof.Machine

/-! ### The count of a load and the size of a run -/

/-- The band that a table gives is the one that it looks up (R87, R88). -/
theorem bandLookup_of_gives {x v : Nat} : ∀ {bs : List (Nat × Nat)}, bandGives bs x v → bandLookup x bs = v
  | [], ⟨_, h, _⟩ => by cases h
  | [b], ⟨b', h, hv⟩ => by
    have hb : b = b' := by
      by_cases hx : x ≤ b.1 <;> simpa [List.find?_cons, hx] using h
    rw [hv, ← hb]
    rfl
  | b :: c :: bs, ⟨b', h, hv⟩ => by
    unfold bandLookup
    split
    next hx =>
      have hb : b = b' := by simpa [List.find?_cons, hx] using h
      rw [hv, ← hb]
    next hx => exact bandLookup_of_gives ⟨b', by simpa [List.find?_cons, hx] using h, hv⟩

theorem scalingHardness_of {s : State} {h : Nat} (hs : s.scalesBy h) : s.scalingHardness = h := by
  unfold State.scalingHardness
  rw [← List.head?_filter, List.filter_reverse, List.head?_reverse]
  rcases hs with ⟨r, hr, rfl⟩ | ⟨hn, rfl⟩
  · rw [hr]
  · rw [List.filter_eq_nil_iff.mpr fun r hr => by simpa using hn r hr]
    rfl

theorem loadedCount_of_loads {s : State} {d : Desc} {k : Nat} (h : s.loads d k) : s.loadedCount d = k := by
  unfold State.loadedCount
  rcases h with ⟨hd, rfl⟩ | ⟨hd, x, f, hx, hf, rfl⟩
  · rw [if_neg hd]
  · rw [if_pos hd, State.doseFactor, scalingHardness_of hx, bandLookup_of_gives hf]
    rfl

theorem runSize_of_opens {d : Desc} {left k : Nat} (h : opensRun d left k) : runSize d left = k := by
  unfold runSize
  rcases h with ⟨hm, rfl⟩ | ⟨hm, rfl⟩ | ⟨hm, rfl⟩ <;> rw [hm] <;> rfl

/-! ### Channels written -/

theorem State.setChannel_setChannel (s : State) (c : ChannelId) (x y : Channel) : (s.setChannel c x).setChannel c y = s.setChannel c y := by
  simp only [State.setChannel, upd_upd]

theorem State.setChannel_channel (s : State) (c : ChannelId) : s.setChannel c (s.channel c) = s := by
  simp only [State.setChannel, State.channel, upd_eq_self]

theorem State.currentDesc_congr {s t : State} (h : t.dose.descs = s.dose.descs) {ch ch' : Channel} (hc : ch'.current = ch.current) :
    t.currentDesc ch' = s.currentDesc ch := by simp only [State.currentDesc, h, hc]

theorem State.channelReservoir_congr {s t : State} (h : t.dose.descs = s.dose.descs) {ch ch' : Channel} (hc : ch'.current = ch.current) :
    t.channelReservoir ch' = s.channelReservoir ch := by simp only [State.channelReservoir, State.currentDesc_congr h hc]

theorem State.reply_ask (s : State) (p : Port) (tag : Nat) (o : OutcomeCode) (fields : List Byte) (r : Resource) (who : Holder)
    (serial : Nat) (want : Option Column) :
    (s.ask r who serial want).reply p tag o fields = (s.reply p tag o fields).ask r who serial want := by
  rw [State.ask_eq, State.ask_eq]
  cases p <;> rfl

/-! ### A run opens -/

/-- A channel that has asked for its pump: its run goes on, or the flag has opened one. -/
def Channel.opened (ch : Channel) (d : Desc) : Channel :=
  { ch with
    state := .waitingPump
    flag := if 0 < ch.runLeft then ch.flag else false
    runLeft := if 0 < ch.runLeft then ch.runLeft else runSize d ch.remaining }

theorem armedAct_asks {s : State} {c : ChannelId} (ha : (s.channel c).state = .armed)
    (h : 0 < (s.channel c).runLeft ∨ (s.channel c).flag = true) :
    s.armedAct c = (s.setChannel c ((s.channel c).opened (s.currentDesc (s.channel c)))).ask (s.channelPump (s.channel c)) (channelWho c) 0
      none := by
  unfold State.armedAct Channel.opened
  simp only [ha, if_true]
  split
  next => rfl
  next hr => rw [if_pos (h.resolve_left hr)]

/-- The same of a channel just written. -/
theorem setChannel_armedAct_asks (s : State) (c : ChannelId) {ch : Channel} {n : ReservoirId} (ha : ch.state = .armed)
    (h : 0 < ch.runLeft ∨ ch.flag = true) (hn : s.channelReservoir ch = n) :
    (s.setChannel c ch).armedAct c = (s.setChannel c (ch.opened (s.currentDesc ch))).ask (.dose n) (channelWho c) 0 none := by
  have hdesc : (s.setChannel c ch).currentDesc ch = s.currentDesc ch := State.currentDesc_congr (State.descs_setChannel s c ch) rfl
  rw [armedAct_asks (by rw [State.channel_setChannel_self, ha]) (by rw [State.channel_setChannel_self]; exact h),
    State.channel_setChannel_self, State.setChannel_setChannel, State.channelPump, State.channelReservoir, hdesc, ← hn,
    State.channelReservoir]

theorem armedAct_stays {s : State} {c : ChannelId}
    (h : (s.channel c).state = .armed → (s.channel c).runLeft = 0 ∧ (s.channel c).flag = false) : s.armedAct c = s := by
  unfold State.armedAct
  dsimp only
  split
  next ha =>
    obtain ⟨hr, hf⟩ := h ha
    rw [if_neg (by omega), hf]
    rfl
  next => rfl

/-- A channel whose stroke has started. -/
def Channel.stroking (ch : Channel) : Channel :=
  { ch with state := .dosing, step := .stroke, interval := Timer.zero, started := ch.started + 1 }

/-- `t` is `v` after channel `c`, whose record was `ch`, was granted the pump of `n` and started its stroke. -/
structure StrokeBegun (v t : State) (c : ChannelId) (n : ReservoirId) (ch : Channel) : Prop where
  channel : t.channel c = ch.stroking
  entry : t.entry (.dose n) = v.cfg.grantRecord v.drive.clock (channelWho c) none .held (v.entry (.dose n))
  drive : t.drive = { v.drive with strokes := upd v.drive.strokes n ⟨true, 0⟩ }
  amount : t.acct.reservoirs[n].amount = (if v.acct.reservoirs[n].known = true
    then v.acct.reservoirs[n].amount - v.cfg.strokeVol[n] else v.acct.reservoirs[n].amount)
  others : ∀ j, j ≠ c → t.channel j = v.channel j
  descs : t.dose.descs = v.dose.descs
  entries : v.keepsEntriesBut t [.dose n]
  frame : v.keepsBut t [.arb, .dose, .drive, .acct]

/-- What a first stroke needs: the pump of `n` FREE and eligible, its reservoir not EMPTY, and water where the descriptor asks for it. -/
structure State.strokeReady (s : State) (n : ReservoirId) (d : Desc) : Prop where
  free : (s.entry (.dose n)).lease = .free
  closed : s.doorClosed = true
  latched : s.latched = false
  door : s.hasHolder .doorDrive = false
  stocked : s.acct.reservoirs[n].empty = false
  water : d.needsWater = 1 → s.waterPresent = true

theorem State.strokeReady.congr {s t : State} {n : ReservoirId} {d : Desc} (h : s.strokeReady n d) {l : List Block} (k : s.keepsBut t l)
    (ha : Block.arb ∉ l := by decide) (hd : Block.door ∉ l := by decide) (hp : Block.prot ∉ l := by decide)
    (hc : Block.acct ∉ l := by decide) (hs : Block.sense ∉ l := by decide) : t.strokeReady n d where
  free := by rw [k.entry _ ha, h.free]
  closed := by simp only [State.doorClosed, k.door hd]; exact h.closed
  latched := by simp only [State.latched, k.prot hp]; exact h.latched
  door := by simp only [State.hasHolder, k.entry _ ha]; exact h.door
  stocked := by rw [k.acct hc, h.stocked]
  water := fun hw => by
    rw [← h.water hw]
    simp only [State.waterPresent, State.roleHolder, k.sense hs]

/-- An account that is not EMPTY gives the stroke. -/
theorem takeStroke_stocked {s : State} {n : ReservoirId} (h : s.acct.reservoirs[n].empty = false) :
    ∃ t, s.takeStroke n = some t ∧ s.keepsBut t [.acct] ∧ t.acct.reservoirs[n].amount =
      (if s.acct.reservoirs[n].known = true then s.acct.reservoirs[n].amount - s.cfg.strokeVol[n] else s.acct.reservoirs[n].amount) := by
  unfold State.takeStroke
  dsimp only
  rw [h, if_neg (by decide)]
  split
  next hk => exact ⟨_, rfl, s.keepsBut_setReservoir _ _, by simp [State.setReservoir]⟩
  next hk => exact ⟨_, rfl, s.keepsBut_refl _, rfl⟩

/-- `t` is `v` after channel `c`, whose record was `ch`, began a stroke on its HELD pump of `n`. -/
structure Struck (v t : State) (c : ChannelId) (n : ReservoirId) (ch : Channel) : Prop where
  channel : t.channel c = { ch with started := ch.started + 1, step := .stroke, interval := Timer.zero }
  drive : t.drive = { v.drive with strokes := upd v.drive.strokes n ⟨true, 0⟩ }
  amount : t.acct.reservoirs[n].amount = (if v.acct.reservoirs[n].known = true
    then v.acct.reservoirs[n].amount - v.cfg.strokeVol[n] else v.acct.reservoirs[n].amount)
  others : ∀ j, j ≠ c → t.channel j = v.channel j
  descs : t.dose.descs = v.dose.descs
  frame : v.keepsBut t [.dose, .drive, .acct]

section Stroke

variable {v : State} {c : ChannelId} {n : ReservoirId} {ch : Channel}

/-- A stroke start that is judged on a HELD pump (R105). -/
theorem strokeStart_begins (hch : v.channel c = ch) (hn : v.channelReservoir ch = n) (hs : v.acct.reservoirs[n].empty = false)
    (hw : (v.currentDesc ch).needsWater = 1 → v.waterPresent = true) (hh : v.holdsHeld (channelWho c) (.dose n) = true) :
    Struck v (v.strokeStart c) c n ch := by
  obtain ⟨u, hu, ku, hamount⟩ := takeStroke_stocked (s := v) hs
  obtain ⟨ch2, hch2⟩ : ∃ x, x = ({ ch with started := ch.started + 1, step := .stroke, interval := Timer.zero } : Channel) := ⟨_, rfl⟩
  have hwater : ¬((v.currentDesc ch).needsWater == 1 && !v.waterPresent) = true := by
    intro h
    simp only [Bool.and_eq_true, beq_iff_eq, Bool.not_eq_true'] at h
    rw [hw h.1] at h
    exact absurd h.2 (by decide)
  have hheld : (u.setChannel c ch2).holdsHeld (channelWho c) (.dose n) = true := by
    rw [← hh]
    simp only [State.holdsHeld, (u.keepsBut_setChannel _ _).entry, ku.entry]
  have hstart : v.strokeStart c = { u.setChannel c ch2 with drive := { u.drive with strokes := upd u.drive.strokes n ⟨true, 0⟩ } } := by
    unfold State.strokeStart
    simp only [hch, hn]
    rw [if_neg (fun e => Bool.false_ne_true (hs.symm.trans e)), if_neg hwater]
    unfold State.strokeStage3
    simp only [hch, hn, hu]
    rw [← hch2, if_pos hheld]
    rfl
  have kt : u.keepsBut (v.strokeStart c) [.dose, .drive] := hstart ▸ State.keepsBut_mono
    ((u.keepsBut_setChannel _ _).cons (State.keepsBut_withDrive _ _)) (by decide)
  refine ⟨?_, ?_, by rw [kt.acct, hamount], fun j hj => ?_, ?_, (State.keepsBut_mono ku (by decide)).step kt (by decide)⟩
  · rw [hstart]
    exact (State.channel_setChannel_self u c ch2).trans hch2
  · rw [hstart, ku.drive]
  · rw [hstart]
    exact ((State.channel_setChannel u c j ch2).trans (if_neg hj)).trans (State.channel_congr ku.dose j)
  · rw [hstart]
    show u.dose.descs = _
    rw [ku.dose]

/-- The pump granted to a channel in WAITING_PUMP: it starts its stroke (R104, R105). -/
theorem channelGranted_begins (hch : v.channel c = ch) (hst : ch.state = .waitingPump) (hn : v.channelReservoir ch = n)
    (hs : v.acct.reservoirs[n].empty = false) (hw : (v.currentDesc ch).needsWater = 1 → v.waterPresent = true)
    (hh : v.holdsHeld (channelWho c) (.dose n) = true) :
    (v.channelGranted c).channel c = ch.stroking ∧ Struck v (v.channelGranted c) c n
      { ch with state := .dosing, step := .none, interval := Timer.zero } := by
  obtain ⟨ch1, hch1⟩ : ∃ x, x = ({ ch with state := .dosing, step := .none, interval := Timer.zero } : Channel) := ⟨_, rfl⟩
  have k := v.keepsBut_setChannel c ch1
  have hcurrent : ch1.current = ch.current := hch1 ▸ rfl
  have hdescs : (v.setChannel c ch1).dose.descs = v.dose.descs := State.descs_setChannel _ _ _
  have hwater : (v.setChannel c ch1).waterPresent = v.waterPresent := by
    simp only [State.waterPresent, State.roleHolder, k.sense]
  have hgranted : v.channelGranted c = (v.setChannel c ch1).strokeStart c := by
    unfold State.channelGranted
    rw [hch, if_pos hst, hch1]
  have h := strokeStart_begins (v := v.setChannel c ch1) (n := n) (State.channel_setChannel_self _ _ _)
    ((State.channelReservoir_congr hdescs hcurrent).trans hn) (by rw [k.acct, hs])
    (by rw [State.currentDesc_congr hdescs hcurrent, hwater]; exact hw) (by simp only [State.holdsHeld, k.entry]; exact hh)
  rw [← hgranted] at h
  rw [← hch1]
  refine ⟨h.channel.trans (by rw [hch1]; rfl), h.channel, by rw [h.drive, k.drive], by rw [h.amount, k.acct, k.cfg], fun j hj => ?_,
    h.descs.trans hdescs, (State.keepsBut_mono k (by decide)).step h.frame (by decide)⟩
  rw [h.others j hj, State.channel_setChannel, if_neg hj]

/-- A channel that asks alone for its FREE pump is granted it and starts its stroke in the same step (R103 to R105). -/
theorem settle_run (hr : v.atRest) (hch : v.channel c = ch) (hst : ch.state = .waitingPump) (hn : v.channelReservoir ch = n)
    (h : v.strokeReady n (v.currentDesc ch)) : ∃ t, (v.ask (.dose n) (channelWho c) 0 none).settle = t ∧ StrokeBegun v t c n ch := by
  have hadmits : v.admits (.dose n) (channelWho c) :=
    { free := h.free
      guarded := fun _ => ⟨h.closed, h.door⟩
      trip := fun _ => h.latched
      inlet := fun e => by cases e
      drain := fun e => by cases e
      door := fun e => by cases e }
  obtain ⟨g, hg⟩ : ∃ g, g = v.grantedTo (.dose n) (channelWho c) .held := ⟨_, rfl⟩
  have kg : v.keepsBut g [.arb] := hg ▸ State.keepsBut_grantedTo_quiet (s := v) (r := .dose n) (l := .held)
    (.inr ⟨(fun e => by cases e), (fun e => by cases e)⟩) (channelWho c)
  have hgentry : ∀ q, g.entry q = if q = .dose n then v.cfg.grantRecord v.drive.clock (channelWho c) none .held (v.entry (.dose n))
      else v.entry q := fun q => hg ▸ State.entry_grantedTo _ _ _ _ q
  have hgrest : g.atRest := hg ▸ hr.grantedTo (fun e => by cases e) _ _
  have hheld : g.holdsHeld (channelWho c) (.dose n) = true := by
    rw [State.holdsHeld, hgentry, if_pos rfl]
    simp [Settings.grantRecord]
  have hwater : g.waterPresent = v.waterPresent := by simp only [State.waterPresent, State.roleHolder, kg.sense]
  obtain ⟨hchannel, hk⟩ := channelGranted_begins (v := g) (c := c) (n := n) ((State.channel_congr kg.dose c).trans hch) hst
    ((State.channelReservoir_congr (by rw [kg.dose]) rfl).trans hn) (by rw [kg.acct]; exact h.stocked)
    (by rw [State.currentDesc_congr (s := v) (by rw [kg.dose]) rfl, hwater]; exact h.water) hheld
  refine ⟨g.channelGranted c, ?_, hchannel, by rw [hk.frame.entry, hgentry, if_pos rfl], by rw [hk.drive, kg.drive],
    by rw [hk.amount, kg.acct, kg.cfg], fun j hj => by rw [hk.others j hj, State.channel_congr kg.dose],
    hk.descs.trans (congrArg Dose.descs kg.dose), fun q hq => by rw [hk.frame.entry, hgentry, if_neg (by simpa using hq)],
    (State.keepsBut_mono kg (by decide)).step hk.frame (by decide)⟩
  rw [State.settle, settleFor_ask 0 none 127 hr hadmits, State.grantLease_ask 0 none hr h.free (fun e => by cases e),
    if_neg (fun e => by cases e), ← hg]
  exact (hgrest.frame hk.frame).settleFor 127

end Stroke

end Sys2Proof.Machine

/-! DOSE_ARM and DOSE_TRIGGER (R97, R99, R100, R103). Settles O34 and O35. -/

namespace Sys2Proof.Machine

/-! ### Nothing to grant and nobody to yield -/

/-- The waiters of one resource are the only ones, and that one is not DOOR_DRIVE: nothing is judged. -/
theorem State.calmBut.judge {s : State} {r : Resource} (h : s.calmBut r) (hr : r ≠ .doorDrive) : s.judge = s :=
  judge_same h.2 (.inl (h.1 .doorDrive (Ne.symm hr)).1)

/-- A pump that is not to be yielded now: its holder is no channel between strokes. -/
def State.pumpStays (s : State) (n : ReservoirId) : Prop :=
  (s.entry (.dose n)).yieldRequested = true → ∀ c, (s.entry (.dose n)).holder = some (channelWho c) →
    (s.channel c).state = .dosing → (s.channel c).step ≠ .interval ∧ (s.channel c).step ≠ .water

theorem State.calmBut.noYield {s : State} {n : ReservoirId} (h : s.calmBut (.dose n)) (hp : s.pumpStays n) : s.yieldNext = none := by
  have hheat : s.heatYielder = none := by simp [State.heatYielder, (h.1 .heater (fun e => by cases e)).2]
  have hdose : s.doseYielder = none := by
    refine List.find?_eq_none.mpr fun c _ hc => ?_
    simp only [Bool.and_eq_true, Bool.or_eq_true, beq_iff_eq] at hc
    obtain ⟨⟨⟨⟨hstate, hstep⟩, -⟩, hholder⟩, hyield⟩ := hc
    by_cases hq : s.channelPump (s.channel c) = .dose n
    · rw [hq] at hholder hyield
      obtain ⟨hi, hw⟩ := hp hyield c hholder hstate
      exact hstep.elim hi hw
    · rw [(h.1 _ hq).2] at hyield
      cases hyield
  simp [State.yieldNext, hheat, hdose]

/-- A pump with waiters of which none is to be granted it leaves the part as it is. -/
theorem State.calmBut.settle {s : State} {n : ReservoirId} (h : s.calmBut (.dose n)) (hp : s.pumpStays n)
    (hw : (s.entry (.dose n)).lease ≠ .free ∨ (s.entry (.dose n)).waiters = []) : s.settle = s := by
  refine settleFor_stays (h.judge fun e => by cases e) (h.noYield hp) (fun r => ?_) 128
  by_cases hr : r = .dose n
  · subst hr
    exact hw.elim chosenWaiter_leased chosenWaiter_noWaiters
  · exact chosenWaiter_noWaiters (h.1 r hr).1

theorem State.calmBut.frame {s t : State} {r : Resource} {l : List Block} (h : s.calmBut r) (k : s.keepsBut t l)
    (ha : Block.arb ∉ l := by decide) (hp : Block.sense ∉ l := by decide) (hd : Block.door ∉ l := by decide)
    (hw : Block.water ∉ l := by decide) : t.calmBut r := by
  have he := fun q => k.entry q ha
  exact ⟨fun q hq => by rw [he]; exact h.1 q hq, by
    rw [interlockMet_of (congrArg Entry.lease (he .circ)) (congrArg Sense.points (k.sense hp)) (congrArg Door.door (k.door hd))
      (congrArg Water.probeValid (k.water hw)), k.water hw, h.2]⟩

/-- An entry written, but that of CIRC, leaves the rest calm. -/
theorem State.calmBut.ofEntry {s t : State} {r : Resource} (h : s.calmBut r) (hc : r ≠ .circ) (he : s.keepsEntriesBut t [r])
    (hp : t.sense.points = s.sense.points) (hf : t.door.door = s.door.door) (hw : t.water = s.water) : t.calmBut r := by
  have he : ∀ q, q ≠ r → t.entry q = s.entry q := fun q hq => he q (by simpa using hq)
  refine ⟨fun q hq => by rw [he q hq]; exact h.1 q hq, ?_⟩
  rw [interlockMet_of (congrArg Entry.lease (he .circ (Ne.symm hc))) hp hf (congrArg Water.probeValid hw), hw, h.2]

theorem State.atRest.calmBut {s : State} (h : s.atRest) (r : Resource) : s.calmBut r := ⟨fun q _ => h.1 q, h.2⟩

/-- A channel that asks for a pump that another is using waits for it. -/
theorem settle_ask_waits {v : State} {c : ChannelId} {n : ReservoirId} (hr : v.atRest) (hf : (v.entry (.dose n)).lease ≠ .free)
    (hy : ∀ j, (v.entry (.dose n)).holder = some (channelWho j) → (v.channel j).state = .dosing → (v.channel j).step = .stroke) :
    (v.ask (.dose n) (channelWho c) 0 none).settle = v.ask (.dose n) (channelWho c) 0 none := by
  have k := v.keepsBut_ask (.dose n) (channelWho c) 0 none
  have hentry := v.editEntry_self (.dose n) fun e => { e with waiters := e.waiters ++ [⟨channelWho c, 0, none, false⟩] }
  have hcalm : (v.ask (.dose n) (channelWho c) 0 none).calmBut (.dose n) := (hr.calmBut _).ofEntry (fun e => by cases e)
    (State.keepsEntriesBut_ask 0 none) (by rw [k.sense]) (by rw [k.door]) k.water
  refine hcalm.settle (fun _ j hj hd => ?_) (.inl ?_)
  · rw [State.channel_congr k.dose] at hd ⊢
    rw [hy j (by rw [← hj, State.ask, hentry]; rfl) hd]
    decide
  · rw [State.ask, hentry]
    exact hf

/-! ### A stroke begun in the step of a request -/

/-- `t` is `s` after a request that was answered `ports` and whose channel `c`, then of record `ch`, started its first stroke. -/
structure StrokeAnswered (s t : State) (c : ChannelId) (n : ReservoirId) (ch : Channel) (ports : Ports) : Prop where
  channel : t.channel c = ch.stroking
  entry : t.entry (.dose n) = s.cfg.grantRecord s.drive.clock (channelWho c) none .held (s.entry (.dose n))
  drive : t.drive = { s.drive with strokes := upd s.drive.strokes n ⟨true, 0⟩ }
  amount : t.acct.reservoirs[n].amount = (if s.acct.reservoirs[n].known = true
    then s.acct.reservoirs[n].amount - s.cfg.strokeVol[n] else s.acct.reservoirs[n].amount)
  others : ∀ j, j ≠ c → t.channel j = s.channel j
  descs : t.dose.descs = s.dose.descs
  entries : s.keepsEntriesBut t [.dose n]
  answer : t.ports = ports
  frame : s.keepsBut t [.arb, .ports, .dose, .drive, .acct]

section Answered

variable {s : State} {p : Port} {tag : Nat} {o : OutcomeCode} {fields : List Byte} {c : ChannelId}

/-- A request that writes one channel, answered. -/
def State.channelAnswered (s : State) (p : Port) (tag : Nat) (o : OutcomeCode) (fields : List Byte) (c : ChannelId) (ch : Channel) : State :=
  (s.setChannel c ch).answered p tag o fields

theorem State.keepsBut_channelAnswered (s : State) (p : Port) (tag : Nat) (o : OutcomeCode) (fields : List Byte) (c : ChannelId)
    (ch : Channel) : s.keepsBut (s.channelAnswered p tag o fields c ch) [.ports, .dose] :=
  (State.keepsBut_mono (s.keepsBut_setChannel c ch) (by decide)).step (State.keepsBut_answered _ p tag o fields) (by decide)

theorem State.ports_channelAnswered (s : State) (p : Port) (tag : Nat) (o : OutcomeCode) (fields : List Byte) (c : ChannelId) (ch : Channel) :
    (s.channelAnswered p tag o fields c ch).ports = (s.answered p tag o fields).ports := by
  cases p <;> rfl

theorem State.channel_channelAnswered (s : State) (p : Port) (tag : Nat) (o : OutcomeCode) (fields : List Byte) (c : ChannelId) (ch : Channel)
    (j : ChannelId) : (s.channelAnswered p tag o fields c ch).channel j = if j = c then ch else s.channel j :=
  (State.channel_congr (State.keepsBut_answered (s.setChannel c ch) p tag o fields).dose j).trans (State.channel_setChannel s c j ch)

theorem State.descs_channelAnswered (s : State) (p : Port) (tag : Nat) (o : OutcomeCode) (fields : List Byte) (c : ChannelId) (ch : Channel) :
    (s.channelAnswered p tag o fields c ch).dose.descs = s.dose.descs :=
  (congrArg Dose.descs (State.keepsBut_answered (s.setChannel c ch) p tag o fields).dose).trans (State.descs_setChannel s c ch)

/-- A channel whose run a request opens, with its pump FREE and eligible: its first stroke starts in the same step. -/
theorem settle_answered_run {ch : Channel} {n : ReservoirId} (hr : s.atRest) (hst : ch.state = .waitingPump)
    (hn : s.channelReservoir ch = n) (h : s.strokeReady n (s.currentDesc ch)) :
    ∃ t, ((s.channelAnswered p tag o fields c ch).ask (.dose n) (channelWho c) 0 none).settle = t ∧
      StrokeAnswered s t c n ch (s.answered p tag o fields).ports := by
  obtain ⟨v, hv⟩ : ∃ v, v = s.channelAnswered p tag o fields c ch := ⟨_, rfl⟩
  have k : s.keepsBut v [.ports, .dose] := hv ▸ s.keepsBut_channelAnswered p tag o fields c ch
  have hchannel : ∀ j, v.channel j = if j = c then ch else s.channel j := hv ▸ s.channel_channelAnswered p tag o fields c ch
  have hdescs : v.dose.descs = s.dose.descs := hv ▸ s.descs_channelAnswered p tag o fields c ch
  obtain ⟨t, ht, hb⟩ := settle_run (v := v) (c := c) (n := n) (hr.frame k) ((hchannel c).trans (if_pos rfl)) hst
    ((State.channelReservoir_congr hdescs rfl).trans hn) (by rw [State.currentDesc_congr (s := s) hdescs rfl]; exact h.congr k)
  refine ⟨t, hv ▸ ht, hb.channel, ?_, by rw [hb.drive, k.drive], by rw [hb.amount, k.acct, k.cfg],
    fun j hj => by rw [hb.others j hj, hchannel, if_neg hj], hb.descs.trans hdescs,
    fun q hq => by rw [hb.entries q hq, k.entry], ?_, (State.keepsBut_mono k (by decide)).step hb.frame (by decide)⟩
  · rw [hb.entry, k.cfg, k.drive, k.entry]
  · rw [hb.frame.ports, hv, State.ports_channelAnswered]

/-- The channel that asked, answered: the request and the answer are written independently of each other. -/
theorem State.reply_asked (s : State) (p : Port) (tag : Nat) (o : OutcomeCode) (fields : List Byte) (c : ChannelId) (ch : Channel)
    (r : Resource) (who : Holder) : ((((s.setRx p .synced).setChannel c ch).ask r who 0 none).reply p tag o fields) =
      (s.channelAnswered p tag o fields c ch).ask r who 0 none := by
  rw [State.reply_ask, State.setChannel_setRx]
  rfl

end Answered

/-! ### DOSE_ARM -/

theorem sourceOf_delay (n : Nat) : (sourceOf n == some .delay) = decide (n = 4) := by
  unfold sourceOf
  split
  case h_5 => rfl
  case h_7 h4 _ => exact (decide_eq_false h4).symm
  all_goals rfl

theorem State.loadedCount_setRx (s : State) (p : Port) (rx : RxState) (d : Desc) : (s.setRx p rx).loadedCount d = s.loadedCount d :=
  read_setRx (fun u => u.loadedCount d) (fun _ _ => rfl) s p rx

/-- A load of a descriptor that gives no trigger at the load. -/
theorem loadDesc_armed {s : State} (c : ChannelId) {n : DescId} {d : Desc} {k : Nat} (hd : s.dose.descs[n] = d)
    (hs : ¬(d.source = 4 ∧ d.delay = 0)) (hk : s.loadedCount d = k) : s.loadDesc c n = s.setChannel c (loadedWith n d k) := by
  have hch : ({ Channel.reset with
      state := .armed, current := some n, loaded := k, flag := decide (d.source = 4) && d.delay == 0,
      delayLeft := if decide (d.source = 4) = true then d.delay else 0, delayArmed := decide (d.source = 4) && d.delay != 0 } : Channel) =
      loadedWith n d k := by
    unfold loadedWith
    by_cases h4 : d.source = 4
    · have h0 : d.delay ≠ 0 := fun h0 => hs ⟨h4, h0⟩
      simp [h4, h0, Channel.reset]
    · simp [h4, Channel.reset]
  unfold State.loadDesc
  simp only [hd, hk, sourceOf_delay]
  rw [hch]
  refine armedAct_stays fun _ => ?_
  rw [State.channel_setChannel_self]
  exact ⟨rfl, rfl⟩

/-- A load of one of source DELAY with delay 0: the run opens at once (R99, R103). -/
theorem loadDesc_opens {s : State} (c : ChannelId) {m : DescId} {d : Desc} {n : ReservoirId} {k run : Nat} (hd : s.dose.descs[m] = d)
    (h4 : d.source = 4) (h0 : d.delay = 0) (hk : s.loadedCount d = k) (hn : d.reservoir = n.val + 1) (hrun : runSize d k = run) :
    s.loadDesc c m = (s.setChannel c { loadedWith m d k with state := .waitingPump, delayArmed := false, runLeft := run }).ask (.dose n)
      (channelWho c) 0 none := by
  have hpump : (descReservoir d).getD 0 = n := by
    unfold descReservoir
    rw [if_neg (by omega), show d.reservoir - 1 = n.val by omega, finOf_val]
    rfl
  unfold State.loadDesc
  simp only [hd, hk, sourceOf_delay, h4, h0]
  rw [armedAct_asks (by rw [State.channel_setChannel_self]) (.inr (by rw [State.channel_setChannel_self]; rfl)), State.channel_setChannel_self,
    State.setChannel_setChannel]
  have hdesc : ∀ x : Channel, (s.setChannel c x).currentDesc x = s.currentDesc x := fun x => State.currentDesc_congr rfl rfl
  unfold State.channelPump State.channelReservoir
  rw [hdesc]
  unfold State.currentDesc Channel.opened Channel.remaining
  simp only [hd, hpump, hrun, Channel.reset, loadedWith, h4, h0, Nat.sub_zero]
  rfl

section Arm

variable {s : State} {p : Port} {tag : Nat} (h : s.hears p tag) (hm : s.mode = .run)
include h hm

theorem exec_doseArm_badParam {channel number : Nat} (hb : 4 ≤ channel ∨ 32 ≤ number) :
    exec (.doseArm p tag channel number) s = .next (s.answered p tag .badParam []) := by
  refine congrArg Host.Outcome.next ((immediateInRun_hears h hm _).trans ?_)
  dsimp only
  split
  next c n hc hn =>
    rcases hb with hb | hb
    · rw [finOf_eq_none hb] at hc
      cases hc
    · rw [finOf_eq_none hb] at hn
      cases hn
  next => rfl

theorem exec_doseArm (c : ChannelId) (n : DescId) :
    exec (.doseArm p tag c.val n.val) s = .next (if descEmpty s.dose.descs[n] = true then s.answered p tag .badParam []
      else if (s.channel c).state ≠ .idle then s.answered p tag .busy []
      else (((s.setRx p .synced).loadDesc c n).reply p tag .ok
        (byte2 (((s.setRx p .synced).loadDesc c n).channel c).loaded)).settle) := by
  refine congrArg Host.Outcome.next ((immediateInRun_hears h hm _).trans ?_)
  rw [finOf_val, finOf_val]
  dsimp only
  rw [State.setRx_dose, State.channel_setRx]
  rfl

end Arm

theorem doseArmed : Clauses.DoseArmed := by
  intro s p tag channel number h hm hr
  refine ⟨exec_doseArm_badParam h hm, fun c n d k hc hn hd => ?_⟩
  subst hc hn
  rw [exec_doseArm h hm, hd]
  refine ⟨fun h0 => by rw [if_pos (by simp [descEmpty, h0])], fun h0 hs => ?_, fun h0 hs hsource hk => ?_⟩
  · rw [if_neg (by simp [descEmpty, h0]), if_pos hs]
  · have hload : (s.setRx p .synced).loadDesc c n = (s.setRx p .synced).setChannel c (loadedWith n d k) :=
      loadDesc_armed c (by rw [State.setRx_dose, hd]) hsource ((s.loadedCount_setRx p .synced d).trans (loadedCount_of_loads hk))
    rw [if_neg (by simp [descEmpty, h0]), if_neg (by simp [hs]), hload, State.channel_setChannel_self, State.setChannel_setRx]
    exact congrArg Host.Outcome.next
      (hr.frame (s.keepsBut_channelAnswered p tag .ok (byte2 k) c (loadedWith n d k))).settle

theorem doseArmedWithoutDelay : Clauses.DoseArmedWithoutDelay := by
  intro s p tag c m d n k run h hm hr hd hn h4 h0 hidle hk hrun
  obtain ⟨ch, hch⟩ : ∃ x, x = ({ loadedWith m d k with state := .waitingPump, delayArmed := false, runLeft := run } : Channel) := ⟨_, rfl⟩
  have hload : (s.setRx p .synced).loadDesc c m = ((s.setRx p .synced).setChannel c ch).ask (.dose n) (channelWho c) 0 none :=
    hch ▸ loadDesc_opens c (by rw [State.setRx_dose, hd]) h4 h0 ((s.loadedCount_setRx p .synced d).trans (loadedCount_of_loads hk)) hn
      (runSize_of_opens hrun)
  have hloaded : (((s.setRx p .synced).loadDesc c m).channel c).loaded = k := by
    rw [hload, State.channel_congr (State.keepsBut_ask _ _ _ _ _).dose, State.channel_setChannel_self, hch]
    rfl
  have hexec : exec (.doseArm p tag c.val m.val) s =
      .next ((s.channelAnswered p tag .ok (byte2 k) c ch).ask (.dose n) (channelWho c) 0 none).settle := by
    rw [exec_doseArm h hm, hd, if_neg (by simp [descEmpty, hn]), if_neg (by simp [hidle]), hloaded, hload, State.reply_asked]
  have hdesc : s.currentDesc ch = d := by
    rw [hch]
    exact hd
  refine ⟨fun hfree hclosed hlatch hdoor hfull hwater => ?_, fun hfree hstroke => ?_⟩
  · obtain ⟨t, ht, hb⟩ := settle_answered_run (p := p) (tag := tag) (o := .ok) (fields := byte2 k) (c := c) (ch := ch) (n := n) hr
      (by rw [hch]) (by
        rw [State.channelReservoir, hdesc, descReservoir, if_neg (by omega), show d.reservoir - 1 = n.val by omega, finOf_val]
        rfl) (by rw [hdesc]; exact ⟨hfree, hclosed, hlatch, hdoor, hfull, hwater⟩)
    exact ⟨t, by rw [hexec, ht], by rw [hb.channel, hch]; rfl, hb.entry, hb.drive, hb.amount, hb.others, hb.descs, hb.entries, hb.answer,
      hb.frame⟩
  · obtain ⟨v, hv⟩ : ∃ v, v = s.channelAnswered p tag .ok (byte2 k) c ch := ⟨_, rfl⟩
    have kv : s.keepsBut v [.ports, .dose] := hv ▸ s.keepsBut_channelAnswered p tag .ok (byte2 k) c ch
    have hchannel : ∀ j, v.channel j = if j = c then ch else s.channel j := hv ▸ s.channel_channelAnswered p tag .ok (byte2 k) c ch
    have ka := v.keepsBut_ask (.dose n) (channelWho c) 0 none
    have hentry := v.editEntry_self (.dose n) fun e => { e with waiters := e.waiters ++ [⟨channelWho c, 0, none, false⟩] }
    rw [State.edited, kv.entry, kv.cfg, kv.drive] at hentry
    refine ⟨v.ask (.dose n) (channelWho c) 0 none, ?_, ?_, ?_, ?_, ?_, ?_, fun j hj => ?_, ?_, fun q hq => ?_, ?_,
      (State.keepsBut_mono kv (by decide)).step ka (by decide)⟩
    · rw [hexec, ← hv, settle_ask_waits (hr.frame kv) (by rw [kv.entry]; exact hfree) fun j hj hdosing => ?_]
      rw [hchannel] at hdosing ⊢
      split at hdosing
      next => rw [hch] at hdosing; cases hdosing
      next hne =>
        rw [if_neg hne]
        exact hstroke j (by rw [← kv.entry]; exact hj)
    · rw [State.channel_congr ka.dose, hchannel, if_pos rfl, hch]
    · rw [State.ask, hentry]
      show (s.entry (.dose n)).waiters ++ _ = _
      rw [(hr.1 _).1]
      rfl
    · rw [State.ask, hentry]
    · rw [State.ask, hentry]
    · rw [State.ask, hentry]
      exact yieldCondition_iff _ _ _
    · rw [State.channel_congr ka.dose, hchannel, if_neg hj]
    · rw [ka.dose, hv, State.descs_channelAnswered]
    · rw [State.entry_ask_ne 0 none (by simpa using hq), kv.entry]
    · rw [ka.ports, hv, State.ports_channelAnswered]

/-- Settles O34. -/
theorem doseArmLoads : Obligations.DoseArmLoads := ⟨doseArmed, doseArmedWithoutDelay⟩

/-! ### DOSE_TRIGGER -/

theorem exec_doseTrigger {s : State} {p : Port} {tag : Nat} (h : s.hears p tag) (hm : s.mode = .run) (c : ChannelId) :
    exec (.doseTrigger p tag c.val) s = .next (if (s.channel c).state = .idle ∨
        sourceOf (s.currentDesc (s.channel c)).source ≠ some .request then s.answered p tag .state []
      else (((s.setRx p .synced).triggerChannel c).reply p tag .ok (flagByte (s.channel c).flag)).settle) := by
  refine congrArg Host.Outcome.next ((immediateInRun_hears h hm _).trans ((State.onChannel_val _ p tag c _).trans ?_))
  simp only [State.channel_setRx, State.currentDesc_setRx]
  rfl

/-- Settles O35. -/
theorem doseTriggerStartsARun : Obligations.DoseTriggerStartsARun := by
  intro s p tag c n h hm hr
  refine ⟨fun hc => ?_, fun hs hsource => ⟨fun ha => ?_, fun ha hrun hn hfree hclosed hlatch hdoor hfull hwater => ?_⟩⟩
  · rw [exec_doseTrigger h hm, if_pos hc]
  · have htrigger : (s.setRx p .synced).triggerChannel c = (s.setRx p .synced).setChannel c { s.channel c with flag := true } := by
      unfold State.triggerChannel
      rw [State.channel_setRx, if_neg hs]
      refine armedAct_stays fun hc => ?_
      rw [State.channel_setChannel_self] at hc
      exact absurd hc ha
    rw [exec_doseTrigger h hm, if_neg (by simp [hs, hsource]), htrigger, State.setChannel_setRx]
    exact congrArg Host.Outcome.next (hr.frame (s.keepsBut_channelAnswered p tag .ok (flagByte (s.channel c).flag) c _)).settle
  · obtain ⟨ch, hch⟩ : ∃ x, x = ({ s.channel c with flag := true } : Channel).opened (s.currentDesc (s.channel c)) := ⟨_, rfl⟩
    have hopened : ch = { s.channel c with
        state := .waitingPump, flag := false, runLeft := runSize (s.currentDesc (s.channel c)) (s.channel c).remaining } := by
      rw [hch]
      unfold Channel.opened
      rw [if_neg (by rw [hrun]; decide), if_neg (by rw [hrun]; decide)]
      rfl
    have htrigger : (s.setRx p .synced).triggerChannel c =
        ((s.setRx p .synced).setChannel c ch).ask (.dose n) (channelWho c) 0 none := by
      unfold State.triggerChannel
      rw [State.channel_setRx, if_neg hs]
      have hcongr := State.channelReservoir_congr (s := s) (t := s.setRx p .synced) (ch := s.channel c)
        (ch' := { s.channel c with flag := true }) (by rw [State.setRx_dose]) rfl
      rw [setChannel_armedAct_asks (ch := { s.channel c with flag := true }) _ c ha (.inr rfl) (hcongr.trans hn), hch,
        State.currentDesc_setRx]
      rfl
    obtain ⟨t, ht, hb⟩ := settle_answered_run (p := p) (tag := tag) (o := .ok) (fields := flagByte (s.channel c).flag) (c := c) (ch := ch)
      (n := n) hr (by rw [hopened]) (by rw [← hn, hopened]; rfl)
      (by rw [hopened]; exact ⟨hfree, hclosed, hlatch, hdoor, hfull, hwater⟩)
    refine ⟨t, ?_, by rw [hb.channel, hopened]; rfl, hb.entry, hb.drive, hb.amount, hb.others, hb.entries, hb.answer, hb.frame⟩
    rw [exec_doseTrigger h hm, if_neg (by simp [hs, hsource]), htrigger, State.reply_asked, ht]

end Sys2Proof.Machine

/-! DOSE_STOP, DOSE_RESUME and DOSE_DISARM (R115 to R117). Settles O37. -/

namespace Sys2Proof.Machine

/-! ### A pump let go -/

/-- The part after the pump of `n` was let go (R4, R16). -/
def State.pumpFreed (s : State) (n : ReservoirId) : State :=
  (s.dropDrive (.dose n)).putEntry (.dose n) (s.letFree (.dose n))

theorem freeLease_dose (s : State) (n : ReservoirId) : (s.writeRelease (.dose n)).freeLease (.dose n) = s.pumpFreed n := by
  rw [State.freeLease_writeRelease]
  refine reportSwitching_same ?_
  have hout : ∀ q, q = .drain ∨ q = .heater → s.outputOn q = (s.pumpFreed n).outputOn q := fun q hq => by
    rw [State.outputOn, State.outputOn, State.pumpFreed, State.entry_putEntry, State.entry_dropDrive,
      if_neg (by rcases hq with rfl | rfl <;> exact fun e => by cases e)]
  exact Prod.ext rfl (Prod.ext (hout _ (.inl rfl)) (hout _ (.inr rfl)))

theorem State.entry_pumpFreed (s : State) (n : ReservoirId) (q : Resource) :
    (s.pumpFreed n).entry q = if q = .dose n then s.letFree (.dose n) else s.entry q := by
  rw [State.pumpFreed, State.entry_putEntry, State.entry_dropDrive]

theorem State.keepsBut_pumpFreed (s : State) (n : ReservoirId) : s.keepsBut (s.pumpFreed n) [.arb, .drive] :=
  (s.keepsBut_dropDrive (.dose n)).cons (State.keepsBut_putEntry _ _ _)

theorem State.drive_pumpFreed (s : State) (n : ReservoirId) :
    (s.pumpFreed n).drive = { s.drive with strokes := upd s.drive.strokes n ⟨false, 0⟩ } := rfl

theorem release_dose {s : State} {n : ReservoirId} (h : (s.entry (.dose n)).lease = .held ∨ (s.entry (.dose n)).lease = .suspended) :
    s.release (.dose n) = s.pumpFreed n := by
  have hr : s.freesAtOnce (.dose n) := ⟨h.symm.imp_right fun h => ⟨h, fun e => (by cases e), fun e => (by cases e)⟩, fun e => (by cases e)⟩
  rw [State.release_eq hr, ← State.freeLease_writeRelease, freeLease_dose]

/-- What letting a pump go can do, whatever its lease: nothing outside its entry and the drives, nothing to its waiters. -/
structure PumpLet (s t : State) (n : ReservoirId) : Prop where
  frame : s.keepsBut t [.arb, .drive]
  clock : t.drive.clock = s.drive.clock
  entries : s.keepsEntriesBut t [.dose n]
  waiters : (t.entry (.dose n)).waiters = (s.entry (.dose n)).waiters
  yields : (s.entry (.dose n)).yieldRequested = false → (t.entry (.dose n)).yieldRequested = false

theorem PumpLet.refl (s : State) (n : ReservoirId) : PumpLet s s n :=
  ⟨s.keepsBut_refl _, rfl, s.keepsEntriesBut_refl _, rfl, id⟩

theorem pumpFreed_let (s : State) (n : ReservoirId) : PumpLet s (s.pumpFreed n) n :=
  ⟨s.keepsBut_pumpFreed n, rfl, fun q hq => by rw [State.entry_pumpFreed, if_neg (by simpa using hq)],
    by rw [State.entry_pumpFreed, if_pos rfl]; rfl, fun _ => by rw [State.entry_pumpFreed, if_pos rfl]; rfl⟩

theorem releaseIf_let (s : State) (who : Holder) (n : ReservoirId) : PumpLet s (s.releaseIf who (.dose n)) n := by
  have h := pumpFreed_let s n
  unfold State.releaseIf
  split
  · rw [State.release, if_neg (fun e => by cases e.1), State.letGo]
    split
    · exact .refl s n
    · exact .refl s n
    · exact freeLease_dose s n ▸ h
    · rw [freeLease_dose]
      exact ⟨h.frame.step (State.keepsBut_withArb _ _) (by decide), h.clock, h.entries, h.waiters, h.yields⟩
    · show PumpLet s ((s.writeRelease (.dose n)).freeLease (.dose n)) n
      rw [freeLease_dose]
      exact h
  · exact .refl s n

theorem PumpLet.atRest {s t : State} {n : ReservoirId} (h : PumpLet s t n) (hr : s.atRest) : t.atRest := by
  refine hr.ofEntry (r := .dose n) (fun e => by cases e) (fun q hq => h.entries q (by simpa using hq)) ⟨?_, h.yields (hr.1 _).2⟩
    (by rw [h.frame.sense]) (by rw [h.frame.door]) h.frame.water
  rw [h.waiters, (hr.1 _).1]

/-- A pump that its channel holds is HELD or SUSPENDED, and let go it is FREE. -/
theorem releaseIf_dose {s : State} {who : Holder} {n : ReservoirId} (hl : s.leasesLegal) (hh : s.holds who (.dose n) = true) :
    s.releaseIf who (.dose n) = s.pumpFreed n := by
  rw [State.releaseIf_holds hh]
  refine release_dose ?_
  have hallows := (hl (.dose n)).2
  have hfree := ((State.holds_iff _ _ _).mp hh).1
  cases he : (s.entry (.dose n)).lease with
  | held => exact .inl rfl
  | suspended => exact .inr rfl
  | free => exact absurd he hfree
  | moving => rw [he] at hallows; cases hallows
  | releasing => rw [he] at hallows; cases hallows

/-! ### A channel halted -/

theorem PortState.place_rx (ps : PortState) (x : RxState) (rep : Report) :
    ({ ps with rx := x } : PortState).place rep = { ps.place rep with rx := x } := by
  unfold PortState.place PortState.firstSub
  dsimp only
  split
  · rfl
  · split <;> rfl

/-- A report and the receiver are written independently of each other. -/
theorem State.post_setRx (s : State) (p : Port) (x : RxState) (e : Event) (y v : Nat) :
    (s.setRx p x).post e y v = (s.post e y v).setRx p x := by
  cases p <;> simp only [State.post, State.setRx, State.setPort, State.port, PortState.place_rx] <;> rfl

theorem State.ports_post_clock {s t : State} (hp : t.ports = s.ports) (hc : t.drive.clock = s.drive.clock) (e : Event) (x v : Nat) :
    (t.post e x v).ports = (s.post e x v).ports := by simp only [State.post, hp, hc]

/-- The record of a channel that is HALTED with a cause. -/
def Channel.haltedBy (ch : Channel) (cause : HaltCause) : Channel :=
  { ch with state := .halted, cause := cause, step := .none, interval := Timer.zero }

theorem State.keepsBut_haltChannel (s : State) (c : ChannelId) (cause : HaltCause) : s.keepsBut (s.haltChannel c cause) [.ports, .dose] :=
  (State.keepsBut_mono (s.keepsBut_setChannel c _) (by decide)).step (State.keepsBut_post _ _ _ _) (by decide)

theorem State.channel_haltChannel (s : State) (c : ChannelId) (cause : HaltCause) (j : ChannelId) :
    (s.haltChannel c cause).channel j = if j = c then (s.channel c).haltedBy cause else s.channel j :=
  State.channel_setChannel s c j _

/-- `t` is `s` after channel `c` was halted with cause STOP by a request that was answered OK, its pump of `n` let go or not. -/
structure StopAnswered (s w t : State) (p : Port) (tag : Nat) (c : ChannelId) : Prop where
  channel : t.channel c = (s.channel c).haltedBy .stop
  others : ∀ k, k ≠ c → t.channel k = s.channel k
  descs : t.dose.descs = s.dose.descs
  arb : t.arb = w.arb
  drive : t.drive = w.drive
  answer : t.ports = ((s.post .doseHalted c.val 4).answered p tag .ok []).ports
  frame : w.keepsBut t [.ports, .dose]

theorem stopAnswered {s w : State} (p : Port) (tag : Nat) (c : ChannelId) (hw : (s.setRx p .synced).keepsBut w [.arb, .drive])
    (hclock : w.drive.clock = s.drive.clock) : StopAnswered s w ((w.haltChannel c .stop).reply p tag .ok []) p tag c := by
  have kh := w.keepsBut_haltChannel c .stop
  have kr := (w.haltChannel c .stop).keepsBut_reply p tag .ok []
  have hdose : w.dose = s.dose := by rw [hw.dose, State.setRx_dose]
  have hchannel : ∀ j, ((w.haltChannel c .stop).reply p tag .ok []).channel j =
      if j = c then (s.channel c).haltedBy .stop else s.channel j := fun j => by
    rw [State.channel_congr kr.dose, State.channel_haltChannel, State.channel_congr hdose, State.channel_congr hdose]
  refine ⟨by rw [hchannel, if_pos rfl], fun k hk => by rw [hchannel, if_neg hk], ?_, by rw [kr.arb, kh.arb], by rw [kr.drive, kh.drive], ?_,
    kh.step kr (by decide)⟩
  · rw [kr.dose]
    show w.dose.descs = _
    rw [hdose]
  · refine State.ports_replied ?_ tag .ok []
    rw [← State.post_setRx]
    refine State.ports_post_clock hw.ports ?_ _ _ _
    exact hclock.trans (congrArg Drive.clock (s.keepsBut_setRx p .synced).drive).symm

/-! ### DOSE_STOP -/

theorem exec_doseStop {s : State} {p : Port} {tag : Nat} (h : s.hears p tag) (c : ChannelId) :
    exec (.doseStop p tag c.val) s = .next (if (s.channel c).state = .idle then s.answered p tag .state []
      else (((s.setRx p .synced).stopChannel c).reply p tag .ok []).settle) := by
  refine congrArg Host.Outcome.next ((immediate_hears h _).trans ((State.onChannel_val _ p tag c _).trans ?_))
  rw [State.channel_setRx]
  rfl

theorem doseStopHalts : Clauses.DoseStopHalts := by
  intro s p tag channel h hr
  refine ⟨fun hc => ?_, fun c hc => ?_⟩
  · refine congrArg Host.Outcome.next ((immediate_hears h _).trans ?_)
    rw [State.onChannel_badParam _ _ _ hc]
    rfl
  subst hc
  rw [exec_doseStop h]
  have hch := State.channel_setRx s p .synced c
  refine ⟨fun hi => by rw [if_pos hi], fun hd hs => ?_, fun hh hcause => ?_, fun hcase => ?_⟩
  · have hstop : (s.setRx p .synced).stopChannel c = (s.setRx p .synced).setChannel c { s.channel c with stopPending := true } := by
      unfold State.stopChannel
      simp only [hch, hd, hs, if_true]
    rw [if_neg (by rw [hd]; decide), hstop, State.setChannel_setRx]
    exact congrArg Host.Outcome.next (hr.frame (s.keepsBut_channelAnswered p tag .ok [] c _)).settle
  · have hstop : (s.setRx p .synced).stopChannel c = s.setRx p .synced := by
      unfold State.stopChannel
      rcases hcause with hcause | hcause <;> simp only [hch, hh, hcause]
    rw [if_neg (by rw [hh]; decide), hstop]
    exact congrArg Host.Outcome.next (hr.frame (s.keepsBut_answered p tag .ok [])).settle
  · obtain ⟨n, hn⟩ : ∃ n, s.channelPump (s.channel c) = .dose n := ⟨_, rfl⟩
    have hpump : (s.setRx p .synced).channelPump (s.channel c) = .dose n := (State.channelPump_setRx _ _ _ _).trans hn
    obtain ⟨w, hstop, hlet, hfreed, hkept⟩ : ∃ w, (s.setRx p .synced).stopChannel c = w.haltChannel c .stop ∧
        PumpLet (s.setRx p .synced) w n ∧
        (((s.channel c).state = .dosing ∨ ((s.channel c).state = .halted ∧ (s.channel c).cause = .door)) →
          w = (s.setRx p .synced).releaseIf (channelWho c) (.dose n)) ∧
        (((s.channel c).state = .armed ∨ ((s.channel c).state = .halted ∧ (s.channel c).cause = .empty)) → w = s.setRx p .synced) := by
      unfold State.stopChannel
      rw [hch]
      rcases hcase with ha | ⟨hd, hs, -⟩ | ⟨hh, hcause | hcause⟩
      · exact ⟨_, by simp only [ha], .refl _ n, by simp [ha], fun _ => rfl⟩
      · exact ⟨_, by simp only [hd, if_neg hs, hpump], releaseIf_let _ _ n, fun _ => rfl, by simp [hd]⟩
      · exact ⟨_, by simp only [hh, hcause, hpump], releaseIf_let _ _ n, fun _ => rfl, by simp [hh, hcause]⟩
      · exact ⟨_, by simp only [hh, hcause], .refl _ n, by simp [hh, hcause], fun _ => rfl⟩
    have kr := s.keepsBut_setRx p .synced
    have hans := stopAnswered p tag c hlet.frame (hlet.clock.trans (congrArg Drive.clock kr.drive))
    have hrest : ((w.haltChannel c .stop).reply p tag .ok []).atRest := (hlet.atRest (hr.frame kr)).frame hans.frame
    have hentry : ∀ q, ((w.haltChannel c .stop).reply p tag .ok []).entry q = w.entry q :=
      State.entry_congr (congrArg Arbiter.table hans.arb)
    rw [hn]
    refine ⟨_, ?_, hans.channel, fun hcase' hl hh => ?_, fun hcase' => ?_, hans.others, hans.descs, fun q hq => ?_, hans.answer,
      ((State.keepsBut_mono kr (by decide)).step hlet.frame (by decide)).step hans.frame (by decide)⟩
    · rw [if_neg, hstop, hrest.settle]
      intro hi
      rcases hcase with hc | ⟨hc, -⟩ | ⟨hc, -⟩ <;> rw [hi] at hc <;> cases hc
    · have hheld : (s.setRx p .synced).holds (channelWho c) (.dose n) = true := by rw [State.holds_setRx, hh]
      have hlegal : (s.setRx p .synced).leasesLegal := fun q => by rw [State.entry_setRx]; exact hl q
      rw [hentry, hfreed hcase', releaseIf_dose hlegal hheld, State.entry_pumpFreed, if_pos rfl]
      exact ⟨rfl, rfl⟩
    · rw [hans.arb, hans.drive, hkept hcase']
      exact ⟨kr.arb, kr.drive⟩
    · rw [hentry, hlet.entries q hq, State.entry_setRx]

/-! ### DOSE_STOP of a channel that waits for its pump -/

/-- A requester that waits in one list alone leaves that one (R22). -/
theorem State.withdraw_only {s : State} {who : Holder} {r : Resource} (h : ∀ q, q ≠ r → s.waitsFor who q = false) :
    s.withdraw who = s.withdrawFrom who r := by
  have hstays : ∀ (l : List Resource) (t : State), (∀ q ∈ l, t.waitsFor who q = false) →
      l.foldl (fun s r => s.withdrawFrom who r) t = t := fun l => by
    induction l with
    | nil => exact fun t _ => rfl
    | cons q qs ih =>
      intro t ht
      rw [List.foldl_cons, State.withdrawFrom, if_neg (by simp [ht q]), ih t fun x hx => ht x (List.mem_cons_of_mem q hx)]
  have hother : ∀ q, q ≠ r → (s.withdrawFrom who r).waitsFor who q = false := fun q hq => by
    rw [← h q hq]
    unfold State.withdrawFrom
    split
    · simp only [State.waitsFor, State.entry_editEntry, if_neg hq]
    · rfl
  obtain ⟨l, m, hlm⟩ := List.append_of_mem (Resource.mem_allResources r)
  have hnodup : (l ++ r :: m).Nodup := hlm ▸ by decide
  obtain ⟨-, hm, hdisjoint⟩ := List.nodup_append.mp hnodup
  unfold State.withdraw
  rw [hlm, List.foldl_append, List.foldl_cons, hstays l s fun q hq => h q fun e => hdisjoint q hq r List.mem_cons_self e,
    hstays m _ fun q hq => hother q fun e => (List.nodup_cons.mp hm).1 (e ▸ hq)]

/-- The entry of a resource that a requester no longer waits for. -/
theorem withdrawFrom_eq {s : State} {who : Holder} {r : Resource} (h : s.waitsFor who r = true) :
    s.withdrawFrom who r = s.putEntry r (s.edited r fun e => { e with waiters := e.waiters.filter fun w => w.who != who }) :=
  (if_pos h).trans (State.editEntry_quiet (.inl Iff.rfl))

theorem Settings.yieldAsked_mono {g : Settings} {clock : Nat} {e f : Entry} (hl : f.lease = e.lease) (hh : f.holder = e.holder)
    (hg : f.grantTime = e.grantTime) (hw : ∀ w ∈ f.waiters, w ∈ e.waiters) (h : g.yieldAsked clock f) : g.yieldAsked clock e := by
  obtain ⟨hlease, x, hx, hprotect, ⟨w, hmem, hurgent⟩, htenure⟩ := h
  exact ⟨hl ▸ hlease, x, hh ▸ hx, hprotect, ⟨w, hw w hmem, hurgent⟩, hg ▸ htenure⟩

theorem doseStopWaiting : Clauses.DoseStopWaiting := by
  intro s p tag c h hstate hwaits hcalm hcase hothers
  obtain ⟨n, hn⟩ : ∃ n, s.channelPump (s.channel c) = .dose n := ⟨_, rfl⟩
  rw [hn] at hwaits hcalm hcase hothers ⊢
  have kr := s.keepsBut_setRx p .synced
  obtain ⟨w, hw⟩ : ∃ w, w = (s.setRx p .synced).withdraw (channelWho c) := ⟨_, rfl⟩
  have hwe : w = (s.setRx p .synced).putEntry (.dose n) ((s.setRx p .synced).edited (.dose n)
      fun e => { e with waiters := e.waiters.filter fun w => w.who != channelWho c }) := by
    rw [hw, State.withdraw_only (r := .dose n) fun q hq => by rw [State.waitsFor_setRx]; exact hothers q hq,
      withdrawFrom_eq (by rw [State.waitsFor_setRx]; exact hwaits)]
  have kw : (s.setRx p .synced).keepsBut w [.arb] := hwe ▸ State.keepsBut_putEntry _ _ _
  have hwentry : ∀ q, w.entry q = if q = .dose n then
      s.edited (.dose n) fun e => { e with waiters := e.waiters.filter fun w => w.who != channelWho c } else s.entry q := fun q => by
    rw [hwe, State.entry_putEntry, State.edited, State.entry_setRx, State.entry_setRx, kr.cfg, kr.drive]
    rfl
  have hans := stopAnswered p tag c (State.keepsBut_mono kw (by decide)) (congrArg Drive.clock (kw.drive.trans kr.drive))
  obtain ⟨t, ht⟩ : ∃ t, t = (w.haltChannel c .stop).reply p tag .ok [] := ⟨_, rfl⟩
  rw [← ht] at hans
  have hentry : ∀ q, t.entry q = w.entry q := State.entry_congr (congrArg Arbiter.table hans.arb)
  have htentry : t.entry (.dose n) = s.edited (.dose n) fun e => { e with waiters := e.waiters.filter fun w => w.who != channelWho c } := by
    rw [hentry, hwentry, if_pos rfl]
  have hwaiters : (t.entry (.dose n)).waiters = (s.entry (.dose n)).waiters.filter fun w => w.who != channelWho c := by
    rw [htentry]
    rfl
  have hyields : (t.entry (.dose n)).yieldRequested = true ↔ s.cfg.yieldAsked s.drive.clock (t.entry (.dose n)) := by
    rw [htentry]
    exact yieldCondition_iff _ _ _
  have kt : s.keepsBut t [.arb, .ports, .dose] :=
    ((State.keepsBut_mono kr (by decide)).step kw (by decide)).step hans.frame (by decide)
  have hkeeps : s.keepsEntriesBut t [.dose n] := fun q hq => by rw [hentry, hwentry, if_neg (by simpa using hq)]
  have htcalm : t.calmBut (.dose n) := hcalm.ofEntry (fun e => by cases e) hkeeps (by rw [kt.sense]) (by rw [kt.door]) kt.water
  have hasked : s.cfg.yieldAsked s.drive.clock (t.entry (.dose n)) → s.cfg.yieldAsked s.drive.clock (s.entry (.dose n)) :=
    Settings.yieldAsked_mono (by rw [htentry]; rfl) (by rw [htentry]; rfl) (by rw [htentry]; rfl)
      fun v hv => List.mem_of_mem_filter (hwaiters ▸ hv)
  have hholder : (t.entry (.dose n)).holder = (s.entry (.dose n)).holder := by
    rw [htentry]
    rfl
  have hsettle : t.settle = t := by
    rcases hcase with ⟨hl, hy⟩ | hall
    · refine htcalm.settle (fun hreq k hk hd => ?_) (.inl (by rw [htentry]; exact hl))
      by_cases hkc : k = c
      · rw [hkc, hans.channel] at hd
        cases hd
      · rw [hans.others k hkc, hy (hasked (hyields.mp hreq)) k (by rw [← hholder]; exact hk)]
        decide
    · have hnone : (t.entry (.dose n)).waiters = [] := by
        rw [hwaiters, List.filter_eq_nil_iff]
        exact fun v hv => by simp [hall v hv]
      refine htcalm.settle (fun hreq => ?_) (.inr hnone)
      obtain ⟨-, x, -, -, ⟨v, hv, -⟩, -⟩ := hyields.mp hreq
      rw [hnone] at hv
      cases hv
  refine ⟨t, ?_, hans.channel, ?_, hyields, hans.others, hans.descs, hkeeps, hans.answer, kt⟩
  · have hstop : (s.setRx p .synced).stopChannel c = w.haltChannel c .stop := by
      unfold State.stopChannel
      simp only [State.channel_setRx, hstate, hw]
    rw [exec_doseStop h, if_neg (by rw [hstate]; decide), hstop, ← ht, hsettle]
  · have hfilter : (s.entry (.dose n)).waiters.filter (fun w => w.who != channelWho c) =
        (s.entry (.dose n)).waiters.filter fun v => v.who ≠ channelWho c :=
      List.filter_congr fun v _ => by simp [bne, beq_eq_decide]
    rw [← hfilter, htentry]
    rfl

/-! ### DOSE_RESUME -/

theorem exec_doseResume {s : State} {p : Port} {tag : Nat} (h : s.hears p tag) (c : ChannelId) :
    exec (.doseResume p tag c.val) s = .next (if (s.channel c).state = .halted ∧ s.resumable (s.channel c) = true
      then (((s.setRx p .synced).returnChannel c).reply p tag .ok []).settle else s.answered p tag .state []) := by
  have hresumable : (s.setRx p .synced).resumable (s.channel c) = s.resumable (s.channel c) :=
    read_setRx (fun u => u.resumable (s.channel c)) (fun _ _ => by unfold State.resumable; rfl) s p .synced
  refine congrArg Host.Outcome.next ((immediate_hears h _).trans ((State.onChannel_val _ p tag c _).trans ?_))
  dsimp only
  rw [State.channel_setRx, hresumable]
  rfl

theorem doseResumeArms : Clauses.DoseResumeArms := by
  intro s p tag c h hr
  refine ⟨fun channel hc => ?_, fun hno => ?_, fun hhalt hgone => ?_⟩
  · refine congrArg Host.Outcome.next ((immediate_hears h _).trans ?_)
    rw [State.onChannel_badParam _ _ _ hc]
    rfl
  · rw [exec_doseResume h, if_neg]
    rintro ⟨hh, hg⟩
    unfold State.resumable at hg
    rcases hno with hs | hcause | ⟨hcause, hl⟩ | ⟨hcause, he⟩
    · exact hs hh
    · simp [hcause] at hg
    · simp [hcause, hl] at hg
    · rw [hcause] at hg
      simp only [Bool.not_eq_true'] at hg
      exact Bool.false_ne_true (hg.symm.trans he)
  have hresumable : s.resumable (s.channel c) = true := by
    unfold State.resumable
    rcases hgone with ⟨hcause, hl⟩ | ⟨hcause, he⟩ | hcause
    · simp [hcause, hl]
    · rw [hcause]
      exact congrArg not he
    · simp [hcause]
  obtain ⟨ch, hch⟩ : ∃ x, x = ({ s.channel c with state := .armed, cause := .none } : Channel) := ⟨_, rfl⟩
  have hreturn : (s.setRx p .synced).returnChannel c = ((s.setRx p .synced).setChannel c ch).armedAct c := by
    rw [State.returnChannel, State.channel_setRx, hch]
  rw [exec_doseResume h, if_pos ⟨hhalt, hresumable⟩, hreturn]
  refine ⟨fun hrun hflag => ?_, fun n hgo hn hfree hclosed hlatch hdoor hfull hwater => ?_⟩
  · rw [armedAct_stays fun _ => by rw [State.channel_setChannel_self, hch]; exact ⟨hrun, hflag⟩, State.setChannel_setRx, ← hch]
    exact congrArg Host.Outcome.next (hr.frame (s.keepsBut_channelAnswered p tag .ok [] c ch)).settle
  · have hn' : (s.setRx p .synced).channelReservoir ch = n :=
      (State.channelReservoir_congr (s := s) (ch := s.channel c) (by rw [State.setRx_dose]) (by rw [hch])).trans hn
    rw [setChannel_armedAct_asks _ c (by rw [hch]) (by rw [hch]; exact hgo) hn', State.currentDesc_setRx, State.reply_asked]
    have hdesc : ∀ d, s.currentDesc (ch.opened d) = s.currentDesc (s.channel c) := fun d => by
      rw [hch]
      rfl
    obtain ⟨t, ht, hb⟩ := settle_answered_run (s := s) (p := p) (tag := tag) (o := .ok) (fields := []) (c := c)
      (ch := ch.opened (s.currentDesc ch)) (n := n) hr rfl (by rw [State.channelReservoir, hdesc, ← hn]; rfl)
      (by rw [hdesc]; exact ⟨hfree, hclosed, hlatch, hdoor, hfull, hwater⟩)
    refine ⟨t, by rw [ht], ?_, hb.entry, hb.drive, hb.amount, hb.others, hb.descs, hb.entries, hb.answer, hb.frame⟩
    rw [hb.channel, hch]
    rfl

/-! ### DOSE_DISARM -/

theorem doseDisarmIdles : Clauses.DoseDisarmIdles := by
  intro s p tag channel h
  refine ⟨fun hc => ?_, fun c hc => ?_⟩
  · refine congrArg Host.Outcome.next ((immediate_hears h _).trans ?_)
    rw [State.onChannel_badParam _ _ _ hc]
    rfl
  subst hc
  refine ⟨fun hi => ?_, fun hb => ?_, fun hf => ?_, fun hh hr hl hheld => ?_⟩
  · refine congrArg Host.Outcome.next ((immediate_hears h _).trans ((State.onChannel_val _ p tag c _).trans ?_))
    simp only [State.channel_setRx, hi]
    rfl
  · refine congrArg Host.Outcome.next ((immediate_hears h _).trans ((State.onChannel_val _ p tag c _).trans ?_))
    rcases hb with hb | hb <;> simp only [State.channel_setRx, hb] <;> rfl
  · refine congrArg Host.Outcome.next ((immediate_hears h _).trans ((State.onChannel_val _ p tag c _).trans ?_))
    rcases hf with ha | ⟨hh, hr, hfree⟩
    · simp only [State.channel_setRx, ha, State.idleChannel, State.setChannel_setRx]
      rfl
    · have hnone : (s.setRx p .synced).holds (channelWho c) (s.channelPump (s.channel c)) = false := by rw [State.holds_setRx, hfree]
      simp only [State.channel_setRx, hh, State.channelPump_setRx, State.releaseIf_absent hnone, State.idleChannel, State.setChannel_setRx]
      exact (hr.frame (s.keepsBut_channelAnswered p tag .ok [] c Channel.reset)).settle
  · obtain ⟨n, hn⟩ : ∃ n, s.channelPump (s.channel c) = .dose n := ⟨_, rfl⟩
    rw [hn] at hheld ⊢
    have kr := s.keepsBut_setRx p .synced
    have hfreed : (s.setRx p .synced).releaseIf (channelWho c) (.dose n) = (s.setRx p .synced).pumpFreed n :=
      releaseIf_dose (fun q => by rw [State.entry_setRx]; exact hl q) (by rw [State.holds_setRx, hheld])
    obtain ⟨w, hw⟩ : ∃ w, w = (s.setRx p .synced).pumpFreed n := ⟨_, rfl⟩
    have kw : (s.setRx p .synced).keepsBut w [.arb, .drive] := hw ▸ State.keepsBut_pumpFreed _ n
    have hwentry : ∀ q, w.entry q = if q = .dose n then (s.setRx p .synced).letFree (.dose n) else s.entry q := fun q => by
      rw [hw, State.entry_pumpFreed, State.entry_setRx]
    have kt : w.keepsBut ((w.idleChannel c).reply p tag .ok []) [.ports, .dose] :=
      (State.keepsBut_mono (w.keepsBut_setChannel c Channel.reset) (by decide)).step (State.keepsBut_reply _ p tag .ok []) (by decide)
    have hdose : w.dose = s.dose := by rw [kw.dose, State.setRx_dose]
    have hrest : w.atRest := hw ▸ (pumpFreed_let _ n).atRest (hr.frame kr)
    have hchannel : ∀ j, ((w.idleChannel c).reply p tag .ok []).channel j = if j = c then Channel.reset else s.channel j := fun j => by
      rw [State.channel_congr (State.keepsBut_reply _ p tag .ok []).dose, State.idleChannel, State.channel_setChannel, State.channel_congr hdose]
    refine ⟨(w.idleChannel c).reply p tag .ok [], ?_, by rw [hchannel, if_pos rfl], fun k hk => by rw [hchannel, if_neg hk], ?_, ?_, ?_,
      fun q hq => ?_, ?_, ((State.keepsBut_mono kr (by decide)).step kw (by decide)).step kt (by decide)⟩
    · refine congrArg Host.Outcome.next ((immediate_hears h _).trans ((State.onChannel_val _ p tag c _).trans ?_))
      simp only [State.channel_setRx, hh, State.channelPump_setRx, hn, hfreed, ← hw]
      exact (hrest.frame kt).settle
    · rw [(State.keepsBut_reply _ p tag .ok []).dose]
      show w.dose.descs = _
      rw [hdose]
    · rw [kt.entry, hwentry, if_pos rfl]
      rfl
    · rw [kt.entry, hwentry, if_pos rfl]
      rfl
    · rw [kt.entry, hwentry, if_neg (by simpa using hq)]
    · exact State.ports_replied ((w.keepsBut_setChannel c Channel.reset).ports.trans kw.ports) tag .ok []

/-- Settles O37. -/
theorem doseStopResumeDisarm : Obligations.DoseStopResumeDisarm :=
  ⟨doseStopHalts, doseStopWaiting, doseResumeArms, doseDisarmIdles⟩

end Sys2Proof.Machine

/-! The grant rule: who is chosen of several waiters, and what the grant leaves (R10, R16, R18). -/

namespace Sys2Proof.Machine

/-! ### The order of a ring -/

theorem mem_roundRobin {i : Ident} (h : i ≠ .protect) : i ∈ roundRobin := by
  cases i with
  | port p => cases p <;> decide
  | ch c => fin_cases c <;> decide
  | regen => decide
  | dry => decide
  | protect => exact absurd rfl h

/-- The rank that orders the waiters is the place in the turns of the ring (R10 step 2). -/
theorem rrRank_eq_idxOf {position : Option Ident} {i : Ident} (hp : position ≠ some .protect) (hi : i ≠ .protect) :
    rrRank position i = (turns position).idxOf i := by
  have hnone : ∀ j ∈ roundRobin, rrRank none j = (turns none).idxOf j := by decide
  have hsome : ∀ k ∈ roundRobin, ∀ j ∈ roundRobin, rrRank (some k) j = (turns (some k)).idxOf j := by decide
  cases position with
  | none => exact hnone i (mem_roundRobin hi)
  | some k => exact hsome k (mem_roundRobin fun e => hp (congrArg some e)) i (mem_roundRobin hi)

theorem rrRank_injective {position : Option Ident} {i j : Ident} (hp : position ≠ some .protect) (hi : i ≠ .protect) (hj : j ≠ .protect)
    (h : rrRank position i = rrRank position j) : i = j := by
  have hnone : ∀ j ∈ roundRobin, j ∈ turns none := by decide
  have hsome : ∀ k ∈ roundRobin, ∀ j ∈ roundRobin, j ∈ turns (some k) := by decide
  have hin : i ∈ turns position := by
    cases position with
    | none => exact hnone i (mem_roundRobin hi)
    | some k => exact hsome k (mem_roundRobin fun e => hp (congrArg some e)) i (mem_roundRobin hi)
  rw [rrRank_eq_idxOf hp hi, rrRank_eq_idxOf hp hj] at h
  exact (List.idxOf_inj hin).mp h

/-! ### The first of a list -/

/-- A waiter comes no later than another by rank and then by age. -/
def rrBefore (position : Option Ident) (v w : Waiter) : Prop :=
  rrRank position v.who.ident < rrRank position w.who.ident ∨
    (rrRank position v.who.ident = rrRank position w.who.ident ∧ v.serial ≤ w.serial)

theorem rrBefore.trans {position : Option Ident} {u v w : Waiter} (h : rrBefore position u v) (k : rrBefore position v w) :
    rrBefore position u w := by
  unfold rrBefore at *
  omega

theorem rrFirst_before (position : Option Ident) (v w : Waiter) :
    rrBefore position (rrFirst position v w) v ∧ rrBefore position (rrFirst position v w) w := by
  unfold rrFirst rrBefore
  dsimp only
  split <;> omega

theorem foldl_rrFirst_before (position : Option Ident) : ∀ (l : List Waiter) (v : Waiter),
    ∀ w ∈ v :: l, rrBefore position (l.foldl (rrFirst position) v) w
  | [], v, w, hw => by
    obtain rfl := List.mem_singleton.mp hw
    exact .inr ⟨rfl, le_rfl⟩
  | x :: xs, v, w, hw => by
    have ih := foldl_rrFirst_before position xs (rrFirst position v x)
    have hfirst := ih _ List.mem_cons_self
    rcases List.mem_cons.mp hw with rfl | hw
    · exact hfirst.trans (rrFirst_before position w x).1
    · rcases List.mem_cons.mp hw with rfl | hw
      · exact hfirst.trans (rrFirst_before position v w).2
      · exact ih w (List.mem_cons_of_mem _ hw)

theorem pickWaiter_before {position : Option Ident} {l : List Waiter} {v : Waiter} (h : pickWaiter position l = some v) :
    ∀ w ∈ l, rrBefore position v w := by
  cases l with
  | nil => exact fun w hw => by cases hw
  | cons x xs =>
    obtain rfl := Option.some.inj h
    exact foldl_rrFirst_before position xs x

theorem pickWaiter_some {position : Option Ident} {l : List Waiter} (h : l ≠ []) : ∃ v, pickWaiter position l = some v := by
  cases l with
  | nil => exact absurd rfl h
  | cons x xs => exact ⟨_, rfl⟩

theorem takenBefore_of {position : Option Ident} {v w : Waiter} (hp : position ≠ some .protect) (hv : v.who.ident ≠ .protect)
    (hw : w.who.ident ≠ .protect) (h : rrBefore position v w) : takenBefore position v w := by
  rcases h with h | ⟨h, hs⟩
  · rw [rrRank_eq_idxOf hp hv, rrRank_eq_idxOf hp hw] at h
    exact .inl h
  · exact .inr ⟨rrRank_injective hp hv hw h, hs⟩

/-! ### The waiter chosen -/

section Choice

variable {s : State} {r : Resource}

/-- The waiters that the hold-off leaves, where every one meets the other conditions (R16). -/
theorem eligible_afterHoldOff (h : ∀ w ∈ (s.entry r).waiters, s.eligibleBase r w = true) :
    (s.entry r).waiters.filter (s.eligible r) = s.cfg.afterHoldOff s.drive.clock (s.entry r).lastRelease (s.entry r).waiters := by
  have hfilter : (s.entry r).waiters.filter (s.eligible r) = (s.entry r).waiters.filter fun w => !s.heldOff r w :=
    List.filter_congr fun w hw => by rw [State.eligible, h w hw, Bool.true_and]
  rw [hfilter]
  unfold Settings.afterHoldOff State.heldOff
  cases (s.entry r).lastRelease with
  | none => simp
  | some x =>
    obtain ⟨i, t⟩ := x
    have hany : ((s.entry r).waiters.any fun v => v.who.ident != i && s.eligibleBase r v) = true ↔ ∃ w ∈ (s.entry r).waiters, w.who.ident ≠ i := by
      rw [List.any_eq_true]
      exact exists_congr fun v => and_congr_right fun hv => by simp [h v hv]
    have helapsed : decide (clockElapsed s.drive.clock t < s.cfg.regrantHoldoff) = true ↔
        (s.drive.clock + 4294967296 - t) % 4294967296 < s.cfg.regrantHoldoff := decide_eq_true_iff.trans Iff.rfl
    dsimp only
    split
    next hc =>
      rw [helapsed.mpr hc.1, hany.mpr hc.2]
      exact List.filter_congr fun w _ => by simp [beq_eq_decide]
    next hc =>
      refine List.filter_eq_self.mpr fun w _ => ?_
      by_contra hheld
      simp only [Bool.not_eq_true', Bool.not_eq_false, Bool.and_eq_true] at hheld
      exact hc ⟨helapsed.mp hheld.1.2, hany.mp hheld.2⟩

/-- Of the eligible waiters of a FREE resource the grant rule chooses one, as R10 has it. -/
theorem chosenWaiter_chooses (hl : (s.entry r).lease = .free) (hp : (s.entry r).positionsLegal) {ok : List Waiter}
    (hok : (s.entry r).waiters.filter (s.eligible r) = ok) (hne : ok ≠ []) (hident : ∀ w ∈ ok, w.who.ident ≠ .protect) :
    ∃ v, s.chosenWaiter r = some v ∧ s.chooses r ok v := by
  have hchosen : s.chosenWaiter r = if (ok.filter fun w => ringOf s.cfg w.who.ident == .urgent).isEmpty then
      pickWaiter (s.entry r).rrNormal ok else pickWaiter (s.entry r).rrUrgent (ok.filter fun w => ringOf s.cfg w.who.ident == .urgent) := by
    unfold State.chosenWaiter
    dsimp only
    rw [if_neg (by simp [hl]), hok]
  rw [hchosen]
  split
  next hempty =>
    have hnone : ∀ w ∈ ok, ringOf s.cfg w.who.ident ≠ .urgent := by simpa [List.filter_eq_nil_iff] using hempty
    obtain ⟨v, hv⟩ := pickWaiter_some (position := (s.entry r).rrNormal) hne
    have hmem := pickWaiter_mem hv
    refine ⟨v, hv, hmem, fun ⟨w, hw, hurgent⟩ => absurd hurgent (hnone w hw), fun _ w hw => ?_⟩
    exact takenBefore_of hp.2 (hident v hmem) (hident w hw) (pickWaiter_before hv w hw)
  next hsome =>
    obtain ⟨v, hv⟩ := pickWaiter_some (position := (s.entry r).rrUrgent)
      (l := ok.filter fun w => ringOf s.cfg w.who.ident == .urgent) (by simpa using hsome)
    obtain ⟨hmem, hurgent⟩ := List.mem_filter.mp (pickWaiter_mem hv)
    have hring : ringOf s.cfg v.who.ident = .urgent := by simpa using hurgent
    refine ⟨v, hv, hmem, fun _ => ⟨hring, fun w hw hwring => ?_⟩, fun hall => ?_⟩
    · exact takenBefore_of hp.1 (hident v hmem) (hident w hw)
        (pickWaiter_before hv w (List.mem_filter.mpr ⟨hw, by simp [hwring]⟩))
    · rw [hall v hmem] at hring
      cases hring

/-- In a part where one resource alone has waiters, all of them eligible but for the hold-off, `settle` grants it to the one that the
rule chooses. -/
theorem settleFor_chooses (n : Nat) (hi : s.water.interlock = s.interlockMet) (hy : ∀ q, (s.entry q).yieldRequested = false)
    (ho : ∀ q, q ≠ r → (s.entry q).waiters = []) (hl : (s.entry r).lease = .free) (hw : (s.entry r).waiters ≠ [])
    (hp : (s.entry r).positionsLegal) (hident : ∀ w ∈ (s.entry r).waiters, w.who.ident ≠ .protect)
    (he : ∀ w ∈ (s.entry r).waiters, s.eligibleBase r w = true) :
    ∃ v, s.chooses r (s.cfg.afterHoldOff s.drive.clock (s.entry r).lastRelease (s.entry r).waiters) v ∧
      s.settleFor (n + 1) = ((s.grantLease r v).ownerGranted r v.who).settleFor n := by
  have hok := eligible_afterHoldOff he
  have hsub : ∀ w ∈ s.cfg.afterHoldOff s.drive.clock (s.entry r).lastRelease (s.entry r).waiters, w ∈ (s.entry r).waiters :=
    fun w hw => List.mem_of_mem_filter (hok ▸ hw)
  have hne : s.cfg.afterHoldOff s.drive.clock (s.entry r).lastRelease (s.entry r).waiters ≠ [] := by
    unfold Settings.afterHoldOff
    split
    · exact hw
    · split
      next hc =>
        obtain ⟨-, w, hmem, hne⟩ := hc
        exact List.ne_nil_of_mem (List.mem_filter.mpr ⟨hmem, by simpa using hne⟩)
      next => exact hw
  obtain ⟨v, hv, hchooses⟩ := chosenWaiter_chooses hl hp hok hne fun w hw => hident w (hsub w hw)
  refine ⟨v, hchooses, ?_⟩
  rw [settleFor_one n hi hy (Resource.mem_allResources r) (by rw [hv]; rfl) ho, State.grant, hv]

theorem State.chooses_mem {ok : List Waiter} {v : Waiter} (h : s.chooses r ok v) : v ∈ ok := h.1

end Choice

theorem Settings.mem_afterHoldOff {g : Settings} {clock : Nat} {last : Option (Ident × Nat)} {ws : List Waiter} {w : Waiter}
    (h : w ∈ g.afterHoldOff clock last ws) : w ∈ ws := by
  unfold Settings.afterHoldOff at h
  split at h
  · exact h
  · split at h
    · exact List.mem_of_mem_filter h
    · exact h

/-- A resource just released is not granted to its releaser while another waits (R16). -/
theorem Settings.afterHoldOff_now {g : Settings} {clock : Nat} {i : Ident} {ws : List Waiter} {w : Waiter} (hh : 0 < g.regrantHoldoff)
    (hw : ∃ w ∈ ws, w.who.ident ≠ i) (h : w ∈ g.afterHoldOff clock (some (i, clock)) ws) : w.who.ident ≠ i := by
  have hnow : (clock + 4294967296 - clock) % 4294967296 = 0 := by omega
  unfold Settings.afterHoldOff at h
  dsimp only at h
  rw [if_pos ⟨by omega, hw⟩] at h
  simpa using (List.mem_filter.mp h).2

/-! ### What the grant leaves -/

/-- The entry that a grant to one of several waiters leaves, whatever the lease was before it was let go (R10, R16, R18). -/
theorem passedOn_granted {g : Settings} {clock : Nat} {e f : Entry} {v : Waiter} (port : Option Port) (l : LeaseState)
    (hu : f.rrUrgent = e.rrUrgent) (hn : f.rrNormal = e.rrNormal) :
    g.passedOn clock e { Entry.granted g clock port v l f with yieldRequested := yieldCondition g clock (Entry.granted g clock port v l f) }
      f.waiters v port l f.lastRelease := by
  refine ⟨?_, yieldCondition_iff _ _ _⟩
  have hfilter : f.waiters.filter (fun w => w.who != v.who) = f.waiters.filter fun w => w.who ≠ v.who :=
    List.filter_congr fun w _ => by simp [bne, beq_eq_decide]
  rw [Entry.granted_eq, hfilter]
  unfold Settings.grantRecord
  rw [hu, hn]

end Sys2Proof.Machine

/-! The steps of a dose run that are timed: a stroke that ends, an interval and a delay that pass (R99, R105 to R110, R115). -/

namespace Sys2Proof.Machine

/-! ### Every channel rewritten once -/

/-- The channels of a list still have the records of `s`; the others have those that `g` gives. -/
structure Rewritten (s : State) (g : ChannelId → Channel) (l : List ChannelId) (t : State) : Prop where
  todo : ∀ c ∈ l, t.channel c = s.channel c
  told : ∀ c, c ∉ l → t.channel c = g c
  descs : t.dose.descs = s.dose.descs
  frame : s.keepsBut t [.dose]

theorem Rewritten.foldl {s : State} {g : ChannelId → Channel} {f : State → ChannelId → State}
    (hf : ∀ (t : State) (c : ChannelId), t.dose.descs = s.dose.descs → t.channel c = s.channel c → f t c = t.setChannel c (g c)) :
    ∀ (l : List ChannelId) (t : State), l.Nodup → Rewritten s g l t → Rewritten s g [] (l.foldl f t)
  | [], _, _, h => h
  | c :: l, t, hl, h => by
    have hstep := hf t c h.descs (h.todo c List.mem_cons_self)
    have hchannel : ∀ d, (f t c).channel d = if d = c then g c else t.channel d := fun d => by rw [hstep, State.channel_setChannel]
    have hnot := (List.nodup_cons.mp hl).1
    refine Rewritten.foldl hf l (f t c) (List.nodup_cons.mp hl).2 ⟨fun d hd => ?_, fun d hd => ?_, ?_, ?_⟩
    · rw [hchannel, if_neg fun e : d = c => hnot (e ▸ hd)]
      exact h.todo d (List.mem_cons_of_mem c hd)
    · rw [hchannel]
      split
      next e => rw [e]
      next e => exact h.told d fun k => (List.mem_cons.mp k).elim e hd
    · rw [hstep, State.descs_setChannel, h.descs]
    · rw [hstep]
      exact h.frame.step (State.keepsBut_setChannel _ _ _) (List.Subset.refl _)

theorem Rewritten.all {s : State} {g : ChannelId → Channel} {f : State → ChannelId → State}
    (hf : ∀ (t : State) (c : ChannelId), t.dose.descs = s.dose.descs → t.channel c = s.channel c → f t c = t.setChannel c (g c)) :
    Rewritten s g [] (allChannels.foldl f s) :=
  Rewritten.foldl hf allChannels s (by decide) ⟨fun _ _ => rfl, fun c hc => absurd (by fin_cases c <;> decide) hc, rfl, s.keepsBut_refl _⟩

/-! ### CHANNEL_DONE offered where no other channel is ARMED (R99, R110) -/

theorem sourceOf_channelDone (n : Nat) : (sourceOf n == some .channelDone) = decide (n = 5) := by
  unfold sourceOf
  split
  case h_6 => rfl
  case h_7 h5 => exact (decide_eq_false h5).symm
  all_goals rfl

/-- What CHANNEL_DONE of channel `c` makes of a channel that is not ARMED. -/
def State.doneFlagged (s : State) (c k : ChannelId) : Channel :=
  if k ≠ c ∧ (s.channel k).state ≠ .idle ∧ (s.currentDesc (s.channel k)).source = 5 ∧
    (s.currentDesc (s.channel k)).sourceChannel = c.val then { s.channel k with flag := true } else s.channel k

theorem offerChannelDone_unarmed {s : State} {c : ChannelId} (h : ∀ k, k ≠ c → (s.channel k).state ≠ .armed) :
    Rewritten s (s.doneFlagged c) [] (s.offerChannelDone c) := by
  refine Rewritten.all fun t k hd hk => ?_
  have hsame : t = t.setChannel k (s.channel k) := by rw [← hk, State.setChannel_channel]
  rw [hk, State.currentDesc_congr hd rfl, State.doneFlagged]
  dsimp only
  rw [sourceOf_channelDone]
  by_cases hc : k = c
  · rw [if_neg (by simp [hc]), if_neg (by simp [hc])]
    exact hsame
  rw [triggerChannel_unarmed (by rw [hk]; exact h k hc), hk]
  by_cases hi : (s.channel k).state = .idle
  · rw [if_pos hi, ite_self, if_neg (by simp [hi])]
    exact hsame
  rw [if_neg hi]
  by_cases hs : (s.currentDesc (s.channel k)).source = 5 ∧ (s.currentDesc (s.channel k)).sourceChannel = c.val
  · rw [if_pos (by simp [hc, hs.1, hs.2]), if_pos ⟨hc, hi, hs⟩]
  · rw [if_neg (by simpa [hc] using hs), if_neg fun x => hs x.2.2]
    exact hsame

/-! ### A stroke that ends -/

/-- The part whose stroke generator has stopped. -/
def State.strokeStopped (s : State) (n : ReservoirId) : State :=
  { s with drive := { s.drive with strokes := upd s.drive.strokes n ⟨false, 0⟩ } }

theorem State.keepsBut_strokeStopped (s : State) (n : ReservoirId) : s.keepsBut (s.strokeStopped n) [.drive] := s.keepsBut_withDrive _

theorem State.strokeStopped_pumpFreed (s : State) (n : ReservoirId) : (s.strokeStopped n).pumpFreed n = s.pumpFreed n := by
  show ({ s with drive := { s.drive with strokes := upd (upd s.drive.strokes n ⟨false, 0⟩) n ⟨false, 0⟩ } } : State).putEntry (.dose n) _ = _
  rw [upd_upd]
  rfl

/-- The part in which a stroke of channel `c` on the pump of `n` has run its full length. -/
structure State.strokeDone (s : State) (n : ReservoirId) (c : ChannelId) : Prop where
  running : s.drive.strokes[n].running = true
  count : 15 ≤ s.drive.strokes[n].count
  held : (s.entry (.dose n)).lease = .held
  holder : (s.entry (.dose n)).holder = some (channelWho c)
  state : (s.channel c).state = .dosing
  step : (s.channel c).step = .stroke
  reservoir : s.channelReservoir (s.channel c) = n

section Done

variable {s : State} {n : ReservoirId} {c : ChannelId} (h : s.strokeDone n c)
include h

theorem exec_doseStrokeEnd : exec (.doseStrokeEnd n) s = .next ((s.strokeStopped n).strokeEnded c).settle := by
  show Host.Outcome.next (s.strokeEnd n) = _
  unfold State.strokeEnd
  dsimp only
  rw [if_pos (by
    rw [Bool.and_eq_true]
    exact ⟨h.running, decide_eq_true h.count⟩)]
  split
  next d x hd =>
    cases hd.symm.trans h.holder
    rfl
  next hd => exact absurd h.holder (hd c none)

theorem strokeDone_release : (s.strokeStopped n).releaseIf (channelWho c) (s.channelPump (s.channel c)) = s.pumpFreed n := by
  have hpump : s.channelPump (s.channel c) = .dose n := congrArg Resource.dose h.reservoir
  have hholds : (s.strokeStopped n).holds (channelWho c) (.dose n) = true :=
    (State.holds_iff _ _ _).mpr ⟨by show (s.entry (.dose n)).lease ≠ _; rw [h.held]; decide, h.holder⟩
  rw [hpump, State.releaseIf_holds hholds, release_dose (s := s.strokeStopped n) (.inl h.held), State.strokeStopped_pumpFreed]

/-- A stroke counted, with strokes of the descriptor left and no stop pending. -/
theorem strokeEnded_goes (hl : (s.channel c).completed + 1 ≠ (s.channel c).loaded) (hs : (s.channel c).stopPending = false) :
    (s.strokeStopped n).strokeEnded c = if (s.channel c).runLeft - 1 = 0 then
      ((s.pumpFreed n).setChannel c { s.channel c with
        completed := (s.channel c).completed + 1, runLeft := (s.channel c).runLeft - 1, step := .none, state := .armed }).armedAct c
      else (s.strokeStopped n).setChannel c { s.channel c with
        completed := (s.channel c).completed + 1, runLeft := (s.channel c).runLeft - 1, step := .interval, interval := Timer.zero } := by
  have hrel := strokeDone_release h
  have hch : (s.strokeStopped n).channel c = s.channel c := rfl
  have hpump : (s.strokeStopped n).channelPump (s.channel c) = s.channelPump (s.channel c) := rfl
  unfold State.strokeEnded
  dsimp only
  rw [hch, if_neg (by simp [h.state, h.step]), if_neg hl, if_neg (by simp [hs]), hpump, hrel]

end Done

theorem doseStrokeCounted_goes {s : State} {n : ReservoirId} {c : ChannelId} (h : s.strokeDone n c) (hr : s.atRest)
    (hl : (s.channel c).completed + 1 ≠ (s.channel c).loaded) (hs : (s.channel c).stopPending = false) (hrun : 1 < (s.channel c).runLeft) :
    exec (.doseStrokeEnd n) s = .next ((s.strokeStopped n).setChannel c { s.channel c with
      completed := (s.channel c).completed + 1, runLeft := (s.channel c).runLeft - 1, step := .interval, interval := Timer.zero }) := by
  rw [exec_doseStrokeEnd h, strokeEnded_goes h hl hs, if_neg (by omega)]
  exact congrArg Host.Outcome.next
    ((hr.frame (s.keepsBut_strokeStopped n)).frame (State.keepsBut_setChannel _ c _)).settle

/-- A pump that was let go with nobody waiting for it. -/
theorem State.letFree_calm {s : State} {r : Resource} (h : (s.entry r).waiters = []) (hy : (s.entry r).yieldRequested = false) :
    s.letFree r = { s.entry r with lease := .free, holder := none, holderPort := none, lastRelease := none } := by
  rw [State.letFree, releaseRecord_noWaiters h]
  cases he : s.entry r
  rw [he] at hy
  cases hy
  rfl

theorem doseRunEnds : Clauses.DoseRunEnds := by
  intro s n c hrunning hcount hheld hholder hstate hstep hstop hn hr hleft hrun
  have h : s.strokeDone n c := ⟨hrunning, hcount, hheld, hholder, hstate, hstep, hn⟩
  obtain ⟨ch, hch⟩ : ∃ x, x = ({ s.channel c with
    completed := (s.channel c).completed + 1, runLeft := (s.channel c).runLeft - 1, step := .none, state := .armed } : Channel) := ⟨_, rfl⟩
  have hended : (s.strokeStopped n).strokeEnded c = ((s.pumpFreed n).setChannel c ch).armedAct c := by
    rw [strokeEnded_goes h hleft hstop, if_pos (by omega), hch]
  have hfree := (s.entry_pumpFreed n (.dose n)).trans (if_pos rfl)
  rw [State.letFree_calm (hr.1 _).1 (hr.1 _).2] at hfree
  have kw := s.keepsBut_pumpFreed n
  have hrest : (s.pumpFreed n).atRest := (pumpFreed_let s n).atRest hr
  have hentries := (pumpFreed_let s n).entries
  refine ⟨fun hflag => ?_, fun hflag hclosed hlatch hdoor hfull hwater run hopens => ?_⟩
  · have kt := (s.pumpFreed n).keepsBut_setChannel c ch
    have hstays : ((s.pumpFreed n).setChannel c ch).armedAct c = (s.pumpFreed n).setChannel c ch := armedAct_stays fun _ => by
      rw [State.channel_setChannel_self, hch]
      exact ⟨by show (s.channel c).runLeft - 1 = 0; omega, hflag⟩
    refine ⟨(s.pumpFreed n).setChannel c ch, ?_, ?_, ?_, ?_, fun k hk => ?_, fun q hq => ?_,
      (State.keepsBut_mono kw (by decide)).step kt (by decide)⟩
    · rw [exec_doseStrokeEnd h, hended, hstays, (hrest.frame kt).settle]
    · rw [State.channel_setChannel_self, hch, hrun]
    · rw [kt.entry, hfree]
    · rw [kt.drive, State.drive_pumpFreed]
    · rw [State.channel_setChannel, if_neg hk]
      rfl
    · rw [kt.entry, hentries q hq]
  · obtain ⟨v, hv⟩ : ∃ v, v = (s.pumpFreed n).setChannel c (ch.opened (s.currentDesc (s.channel c))) := ⟨_, rfl⟩
    have kv : (s.pumpFreed n).keepsBut v [.dose] := hv ▸ State.keepsBut_setChannel _ _ _
    have hasks : ((s.pumpFreed n).setChannel c ch).armedAct c = v.ask (.dose n) (channelWho c) 0 none := by
      rw [setChannel_armedAct_asks (n := n) _ c (by rw [hch]) (.inr (by rw [hch]; exact hflag)) (by rw [hch]; exact hn), hv, hch]
      rfl
    have hopened : ch.opened (s.currentDesc (s.channel c)) = { s.channel c with
        completed := (s.channel c).completed + 1, flag := false, runLeft := run, step := .none, state := .waitingPump } := by
      rw [hch]
      unfold Channel.opened Channel.remaining
      rw [if_neg (by show ¬0 < (s.channel c).runLeft - 1; omega), if_neg (by show ¬0 < (s.channel c).runLeft - 1; omega)]
      rw [← runSize_of_opens hopens]
    have hventry : v.entry (.dose n) = { s.entry (.dose n) with lease := .free, holder := none, holderPort := none, lastRelease := none } := by
      rw [kv.entry, hfree]
    obtain ⟨t, ht, hb⟩ := settle_run (v := v) (c := c) (n := n) (ch := ch.opened (s.currentDesc (s.channel c))) (hrest.frame kv)
      (by rw [hv, State.channel_setChannel_self]) rfl
      ((State.channelReservoir_congr (s := s) (ch := s.channel c) (by rw [hv]; rfl) (by rw [hopened])).trans hn)
      { free := by rw [hventry]
        closed := by simp only [State.doorClosed, kv.door, kw.door]; exact hclosed
        latched := by simp only [State.latched, kv.prot, kw.prot]; exact hlatch
        door := by
          rw [State.hasHolder, kv.entry, hentries .doorDrive (by simp)]
          exact hdoor
        stocked := by rw [kv.acct, kw.acct, hfull]
        water := by
          rw [State.currentDesc_congr (s := s) (ch := s.channel c) (by rw [hv]; rfl) (by rw [hopened])]
          simp only [State.waterPresent, State.roleHolder, kv.sense, kw.sense]
          exact hwater }
    refine ⟨t, ?_, ?_, ?_, ?_, ?_, fun k hk => ?_, fun q hq => ?_, ((State.keepsBut_mono kw (by decide)).step kv (by decide)).step hb.frame (by decide)⟩
    · rw [exec_doseStrokeEnd h, hended, hasks, ht]
    · rw [hb.channel, hopened, Channel.stroking]
      simp only [hstate, hstep]
    · rw [hb.entry, hventry, kv.cfg, kw.cfg, kv.drive]
      rfl
    · rw [hb.drive, kv.drive, State.drive_pumpFreed, upd_upd]
    · rw [hb.amount, kv.acct, kw.acct, kv.cfg, kw.cfg]
    · rw [hb.others k hk, hv, State.channel_setChannel, if_neg hk]
      rfl
    · rw [hb.entries q hq, kv.entry, hentries q hq]

theorem doseStopTaken : Clauses.DoseStopTaken := by
  intro s n c hrunning hcount hheld hholder hstate hstep hstop hn hr hleft
  have h : s.strokeDone n c := ⟨hrunning, hcount, hheld, hholder, hstate, hstep, hn⟩
  obtain ⟨ch, hch⟩ : ∃ x, x = ({ s.channel c with
    completed := (s.channel c).completed + 1, runLeft := (s.channel c).runLeft - 1, step := .none, stopPending := false } : Channel) := ⟨_, rfl⟩
  have hended : (s.strokeStopped n).strokeEnded c = ((s.pumpFreed n).setChannel c ch).haltChannel c .stop := by
    have hrel := strokeDone_release h
    have hself : (s.strokeStopped n).channel c = s.channel c := rfl
    have hpump : (s.strokeStopped n).channelPump (s.channel c) = s.channelPump (s.channel c) := rfl
    unfold State.strokeEnded
    dsimp only
    rw [hself, if_neg (by simp [h.state, h.step]), if_neg hleft, if_pos hstop, hpump, hrel, hch]
  have kw := s.keepsBut_pumpFreed n
  have ks := (s.pumpFreed n).keepsBut_setChannel c ch
  have kh := ((s.pumpFreed n).setChannel c ch).keepsBut_haltChannel c .stop
  have hfree := (s.entry_pumpFreed n (.dose n)).trans (if_pos rfl)
  refine ⟨((s.pumpFreed n).setChannel c ch).haltChannel c .stop, ?_, ?_, ?_, ?_, ?_, fun k hk => ?_, rfl, ?_, fun q hq => ?_,
    ((State.keepsBut_mono kw (by decide)).step ks (by decide)).step kh (by decide)⟩
  · rw [exec_doseStrokeEnd h, hended, ((((pumpFreed_let s n).atRest hr).frame ks).frame kh).settle]
  · rw [State.channel_haltChannel, if_pos rfl, State.channel_setChannel_self, hch]
    rfl
  · rw [kh.entry, ks.entry, hfree]
    rfl
  · rw [kh.entry, ks.entry, hfree]
    rfl
  · rw [kh.drive, ks.drive, State.drive_pumpFreed]
  · rw [State.channel_haltChannel, if_neg hk, State.channel_setChannel, if_neg hk]
    rfl
  · exact State.ports_post_clock (by rw [(State.keepsBut_setChannel _ _ _).ports, ks.ports, kw.ports]) rfl _ _ _
  · rw [kh.entry, ks.entry, (pumpFreed_let s n).entries q hq]

end Sys2Proof.Machine

/-! A dose descriptor that ends, and the delay and the interval that pass (R99, R106, R108 to R111, R115). -/

namespace Sys2Proof.Machine

/-! ### The end of a descriptor -/

/-- The link of a finished descriptor loaded, or its channel taken to IDLE (R110). -/
def State.linkTaken (s : State) (c : ChannelId) (d : Desc) : State :=
  match descLink d with
  | some l => if descEmpty s.dose.descs[l] then s.idleChannel c else s.loadDesc c l
  | none => s.idleChannel c

/-- The report of a finished descriptor, where it asks for one (R110). -/
def State.descReported (s : State) (c : ChannelId) (ch : Channel) (d : Desc) : State :=
  if d.endReport == 1 then
    match ch.current with
    | some n => s.post .doseDescDone c.val n.val
    | none => s
  else s

theorem finishDesc_eq (s : State) (c : ChannelId) : s.finishDesc c =
    if (s.channel c).stopPending = true then
      ((((s.releaseIf (channelWho c) (s.channelPump (s.channel c))).linkTaken c (s.currentDesc (s.channel c))).offerChannelDone c).descReported c
        (s.channel c) (s.currentDesc (s.channel c))).stopChannel c
    else (((s.releaseIf (channelWho c) (s.channelPump (s.channel c))).linkTaken c (s.currentDesc (s.channel c))).offerChannelDone c).descReported c
      (s.channel c) (s.currentDesc (s.channel c)) := rfl

theorem State.keepsBut_descReported (s : State) (c : ChannelId) (ch : Channel) (d : Desc) : s.keepsBut (s.descReported c ch d) [.ports] := by
  unfold State.descReported
  split
  · split
    · exact s.keepsBut_post _ _ _
    · exact s.keepsBut_refl _
  · exact s.keepsBut_refl _

theorem State.ports_descReported {s t : State} (hp : t.ports = s.ports) (hc : t.drive.clock = s.drive.clock) (c : ChannelId) (ch : Channel)
    (d : Desc) : (t.descReported c ch d).ports = (s.descReported c ch d).ports := by
  unfold State.descReported
  split
  · split
    · exact State.ports_post_clock hp hc _ _ _
    · exact hp
  · exact hp

theorem State.descReported_one {s : State} {c : ChannelId} {ch : Channel} {d : Desc} {m : DescId} (h : d.endReport = 1)
    (hm : ch.current = some m) : s.descReported c ch d = s.post .doseDescDone c.val m.val := by
  unfold State.descReported
  rw [if_pos (by simp [h]), hm]

theorem State.descReported_none {s : State} {c : ChannelId} {ch : Channel} {d : Desc} (h : d.endReport ≠ 1) : s.descReported c ch d = s :=
  if_neg (by simp [h])

/-- `t` is `s` after channel `c` ended its descriptor on the pump of `n` and has the record `x`; `u` has the report of it. -/
structure DescEnded (s t u : State) (n : ReservoirId) (c : ChannelId) (x : Channel) : Prop where
  channel : t.channel c = x
  others : ∀ k, k ≠ c → t.channel k = if (s.channel k).state ≠ .idle ∧ (s.currentDesc (s.channel k)).source = 5 ∧
    (s.currentDesc (s.channel k)).sourceChannel = c.val then { s.channel k with flag := true } else s.channel k
  descs : t.dose.descs = s.dose.descs
  free : t.entry (.dose n) = s.letFree (.dose n)
  drive : t.drive = { s.drive with strokes := upd s.drive.strokes n ⟨false, 0⟩ }
  ports : t.ports = (if x.state = .halted then u.post .doseHalted c.val 4 else u).ports
  entries : s.keepsEntriesBut t [.dose n]
  frame : s.keepsBut t [.arb, .ports, .dose, .drive]

/-- A descriptor that ends with nobody else ARMED; `x0` is what its link makes of the channel. -/
theorem descEnded {s : State} {n : ReservoirId} {c : ChannelId} {x0 x : Channel} (h : s.strokeDone n c) (hr : s.atRest)
    (hl : (s.channel c).completed + 1 = (s.channel c).loaded) (ha : ∀ k, k ≠ c → (s.channel k).state ≠ .armed)
    (hlink : (s.pumpFreed n).linkTaken c (s.currentDesc (s.channel c)) = (s.pumpFreed n).setChannel c x0)
    (hx0 : x0.state = .armed ∨ x0.state = .idle)
    (hx : x = if (s.channel c).stopPending = true ∧ x0.state = .armed then x0.haltedBy .stop else x0) :
    ∃ t, exec (.doseStrokeEnd n) s = .next t ∧ DescEnded s t (s.descReported c (s.channel c) (s.currentDesc (s.channel c))) n c x := by
  have kw := s.keepsBut_pumpFreed n
  obtain ⟨y, hy⟩ : ∃ y, y = (s.pumpFreed n).setChannel c x0 := ⟨_, rfl⟩
  have ky : (s.pumpFreed n).keepsBut y [.dose] := hy ▸ State.keepsBut_setChannel _ _ _
  have hychannel : ∀ k, y.channel k = if k = c then x0 else s.channel k := fun k => hy ▸ State.channel_setChannel (s.pumpFreed n) c k x0
  have hydescs : y.dose.descs = s.dose.descs := by
    rw [hy]
    rfl
  have hoffer := offerChannelDone_unarmed (s := y) (c := c) fun k hk => by rw [hychannel, if_neg hk]; exact ha k hk
  obtain ⟨z, hz⟩ : ∃ z, z = (y.offerChannelDone c).descReported c (s.channel c) (s.currentDesc (s.channel c)) := ⟨_, rfl⟩
  have kz : (y.offerChannelDone c).keepsBut z [.ports] := hz ▸ State.keepsBut_descReported _ _ _ _
  have hzchannel : ∀ k, z.channel k = y.doneFlagged c k := fun k => by
    rw [State.channel_congr kz.dose, hoffer.told k (by simp)]
  have hzself : z.channel c = x0 := by
    rw [hzchannel, State.doneFlagged, if_neg (by simp), hychannel, if_pos rfl]
  have hzports : z.ports = (s.descReported c (s.channel c) (s.currentDesc (s.channel c))).ports := by
    rw [hz]
    exact State.ports_descReported (by rw [hoffer.frame.ports, ky.ports, kw.ports]) (by rw [hoffer.frame.drive, ky.drive]; rfl) _ _ _
  have kwz : s.keepsBut z [.arb, .ports, .dose, .drive] :=
    (((State.keepsBut_mono kw (by decide)).step ky (by decide)).step hoffer.frame (by decide)).step kz (by decide)
  have hended : (s.strokeStopped n).strokeEnded c = if (s.channel c).stopPending = true then z.stopChannel c else z := by
    have hself : (s.strokeStopped n).channel c = s.channel c := rfl
    have hpump : (s.strokeStopped n).channelPump (s.channel c) = s.channelPump (s.channel c) := rfl
    have hdesc : (s.strokeStopped n).currentDesc (s.channel c) = s.currentDesc (s.channel c) := rfl
    unfold State.strokeEnded
    dsimp only
    rw [hself, if_neg (by simp [h.state, h.step]), if_pos hl, finishDesc_eq, hself, hpump, hdesc, strokeDone_release h, hlink, ← hy, ← hz]
  have hstop : (if (s.channel c).stopPending = true then z.stopChannel c else z) =
      if (s.channel c).stopPending = true ∧ x0.state = .armed then z.haltChannel c .stop else z := by
    by_cases hs : (s.channel c).stopPending = true
    · rw [if_pos hs]
      unfold State.stopChannel
      rw [hzself]
      rcases hx0 with hx0 | hx0
      · rw [if_pos ⟨hs, hx0⟩]
        simp only [hx0]
      · rw [if_neg fun e => by rw [hx0] at e; cases e.2]
        simp only [hx0]
    · rw [if_neg hs, if_neg fun e => hs e.1]
  obtain ⟨t, ht⟩ : ∃ t, t = (if (s.channel c).stopPending = true ∧ x0.state = .armed then z.haltChannel c .stop else z) := ⟨_, rfl⟩
  have kt : z.keepsBut t [.ports, .dose] := by
    rw [ht]
    exact (z.keepsBut_haltChannel c .stop).ite _ (z.keepsBut_refl _)
  have hrest : t.atRest := (((((pumpFreed_let s n).atRest hr).frame ky).frame hoffer.frame).frame kz).frame kt
  have hentry : ∀ q, t.entry q = (s.pumpFreed n).entry q := fun q => by rw [kt.entry, kz.entry, hoffer.frame.entry, ky.entry]
  refine ⟨t, by rw [exec_doseStrokeEnd h, hended, hstop, ← ht, hrest.settle], ?_, fun k hk => ?_, ?_, ?_, ?_, ?_, fun q hq => ?_,
    kwz.step kt (by decide)⟩
  · rw [ht, hx]
    split
    · rw [State.channel_haltChannel, if_pos rfl, hzself]
    · exact hzself
  · have htk : t.channel k = z.channel k := by
      rw [ht]
      split
      · rw [State.channel_haltChannel, if_neg hk]
      · rfl
    rw [htk, hzchannel, State.doneFlagged, hychannel, if_neg hk, State.currentDesc_congr hydescs rfl]
    simp only [hk, ne_eq, not_false_eq_true, true_and]
  · have hzdescs : z.dose.descs = s.dose.descs := by rw [kz.dose, hoffer.descs, hydescs]
    rw [← hzdescs, ht]
    split <;> rfl
  · rw [hentry, State.entry_pumpFreed, if_pos rfl]
  · rw [kt.drive, kz.drive, hoffer.frame.drive, ky.drive, State.drive_pumpFreed]
  · rw [ht, hx]
    by_cases hs : (s.channel c).stopPending = true ∧ x0.state = .armed
    · rw [if_pos hs, if_pos hs, if_pos (show (x0.haltedBy .stop).state = .halted from rfl)]
      refine State.ports_post_clock hzports ?_ _ _ _
      rw [kz.drive, hoffer.frame.drive, ky.drive, State.keepsBut.drive (s.keepsBut_descReported _ _ _)]
      rfl
    · rw [if_neg hs, if_neg hs, if_neg (by rcases hx0 with e | e <;> rw [e] <;> decide), hzports]
  · rw [hentry, (pumpFreed_let s n).entries q hq]

theorem doseDescEnds : Clauses.DoseDescEnds := by
  intro s n c e x u hrunning hcount hheld hholder hstate hstep hn hr hleft ha he hcase hu hcurrent
  have h : s.strokeDone n c := ⟨hrunning, hcount, hheld, hholder, hstate, hstep, hn⟩
  obtain ⟨m, hm⟩ := Option.ne_none_iff_exists'.mp hcurrent
  obtain ⟨x0, hlink, hx0, hx⟩ : ∃ x0, (s.pumpFreed n).linkTaken c e = (s.pumpFreed n).setChannel c x0 ∧
      (x0.state = .armed ∨ x0.state = .idle) ∧
      x = if (s.channel c).stopPending = true ∧ x0.state = .armed then x0.haltedBy .stop else x0 := by
    unfold State.linkTaken descLink
    rcases hcase with ⟨l, d, k, hl, hd, h0, hsource, hk, rfl⟩ | ⟨hl | ⟨l, hl, h0⟩, rfl⟩
    · refine ⟨loadedWith l d k, ?_, .inl rfl, ?_⟩
      · have hload : (s.pumpFreed n).loadDesc c l = (s.pumpFreed n).setChannel c (loadedWith l d k) :=
          loadDesc_armed c hd hsource (loadedCount_of_loads hk)
        rw [hl, finOf_val, ← hload]
        exact if_neg (by show ¬(s.dose.descs[l].reservoir == 0) = true; rw [hd]; simpa using h0)
      · simp only [show (loadedWith l d k).state = .armed from rfl, and_true]
        rfl
    · refine ⟨Channel.reset, ?_, .inr rfl, by rw [if_neg fun e => by cases e.2]⟩
      rw [hl, finOf_eq_none (by decide)]
      rfl
    · refine ⟨Channel.reset, ?_, .inr rfl, by rw [if_neg fun e => by cases e.2]⟩
      rw [hl, finOf_val]
      exact if_pos (by show (s.dose.descs[l].reservoir == 0) = true; simpa using h0)
  subst he
  obtain ⟨t, ht, hend⟩ := descEnded h hr hleft ha hlink hx0 hx
  have hsame : u = s.descReported c (s.channel c) (s.currentDesc (s.channel c)) := by
    rw [hu]
    split
    next h1 => rw [State.descReported_one h1 hm, hm]; rfl
    next h1 => rw [State.descReported_none h1]
  exact ⟨t, ht, hend.channel, hend.others, hend.descs, by rw [hend.free]; rfl, by rw [hend.free]; rfl, hend.drive, by rw [hsame]; exact hend.ports,
    hend.entries, hend.frame⟩

theorem doseStrokeCounted : Clauses.DoseStrokeCounted := by
  intro s n c hrunning hcount hheld hholder hstate hstep hstop hn hr
  have h : s.strokeDone n c := ⟨hrunning, hcount, hheld, hholder, hstate, hstep, hn⟩
  refine ⟨fun hleft hrun => doseStrokeCounted_goes h hr hleft hstop hrun, fun hleft hlink hidle => ?_⟩
  have hnone : (s.pumpFreed n).linkTaken c (s.currentDesc (s.channel c)) = (s.pumpFreed n).setChannel c Channel.reset := by
    unfold State.linkTaken
    rw [hlink]
    rfl
  obtain ⟨t, ht, hend⟩ := descEnded h hr hleft (fun k hk => by rw [hidle k hk]; decide) hnone (.inr rfl)
    (x := Channel.reset) (by rw [if_neg fun e => by cases e.2])
  have hports : t.ports = (s.descReported c (s.channel c) (s.currentDesc (s.channel c))).ports := hend.ports
  refine ⟨t, ht, hend.channel, by rw [hend.free]; rfl, ?_, fun k hk => ?_, fun h1 d hd => ?_, fun h1 => ?_, hend.entries, hend.frame⟩
  · rw [hend.drive]
    exact upd_self _ _ _
  · rw [hend.others k hk, if_neg fun e => e.1 (hidle k hk)]
  · rw [hports, State.descReported_one h1 hd]
  · rw [hports, State.descReported_none h1]

end Sys2Proof.Machine

/-! A delay and an interval that pass, and a dose run that yields its pump (R99, R105, R106, R109, R113, R114). Settles O39. -/

namespace Sys2Proof.Machine

/-! ### A delay that passes -/

theorem exec_doseDelayExpiry {s : State} {c : ChannelId} (ha : (s.channel c).delayArmed = true) (hl : (s.channel c).delayLeft = 0)
    (hi : (s.channel c).state ≠ .idle) : exec (.doseDelayExpiry c) s =
      .next ((s.setChannel c { s.channel c with delayArmed := false, flag := true }).armedAct c).settle := by
  show Host.Outcome.next (s.delayExpiry c) = _
  unfold State.delayExpiry State.triggerChannel
  dsimp only
  rw [if_pos (by simp [ha, hl]), State.channel_setChannel_self, if_neg (by exact hi), State.setChannel_setChannel]

/-- Outside ARMED the trigger of a delay waits. -/
theorem doseDelayExpiry_waits {s : State} {c : ChannelId} {n : ReservoirId} (ha : (s.channel c).delayArmed = true)
    (hl : (s.channel c).delayLeft = 0) (hi : (s.channel c).state ≠ .idle) (hn : (s.channel c).state ≠ .armed) (hc : s.calmBut (.dose n))
    (hw : (s.entry (.dose n)).waiters = [] ∨ (s.entry (.dose n)).lease ≠ .free) (hy : (s.entry (.dose n)).yieldRequested = false) :
    exec (.doseDelayExpiry c) s = .next (s.setChannel c { s.channel c with delayArmed := false, flag := true }) := by
  have k := s.keepsBut_setChannel c { s.channel c with delayArmed := false, flag := true }
  rw [exec_doseDelayExpiry ha hl hi, armedAct_stays fun h => by rw [State.channel_setChannel_self] at h; exact absurd h hn,
    (hc.frame k).settle (fun h => by rw [k.entry, hy] at h; cases h) (by rw [k.entry]; exact hw.symm)]

theorem doseDelayTriggers : Clauses.DoseDelayTriggers := by
  intro s c n ha hl hn hcalm
  refine ⟨fun hi hna hw hy => doseDelayExpiry_waits ha hl hi hna hcalm hw hy, ?_⟩
  intro harmed hrun hr hfree hclosed hlatch hdoor hfull hwater run hopens
  obtain ⟨ch, hch⟩ : ∃ x, x = ({ s.channel c with delayArmed := false, flag := true } : Channel) := ⟨_, rfl⟩
  have hopened : ch.opened (s.currentDesc (s.channel c)) = { s.channel c with
      state := .waitingPump, delayArmed := false, flag := false, runLeft := run } := by
    rw [hch]
    unfold Channel.opened
    rw [if_neg (by rw [hrun]; decide), if_neg (by rw [hrun]; decide), ← runSize_of_opens hopens]
    rfl
  obtain ⟨v, hv⟩ : ∃ v, v = s.setChannel c (ch.opened (s.currentDesc (s.channel c))) := ⟨_, rfl⟩
  have kv : s.keepsBut v [.dose] := hv ▸ State.keepsBut_setChannel _ _ _
  have hdescs : v.dose.descs = s.dose.descs := by
    rw [hv]
    rfl
  have hcurrent : (ch.opened (s.currentDesc (s.channel c))).current = (s.channel c).current := by rw [hopened]
  have hasks : (s.setChannel c ch).armedAct c = v.ask (.dose n) (channelWho c) 0 none := by
    rw [setChannel_armedAct_asks (n := n) _ c (by rw [hch]; exact harmed) (.inr (by rw [hch])) (by rw [hch]; exact hn), hv, hch]
    rfl
  obtain ⟨t, ht, hb⟩ := settle_run (v := v) (c := c) (n := n) (hr.frame kv) (by rw [hv, State.channel_setChannel_self]) rfl
    ((State.channelReservoir_congr hdescs hcurrent).trans hn) (by
      rw [State.currentDesc_congr hdescs hcurrent]
      exact State.strokeReady.congr ⟨hfree, hclosed, hlatch, hdoor, hfull, hwater⟩ kv)
  refine ⟨t, ?_, ?_, ?_, by rw [hb.drive, kv.drive], by rw [hb.amount, kv.acct, kv.cfg], fun k hk => ?_,
    fun q hq => by rw [hb.entries q hq, kv.entry], (State.keepsBut_mono kv (by decide)).step hb.frame (by decide)⟩
  · rw [exec_doseDelayExpiry ha hl (by rw [harmed]; decide), ← hch, hasks, ht]
  · rw [hb.channel, hopened]
    rfl
  · rw [hb.entry, kv.cfg, kv.drive, kv.entry]
  · rw [hb.others k hk, hv, State.channel_setChannel, if_neg hk]

/-! ### An interval that passes -/

theorem exec_doseIntervalEnd {s : State} {c : ChannelId} (hs : (s.channel c).state = .dosing) (hi : (s.channel c).step = .interval)
    (hd : (s.channel c).interval.due = true) : exec (.doseIntervalEnd c) s = .next (s.strokeStart c).settle := by
  show Host.Outcome.next (s.intervalEnd c) = _
  unfold State.intervalEnd
  dsimp only
  rw [if_pos (by simp [hs, hi, hd])]

/-- What the cut of a stroke leaves of the part: `t` is `v` after channel `c` was halted with this cause, or with STOP where a stop was
pending. -/
structure StrokeCut (v t : State) (c : ChannelId) (cause : HaltCause) : Prop where
  rest : v.atRest → t.atRest
  acct : t.acct = v.acct
  others : ∀ k, k ≠ c → t.channel k = v.channel k
  channel : (v.channel c).stopPending = false → t.channel c = (v.channel c).cut.haltedBy cause
  frame : (v.channel c).stopPending = false → v.keepsBut t [.ports, .dose]

theorem StrokeCut.of_halted {v : State} {c : ChannelId} {cause : HaltCause} {ch : Channel}
    (h : (v.channel c).stopPending = false → ch = (v.channel c).cut) : StrokeCut v ((v.setChannel c ch).haltChannel c cause) c cause := by
  have k : v.keepsBut ((v.setChannel c ch).haltChannel c cause) [.ports, .dose] :=
    (State.keepsBut_mono (v.keepsBut_setChannel c ch) (by decide)).step (State.keepsBut_haltChannel _ c cause) (by decide)
  have hchannel : ∀ j, ((v.setChannel c ch).haltChannel c cause).channel j = if j = c then ch.haltedBy cause else v.channel j := fun j => by
    rw [State.channel_haltChannel, State.channel_setChannel_self, State.channel_setChannel]
    split <;> rfl
  exact ⟨fun hr => hr.frame k, k.acct, fun j hj => by rw [hchannel, if_neg hj], fun hs => by rw [hchannel, if_pos rfl, h hs], fun _ => k⟩

/-- The door opens under a stroke (R113). -/
theorem channelDoorOpened_cut {v : State} {c : ChannelId} {n : ReservoirId} (hst : (v.channel c).state = .dosing)
    (hp : v.channelPump (v.channel c) = .dose n) : StrokeCut v (v.channelDoorOpened c) c .door := by
  obtain ⟨w, hw⟩ : ∃ w, w = (v.setChannel c (v.channel c).cut).haltChannel c .door := ⟨_, rfl⟩
  have hcut : StrokeCut v w c .door := hw ▸ .of_halted fun _ => rfl
  have hwpump : w.channelPump (v.channel c) = .dose n := by
    rw [← hp, hw]
    rfl
  have hopened : v.channelDoorOpened c = if (v.channel c).stopPending = true then
      (w.releaseIf (channelWho c) (.dose n)).haltChannel c .stop else w := by
    unfold State.channelDoorOpened
    dsimp only
    rw [if_pos hst, ← hw, hwpump]
  rw [hopened]
  by_cases hs : (v.channel c).stopPending = true
  · have hlet := releaseIf_let w (channelWho c) n
    have kh := (w.releaseIf (channelWho c) (.dose n)).keepsBut_haltChannel c .stop
    rw [if_pos hs]
    refine ⟨fun hr => (hlet.atRest (hcut.rest hr)).frame kh, by rw [kh.acct, hlet.frame.acct, hcut.acct], fun k hk => ?_,
      fun h => absurd (hs.symm.trans h) (by decide), fun h => absurd (hs.symm.trans h) (by decide)⟩
    rw [State.channel_haltChannel, if_neg hk, State.channel_congr hlet.frame.dose, hcut.others k hk]
  · rw [if_neg hs]
    exact hcut

/-- A trip latches under a stroke (R114). -/
theorem channelTripped_cut {v : State} {c : ChannelId} (hst : (v.channel c).state = .dosing) : StrokeCut v (v.channelTripped c) c .trip := by
  have hcutStop : (v.channel c).cut.stopPending = (v.channel c).stopPending := by
    unfold Channel.cut
    split <;> rfl
  have htripped : v.channelTripped c = (v.setChannel c { (v.channel c).cut with stopPending := false }).haltChannel c .trip := by
    unfold State.channelTripped
    dsimp only
    rw [if_neg (by rw [hst]; decide), if_neg (by rw [hst]; exact fun e => by cases e.1)]
  rw [htripped]
  refine .of_halted fun hs => ?_
  have : (v.channel c).cut.stopPending = false := hcutStop.trans hs
  rw [← this]

/-- A stroke that is not made on a lease no longer HELD: the account gives its volume, and the channel is cut (R105, R148). -/
theorem strokeStart_cut {s : State} {c : ChannelId} {n : ReservoirId} (hr : s.atRest) (hn : s.channelReservoir (s.channel c) = n)
    (hstate : (s.channel c).state = .dosing) (hs : s.acct.reservoirs[n].empty = false)
    (hw : (s.currentDesc (s.channel c)).needsWater = 1 → s.waterPresent = true) (hh : s.holdsHeld (channelWho c) (.dose n) = false) :
    (s.strokeStart c).atRest ∧ (s.strokeStart c).acct.reservoirs[n].amount = (if s.acct.reservoirs[n].known = true
      then s.acct.reservoirs[n].amount - s.cfg.strokeVol[n] else s.acct.reservoirs[n].amount) ∧
    (∀ k, k ≠ c → (s.strokeStart c).channel k = s.channel k) ∧
    ((s.channel c).stopPending = false → (s.strokeStart c).channel c =
        (s.channel c).haltedBy (if s.holds (channelWho c) (.dose n) = true then .door else .trip) ∧
      s.keepsBut (s.strokeStart c) [.dose, .acct, .ports]) := by
  obtain ⟨u, hu, ku, hamount⟩ := takeStroke_stocked hs
  obtain ⟨ch2, hch2⟩ : ∃ x, x = ({ s.channel c with started := (s.channel c).started + 1, step := .stroke, interval := Timer.zero } : Channel) :=
    ⟨_, rfl⟩
  obtain ⟨v, hv⟩ : ∃ v, v = u.setChannel c ch2 := ⟨_, rfl⟩
  have kv : s.keepsBut v [.dose, .acct] := (State.keepsBut_mono ku (by decide)).step (hv ▸ u.keepsBut_setChannel c ch2) (by decide)
  have hvamount : v.acct = u.acct := by
    rw [hv]
    rfl
  have hvchannel : ∀ k, v.channel k = if k = c then ch2 else s.channel k := fun k => by
    rw [hv, State.channel_setChannel, State.channel_congr ku.dose]
  have hvself : v.channel c = ch2 := (hvchannel c).trans (if_pos rfl)
  have hvholds : v.holds (channelWho c) (.dose n) = s.holds (channelWho c) (.dose n) := by
    simp only [State.holds, State.hasHolder, kv.entry]
  have hvdescs : v.dose.descs = s.dose.descs := by
    rw [hv, State.descs_setChannel, ku.dose]
  have hpump : v.channelPump ch2 = .dose n := by
    rw [State.channelPump, State.channelReservoir_congr (s := s) (ch := s.channel c) hvdescs (by rw [hch2]), hn]
  have hcut : ch2.cut = { s.channel c with step := .none, interval := Timer.zero } := by
    rw [hch2]
    unfold Channel.cut
    rw [if_pos rfl]
    simp
  have hstart : s.strokeStart c = v.strokeCut c := by
    have hwater : ¬((s.currentDesc (s.channel c)).needsWater == 1 && !s.waterPresent) = true := by
      intro h
      simp only [Bool.and_eq_true, beq_iff_eq, Bool.not_eq_true'] at h
      rw [hw h.1] at h
      exact absurd h.2 (by decide)
    have hheld : ¬v.holdsHeld (channelWho c) (.dose n) = true := by
      simp only [State.holdsHeld, kv.entry]
      exact fun h => Bool.false_ne_true (hh.symm.trans h)
    unfold State.strokeStart
    simp only [hn]
    rw [if_neg (fun e => Bool.false_ne_true (hs.symm.trans e)), if_neg hwater]
    unfold State.strokeStage3
    simp only [hn, hu]
    rw [← hch2, ← hv, if_neg hheld]
  have hdosing : (v.channel c).state = .dosing := by rw [hvself, hch2]; exact hstate
  have hsc : StrokeCut v (v.strokeCut c) c (if s.holds (channelWho c) (.dose n) = true then .door else .trip) := by
    unfold State.strokeCut
    rw [show v.channelPump (v.channel c) = .dose n by rw [hvself, hpump], hvholds]
    split
    · exact channelDoorOpened_cut hdosing (by rw [hvself, hpump])
    · exact channelTripped_cut hdosing
  have hstop : (v.channel c).stopPending = (s.channel c).stopPending := by rw [hvself, hch2]
  rw [hstart]
  refine ⟨hsc.rest (hr.frame kv), by rw [hsc.acct, hvamount, hamount], fun k hk => by rw [hsc.others k hk, hvchannel, if_neg hk],
    fun hno => ⟨?_, (State.keepsBut_mono kv (by decide)).step (hsc.frame (hstop.trans hno)) (by decide)⟩⟩
  rw [hsc.channel (hstop.trans hno), hvself, hcut]
  rfl

theorem doseIntervalAndDelayEnd : Clauses.DoseIntervalAndDelayEnd := by
  intro s c n hr hn
  refine ⟨fun hstate hstep hdue => ⟨fun hfull hwater => ?_, fun hempty hheld hholder => ?_⟩, fun ha hl hh => ?_⟩
  · by_cases hholds : s.holdsHeld (channelWho c) (.dose n) = true
    · have hk := strokeStart_begins rfl hn hfull hwater hholds
      exact ⟨s.strokeStart c, by rw [exec_doseIntervalEnd hstate hstep hdue, (hr.frame hk.frame).settle], hk.amount, hk.others,
        fun _ => ⟨hk.channel, hk.drive, hk.frame⟩, fun h => absurd (hholds.symm.trans h) (by decide)⟩
    · obtain ⟨hrest, hamount, hothers, hcut⟩ := strokeStart_cut hr hn hstate hfull hwater (by simpa using hholds)
      refine ⟨s.strokeStart c, by rw [exec_doseIntervalEnd hstate hstep hdue, hrest.settle], hamount, hothers,
        fun h => absurd h hholds, fun _ hstop => ?_⟩
      obtain ⟨hchannel, hframe⟩ := hcut hstop
      exact ⟨hframe.drive, hchannel, hframe⟩
  · have hpump : s.channelPump (s.channel c) = .dose n := congrArg Resource.dose hn
    have hfree : s.releaseIf (channelWho c) (.dose n) = s.pumpFreed n := by
      rw [State.releaseIf_holds ((State.holds_iff _ _ _).mpr ⟨by rw [hheld]; decide, hholder⟩), release_dose (.inl hheld)]
    have hstart : s.strokeStart c = (s.pumpFreed n).haltChannel c .empty := by
      unfold State.strokeStart
      simp only [hn]
      rw [if_pos (by exact hempty), State.haltEmpty, hpump, hfree]
    have kw := s.keepsBut_pumpFreed n
    have kh := (s.pumpFreed n).keepsBut_haltChannel c .empty
    have hch : ((s.pumpFreed n).haltChannel c .empty).channel c = (s.channel c).haltedBy .empty :=
      ((s.pumpFreed n).channel_haltChannel c .empty c).trans (if_pos rfl)
    refine ⟨(s.pumpFreed n).haltChannel c .empty, ?_, by rw [hch]; rfl, by rw [hch]; rfl, by rw [hch]; rfl, by rw [hch]; rfl, ?_, ?_,
      by rw [kh.acct, kw.acct], fun q hq => by rw [kh.entry, (pumpFreed_let s n).entries q hq],
      (State.keepsBut_mono kw (by decide)).step kh (by decide)⟩
    · rw [exec_doseIntervalEnd hstate hstep hdue, hstart, (((pumpFreed_let s n).atRest hr).frame kh).settle]
    · rw [kh.entry, State.entry_pumpFreed, if_pos rfl]
      rfl
    · exact State.ports_post_clock kw.ports rfl _ _ _
  · exact doseDelayExpiry_waits (n := n) ha hl (by rw [hh]; decide) (by rw [hh]; decide) (hr.calmBut _) (.inl (hr.1 _).1) (hr.1 _).2

end Sys2Proof.Machine

/-! A dose run that yields its pump at the end of a stroke (R19, R109). Settles O39. -/

namespace Sys2Proof.Machine

theorem State.chooses_congr {s t : State} {r : Resource} {ok : List Waiter} {v : Waiter} (hc : t.cfg = s.cfg)
    (hu : (t.entry r).rrUrgent = (s.entry r).rrUrgent) (hn : (t.entry r).rrNormal = (s.entry r).rrNormal) (h : t.chooses r ok v) :
    s.chooses r ok v := by
  unfold State.chooses at *
  rw [← hc, ← hu, ← hn]
  exact h

theorem State.calmBut.settleFor {s : State} {n : ReservoirId} (h : s.calmBut (.dose n)) (hp : s.pumpStays n)
    (hw : (s.entry (.dose n)).lease ≠ .free) (k : Nat) : s.settleFor k = s := by
  refine settleFor_stays (h.judge fun e => by cases e) (h.noYield hp) (fun r => ?_) k
  by_cases hr : r = .dose n
  · subst hr
    exact chosenWaiter_leased hw
  · exact chosenWaiter_noWaiters (h.1 r hr).1

/-- A channel between strokes on a pump that it is asked to yield, and nobody else to yield: it is the one that yields (R109). -/
theorem State.calmBut.yieldsPump {s : State} {n : ReservoirId} {c : ChannelId} (h : s.calmBut (.dose n)) (hs : (s.channel c).state = .dosing)
    (hi : (s.channel c).step = .interval) (hn : s.channelPump (s.channel c) = .dose n) (hl : (s.entry (.dose n)).lease = .held)
    (hh : (s.entry (.dose n)).holder = some (channelWho c)) (hy : (s.entry (.dose n)).yieldRequested = true) :
    s.yieldNext = some (s.yieldChannel c) := by
  have hheat : s.heatYielder = none := by simp [State.heatYielder, (h.1 .heater (fun e => by cases e)).2]
  have hdose : s.doseYielder = some c := by
    have hpred : (fun j => (s.channel j).state == .dosing && ((s.channel j).step == .interval || (s.channel j).step == .water) &&
        (s.entry (s.channelPump (s.channel j))).lease == .held &&
        (s.entry (s.channelPump (s.channel j))).holder == some (channelWho j) &&
        (s.entry (s.channelPump (s.channel j))).yieldRequested) = fun j => decide (j = c) := by
      funext j
      by_cases hj : j = c
      · rw [hj, hn]
        simp [hs, hi, hl, hh, hy]
      · by_cases hq : s.channelPump (s.channel j) = .dose n
        · have : channelWho j ≠ channelWho c := fun e => hj (by cases e; rfl)
          rw [hq, hh]
          simp [hj, Ne.symm this]
        · simp [(h.1 _ hq).2, hj]
    show allChannels.find? _ = _
    dsimp only
    rw [hpred]
    fin_cases c <;> rfl
  simp [State.yieldNext, hheat, hdose]

section Yields

variable {s : State} {n : ReservoirId} {c : ChannelId}

/-- The record of a channel that has yielded its pump between strokes and asked for it again. -/
def Channel.yielded (ch : Channel) : Channel :=
  { ch with state := .waitingPump, completed := ch.completed + 1, runLeft := ch.runLeft - 1, step := .none, interval := Timer.zero }

/-- The part in which the channel has yielded its pump and asked for it again, before it is granted to another. -/
def State.pumpYielded (s : State) (n : ReservoirId) (c : ChannelId) : State :=
  ((s.pumpFreed n).setChannel c (s.channel c).yielded).ask (.dose n) (channelWho c) 0 none

theorem yieldChannel_strokeDone (h : s.strokeDone n c) (x : Channel)
    (hx : x = { s.channel c with
      completed := (s.channel c).completed + 1, runLeft := (s.channel c).runLeft - 1, step := .interval, interval := Timer.zero }) :
    ((s.strokeStopped n).setChannel c x).yieldChannel c = s.pumpYielded n c := by
  have hpump : ((s.strokeStopped n).setChannel c x).channelPump x = .dose n := by
    rw [← congrArg Resource.dose h.reservoir, hx]
    rfl
  have hfreed : ((s.strokeStopped n).setChannel c x).pumpFreed n = (s.pumpFreed n).setChannel c x := by
    rw [← s.strokeStopped_pumpFreed n]
    rfl
  unfold State.yieldChannel
  dsimp only
  rw [State.channel_setChannel_self, hpump, release_dose (.inl (by show (s.entry (.dose n)).lease = _; exact h.held)), hfreed,
    State.setChannel_setChannel, hx]
  rfl

/-- The entry of the pump that was yielded and asked for again (R16, R21). -/
theorem entry_pumpYielded (hheld : (s.entry (.dose n)).holder = some (channelWho c))
    (hw : ∃ w ∈ (s.entry (.dose n)).waiters, w.who.ident ≠ .ch c) :
    (s.pumpYielded n c).entry (.dose n) = { s.entry (.dose n) with
      lease := .free, holder := none, holderPort := none, yieldRequested := false, lastRelease := some (.ch c, s.drive.clock)
      waiters := (s.entry (.dose n)).waiters ++ [⟨channelWho c, 0, none, false⟩] } := by
  have hrecord : releaseRecord s.drive.clock (s.entry (.dose n)) = some (.ch c, s.drive.clock) := by
    have hany : ((s.entry (.dose n)).waiters.any fun w => w.who.ident != (channelWho c).ident) = true := by
      obtain ⟨w, hmem, hne⟩ := hw
      exact List.any_eq_true.mpr ⟨w, hmem, by simpa [channelWho] using hne⟩
    unfold releaseRecord
    rw [hheld]
    dsimp only
    rw [if_pos hany]
    rfl
  have hfree : ((s.pumpFreed n).setChannel c (s.channel c).yielded).entry (.dose n) = s.letFree (.dose n) :=
    (s.entry_pumpFreed n (.dose n)).trans (if_pos rfl)
  unfold State.pumpYielded
  rw [State.ask, State.editEntry_self, State.edited, hfree, yieldCondition_let_go (.inl rfl), State.letFree, hrecord]

end Yields

theorem doseRunYields : Clauses.DoseRunYields := by
  intro s n c hrunning hcount hheld hholder hstate hstep hstop hn hleft hrun hcalm hyield hne hwaiters hlegal hoff hfull hclosed hlatch hdoor
  have h : s.strokeDone n c := ⟨hrunning, hcount, hheld, hholder, hstate, hstep, hn⟩
  obtain ⟨chI, hchI⟩ : ∃ x, x = ({ s.channel c with
    completed := (s.channel c).completed + 1, runLeft := (s.channel c).runLeft - 1, step := .interval, interval := Timer.zero } : Channel) :=
    ⟨_, rfl⟩
  obtain ⟨x1, hx1⟩ : ∃ x, x = (s.strokeStopped n).setChannel c chI := ⟨_, rfl⟩
  have kx1 : s.keepsBut x1 [.drive, .dose] := hx1 ▸ (State.keepsBut_mono (s.keepsBut_strokeStopped n) (by decide)).step
    (State.keepsBut_setChannel _ c chI) (by decide)
  have hx1channel : x1.channel c = chI := by rw [hx1, State.channel_setChannel_self]
  obtain ⟨y, hy⟩ : ∃ y, y = s.pumpYielded n c := ⟨_, rfl⟩
  have hcalm1 : x1.calmBut (.dose n) := hcalm.frame kx1
  have hsettle : ((s.strokeStopped n).strokeEnded c).settle = y.settleFor 127 := by
    rw [strokeEnded_goes h hleft hstop, if_neg (by omega), ← hchI, ← hx1]
    have hpump : x1.channelPump (x1.channel c) = .dose n := by
      rw [hx1channel, State.channelPump, State.channelReservoir_congr (s := s) (ch := s.channel c) (by rw [hx1]; rfl) (by rw [hchI]), hn]
    refine (settleFor_yields (hcalm1.judge fun e => by cases e) (hcalm1.yieldsPump (c := c) ?_ ?_ hpump ?_ ?_ ?_) 127).trans ?_
    · rw [hx1channel, hchI]
      exact hstate
    · rw [hx1channel, hchI]
    · rw [kx1.entry, hheld]
    · rw [kx1.entry, hholder]
    · rw [kx1.entry, hyield]
    · rw [hx1, yieldChannel_strokeDone h chI hchI, hy]
  have hother : ∃ w ∈ (s.entry (.dose n)).waiters, w.who.ident ≠ .ch c := by
    obtain ⟨w, hw⟩ := List.exists_mem_of_ne_nil _ hne
    obtain ⟨k, hk, hkc, -⟩ := hwaiters w hw
    exact ⟨w, hw, by rw [hk]; exact fun e => hkc (by cases e; rfl)⟩
  have hyentry := entry_pumpYielded hholder hother
  rw [← hy] at hyentry
  have kw := s.keepsBut_pumpFreed n
  have ky : s.keepsBut y [.arb, .drive, .dose] := hy ▸ ((State.keepsBut_mono kw (by decide)).step (State.keepsBut_setChannel _ c _)
    (by decide)).step (State.keepsBut_ask _ (.dose n) (channelWho c) 0 none) (by decide)
  have hyentries : s.keepsEntriesBut y [.dose n] := fun q hq => by
    rw [hy, State.pumpYielded, State.entry_ask_ne 0 none (by simpa using hq)]
    exact (pumpFreed_let s n).entries q hq
  have hydrive : y.drive = { s.drive with strokes := upd s.drive.strokes n ⟨false, 0⟩ } := by
    rw [hy, State.pumpYielded, (State.keepsBut_ask _ _ _ _ _).drive]
    rfl
  have hydose : y.dose = ((s.pumpFreed n).setChannel c (s.channel c).yielded).dose := by
    rw [hy, State.pumpYielded, (State.keepsBut_ask _ _ _ _ _).dose]
  have hychannel : ∀ k, y.channel k = if k = c then (s.channel c).yielded else s.channel k := fun k => by
    rw [State.channel_congr hydose, State.channel_setChannel]
    rfl
  have hycalm : y.calmBut (.dose n) := hcalm.ofEntry (fun e => by cases e) hyentries (by rw [ky.sense]) (by rw [ky.door]) ky.water
  have hydoor : y.hasHolder .doorDrive = false := by
    rw [State.hasHolder, hyentries .doorDrive (by simp)]
    exact hdoor
  obtain ⟨v, hchooses, hgrant⟩ := settleFor_chooses (s := y) (r := .dose n) 126 hycalm.2
    (fun q => by
      by_cases hq : q = .dose n
      · rw [hq, hyentry]
      · exact (hycalm.1 q hq).2)
    (fun q hq => (hycalm.1 q hq).1) (by rw [hyentry]) (by rw [hyentry]; simp)
    (by rw [hyentry]; exact hlegal)
    (fun w hw => by
      rw [hyentry] at hw
      rcases List.mem_append.mp hw with hw | hw
      · obtain ⟨k, hk, -⟩ := hwaiters w hw
        rw [hk]
        exact fun e => by cases e
      · rw [List.mem_singleton.mp hw]
        exact fun e => by cases e)
    (fun w _ => State.admits.eligibleBase
      { free := by rw [hyentry]
        guarded := fun _ => ⟨by simp only [State.doorClosed, ky.door]; exact hclosed, hydoor⟩
        trip := fun _ => by simp only [State.latched, ky.prot]; exact hlatch
        inlet := fun e => by cases e
        drain := fun e => by cases e
        door := fun e => by cases e }
      fun u hu => by rw [(hycalm.1 .doorDrive fun e => by cases e).1] at hu; cases hu)
  rw [hyentry, ky.cfg, hydrive] at hchooses
  have hvmem := Settings.mem_afterHoldOff hchooses.1
  have hvother : v.who.ident ≠ .ch c := Settings.afterHoldOff_now hoff (by
    obtain ⟨w, hw, hwne⟩ := hother
    exact ⟨w, List.mem_append_left _ hw, hwne⟩) hchooses.1
  obtain ⟨k, hvk, hkc, hkstate, hkn, hkwater⟩ : ∃ k, v.who = channelWho k ∧ k ≠ c ∧ (s.channel k).state = .waitingPump ∧
      s.channelReservoir (s.channel k) = n ∧ ((s.currentDesc (s.channel k)).needsWater = 1 → s.waterPresent = true) := by
    rcases List.mem_append.mp hvmem with hw | hw
    · exact hwaiters v hw
    · rw [List.mem_singleton.mp hw] at hvother
      exact absurd rfl hvother
  have hport : y.waiterPort v.who = none := by
    rw [hvk]
    rfl
  obtain ⟨g, hg⟩ : ∃ g, g = y.grantLease (.dose n) v := ⟨_, rfl⟩
  have hgedit : g = y.editEntry (.dose n) (Entry.granted y.cfg y.drive.clock none v .held) := by
    rw [hg, ← hport]
    rfl
  have hgput : g = y.putEntry (.dose n) (y.edited (.dose n) (Entry.granted y.cfg y.drive.clock none v .held)) := by
    rw [hgedit, State.editEntry_quiet (.inr ⟨(fun e => by cases e), (fun e => by cases e)⟩)]
  have kg : y.keepsBut g [.arb] := hgput ▸ State.keepsBut_putEntry _ _ _
  have hgentry : ∀ q, g.entry q = if q = .dose n then y.edited (.dose n) (Entry.granted y.cfg y.drive.clock none v .held) else y.entry q :=
    fun q => hgput ▸ State.entry_putEntry _ _ _ _
  have hpassed : s.cfg.passedOn s.drive.clock (s.entry (.dose n)) (g.entry (.dose n))
      ((s.entry (.dose n)).waiters ++ [⟨channelWho c, 0, none, false⟩]) v none .held (some (.ch c, s.drive.clock)) := by
    have hpass := passedOn_granted (g := s.cfg) (clock := s.drive.clock) (e := s.entry (.dose n)) (f := y.entry (.dose n)) (v := v) none .held
      (by rw [hyentry]) (by rw [hyentry])
    rw [hgentry, if_pos rfl, State.edited, ky.cfg, hydrive]
    rw [hyentry] at hpass ⊢
    exact hpass
  have hglease : (g.entry (.dose n)).lease = .held := by
    rw [hpassed.1]
    rfl
  have hgholder : (g.entry (.dose n)).holder = some (channelWho k) := by
    rw [hpassed.1, ← hvk]
    rfl
  have hgchannel : g.channel k = s.channel k := by rw [State.channel_congr kg.dose, hychannel, if_neg hkc]
  have hgdescs : g.dose.descs = s.dose.descs := by
    rw [kg.dose, hydose]
    rfl
  obtain ⟨hkchannel, hstruck⟩ := channelGranted_begins (v := g) (c := k) (n := n) hgchannel hkstate
    ((State.channelReservoir_congr hgdescs rfl).trans hkn) (by rw [kg.acct, ky.acct, hfull])
    (by
      rw [State.currentDesc_congr (s := s) hgdescs rfl]
      simp only [State.waterPresent, State.roleHolder, kg.sense, ky.sense]
      exact hkwater)
    (by simp [State.holdsHeld, hglease, hgholder])
  obtain ⟨t, ht⟩ : ∃ t, t = g.channelGranted k := ⟨_, rfl⟩
  rw [← ht] at hkchannel hstruck
  have hentries : s.keepsEntriesBut t [.dose n] := fun q hq => by
    rw [hstruck.frame.entry, hgentry, if_neg (by simpa using hq), hyentries q hq]
  have kt : s.keepsBut t [.arb, .dose, .drive, .acct] :=
    ((State.keepsBut_mono ky (by decide)).step kg (by decide)).step hstruck.frame (by decide)
  have htcalm : t.calmBut (.dose n) := hcalm.ofEntry (fun e => by cases e) hentries (by rw [kt.sense]) (by rw [kt.door]) kt.water
  have htsettle : t.settleFor 126 = t := by
    refine htcalm.settleFor (fun _ j hj hd => ?_) (by rw [hstruck.frame.entry, hglease]; decide) 126
    rw [hstruck.frame.entry, hgholder] at hj
    obtain rfl : k = j := by
      cases hj
      rfl
    rw [hkchannel]
    exact ⟨(fun e => by cases e), (fun e => by cases e)⟩
  refine ⟨t, v, k, ?_, State.chooses_congr ky.cfg (by rw [hyentry]) (by rw [hyentry]) hchooses, hvk, hkc, by rw [hstruck.frame.entry]; exact hpassed,
    ?_, hkchannel, fun m hmc hmk => ?_, ?_, ?_, hentries, kt⟩
  · have howner : g.ownerGranted (.dose n) v.who = t := by
      rw [hvk, ht]
      rfl
    rw [exec_doseStrokeEnd h, hsettle, hgrant, ← hg, howner, htsettle]
  · rw [hstruck.others c (Ne.symm hkc), State.channel_congr kg.dose, hychannel, if_pos rfl]
    rfl
  · rw [hstruck.others m hmk, State.channel_congr kg.dose, hychannel, if_neg hmc]
  · rw [hstruck.drive, kg.drive, hydrive, upd_upd]
  · rw [hstruck.amount, kg.acct, kg.cfg, ky.acct, ky.cfg]

/-- Settles O39. -/
theorem doseStrokesTimed : Obligations.DoseStrokesTimed :=
  ⟨doseStrokeCounted, doseRunYields, doseIntervalAndDelayEnd, doseDelayTriggers, doseRunEnds, doseDescEnds, doseStopTaken⟩

end Sys2Proof.Machine

/-! RAMP_STEP: the levels, the start of a circulation, and CIRC passed on at the end of a wind-down (R41, R145, R146). Settles O46. -/

namespace Sys2Proof.Machine

/-! ### A step of the CIRC generator -/

/-- The part after a step of the CIRC generator, its switching reported (R142). -/
def State.ramped (s : State) : State :=
  reportSwitching s { s with drive := { s.drive with circRamp := s.drive.circRamp.step s.circTarget } }

theorem State.keepsBut_ramped (s : State) : s.keepsBut s.ramped [.sense, .drive] :=
  (State.keepsBut_mono (s.keepsBut_withDrive _) (by decide)).step (State.keepsBut_reportSwitching s _) (by decide)

theorem State.drive_ramped (s : State) : s.ramped.drive = { s.drive with circRamp := s.drive.circRamp.step s.circTarget } :=
  (State.keepsBut_reportSwitching s _).drive

theorem points_reportSwitching (s t : State) : (reportSwitching s t).sense.points = t.sense.points :=
  congrArg Fixed.points (reportSwitching_rest s t).2.2.2.1

theorem State.atRest.ramped {s : State} (h : s.atRest) : s.ramped.atRest := by
  have k := s.keepsBut_ramped
  exact h.of (congrArg Arbiter.table k.arb) (points_reportSwitching s _) (by rw [k.door]) k.water

theorem exec_rampStep_circ {s : State} (h : s.drive.circRamp.due = true) : exec (.rampStep .circ) s =
    .next (if (s.entry .circ).lease = .releasing ∧ s.ramped.drive.circRamp.level = 0 then s.ramped.endCircWindDown
      else s.ramped.circReached).settle := by
  have hentry := s.keepsBut_ramped.entry .circ
  rw [← hentry, s.drive_ramped]
  show Host.Outcome.next s.circStep = _
  unfold State.circStep
  rw [if_pos h]
  rfl

/-! ### A trigger offered where every channel is IDLE -/

theorem offerTrigger_idle {s : State} (h : ∀ c, (s.channel c).state = .idle) (src : TriggerSource) : s.offerTrigger src = s := by
  unfold State.offerTrigger
  refine foldl_unchanged fun c _ => ?_
  unfold State.triggerChannel
  simp only [h c, if_true, ite_self]

/-- The report of a circulation that has started (R41). -/
def State.circStarted (s : State) (i : SlotId) (sl : Slot) (w : CircWork) : State :=
  (s.setSlot i (some { sl with work := .circulate { w with started := true } })).post .circulationStarted (portCode sl.port)
    s.drive.circ.active

theorem State.keepsBut_circStarted (s : State) (i : SlotId) (sl : Slot) (w : CircWork) :
    s.keepsBut (s.circStarted i sl w) [.pool, .ports] :=
  (State.keepsBut_mono (s.keepsBut_setSlot i _) (by decide)).step (State.keepsBut_post _ _ _ _) (by decide)

/-- A CIRCULATE that holds CIRC HELD: its start is reported the first time its ramp reaches the duty in force. -/
theorem circReached_held {s : State} {x : Ident} {i : SlotId} {sl : Slot} {w : CircWork} (hl : (s.entry .circ).lease = .held)
    (hh : (s.entry .circ).holder = some ⟨x, some i⟩) (hp : s.pool[i] = some sl) (hw : sl.work = .circulate w) (ho : sl.outcome = none) :
    s.circReached = if w.started = false ∧ s.drive.circRamp.level = s.drive.circ.active then
      (s.circStarted i sl w).offerTrigger .circulationStarted else s := by
  have hat : s.circAt i = some (sl, w) := by
    unfold State.circAt
    simp only [hp, hw, ho]
  unfold State.circReached
  simp only [hl, hh, hat, State.setWork_held hp]
  by_cases hs : w.started = false
  · by_cases hd : s.drive.circRamp.level = s.drive.circ.active
    · rw [if_pos (by simp [hs, hd]), if_pos ⟨hs, hd⟩]
      rfl
    · rw [if_neg (by simp [hd]), if_neg fun e => hd e.2]
  · rw [if_neg (by simp [hs]), if_neg fun e => hs e.1]

theorem circReached_notHeld {s : State} (h : (s.entry .circ).lease ≠ .held) : s.circReached = s := by
  unfold State.circReached
  dsimp only
  split
  next hl _ => exact absurd hl h
  next => rfl

/-- With every channel IDLE it changes the slots and the ports alone. -/
theorem keepsBut_circReached_idle {s : State} (h : ∀ c, (s.channel c).state = .idle) : s.keepsBut s.circReached [.pool, .ports] := by
  unfold State.circReached
  dsimp only
  split
  next x i hl hh =>
    split
    next sl w hat =>
      split
      · have k : s.keepsBut ((s.setWork i (.circulate { w with started := true })).post .circulationStarted (portCode sl.port)
            s.drive.circ.active) [.pool, .ports] :=
          (State.keepsBut_mono (s.keepsBut_setWork i _) (by decide)).step (State.keepsBut_post _ _ _ _) (by decide)
        rw [offerTrigger_idle fun c => by rw [State.channel_congr k.dose]; exact h c]
        exact k
      · exact s.keepsBut_refl _
    next => exact s.keepsBut_refl _
  next => exact s.keepsBut_refl _

/-! ### The end of a wind-down -/

theorem State.keepsBut_circFreed (s : State) (h : Option Holder) : s.keepsBut (s.circFreed h) [.pool, .ports] := by
  unfold State.circFreed
  split
  · split
    · split
      · exact s.keepsBut_endSlot _ _ _ _
      · exact s.keepsBut_refl _
    · exact s.keepsBut_refl _
  · exact s.keepsBut_refl _

theorem circFreed_answers {s : State} {x : Ident} {i : SlotId} {sl : Slot} {w : CircWork} {o : OutcomeCode} (hp : s.pool[i] = some sl)
    (hw : sl.work = .circulate w) (ho : sl.outcome = some o) :
    s.circFreed (some ⟨x, some i⟩) = (s.send sl.port (opResponse sl.tag o [])).setSlot i none := by
  unfold State.circFreed
  simp only [hp, hw, ho]
  exact State.endSlot_answered hp o []

/-- CIRC FREE at the end of a wind-down, before its operation is answered. -/
def State.circWound (s : State) : State := s.ramped.freeLease .circ

theorem State.entry_circWound (s : State) (q : Resource) :
    s.circWound.entry q = if q = .circ then (s.entry .circ).freed else s.entry q := by
  have hentry := s.keepsBut_ramped.entry
  have hfree : s.circWound.entry q = ((s.ramped.dropDrive .circ).putEntry .circ (s.ramped.entry .circ).freed).entry q :=
    State.entry_congr (congrArg Arbiter.table (reportSwitching_rest _ _).1) q
  rw [hfree, State.entry_putEntry, State.entry_dropDrive, hentry, hentry]

theorem State.drive_circWound (s : State) : s.circWound.drive = { s.drive with circ := Setting.zero, circRamp := Ramp.zero } := by
  have h : s.circWound.drive = { s.ramped.drive with circ := Setting.zero, circRamp := Ramp.zero } :=
    (State.keepsBut_reportSwitching s.ramped _).drive
  rw [h, s.drive_ramped]

theorem State.keepsBut_circWound (s : State) : s.keepsBut s.circWound [.arb, .sense, .drive] :=
  (State.keepsBut_mono s.keepsBut_ramped (by decide)).step (State.keepsBut_freeLease _ .circ) (by decide)

theorem State.points_circWound (s : State) : s.circWound.sense.points = s.sense.points :=
  (points_reportSwitching _ _).trans (points_reportSwitching s _)

/-- Where CIRC is not HELD the interlock is not met. -/
theorem interlockMet_circNotHeld {s : State} (h : (s.entry .circ).lease ≠ .held) : s.interlockMet = false := by
  simp [State.interlockMet, State.interlockConditions, h]

/-- The part at the end of a wind-down, its operation answered (R29, R146). -/
def State.circOver (s : State) : State := s.circWound.circFreed (s.entry .circ).holder

theorem State.keepsBut_circOver (s : State) : s.keepsBut s.circOver [.arb, .pool, .ports, .sense, .drive] :=
  (State.keepsBut_mono s.keepsBut_circWound (by decide)).step (State.keepsBut_circFreed _ _) (by decide)

theorem State.entry_circOver (s : State) (q : Resource) : s.circOver.entry q = if q = .circ then (s.entry .circ).freed else s.entry q :=
  ((State.keepsBut_circFreed _ _).entry q).trans (s.entry_circWound q)

theorem State.drive_circOver (s : State) : s.circOver.drive = { s.drive with circ := Setting.zero, circRamp := Ramp.zero } :=
  (State.keepsBut_circFreed _ _).drive.trans s.drive_circWound

theorem State.points_circOver (s : State) : s.circOver.sense.points = s.sense.points := by
  rw [State.circOver, (State.keepsBut_circFreed _ _).sense, s.points_circWound]

/-- The last step of a wind-down makes CIRC FREE and answers its operation. -/
theorem exec_rampStep_over {s : State} (hd : s.drive.circRamp.due = true) (hl : (s.entry .circ).lease = .releasing)
    (h1 : s.drive.circRamp.level = 1) : exec (.rampStep .circ) s = .next s.circOver.settle := by
  have hlevel : s.ramped.drive.circRamp.level = 0 := by
    rw [s.drive_ramped]
    show stepToward s.drive.circRamp.level s.circTarget = 0
    rw [State.circTarget, if_pos hl, h1]
    rfl
  rw [exec_rampStep_circ hd, if_pos ⟨hl, hlevel⟩, State.endCircWindDown, s.keepsBut_ramped.entry]
  rfl

theorem rampLevelsStep : Clauses.RampLevelsStep := by
  intro s
  refine ⟨fun hd => ?_, fun hd hl hr hidle => ?_, fun hd hl hlevel hr => ?_, fun hd hl hlevel hr => ?_⟩
  · exact congrArg Host.Outcome.next (if_pos hd)
  · have kc := keepsBut_circReached_idle (s := s.ramped) fun c => by rw [State.channel_congr s.keepsBut_ramped.dose]; exact hidle c
    refine ⟨s.ramped.circReached, ?_, ?_, by rw [kc.arb, s.keepsBut_ramped.arb],
      (State.keepsBut_mono s.keepsBut_ramped (by decide)).step kc (by decide)⟩
    · rw [exec_rampStep_circ hd, if_neg (fun e => by rw [hl] at e; cases e.1), (hr.ramped.frame kc).settle]
    · rw [kc.drive, s.drive_ramped, State.circTarget, if_neg (by rw [hl]; decide)]
      rfl
  · have htarget : s.circTarget = 0 := if_pos hl
    have hstep : s.drive.circRamp.step s.circTarget = ⟨s.drive.circRamp.level - 1, 0, false⟩ := by
      rw [htarget]
      unfold Ramp.step stepToward
      rw [if_neg (by omega), if_pos (by omega)]
    have hramped : s.ramped = { s with drive := { s.drive with circRamp := ⟨s.drive.circRamp.level - 1, 0, false⟩ } } := by
      unfold State.ramped
      rw [hstep]
      refine reportSwitching_same (Prod.ext ?_ rfl)
      show decide (0 < s.drive.circRamp.level) = decide (0 < s.drive.circRamp.level - 1)
      rw [decide_eq_true (by omega), decide_eq_true (by omega)]
    have hnot : s.ramped.circReached = s.ramped := circReached_notHeld (by rw [s.keepsBut_ramped.entry, hl]; decide)
    rw [exec_rampStep_circ hd, if_neg fun e => ?_, hnot, hr.ramped.settle, hramped]
    have : s.drive.circRamp.level - 1 = 0 := by
      have h2 := e.2
      rw [hramped] at h2
      exact h2
    omega
  · have hfree := s.entry_circOver .circ
    rw [if_pos rfl] at hfree
    have hrest : s.circOver.atRest := by
      refine ⟨fun q => ?_, ?_⟩
      · rw [s.entry_circOver]
        split
        · exact ⟨(hr.1 .circ).1, rfl⟩
        · exact hr.1 q
      · rw [s.keepsBut_circOver.water, hr.2, interlockMet_circNotHeld (by rw [hl]; decide), interlockMet_circNotHeld (by rw [hfree]; exact fun e => by cases e)]
    refine ⟨s.circOver, by rw [exec_rampStep_over hd hl hlevel, hrest.settle], by rw [hfree]; rfl, ?_, by rw [s.drive_circOver], ?_,
      fun q hq => ?_, s.keepsBut_circOver⟩
    · unfold State.circLevel
      rw [s.drive_circOver]
      rfl
    · intro x i sl w o hh hp hw ho
      have hp' : s.circWound.pool[i] = some sl := by rw [s.keepsBut_circWound.pool, hp]
      rw [State.circOver, hh, circFreed_answers hp' hw ho]
      exact ⟨State.pool_setSlot_self _ _ _, txq_answered s.keepsBut_circWound.ports i sl.port _⟩
    · rw [s.entry_circOver, if_neg (by simpa using hq)]

/-! ### A circulation that starts -/

theorem circulationStarted : Clauses.CirculationStarted := by
  intro s i sl w x hd hl hh hp hw ho hr hna hlevel
  have kr := s.keepsBut_ramped
  have hstep : s.drive.circRamp.step s.circTarget = ⟨s.drive.circ.active, 0, false⟩ := by
    rw [State.circTarget, if_neg (by rw [hl]; decide)]
    unfold Ramp.step stepToward
    congr 1
    split <;> (try split) <;> omega
  have hdrive : s.ramped.drive = { s.drive with circRamp := ⟨s.drive.circ.active, 0, false⟩ } := by rw [s.drive_ramped, hstep]
  have hexec : exec (.rampStep .circ) s = .next s.ramped.circReached.settle := by
    rw [exec_rampStep_circ hd, if_neg fun e => by rw [hl] at e; cases e.1]
  have hreached := circReached_held (s := s.ramped) (by rw [kr.entry, hl]) (by rw [kr.entry, hh]) (by rw [kr.pool, hp]) hw ho
  have hactive : s.ramped.drive.circRamp.level = s.ramped.drive.circ.active := by rw [hdrive]
  by_cases hs : w.started = false
  · have kc := s.ramped.keepsBut_circStarted i sl w
    have hoffer := offerTrigger_unarmed (s := s.ramped.circStarted i sl w) (fun c => by
      rw [State.channel_congr (kc.dose.trans kr.dose)]
      exact hna c) .circulationStarted
    rw [if_pos ⟨hs, hactive⟩] at hreached
    obtain ⟨t, ht⟩ : ∃ t, t = (s.ramped.circStarted i sl w).offerTrigger .circulationStarted := ⟨_, rfl⟩
    rw [← ht] at hreached hoffer
    have kt : s.keepsBut t [.pool, .ports, .dose, .sense, .drive] :=
      ((State.keepsBut_mono kr (by decide)).step kc (by decide)).step hoffer.frame (by decide)
    have hdose : (s.ramped.circStarted i sl w).dose = s.dose := kc.dose.trans kr.dose
    have hpool : ∀ j : SlotId, t.pool[j] = (s.ramped.setSlot i (some { sl with work := .circulate { w with started := true } })).pool[j] :=
      fun j => by
        rw [hoffer.frame.pool]
        rfl
    refine ⟨t, by rw [hexec, hreached, ((hr.ramped.frame kc).frame hoffer.frame).settle], ?_, fun _ => ⟨?_, fun j hj => ?_, ?_, fun c => ?_, ?_⟩,
      fun h => absurd (hs.symm.trans h) (by decide), kt⟩
    · unfold State.circLevel
      rw [hoffer.frame.drive, kc.drive, hdrive]
    · rw [hpool, State.pool_setSlot_self]
    · rw [hpool, State.pool_setSlot_ne _ hj, kr.pool]
    · rw [hoffer.frame.ports, State.circStarted, hdrive]
      exact State.ports_post_clock kr.ports (by show s.ramped.drive.clock = _; rw [hdrive]) _ _ _
    · rw [hoffer.told c (by simp), State.flagged, State.channel_congr hdose, State.currentDesc_congr (s := s) (by rw [hdose]) rfl]
    · rw [hoffer.descs, hdose]
  · rw [if_neg fun e => hs e.1] at hreached
    refine ⟨s.ramped, by rw [hexec, hreached, hr.ramped.settle], ?_, fun h => absurd h hs, fun _ => ⟨kr.pool, kr.ports, kr.dose⟩,
      State.keepsBut_mono kr (by decide)⟩
    unfold State.circLevel
    rw [hdrive]

/-! ### CIRC passed on -/

theorem settleFor_judged {s x : State} (hj : s.judge = x) (hy : x.yieldNext = none) (hg : ∀ r, x.chosenWaiter r = none) (n : Nat) :
    s.settleFor n = x := by
  have hnone : x.grantNext = none := by
    have : x.grantable = [] := List.filter_eq_nil_iff.mpr fun r _ => by simp [hg r]
    unfold State.grantNext
    rw [this]
  cases n with
  | zero => exact hj
  | succ n =>
    unfold State.settleFor
    simp [hj, hy, hnone]

/-- What the judgement of an interlock that is not on record can do with the door CLOSED: HEATER, nobody waiting for it, is restored or
suspended. -/
structure Interlocked (s x : State) : Prop where
  water : x.water = { s.water with interlock := s.interlockMet }
  frame : s.keepsBut x [.arb, .sense, .water]
  entries : s.keepsEntriesBut x [.heater]
  waiters : (x.entry .heater).waiters = (s.entry .heater).waiters
  yields : (s.entry .heater).waiters = [] → (s.entry .heater).yieldRequested = false → (x.entry .heater).yieldRequested = false

theorem settleInterlock_restores {s : State} (hi : s.water.interlock = false) (hc : s.doorClosed = true) :
    Interlocked s s.settleInterlock := by
  obtain ⟨u, hu⟩ : ∃ u, u = { s with water := { s.water with interlock := s.interlockMet } } := ⟨_, rfl⟩
  have ku : s.keepsBut u [.water] := hu ▸ s.keepsBut_withWater _
  have hwater : u.water = { s.water with interlock := s.interlockMet } := hu ▸ rfl
  have hsettle : s.settleInterlock = if s.water.interlock = s.interlockMet then s else u.restore .heater := by
    unfold State.settleInterlock
    dsimp only
    split
    next => rfl
    next h =>
      have hmet : s.interlockMet = true := by
        rw [hi] at h
        cases hm : s.interlockMet with
        | true => rfl
        | false => exact absurd hm.symm h
      have hclosed : u.doorClosed = true := by simp only [State.doorClosed, ku.door]; exact hc
      rw [← hu, if_pos hclosed, if_pos hmet]
  have kr : u.keepsBut (u.restore .heater) [.arb, .sense] := (u.keepsBut_editEntry .heater _).ite _ (u.keepsBut_refl _)
  have hentries : u.keepsEntriesBut (u.restore .heater) [.heater] := by
    unfold State.restore
    split
    · exact State.keepsEntriesBut_editEntry u .heater _
    · exact u.keepsEntriesBut_refl _
  rw [hsettle]
  split
  next h =>
    exact ⟨by rw [← h], s.keepsBut_refl _, s.keepsEntriesBut_refl _, rfl, fun _ h => h⟩
  next =>
    have k := (State.keepsBut_mono ku (by decide : _ ⊆ [Block.arb, .sense, .water])).step kr (by decide)
    have he := ku.entry .heater
    refine ⟨by rw [kr.water, hwater], k, fun q hq => by rw [hentries q hq, ku.entry], ?_, fun hw hy => ?_⟩
    · rw [← he]
      unfold State.restore
      split
      · rw [State.editEntry_self]
        rfl
      · rfl
    · unfold State.restore
      split
      · rw [State.editEntry_self]
        exact yieldCondition_noWaiters (he ▸ hw)
      · rw [he, hy]

theorem yieldNext_none {s : State} (hh : (s.entry .heater).yieldRequested = false)
    (hd : ∀ n, (s.entry (.dose n)).yieldRequested = false) : s.yieldNext = none := by
  have hheat : s.heatYielder = none := by simp [State.heatYielder, hh]
  have hdose : s.doseYielder = none := List.find?_eq_none.mpr fun c _ => by
    simp [show (s.entry (s.channelPump (s.channel c))).yieldRequested = false from hd _]
  simp [State.yieldNext, hheat, hdose]

/-- A slot whose outcome is not fixed is not the one that the end of a wind-down answers. -/
theorem pool_circFreed {s : State} {h : Option Holder} {j : SlotId} {y : Slot} (hp : s.pool[j] = some y) (ho : y.outcome = none) :
    (s.circFreed h).pool[j] = some y := by
  unfold State.circFreed
  split
  next x i =>
    split
    next sl hsl =>
      split
      next w o hw hso =>
        have hne : j ≠ i := fun e => by
          subst e
          rw [hsl] at hp
          cases hp
          rw [ho] at hso
          cases hso
        rw [State.endSlot_answered hsl, State.pool_setSlot_ne _ hne, (State.keepsBut_send _ _ _).pool, hp]
      next => exact hp
    next => exact hp
  next => exact hp

theorem waiterPort_slot {s : State} {j : SlotId} {x : Slot} (h : s.pool[j] = some x) (i : Ident) : s.waiterPort ⟨i, some j⟩ = some x.port := by
  show (s.pool[j]).map (·.port) = _
  rw [h]
  rfl

theorem circPassesOn : Clauses.CircPassesOn := by
  intro s hd hl h1 hne hwaiters hlegal hcalm hclosed hlatch hdoor
  obtain ⟨y, hy⟩ : ∃ y, y = s.circOver := ⟨_, rfl⟩
  have ky : s.keepsBut y [.arb, .pool, .ports, .sense, .drive] := hy ▸ s.keepsBut_circOver
  have hyentry : ∀ q, y.entry q = if q = .circ then (s.entry .circ).freed else s.entry q := hy ▸ s.entry_circOver
  have hycirc : y.entry .circ = (s.entry .circ).freed := (hyentry .circ).trans (if_pos rfl)
  have hydrive : y.drive = { s.drive with circ := Setting.zero, circRamp := Ramp.zero } := hy ▸ s.drive_circOver
  have hypoints : y.sense.points = s.sense.points := hy ▸ s.points_circOver
  have hypool : ∀ (j : SlotId) (x : Slot), s.pool[j] = some x → x.outcome = none → y.pool[j] = some x := fun j x hp ho => by
    rw [hy]
    exact pool_circFreed (by rw [s.keepsBut_circWound.pool, hp]) ho
  have hystay : ∀ q, q ≠ .circ → y.entry q = s.entry q := fun q hq => (hyentry q).trans (if_neg hq)
  obtain ⟨v, hchooses, hgrant⟩ := settleFor_chooses (s := y) (r := .circ) 127
    (by rw [ky.water, hcalm.2, interlockMet_circNotHeld (by rw [hl]; decide), interlockMet_circNotHeld (by rw [hycirc]; exact fun e => by cases e)])
    (fun q => by
      by_cases hq : q = .circ
      · rw [hq, hycirc]
        rfl
      · rw [hystay q hq]
        exact (hcalm.1 q hq).2)
    (fun q hq => by rw [hystay q hq]; exact (hcalm.1 q hq).1) (by rw [hycirc]; rfl) (by rw [hycirc]; exact hne) (by rw [hycirc]; exact hlegal)
    (fun w hw => by
      rw [hycirc] at hw
      obtain ⟨j, x, z, hv, -⟩ := hwaiters w hw
      rw [hv]
      exact fun e => by cases e)
    (fun w _ => State.admits.eligibleBase
      { free := by rw [hycirc]; rfl
        guarded := fun _ => ⟨by simp only [State.doorClosed, ky.door]; exact hclosed, by
          rw [State.hasHolder, hystay .doorDrive (by decide)]
          exact hdoor⟩
        trip := fun _ => by simp only [State.latched, ky.prot]; exact hlatch
        inlet := fun e => by cases e
        drain := fun e => by cases e
        door := fun e => by cases e }
      fun u hu => by rw [hystay .doorDrive (by decide), (hcalm.1 .doorDrive (by decide)).1] at hu; cases hu)
  rw [hycirc, ky.cfg, hydrive] at hchooses
  obtain ⟨j, x, z, hvwho, hp, hwork, ho⟩ := hwaiters v (Settings.mem_afterHoldOff hchooses.1)
  have hpy : y.pool[j] = some x := hypool j x hp ho
  have hport : y.waiterPort v.who = some x.port := by
    rw [hvwho]
    exact waiterPort_slot hpy _
  obtain ⟨g, hg⟩ : ∃ g, g = y.grantLease .circ v := ⟨_, rfl⟩
  have hgput : g = y.putEntry .circ (y.edited .circ (Entry.granted y.cfg y.drive.clock (some x.port) v .held)) := by
    rw [hg, ← hport]
    exact State.editEntry_quiet (.inr (by decide))
  have kg : y.keepsBut g [.arb] := hgput ▸ State.keepsBut_putEntry _ _ _
  have hgentry : ∀ q, g.entry q = if q = .circ then y.edited .circ (Entry.granted y.cfg y.drive.clock (some x.port) v .held) else y.entry q :=
    fun q => hgput ▸ State.entry_putEntry _ _ _ _
  have hpassed : s.cfg.passedOn s.drive.clock (s.entry .circ) (g.entry .circ) (s.entry .circ).waiters v (some x.port) .held
      (s.entry .circ).lastRelease := by
    have hpass := passedOn_granted (g := s.cfg) (clock := s.drive.clock) (e := s.entry .circ) (f := y.entry .circ) (v := v) (some x.port) .held
      (by rw [hycirc]; rfl) (by rw [hycirc]; rfl)
    rw [hgentry, if_pos rfl, State.edited, ky.cfg, hydrive]
    rw [hycirc] at hpass ⊢
    exact hpass
  obtain ⟨t0, ht0⟩ : ∃ t0, t0 = { g with drive := { g.drive with circ := ⟨z.duty, 0, false⟩ } } := ⟨_, rfl⟩
  have howner : g.ownerGranted .circ v.who = t0 := by
    rw [hvwho, ht0]
    exact circGranted_eq (by rw [kg.pool, hpy]) hwork ho
  have k0 : g.keepsBut t0 [.drive] := ht0 ▸ g.keepsBut_withDrive _
  have h0entry : ∀ q, q ≠ .circ → t0.entry q = s.entry q := fun q hq => by rw [k0.entry, hgentry, if_neg hq, hystay q hq]
  have hheater := hcalm.1 .heater (by decide)
  have hinter : Interlocked t0 t0.settleInterlock := settleInterlock_restores
    (by rw [k0.water, kg.water, ky.water, hcalm.2, interlockMet_circNotHeld (by rw [hl]; decide)])
    (by simp only [State.doorClosed, k0.door, kg.door, ky.door]; exact hclosed)
  obtain ⟨t, ht⟩ : ∃ t, t = t0.settleInterlock := ⟨_, rfl⟩
  rw [← ht] at hinter
  have hstay : ∀ q, q ≠ .circ → q ≠ .heater → t.entry q = s.entry q := fun q hc hq => by
    rw [hinter.entries q (by simpa using hq), h0entry q hc]
  have htcirc : t.entry .circ = g.entry .circ := by rw [hinter.entries .circ (by decide), k0.entry]
  have htheater : (t.entry .heater).waiters = [] ∧ (t.entry .heater).yieldRequested = false :=
    ⟨by rw [hinter.waiters, h0entry _ (by decide), hheater.1],
      hinter.yields (by rw [h0entry _ (by decide), hheater.1]) (by rw [h0entry _ (by decide), hheater.2])⟩
  have hsettled : t0.settleFor 127 = t := by
    refine settleFor_judged ?_ (yieldNext_none htheater.2 fun n => ?_) (fun q => ?_) 127
    · rw [State.judge, ← ht]
      exact markBarred_same (.inl (by rw [hstay .doorDrive (by decide) (by decide)]; exact (hcalm.1 .doorDrive (by decide)).1))
    · rw [hstay _ (fun e => by cases e) (fun e => by cases e)]
      exact (hcalm.1 _ fun e => by cases e).2
    · by_cases hq : q = .circ
      · rw [hq]
        exact chosenWaiter_leased (by rw [htcirc, hpassed.1]; exact fun e => by cases e)
      · by_cases hh : q = .heater
        · rw [hh]
          exact chosenWaiter_noWaiters htheater.1
        · exact chosenWaiter_noWaiters (by rw [hstay q hq hh]; exact (hcalm.1 q hq).1)
  have hmet : t0.interlockMet = (s.waterPresent && s.water.probeValid) := by
    have hheld : (t0.entry .circ).lease = .held := by
      rw [k0.entry, hpassed.1]
      rfl
    have hpoints : t0.sense.points = s.sense.points := by rw [k0.sense, kg.sense, hypoints]
    have hwater : t0.waterPresent = s.waterPresent := by simp only [State.waterPresent, State.roleHolder, hpoints]
    have hclosed0 : t0.doorClosed = true := by simp only [State.doorClosed, k0.door, kg.door, ky.door]; exact hclosed
    have hvalid : t0.water.probeValid = s.water.probeValid := by rw [k0.water, kg.water, ky.water]
    simp [State.interlockMet, State.interlockConditions, hheld, hwater, hclosed0, hvalid]
  refine ⟨t, v, j, x, z, ?_, State.chooses_congr ky.cfg (by rw [hycirc]; rfl) (by rw [hycirc]; rfl) hchooses, hvwho, hp, hwork,
    by rw [htcirc]; exact hpassed, ?_, ?_, ?_, fun q hq => ?_,
    ((State.keepsBut_mono ky (by decide)).step kg (by decide)).step ((State.keepsBut_mono k0 (by decide : _ ⊆ [Block.arb, .sense, .drive, .water])).step
      hinter.frame (by decide)) (by decide)⟩
  · rw [exec_rampStep_over hd hl h1, ← hy, State.settle, hgrant, ← hg, howner, hsettled]
  · rw [hinter.frame.drive, ht0, kg.drive, hydrive]
  · rw [hinter.frame.pool, k0.pool, kg.pool, hpy]
  · rw [hinter.water, hmet, k0.water, kg.water, ky.water]
  · simp only [List.mem_cons, List.not_mem_nil, or_false, not_or] at hq
    exact hstay q hq.1 hq.2

/-- Settles O46. -/
theorem rampSteps : Obligations.RampSteps := ⟨rampLevelsStep, circulationStarted, circPassesOn⟩

end Sys2Proof.Machine

/-! A HEAT that yields HEATER to one that is DONE at its grant ends it (R19, R47), and an ending operation lets go of everything its
port and slot hold. `inPlace` leaves an operation a lease that is RELEASING beside its own resources: a HEAT with SELECTOR and INLET
RELEASING in its name meets every hypothesis of `Clauses.HeatYieldsToOneThatIsDone`, and its end frees INLET, which the clause says
keeps its entry. Refutes O45. -/

namespace Sys2Proof.Machine

/-! ### The counterexample -/

/-- The holder and the waiter of HEATER, and the other's HEAT. -/
def yieldingHeat : Slot := ⟨.l1, 7, .heat ⟨600, 60, Timer.zero, true⟩, 0, 0, none⟩

def reachedHeat : Slot := ⟨.l3, 9, .heat ⟨600, 60, Timer.zero, false⟩, 4, 0, none⟩

def reachedWaiter : Waiter := ⟨⟨.port .l3, some 2⟩, 4, none, false⟩

/-- The reset state with the water at 600 behind a met interlock, CIRC held, the door closed and a run-clock second due; L3 is URGENT. -/
def warmState : State :=
  { State.reset with
    door := { State.reset.door with door := ⟨true, true, 0⟩ }
    water := { State.reset.water with probeValid := true, interlock := true, temperature := 600 }
    sense := { State.reset.sense with
      points := upd State.reset.sense.points 4 { State.reset.point 4 with role := .tankMin, state := .clear } }
    cfg := { State.reset.cfg with portUrgent := #v[false, false, true] }
    drive := { State.reset.drive with secondDue := true } }

/-- This entry under a holder, in a lease state. -/
def Entry.leasedTo (e : Entry) (l : LeaseState) (h : Holder) : Entry := { e with lease := l, holder := some h }

/-- L1's HEAT holds HEATER, L3's waits for it and is at its target, and SELECTOR and INLET are RELEASING in L3's name. -/
def strayState : State :=
  let s := (warmState.setSlot 0 (some yieldingHeat)).setSlot 2 (some reachedHeat)
  let s := s.putEntry .circ ((s.entry .circ).leasedTo .held ⟨.port .l2, some 1⟩)
  let s := s.putEntry .heater { (s.entry .heater).leasedTo .held ⟨.port .l1, some 0⟩ with waiters := [reachedWaiter] }
  let s := s.putEntry .inlet ((s.entry .inlet).leasedTo .releasing reachedWaiter.who)
  s.putEntry .selector ((s.entry .selector).leasedTo .releasing reachedWaiter.who)

/-- What `inPlace` says of one slot and one resource, as a check. -/
def State.placedAt (s : State) (i : SlotId) (r : Resource) : Bool :=
  s.pool[i].all fun sl => sl.work.resources.contains r ||
    (!s.waitsFor (slotWho i sl) r && (!s.holds (slotWho i sl) r || (s.entry r).lease == .releasing))

theorem State.inPlace_of_placedAt {s : State} (h : ∀ (i : SlotId), ∀ r ∈ allResources, s.placedAt i r = true) : s.inPlace := by
  intro i sl hp r hr
  have hat := h i r (Resource.mem_allResources r)
  rw [State.placedAt, hp] at hat
  simpa [hr, imp_iff_not_or] using hat

theorem strayState_inPlace : strayState.inPlace := State.inPlace_of_placedAt (by decide +kernel)

theorem strayState_calm : strayState.calmBut .heater := by
  have hall : ∀ q ∈ allResources, q ≠ .heater →
      (strayState.entry q).waiters = [] ∧ (strayState.entry q).yieldRequested = false := by decide +kernel
  exact ⟨fun q => hall q (Resource.mem_allResources q), by decide +kernel⟩

theorem strayState_yieldAsked : strayState.cfg.yieldAsked 1 (strayState.entry .heater) :=
  ⟨by decide +kernel, ⟨.port .l1, some 0⟩, by decide +kernel, by decide,
    ⟨reachedWaiter, by decide +kernel, by decide +kernel, by decide⟩, .inl (by decide +kernel)⟩

/-- INLET is RELEASING, and the second frees it: the HEAT that is DONE lets go of SELECTOR, and INLET falls with it. -/
theorem strayState_inlet : (strayState.entry .inlet).lease = .releasing ∧ (strayState.clockSecond.entry .inlet).lease = .free := by
  decide +kernel

theorem not_heatYieldsToOneThatIsDone : ¬ Clauses.HeatYieldsToOneThatIsDone := by
  intro h
  obtain ⟨t, hexec, -, -, -, -, -, -, hkeep, -⟩ := h strayState 0 2 yieldingHeat reachedHeat ⟨600, 60, Timer.zero, true⟩
    ⟨600, 60, Timer.zero, false⟩ reachedWaiter 1 _ (by decide +kernel) (by decide +kernel) (by decide +kernel) rfl rfl
    (by decide +kernel) (by decide +kernel) strayState_yieldAsked (by decide +kernel) rfl (by decide) (by decide +kernel) rfl rfl
    (by decide +kernel) strayState_inPlace strayState_calm (by decide +kernel) (by decide +kernel) (by decide +kernel)
    (by decide +kernel) (by decide +kernel) (by decide +kernel) rfl
  obtain rfl : strayState.clockSecond = t := Host.Outcome.next.inj hexec
  obtain ⟨hbefore, hafter⟩ := strayState_inlet
  have hsame : strayState.clockSecond.entry .inlet = strayState.entry .inlet := hkeep .inlet (by decide)
  rw [hsame, hbefore] at hafter
  cases hafter

/-- Refutes O45: the end of the HEAT that is DONE frees INLET too, where it stood RELEASING in that HEAT's name. -/
theorem not_runClockSecondCounted : ¬ Obligations.RunClockSecondCounted := by
  rintro ⟨-, hdone, -⟩
  exact not_heatYieldsToOneThatIsDone hdone

end Sys2Proof.Machine

/-! The interlock settled in a calm part, and a CIRCULATE ended by its time (R29, R41, R45, R146). -/

namespace Sys2Proof.Machine

/-! ### The interlock judged where nobody waits -/

theorem Interlocked.editHeater {s u : State} (hu : u = { s with water := { s.water with interlock := s.interlockMet } }) (f : Entry → Entry)
    (hf : ∀ e, (f e).waiters = e.waiters) : Interlocked s (u.editEntry .heater f) := by
  have ku : s.keepsBut u [.water] := hu ▸ s.keepsBut_withWater _
  have ke := u.keepsBut_editEntry .heater f
  refine ⟨by rw [ke.water, hu], (State.keepsBut_mono ku (by decide)).step ke (by decide), fun q hq => ?_, ?_, fun hw _ => ?_⟩
  · rw [State.keepsEntriesBut_editEntry u .heater f q hq, ku.entry]
  · rw [State.editEntry_self]
    show (f (u.entry .heater)).waiters = _
    rw [hf, ku.entry]
  · rw [State.editEntry_self]
    exact yieldCondition_noWaiters (by rw [hf, ku.entry, hw])

theorem Interlocked.same {s u : State} (hu : u = { s with water := { s.water with interlock := s.interlockMet } }) : Interlocked s u := by
  have ku : s.keepsBut u [.water] := hu ▸ s.keepsBut_withWater _
  exact ⟨by rw [hu], State.keepsBut_mono ku (by decide), ku.entries _, by rw [ku.entry], fun _ h => by rw [ku.entry, h]⟩

theorem Interlocked.reported {s x : State} (h : Interlocked s x) (u : State) : Interlocked s (reportSwitching u x) := by
  have k := State.keepsBut_reportSwitching u x
  exact ⟨by rw [k.water, h.water], h.frame.step k (by decide), h.entries.step (k.entries [.heater]) (List.Subset.refl _),
    by rw [k.entry, h.waiters], fun hw hy => by rw [k.entry, h.yields hw hy]⟩

theorem settleInterlock_interlocked (s : State) : Interlocked s s.settleInterlock := by
  obtain ⟨u, hu⟩ : ∃ u, u = { s with water := { s.water with interlock := s.interlockMet } } := ⟨_, rfl⟩
  unfold State.settleInterlock
  dsimp only
  rw [← hu]
  split
  next h => exact .same (by rw [← h])
  next =>
    split
    · split
      · unfold State.restore
        split
        · exact .editHeater hu _ fun _ => rfl
        · exact .same hu
      · unfold State.suspend
        split
        · exact (Interlocked.editHeater hu (fun e => { e with lease := .suspended }) fun _ => rfl).reported u
        · exact .same hu
    · exact .same hu

/-- In a calm part only the interlock is to be settled. -/
theorem State.calm.settle_interlocked {s : State} (h : s.calm) : Interlocked s s.settle := by
  have hi := settleInterlock_interlocked s
  obtain ⟨x, hx⟩ : ∃ x, x = s.settleInterlock := ⟨_, rfl⟩
  rw [← hx] at hi
  have hcalm : x.calm := fun q => by
    by_cases hq : q = .heater
    · subst hq
      exact ⟨hi.waiters.trans (h .heater).1, hi.yields (h .heater).1 (h .heater).2⟩
    · rw [hi.entries q (by simpa using hq)]
      exact h q
  have hjudge : s.judge = x := by
    rw [State.judge, ← hx]
    exact markBarred_same (.inl (hcalm .doorDrive).1)
  rwa [State.settle, settleFor_judged hjudge (yieldNext_none (hcalm .heater).2 fun n => (hcalm (.dose n)).2)
    fun r => chosenWaiter_noWaiters (hcalm r).1]

/-! ### A CIRCULATE -/

theorem circAt_eq {s : State} {i : SlotId} {sl : Slot} {w : CircWork} (h : s.pool[i] = some sl) (hw : sl.work = .circulate w)
    (ho : sl.outcome = none) : s.circAt i = some (sl, w) := by
  unfold State.circAt
  simp only [h, hw, ho]

/-- HELD CIRC let go at a level above 0 winds down toward 0 (R146). -/
theorem release_circ_winds {s : State} (hl : (s.entry .circ).lease = .held) (hd : 0 < s.circLevel) :
    ∃ u, s.release .circ = u ∧ s.keepsBut u [.arb, .sense, .drive] ∧ s.keepsEntriesBut u [.circ] ∧
      u.drive = { s.drive with circ := { s.drive.circ with active := 0 } } ∧ (u.entry .circ).lease = .releasing ∧
      (u.entry .circ).waiters = (s.entry .circ).waiters ∧ (u.entry .circ).yieldRequested = false := by
  have hrel : s.release .circ = ({ s.writeRelease .circ with
      drive := { s.drive with circ := { s.drive.circ with active := 0 } } } : State).editEntry .circ fun e => { e with lease := .releasing } := by
    have hlevel : ¬(s.writeRelease .circ).drive.circRamp.level = 0 := Nat.pos_iff_ne_zero.mp hd
    rw [State.release, if_neg (fun e => by cases e.1)]
    unfold State.letGo
    simp only [hl]
    rw [if_neg hlevel]
    rfl
  obtain ⟨v, hv⟩ : ∃ v, v = ({ s.writeRelease .circ with drive := { s.drive with circ := { s.drive.circ with active := 0 } } } : State) := ⟨_, rfl⟩
  rw [← hv] at hrel
  have kv : s.keepsBut v [.arb, .drive] := hv ▸ (State.keepsBut_mono (s.keepsBut_putEntry .circ _) (by decide)).step
    (State.keepsBut_withDrive _ _) (by decide)
  have hentry : ∀ q, v.entry q = (s.writeRelease .circ).entry q := fun q => hv ▸ rfl
  refine ⟨_, hrel, (State.keepsBut_mono kv (by decide)).step (v.keepsBut_editEntry .circ _) (by decide), fun q hq => ?_, ?_, ?_, ?_, ?_⟩
  · rw [State.keepsEntriesBut_editEntry v .circ _ q hq, hentry, State.entry_writeRelease_ne s (by simpa using hq)]
  · rw [(v.keepsBut_editEntry .circ _).drive, hv]
  · rw [State.editEntry_self]
    rfl
  · rw [State.editEntry_self]
    show (v.entry .circ).waiters = _
    rw [hentry, State.writeRelease, State.entry_putEntry_self]
  · rw [State.editEntry_self]
    exact yieldCondition_let_go (.inr rfl)

/-- HELD CIRC let go at level 0 is FREE at once. -/
theorem release_circ_still {s : State} (hl : (s.entry .circ).lease = .held) (hd : s.circLevel = 0) :
    s.release .circ = reportSwitching s ((s.dropDrive .circ).putEntry .circ (s.letFree .circ)) := by
  rw [← State.freeLease_writeRelease, State.release, if_neg (fun e => by cases e.1)]
  unfold State.letGo
  simp only [hl]
  exact if_pos hd

/-- A CIRCULATE that has ended: CIRC winds down with the response to come, or is FREE and the response has been sent (R29, R41). -/
structure CircEnded (s t : State) (i : SlotId) (sl : Slot) : Prop where
  calm : t.calm
  winds : 0 < s.circLevel → (t.entry .circ).lease = .releasing ∧ t.pool[i] = some { sl with outcome := some .done } ∧
    t.drive.circ.active = 0 ∧ t.circLevel = s.circLevel ∧ t.ports = s.ports
  still : s.circLevel = 0 → (t.entry .circ).lease = .free ∧ t.pool[i] = none ∧ s.responds t sl.port [opResponse sl.tag .done []]
  pool : ∀ j : SlotId, j ≠ i → t.pool[j] = s.pool[j]
  entries : s.keepsEntriesBut t [.circ]
  frame : s.keepsBut t [.arb, .pool, .ports, .drive, .sense]

theorem finishCirc_ends {s : State} {i : SlotId} {sl : Slot} {w : CircWork} (hp : s.pool[i] = some sl) (hw : sl.work = .circulate w)
    (ho : sl.outcome = none) (hl : (s.entry .circ).lease = .held) (hh : (s.entry .circ).holder = some ⟨.port sl.port, some i⟩) (hc : s.calm)
    (honly : ∀ r, s.holds ⟨.port sl.port, some i⟩ r = true → r = .circ) : CircEnded s (s.finishCirc i .done true) i sl := by
  have hwho : slotWho i sl = ⟨.port sl.port, some i⟩ := by simp [slotWho, hw]
  have hholds : s.holds ⟨.port sl.port, some i⟩ .circ = true := (State.holds_iff _ _ _).mpr ⟨by rw [hl]; decide, hh⟩
  have hheld : s.holdsHeld ⟨.port sl.port, some i⟩ .circ = true := by simp [State.holdsHeld, hl, hh]
  obtain ⟨u, hu⟩ : ∃ u, u = s.setSlot i (some { sl with outcome := some .done }) := ⟨_, rfl⟩
  have ku : s.keepsBut u [.pool] := hu ▸ s.keepsBut_setSlot _ _
  have hulease : (u.entry .circ).lease = .held := by rw [ku.entry, hl]
  have hlevel : u.circLevel = s.circLevel := congrArg (fun d : Drive => d.circRamp.level) ku.drive
  have hself : u.pool[i] = some { sl with outcome := some .done } := hu ▸ State.pool_setSlot_self _ _ _
  have hne : ∀ j : SlotId, j ≠ i → u.pool[j] = s.pool[j] := fun j hj => hu ▸ State.pool_setSlot_ne _ hj _
  have hrelease : u.releaseAll ⟨.port sl.port, some i⟩ = u.release .circ := by
    rw [State.releaseAll_only (r := .circ) fun q hq => honly q (by rw [hu] at hq; exact hq), State.releaseIf_holds (by rw [hu]; exact hholds)]
  have hfinish : s.finishCirc i .done true = if 0 < s.circLevel then (u.release .circ).withdraw ⟨.port sl.port, some i⟩
      else ((u.release .circ).withdraw ⟨.port sl.port, some i⟩).endSlot i .done [] true := by
    unfold State.finishCirc
    simp only [circAt_eq hp hw ho, hwho, hheld, State.fixOutcome_held hp, ← hu, hrelease, Bool.true_and, Bool.and_true, decide_eq_true_eq]
  rw [hfinish]
  by_cases hz : 0 < s.circLevel
  · obtain ⟨v, hv, kv, hentries, hdrive, hlease, hwait, hyield⟩ := release_circ_winds hulease (hlevel ▸ hz)
    have hcalm : v.calm := fun q => by
      by_cases hq : q = .circ
      · rw [hq, hwait, ku.entry]
        exact ⟨(hc .circ).1, hyield⟩
      · rw [hentries q (by simpa using hq), ku.entry]
        exact hc q
    rw [if_pos hz, hv, hcalm.withdraw]
    refine ⟨hcalm, fun _ => ⟨hlease, by rw [kv.pool, hself], by rw [hdrive], ?_, by rw [kv.ports, ku.ports]⟩, fun h => absurd hz (by omega),
      fun j hj => by rw [kv.pool, hne j hj], fun q hq => by rw [hentries q hq, ku.entry],
      (State.keepsBut_mono ku (by decide)).step kv (by decide)⟩
    rw [← hlevel, State.circLevel, hdrive]
    rfl
  · have hzero : s.circLevel = 0 := by omega
    obtain ⟨v, hv⟩ : ∃ v, v = u.release .circ := ⟨_, rfl⟩
    have hrel := release_circ_still hulease (hlevel.trans hzero)
    rw [← hv] at hrel
    have kv : u.keepsBut v [.arb, .sense, .drive] := hrel ▸
      ((State.keepsBut_mono (u.keepsBut_dropDrive .circ) (by decide)).step (State.keepsBut_putEntry _ _ _) (by decide)).step
        (State.keepsBut_reportSwitching u _) (by decide)
    have hentry : ∀ q, v.entry q = if q = .circ then u.letFree .circ else u.entry q := fun q => by
      rw [hrel, State.entry_congr (congrArg Arbiter.table (reportSwitching_rest u _).1), State.entry_putEntry, State.entry_dropDrive]
    have hcalm : v.calm := fun q => by
      rw [hentry]
      split
      · rw [State.letFree, ku.entry]
        exact ⟨(hc .circ).1, rfl⟩
      · rw [ku.entry]
        exact hc q
    have hpool : v.pool[i] = some { sl with outcome := some .done } := by rw [kv.pool, hself]
    have kend := (v.keepsBut_send sl.port (opResponse sl.tag .done [])).cons (State.keepsBut_setSlot _ i none)
    rw [if_neg hz, ← hv, hcalm.withdraw, State.endSlot_answered hpool]
    refine ⟨fun q => by rw [kend.entry]; exact hcalm q, fun h => absurd h hz, fun _ => ⟨?_, State.pool_setSlot_self _ _ _, ?_⟩,
      fun j hj => ?_, fun q hq => ?_, ((State.keepsBut_mono ku (by decide)).step kv (by decide)).step kend (by decide)⟩
    · rw [kend.entry, hentry, if_pos rfl]
      rfl
    · exact txq_answered (s := s) (by rw [kv.ports, ku.ports]) i sl.port _
    · rw [State.pool_setSlot_ne _ hj, (v.keepsBut_send _ _).pool, kv.pool, hne j hj]
    · rw [kend.entry, hentry, if_neg (by simpa using hq), ku.entry]

theorem circulateEnds : Clauses.CirculateEnds := by
  intro s i sl w hp hw ho hl hh hc honly hdue
  have hend := finishCirc_ends hp hw ho hl hh hc honly
  obtain ⟨t, ht⟩ : ∃ t, t = s.finishCirc i .done true := ⟨_, rfl⟩
  rw [← ht] at hend
  have hi := hend.calm.settle_interlocked
  have hnotHeld : (t.entry .circ).lease ≠ .held := by
    by_cases hz : 0 < s.circLevel
    · rw [(hend.winds hz).1]
      decide
    · rw [(hend.still (by omega)).1]
      decide
  have hcirc : t.settle.entry .circ = t.entry .circ := hi.entries .circ (by decide)
  refine ⟨t.settle, ?_, by rw [hi.water, interlockMet_circNotHeld hnotHeld], fun hz => ?_, fun hz => ?_, fun j hj => ?_, fun q hq => ?_,
    (State.keepsBut_mono hend.frame (by decide)).step hi.frame (by decide)⟩
  · have hrunning : s.runningCirc = some i := by simp [State.runningCirc, hl, hh]
    show Host.Outcome.next s.circRunEnd = _
    unfold State.circRunEnd
    simp only [hrunning, circAt_eq hp hw ho, hdue, if_true, ht]
  · obtain ⟨h1, h2, h3, h4, h5⟩ := hend.winds hz
    refine ⟨by rw [hcirc, h1], by rw [hi.frame.pool, h2], by rw [hi.frame.drive, h3], ?_, by rw [hi.frame.ports, h5]⟩
    rw [← h4]
    exact congrArg (fun d : Drive => d.circRamp.level) hi.frame.drive
  · obtain ⟨h1, h2, h3⟩ := hend.still hz
    refine ⟨by rw [hcirc, h1], by rw [hi.frame.pool, h2], ?_⟩
    unfold State.responds
    rw [State.port_congr hi.frame.ports]
    exact h3
  · rw [hi.frame.pool, hend.pool j hj]
  · simp only [List.mem_cons, List.not_mem_nil, or_false, not_or] at hq
    rw [hi.entries q (by simpa using hq.2), hend.entries q (by simpa using hq.1)]

end Sys2Proof.Machine

/-! HEAT and DRAIN ended by their times, and a DRAIN that passes DRAIN on (R16, R29, R46, R48, R49). Settles O29. -/

namespace Sys2Proof.Machine

/-! ### One lease of HEATER or DRAIN let go at the end of its operation -/

/-- An operation whose outcome is fixed has let go the one resource it can hold. -/
def State.letGoAtEnd (s : State) (i : SlotId) (sl : Slot) (o : OutcomeCode) (r : Resource) : State :=
  (s.setSlot i (some { sl with outcome := some o })).releaseIf ⟨.port sl.port, some i⟩ r

/-- What stands then. -/
structure LetGo (s u : State) (i : SlotId) (sl : Slot) (o : OutcomeCode) (r : Resource) : Prop where
  self : u.pool[i] = some { sl with outcome := some o }
  pool : ∀ j : SlotId, j ≠ i → u.pool[j] = s.pool[j]
  held : s.holds ⟨.port sl.port, some i⟩ r = true → u.entry r = s.letFree r
  absent : s.holds ⟨.port sl.port, some i⟩ r = false → u.entry r = s.entry r
  entries : s.keepsEntriesBut u [r]
  frame : s.keepsBut u [.arb, .pool, .sense]
  points : u.sense.points = s.sense.points

theorem letGoAtEnd_letGo {s : State} {i : SlotId} {sl : Slot} (o : OutcomeCode) {r : Resource} (hr : r = .heater ∨ r = .drain)
    (hl : s.holds ⟨.port sl.port, some i⟩ r = true → (s.entry r).lease = .held ∨ (s.entry r).lease = .suspended) :
    LetGo s (s.letGoAtEnd i sl o r) i sl o r := by
  obtain ⟨v, hv⟩ : ∃ v, v = s.setSlot i (some { sl with outcome := some o }) := ⟨_, rfl⟩
  have kv : s.keepsBut v [.pool] := hv ▸ s.keepsBut_setSlot _ _
  have hself : v.pool[i] = some { sl with outcome := some o } := hv ▸ State.pool_setSlot_self _ _ _
  have hne : ∀ j : SlotId, j ≠ i → v.pool[j] = s.pool[j] := fun j hj => hv ▸ State.pool_setSlot_ne _ hj _
  have hsame : v.holds ⟨.port sl.port, some i⟩ r = s.holds ⟨.port sl.port, some i⟩ r := by rw [hv]; rfl
  have hletFree : v.letFree r = s.letFree r := by rw [hv]; rfl
  unfold State.letGoAtEnd
  rw [← hv]
  by_cases hh : s.holds ⟨.port sl.port, some i⟩ r = true
  · have hfrees : v.freesAtOnce r := by
      refine ⟨?_, fun e => by rcases hr with rfl | rfl <;> cases e⟩
      rw [kv.entry]
      rcases hl hh with h | h
      · exact .inr ⟨h, by rcases hr with rfl | rfl <;> decide, by rcases hr with rfl | rfl <;> decide⟩
      · exact .inl h
    have k := State.keepsBut_release_pump hfrees hr
    rw [State.releaseIf_holds (hsame.trans hh)]
    refine ⟨by rw [k.pool, hself], fun j hj => by rw [k.pool, hne j hj], fun _ => ?_, fun e => absurd hh (by simp [e]), fun q hq => ?_,
      (State.keepsBut_mono kv (by decide)).step k (by decide), ?_⟩
    · rw [State.entry_release hfrees, if_pos rfl, hletFree]
    · rw [State.keepsEntriesBut_release hfrees q hq, kv.entry]
    · rw [State.release_pump hfrees hr, points_reportSwitching]
      exact congrArg Sense.points kv.sense
  · have hfalse : s.holds ⟨.port sl.port, some i⟩ r = false := by simpa using hh
    rw [State.releaseIf_absent (hsame.trans hfalse)]
    exact ⟨hself, hne, fun e => absurd e hh, fun _ => kv.entry r, kv.entries _, State.keepsBut_mono kv (by decide), congrArg Sense.points kv.sense⟩

theorem LetGo.atRest {s u : State} {i : SlotId} {sl : Slot} {o : OutcomeCode} {r : Resource} (h : LetGo s u i sl o r) (hr : s.atRest)
    (hc : r ≠ .circ) : u.atRest := by
  refine ⟨fun q => ?_, ?_⟩
  · by_cases hq : q = r
    · subst hq
      by_cases hh : s.holds ⟨.port sl.port, some i⟩ q = true
      · rw [h.held hh]
        exact ⟨(hr.1 q).1, rfl⟩
      · rw [h.absent (by simpa using hh)]
        exact hr.1 q
    · rw [h.entries q (by simpa using hq)]
      exact hr.1 q
  · rw [h.frame.water, hr.2, interlockMet_of (by rw [h.entries .circ (by simpa using Ne.symm hc)]) h.points (by rw [h.frame.door])
      (by rw [h.frame.water])]

/-- The operation answered after that, and its slot freed. -/
structure Answered (u t : State) (i : SlotId) (p : Port) (x : Response) : Prop where
  self : t.pool[i] = none
  pool : ∀ j : SlotId, j ≠ i → t.pool[j] = u.pool[j]
  responds : u.responds t p [x]
  frame : u.keepsBut t [.pool, .ports]
  ports : ∀ q, q ≠ p → t.port q = u.port q
  subs : ∀ q, (t.port q).subs = (u.port q).subs

theorem endSlot_answers {u : State} {i : SlotId} {sl : Slot} {o : OutcomeCode} (h : u.pool[i] = some { sl with outcome := some o })
    (fields : List Byte) : Answered u (u.endSlot i o fields true) i sl.port (opResponse sl.tag o fields) := by
  rw [State.endSlot_answered h]
  have kend := (u.keepsBut_send sl.port (opResponse sl.tag o fields)).cons (State.keepsBut_setSlot _ i none)
  refine ⟨State.pool_setSlot_self _ _ _, fun j hj => ?_, txq_answered (s := u) rfl i sl.port _, kend, fun q hq => ?_, fun q => ?_⟩
  · rw [State.pool_setSlot_ne _ hj, (u.keepsBut_send _ _).pool]
  · show (u.send _ _).port q = _
    rw [State.port_send, if_neg hq]
  · exact u.subs_send _ _ _

/-! ### HEAT -/

theorem heatAt_held {s : State} {i : SlotId} {sl : Slot} {w : HeatWork} (h : s.pool[i] = some sl) (hw : sl.work = .heat w) :
    s.heatAt i = some (sl, w) := by
  unfold State.heatAt
  simp only [h, hw]

/-- A lease of the table can be SUSPENDED, or HELD, where it is neither FREE nor winds down nor travels. -/
theorem State.leasesLegal.pump {s : State} (h : s.leasesLegal) {r : Resource} (hr : r = .heater ∨ r = .drain)
    (hl : (s.entry r).lease ≠ .free) : (s.entry r).lease = .held ∨ (s.entry r).lease = .suspended := by
  have hallows := (h r).2
  rcases hr with rfl | rfl <;> cases hlease : (s.entry _).lease <;> simp_all [Resource.allows]

theorem heatLimitEnds : Clauses.HeatLimitEnds := by
  intro s i sl w hp hw hr hlegal hg hdue honly
  have hgo := letGoAtEnd_letGo (s := s) (i := i) (sl := sl) .timeout (r := .heater) (.inl rfl)
    fun hh => hlegal.pump (.inl rfl) ((State.holds_iff _ _ _).mp hh).1
  obtain ⟨u, hu⟩ : ∃ u, u = s.letGoAtEnd i sl .timeout .heater := ⟨_, rfl⟩
  have hfinish : s.finishHeat i .timeout true = u.endSlot i .timeout [] true := by
    rw [finishHeat_eq hp hw honly (fun q => State.waitsFor_noWaiters ((hgo.atRest hr (by decide)).1 q).1 _), if_neg (by decide), hu]
    rfl
  rw [← hu] at hgo
  have hrest := hgo.atRest hr (by decide)
  have hans := endSlot_answers hgo.self []
  obtain ⟨t, ht⟩ : ∃ t, t = u.endSlot i .timeout [] true := ⟨_, rfl⟩
  rw [← ht] at hans
  have hport : ∀ q, u.port q = s.port q := fun q => State.port_congr hgo.frame.ports q
  refine ⟨t, ?_, hans.self, fun hh => ?_, ?_, fun k => ?_, fun y hy => ?_, fun j hj => ?_, fun q hq => ?_,
    (State.keepsBut_mono hgo.frame (by decide)).step hans.frame (by decide)⟩
  · show Host.Outcome.next (s.heatLimitEnd i) = _
    unfold State.heatLimitEnd
    simp only [heatAt_held hp hw, hg, hdue, Bool.and_self, if_true, hfinish, ← ht, (hrest.frame hans.frame).settle]
  · rw [hans.frame.entry, hgo.held hh]
    rfl
  · unfold State.responds
    rw [hans.responds, hport]
  · rw [hans.subs, hport]
  · rw [hans.ports y hy, hport]
  · rw [hans.pool j hj, hgo.pool j hj]
  · rw [hans.frame.entry, hgo.entries q hq]

/-! ### DRAIN -/

theorem drainAt_held {s : State} {i : SlotId} {sl : Slot} {w : DrainWork} (h : s.pool[i] = some sl) (hw : sl.work = .drain w) :
    s.drainAt i = some (sl, w) := by
  unfold State.drainAt
  simp only [h, hw]

theorem finishDrain_eq {s : State} {i : SlotId} {sl : Slot} {w : DrainWork} {o : OutcomeCode} (h : s.pool[i] = some sl)
    (hw : sl.work = .drain w) (hh : ∀ q, s.holds ⟨.port sl.port, some i⟩ q = true → q = .drain)
    (hwait : ∀ q, (s.letGoAtEnd i sl o .drain).waitsFor ⟨.port sl.port, some i⟩ q = false) :
    s.finishDrain i o true = (if o = .done then (s.letGoAtEnd i sl o .drain).setTank 0 true else s.letGoAtEnd i sl o .drain).endSlot i o [] true := by
  have hwho : slotWho i sl = ⟨.port sl.port, some i⟩ := by simp [slotWho, hw]
  have hrelease : (s.setSlot i (some { sl with outcome := some o })).releaseAll ⟨.port sl.port, some i⟩ = s.letGoAtEnd i sl o .drain :=
    State.releaseAll_only (s := s.setSlot i (some { sl with outcome := some o })) hh
  unfold State.finishDrain
  simp only [drainAt_held h hw, hwho]
  rw [State.fixOutcome_held h, hrelease, State.withdraw_absent hwait]

/-- A DRAIN that holds DRAIN HELD has it taken from it. -/
theorem letGo_drain {s : State} {i : SlotId} {sl : Slot} (o : OutcomeCode) (hl : (s.entry .drain).lease = .held) :
    LetGo s (s.letGoAtEnd i sl o .drain) i sl o .drain := letGoAtEnd_letGo o (.inr rfl) fun _ => .inl hl

theorem State.keepsBut_tankEmptied (u : State) : u.keepsBut (u.setTank 0 true) [.water] := u.keepsBut_withWater _

theorem atRest_tankEmptied {u : State} (h : u.atRest) : (u.setTank 0 true).atRest := ⟨h.1, h.2⟩

theorem runningDrain_eq {s : State} {x : Ident} {i : SlotId} (hl : (s.entry .drain).lease = .held)
    (hh : (s.entry .drain).holder = some ⟨x, some i⟩) : s.runningDrain = some i := by simp [State.runningDrain, hl, hh]

theorem exec_drainPostrunEnd {s : State} {i : SlotId} {sl : Slot} {w : DrainWork} {x : Timer} (hp : s.pool[i] = some sl)
    (hw : sl.work = .drain w) (hl : (s.entry .drain).lease = .held) (hh : (s.entry .drain).holder = some ⟨.port sl.port, some i⟩)
    (hx : w.postrun = some x) (hdue : x.due = true) : exec .drainPostrunEnd s = .next (s.finishDrain i .done true).settle := by
  show Host.Outcome.next s.drainPostrunEnd = _
  unfold State.drainPostrunEnd
  simp only [runningDrain_eq hl hh, drainAt_held hp hw, hx, hdue, if_true]

theorem drainEnds : Clauses.DrainEnds := by
  intro s i sl w hp hw hl hh hr honly
  have hholds : s.holds ⟨.port sl.port, some i⟩ .drain = true := (State.holds_iff _ _ _).mpr ⟨by rw [hl]; decide, hh⟩
  refine ⟨fun x hx hdue => ?_, fun hx hdue => ?_⟩
  · obtain ⟨u, hu⟩ : ∃ u, u = s.letGoAtEnd i sl .done .drain := ⟨_, rfl⟩
    have hgo : LetGo s u i sl .done .drain := hu ▸ letGo_drain .done hl
    have hrest := hgo.atRest hr (by decide)
    have ku := u.keepsBut_tankEmptied
    have hans := endSlot_answers (u := u.setTank 0 true) (i := i) (sl := sl) (o := .done) (by rw [ku.pool, hgo.self]) []
    have hfinish : s.finishDrain i .done true = (u.setTank 0 true).endSlot i .done [] true := by
      rw [finishDrain_eq hp hw honly (by rw [← hu]; exact fun q => State.waitsFor_noWaiters (hrest.1 q).1 _), if_pos rfl, ← hu]
    obtain ⟨t, ht⟩ : ∃ t, t = (u.setTank 0 true).endSlot i .done [] true := ⟨_, rfl⟩
    rw [← ht] at hans
    refine ⟨t, ?_, ?_, hans.self, ?_, ?_, fun j hj => ?_, fun q hq => ?_,
      ((State.keepsBut_mono hgo.frame (by decide)).step ku (by decide)).step hans.frame (by decide)⟩
    · rw [exec_drainPostrunEnd hp hw hl hh hx hdue, hfinish, ← ht, ((atRest_tankEmptied hrest).frame hans.frame).settle]
    · rw [hans.frame.water]
      show ({ u.water with tank := 0, tankKnown := true } : Water) = _
      rw [hgo.frame.water]
    · rw [hans.frame.entry, ku.entry, hgo.held hholds]
      rfl
    · unfold State.responds
      rw [hans.responds, State.port_congr ku.ports, State.port_congr hgo.frame.ports]
    · rw [hans.pool j hj, ku.pool, hgo.pool j hj]
    · rw [hans.frame.entry, ku.entry, hgo.entries q hq]
  · obtain ⟨u, hu⟩ : ∃ u, u = s.letGoAtEnd i sl .timeout .drain := ⟨_, rfl⟩
    have hgo : LetGo s u i sl .timeout .drain := hu ▸ letGo_drain .timeout hl
    have hrest := hgo.atRest hr (by decide)
    have hans := endSlot_answers hgo.self []
    have hfinish : s.finishDrain i .timeout true = u.endSlot i .timeout [] true := by
      rw [finishDrain_eq hp hw honly (by rw [← hu]; exact fun q => State.waitsFor_noWaiters (hrest.1 q).1 _), if_neg (by decide), ← hu]
    obtain ⟨t, ht⟩ : ∃ t, t = u.endSlot i .timeout [] true := ⟨_, rfl⟩
    rw [← ht] at hans
    have kt : s.keepsBut t [.arb, .pool, .ports, .sense] := (State.keepsBut_mono hgo.frame (by decide)).step hans.frame (by decide)
    have kf := t.keepsBut_fault .drainSlow (portCode sl.port) s.water.tank
    refine ⟨t.fault .drainSlow (portCode sl.port) s.water.tank, ?_, by rw [kf.water, kt.water], by rw [kf.pool]; exact hans.self, ?_, ?_,
      fun hcap => ?_, fun j hj => ?_, fun q hq => ?_, (State.keepsBut_mono kt (by decide)).step kf (by decide)⟩
    · show Host.Outcome.next s.drainLimitEnd = _
      unfold State.drainLimitEnd State.drainTimeout
      simp only [runningDrain_eq hl hh, drainAt_held hp hw, hx, hdue, Option.isNone_none, Bool.and_self, if_true, hfinish, ← ht]
      rw [((hrest.frame hans.frame).frame kf).settle]
    · rw [kf.entry, hans.frame.entry, hgo.held hholds]
      rfl
    · unfold State.responds
      rw [State.txq_fault, hans.responds, State.port_congr hgo.frame.ports]
    · have hgroup := State.group_fault (s := t) (k := .drainSlow) (by rw [kt.cfg]; exact hcap) (portCode sl.port) s.water.tank
      rw [kt.prot, kt.drive] at hgroup
      exact hgroup
    · rw [kf.pool, hans.pool j hj, hgo.pool j hj]
    · rw [kf.entry, hans.frame.entry, hgo.entries q hq]

/-! ### DRAIN passed on -/

/-- The work with which a DRAIN starts: a post-run at once where the water is gone (R48). -/
def State.drainStarts (s : State) : DrainWork := ⟨Timer.zero, if s.waterAbsent = true then some Timer.zero else none⟩

/-- DRAIN granted to a DRAIN, with a post-run that takes its time. -/
theorem drainGranted_eq {s : State} {j : SlotId} {y : Slot} (hp : s.pool[j] = some y)
    (hl : (s.entry .drain).lease = .held) (hh : (s.entry .drain).holder = some ⟨.port y.port, some j⟩)
    (hrun : s.waterAbsent = true → 0 < s.drive.postrun) :
    s.drainGranted j = s.setSlot j (some { y with work := .drain s.drainStarts }) := by
  obtain ⟨u, hu⟩ : ∃ u, u = s.setSlot j (some { y with work := .drain ⟨Timer.zero, none⟩ }) := ⟨_, rfl⟩
  have hself : u.pool[j] = some { y with work := .drain ⟨Timer.zero, none⟩ } := hu ▸ State.pool_setSlot_self _ _ _
  have hheld : u.holdsHeld ⟨.port y.port, some j⟩ .drain = true := by
    have h : s.holdsHeld ⟨.port y.port, some j⟩ .drain = true := by simp [State.holdsHeld, hl, hh]
    rw [hu]
    exact h
  have habsent : u.waterAbsent = s.waterAbsent := by rw [hu]; rfl
  have hpost : u.drive.postrun = s.drive.postrun := by rw [hu]; rfl
  have hat : u.drainAt j = some ({ y with work := .drain ⟨Timer.zero, none⟩ }, ⟨Timer.zero, none⟩) := drainAt_held hself rfl
  have hwho : slotWho j { y with work := .drain ⟨Timer.zero, none⟩ } = ⟨.port y.port, some j⟩ := rfl
  rw [State.drainGranted, State.setWork_held hp, ← hu]
  unfold State.judgeDrain State.drainStarts
  simp only [hat, hwho, hheld, if_true, habsent, hpost]
  by_cases ha : s.waterAbsent = true
  · have hpos : s.drive.postrun ≠ 0 := Nat.pos_iff_ne_zero.mp (hrun ha)
    simp only [ha, if_neg hpos, State.setWork_held hself, if_true]
    rw [hu, State.setSlot_setSlot]
  · simp only [ha, hu, Bool.false_eq_true, if_false]

theorem drainPassesOn : Clauses.DrainPassesOn := by
  intro s i sl w x hp hw hx hdue hl hh hne hwaiters hlegal hcalm hinlet hrun honly last hlast
  have hholds : s.holds ⟨.port sl.port, some i⟩ .drain = true := (State.holds_iff _ _ _).mpr ⟨by rw [hl]; decide, hh⟩
  obtain ⟨u, hu⟩ : ∃ u, u = s.letGoAtEnd i sl .done .drain := ⟨_, rfl⟩
  have hgo : LetGo s u i sl .done .drain := hu ▸ letGo_drain .done hl
  have hudrain := hgo.held hholds
  have hustay : ∀ q, q ≠ .drain → u.entry q = s.entry q := fun q hq => hgo.entries q (by simpa using hq)
  have hnobody : ∀ q, u.waitsFor ⟨.port sl.port, some i⟩ q = false := fun q => by
    by_cases hq : q = .drain
    · subst hq
      unfold State.waitsFor
      rw [hudrain]
      refine List.any_eq_false.mpr fun v hv => ?_
      obtain ⟨j, y, z, hwho, hji, -⟩ := hwaiters v hv
      simp [hwho, hji]
    · exact State.waitsFor_noWaiters (by rw [hustay q hq]; exact (hcalm.1 q hq).1) _
  have ku := u.keepsBut_tankEmptied
  have hans := endSlot_answers (u := u.setTank 0 true) (i := i) (sl := sl) (o := .done) (by rw [ku.pool, hgo.self]) []
  have hfinish : s.finishDrain i .done true = (u.setTank 0 true).endSlot i .done [] true := by
    rw [finishDrain_eq hp hw honly (by rw [← hu]; exact hnobody), if_pos rfl, ← hu]
  obtain ⟨m, hm⟩ : ∃ m, m = (u.setTank 0 true).endSlot i .done [] true := ⟨_, rfl⟩
  rw [← hm] at hans
  have km : s.keepsBut m [.arb, .pool, .ports, .water, .sense] :=
    ((State.keepsBut_mono hgo.frame (by decide)).step ku (by decide)).step hans.frame (by decide)
  have hmstay : ∀ q, q ≠ .drain → m.entry q = s.entry q := fun q hq => by rw [hans.frame.entry, ku.entry, hustay q hq]
  have hmdrain : m.entry .drain = s.letFree .drain := by rw [hans.frame.entry, ku.entry, hudrain]
  have hmwater : m.water = { s.water with tank := 0, tankKnown := true } := by
    rw [hans.frame.water]
    show ({ u.water with tank := 0, tankKnown := true } : Water) = _
    rw [hgo.frame.water]
  have hmpoints : m.sense.points = s.sense.points := by rw [hans.frame.sense, ku.sense, hgo.points]
  have hmpool : ∀ j : SlotId, j ≠ i → m.pool[j] = s.pool[j] := fun j hj => by rw [hans.pool j hj, ku.pool, hgo.pool j hj]
  have hlast' : (m.entry .drain).lastRelease = last := by
    rw [hmdrain, hlast]
    show releaseRecord s.drive.clock (s.entry .drain) = _
    unfold releaseRecord
    simp [hh]
  have hmet : m.water.interlock = m.interlockMet := by
    rw [hmwater]
    show s.water.interlock = _
    rw [hcalm.2, interlockMet_of (by rw [hmstay .circ (by decide)]) hmpoints (by rw [km.door]) (by rw [hmwater])]
  obtain ⟨v, hchooses, hgrant⟩ := settleFor_chooses (s := m) (r := .drain) 127 hmet
    (fun q => by
      by_cases hq : q = .drain
      · rw [hq, hmdrain]
        rfl
      · rw [hmstay q hq]
        exact (hcalm.1 q hq).2)
    (fun q hq => by rw [hmstay q hq]; exact (hcalm.1 q hq).1) (by rw [hmdrain]; rfl) (by rw [hmdrain]; exact hne) (by rw [hmdrain]; exact hlegal)
    (fun v hv => by
      rw [hmdrain] at hv
      obtain ⟨j, y, z, hwho, -⟩ := hwaiters v hv
      rw [hwho]
      exact fun e => by cases e)
    (fun v _ => State.admits.eligibleBase
      { free := by rw [hmdrain]; rfl
        guarded := fun e => by cases e
        trip := fun e => by cases e
        inlet := fun e => by cases e
        drain := fun _ => by
          rw [State.hasHolder, hmstay .inlet (by decide)]
          exact hinlet
        door := fun e => by cases e }
      fun b hb => by rw [hmstay .doorDrive (by decide), (hcalm.1 .doorDrive (by decide)).1] at hb; cases hb)
  rw [hlast', hmdrain, km.cfg, km.drive] at hchooses
  obtain ⟨j, y, z, hvwho, hji, hpy, -⟩ := hwaiters v (Settings.mem_afterHoldOff hchooses.1)
  have hpm : m.pool[j] = some y := by rw [hmpool j hji, hpy]
  have hport : m.waiterPort v.who = some y.port := by
    rw [hvwho]
    exact waiterPort_slot hpm _
  obtain ⟨g, hg⟩ : ∃ g, g = m.grantLease .drain v := ⟨_, rfl⟩
  have hgedit : g = m.editEntry .drain (Entry.granted m.cfg m.drive.clock (some y.port) v .held) := by
    rw [hg, ← hport]
    rfl
  have kg : m.keepsBut g [.arb, .sense] := hgedit ▸ m.keepsBut_editEntry _ _
  have hgpoints : g.sense.points = s.sense.points := by
    rw [hgedit, State.editEntry, points_reportSwitching]
    exact hmpoints
  have hgstay : ∀ q, q ≠ .drain → g.entry q = s.entry q := fun q hq => by
    rw [hgedit, State.keepsEntriesBut_editEntry m .drain _ q (by simpa using hq), hmstay q hq]
  have hgdrain : g.entry .drain = m.edited .drain (Entry.granted m.cfg m.drive.clock (some y.port) v .held) := by
    rw [hgedit, State.editEntry_self]
  have hpassed : s.cfg.passedOn s.drive.clock (s.entry .drain) (g.entry .drain) (s.entry .drain).waiters v (some y.port) .held last := by
    have hpass := passedOn_granted (g := s.cfg) (clock := s.drive.clock) (e := s.entry .drain) (f := m.entry .drain) (v := v) (some y.port) .held
      (by rw [hmdrain]; rfl) (by rw [hmdrain]; rfl)
    rw [hlast'] at hpass
    rw [hgdrain, State.edited, km.cfg, km.drive]
    rw [hmdrain] at hpass ⊢
    exact hpass
  have habsent : g.waterAbsent = s.waterAbsent := by simp only [State.waterAbsent, State.roleHolder, hgpoints]
  have howner : g.ownerGranted .drain v.who = g.setSlot j (some { y with work := .drain g.drainStarts }) := by
    rw [hvwho]
    refine drainGranted_eq (by rw [kg.pool, hpm]) (by rw [hpassed.1]; rfl) (by rw [hpassed.1]; exact congrArg some hvwho) ?_
    rw [habsent, kg.drive, km.drive]
    exact hrun
  obtain ⟨t, ht⟩ : ∃ t, t = g.setSlot j (some { y with work := .drain g.drainStarts }) := ⟨_, rfl⟩
  have kt : g.keepsBut t [.pool] := ht ▸ g.keepsBut_setSlot _ _
  have hstay : ∀ q, q ≠ .drain → t.entry q = s.entry q := fun q hq => by rw [kt.entry, hgstay q hq]
  have hsettled : t.settleFor 127 = t := by
    refine settleFor_judged ?_ (yieldNext_none ?_ fun n => ?_) (fun q => ?_) 127
    · rw [State.judge, settleInterlock_same]
      · exact markBarred_same (.inl (by rw [hstay .doorDrive (by decide)]; exact (hcalm.1 .doorDrive (by decide)).1))
      · rw [kt.water, kg.water, hmet]
        exact (interlockMet_of (by rw [hstay .circ (by decide), hmstay .circ (by decide)]) (by rw [kt.sense, hgpoints, hmpoints])
          (by rw [kt.door, kg.door]) (by rw [kt.water, kg.water])).symm
    · rw [hstay .heater (by decide)]
      exact (hcalm.1 .heater (by decide)).2
    · rw [hstay _ (fun e => by cases e)]
      exact (hcalm.1 _ fun e => by cases e).2
    · by_cases hq : q = .drain
      · rw [hq]
        exact chosenWaiter_leased (by rw [kt.entry, hpassed.1]; exact fun e => by cases e)
      · exact chosenWaiter_noWaiters (by rw [hstay q hq]; exact (hcalm.1 q hq).1)
  refine ⟨t, v, j, y, ?_, State.chooses_congr km.cfg (by rw [hmdrain]; rfl) (by rw [hmdrain]; rfl) hchooses, hvwho, hpy,
    by rw [kt.entry]; exact hpassed, ?_, ?_, fun k hki hkj => ?_, ?_, ?_, fun q hq => hstay q (by simpa using hq),
    (State.keepsBut_mono km (by decide)).step ((State.keepsBut_mono kg (by decide : _ ⊆ [Block.arb, .sense, .pool])).step kt (by decide)) (by decide)⟩
  · rw [exec_drainPostrunEnd hp hw hl hh hx hdue, hfinish, ← hm, State.settle, hgrant, ← hg, howner, ← ht, hsettled]
  · rw [ht, State.pool_setSlot_ne _ (Ne.symm hji), kg.pool]
    exact hans.self
  · rw [ht, State.pool_setSlot_self, State.drainStarts, habsent]
  · rw [ht, State.pool_setSlot_ne _ hkj, kg.pool, hmpool k hki]
  · rw [kt.water, kg.water, hmwater]
  · unfold State.responds
    rw [State.port_congr (kt.ports.trans kg.ports), hans.responds, State.port_congr ku.ports, State.port_congr hgo.frame.ports]

/-- Settles O29. -/
theorem washOperationsEnd : Obligations.WashOperationsEnd := ⟨circulateEnds, heatLimitEnds, drainEnds, drainPassesOn⟩

end Sys2Proof.Machine

/-! REGENERATE: the refusals of R72, and its entry at the head of the queue (R61, R62, R72). Settles O30. -/

namespace Sys2Proof.Machine

/-- Where the head stays the judgement of the queue changes nothing. -/
theorem State.headStays.takeHead {s : State} (h : s.headStays) : s.takeHead = s := by
  refine takeHead_stays ?_
  rcases h with h | h | h | h | ⟨hk, ha, hw⟩
  · exact .inl h
  · exact .inr (.inl (by simp [State.headReady, h]))
  · exact .inr (.inl (by simp [State.headReady, Option.isNone_iff_eq_none, h]))
  · exact .inr (.inl (by simp [State.headReady, h]))
  · exact .inr (.inr ⟨by simp [State.saltOut, hk, ha], hw⟩)

theorem State.atRest.headJudged {s : State} (h : s.atRest) : s.headJudged s.takeHead.settle :=
  ⟨rfl, fun hs => by rw [hs.takeHead, h.settle]⟩

section Regenerate

variable {s : State} {p : Port} {tag column : Nat} {i : SlotId}

theorem exec_regenerate (ha : s.accepts p tag i) (hl : s.latched = false) : exec (.regenerate p tag column) s =
    .next ((s.withOperation p tag (.regenerate ((columnOf column).getD .a)) i).takeUpRegenerate i column).settle :=
  congrArg Host.Outcome.next (operation_accepts _ _ ha fun _ => hl)

/-- An operation refused by its owner: the refusal sent, the slot as it was found. -/
structure Refused (s t : State) (p : Port) (tag : Nat) (i : SlotId) (o : OutcomeCode) : Prop where
  self : t.pool[i] = none
  responds : s.responds t p [immResponse tag o []]
  pool : ∀ j : SlotId, j ≠ i → t.pool[j] = s.pool[j]
  frame : s.keepsBut t [.pool, .accepted, .ports]

theorem refuseSlot_refuses (w : Work) (o : OutcomeCode) : Refused s ((s.withOperation p tag w i).refuseSlot i o) p tag i o := by
  have ku := s.keepsBut_withOperation p tag w i
  have hne := fun j => s.pool_withOperation_ne p tag w i (j := j)
  have hports := s.ports_withOperation p tag w i
  have hrefuse : (s.withOperation p tag w i).refuseSlot i o = ((s.withOperation p tag w i).reply p tag o []).setSlot i none := by
    unfold State.refuseSlot
    rw [s.pool_withOperation_self]
  obtain ⟨u, hu⟩ : ∃ u, u = s.withOperation p tag w i := ⟨_, rfl⟩
  rw [hrefuse]
  rw [← hu] at ku hne hports ⊢
  have kr := (State.keepsBut_mono (u.keepsBut_reply p tag o []) (by decide : _ ⊆ [Block.pool, .ports])).step
    (State.keepsBut_setSlot (u.reply p tag o []) i none) (by decide)
  refine ⟨State.pool_setSlot_self _ _ _, ?_, fun j hj => ?_, ku.step kr (by decide)⟩
  · show ((u.reply p tag o []).port p).txq = _
    rw [State.reply, State.port_send, if_pos rfl, State.port_congr hports, State.port_setRx, if_pos rfl]
    rfl
  · rw [State.pool_setSlot_ne _ hj, (u.keepsBut_reply p tag o []).pool, hne j hj]

/-- What REGENERATE refuses, and what it puts at the head of the queue (R72). -/
theorem takeUpRegenerate_refuses {u : State} {sl : Slot} (hp : u.pool[i] = some sl) {o : OutcomeCode}
    (h : (columnOf column = none ∧ o = .badParam) ∨
      (∃ c, columnOf column = some c ∧
        ((o = .busy ∧ ((u.column c).state = .regenerating ∨ u.regenOf c = true ∨ ∃ q ∈ u.soft.queue, q.column = c ∧ q.requester ≠ none)) ∨
          (o = .state ∧ (u.column c).state = .inService ∧ (u.column (Column.other c)).state ≠ .standby ∧
            u.regenOf c = false ∧ ∀ q ∈ u.soft.queue, q.column = c → q.requester = none)))) :
    u.takeUpRegenerate i column = u.refuseSlot i o := by
  unfold State.takeUpRegenerate
  rw [hp]
  rcases h with ⟨hc, rfl⟩ | ⟨c, hc, ⟨rfl, hbusy⟩ | ⟨rfl, hserve, hother, hregen, hqueue⟩⟩
  · simp only [hc]
  · simp only [hc]
    by_cases hnow : ((u.column c).state == .regenerating || u.regenOf c) = true
    · rw [if_pos hnow]
    · rw [if_neg hnow]
      have hq : ∃ q ∈ u.soft.queue, q.column = c ∧ q.requester ≠ none := by
        rcases hbusy with e | e | e
        · exact absurd (by simp [e]) hnow
        · exact absurd (by simp [e]) hnow
        · exact e
      rw [if_pos (by simpa [Option.isSome_iff_ne_none] using hq)]
  · simp only [hc]
    rw [if_neg (by simp [hserve, hregen]), if_neg (by simpa [Option.isSome_iff_ne_none] using hqueue), if_pos (by simp [hserve, hother])]

theorem takeUpRegenerate_queues {u : State} {sl : Slot} (hp : u.pool[i] = some sl) {c : Column} (hc : columnOf column = some c)
    (hst : (u.column c).state ≠ .regenerating) (hregen : u.regenOf c = false)
    (hqueue : ∀ q ∈ u.soft.queue, q.column = c → q.requester = none)
    (hserve : (u.column c).state = .inService → (u.column (Column.other c)).state = .standby) :
    u.takeUpRegenerate i column =
      (u.setQueue (⟨c, some (sl.port, i), u.drive.clock⟩ :: u.soft.queue.filter fun q => q.column != c)).takeHead := by
  unfold State.takeUpRegenerate
  rw [hp]
  simp only [hc]
  rw [if_neg (by simp [hst, hregen]), if_neg (by simpa [Option.isSome_iff_ne_none] using hqueue), if_neg (by simpa using hserve)]

end Regenerate

/-- Settles O30. -/
theorem regenerateQueued : Obligations.RegenerateQueued := by
  intro s p tag column i ha hl hr
  obtain ⟨u, hu⟩ : ∃ u, u = s.withOperation p tag (.regenerate ((columnOf column).getD .a)) i := ⟨_, rfl⟩
  have ku : s.keepsBut u [.pool, .accepted, .ports] := hu ▸ s.keepsBut_withOperation _ _ _ _
  have hself := s.pool_withOperation_self p tag (.regenerate ((columnOf column).getD .a)) i
  have hcolumn : ∀ c, u.column c = s.column c := fun c => State.column_congr ku.soft c
  have hregenOf : ∀ c, u.regenOf c = s.regenOf c := fun c => by simp only [State.regenOf, ku.soft]
  have hexec := exec_regenerate (column := column) ha hl
  rw [← hu] at hself hexec
  refine ⟨fun o ho => ?_, fun c hc hst hregen hqueue hserve => ?_⟩
  · have hrefused : Refused s (u.refuseSlot i o) p tag i o := hu ▸ refuseSlot_refuses _ o
    rw [takeUpRegenerate_refuses (o := o) hself (by simpa only [hcolumn, hregenOf, ku.soft] using ho),
      (hr.frame hrefused.frame).settle] at hexec
    exact ⟨_, hexec, hrefused.self, hrefused.responds, hrefused.pool, hrefused.frame⟩
  · rw [takeUpRegenerate_queues hself hc (by rw [hcolumn]; exact hst) (by rw [hregenOf]; exact hregen) (by rw [ku.soft]; exact hqueue)
      (by rw [hcolumn, hcolumn]; exact hserve), ku.soft, ku.drive] at hexec
    have kq := u.keepsBut_setQueue (⟨c, some (p, i), s.drive.clock⟩ :: s.soft.queue.filter fun q => q.column != c)
    have k := (State.keepsBut_mono ku (by decide : _ ⊆ [Block.pool, .accepted, .ports, .soft])).step kq (by decide)
    refine ⟨_, _, hexec, (hr.frame k).headJudged, ?_, fun j => ?_, ?_, k⟩
    · show ({ u.soft with queue := _ } : Softener) = _
      rw [ku.soft]
    · rw [kq.pool, hu]
      split
      next h =>
        subst h
        rw [s.pool_withOperation_self, hc]
        rfl
      next h => rw [s.pool_withOperation_ne _ _ _ _ h]
    · rw [kq.ports, hu, s.ports_withOperation]

end Sys2Proof.Machine

/-! The checks of COMMIT (R187): each reports the least item with which it fails. -/

namespace Sys2Proof.Machine

/-- A check reports the least item of those with which it fails, and none where it does not fail. -/
structure LeastOf (r : Option Nat) (F : Nat → Prop) : Prop where
  some : ∀ {x}, r = some x → F x ∧ ∀ y, F y → x ≤ y
  none : r = none → ∀ y, ¬F y

theorem LeastOf.congr {r : Option Nat} {F G : Nat → Prop} (h : LeastOf r F) (hf : ∀ x, G x ↔ F x) : LeastOf r G where
  some hx := ⟨(hf _).mpr (h.some hx).1, fun y hy => (h.some hx).2 y ((hf y).mp hy)⟩
  none hn y hy := h.none hn y ((hf y).mp hy)

theorem LeastOf.eq_some {r : Option Nat} {F : Nat → Prop} (h : LeastOf r F) {x : Nat} (hx : F x) (hl : ∀ y, F y → x ≤ y) : r = .some x := by
  cases hr : r with
  | none => exact absurd hx (h.none hr x)
  | some y => exact congrArg Option.some (Nat.le_antisymm ((h.some hr).2 x hx) (hl y (h.some hr).1))

theorem LeastOf.eq_none {r : Option Nat} {F : Nat → Prop} (h : LeastOf r F) (hn : ∀ x, ¬F x) : r = .none := by
  cases hr : r with
  | none => rfl
  | some x => exact absurd (h.some hr).1 (hn x)

/-- The first of a list that is numbered upward is the least. -/
theorem leastOf_find? {α : Type} (P : α → Bool) (f : α → Nat) : ∀ {l : List α}, (l.map f).Pairwise (· < ·) →
    LeastOf ((l.find? P).map f) fun x => ∃ a ∈ l, P a = true ∧ x = f a
  | [], _ => ⟨fun h => (by cases h), fun _ y ⟨_, ha, _⟩ => (by cases ha)⟩
  | a :: l, h => by
    rw [List.map_cons, List.pairwise_cons] at h
    have ih := leastOf_find? P f h.2
    by_cases hp : P a = true
    · rw [List.find?_cons_of_pos hp]
      refine ⟨fun hx => ?_, fun hn => by cases hn⟩
      obtain rfl := Option.some.inj hx
      refine ⟨⟨a, List.mem_cons_self, hp, rfl⟩, fun y ⟨b, hb, _, hy⟩ => ?_⟩
      rcases List.mem_cons.mp hb with rfl | hb
      · exact hy.ge
      · exact hy ▸ (h.1 (f b) (List.mem_map_of_mem hb)).le
    · rw [List.find?_cons_of_neg hp]
      refine ih.congr fun x => exists_congr fun b => ?_
      constructor
      · rintro ⟨hb, hpb, hx⟩
        rcases List.mem_cons.mp hb with rfl | hb
        · exact absurd hpb hp
        · exact ⟨hb, hpb, hx⟩
      · rintro ⟨hb, hpb, hx⟩
        exact ⟨List.mem_cons_of_mem _ hb, hpb, hx⟩

/-! ### The five checks -/

theorem one_lt_roleCount (s : State) (r : Role) :
    1 < s.roleCount r ↔ ∃ m n : PointId, m ≠ n ∧ (s.point m).role = r ∧ (s.point n).role = r := by
  have hnodup : ((List.finRange 16).filter fun p => s.sense.points[p].role == r).Nodup := (List.nodup_finRange 16).filter _
  have hmem : ∀ p : PointId, p ∈ ((List.finRange 16).filter fun p => s.sense.points[p].role == r) ↔ (s.point p).role = r := fun p => by
    simp [State.point]
  unfold State.roleCount
  generalize (List.finRange 16).filter (fun p => s.sense.points[p].role == r) = l at hnodup hmem
  simp only [← hmem]
  constructor
  · intro h
    match l, hnodup, h with
    | a :: b :: l, hn, _ =>
      exact ⟨a, b, fun e => (List.nodup_cons.mp hn).1 (e ▸ List.mem_cons_self), List.mem_cons_self, List.mem_cons_of_mem _ List.mem_cons_self⟩
  · rintro ⟨m, n, hne, hm, hn⟩
    match l, hm, hn with
    | [a], hm, hn => exact absurd ((List.mem_singleton.mp hm).trans (List.mem_singleton.mp hn).symm) hne
    | a :: b :: l, _, _ => simp

theorem roleCount_eq_zero (s : State) (r : Role) : s.roleCount r = 0 ↔ ∀ n, (s.point n).role ≠ r := by
  simp [State.roleCount, List.filter_eq_nil_iff, State.point]

theorem mem_assignedRoles {r : Role} (h : r ≠ .none) : r ∈ assignedRoles := by
  cases r with
  | none => exact absurd rfl h
  | low n => fin_cases n <;> decide
  | empty n => fin_cases n <;> decide
  | _ => decide

theorem State.check1_least (s : State) : LeastOf s.check1 (s.fails 1) := by
  refine (leastOf_find? (fun r => decide (1 < s.roleCount r)) roleCode (l := assignedRoles) (by decide)).congr fun x => ?_
  constructor
  · rintro ⟨m, n, hne, hrole, hsame, hx⟩
    exact ⟨_, mem_assignedRoles hrole, decide_eq_true ((one_lt_roleCount s _).mpr ⟨m, n, hne, rfl, hsame⟩), hx⟩
  · rintro ⟨r, hr, hcount, hx⟩
    obtain ⟨m, n, hne, hm, hn⟩ := (one_lt_roleCount s r).mp (of_decide_eq_true hcount)
    refine ⟨m, n, hne, fun e => ?_, hn.trans hm.symm, hm.symm ▸ hx⟩
    rw [← hm, e] at hr
    exact absurd hr (by decide)

theorem State.check2_least (s : State) : LeastOf s.check2 (s.fails 2) := by
  refine (leastOf_find? (fun r => decide (s.roleCount r = 0)) roleCode (l := [.leak, .tankMin]) (by decide)).congr fun x =>
    exists_congr fun r => ?_
  rw [decide_eq_true_iff, roleCount_eq_zero]
  simp

theorem State.check3_least (s : State) : LeastOf s.cfg.check3 (s.fails 3) := by
  have hfirst := leastOf_find? (fun n : ReservoirId => decide (s.cfg.resFull[n] < s.cfg.resLowmark[n])) (fun n => n.val + 1)
    (l := List.finRange 3) (by decide)
  have hiff : ∀ x, s.fails 3 x ↔ (∃ n ∈ List.finRange 3, decide (s.cfg.resFull[n] < s.cfg.resLowmark[n]) = true ∧ x = n.val + 1) ∨
      (s.cfg.saltFull < s.cfg.saltLowmark ∧ x = 4) := fun x => or_congr_left (exists_congr fun n => by simp)
  unfold Settings.check3
  cases hf : (List.finRange 3).find? fun n : ReservoirId => decide (s.cfg.resFull[n] < s.cfg.resLowmark[n]) with
  | some n =>
    obtain ⟨hfails, hleast⟩ := hfirst.some (x := n.val + 1) (by rw [hf]; rfl)
    refine ⟨fun hx => ?_, fun hn => by cases hn⟩
    obtain rfl := Option.some.inj hx
    refine ⟨(hiff _).mpr (.inl hfails), fun y hy => ?_⟩
    rcases (hiff y).mp hy with h | ⟨-, rfl⟩
    · exact hleast y h
    · exact Nat.succ_le_succ n.isLt.le
  | none =>
    have hno := hfirst.none (by rw [hf]; rfl)
    dsimp only
    split
    next h =>
      refine ⟨fun hx => ?_, fun hn => by cases hn⟩
      obtain rfl := Option.some.inj hx
      refine ⟨(hiff _).mpr (.inr ⟨h, rfl⟩), fun y hy => ?_⟩
      rcases (hiff y).mp hy with h | ⟨-, rfl⟩
      · exact absurd h (hno y)
      · exact le_rfl
    next h =>
      refine ⟨fun hx => (by cases hx), fun _ y hy => ?_⟩
      rcases (hiff y).mp hy with k | ⟨k, -⟩
      · exact hno y k
      · exact h k

theorem namesOther_iff (g : GroupId) (gr : Group) : namesOther g gr = true ↔ ∃ (k : Fin 4) (n : PointId), gr.map[k] = some n ∧ groupOf n ≠ g := by
  unfold namesOther
  rw [List.any_eq_true]
  refine exists_congr fun k => ?_
  cases gr.map[k] with
  | none => simp
  | some n => simp

theorem State.check4_least (s : State) : LeastOf s.check4 (s.fails 4) := by
  refine (leastOf_find? (fun g => namesOther g (s.group g)) (fun g : GroupId => g.val) (l := allGroups) (by decide)).congr fun x => ?_
  show (∃ (g : GroupId) (k : Fin 4) (n : PointId), (s.group g).map[k] = some n ∧ groupOf n ≠ g ∧ x = g.val) ↔ _
  refine exists_congr fun g => ?_
  rw [namesOther_iff]
  have hall : g ∈ allGroups := by fin_cases g <;> decide
  constructor
  · rintro ⟨k, n, hm, hg, hx⟩
    exact ⟨hall, ⟨k, n, hm, hg⟩, hx⟩
  · rintro ⟨-, ⟨k, n, hm, hg⟩, hx⟩
    exact ⟨k, n, hm, hg, hx⟩

theorem State.check5_least (s : State) : LeastOf s.cfg.check5 (s.fails 5) := by
  have hiff : (∀ p, s.cfg.portUrgent[portIndex p] = true) ↔
      (s.cfg.portUrgent[(0 : Fin 3)] && s.cfg.portUrgent[(1 : Fin 3)] && s.cfg.portUrgent[(2 : Fin 3)]) = true := by
    rw [Bool.and_eq_true, Bool.and_eq_true]
    exact ⟨fun h => ⟨⟨h .l1, h .l2⟩, h .l3⟩, fun ⟨⟨h1, h2⟩, h3⟩ p => by cases p; exacts [h1, h2, h3]⟩
  unfold Settings.check5
  split
  next h =>
    refine ⟨fun hx => ?_, fun hn => by cases hn⟩
    obtain rfl := Option.some.inj hx
    exact ⟨⟨hiff.mpr h, rfl⟩, fun y _ => Nat.zero_le y⟩
  next h => exact ⟨fun hx => (by cases hx), fun _ y hy => h (hiff.mp hy.1)⟩

/-! ### The first check that fails -/

theorem failsFirst_failedCheck {s : State} {check item : Nat} (h : s.failsFirst check item) : s.failedCheck = some (check, item) := by
  obtain ⟨hfails, hleast, hbefore⟩ := h
  have hnone : ∀ {k : Nat} {r : Option Nat}, LeastOf r (s.fails k) → k < check → r = none := fun hl hk => hl.eq_none (hbefore _ · hk)
  have hsome : ∀ {r : Option Nat}, LeastOf r (s.fails check) → r = some item := fun hl => hl.eq_some hfails hleast
  unfold State.failedCheck
  match check, hfails with
  | 1, _ => rw [hsome s.check1_least]; rfl
  | 2, _ => rw [hnone s.check1_least (by decide), hsome s.check2_least]; rfl
  | 3, _ => rw [hnone s.check1_least (by decide), hnone s.check2_least (by decide), hsome s.check3_least]; rfl
  | 4, _ =>
    rw [hnone s.check1_least (by decide), hnone s.check2_least (by decide), hnone s.check3_least (by decide), hsome s.check4_least]; rfl
  | 5, _ =>
    rw [hnone s.check1_least (by decide), hnone s.check2_least (by decide), hnone s.check3_least (by decide),
      hnone s.check4_least (by decide), hsome s.check5_least]
    rfl

theorem failedCheck_none {s : State} (h : ∀ check item, ¬s.fails check item) : s.failedCheck = none := by
  unfold State.failedCheck
  rw [s.check1_least.eq_none (h 1), s.check2_least.eq_none (h 2), s.check3_least.eq_none (h 3), s.check4_least.eq_none (h 4),
    s.check5_least.eq_none (h 5)]
  rfl

end Sys2Proof.Machine

/-! The part after a COMMIT whose checks pass (R61, R62, R77, R187). -/

namespace Sys2Proof.Machine

/-! ### The EXHAUSTED columns in the queue -/

/-- A column that joins the tail of the queue under AUTO_REGEN. -/
def State.joins (s : State) (c : Column) : Bool :=
  (s.column c).state == .exhausted && s.soft.queue.all (fun q => q.column != c) && !s.regenOf c

/-- The entries of the EXHAUSTED columns that have none (R61). -/
def State.joiners (s : State) : List QueueEntry := ([Column.a, .b].filter s.joins).map fun c => ⟨c, none, s.drive.clock⟩

theorem setQueue_same (s : State) : s.setQueue s.soft.queue = s := rfl

theorem joinTail_eq (s : State) (c : Column) : (if (s.column c).state == .exhausted then s.joinTail c else s) =
    s.setQueue (s.soft.queue ++ if s.joins c = true then [⟨c, none, s.drive.clock⟩] else []) := by
  have hqueued : s.isQueued c = !s.soft.queue.all fun q => q.column != c := by
    rw [State.isQueued, List.not_all_eq_any_not]
    simp [bne]
  unfold State.joinTail State.joins
  rw [hqueued]
  cases (s.column c).state == .exhausted <;> cases s.soft.queue.all (fun q => q.column != c) <;> cases s.regenOf c <;>
    simp [setQueue_same]

theorem queueExhausted_eq (s : State) : s.queueExhausted = s.setQueue (s.soft.queue ++ s.joiners) := by
  have ha := joinTail_eq s .a
  obtain ⟨u, hu⟩ : ∃ u, u = s.setQueue (s.soft.queue ++ if s.joins .a = true then [⟨.a, none, s.drive.clock⟩] else []) := ⟨_, rfl⟩
  have hb := joinTail_eq u .b
  have hjoins : u.joins .b = s.joins .b := by
    rw [hu]
    unfold State.joins
    congr 2
    show List.all (s.soft.queue ++ _) _ = _
    rw [List.all_append]
    split <;> simp
  have hqueue : s.queueExhausted = if (u.column .b).state == .exhausted then u.joinTail .b else u := by
    rw [hu, ← ha]
    rfl
  rw [hqueue, hb, hjoins, hu]
  show s.setQueue ((s.soft.queue ++ _) ++ _) = _
  unfold State.joiners
  rw [List.append_assoc]
  congr 2
  cases hA : s.joins .a <;> cases hB : s.joins .b <;> simp [hA, hB]

/-! ### The column put in service -/

/-- The part with a STANDBY column put in service where none is (R187). -/
def State.served (s : State) : State :=
  match s.columnToServe with
  | some c => s.setColumn c { s.column c with state := .inService }
  | none => s

theorem State.columnToServe_eq_some (s : State) (c : Column) : s.columnToServe = some c ↔ s.inService = none ∧ (s.column c).state = .standby ∧
    ((s.column (Column.other c)).state = .standby → (s.column (Column.other c)).remaining < (s.column c).remaining ∨
      (c = .a ∧ (s.column (Column.other c)).remaining = (s.column c).remaining)) := by
  unfold State.columnToServe State.inService
  cases c <;> simp only [State.column, Column.other] <;> cases ha : s.soft.colA.state <;> cases hb : s.soft.colB.state <;> (simp; try omega)

theorem State.keepsBut_served (s : State) : s.keepsBut s.served [.soft] := by
  unfold State.served
  split
  · exact s.keepsBut_setColumn _ _
  · exact s.keepsBut_refl _

theorem State.queue_served (s : State) : s.served.soft.queue = s.soft.queue ∧ s.served.soft.regen = s.soft.regen ∧
    s.served.soft.saltWait = s.soft.saltWait := by
  unfold State.served
  split
  next c _ => cases c <;> exact ⟨rfl, rfl, rfl⟩
  next => exact ⟨rfl, rfl, rfl⟩

theorem State.column_served (s : State) (c : Column) :
    s.served.column c = if s.columnToServe = some c then { s.column c with state := .inService } else s.column c := by
  unfold State.served
  split
  next d hd =>
    rw [State.column_setColumn, hd]
    by_cases h : c = d
    · rw [if_pos h, if_pos (by rw [h]), h]
    · rw [if_neg h, if_neg fun e => h (Option.some.inj e).symm]
  next hn => rw [hn, if_neg (by simp)]

/-- A column put in service was STANDBY. -/
theorem State.exhausted_served (s : State) (c : Column) : (s.served.column c).state = .exhausted ↔ (s.column c).state = .exhausted := by
  rw [State.column_served]
  split
  next h =>
    have hst := ((s.columnToServe_eq_some c).mp h).2.1
    simp [hst]
  next => exact Iff.rfl

/-! ### The level flags (R77) -/

theorem State.roleHolder_isSome (s : State) (r : Role) : (s.roleHolder r).isSome = decide (∃ m, (s.point m).role = r) := by
  rw [Bool.eq_iff_iff, State.roleHolder, List.find?_isSome, decide_eq_true_iff]
  simp [State.point]

theorem State.keepsBut_clearLevelFlags (s : State) : s.keepsBut s.clearLevelFlags [.acct] :=
  (State.keepsBut.foldl (l := [.acct]) _ (fun t n => t.keepsBut_setReservoir n _) _ (s.keepsBut_refl _)).step (State.keepsBut_withAcct _ _)
    (List.Subset.refl _)

/-- A reservoir account with the flags of a level that no point reads cleared. -/
def State.levelKnown (s : State) (n : ReservoirId) : Reservoir :=
  { s.acct.reservoirs[n] with
    low := s.acct.reservoirs[n].low && (s.roleHolder (.low n)).isSome
    empty := s.acct.reservoirs[n].empty && (s.roleHolder (.empty n)).isSome }

theorem State.levelKnown_congr {s t : State} {n : ReservoirId} (h : t.acct.reservoirs[n] = s.acct.reservoirs[n]) (hs : t.sense = s.sense) :
    t.levelKnown n = s.levelKnown n := by
  simp only [State.levelKnown, State.roleHolder, h, hs]

theorem reservoirs_levelKnown : ∀ (l : List ReservoirId) (s : State) (n : ReservoirId), l.Nodup →
    (l.foldl (fun s n => s.setReservoir n (s.levelKnown n)) s).acct.reservoirs[n] = if n ∈ l then s.levelKnown n else s.acct.reservoirs[n]
  | [], _, _, _ => rfl
  | m :: l, s, n, h => by
    obtain ⟨hm, hl⟩ := List.nodup_cons.mp h
    rw [List.foldl_cons, reservoirs_levelKnown l _ n hl]
    have hself : (s.setReservoir m (s.levelKnown m)).acct.reservoirs[m] = s.levelKnown m := upd_self _ _ _
    have hother : n ≠ m → (s.setReservoir m (s.levelKnown m)).acct.reservoirs[n] = s.acct.reservoirs[n] := fun hn => upd_ne _ hn _
    by_cases hn : n = m
    · subst hn
      rw [if_neg hm, if_pos List.mem_cons_self, hself]
    · rw [State.levelKnown_congr (hother hn) rfl, hother hn]
      simp [hn]

theorem State.acct_clearLevelFlags (s : State) :
    (∀ n : ReservoirId, s.clearLevelFlags.acct.reservoirs[n] = { s.acct.reservoirs[n] with
      low := s.acct.reservoirs[n].low && decide (∃ m, (s.point m).role = .low n)
      empty := s.acct.reservoirs[n].empty && decide (∃ m, (s.point m).role = .empty n) }) ∧
    s.clearLevelFlags.acct = { s.acct with
      reservoirs := s.clearLevelFlags.acct.reservoirs
      salt := { s.acct.salt with low := s.acct.salt.low && decide (∃ m, (s.point m).role = .saltLow) } } := by
  simp only [← State.roleHolder_isSome]
  exact ⟨fun n => (reservoirs_levelKnown (List.finRange 3) s n (List.nodup_finRange 3)).trans (if_pos (List.mem_finRange n)), rfl⟩

end Sys2Proof.Machine

/-! A regeneration that is granted SELECTOR in a part at rest: its start, and the grants of BRINE and INLET that follow (R64, R65). -/

namespace Sys2Proof.Machine

/-! ### The start (R64) -/

theorem judgeFills_none {s : State} (h : ∀ i, s.fillAt i = none) (but : Option SlotId) : s.judgeFills but = s := by
  unfold State.judgeFills
  refine foldl_unchanged fun i _ => ?_
  split
  · rfl
  · unfold State.judgeFill
    rw [h i]

theorem fillAt_congr {s t : State} {i : SlotId} (h : t.pool[i] = s.pool[i]) : t.fillAt i = s.fillAt i := by
  unfold State.fillAt
  rw [h]

/-- A regeneration that has started. -/
def Regen.begun (g : Regen) : Regen :=
  { g with phase := .brineDraw, counted := 0, pulses := 0, brineStarted := false, cancelPending := false }

theorem regenWho_begun (g : Regen) : regenWho g.begun = regenWho g := rfl

/-- The STANDBY column takes the place of one in service that is regenerated (R64). -/
def State.standbyComes (s : State) (c : Column) : Bool :=
  (s.column c).state == .inService && (s.column (Column.other c)).state == .standby

/-- The column records when a regeneration of column `c` has started. -/
def State.columnsBegun (s : State) (c : Column) : State :=
  (s.setColumn c { s.column c with state := .regenerating, remaining := 0, breakthrough := none }).setColumn (Column.other c)
    { s.column (Column.other c) with state := if s.standbyComes c then .inService else (s.column (Column.other c)).state }

theorem setColumn_same (s : State) (c : Column) : s.setColumn c (s.column c) = s := by cases c <;> rfl

theorem column_other_setColumn (s : State) (c : Column) (r : ColumnRec) :
    (s.setColumn c r).column (Column.other c) = s.column (Column.other c) := by
  rw [State.column_setColumn, if_neg (Column.other_ne c)]

theorem columnsBegun_eq (s : State) (c : Column) :
    (if (s.column c).state = .inService then
        (s.setColumn c { s.column c with state := .regenerating, remaining := 0, breakthrough := none }).standbyIn (Column.other c)
      else (s.setColumn c { s.column c with state := .regenerating, remaining := 0, breakthrough := none }, false)) =
      (s.columnsBegun c, s.standbyComes c) := by
  obtain ⟨a, ha⟩ : ∃ a, a = s.setColumn c { s.column c with state := .regenerating, remaining := 0, breakthrough := none } := ⟨_, rfl⟩
  have hother : a.column (Column.other c) = s.column (Column.other c) := ha ▸ column_other_setColumn _ _ _
  have hsame : a.setColumn (Column.other c) (s.column (Column.other c)) = a := hother ▸ setColumn_same a _
  unfold State.columnsBegun State.standbyIn State.standbyComes
  rw [← ha, hother]
  by_cases hin : (s.column c).state = .inService
  · by_cases hst : (s.column (Column.other c)).state = .standby
    · simp [hin, hst]
    · simp [hin, hst, hsame]
  · simp [hin, hsame]

/-- The reports of a start (R64). -/
def State.startReported (s t : State) (g : Regen) : State :=
  if s.standbyComes g.column then
    (t.post .regenStarted (columnCode g.column) (regenRequesterCode g)).post .columnInService (columnCode (Column.other g.column))
      (s.column (Column.other g.column)).remaining
  else t.post .regenStarted (columnCode g.column) (regenRequesterCode g)

theorem State.keepsBut_startReported (s t : State) (g : Regen) : t.keepsBut (s.startReported t g) [.ports] := by
  unfold State.startReported
  split
  · exact (t.keepsBut_post _ _ _).step (State.keepsBut_post _ _ _ _) (List.Subset.refl _)
  · exact t.keepsBut_post _ _ _

theorem State.keepsBut_columnsBegun (s : State) (c : Column) : s.keepsBut (s.columnsBegun c) [.soft] :=
  (s.keepsBut_setColumn _ _).step (State.keepsBut_setColumn _ _ _) (List.Subset.refl _)

theorem State.column_columnsBegun (s : State) (c : Column) :
    (s.columnsBegun c).column c = { s.column c with state := .regenerating, remaining := 0, breakthrough := none } ∧
    (s.columnsBegun c).column (Column.other c) = { s.column (Column.other c) with
      state := if s.standbyComes c then .inService else (s.column (Column.other c)).state } := by
  unfold State.columnsBegun
  rw [State.column_setColumn, State.column_setColumn, if_neg (Ne.symm (Column.other_ne c)), if_pos rfl, State.column_setColumn, if_pos rfl]
  exact ⟨rfl, rfl⟩

theorem State.soft_columnsBegun (s : State) (c : Column) : (s.columnsBegun c).soft.queue = s.soft.queue ∧
    (s.columnsBegun c).soft.saltWait = s.soft.saltWait := by
  cases c <;> exact ⟨rfl, rfl⟩

theorem State.column_setRegen (s : State) (g : Option Regen) (c : Column) : (s.setRegen g).column c = s.column c := by cases c <;> rfl

/-- Every FILL that stands waits for soft water, and has no position once column `c` is regenerated. -/
def State.fillsWait (s : State) (c : Column) : Prop :=
  ∀ i sl w, s.fillAt i = some (sl, w) → w.waitSoft = true ∧ s.cfg.exhaustBypass = false ∧
    (s.column (Column.other c)).state ≠ .inService ∧ (s.column (Column.other c)).state ≠ .standby

theorem State.fillsWait.of_none {s : State} (h : ∀ i, s.fillAt i = none) (c : Column) : s.fillsWait c := fun i sl w e => by
  rw [h i] at e
  cases e

theorem State.fillsWait.congr {s t : State} {c : Column} (h : s.fillsWait c) (hp : t.pool = s.pool) (hc : t.cfg = s.cfg)
    (hs : ∀ d, t.column d = s.column d) : t.fillsWait c := fun i sl w e => by
  rw [hc, hs]
  exact h i sl w ((fillAt_congr (by rw [hp])).symm.trans e)

theorem State.inService_eq_none {s : State} (h : ∀ c, (s.column c).state ≠ .inService) : s.inService = none := by
  have ha : s.soft.colA.state ≠ .inService := h .a
  have hb : s.soft.colB.state ≠ .inService := h .b
  unfold State.inService
  simp [ha, hb]

/-- A FILL that waits for soft water, and has no position, goes on waiting. -/
theorem judgeFills_waits {s : State} (h : ∀ i sl w, s.fillAt i = some (sl, w) → w.waitSoft = true ∧ s.cfg.exhaustBypass = false ∧
    s.inService = none) (but : Option SlotId) : s.judgeFills but = s := by
  unfold State.judgeFills
  refine foldl_unchanged fun i _ => ?_
  split
  · rfl
  · unfold State.judgeFill
    cases hf : s.fillAt i with
    | none => rfl
    | some x =>
      obtain ⟨hw, hb, hn⟩ := h i x.1 x.2 hf
      simp [State.fillPosition, hw, hb, hn]

theorem startRegen_eq {s : State} {g : Regen} (h : s.fillsWait g.column) :
    s.startRegen g = s.startReported ((s.columnsBegun g.column).setRegen (some g.begun)) g := by
  obtain ⟨b, hb⟩ : ∃ b, b = (s.columnsBegun g.column).setRegen (some g.begun) := ⟨_, rfl⟩
  have kb : s.keepsBut b [.soft] := hb ▸ (s.keepsBut_columnsBegun _).step (State.keepsBut_setRegen _ _) (List.Subset.refl _)
  have hremaining : ((b.post .regenStarted (columnCode g.column) (regenRequesterCode g)).column (Column.other g.column)).remaining =
      (s.column (Column.other g.column)).remaining := by
    rw [State.column_congr (b.keepsBut_post _ _ _).soft, hb, State.column_setRegen, (s.column_columnsBegun _).2]
  have hreported : (b.post .regenStarted (columnCode g.column) (regenRequesterCode g)).postInService (Column.other g.column)
      (s.standbyComes g.column) = s.startReported b g := by
    unfold State.postInService State.startReported
    rw [hremaining]
  have hstart : s.startRegen g = (s.startReported b g).judgeFills none := by
    unfold State.startRegen
    dsimp only
    rw [columnsBegun_eq, ← hreported, hb]
    rfl
  have kr := s.keepsBut_startReported b g
  rw [hstart]
  refine (judgeFills_waits (fun i sl w hf => ?_) none).trans (by rw [hb])
  obtain ⟨hw, hc, hin, hst⟩ := h i sl w ((fillAt_congr (by rw [kr.pool, kb.pool])).symm.trans hf)
  have hcol : ∀ d, (s.startReported b g).column d = (s.columnsBegun g.column).column d := fun d => by
    rw [State.column_congr kr.soft, hb, State.column_setRegen]
  refine ⟨hw, by rw [kr.cfg, kb.cfg, hc], State.inService_eq_none fun d => ?_⟩
  obtain ⟨h1, h2⟩ := s.column_columnsBegun g.column
  have hcomes : s.standbyComes g.column = false := by simp [State.standbyComes, hst]
  rw [hcol]
  by_cases hd : d = g.column
  · rw [hd, h1]
    exact fun e => by cases e
  · rw [show d = Column.other g.column by cases d <;> cases hg : g.column <;> simp_all [Column.other], h2, hcomes]
    exact hin

/-! ### BRINE and INLET (R65) -/

/-- What the grants of BRINE and INLET to a regeneration in BRINE_DRAW can change of a part at rest. -/
structure Draws (b : State) (g : Regen) (v : State) : Prop where
  frame : b.keepsBut v [.arb, .soft]
  entries : b.keepsEntriesBut v [.brine, .inlet]
  held : v.arb.selHeld = b.arb.selHeld
  current : v.arb.selCurrent = b.arb.selCurrent
  soft : ∃ n st, v.soft = { b.soft with regen := some { g with brineStarted := st, noFlow := n } }
  waits : ∀ r, r = .brine ∨ r = .inlet → ∀ w ∈ (v.entry r).waiters, w.who = regenWho g

theorem Draws.of_rest {b : State} {g : Regen} (h : b.atRest) (hg : b.soft.regen = some g) : Draws b g b where
  frame := b.keepsBut_refl _
  entries := b.keepsEntriesBut_refl _
  held := rfl
  current := rfl
  soft := ⟨g.noFlow, g.brineStarted, by
    show b.soft = { b.soft with regen := some g }
    rw [← hg]⟩
  waits r _ w hw := by
    rw [(h.1 r).1] at hw
    cases hw

/-- An entry of BRINE or INLET rewritten, with no one else in its list. -/
theorem Draws.edit {b v : State} {g : Regen} (h : Draws b g v) {r : Resource} (hr : r = .brine ∨ r = .inlet) (f : Entry → Entry)
    (hf : ∀ w ∈ (f (v.entry r)).waiters, w.who = regenWho g) : Draws b g (v.editEntry r f) := by
  have hquiet : v.editEntry r f = v.putEntry r (v.edited r f) := State.editEntry_quiet (.inr (by rcases hr with rfl | rfl <;> decide))
  have k := v.keepsBut_putEntry r (v.edited r f)
  have hmem : r ∈ [Resource.brine, .inlet] := by rcases hr with rfl | rfl <;> decide
  rw [hquiet]
  refine ⟨h.frame.step k (by decide), fun q hq => ?_, h.held, h.current, h.soft, fun q hq w hw => ?_⟩
  · rw [State.entry_putEntry, if_neg (fun e : q = r => hq (e ▸ hmem)), h.entries q hq]
  · rw [State.entry_putEntry] at hw
    split at hw
    next => exact hf w hw
    next => exact h.waits q hq w hw

theorem Draws.ask {b v : State} {g : Regen} (h : Draws b g v) {r : Resource} (hr : r = .brine ∨ r = .inlet) (serial : Nat)
    (want : Option Column) : Draws b g (v.ask r (regenWho g) serial want) := by
  refine h.edit hr _ fun w hw => ?_
  rcases List.mem_append.mp hw with hw | hw
  · exact h.waits r hr w hw
  · rw [List.mem_singleton.mp hw]

theorem grantsConflict_path {l : List Resource} (h : ∀ r ∈ l, r = .brine ∨ r = .inlet) : grantsConflict l = false := by
  have hno : ∀ q, q ≠ .brine → q ≠ .inlet → l.contains q = false := fun q hb hi => by
    rw [List.contains_eq_mem, decide_eq_false_iff_not]
    exact fun hq => (h q hq).elim hb hi
  rw [grantsConflict, hno .drain (by decide) (by decide), hno .doorDrive (by decide) (by decide), Bool.and_false, Bool.false_and, Bool.or_self]

theorem chosenWaiter_mem {s : State} {r : Resource} {w : Waiter} (h : s.chosenWaiter r = some w) : w ∈ (s.entry r).waiters := by
  unfold State.chosenWaiter at h
  dsimp only at h
  split at h
  · cases h
  · split at h
    · exact List.mem_of_mem_filter (pickWaiter_mem h)
    · exact List.mem_of_mem_filter (List.mem_of_mem_filter (pickWaiter_mem h))

/-- A grant of BRINE or INLET to the regeneration. -/
theorem Draws.grant {b v : State} {g : Regen} (h : Draws b g v) (hph : g.phase = .brineDraw) {r : Resource} (hr : r = .brine ∨ r = .inlet) :
    Draws b g (v.grant r) := by
  unfold State.grant
  split
  next w hw =>
    have hwho := h.waits r hr w (chosenWaiter_mem hw)
    have hedit := h.edit hr (Entry.granted v.cfg v.drive.clock (v.waiterPort w.who) w .held) fun x hx => by
      rw [Entry.granted_eq] at hx
      exact h.waits r hr x (List.mem_of_mem_filter hx)
    obtain ⟨u, hu⟩ : ∃ u, u = v.editEntry r (Entry.granted v.cfg v.drive.clock (v.waiterPort w.who) w .held) := ⟨_, rfl⟩
    have hgrant : v.grantLease r w = u := by rcases hr with rfl | rfl <;> exact hu.symm
    rw [← hu] at hedit
    rw [hgrant, hwho]
    obtain ⟨n, st, hsoft⟩ := hedit.soft
    have hregen : u.soft.regen = some { g with brineStarted := st, noFlow := n } := congrArg Softener.regen hsoft
    rcases hr with rfl | rfl
    · have howner : u.ownerGranted .brine (regenWho g) = u.ask .inlet (regenWho g) (u.regenSerial { g with brineStarted := st, noFlow := n }) none := by
        show u.regenBrineGranted = _
        unfold State.regenBrineGranted
        rw [hregen]
        rfl
      rw [howner]
      exact hedit.ask (.inr rfl) _ _
    · have howner : u.ownerGranted .inlet (regenWho g) = u.setRegen (some { g with brineStarted := true, noFlow := Timer.zero }) := by
        have his : u.isRegen (regenWho g) = true := by
          unfold State.isRegen
          rw [hregen]
          exact beq_self_eq_true _
        show (if u.isRegen (regenWho g) then u.regenInletGranted else _) = _
        rw [if_pos his]
        unfold State.regenInletGranted
        simp only [hregen, hph]
      rw [howner]
      refine ⟨hedit.frame.step (u.keepsBut_setRegen _) (by decide), hedit.entries, hedit.held, hedit.current, ⟨Timer.zero, true, ?_⟩, hedit.waits⟩
      show ({ u.soft with regen := _ } : Softener) = _
      rw [hsoft]
  next => exact h

theorem Draws.settleFor {b : State} {g : Regen} (hb : b.atRest) (hph : g.phase = .brineDraw) : ∀ (n : Nat) {v : State}, Draws b g v →
    Draws b g (v.settleFor n) := by
  have hcalm : ∀ {v : State}, Draws b g v → ∀ q, q ≠ .brine → q ≠ .inlet → (v.entry q).waiters = [] ∧ (v.entry q).yieldRequested = false :=
    fun h q hbr hin => by
      rw [h.entries q (by simp [hbr, hin])]
      exact hb.1 q
  have hjudge : ∀ {v : State}, Draws b g v → v.judge = v := fun h => judge_same
    (by rw [h.frame.water, hb.2, interlockMet_of (by rw [h.entries .circ (by decide)]) (by rw [h.frame.sense]) (by rw [h.frame.door])
      (by rw [h.frame.water])]) (.inl (hcalm h .doorDrive (by decide) (by decide)).1)
  intro n
  induction n with
  | zero =>
    intro v h
    show Draws b g v.judge
    rw [hjudge h]
    exact h
  | succ n ih =>
    intro v h
    have hyield : v.yieldNext = none := yieldNext_none (hcalm h .heater (by decide) (by decide)).2
      fun k => (hcalm h (.dose k) (fun e => by cases e) fun e => by cases e).2
    unfold State.settleFor
    simp only [hjudge h, hyield]
    have hmem : ∀ r ∈ v.grantable, r = .brine ∨ r = .inlet := fun r hr => by
      by_contra hne
      obtain ⟨hbr, hin⟩ := not_or.mp hne
      have hsome := (List.mem_filter.mp hr).2
      rw [chosenWaiter_noWaiters (hcalm h r hbr hin).1] at hsome
      cases hsome
    unfold State.grantNext
    cases hg : v.grantable with
    | nil => exact h
    | cons r rs =>
      rw [hg] at hmem
      simp only [grantsConflict_path hmem, Bool.false_eq_true, if_false]
      exact ih (h.grant hph (hmem r List.mem_cons_self))

/-! ### SELECTOR granted to the regeneration that asks -/

/-- A regeneration that has been granted SELECTOR, and what it has become. -/
structure RegenBegun (y : State) (g : Regen) (lease : LeaseState) (z : State) : Prop where
  rest : z.atRest
  column : z.column g.column = { y.column g.column with state := .regenerating, remaining := 0, breakthrough := none }
  other : z.column (Column.other g.column) = { y.column (Column.other g.column) with
    state := if y.standbyComes g.column then .inService else (y.column (Column.other g.column)).state }
  queue : z.soft.queue = y.soft.queue
  regen : z.soft.regen = some g.begun
  saltWait : z.soft.saltWait = y.soft.saltWait
  ports : z.ports = (y.startReported y g).ports
  selector : z.entry .selector = y.cfg.grantRecord y.drive.clock (regenWho g) (y.waiterPort (regenWho g)) lease (y.entry .selector)
  held : z.arb.selHeld = g.column
  entries : y.keepsEntriesBut z [.selector]
  frame : y.keepsBut z [.arb, .drive, .soft, .ports]

theorem ports_startReported {s t u : State} (g : Regen) (hp : t.ports = u.ports) (hc : t.drive.clock = u.drive.clock) :
    (s.startReported t g).ports = (s.startReported u g).ports := by
  have hfirst := State.ports_post_clock hp hc .regenStarted (columnCode g.column) (regenRequesterCode g)
  unfold State.startReported
  split
  · exact State.ports_post_clock hfirst (by rw [(t.keepsBut_post _ _ _).drive, (u.keepsBut_post _ _ _).drive, hc]) _ _ _
  · exact hfirst

theorem regenBegun {y x : State} {g : Regen} {l : LeaseState} (hy : y.atRest) (hfill : y.fillsWait g.column) {m : State}
    (hm : y.keepsBut m [.arb, .drive]) (hment : ∀ q, m.entry q = y.entry q) (hheld : m.arb.selHeld = g.column)
    (hclock : m.drive.clock = y.drive.clock) (hx : x = m.grantedTo .selector (regenWho g) l) :
    RegenBegun y g l (x.startRegen g) ∧ (x.startRegen g).arb.selCurrent = m.arb.selCurrent ∧ (x.startRegen g).drive = m.drive := by
  have kx : m.keepsBut x [.arb] := hx ▸ State.keepsBut_grantedTo_quiet (.inr (by decide)) _
  have kyx : y.keepsBut x [.arb, .drive] := hm.step kx (by decide)
  have hrestm : m.atRest := by
    refine ⟨fun q => by rw [hment]; exact hy.1 q, ?_⟩
    rw [hm.water, hy.2, interlockMet_of (by rw [hment]) (by rw [hm.sense]) (by rw [hm.door]) (by rw [hm.water])]
  have hrestx : x.atRest := hx ▸ hrestm.grantedTo (by decide) _ _
  have hport : m.waiterPort (regenWho g) = y.waiterPort (regenWho g) := by simp only [State.waiterPort, hm.pool]
  have hxentry : ∀ q, x.entry q = if q = .selector then
      y.cfg.grantRecord y.drive.clock (regenWho g) (y.waiterPort (regenWho g)) l (y.entry .selector) else y.entry q := fun q => by
    rw [hx, State.entry_grantedTo, hm.cfg, hclock, hport, hment, hment]
  obtain ⟨h1, h2⟩ := State.arb_grantedTo_rest m .selector (regenWho g) l
  rw [← hx] at h1 h2
  have hfillx : x.fillsWait g.column := hfill.congr kyx.pool kyx.cfg fun d => State.column_congr kyx.soft d
  obtain ⟨b, hb⟩ : ∃ b, b = (x.columnsBegun g.column).setRegen (some g.begun) := ⟨_, rfl⟩
  have kb : x.keepsBut b [.soft] := hb ▸ (x.keepsBut_columnsBegun _).step (State.keepsBut_setRegen _ _) (List.Subset.refl _)
  have hcol : ∀ c, x.column c = y.column c := fun c => State.column_congr kyx.soft c
  have hcomes : x.standbyComes g.column = y.standbyComes g.column := by simp only [State.standbyComes, hcol]
  rw [startRegen_eq hfillx, ← hb]
  have kr := x.keepsBut_startReported b g
  have kz : x.keepsBut (x.startReported b g) [.soft, .ports] := (State.keepsBut_mono kb (by decide)).step kr (by decide)
  refine ⟨⟨hrestx.frame kz, ?_, ?_, ?_, ?_, ?_, ?_, ?_, ?_, fun q hq => ?_, (State.keepsBut_mono kyx (by decide)).step kz (by decide)⟩, ?_, ?_⟩
  · rw [State.column_congr kr.soft, hb, State.column_setRegen, (x.column_columnsBegun _).1, hcol]
  · rw [State.column_congr kr.soft, hb, State.column_setRegen, (x.column_columnsBegun _).2, hcol, hcomes]
  · rw [kr.soft, hb]
    exact (x.soft_columnsBegun _).1.trans (by rw [kyx.soft])
  · rw [kr.soft, hb]
    rfl
  · rw [kr.soft, hb]
    exact (x.soft_columnsBegun _).2.trans (by rw [kyx.soft])
  · rw [ports_startReported (s := x) (u := y) g (by rw [kb.ports, kyx.ports]) (by rw [kb.drive, kx.drive, hclock])]
    unfold State.startReported
    rw [hcomes, hcol]
  · rw [kz.entry, hxentry, if_pos rfl]
  · rw [kz.arb, h1, hheld]
  · rw [kz.entry, hxentry, if_neg (by simpa using hq)]
  · rw [kz.arb, h2]
  · rw [kz.drive, kx.drive]

/-- A regeneration in STARTING asks for a FREE SELECTOR in a part at rest: it has it in the same step, and has started; HELD at its
column it goes on to BRINE (R10, R64, R65). -/
theorem settle_regenAsks {y : State} {g : Regen} (hy : y.atRest) (hg : y.soft.regen = some g) (hph : g.phase = .starting)
    (hfree : (y.entry .selector).lease = .free) (hfill : y.fillsWait g.column) (serial : Nat) :
    ∃ z, RegenBegun y g (if y.arb.selCurrent = some g.column then .held else .moving) z ∧
      (y.arb.selCurrent = some g.column → z.arb.selCurrent = some g.column ∧ z.drive = y.drive ∧
        (y.ask .selector (regenWho g) serial (some g.column)).settle =
          (z.ask .brine (regenWho g) (z.regenSerial g.begun) none).settleFor 127) ∧
      (y.arb.selCurrent ≠ some g.column → z.arb.selCurrent = none ∧
        z.drive = { y.drive with travel := some Timer.zero, travelReading := none } ∧
        (y.ask .selector (regenWho g) serial (some g.column)).settle = z) := by
  have hadmits : y.admits .selector (regenWho g) :=
    { free := hfree, guarded := fun e => (by cases e), trip := fun e => (by cases e), inlet := fun e => (by cases e)
      drain := fun e => (by cases e), door := fun e => (by cases e) }
  have hsettle := settleFor_ask (who := regenWho g) serial (some g.column) 127 hy hadmits
  rw [State.grantLease_ask_selector _ _ hy hfree] at hsettle
  have howner : ∀ x : State, x.soft.regen = some g → x.ownerGranted .selector (regenWho g) =
      if ((x.startRegen g).entry .selector).lease = .held then (x.startRegen g).selectorHeld (regenWho g) else x.startRegen g := fun x hx => by
    have his : x.isRegen (regenWho g) = true := by
      unfold State.isRegen
      rw [hx]
      exact beq_self_eq_true _
    have hstart : x.regenSelectorGranted = x.startRegen g := by
      unfold State.regenSelectorGranted
      simp only [hx, hph, if_true]
    show x.selectorGranted (regenWho g) = _
    unfold State.selectorGranted
    simp only [his, if_true, hstart]
  by_cases hc : y.arb.selCurrent = some g.column
  · obtain ⟨x, hx⟩ : ∃ x, x = (y.heldAt g.column).grantedTo .selector (regenWho g) .held := ⟨_, rfl⟩
    obtain ⟨hbegun, hcur, hdrive⟩ := regenBegun hy hfill (m := y.heldAt g.column) (State.keepsBut_mono (y.keepsBut_heldAt _) (by decide))
      (fun _ => rfl) rfl rfl hx
    have hxregen : x.soft.regen = some g := by
      rw [hx, (State.keepsBut_grantedTo _ _ _ _).soft]
      exact hg
    rw [if_pos hc, ← hx, howner x hxregen] at hsettle
    obtain ⟨z, hz⟩ : ∃ z, z = x.startRegen g := ⟨_, rfl⟩
    rw [← hz] at hbegun hcur hdrive hsettle
    refine ⟨z, by rw [if_pos hc]; exact hbegun, fun _ => ⟨hcur.trans hc, hdrive, ?_⟩, fun h => absurd hc h⟩
    have his : z.isRegen (regenWho g) = true := by
      unfold State.isRegen
      rw [hbegun.regen]
      exact beq_self_eq_true _
    have hheld : z.selectorHeld (regenWho g) = z.ask .brine (regenWho g) (z.regenSerial g.begun) none := by
      unfold State.selectorHeld State.regenSelectorHeld
      simp only [his, if_true, hbegun.regen]
      rfl
    rw [if_pos (by rw [hbegun.selector]; rfl), hheld] at hsettle
    exact hsettle
  · obtain ⟨x, hx⟩ : ∃ x, x = (y.startTravel g.column).grantedTo .selector (regenWho g) .moving := ⟨_, rfl⟩
    obtain ⟨hbegun, hcur, hdrive⟩ := regenBegun hy hfill (m := y.startTravel g.column) (y.keepsBut_startTravel _) (fun _ => rfl) rfl rfl hx
    have hxregen : x.soft.regen = some g := by
      rw [hx, (State.keepsBut_grantedTo _ _ _ _).soft]
      exact hg
    rw [if_neg hc, ← hx, howner x hxregen] at hsettle
    obtain ⟨z, hz⟩ : ∃ z, z = x.startRegen g := ⟨_, rfl⟩
    rw [← hz] at hbegun hcur hdrive hsettle
    refine ⟨z, by rw [if_neg hc]; exact hbegun, fun h => absurd h hc, fun _ => ⟨hcur, hdrive, ?_⟩⟩
    rw [if_neg (by rw [hbegun.selector]; exact fun e => by cases e), hbegun.rest.settleFor] at hsettle
    exact hsettle

end Sys2Proof.Machine

/-! COMMIT: refused in RUN, refused by its checks, and done (R62, R187). Settles O22. -/

namespace Sys2Proof.Machine

/-! ### The part before the queue is judged for its head -/

/-- A part whose COMMIT passes, before its queue is judged (R187). -/
def State.readied (s : State) : State :=
  (if s.cfg.autoRegen then ({ s with mode := .run } : State).served.queueExhausted
    else ({ s with mode := .run } : State).served).clearLevelFlags

theorem committed_eq (s : State) : s.committed = s.readied.takeHeadAtCommit := by
  have hcfg : ({ s with mode := .run } : State).served.cfg = s.cfg := (State.keepsBut_served { s with mode := .run }).cfg
  have hcommitted : s.committed = (if ({ s with mode := .run } : State).served.cfg.autoRegen then
      ({ s with mode := .run } : State).served.queueExhausted else ({ s with mode := .run } : State).served).clearLevelFlags.takeHeadAtCommit := rfl
  rw [hcommitted, hcfg]
  rfl

theorem joins_served (s : State) (c : Column) : ({ s with mode := .run } : State).served.joins c = s.joins c := by
  obtain ⟨hq, hr, -⟩ := State.queue_served { s with mode := .run }
  have hex := State.exhausted_served { s with mode := .run } c
  have hstate : ((({ s with mode := .run } : State).served.column c).state == .exhausted) = ((s.column c).state == .exhausted) := by
    rw [Bool.eq_iff_iff, beq_iff_eq, beq_iff_eq]
    exact hex
  unfold State.joins State.regenOf
  rw [hstate, hq, hr]

/-- What it has become of `s`, of which it differs in the ports too. -/
structure Readied (s x : State) : Prop where
  frame : s.keepsBut x [.mode, .soft, .acct, .ports]
  mode : x.mode = .run
  column : ∀ c, x.column c = if s.columnToServe = some c then { s.column c with state := .inService } else s.column c
  queue : x.soft.queue = s.soft.queue ++ if s.cfg.autoRegen then s.joiners else []
  regen : x.soft.regen = s.soft.regen
  reservoirs : ∀ n : ReservoirId, x.acct.reservoirs[n] = { s.acct.reservoirs[n] with
    low := s.acct.reservoirs[n].low && decide (∃ m, (s.point m).role = .low n)
    empty := s.acct.reservoirs[n].empty && decide (∃ m, (s.point m).role = .empty n) }
  acct : x.acct = { s.acct with
    reservoirs := x.acct.reservoirs
    salt := { s.acct.salt with low := s.acct.salt.low && decide (∃ m, (s.point m).role = .saltLow) } }

theorem State.keepsBut_withMode (s : State) (m : Mode) : s.keepsBut { s with mode := m } [.mode] := by
  intro b hb
  cases b with
  | mode => exact absurd List.mem_cons_self hb
  | accepted => exact ⟨rfl, rfl⟩
  | _ => rfl

theorem State.keepsBut_readied (s : State) : s.keepsBut s.readied [.mode, .soft, .acct] := by
  have kv : s.keepsBut ({ s with mode := .run } : State).served [.mode, .soft] :=
    (State.keepsBut_mono (s.keepsBut_withMode .run) (by decide)).step (State.keepsBut_served _) (by decide)
  unfold State.readied
  refine (State.keepsBut_mono ?_ (by decide : [Block.mode, .soft] ⊆ _)).step (State.keepsBut_clearLevelFlags _) (by decide)
  split
  · rw [queueExhausted_eq]
    exact kv.step (State.keepsBut_setQueue _ _) (by decide)
  · exact kv

theorem readied_of (s : State) : Readied s s.readied := by
  obtain ⟨v, hv⟩ : ∃ v, v = ({ s with mode := .run } : State).served := ⟨_, rfl⟩
  have kv : s.keepsBut v [.mode, .soft] := hv ▸ (State.keepsBut_mono (s.keepsBut_withMode .run) (by decide)).step
    (State.keepsBut_served _) (by decide)
  have hmode : v.mode = .run := by rw [hv]; exact State.keepsBut_served { s with mode := .run } .mode (by decide)
  obtain ⟨hq, hr, -⟩ := State.queue_served { s with mode := .run }
  obtain ⟨y, hy⟩ : ∃ y, y = if s.cfg.autoRegen then v.queueExhausted else v := ⟨_, rfl⟩
  have hyset : y = v.setQueue (s.soft.queue ++ if s.cfg.autoRegen then s.joiners else []) := by
    have hjoiners : v.joiners = s.joiners := by
      unfold State.joiners
      rw [show v.joins = s.joins from funext fun c => hv ▸ joins_served s c, kv.drive]
    have hqueue : v.soft.queue = s.soft.queue := hv ▸ hq
    rw [hy]
    split
    · rw [queueExhausted_eq, hjoiners, hqueue]
    · rw [List.append_nil, ← hqueue, setQueue_same]
  have ky : v.keepsBut y [.soft] := hyset ▸ v.keepsBut_setQueue _
  have hready : s.readied = y.clearLevelFlags := by rw [hy, hv]; rfl
  have kc := y.keepsBut_clearLevelFlags
  have kall : s.keepsBut y [.mode, .soft] := kv.step ky (by decide)
  obtain ⟨hres, hacct⟩ := y.acct_clearLevelFlags
  have hpoint : ∀ m, y.point m = s.point m := fun m => by simp only [State.point, kall.sense]
  simp only [hpoint, kall.acct] at hres hacct
  rw [hready]
  refine ⟨hready ▸ State.keepsBut_mono s.keepsBut_readied (by decide), (kc .mode (by decide)).trans ((ky .mode (by decide)).trans hmode),
    fun c => ?_, ?_, ?_, hres, hacct⟩
  · rw [State.column_congr kc.soft, hyset]
    show v.column c = _
    rw [hv, State.column_served]
    rfl
  · rw [kc.soft, hyset]
    rfl
  · rw [kc.soft, hyset]
    show v.soft.regen = _
    rw [hv, hr]

theorem Readied.of_ports {s u x : State} (h : Readied u x) (k : s.keepsBut u [.ports]) : Readied s x := by
  have hcol : ∀ c, u.column c = s.column c := fun c => State.column_congr k.soft c
  have hpoint : ∀ m, u.point m = s.point m := fun m => by simp only [State.point, k.sense]
  have hserve : u.columnToServe = s.columnToServe := by
    unfold State.columnToServe State.inService
    rw [k.soft]
  have hjoiners : u.joiners = s.joiners := by
    unfold State.joiners
    rw [k.drive, show u.joins = s.joins from funext fun c => by simp only [State.joins, State.regenOf, hcol, k.soft]]
  refine ⟨(State.keepsBut_mono k (by decide)).step h.frame (by decide), h.mode, fun c => ?_, ?_, ?_, fun n => ?_, ?_⟩
  · rw [h.column, hserve, hcol]
  · rw [h.queue, k.soft, k.cfg, hjoiners]
  · rw [h.regen, k.soft]
  · have := h.reservoirs n
    simpa only [hpoint, k.acct] using this
  · have := h.acct
    simpa only [hpoint, k.acct] using this

/-! ### The head taken -/

/-- The part whose head is taken for a regeneration, before it asks for SELECTOR. -/
def State.headTaken (s : State) (q : QueueEntry) (rest : List QueueEntry) : State := (s.setQueue rest).setRegen (some (freshRegen q))

theorem State.keepsBut_headTaken (s : State) (q : QueueEntry) (rest : List QueueEntry) : s.keepsBut (s.headTaken q rest) [.soft] :=
  (s.keepsBut_setQueue _).step (State.keepsBut_setRegen _ _) (List.Subset.refl _)

theorem State.column_headTaken (s : State) (q : QueueEntry) (rest : List QueueEntry) (c : Column) :
    (s.headTaken q rest).column c = s.column c := by cases c <;> rfl

/-- The request of a head that has been taken. -/
def State.headAsks (s : State) (q : QueueEntry) (rest : List QueueEntry) : State :=
  (s.headTaken q rest).ask .selector (regenWho (freshRegen q)) ((s.headTaken q rest).regenSerial (freshRegen q)) (some q.column)

/-- The head stands at a COMMIT, or is taken for a regeneration that asks for SELECTOR. -/
theorem takeHeadAtCommit_cases (s : State) :
    (s.takeHeadAtCommit = s ∧ (s.soft.queue = [] ∨ s.headReady = false ∨ s.saltOut = true)) ∨
    ∃ q rest, s.soft.queue = q :: rest ∧ s.headReady = true ∧ s.saltOut = false ∧ s.takeHeadAtCommit = s.headAsks q rest := by
  unfold State.takeHeadAtCommit
  by_cases hs : s.saltOut = true
  · exact .inl ⟨if_pos hs, .inr (.inr hs)⟩
  · have hout : s.saltOut = false := by simpa using hs
    rw [if_neg hs]
    cases hq : s.soft.queue with
    | nil => exact .inl ⟨takeHead_stays (.inl hq), .inl rfl⟩
    | cons q rest =>
      by_cases hr : s.headReady = true
      · exact .inr ⟨q, rest, rfl, hr, hout, takeHead_takes hq hr hout⟩
      · have hready : s.headReady = false := by simpa using hr
        exact .inl ⟨takeHead_stays (.inr (.inl hready)), .inr (.inl hready)⟩

/-- What a judgement of the queue that posts nothing leaves as it was. -/
structure HeadKept (s t : State) : Prop where
  frame : s.keepsBut t [.arb, .soft]
  column : ∀ c, t.column c = s.column c
  leases : ∀ r, (t.entry r).lease = (s.entry r).lease ∧ (t.entry r).holder = (s.entry r).holder
  held : t.arb.selHeld = s.arb.selHeld
  current : t.arb.selCurrent = s.arb.selCurrent
  entries : s.keepsEntriesBut t [.selector]

theorem HeadKept.refl (s : State) : HeadKept s s :=
  ⟨s.keepsBut_refl _, fun _ => rfl, fun _ => ⟨rfl, rfl⟩, rfl, rfl, s.keepsEntriesBut_refl _⟩

/-- The entry of SELECTOR with the request of the head. -/
theorem entry_headAsks (s : State) (q : QueueEntry) (rest : List QueueEntry) (r : Resource) :
    (s.headAsks q rest).entry r = if r = .selector then (s.headTaken q rest).edited .selector fun e =>
      { e with waiters := e.waiters ++ [⟨regenWho (freshRegen q), (s.headTaken q rest).regenSerial (freshRegen q), some q.column, false⟩] }
      else s.entry r := by
  rw [State.headAsks, State.ask_eq, State.entry_putEntry]
  rfl

theorem headAsks_kept (s : State) (q : QueueEntry) (rest : List QueueEntry) : HeadKept s (s.headAsks q rest) := by
  have ka := (s.headTaken q rest).keepsBut_ask .selector (regenWho (freshRegen q)) ((s.headTaken q rest).regenSerial (freshRegen q)) (some q.column)
  have hentry := entry_headAsks s q rest
  refine ⟨(State.keepsBut_mono (s.keepsBut_headTaken q rest) (by decide)).step ka (by decide), fun c => ?_, fun r => ?_, ?_, ?_, fun r hr => ?_⟩
  · rw [State.headAsks, State.column_congr ka.soft, State.column_headTaken]
  · rw [hentry]
    split
    next h => exact h ▸ ⟨rfl, rfl⟩
    next => exact ⟨rfl, rfl⟩
  · rw [State.headAsks, State.ask_eq]
    rfl
  · rw [State.headAsks, State.ask_eq]
    rfl
  · rw [hentry, if_neg (by simpa using hr)]

theorem takeHeadAtCommit_kept (s : State) : HeadKept s s.takeHeadAtCommit := by
  rcases takeHeadAtCommit_cases s with ⟨h, -⟩ | ⟨q, rest, -, -, -, h⟩
  · rw [h]
    exact .refl s
  · rw [h]
    exact headAsks_kept s q rest

/-! ### The EXHAUSTED columns after it -/

theorem joiners_of_joins {s : State} {c : Column} (h : s.joins c = true) : ⟨c, none, s.drive.clock⟩ ∈ s.joiners :=
  List.mem_map.mpr ⟨c, List.mem_filter.mpr ⟨by cases c <;> decide, h⟩, rfl⟩

theorem joins_of_joiners {s : State} {q : QueueEntry} (h : q ∈ s.joiners) : s.joins q.column = true ∧ q.requester = none := by
  obtain ⟨c, hc, rfl⟩ := List.mem_map.mp h
  exact ⟨(List.mem_filter.mp hc).2, rfl⟩

/-- The first that joins is A where A joins, and no column joins twice. -/
theorem joiners_cons {s : State} {q : QueueEntry} {rest : List QueueEntry} (h : s.joiners = q :: rest) :
    (∀ r ∈ rest, r.column ≠ q.column) ∧ (q.column = .b → s.joins .a = false) := by
  unfold State.joiners at h
  cases ha : s.joins .a <;> cases hb : s.joins .b <;> simp only [List.filter_cons, ha, hb, List.filter_nil, List.map_cons, List.map_nil,
    Bool.false_eq_true, if_true, if_false, List.cons.injEq, reduceCtorEq] at h
  all_goals
    obtain ⟨rfl, rfl⟩ := h
    simp

/-- Every EXHAUSTED column has an entry then, or is the column of the regeneration in progress. -/
theorem joined_exhausted {s : State} {c : Column} (h : (s.column c).state = .exhausted) (hr : s.regenOf c = false) :
    ∃ q ∈ s.soft.queue ++ s.joiners, q.column = c := by
  by_cases hall : s.soft.queue.all (fun q => q.column != c) = true
  · exact ⟨_, List.mem_append_right _ (joiners_of_joins (c := c) (by simp [State.joins, h, hr, hall])), rfl⟩
  · obtain ⟨q, hq, hcol⟩ : ∃ q ∈ s.soft.queue, q.column = c := by simpa using hall
    exact ⟨q, List.mem_append_left _ hq, hcol⟩

/-! ### COMMIT -/

/-- The head that a COMMIT has taken has its grant in the REGEN_HEAD_TAKEN after it. -/
theorem headTaken_granted {b : State} {g : Regen} (hr : b.atRest) (hg : b.soft.regen = some g) (hph : g.phase = .starting)
    (hfree : (b.entry .selector).lease = .free) (hfill : ∀ i, b.fillAt i = none) (serial : Nat) :
    ∃ v, exec .regenHeadTaken (b.ask .selector (regenWho g) serial (some g.column)) = .next v ∧
      v.entry .selector = b.cfg.grantRecord b.drive.clock (regenWho g) (b.waiterPort (regenWho g))
        (if b.arb.selCurrent = some g.column then .held else .moving) (b.entry .selector) ∧
      v.arb.selHeld = g.column ∧ (v.column g.column).state = .regenerating ∧ (v.column g.column).remaining = 0 := by
  have hstays : (b.ask .selector (regenWho g) serial (some g.column)).headStays :=
    .inr (.inr (.inl (by rw [(b.keepsBut_ask _ _ _ _).soft, hg]; exact fun e => by cases e)))
  have hexec : exec .regenHeadTaken (b.ask .selector (regenWho g) serial (some g.column)) =
      .next (b.ask .selector (regenWho g) serial (some g.column)).settle := congrArg (fun t : State => Host.Outcome.next t.settle) hstays.takeHead
  obtain ⟨z, hz, hheld, hmoving⟩ := settle_regenAsks hr hg hph hfree (.of_none hfill _) serial
  by_cases hc : b.arb.selCurrent = some g.column
  · obtain ⟨-, -, hsettle⟩ := hheld hc
    have hd : Draws z g.begun ((z.ask .brine (regenWho g) (z.regenSerial g.begun) none).settleFor 127) :=
      Draws.settleFor hz.rest rfl 127 ((Draws.of_rest hz.rest hz.regen).ask (.inl rfl) _ _)
    rw [hsettle] at hexec
    obtain ⟨n, st, hsoft⟩ := hd.soft
    obtain ⟨v, hv⟩ : ∃ v, v = (z.ask .brine (regenWho g) (z.regenSerial g.begun) none).settleFor 127 := ⟨_, rfl⟩
    rw [← hv] at hexec hd hsoft
    have hcol : v.column g.column = z.column g.column := by simp only [State.column, hsoft]
    refine ⟨v, hexec, by rw [hd.entries _ (by decide), hz.selector], by rw [hd.held, hz.held], ?_, ?_⟩
    · rw [hcol, hz.column]
    · rw [hcol, hz.column]
  · obtain ⟨-, -, hsettle⟩ := hmoving hc
    rw [hsettle] at hexec
    exact ⟨z, hexec, hz.selector, hz.held, by rw [hz.column], by rw [hz.column]⟩

section Commit

variable {s : State} {p : Port} {tag : Nat}

theorem exec_commit (h : s.hears p tag) (hm : s.mode = .setup) :
    (∀ x : Nat × Nat, s.failedCheck = some x → exec (.commit p tag) s = .next (s.answered p tag .badConfig (byte1 x.1 ++ byte1 x.2))) ∧
    (s.failedCheck = none → exec (.commit p tag) s = .next ((s.setRx p .synced).committed.reply p tag .ok [])) := by
  have hfailed : (s.setRx p .synced).failedCheck = s.failedCheck := read_setRx State.failedCheck (fun _ _ => rfl) s p _
  have hmode : ¬(s.setRx p .synced).mode = .run := by
    rw [s.mode_setRx, hm]
    decide
  refine ⟨fun x hx => congrArg Host.Outcome.next ((immediate_hears h _).trans ?_), fun hn =>
    congrArg Host.Outcome.next ((immediate_hears h _).trans ?_)⟩
  · rw [if_neg hmode, hfailed, hx]
    rfl
  · rw [if_neg hmode, hfailed, hn]

end Commit

/-- Settles O22. -/
theorem commitJudged : Obligations.CommitJudged := by
  intro s p tag h
  refine ⟨fun hm => ?_, fun hm check item hf => ?_, fun hm hno => ?_⟩
  · refine congrArg Host.Outcome.next ((immediate_hears h _).trans ?_)
    rw [if_pos ((s.mode_setRx p _).trans hm)]
    rfl
  · exact (exec_commit h hm).1 _ (failsFirst_failedCheck hf)
  · obtain ⟨u, hu⟩ : ∃ u, u = s.setRx p .synced := ⟨_, rfl⟩
    have ku : s.keepsBut u [.ports] := hu ▸ s.keepsBut_setRx p .synced
    obtain ⟨x, hx⟩ : ∃ x, x = u.readied := ⟨_, rfl⟩
    have hready : Readied s x := hx ▸ (readied_of u).of_ports ku
    have hports : x.ports = u.ports := by rw [hx, u.keepsBut_readied.ports]
    have hexec : exec (.commit p tag) s = .next (x.takeHeadAtCommit.reply p tag .ok []) := by
      rw [(exec_commit h hm).2 (failedCheck_none hno), ← hu, committed_eq, ← hx]
    have hcases := takeHeadAtCommit_cases x
    have hkept := takeHeadAtCommit_kept x
    obtain ⟨y, hy⟩ : ∃ y, y = x.takeHeadAtCommit := ⟨_, rfl⟩
    rw [← hy] at hexec hcases hkept
    have kr := y.keepsBut_reply p tag .ok []
    have kx := hready.frame
    have hsoft : ∀ c, (y.reply p tag .ok []).column c = x.column c := fun c => (State.column_congr kr.soft c).trans (hkept.column c)
    have hacct : (y.reply p tag .ok []).acct = x.acct := by rw [kr.acct, hkept.frame.acct]
    refine ⟨y.reply p tag .ok [], hexec, ?_, ?_, fun c => ?_, fun hauto hq => ?_, fun hauto c hc hrc => ?_, fun hq hg hl hauto hex => ?_,
      fun n => by rw [hacct, hready.reservoirs], by rw [hacct]; exact hready.acct, fun r => ?_, ?_, ?_, fun r hr => ?_, ?_⟩
    · exact (kr .mode (by decide)).trans ((hkept.frame .mode (by decide)).trans hready.mode)
    · exact State.ports_reply_congr (by rw [hkept.frame.ports, hports, hu]) p tag .ok []
    · rw [hsoft, hready.column]
      exact if_congr (s.columnToServe_eq_some c) rfl rfl
    · have hxq : x.soft.queue = [] := by rw [hready.queue, hq, hauto]; rfl
      rcases hcases with ⟨hstay, -⟩ | ⟨q, rest, hqueue, -⟩
      · rw [kr.soft, hstay]
        exact ⟨hxq, hready.regen⟩
      · rw [hxq] at hqueue
        cases hqueue
    · obtain ⟨q, hq, hcol⟩ := joined_exhausted hc hrc
      have hmem : q ∈ x.soft.queue := by rw [hready.queue, if_pos hauto]; exact hq
      rcases hcases with ⟨hstay, -⟩ | ⟨q0, rest, hqueue, -, -, htake⟩
      · exact .inl ⟨q, by rw [kr.soft, hstay]; exact hmem, hcol⟩
      · rw [hqueue] at hmem
        have hysoft : y.soft = (x.headTaken q0 rest).soft := by rw [htake]; exact (State.keepsBut_ask _ _ _ _ _).soft
        rcases List.mem_cons.mp hmem with rfl | hmem
        · refine .inr ?_
          unfold State.regenOf
          rw [kr.soft, hysoft]
          exact beq_iff_eq.mpr hcol
        · exact .inl ⟨q, by rw [kr.soft, hysoft]; exact hmem, hcol⟩
    · obtain ⟨c, hc⟩ := hex
      have hxq : x.soft.queue = s.joiners := by rw [hready.queue, hq, if_pos hauto, List.nil_append]
      have hne : s.joiners ≠ [] := List.ne_nil_of_mem (joiners_of_joins (c := c) (by simp [State.joins, State.regenOf, hc, hq, hg]))
      have hxregen : x.soft.regen = none := hready.regen.trans hg
      have hout : x.saltOut = true ↔ s.acct.salt.known = true ∧ s.acct.salt.amount = 0 := by
        rw [State.saltOut, hready.acct]
        simp
      refine ⟨fun hsalt => ?_, fun hsalt => ?_⟩
      · rcases hcases with ⟨hstay, -⟩ | ⟨q0, rest, -, -, hno, -⟩
        · rw [kr.soft, kr.arb, hstay, kx.arb]
          exact ⟨hxregen, rfl⟩
        · rw [hout.mpr hsalt] at hno
          cases hno
      · rcases hcases with ⟨-, hwhy⟩ | ⟨q0, rest, hqueue, -, -, htake⟩
        · have hxready : x.headReady = true := by
            have hmode := hready.mode
            have hlatched : x.latched = false := by simp only [State.latched, kx.prot]; exact hl
            unfold State.headReady
            rw [hmode, hxregen, hxq, hlatched]
            simp [hne]
          rcases hwhy with e | e | e
          · exact absurd (hxq.symm.trans e) hne
          · rw [hxready] at e
            cases e
          · exact absurd (hout.mp e) hsalt
        · rw [hxq] at hqueue
          obtain ⟨hothers, hfirst⟩ := joiners_cons hqueue
          obtain ⟨hjoins, hreq⟩ := joins_of_joiners (s := s) (q := q0) (by rw [hqueue]; exact List.mem_cons_self)
          have hexhausted : ∀ {d}, s.joins d = ((s.column d).state == .exhausted) := fun {d} => by simp [State.joins, State.regenOf, hq, hg]
          have hysoft : y.soft = (x.headTaken q0 rest).soft := by rw [htake]; exact (State.keepsBut_ask _ _ _ _ _).soft
          have hwho : regenWho (freshRegen q0) = ⟨.regen, none⟩ := by
            unfold regenWho
            rw [show (freshRegen q0).requester = none from hreq]
          refine ⟨freshRegen q0, by rw [kr.soft, hysoft]; rfl, rfl, hreq, ?_, ?_, fun hb => ?_, ?_, fun hrest hfree hfill => ?_⟩
          · rw [hexhausted] at hjoins
            exact beq_iff_eq.mp hjoins
          · rw [kr.soft, hysoft]
            exact hothers
          · have hnot := hfirst hb
            rw [hexhausted] at hnot
            simpa using hnot
          · rw [kr.entry, htake, entry_headAsks, if_pos rfl]
            refine ⟨⟨regenWho (freshRegen q0), (x.headTaken q0 rest).regenSerial (freshRegen q0), some q0.column, false⟩, ?_, hwho, rfl⟩
            show (x.entry .selector).waiters ++ _ = _
            rw [kx.entry]
          · have kt := x.keepsBut_headTaken q0 rest
            obtain ⟨b, hb⟩ : ∃ b, b = (x.headTaken q0 rest).reply p tag .ok [] := ⟨_, rfl⟩
            have kb : s.keepsBut b [.mode, .soft, .acct, .ports] :=
              ((State.keepsBut_mono kx (by decide)).step kt (by decide)).step (hb ▸ State.keepsBut_reply _ _ _ _ _) (by decide)
            have hask : y.reply p tag .ok [] = b.ask .selector (regenWho (freshRegen q0)) ((x.headTaken q0 rest).regenSerial (freshRegen q0))
                (some q0.column) := by rw [htake, State.headAsks, State.reply_ask, hb]
            obtain ⟨v, hv, hsel, hheld, hst, hrem⟩ := headTaken_granted (b := b) (g := freshRegen q0) (hrest.frame kb)
              (by rw [hb, (State.keepsBut_reply _ _ _ _ _).soft]; rfl) rfl (by rw [kb.entry]; exact hfree)
              (fun i => (fillAt_congr (by rw [kb.pool])).trans (hfill i)) ((x.headTaken q0 rest).regenSerial (freshRegen q0))
            refine ⟨v, by rw [hask]; exact hv, ?_, hheld, hst, hrem⟩
            rw [hsel, hwho, kb.cfg, kb.drive, kb.arb, kb.entry]
            rfl
    · rw [kr.entry]
      obtain ⟨h1, h2⟩ := hkept.leases r
      rw [h1, h2, kx.entry]
      exact ⟨rfl, rfl⟩
    · rw [kr.arb, hkept.held, kx.arb]
    · rw [kr.arb, hkept.current, kx.arb]
    · rw [kr.entry, hkept.entries r hr, kx.entry]
    · exact ((State.keepsBut_mono kx (by decide)).step hkept.frame (by decide)).step kr (by decide)

end Sys2Proof.Machine

/-! SELECTOR, BRINE and INLET let go: what that leaves, whatever the lease was (R4, R23, R65). -/

namespace Sys2Proof.Machine

/-- The three resources of the water path. -/
def pathResources : List Resource := [.inlet, .brine, .selector]

/-- Some leases of the water path have been let go. -/
structure PathLet (s t : State) : Prop where
  frame : s.keepsBut t [.arb, .drive]
  held : t.arb.selHeld = s.arb.selHeld
  current : (∀ r ∈ pathResources, (s.entry r).lease ≠ .moving) → t.arb.selCurrent = s.arb.selCurrent
  drive : t.drive = s.drive ∨ t.drive = { s.drive with travel := none, travelReading := none }
  entry : ∀ r, t.entry r = s.entry r ∨ (r ∈ pathResources ∧ (s.entry r).lease ≠ .free ∧ t.entry r = s.letFree r)

theorem PathLet.refl (s : State) : PathLet s s := ⟨s.keepsBut_refl _, rfl, fun _ => rfl, .inl rfl, fun _ => .inl rfl⟩

theorem PathLet.clock {s t : State} (h : PathLet s t) : t.drive.clock = s.drive.clock := by
  rcases h.drive with e | e <;> rw [e]

theorem State.letFree_congr {s t : State} {r : Resource} (he : t.entry r = s.entry r) (hc : t.drive.clock = s.drive.clock) :
    t.letFree r = s.letFree r := by
  unfold State.letFree
  rw [he, hc]

theorem PathLet.trans {s t u : State} (h : PathLet s t) (k : PathLet t u) : PathLet s u where
  frame := h.frame.step k.frame (List.Subset.refl _)
  held := k.held.trans h.held
  current hs := (k.current fun r hr => by
    rcases h.entry r with e | ⟨-, -, e⟩
    · rw [e]
      exact hs r hr
    · rw [e]
      exact fun c => by cases c).trans (h.current hs)
  drive := by
    rcases h.drive with e | e <;> rcases k.drive with f | f
    · exact .inl (f.trans e)
    · exact .inr (by rw [f, e])
    · exact .inr (f.trans e)
    · exact .inr (by rw [f, e])
  entry r := by
    rcases k.entry r with f | ⟨hr, hl, f⟩
    · rcases h.entry r with e | ⟨hr, hl, e⟩
      · exact .inl (f.trans e)
      · exact .inr ⟨hr, hl, f.trans e⟩
    · rcases h.entry r with e | ⟨-, -, e⟩
      · exact .inr ⟨hr, e ▸ hl, f.trans (State.letFree_congr e h.clock)⟩
      · rw [e] at hl
        exact absurd rfl hl

theorem PathLet.stays {s t : State} (h : PathLet s t) {r : Resource} (hr : (s.entry r).lease = .free) : t.entry r = s.entry r := by
  rcases h.entry r with e | ⟨-, hl, -⟩
  · exact e
  · exact absurd hr hl

theorem PathLet.entries {s t : State} (h : PathLet s t) : s.keepsEntriesBut t [.inlet, .brine, .selector] := fun r hr => by
  rcases h.entry r with e | ⟨hm, -, -⟩
  · exact e
  · exact absurd hm hr

theorem PathLet.calm {s t : State} (h : PathLet s t) (hc : s.calm) : t.calm := fun r => by
  rcases h.entry r with e | ⟨-, -, e⟩
  · rw [e]
    exact hc r
  · rw [e]
    exact ⟨(hc r).1, rfl⟩

theorem PathLet.atRest {s t : State} (h : PathLet s t) (hr : s.atRest) : t.atRest := by
  refine ⟨h.calm hr.1, ?_⟩
  rw [h.frame.water, hr.2, interlockMet_of (by rw [h.entries .circ (by decide)]) (by rw [h.frame.sense]) (by rw [h.frame.door])
    (by rw [h.frame.water])]

/-- What a path let go has done to the table and the travel, blocks apart. -/
structure PathMoved (s t : State) : Prop where
  held : t.arb.selHeld = s.arb.selHeld
  current : (∀ r ∈ pathResources, (s.entry r).lease ≠ .moving) → t.arb.selCurrent = s.arb.selCurrent
  drive : t.drive = s.drive ∨ t.drive = { s.drive with travel := none, travelReading := none }
  entry : ∀ r, t.entry r = s.entry r ∨ (r ∈ pathResources ∧ (s.entry r).lease ≠ .free ∧ t.entry r = s.letFree r)

theorem PathLet.moved {s t : State} (h : PathLet s t) : PathMoved s t := ⟨h.held, h.current, h.drive, h.entry⟩

theorem PathMoved.congr {s t u v : State} (h : PathMoved s t) (hs : u.arb = s.arb) (hd : u.drive = s.drive) (ht : v.arb = t.arb)
    (hv : v.drive = t.drive) : PathMoved u v := by
  have heu : ∀ r, u.entry r = s.entry r := State.entry_congr (congrArg Arbiter.table hs)
  have hev : ∀ r, v.entry r = t.entry r := State.entry_congr (congrArg Arbiter.table ht)
  have hfree : ∀ r, u.letFree r = s.letFree r := fun r => State.letFree_congr (heu r) (by rw [hd])
  refine ⟨by rw [ht, hs, h.held], fun hm => ?_, by rw [hv, hd]; exact h.drive, fun r => ?_⟩
  · rw [ht, hs]
    exact h.current fun r hr => heu r ▸ hm r hr
  · rw [hev, heu, hfree]
    exact h.entry r

theorem PathMoved.entries {s t : State} (h : PathMoved s t) : s.keepsEntriesBut t [.inlet, .brine, .selector] := fun r hr => by
  rcases h.entry r with e | ⟨hm, -, -⟩
  · exact e
  · exact absurd hm hr

theorem PathMoved.waiters {s t : State} (h : PathMoved s t) (r : Resource) : (t.entry r).waiters = (s.entry r).waiters := by
  rcases h.entry r with e | ⟨-, -, e⟩ <;> rw [e]
  rfl

theorem PathMoved.calm {s t : State} (h : PathMoved s t) (hc : s.calm) : t.calm := fun r => by
  rcases h.entry r with e | ⟨-, -, e⟩
  · rw [e]
    exact hc r
  · rw [e]
    exact ⟨(hc r).1, rfl⟩

theorem PathMoved.atRest {s t : State} {l : List Block} (h : PathMoved s t) (hr : s.atRest) (k : s.keepsBut t l)
    (hp : Block.sense ∉ l := by decide) (hd : Block.door ∉ l := by decide) (hw : Block.water ∉ l := by decide) : t.atRest := by
  refine ⟨h.calm hr.1, ?_⟩
  rw [k .water hw, hr.2, interlockMet_of (by rw [h.entries .circ (by decide)]) (congrArg Sense.points (k .sense hp))
    (congrArg Door.door (k .door hd)) (by rw [k .water hw])]

/-! ### One lease -/

/-- A lease that is FREE at once, its release recorded. -/
def State.letNow (s : State) (r : Resource) : State := (s.dropDrive r).putEntry r (s.letFree r)

theorem freed_letNow {s : State} {r : Resource} (hr : r ∈ pathResources) : (s.writeRelease r).freeLease r = s.letNow r := by
  have hne : r ≠ .circ ∧ r ≠ .heater ∧ r ≠ .drain := by
    refine ⟨?_, ?_, ?_⟩ <;> (rintro rfl; exact absurd hr (by decide))
  rw [State.freeLease_writeRelease]
  refine reportSwitching_same ?_
  have hlevel : s.circLevel = (s.letNow r).circLevel := by
    cases r with
    | circ => exact absurd rfl hne.1
    | _ => rfl
  have hout : ∀ q, q ≠ r → s.outputOn q = (s.letNow r).outputOn q := fun q hq => by
    simp only [State.letNow, State.outputOn, State.entry_putEntry, if_neg hq, State.entry_dropDrive]
  exact Prod.ext (congrArg (fun n => decide (0 < n)) hlevel) (Prod.ext (hout _ (Ne.symm hne.2.2)) (hout _ (Ne.symm hne.2.1)))

theorem letNow_pathLet {s : State} {r : Resource} (hr : r ∈ pathResources) (hl : (s.entry r).lease ≠ .free) :
    PathLet s (s.letNow r) ∧ (s.letNow r).entry r = s.letFree r := by
  have hentry : ∀ q, (s.letNow r).entry q = if q = r then s.letFree r else s.entry q := fun q => by
    rw [State.letNow, State.entry_putEntry, State.entry_dropDrive]
  have harb : (s.letNow r).arb.selHeld = s.arb.selHeld ∧ (s.letNow r).arb.selCurrent = s.arb.selCurrent := by
    cases r <;> exact ⟨rfl, rfl⟩
  refine ⟨⟨(State.keepsBut_mono (s.keepsBut_dropDrive r) (by decide)).step (State.keepsBut_putEntry _ _ _) (by decide), harb.1, fun _ => harb.2,
    ?_, fun q => ?_⟩, by rw [hentry, if_pos rfl]⟩
  · simp only [pathResources, List.mem_cons, List.not_mem_nil, or_false] at hr
    rcases hr with rfl | rfl | rfl
    · exact .inl rfl
    · exact .inl rfl
    · exact .inr rfl
  · rw [hentry]
    split
    next h =>
      subst h
      exact .inr ⟨hr, hl, rfl⟩
    next => exact .inl rfl

theorem letGo_pathLet {s : State} {r : Resource} (hr : r ∈ pathResources) : PathLet s (s.letGo r) ∧
    ((s.entry r).lease ≠ .free → (s.entry r).lease ≠ .releasing → (s.letGo r).entry r = s.letFree r) := by
  have hne : r ≠ .circ ∧ r ≠ .doorDrive := by
    refine ⟨?_, ?_⟩ <;> (rintro rfl; exact absurd hr (by decide))
  cases hl : (s.entry r).lease with
  | free =>
    have hgo : s.letGo r = s := by
      unfold State.letGo
      rw [hl]
    rw [hgo]
    exact ⟨.refl s, fun h => absurd rfl h⟩
  | releasing =>
    have hgo : s.letGo r = s := by
      unfold State.letGo
      rw [hl]
    rw [hgo]
    exact ⟨.refl s, fun _ h => absurd rfl h⟩
  | suspended =>
    have hgo : s.letGo r = s.letNow r := by
      unfold State.letGo
      rw [hl]
      exact freed_letNow hr
    have k := letNow_pathLet hr (by rw [hl]; decide)
    rw [hgo]
    exact ⟨k.1, fun _ _ => k.2⟩
  | moving =>
    have hgo : s.letGo r = { s.letNow r with arb := { (s.letNow r).arb with selCurrent := none } } := by
      unfold State.letGo
      rw [hl]
      dsimp only
      rw [freed_letNow hr]
    obtain ⟨k, hself⟩ := letNow_pathLet hr (s := s) (by rw [hl]; decide)
    rw [hgo]
    exact ⟨⟨k.frame.step (State.keepsBut_withArb _ _) (by decide), k.held, fun h => absurd hl (h r hr), k.drive, k.entry⟩, fun _ _ => hself⟩
  | held =>
    have hgo : s.letGo r = s.letNow r := by
      rw [← freed_letNow hr]
      unfold State.letGo
      rw [hl]
      cases r with
      | circ => exact absurd rfl hne.1
      | doorDrive => exact absurd rfl hne.2
      | _ => rfl
    have k := letNow_pathLet hr (by rw [hl]; decide)
    rw [hgo]
    exact ⟨k.1, fun _ _ => k.2⟩

theorem hasHolder_lease {s : State} {r : Resource} : s.hasHolder r = true ↔ (s.entry r).lease ≠ .free := by simp [State.hasHolder]

theorem release_pathLet {s : State} {r : Resource} (hr : r ∈ pathResources) : PathLet s (s.release r) ∧
    ((s.entry r).lease ≠ .free → (s.entry r).lease ≠ .releasing → (s.release r).entry r = s.letFree r) := by
  unfold State.release
  split
  next h =>
    obtain ⟨rfl, hi, -⟩ := h
    have hinlet : (Resource.inlet) ∈ pathResources := by decide
    obtain ⟨k, -⟩ := letNow_pathLet hinlet (hasHolder_lease.mp hi)
    rw [freed_letNow hinlet]
    obtain ⟨k', hself⟩ := letGo_pathLet (s := s.letNow .inlet) hr
    have hsame : (s.letNow .inlet).entry .selector = s.entry .selector := by
      rw [State.letNow, State.entry_putEntry, if_neg (by decide), State.entry_dropDrive]
    refine ⟨k.trans k', fun hf hrel => ?_⟩
    rw [hself (by rw [hsame]; exact hf) (by rw [hsame]; exact hrel), State.letFree_congr hsame k.clock]
  next => exact letGo_pathLet hr

theorem releaseIf_pathLet {s : State} (who : Holder) {r : Resource} (hr : s.holds who r = true → r ∈ pathResources) :
    PathLet s (s.releaseIf who r) ∧ (s.holds who r = true → (s.entry r).lease ≠ .releasing → (s.releaseIf who r).entry r = s.letFree r) := by
  by_cases hh : s.holds who r = true
  · rw [State.releaseIf_holds hh]
    obtain ⟨k, hself⟩ := release_pathLet (s := s) (hr hh)
    exact ⟨k, fun _ => hself ((State.holds_iff _ _ _).mp hh).1⟩
  · rw [State.releaseIf_absent (by simpa using hh)]
    exact ⟨.refl s, fun h => absurd h hh⟩

/-- A requester that holds nothing but the water path lets all of it go. -/
theorem releaseList_pathLet (who : Holder) : ∀ (l : List Resource) (s : State), (∀ r, s.holds who r = true → r ∈ pathResources) →
    PathLet s (l.foldl (fun s r => s.releaseIf who r) s) ∧ ∀ r ∈ l, s.holds who r = true → (s.entry r).lease ≠ .releasing →
      (l.foldl (fun s r => s.releaseIf who r) s).entry r = s.letFree r
  | [], s, _ => ⟨.refl s, fun r hr => by cases hr⟩
  | q :: l, s, h => by
    obtain ⟨k, hself⟩ := releaseIf_pathLet who (h q)
    obtain ⟨k', hrest⟩ := releaseList_pathLet who l (s.releaseIf who q) fun r hr => h r (State.holds_releaseIf hr)
    rw [List.foldl_cons]
    refine ⟨k.trans k', fun r hr hh hl => ?_⟩
    have hfreed : (s.releaseIf who q).entry r = s.letFree r → (l.foldl (fun s r => s.releaseIf who r) (s.releaseIf who q)).entry r = s.letFree r :=
      fun e => (k'.stays (by rw [e]; rfl)).trans e
    rcases k.entry r with e | ⟨-, -, e⟩
    · rcases List.mem_cons.mp hr with rfl | hr
      · exact hfreed (hself hh hl)
      · have hh' : (s.releaseIf who q).holds who r = true := by
          rw [State.holds_iff, e]
          exact (State.holds_iff _ _ _).mp hh
        rw [hrest r hr hh' (by rw [e]; exact hl), State.letFree_congr e k.clock]
    · exact hfreed e

theorem releaseAll_pathLet {s : State} {who : Holder} (h : ∀ r, s.holds who r = true → r ∈ pathResources) :
    PathLet s (s.releaseAll who) ∧ ∀ r, s.holds who r = true → (s.entry r).lease ≠ .releasing → (s.releaseAll who).entry r = s.letFree r := by
  obtain ⟨k, hfree⟩ := releaseList_pathLet who allResources.reverse s h
  exact ⟨k, fun r => hfree r (List.mem_reverse.mpr (Resource.mem_allResources r))⟩

end Sys2Proof.Machine

/-! FILL_NO_FLOW_TIMEOUT and REGEN_NO_FLOW_TIMEOUT: the end of a FILL, and a regeneration that is aborted (R38, R65, R70). Settles O32. -/

namespace Sys2Proof.Machine

/-! ### The end of a FILL -/

theorem waitsFor_congr {s t : State} {r : Resource} (h : (t.entry r).waiters = (s.entry r).waiters) (who : Holder) :
    t.waitsFor who r = s.waitsFor who r := by
  unfold State.waitsFor
  rw [h]

/-- A FILL that has ended and been answered: what it held on the water path let go, its draw recorded, its slot free. -/
structure FillOver (s t : State) (i : SlotId) (sl : Slot) (w : FillWork) (o : OutcomeCode) : Prop where
  self : t.pool[i] = none
  pool : ∀ j : SlotId, j ≠ i → t.pool[j] = s.pool[j]
  moved : PathMoved s t
  freed : ∀ r, s.holds ⟨.port sl.port, some i⟩ r = true → (s.entry r).lease ≠ .releasing → t.entry r = s.letFree r
  log : t.acct.log.getLast? = some ⟨s.acct.nextDraw, .wash, w.softA, w.softB, w.bypass,
    if w.counted = 0 then s.acct.hardness else w.lastHardness, o, s.drive.clock⟩
  responds : s.responds t sl.port [opResponse sl.tag o (fillFields w)]
  subs : ∀ p, (t.port p).subs = (s.port p).subs
  frame : s.keepsBut t [.arb, .pool, .acct, .ports, .drive]

theorem finishFill_over {s : State} {i : SlotId} {sl : Slot} {w : FillWork} {o : OutcomeCode} (hp : s.pool[i] = some sl)
    (hw : sl.work = .fill w) (ho : sl.outcome = none) (hwait : ∀ q, s.waitsFor ⟨.port sl.port, some i⟩ q = false)
    (honly : ∀ r, s.holds ⟨.port sl.port, some i⟩ r = true → r = .inlet ∨ r = .selector)
    (hmark : ∀ c, (s.column c).breakthrough ≠ some i) (hidle : o = .done ∨ o = .limit → ∀ k, (s.channel k).state = .idle) :
    FillOver s (s.finishFill i o true) i sl w o := by
  obtain ⟨v, hv⟩ : ∃ v, v = s.setSlot i (some { sl with outcome := some o }) := ⟨_, rfl⟩
  have kv : s.keepsBut v [.pool] := hv ▸ s.keepsBut_setSlot _ _
  have hholds : ∀ r, v.holds ⟨.port sl.port, some i⟩ r = s.holds ⟨.port sl.port, some i⟩ r := fun r => by rw [hv]; rfl
  obtain ⟨k, hfreed⟩ := releaseAll_pathLet (s := v) (who := ⟨.port sl.port, some i⟩) fun r hr => by
    rcases honly r (hholds r ▸ hr) with rfl | rfl <;> decide
  obtain ⟨u, hu⟩ : ∃ u, u = s.fillLetGo i sl o := ⟨_, rfl⟩
  have hgo : v.releaseAll ⟨.port sl.port, some i⟩ = u := by rw [hu, hv]; rfl
  rw [hgo] at k hfreed
  have hmoved : PathMoved s u := k.moved.congr kv.arb.symm kv.drive.symm rfl rfl
  have hnobody : ∀ q, u.waitsFor (washWho sl.port i) q = false := fun q => (waitsFor_congr (hmoved.waiters q) _).trans (hwait q)
  obtain ⟨d, hd⟩ : ∃ d, d = s.fillDrawn i sl w o := ⟨_, rfl⟩
  have hdrawn : d = u.appendDraw .wash w.softA w.softB w.bypass (if w.counted = 0 then s.acct.hardness else w.lastHardness) o := by
    rw [hd, State.fillDrawn, hu]
  have kd : u.keepsBut d [.acct] := hdrawn ▸ u.keepsBut_appendDraw _ _ _ _ _ _
  have kud : s.keepsBut d [.pool, .arb, .drive, .acct] := ((State.keepsBut_mono kv (by decide)).step k.frame (by decide)).step kd (by decide)
  have hself : d.pool[i] = some { sl with outcome := some o } := by
    rw [kd.pool, k.frame.pool, hv]
    exact State.pool_setSlot_self _ _ _
  have hfinish : s.finishFill i o true = (d.send sl.port (opResponse sl.tag o (fillFields w))).setSlot i none := by
    have hoffer : (if o = .done ∨ o = .limit then d.offerTrigger .fillDone else d) = d := by
      split
      next h => exact offerTrigger_idle (fun c => by rw [State.channel_congr kud.dose]; exact hidle h c) _
      next => rfl
    rw [finishFill_eq hp hw ho (by rw [← hu]; exact hnobody) hmark, ← hd, hoffer]
    exact State.endSlot_answered (sl := { sl with outcome := some o }) hself o (fillFields w)
  have kend := (d.keepsBut_send sl.port (opResponse sl.tag o (fillFields w))).cons (State.keepsBut_setSlot _ i none)
  have hports : d.ports = s.ports := kud.ports
  rw [hfinish]
  refine ⟨State.pool_setSlot_self _ _ _, fun j hj => ?_, hmoved.congr rfl rfl ?_ ?_, fun r hr hl => ?_, ?_, ?_, fun p => ?_,
    (State.keepsBut_mono kud (by decide)).step kend (by decide)⟩
  · rw [State.pool_setSlot_ne _ hj, (d.keepsBut_send _ _).pool, kd.pool, k.frame.pool, hv, State.pool_setSlot_ne _ hj]
  · rw [kend.arb, kd.arb]
  · rw [kend.drive, kd.drive]
  · rw [kend.entry, kd.entry, hfreed r ((hholds r).trans hr) (by rw [kv.entry]; exact hl), State.letFree_congr (kv.entry r) (by rw [kv.drive])]
  · rw [kend.acct, hdrawn, State.acct_appendDraw, k.clock, kv.drive, k.frame.acct, kv.acct]
  · exact txq_answered hports i sl.port _
  · show ((d.send _ _).port p).subs = _
    rw [State.subs_send, State.port_congr hports]

theorem flowingFill_eq {s : State} {p : Port} {i : SlotId} (hl : (s.entry .inlet).lease = .held)
    (hh : (s.entry .inlet).holder = some ⟨.port p, some i⟩) (hf : (s.fillAt i).isSome = true) : s.flowingFill = some i := by
  unfold State.flowingFill
  simp [hl, hh, hf]

theorem fillNoFlowEnds : Clauses.FillNoFlowEnds := by
  intro s i sl w hp hw ho hl hh hr hdue hmark honly
  have hover := finishFill_over (o := .noWater) hp hw ho (fun q => State.waitsFor_noWaiters (hr.1 q).1 _) honly hmark
    fun e => by rcases e with e | e <;> cases e
  obtain ⟨t, ht⟩ : ∃ t, t = s.finishFill i .noWater true := ⟨_, rfl⟩
  rw [← ht] at hover
  have hrest := hover.moved.atRest hr hover.frame
  have kf := t.keepsBut_fault .noFlow (portCode sl.port) w.counted
  refine ⟨t.fault .noFlow (portCode sl.port) w.counted, ?_, by rw [kf.pool]; exact hover.self, ?_, fun j hj => by rw [kf.pool]; exact hover.pool j hj,
    by rw [kf.acct]; exact hover.log, ?_, fun hcap => ?_, (State.keepsBut_mono hover.frame (by decide)).step kf (by decide)⟩
  · have hflowing : s.flowingFill = some i := by
      exact flowingFill_eq hl hh (by rw [fillAt_eq hp hw ho]; rfl)
    show Host.Outcome.next s.fillNoFlow = _
    unfold State.fillNoFlow
    simp only [hflowing, fillAt_eq hp hw ho, hdue, if_true, ← ht, (hrest.frame kf).settle]
  · rw [kf.entry, hover.freed .inlet ((State.holds_iff _ _ _).mpr ⟨by rw [hl]; decide, hh⟩) (by rw [hl]; decide)]
    rfl
  · unfold State.responds
    rw [State.txq_fault]
    exact hover.responds
  · have hgroup := State.group_fault (s := t) (k := .noFlow) (by rw [hover.frame.cfg]; exact hcap) (portCode sl.port) w.counted
    rw [hover.frame.prot] at hgroup
    rcases hover.moved.drive with e | e <;> (rw [e] at hgroup; exact hgroup)

end Sys2Proof.Machine

/-! A regeneration that is aborted: the record of its phase, its column exhausted and queued again, its answer (R63, R66, R70, R89). -/

namespace Sys2Proof.Machine

/-! ### The record of a phase (R66, R69, R70, R89) -/

theorem State.acct_appendRegenDraw (s : State) (p : Purpose) (c : Column) (volume hardness : Nat) (o : OutcomeCode) :
    (s.appendRegenDraw p c volume hardness o).acct.log.getLast? = some ⟨s.acct.nextDraw, p, if c = .a then volume else 0,
      if c = .b then volume else 0, 0, hardness, o, s.drive.clock⟩ ∧
    (s.appendRegenDraw p c volume hardness o).acct.salt = s.acct.salt := by
  cases c with
  | a => exact ⟨State.acct_appendDraw _ _ _ _ _ _ _, rfl⟩
  | b => exact ⟨State.acct_appendDraw _ _ _ _ _ _ _, rfl⟩

theorem State.keepsBut_appendRegenDraw (s : State) (p : Purpose) (c : Column) (volume hardness : Nat) (o : OutcomeCode) :
    s.keepsBut (s.appendRegenDraw p c volume hardness o) [.acct] := by
  cases c with
  | a => exact s.keepsBut_appendDraw _ _ _ _ _ _
  | b => exact s.keepsBut_appendDraw _ _ _ _ _ _

/-- Salt deducted: the amount where it is KNOWN, and the end of a wait for salt where some is left (R66, R84). -/
theorem deductSalt_eq (s : State) (grams : Nat) : s.deductSalt grams = { s with
    acct := { s.acct with salt := if s.acct.salt.known = true then { s.acct.salt with amount := s.acct.salt.amount - grams } else s.acct.salt }
    soft := { s.soft with saltWait := if s.acct.salt.known = true ∧ grams < s.acct.salt.amount then false else s.soft.saltWait } } := by
  unfold State.deductSalt
  by_cases hk : s.acct.salt.known = true
  · simp only [hk, if_true, State.saltReported_eq, State.setSalt, Bool.true_and, true_and]
    by_cases hg : grams < s.acct.salt.amount
    · have hleft : (s.acct.salt.amount - grams == 0) = false := by
        simp only [beq_eq_false_iff_ne, ne_eq]
        omega
      rw [hleft, if_pos hg, Bool.and_false]
    · have hleft : (s.acct.salt.amount - grams == 0) = true := by
        simp only [beq_iff_eq]
        omega
      rw [hleft, if_neg hg, Bool.and_true]
  · simp only [hk, Bool.false_eq_true, if_false, false_and]

theorem State.keepsBut_deductSalt (s : State) (grams : Nat) : s.keepsBut (s.deductSalt grams) [.acct, .soft] := by
  unfold State.deductSalt
  exact .ite _ ((State.keepsBut_mono (s.keepsBut_withAcct _) (by decide)).step (State.keepsBut_saltReported (s.setSalt _)) (by decide)) (s.keepsBut_refl _)

/-- The draw of a phase that has flowed recorded, with the salt of a BRINE_DRAW deducted. -/
structure PhaseRecorded (s d : State) (g : Regen) (o : OutcomeCode) (purpose : Purpose) : Prop where
  frame : s.keepsBut d [.acct, .soft]
  log : d.acct.log.getLast? = some ⟨s.acct.nextDraw, purpose, if g.column = .a then g.counted else 0,
    if g.column = .b then g.counted else 0, 0, if g.counted = 0 then s.acct.hardness else g.lastHardness, o, s.drive.clock⟩
  salt : d.acct.salt = if purpose = .brine ∧ s.acct.salt.known = true
    then { s.acct.salt with amount := s.acct.salt.amount - g.counted * s.cfg.saltPerDl } else s.acct.salt
  soft : d.soft = { s.soft with saltWait := if purpose = .brine ∧ s.acct.salt.known = true ∧ g.counted * s.cfg.saltPerDl < s.acct.salt.amount
    then false else s.soft.saltWait }

theorem recordAborted_records {s : State} {g : Regen} {purpose : Purpose} {code : Nat}
    (h : (g.phase = .rinse ∧ g.rinseStarted = true ∧ purpose = .rinse ∧ code = 3) ∨
      (g.phase = .brineDraw ∧ g.brineStarted = true ∧ purpose = .brine ∧ code = 1)) (o : OutcomeCode) :
    PhaseRecorded s (s.recordAborted g o false) g o purpose := by
  rcases h with ⟨hp, hs, rfl, -⟩ | ⟨hp, hs, rfl, -⟩
  · have heq : s.recordAborted g o false = s.appendRegenDraw .rinse g.column g.counted (s.drawHardness g) o := by
      simp [State.recordAborted, hp, hs]
    have k := s.keepsBut_appendRegenDraw .rinse g.column g.counted (s.drawHardness g) o
    obtain ⟨hlog, hsalt⟩ := s.acct_appendRegenDraw .rinse g.column g.counted (s.drawHardness g) o
    rw [heq]
    exact ⟨State.keepsBut_mono k (by decide), hlog, by simp [hsalt], by simp [k.soft]⟩
  · have heq : s.recordAborted g o false =
        (s.appendRegenDraw .brine g.column g.counted (s.drawHardness g) o).deductSalt (g.counted * s.cfg.saltPerDl) := by
      simp [State.recordAborted, hp, hs]
    have k := s.keepsBut_appendRegenDraw .brine g.column g.counted (s.drawHardness g) o
    obtain ⟨hlog, hsalt⟩ := s.acct_appendRegenDraw .brine g.column g.counted (s.drawHardness g) o
    rw [heq]
    refine ⟨(State.keepsBut_mono k (by decide)).step (State.keepsBut_deductSalt _ _) (by decide), ?_, ?_, ?_⟩
    · rw [deductSalt_eq]
      exact hlog
    · rw [deductSalt_eq]
      simp [hsalt]
    · rw [deductSalt_eq]
      simp [hsalt, k.soft]

/-! ### The answer of a REGENERATE (R74) -/

theorem endSlot_absent {s : State} {i : SlotId} (h : s.pool[i] = none) (o : OutcomeCode) (fields : List Byte) (answer : Bool) :
    s.endSlot i o fields answer = s := by
  unfold State.endSlot
  rw [h]

theorem subs_endSlot (s : State) (i : SlotId) (o : OutcomeCode) (fields : List Byte) (p : Port) :
    ((s.endSlot i o fields true).port p).subs = (s.port p).subs := by
  cases h : s.pool[i] with
  | none => rw [endSlot_absent h]
  | some sl =>
    rw [State.endSlot_answered h]
    exact s.subs_send _ _ _

theorem fillAt_endSlot {s : State} {i : SlotId} {o : OutcomeCode} {fields : List Byte} (hs : ∀ j, s.fillAt j = none) (j : SlotId) :
    (s.endSlot i o fields true).fillAt j = none := by
  cases h : s.pool[i] with
  | none => rw [endSlot_absent h, hs]
  | some sl =>
    rw [State.endSlot_answered h]
    by_cases hj : j = i
    · subst hj
      unfold State.fillAt
      rw [State.pool_setSlot_self]
    · exact (fillAt_congr (by rw [State.pool_setSlot_ne _ hj, (s.keepsBut_send _ _).pool])).trans (hs j)

/-- The answer of the REGENERATE whose regeneration ends, where there is one. -/
structure RegenAnswered (s t : State) (g : Regen) (x : Slot → Response) : Prop where
  frame : s.keepsBut t [.pool, .ports]
  answered : ∀ p i sl, g.requester = some (p, i) → s.pool[i] = some sl → t.pool[i] = none ∧ s.responds t sl.port [x sl]
  alone : g.requester = none → t = s
  subs : ∀ p, (t.port p).subs = (s.port p).subs
  fills : (∀ i, s.fillAt i = none) → ∀ i, t.fillAt i = none

theorem answerRegen_answers (s : State) (g : Regen) (o : OutcomeCode) (fields : List Byte) :
    RegenAnswered s (s.answerRegen g o fields true) g fun sl => opResponse sl.tag o fields := by
  cases hg : g.requester with
  | none =>
    have heq : s.answerRegen g o fields true = s := by
      unfold State.answerRegen
      rw [hg]
    rw [heq]
    exact ⟨s.keepsBut_refl _, fun _ _ _ e => (by cases hg.symm.trans e), fun _ => rfl, fun _ => rfl, id⟩
  | some q =>
    have heq : s.answerRegen g o fields true = s.endSlot q.2 o fields true := by
      unfold State.answerRegen
      rw [hg]
    rw [heq]
    refine ⟨s.keepsBut_endSlot _ _ _ _, fun p i sl e hsl => ?_, fun e => (by cases hg.symm.trans e), fun p => subs_endSlot .., fillAt_endSlot⟩
    cases hg.symm.trans e
    rw [State.endSlot_answered hsl]
    exact ⟨State.pool_setSlot_self _ _ _, txq_answered rfl i sl.port _⟩

end Sys2Proof.Machine

/-! A regeneration that is aborted in a part where no FILL runs (R70), and REGEN_NO_FLOW_TIMEOUT (R65). Settles O32. -/

namespace Sys2Proof.Machine

/-- The column of an aborted regeneration. -/
def ColumnRec.lost (r : ColumnRec) : ColumnRec := { r with state := .exhausted, remaining := 0, last := .aborted, breakthrough := none }

/-- The column lost, the regeneration gone, and the column queued again under AUTO_REGEN (R61, R70). -/
def State.softAborted (s : State) (g : Regen) : State :=
  let d := (s.setColumn g.column (s.column g.column).lost).setRegen none
  if s.cfg.autoRegen then d.setQueue (s.soft.queue ++ [⟨g.column, none, s.drive.clock⟩]) else d

theorem State.keepsBut_softAborted (s : State) (g : Regen) : s.keepsBut (s.softAborted g) [.soft] :=
  have k := (s.keepsBut_setColumn g.column (s.column g.column).lost).step (State.keepsBut_setRegen _ none) (List.Subset.refl _)
  State.keepsBut.ite _ (k.step (State.keepsBut_setQueue _ _) (List.Subset.refl _)) k

theorem soft_softAborted (s : State) (g : Regen) : (s.softAborted g).soft.regen = none ∧
    (s.softAborted g).soft.queue = (if s.cfg.autoRegen = true then s.soft.queue ++ [⟨g.column, none, s.drive.clock⟩] else s.soft.queue) ∧
    (s.softAborted g).soft.saltWait = s.soft.saltWait := by
  unfold State.softAborted
  cases g.column <;> split <;> exact ⟨rfl, rfl, rfl⟩

theorem column_softAborted (s : State) (g : Regen) (c : Column) :
    (s.softAborted g).column c = if c = g.column then (s.column g.column).lost else s.column c := by
  have hd : ((s.setColumn g.column (s.column g.column).lost).setRegen none).column c =
      if c = g.column then (s.column g.column).lost else s.column c := by
    rw [State.column_setRegen, State.column_setColumn]
  unfold State.softAborted
  split
  · rw [← hd]
    cases c <;> rfl
  · exact hd

/-- An abort as far as the reports of the column (R70): the phase recorded, the column lost, REGEN_ENDED posted. -/
theorem abortRegen_eq {s : State} {g : Regen} (hw : ∀ r, (s.releaseAll (regenWho g)).waitsFor (regenWho g) r = false)
    (hq : ∀ q ∈ s.soft.queue, q.column ≠ g.column) {d : State} {o : OutcomeCode}
    (hd : d = (s.releaseAll (regenWho g)).recordAborted g o false) (hsame : d.soft.queue = s.soft.queue) (answer : Bool) :
    s.abortRegen g o false answer = (((((d.softAborted g).post .regenEnded (columnCode g.column) 3).answerRegen g o
      (byte1 (phaseCode g.phase) ++ byte1 g.counted) answer).judgeFills none).takeHead) := by
  obtain ⟨e, he⟩ : ∃ e, e = (d.setColumn g.column (d.column g.column).lost).setRegen none := ⟨_, rfl⟩
  have hqueue : e.soft.queue = s.soft.queue := by
    rw [he, ← hsame]
    cases g.column <;> rfl
  have hjoin : e.joinTail g.column = e.setQueue (d.soft.queue ++ [⟨g.column, none, d.drive.clock⟩]) := by
    have hclock : e.drive.clock = d.drive.clock := by
      rw [he]
      cases g.column <;> rfl
    have hnot : (e.isQueued g.column || e.regenOf g.column) = false := by
      have hregen : e.soft.regen = none := by rw [he]; rfl
      simp only [State.isQueued, State.regenOf, hregen, hqueue, Bool.or_false]
      simpa using hq
    rw [State.joinTail, hnot, if_neg (by decide), hqueue, hclock, hsame]
  have hsoft : (if e.cfg.autoRegen then e.joinTail g.column else e) = d.softAborted g := by
    have hcfg : e.cfg = d.cfg := by
      rw [he]
      cases g.column <;> rfl
    rw [hjoin, hcfg, he]
    rfl
  unfold State.abortRegen
  dsimp only
  rw [State.withdraw_absent hw, ← hd]
  change ((((if ((d.setColumn g.column (d.column g.column).lost).setRegen none).cfg.autoRegen then
    ((d.setColumn g.column (d.column g.column).lost).setRegen none).joinTail g.column else
    ((d.setColumn g.column (d.column g.column).lost).setRegen none)).post _ _ _).answerRegen g o _ answer).judgeFills none).takeHead = _
  rw [← he, hsoft]

/-- What an aborted regeneration leaves, before the queue is judged for its next head. -/
structure RegenAborted (s u : State) (g : Regen) (o : OutcomeCode) (purpose : Purpose) : Prop where
  moved : PathMoved s u
  freed : ∀ r, s.holds (regenWho g) r = true → (s.entry r).lease ≠ .releasing → u.entry r = s.letFree r
  regen : u.soft.regen = none
  queue : u.soft.queue = if s.cfg.autoRegen = true then s.soft.queue ++ [⟨g.column, none, s.drive.clock⟩] else s.soft.queue
  saltWait : u.soft.saltWait = if purpose = .brine ∧ s.acct.salt.known = true ∧ g.counted * s.cfg.saltPerDl < s.acct.salt.amount
    then false else s.soft.saltWait
  column : ∀ c, u.column c = if c = g.column then (s.column g.column).lost else s.column c
  log : u.acct.log.getLast? = some ⟨s.acct.nextDraw, purpose, if g.column = .a then g.counted else 0,
    if g.column = .b then g.counted else 0, 0, if g.counted = 0 then s.acct.hardness else g.lastHardness, o, s.drive.clock⟩
  salt : u.acct.salt = if purpose = .brine ∧ s.acct.salt.known = true
    then { s.acct.salt with amount := s.acct.salt.amount - g.counted * s.cfg.saltPerDl } else s.acct.salt
  subs : ∀ y, (u.port y).subs = ((s.post .regenEnded (columnCode g.column) 3).port y).subs
  answered : ∀ p i sl, g.requester = some (p, i) → s.pool[i] = some sl → u.pool[i] = none ∧
    s.responds u sl.port [opResponse sl.tag o (byte1 (phaseCode g.phase) ++ byte1 g.counted)]
  alone : g.requester = none → u.pool = s.pool ∧ ∀ y, (u.port y).txq = (s.port y).txq
  frame : s.keepsBut u [.arb, .pool, .ports, .soft, .acct, .drive]

theorem abortRegen_aborts {s : State} {g : Regen} {purpose : Purpose} {code : Nat} (hc : s.calm)
    (honly : ∀ r, s.holds (regenWho g) r = true → r = .inlet ∨ r = .selector ∨ r = .brine)
    (hfills : ∀ i, s.fillAt i = none) (hq : ∀ q ∈ s.soft.queue, q.column ≠ g.column)
    (hphase : (g.phase = .rinse ∧ g.rinseStarted = true ∧ purpose = .rinse ∧ code = 3) ∨
      (g.phase = .brineDraw ∧ g.brineStarted = true ∧ purpose = .brine ∧ code = 1)) (o : OutcomeCode) :
    ∃ u, s.abortRegen g o false true = u.takeHead ∧ RegenAborted s u g o purpose := by
  obtain ⟨a, ha⟩ : ∃ a, a = s.releaseAll (regenWho g) := ⟨_, rfl⟩
  obtain ⟨ka, hfreed⟩ := releaseAll_pathLet (s := s) (who := regenWho g) fun r hr => by
    rcases honly r hr with rfl | rfl | rfl <;> decide
  rw [← ha] at ka hfreed
  have hwait : ∀ r, a.waitsFor (regenWho g) r = false := fun r =>
    State.waitsFor_noWaiters (((ka.moved.calm hc) r).1) _
  obtain ⟨d, hd⟩ : ∃ d, d = a.recordAborted g o false := ⟨_, rfl⟩
  have hrec : PhaseRecorded a d g o purpose := hd ▸ recordAborted_records hphase o
  have hdq : d.soft.queue = s.soft.queue := by rw [hrec.soft, ka.frame.soft]
  have heq := abortRegen_eq (s := s) (g := g) (d := d) (o := o) (by rw [← ha]; exact hwait) hq (by rw [hd, ha]) hdq true
  obtain ⟨e, he⟩ : ∃ e, e = (d.softAborted g).post .regenEnded (columnCode g.column) 3 := ⟨_, rfl⟩
  rw [← he] at heq
  have kdx := d.keepsBut_softAborted g
  have kxe := (d.softAborted g).keepsBut_post .regenEnded (columnCode g.column) 3
  rw [← he] at kxe
  have kse : s.keepsBut e [.arb, .drive, .acct, .soft, .ports] :=
    (((State.keepsBut_mono ka.frame (by decide)).step hrec.frame (by decide)).step kdx (by decide)).step kxe (by decide)
  have hans := answerRegen_answers e g o (byte1 (phaseCode g.phase) ++ byte1 g.counted)
  obtain ⟨u, hu⟩ : ∃ u, u = e.answerRegen g o (byte1 (phaseCode g.phase) ++ byte1 g.counted) true := ⟨_, rfl⟩
  rw [← hu] at heq hans
  have hjudge : u.judgeFills none = u :=
    judgeFills_none (hans.fills fun i => (fillAt_congr (by rw [kse.pool])).trans (hfills i)) none
  rw [hjudge] at heq
  have ksu : s.keepsBut u [.arb, .pool, .ports, .soft, .acct, .drive] :=
    (State.keepsBut_mono kse (by decide)).step hans.frame (by decide)
  have harb : u.arb = a.arb := by rw [hans.frame.arb, kxe.arb, kdx.arb, hrec.frame.arb]
  have hdrive : u.drive = a.drive := by rw [hans.frame.drive, kxe.drive, kdx.drive, hrec.frame.drive]
  have hsoft : u.soft = (d.softAborted g).soft := by rw [hans.frame.soft, kxe.soft]
  have hacct : u.acct = d.acct := by rw [hans.frame.acct, kxe.acct, kdx.acct]
  have hclock : d.drive.clock = s.drive.clock := by rw [hrec.frame.drive, ka.clock]
  have hcfg : d.cfg = s.cfg := by rw [hrec.frame.cfg, ka.frame.cfg]
  have hcolumn : ∀ c, d.column c = s.column c := fun c => by
    have hd : d.column c = a.column c := by
      unfold State.column
      rw [hrec.soft]
    rw [hd, State.column_congr ka.frame.soft]
  have hports : e.ports = (s.post .regenEnded (columnCode g.column) 3).ports := by
    rw [he]
    refine State.ports_post_clock (by rw [kdx.ports, hrec.frame.ports, ka.frame.ports]) ?_ _ _ _
    rw [kdx.drive, hclock]
  have htxq : ∀ y, (e.port y).txq = (s.port y).txq := fun y => by
    rw [State.port_congr hports, State.txq_post]
  obtain ⟨hregen, hqueue, hsalt⟩ := soft_softAborted d g
  refine ⟨u, heq, ka.moved.congr rfl rfl harb hdrive, fun r hr hl => ?_, by rw [hsoft, hregen], ?_, ?_, fun c => ?_, ?_, ?_, fun y => ?_,
    fun p i sl hg hsl => ?_, fun hg => ?_, ksu⟩
  · rw [State.entry_congr (congrArg Arbiter.table harb), hfreed r hr hl]
  · rw [hsoft, hqueue, hdq, hcfg, hclock]
  · rw [hsoft, hsalt, hrec.soft, ka.frame.acct, ka.frame.cfg, ka.frame.soft]
  · rw [State.column_congr hsoft, column_softAborted, hcolumn, hcolumn]
  · rw [hacct, hrec.log, ka.frame.acct, ka.clock]
  · rw [hacct, hrec.salt, ka.frame.acct, ka.frame.cfg]
  · rw [hans.subs, State.port_congr hports]
  · obtain ⟨hnone, hresp⟩ := hans.answered p i sl hg (by rw [kse.pool]; exact hsl)
    refine ⟨hnone, ?_⟩
    unfold State.responds at hresp ⊢
    rw [hresp, htxq]
  · rw [hans.alone hg]
    exact ⟨kse.pool, htxq⟩

end Sys2Proof.Machine

/-! REGEN_NO_FLOW_TIMEOUT (R65, R70). Settles O32. -/

namespace Sys2Proof.Machine

/-- The end of a regeneration that has started (R70). -/
theorem endRegen_started {s : State} {g : Regen} (hg : s.soft.regen = some g) (hp : g.phase ≠ .starting) (o : OutcomeCode) (answer : Bool) :
    s.endRegen o answer = s.abortRegen g o false answer := by
  unfold State.endRegen
  rw [hg]
  exact if_neg hp

theorem regenFlowing_eq {s : State} {g : Regen} (hg : s.soft.regen = some g) (hl : (s.entry .inlet).lease = .held)
    (hh : (s.entry .inlet).holder = some (regenWho g)) : s.regenFlowing = true := by
  unfold State.regenFlowing
  rw [hg]
  simp [State.holdsHeld, hl, hh]

theorem regenNoFlowAborts : Clauses.RegenNoFlowAborts := by
  intro s g hg hdue hl hh hr hfills hlegal honly hq purpose code hphase
  obtain ⟨f, hf⟩ : ∃ f, f = s.fault .noFlow (regenRequesterCode g) g.counted := ⟨_, rfl⟩
  have kf : s.keepsBut f [.ports, .prot] := hf ▸ s.keepsBut_fault _ _ _
  have hentry := kf.entry
  have hholds : ∀ r, f.holds (regenWho g) r = s.holds (regenWho g) r := fun r => by
    unfold State.holds State.hasHolder
    rw [hentry]
  have hrf : f.atRest := hr.frame kf
  obtain ⟨u, hu, hab⟩ := abortRegen_aborts (s := f) (g := g) hrf.1 (fun r h => honly r (hholds r ▸ h))
    (fun i => (fillAt_congr (by rw [kf.pool])).trans (hfills i)) (fun q hm => hq q.column q (kf.soft ▸ hm) rfl) hphase .noWater
  have hstarted : g.phase ≠ .starting := by
    rcases hphase with ⟨e, -⟩ | ⟨e, -⟩ <;> rw [e] <;> decide
  have hcode : phaseCode g.phase = code := by
    rcases hphase with ⟨e, -, -, rfl⟩ | ⟨e, -, -, rfl⟩ <;> rw [e] <;> rfl
  have hexec : exec .regenNoFlowTimeout s = .next u.takeHead.settle := by
    show Host.Outcome.next s.regenNoFlow = _
    unfold State.regenNoFlow
    simp only [hg, regenFlowing_eq hg hl hh, hdue, Bool.and_self, if_true]
    rw [← hf, endRegen_started (by rw [kf.soft]; exact hg) hstarted, hu]
  have htxq : ∀ y, (f.port y).txq = (s.port y).txq := fun y => by rw [hf, State.txq_fault]
  refine ⟨u, u.takeHead.settle, hexec, (hab.moved.atRest hrf hab.frame).headJudged, hab.regen, ?_, fun r hrr => ?_, ?_, ?_, ?_, ?_, ?_,
    fun v hv => ?_, fun p i sl he hsl => ?_, fun he => ?_, fun r hrr => ?_, (State.keepsBut_mono kf (by decide)).step hab.frame (by decide)⟩
  · rw [hab.queue, kf.cfg, kf.soft, kf.drive]
  · have hheld := (State.holds_iff _ _ _).mp hrr
    have hrel : (s.entry r).lease ≠ .releasing := fun e => by
      have hallows := (hlegal r).2
      rw [e] at hallows
      rcases honly r hrr with rfl | rfl | rfl <;> exact absurd hallows (by decide)
    rw [hab.freed r ((hholds r).trans hrr) (by rw [hentry]; exact hrel)]
    rfl
  · rw [hab.column, if_pos rfl, State.column_congr kf.soft]
    rfl
  · rw [hab.column, if_neg (Column.other_ne _), State.column_congr kf.soft]
  · rw [hab.log, kf.acct, kf.drive]
  · rw [hab.salt, kf.acct, kf.cfg]
  · rw [hab.saltWait, kf.acct, kf.cfg, kf.soft]
  · obtain rfl : v = f := by
      rw [hv, hf]
      congr 1
    exact ⟨hab.frame.prot, fun y k => by rw [hab.subs y]⟩
  · obtain ⟨hnone, hresp⟩ := hab.answered p i sl he (by rw [kf.pool]; exact hsl)
    refine ⟨hnone, ?_⟩
    unfold State.responds at hresp ⊢
    rw [hresp, htxq, hcode]
  · obtain ⟨hpool, hsent⟩ := hab.alone he
    exact ⟨hpool.trans kf.pool, fun y => (hsent y).trans (htxq y)⟩
  · rw [hab.moved.entries r fun hm => hrr ((by decide : [Resource.inlet, .brine, .selector] ⊆ [.selector, .brine, .inlet]) hm), hentry]

/-- Settles O32. -/
theorem noFlowEnds : Obligations.NoFlowEnds := ⟨fillNoFlowEnds, regenNoFlowAborts⟩

end Sys2Proof.Machine

/-! A regeneration that asks for a SELECTOR that another holds: REGEN_HEAD_TAKEN and SOAK_END (R62, R63, R67, R68). -/

namespace Sys2Proof.Machine

theorem entry_ask (s : State) (r : Resource) (who : Holder) (serial : Nat) (want : Option Column) (q : Resource) :
    (s.ask r who serial want).entry q = if q = r then s.edited r fun e => { e with waiters := e.waiters ++ [⟨who, serial, want, false⟩] }
      else s.entry q := by
  rw [State.ask_eq, State.entry_putEntry]

/-- Whoever asks for a SELECTOR that is leased waits, in a part at rest. -/
theorem settle_ask_selector {s : State} (hr : s.atRest) (hl : (s.entry .selector).lease ≠ .free) (who : Holder) (serial : Nat)
    (want : Option Column) : (s.ask .selector who serial want).settle = s.ask .selector who serial want := by
  have hentry := entry_ask s .selector who serial want
  have k := s.keepsBut_ask .selector who serial want
  obtain ⟨t, ht⟩ : ∃ t, t = s.ask .selector who serial want := ⟨_, rfl⟩
  rw [← ht] at hentry k ⊢
  have hother : ∀ q, q ≠ .selector → t.entry q = s.entry q := fun q hq => by rw [hentry, if_neg hq]
  have hjudge : t.judge = t := judge_same
    (by rw [k.water, hr.2, interlockMet_of (by rw [hother .circ (by decide)]) (by rw [k.sense]) (by rw [k.door]) (by rw [k.water])])
    (.inl (by rw [hother .doorDrive (by decide)]; exact (hr.1 _).1))
  refine settleFor_stays hjudge (yieldNext_none (by rw [hother .heater (by decide)]; exact (hr.1 _).2) fun n => ?_) (fun q => ?_) 128
  · rw [hother (.dose n) (fun e => by cases e)]
    exact (hr.1 _).2
  · by_cases hq : q = .selector
    · subst hq
      exact chosenWaiter_leased (by rw [hentry, if_pos rfl]; exact hl)
    · exact chosenWaiter_noWaiters (by rw [hother q hq]; exact (hr.1 q).1)

/-- A regeneration waits for a SELECTOR that is leased. -/
structure SelectorAsked (s t : State) (who : Holder) (want : Option Column) : Prop where
  waits : ∃ w, (t.entry .selector).waiters = [w] ∧ w.who = who ∧ w.want = want
  lease : (t.entry .selector).lease = (s.entry .selector).lease
  holder : (t.entry .selector).holder = (s.entry .selector).holder
  entries : s.keepsEntriesBut t [.selector]
  frame : s.keepsBut t [.arb]

theorem ask_selector_asked {s : State} (hr : s.atRest) (who : Holder) (serial : Nat) (want : Option Column) :
    SelectorAsked s (s.ask .selector who serial want) who want := by
  have hentry := entry_ask s .selector who serial want
  refine ⟨⟨⟨who, serial, want, false⟩, ?_, rfl, rfl⟩, ?_, ?_, fun q hq => ?_, s.keepsBut_ask _ _ _ _⟩
  · rw [hentry, if_pos rfl]
    show (s.entry .selector).waiters ++ _ = _
    rw [(hr.1 _).1]
    rfl
  · rw [hentry, if_pos rfl]
    rfl
  · rw [hentry, if_pos rfl]
    rfl
  · rw [hentry, if_neg (by simpa using hq)]

theorem regenHeadTaken : Clauses.RegenHeadTaken := by
  intro s q rest hq hm hg hl hr hsel
  have hready : s.headReady = true := by simp [State.headReady, hm, hg, hq, hl]
  refine ⟨fun hk ha => ⟨fun hw => ?_, fun hw => ?_⟩, fun hsalt => ?_⟩
  · exact congrArg Host.Outcome.next (by rw [State.headStays.takeHead (.inr (.inr (.inr (.inr ⟨hk, ha, hw⟩)))), hr.settle])
  · have htake : s.takeHead = ({ s with soft := { s.soft with saltWait := true } } : State).post .saltNeeded (columnCode q.column) 0 :=
      takeHead_waits hq hready (by simp [State.saltOut, hk, ha]) hw
    have k := (State.keepsBut_mono (s.keepsBut_withSoft { s.soft with saltWait := true }) (by decide : _ ⊆ [Block.soft, .ports])).step
      (State.keepsBut_post _ .saltNeeded (columnCode q.column) 0) (by decide)
    exact congrArg Host.Outcome.next (by rw [htake]; exact (hr.frame k).settle)
  · have htake : s.takeHead = s.headAsks q rest := takeHead_takes hq hready (by simpa [State.saltOut] using hsalt)
    have kh := s.keepsBut_headTaken q rest
    have hrest := hr.frame kh
    have hasked := ask_selector_asked hrest (regenWho (freshRegen q)) ((s.headTaken q rest).regenSerial (freshRegen q)) (some q.column)
    have hsettle : (s.headAsks q rest).settle = s.headAsks q rest := settle_ask_selector hrest hsel _ _ _
    refine ⟨s.headAsks q rest, freshRegen q, congrArg Host.Outcome.next (by rw [htake, hsettle]), hasked.frame.soft, rfl, rfl, rfl, hasked.waits,
      hasked.lease, hasked.holder, hasked.entries, (State.keepsBut_mono kh (by decide)).step hasked.frame (by decide)⟩

theorem soakEnds : Clauses.SoakEnds := by
  intro s g hg hph hdue hr hsel
  obtain ⟨g', hg'⟩ : ∃ g', g' = { g with phase := .rinse, judgement := s.soakJudgement g, counted := 0, pulses := 0, rinseStarted := false } :=
    ⟨_, rfl⟩
  have kh := s.keepsBut_setRegen (some g')
  have hrest := hr.frame kh
  have hwho : regenWho g' = regenWho g := hg' ▸ rfl
  have hcol : g'.column = g.column := hg' ▸ rfl
  have hasked := ask_selector_asked hrest (regenWho g) ((s.setRegen (some g')).regenSerial g') (some g.column)
  have hexec : exec .soakEnd s = .next ((s.setRegen (some g')).ask .selector (regenWho g) ((s.setRegen (some g')).regenSerial g') (some g.column)) := by
    have hend : s.endSoak g = (s.setRegen (some g')).regenAsks g' := by rw [hg']; rfl
    show Host.Outcome.next s.soakEnded = _
    unfold State.soakEnded
    simp only [hg, hph, hdue, beq_self_eq_true, Bool.and_self, if_true]
    rw [hend, State.regenAsks, hwho, hcol, settle_ask_selector hrest hsel]
  refine ⟨_, hexec, ?_, hasked.waits, hasked.entries, (State.keepsBut_mono kh (by decide)).step hasked.frame (by decide)⟩
  rw [hasked.frame.soft, hg']
  rfl

end Sys2Proof.Machine

/-! BRINE and INLET granted to a regeneration whose SELECTOR is HELD (R65, R68). -/

namespace Sys2Proof.Machine

theorem State.isRegen_true {s : State} {g : Regen} (h : s.soft.regen = some g) : s.isRegen (regenWho g) = true := by
  unfold State.isRegen
  rw [h]
  exact beq_self_eq_true _

/-- The regeneration whose INLET has been granted. -/
def Regen.flowing (g : Regen) : Regen :=
  match g.phase with
  | .brineDraw => { g with brineStarted := true, noFlow := Timer.zero }
  | .rinse => { g with rinseStarted := true, noFlow := Timer.zero }
  | .starting => g
  | .soak => g

/-- A part at rest whose regeneration has SELECTOR HELD, and may have INLET. -/
structure State.atColumn (s : State) (g : Regen) : Prop where
  rest : s.atRest
  regen : s.soft.regen = some g
  held : (s.entry .selector).lease = .held
  holder : (s.entry .selector).holder = some (regenWho g)
  inlet : (s.entry .inlet).lease = .free
  drain : s.hasHolder .drain = false
  door : s.hasHolder .doorDrive = false
  closed : s.doorClosed = true
  latched : s.latched = false

theorem State.atColumn.grantedBrine {s : State} {g : Regen} (h : s.atColumn g) : (s.grantedTo .brine (regenWho g) .held).atColumn g := by
  have k := State.keepsBut_grantedTo_quiet (s := s) (r := .brine) (l := .held) (.inr (by decide)) (regenWho g)
  have he := State.entry_grantedTo s .brine (regenWho g) .held
  have hdoor : ∀ t : State, s.keepsBut t [.arb] → t.doorClosed = s.doorClosed ∧ t.latched = s.latched := fun t kt =>
    ⟨by simp only [State.doorClosed, kt.door], by simp only [State.latched, kt.prot]⟩
  refine ⟨h.rest.grantedTo (by decide) _ _, by rw [k.soft]; exact h.regen, ?_, ?_, ?_, ?_, ?_, (hdoor _ k).1.trans h.closed,
    (hdoor _ k).2.trans h.latched⟩
  · rw [he, if_neg (by decide)]
    exact h.held
  · rw [he, if_neg (by decide)]
    exact h.holder
  · rw [he, if_neg (by decide)]
    exact h.inlet
  · rw [State.hasHolder, he, if_neg (by decide)]
    exact h.drain
  · rw [State.hasHolder, he, if_neg (by decide)]
    exact h.door

theorem inletGranted_regen {s : State} {g : Regen} (hg : s.soft.regen = some g) : s.regenInletGranted = s.setRegen (some g.flowing) := by
  have hsame : s = s.setRegen (some g) := by
    rw [← hg]
    rfl
  unfold State.regenInletGranted Regen.flowing
  cases hp : g.phase <;> simp only [hg, hp]
  case starting => exact hsame
  case soak => exact hsame

theorem settleFor_askInlet {s : State} {g : Regen} (h : s.atColumn g) (serial n : Nat) :
    (s.ask .inlet (regenWho g) serial none).settleFor (n + 1) = (s.grantedTo .inlet (regenWho g) .held).setRegen (some g.flowing) := by
  have hadmits : s.admits .inlet (regenWho g) :=
    { free := h.inlet
      guarded := fun _ => ⟨h.closed, h.door⟩
      trip := fun _ => h.latched
      inlet := fun _ => ⟨h.drain, by simp [State.holdsHeld, h.held, h.holder]⟩
      drain := fun e => by cases e
      door := fun e => by cases e }
  have k := State.keepsBut_grantedTo_quiet (s := s) (r := .inlet) (l := .held) (.inr (by decide)) (regenWho g)
  have hregen : (s.grantedTo .inlet (regenWho g) .held).soft.regen = some g := by rw [k.soft]; exact h.regen
  have howner : (s.grantedTo .inlet (regenWho g) .held).ownerGranted .inlet (regenWho g) =
      (s.grantedTo .inlet (regenWho g) .held).setRegen (some g.flowing) := by
    rw [← inletGranted_regen hregen]
    exact if_pos (State.isRegen_true hregen)
  have hrest := (h.rest.grantedTo (r := .inlet) (by decide) (regenWho g) .held).frame (State.keepsBut_setRegen _ (some g.flowing))
  rw [settleFor_ask _ _ _ h.rest hadmits, State.grantLease_ask _ _ h.rest h.inlet (by decide), if_neg (by decide), howner, hrest.settleFor]

theorem settleFor_askBrine {s : State} {g : Regen} (h : s.atColumn g) (hb : (s.entry .brine).lease = .free) (serial n : Nat) :
    (s.ask .brine (regenWho g) serial none).settleFor (n + 2) =
      ((s.grantedTo .brine (regenWho g) .held).grantedTo .inlet (regenWho g) .held).setRegen (some g.flowing) := by
  have hadmits : s.admits .brine (regenWho g) :=
    { free := hb
      guarded := fun e => by cases e
      trip := fun _ => h.latched
      inlet := fun e => by cases e
      drain := fun e => by cases e
      door := fun e => by cases e }
  have hnext := h.grantedBrine
  have howner : (s.grantedTo .brine (regenWho g) .held).ownerGranted .brine (regenWho g) = (s.grantedTo .brine (regenWho g) .held).ask .inlet
      (regenWho g) ((s.grantedTo .brine (regenWho g) .held).regenSerial g) none := by
    show (s.grantedTo .brine (regenWho g) .held).regenBrineGranted = _
    unfold State.regenBrineGranted
    rw [hnext.regen]
  rw [settleFor_ask _ _ _ h.rest hadmits, State.grantLease_ask _ _ h.rest hb (by decide), if_neg (by decide), howner, settleFor_askInlet hnext]

/-- The leases of the regeneration whose brine flows, or whose rinse flows. -/
structure PathGranted (s t : State) (g : Regen) (l : List Resource) : Prop where
  held : ∀ r ∈ l, (t.entry r).lease = .held ∧ (t.entry r).holder = some (regenWho g)
  soft : t.soft = { s.soft with regen := some g.flowing }
  position : t.arb.selHeld = s.arb.selHeld ∧ t.arb.selCurrent = s.arb.selCurrent
  entries : s.keepsEntriesBut t l
  frame : s.keepsBut t [.arb, .soft]

theorem askInlet_granted {s : State} {g : Regen} (h : s.atColumn g) (serial n : Nat) :
    PathGranted s ((s.ask .inlet (regenWho g) serial none).settleFor (n + 1)) g [.inlet] := by
  rw [settleFor_askInlet h]
  have k := State.keepsBut_grantedTo_quiet (s := s) (r := .inlet) (l := .held) (.inr (by decide)) (regenWho g)
  have he := State.entry_grantedTo s .inlet (regenWho g) .held
  have harb := State.arb_grantedTo_rest s .inlet (regenWho g) .held
  obtain ⟨t, ht⟩ : ∃ t, t = s.grantedTo .inlet (regenWho g) .held := ⟨_, rfl⟩
  rw [← ht] at k he harb ⊢
  have kt := t.keepsBut_setRegen (some g.flowing)
  refine ⟨fun r hr => ?_, ?_, harb, fun r hr => ?_, (State.keepsBut_mono k (by decide)).step kt (by decide)⟩
  · rw [List.mem_singleton] at hr
    rw [kt.entry, he, if_pos hr]
    exact ⟨rfl, rfl⟩
  · rw [← k.soft]
    rfl
  · rw [kt.entry, he, if_neg (by simpa using hr)]

theorem askBrine_granted {s : State} {g : Regen} (h : s.atColumn g) (hb : (s.entry .brine).lease = .free) (serial n : Nat) :
    PathGranted s ((s.ask .brine (regenWho g) serial none).settleFor (n + 2)) g [.brine, .inlet] := by
  have hgrant := askInlet_granted h.grantedBrine 0 0
  rw [settleFor_askInlet h.grantedBrine] at hgrant
  rw [settleFor_askBrine h hb]
  have k := State.keepsBut_grantedTo_quiet (s := s) (r := .brine) (l := .held) (.inr (by decide)) (regenWho g)
  have he := State.entry_grantedTo s .brine (regenWho g) .held
  obtain ⟨h1, h2⟩ := State.arb_grantedTo_rest s .brine (regenWho g) .held
  refine ⟨fun r hr => ?_, by rw [hgrant.soft, k.soft], ⟨hgrant.position.1.trans h1, hgrant.position.2.trans h2⟩, fun r hr => ?_,
    (State.keepsBut_mono k (by decide)).step hgrant.frame (by decide)⟩
  · by_cases hi : r = .inlet
    · exact hgrant.held r (by simp [hi])
    · have hrb : r = .brine := by simpa [hi] using hr
      rw [hgrant.entries r (by simpa using hi), he, if_pos hrb]
      exact ⟨rfl, rfl⟩
  · have hne : r ≠ .brine ∧ r ≠ .inlet := by simpa using hr
    rw [hgrant.entries r (by simpa using hne.2), he, if_neg hne.1]

end Sys2Proof.Machine

/-! The start of a regeneration and its travel (R23, R62 to R65, R68). -/

namespace Sys2Proof.Machine

theorem standbyComes_iff (s : State) (c : Column) :
    s.standbyComes c = true ↔ (s.column c).state = .inService ∧ (s.column (Column.other c)).state = .standby := by
  simp [State.standbyComes]

/-- The reports of a start, as they are posted in the part `s`. -/
theorem ports_startReported_eq (s : State) (q : QueueEntry) {u : State}
    (hu : u = s.post .regenStarted (columnCode q.column) (regenRequesterCode (freshRegen q))) :
    (s.startReported s (freshRegen q)).ports = if (s.column q.column).state = .inService ∧ (s.column (Column.other q.column)).state = .standby
      then (u.post .columnInService (columnCode (Column.other q.column)) (s.column (Column.other q.column)).remaining).ports else u.ports := by
  rw [hu, ← apply_ite State.ports]
  exact congrArg State.ports (if_congr (standbyComes_iff s q.column) rfl rfl)

theorem regenerationStarts : Clauses.RegenerationStarts := by
  intro s q rest hq hm hnone hl hv hi hclosed hsalt hfill
  have hr := hv.atRest hi
  have hready : s.headReady = true := by simp [State.headReady, hm, hnone, hq, hl]
  have htake : s.takeHead = s.headAsks q rest := takeHead_takes hq hready (by simpa [State.saltOut] using hsalt)
  obtain ⟨y, hy⟩ : ∃ y, y = s.headTaken q rest := ⟨_, rfl⟩
  have ky : s.keepsBut y [.soft] := hy ▸ s.keepsBut_headTaken q rest
  have hcol : ∀ c, y.column c = s.column c := fun c => hy ▸ s.column_headTaken q rest c
  have hyregen : y.soft.regen = some (freshRegen q) := hy ▸ rfl
  have hyqueue : y.soft.queue = rest := hy ▸ rfl
  have hexec : exec .regenHeadTaken s =
      .next (y.ask .selector (regenWho (freshRegen q)) (y.regenSerial (freshRegen q)) (some (freshRegen q).column)).settle := by
    rw [hy]
    exact congrArg (fun t : State => Host.Outcome.next t.settle) htake
  obtain ⟨z, hz, hheld, hmoving⟩ := settle_regenAsks (hr.frame ky) hyregen rfl (by rw [ky.entry]; exact (hv .selector).1)
    (.of_none (fun i => (fillAt_congr (by rw [ky.pool])).trans (hfill i)) _) (y.regenSerial (freshRegen q))
  have hcomes : y.standbyComes q.column = s.standbyComes q.column := by simp only [State.standbyComes, hcol]
  have hother : z.column (Column.other q.column) = { s.column (Column.other q.column) with
      state := if (s.column q.column).state = .inService ∧ (s.column (Column.other q.column)).state = .standby
        then .inService else (s.column (Column.other q.column)).state } := by
    rw [show z.column (Column.other q.column) = _ from hz.other, hcol]
    exact congrArg (fun x => { s.column (Column.other q.column) with state := x })
      (if_congr (Iff.trans (by rw [← hcomes]) (standbyComes_iff s q.column)) rfl rfl)
  have hports : ∀ u : State, u = s.post .regenStarted (columnCode q.column) (regenRequesterCode (freshRegen q)) →
      z.ports = if (s.column q.column).state = .inService ∧ (s.column (Column.other q.column)).state = .standby
        then (u.post .columnInService (columnCode (Column.other q.column)) (s.column (Column.other q.column)).remaining).ports else u.ports :=
    fun u hu => by
      rw [← ports_startReported_eq s q hu, hz.ports, ports_startReported (s := y) (u := s) _ ky.ports (by rw [ky.drive])]
      unfold State.startReported
      rw [show y.standbyComes (freshRegen q).column = s.standbyComes (freshRegen q).column from hcomes, hcol]
  have hcode : ∀ n, n = regenRequesterCode (freshRegen q) →
      s.post .regenStarted (columnCode q.column) n = s.post .regenStarted (columnCode q.column) (regenRequesterCode (freshRegen q)) :=
    fun n hn => by rw [hn]
  have hzentry : ∀ r, r ≠ .selector → z.entry r = s.entry r := fun r hr => by rw [hz.entries r (by simpa using hr), ky.entry]
  have hzframe : s.keepsBut z [.arb, .ports, .soft, .drive] := (State.keepsBut_mono ky (by decide)).step hz.frame (by decide)
  by_cases hc : s.arb.selCurrent = some q.column
  · have hcy : y.arb.selCurrent = some (freshRegen q).column := by rw [ky.arb]; exact hc
    obtain ⟨hcur, hdrive, hsettle⟩ := hheld hcy
    rw [if_pos hcy] at hz
    have hat : z.atColumn (freshRegen q).begun :=
      { rest := hz.rest
        regen := hz.regen
        held := by rw [hz.selector]; rfl
        holder := by rw [hz.selector]; rfl
        inlet := by rw [hzentry _ (by decide)]; exact (hv .inlet).1
        drain := by rw [State.hasHolder, hzentry _ (by decide)]; exact hv.noHolder .drain
        door := by rw [State.hasHolder, hzentry _ (by decide)]; exact hv.noHolder .doorDrive
        closed := by
          unfold State.doorClosed
          rw [hzframe.door]
          exact hclosed
        latched := by
          unfold State.latched
          rw [hzframe.prot]
          exact hl }
    have hgrant := askBrine_granted hat (by rw [hzentry _ (by decide)]; exact (hv .brine).1) (z.regenSerial (freshRegen q).begun) 125
    obtain ⟨t, ht⟩ : ∃ t, t = (z.ask .brine (regenWho (freshRegen q)) (z.regenSerial (freshRegen q).begun) none).settleFor 127 := ⟨_, rfl⟩
    rw [show (z.ask .brine (regenWho (freshRegen q).begun) (z.regenSerial (freshRegen q).begun) none).settleFor (125 + 2) = t from ht.symm] at hgrant
    rw [hsettle, ← ht] at hexec
    have hsel : t.entry .selector = z.entry .selector := hgrant.entries _ (by decide)
    have hsoft := hgrant.soft
    have hcolt : ∀ c, t.column c = z.column c := fun c => by simp only [State.column, hsoft]
    refine ⟨t, (freshRegen q).begun.flowing, hexec, by rw [hsoft]; exact hz.queue.trans hyqueue, by rw [hsoft], rfl, rfl, rfl, rfl, rfl, ?_, ?_,
      by rw [hsel]; exact hat.holder, by rw [hgrant.position.1]; exact hz.held, fun _ => ⟨by rw [hsel]; exact hat.held,
        by rw [hgrant.position.2]; exact hcur, (hgrant.held .brine (by decide)).1, (hgrant.held .brine (by decide)).2,
        (hgrant.held .inlet (by decide)).1, (hgrant.held .inlet (by decide)).2, rfl, ?_⟩, fun h => absurd hc h, fun u hu => ?_, fun r hr => ?_,
      hzframe.step hgrant.frame (by decide)⟩
    · rw [hcolt, show z.column q.column = _ from hz.column, hcol]
      rfl
    · rw [hcolt, hother]
    · rw [hgrant.frame.drive, hdrive, ky.drive]
    · rw [hgrant.frame.ports]
      exact hports u (hu.trans (hcode _ (by unfold regenRequesterCode; cases h : q.requester <;> simp [freshRegen, h])))
    · simp only [List.mem_cons, List.not_mem_nil, or_false, not_or] at hr
      rw [hgrant.entries r (by simp [hr]), hzentry r hr.1]
  · have hcy : y.arb.selCurrent ≠ some (freshRegen q).column := by rw [ky.arb]; exact hc
    obtain ⟨hcur, hdrive, hsettle⟩ := hmoving hcy
    rw [if_neg hcy] at hz
    rw [hsettle] at hexec
    refine ⟨z, (freshRegen q).begun, hexec, hz.queue.trans hyqueue, hz.regen, rfl, rfl, rfl, rfl, rfl, ?_, hother, by rw [hz.selector]; rfl,
      hz.held, fun h => absurd h hc, fun _ => ⟨by rw [hz.selector]; rfl, hcur, hzentry _ (by decide), hzentry _ (by decide), rfl, ?_⟩,
      fun u hu => hports u (hu.trans (hcode _ (by unfold regenRequesterCode; cases h : q.requester <;> simp [freshRegen, h]))), fun r hr => ?_, hzframe⟩
    · rw [show z.column q.column = _ from hz.column, hcol]
      rfl
    · rw [hdrive, ky.drive]
    · simp only [List.mem_cons, List.not_mem_nil, or_false, not_or] at hr
      exact hzentry r hr.1

end Sys2Proof.Machine

/-! SELECTOR_ARRIVAL of a regeneration's travel (R23, R65, R68). -/

namespace Sys2Proof.Machine

/-- A travel that has ended: the lease HELD at the position, and nothing else of the table. -/
structure SelectorStands (s x : State) : Prop where
  frame : s.keepsBut x [.arb, .drive]
  selector : x.entry .selector = { s.entry .selector with lease := .held, yieldRequested := false }
  entries : s.keepsEntriesBut x [.selector]
  held : x.arb.selHeld = s.arb.selHeld
  current : x.arb.selCurrent = some s.arb.selHeld
  drive : x.drive = { s.drive with travel := none, travelReading := none }

theorem arrived_stands {s : State} (hr : s.atRest) : SelectorStands s (s.arrived.editEntry .selector fun e => { e with lease := .held }) := by
  have hcondition := yieldCondition_noWaiters (g := s.cfg) (clock := s.drive.clock)
    (e := { s.entry .selector with lease := .held }) (hr.1 .selector).1
  have hedit : s.arrived.editEntry .selector (fun e => { e with lease := .held }) =
      s.arrived.putEntry .selector { s.entry .selector with lease := .held, yieldRequested := false } := by
    rw [State.editEntry_quiet (.inr (by decide))]
    exact congrArg (fun b => s.arrived.putEntry .selector { s.entry .selector with lease := .held, yieldRequested := b }) hcondition
  rw [hedit]
  refine ⟨s.keepsBut_arrived.step (State.keepsBut_putEntry _ .selector _) (by decide), ?_, fun q hq => ?_, rfl, rfl, rfl⟩
  · rw [State.entry_putEntry, if_pos rfl]
  · rw [State.entry_putEntry, if_neg (by simpa using hq)]
    rfl

theorem SelectorStands.atRest {s x : State} (h : SelectorStands s x) (hr : s.atRest) : x.atRest :=
  hr.ofEntry (r := .selector) (by decide) (fun q hq => h.entries q (by simpa using hq))
    (by rw [h.selector]; exact ⟨(hr.1 .selector).1, rfl⟩) (by rw [h.frame.sense]) (by rw [h.frame.door]) h.frame.water

theorem regenerationArrives : Clauses.RegenerationArrives := by
  intro s g hg hl hh harr hr hbrine hinlet hdrain hdoor hclosed hlatched hphase
  have hstands := arrived_stands hr
  obtain ⟨x, hx⟩ : ∃ x, x = s.arrived.editEntry .selector fun e => { e with lease := .held } := ⟨_, rfl⟩
  rw [← hx] at hstands
  have kx := hstands.frame
  have hxe : ∀ q, q ≠ .selector → x.entry q = s.entry q := fun q hq => hstands.entries q (by simpa using hq)
  have hxregen : x.soft.regen = some g := by rw [kx.soft]; exact hg
  have hat : x.atColumn g :=
    { rest := hstands.atRest hr
      regen := hxregen
      held := by rw [hstands.selector]
      holder := by rw [hstands.selector]; exact hh
      inlet := by rw [hxe _ (by decide)]; exact hinlet
      drain := by rw [State.hasHolder, hxe _ (by decide)]; exact hdrain
      door := by rw [State.hasHolder, hxe _ (by decide)]; exact hdoor
      closed := by
        unfold State.doorClosed
        rw [kx.door]
        exact hclosed
      latched := by
        unfold State.latched
        rw [kx.prot]
        exact hlatched }
  have hexec : exec .selectorArrival s = .next x.regenSelectorHeld.settle := by
    have hheld : x.selectorHeld (regenWho g) = x.regenSelectorHeld := if_pos (State.isRegen_true hxregen)
    show Host.Outcome.next s.selectorArrive = _
    rw [State.selectorArrive_eq, if_pos ⟨hl, harr⟩, hh]
    show Host.Outcome.next ((s.arrived.editEntry .selector fun e => { e with lease := .held }).selectorHeld (regenWho g)).settle = _
    rw [← hx, hheld]
  have hfinal : ∀ {l : List Resource} {t : State}, PathGranted x t g l → l ⊆ [.brine, .inlet] → .inlet ∈ l → (t.entry .selector).lease = .held ∧
      (t.entry .selector).holder = some (regenWho g) ∧ t.arb.selCurrent = some s.arb.selHeld ∧
      t.drive = { s.drive with travel := none, travelReading := none } ∧ (t.entry .inlet).lease = .held ∧
      (t.entry .inlet).holder = some (regenWho g) ∧ s.keepsEntriesBut t [.selector, .brine, .inlet] ∧ s.keepsBut t [.arb, .soft, .drive] :=
    fun {l t} h hsub hi => by
      have hsel : t.entry .selector = x.entry .selector := h.entries _ fun hm => by
        have := hsub hm
        exact absurd this (by decide)
      refine ⟨by rw [hsel]; exact hat.held, by rw [hsel]; exact hat.holder, by rw [h.position.2, hstands.current],
        by rw [h.frame.drive, hstands.drive], (h.held _ hi).1, (h.held _ hi).2, fun r hr => ?_,
        (State.keepsBut_mono kx (by decide)).step h.frame (by decide)⟩
      rw [h.entries r fun hm => hr (List.mem_cons_of_mem _ (hsub hm)), hxe r fun e => hr (e ▸ List.mem_cons_self)]
  rcases hphase with hp | hp
  · have hask : x.regenSelectorHeld = x.ask .brine (regenWho g) (x.regenSerial g) none := by
      unfold State.regenSelectorHeld
      simp only [hxregen, hp]
    have hgrant := askBrine_granted hat (by rw [hxe _ (by decide)]; exact hbrine) (x.regenSerial g) 126
    rw [hask] at hexec
    obtain ⟨h1, h2, h3, h4, h5, h6, h7, h8⟩ := hfinal hgrant (List.Subset.refl _) (by decide)
    refine ⟨_, hexec, h1, h2, h3, h4, h5, h6, fun _ => ⟨(hgrant.held .brine (by decide)).1, (hgrant.held .brine (by decide)).2, ?_⟩,
      fun e => (by rw [hp] at e; cases e), h7, h8⟩
    rw [show (x.ask .brine (regenWho g) (x.regenSerial g) none).settle.soft = _ from hgrant.soft, kx.soft]
    simp only [Regen.flowing, hp]
  · have hask : x.regenSelectorHeld = x.ask .inlet (regenWho g) (x.regenSerial g) none := by
      unfold State.regenSelectorHeld
      simp only [hxregen, hp]
    have hgrant := askInlet_granted hat (x.regenSerial g) 127
    rw [hask] at hexec
    obtain ⟨h1, h2, h3, h4, h5, h6, h7, h8⟩ := hfinal hgrant (by decide) (by decide)
    refine ⟨_, hexec, h1, h2, h3, h4, h5, h6, fun e => (by rw [hp] at e; cases e), fun _ => ⟨?_, ?_⟩, h7, h8⟩
    · rw [show (x.ask .inlet (regenWho g) (x.regenSerial g) none).settle.entry .brine = _ from hgrant.entries .brine (by decide),
        hxe _ (by decide)]
    · rw [show (x.ask .inlet (regenWho g) (x.regenSerial g) none).settle.soft = _ from hgrant.soft, kx.soft]
      simp only [Regen.flowing, hp]

end Sys2Proof.Machine

/-! The decilitres of a regeneration: the one that fills BRINE_VOLUME closes the valves and begins SOAK (R65, R66). -/

namespace Sys2Proof.Machine

/-- The regeneration after a whole decilitre. -/
def Regen.poured (g : Regen) (hardness : Nat) : Regen :=
  { g with counted := g.counted + 1, pulses := 0, noFlow := Timer.zero, lastHardness := hardness }

theorem regenWho_poured (g : Regen) (hardness : Nat) : regenWho (g.poured hardness) = regenWho g := rfl

theorem flowingFill_regen {s : State} {g : Regen} (hh : (s.entry .inlet).holder = some (regenWho g))
    (hf : ∀ p i, g.requester = some (p, i) → s.fillAt i = none) : s.flowingFill = none := by
  unfold State.flowingFill
  rw [hh]
  unfold regenWho
  cases hq : g.requester with
  | none => simp
  | some q => simp [hf q.1 q.2 hq]

/-- A pulse that completes a decilitre of the regeneration that holds INLET (R31, R65). -/
theorem exec_decilitreCounted_regen {s : State} {g : Regen} (hg : s.soft.regen = some g) (hl : (s.entry .inlet).lease = .held)
    (hh : (s.entry .inlet).holder = some (regenWho g)) (hf : ∀ p i, g.requester = some (p, i) → s.fillAt i = none)
    (hp : s.cfg.flowPulsesPerDl ≤ g.pulses + 1) : exec .decilitreCounted s = .next (s.regenDecilitre g).settle := by
  have hnone := flowingFill_regen hh hf
  have hflowing := regenFlowing_eq hg hl hh
  have hnext : s.decilitreNext = true := by
    unfold State.decilitreNext
    simp only [hnone, hg, hflowing, Bool.true_and, decide_eq_true_eq]
    exact hp
  have hpulse : s.flowPulse = s.regenDecilitre g := by
    unfold State.flowPulse
    simp only [hnone, hg, hflowing, if_true]
    exact if_pos hp
  show Host.Outcome.next (if s.decilitreNext then s.flowPulse.settle else s) = _
  rw [if_pos hnext, hpulse]

/-- What a phase does with the decilitre just counted. -/
def State.takeDecilitre (s : State) (g : Regen) : State :=
  match g.phase with
  | .brineDraw => if s.cfg.brineVolume ≤ g.counted then s.endBrineDraw g else s
  | .rinse =>
    if g.cancelPending then s.raiseTank.abortRegen g .cancelled false true
    else if s.cfg.rinseVolume ≤ g.counted then s.raiseTank.endRinse g
    else s.raiseTank.yieldPath (regenWho g) (s.raiseTank.regenSerial g)
  | .starting => s
  | .soak => s

theorem regenDecilitre_eq (s : State) (g : Regen) : s.regenDecilitre g =
    (s.setRegen (some (g.poured s.acct.hardness))).takeDecilitre (g.poured s.acct.hardness) := rfl

theorem takeDecilitre_brine {s : State} {g : Regen} (hp : g.phase = .brineDraw) : s.takeDecilitre g =
    if s.cfg.brineVolume ≤ g.counted then s.endBrineDraw g else s := by
  unfold State.takeDecilitre
  rw [hp]

theorem takeDecilitre_rinse {s : State} {g : Regen} (hp : g.phase = .rinse) (hc : g.cancelPending = false) : s.takeDecilitre g =
    if s.cfg.rinseVolume ≤ g.counted then s.raiseTank.endRinse g else s.raiseTank.yieldPath (regenWho g) (s.raiseTank.regenSerial g) := by
  unfold State.takeDecilitre
  rw [hp, hc]
  rfl

/-- What a requester of the water path holds of it, let go in the order of a phase's end. -/
theorem releaseTwo_pathLet {s : State} (who : Holder) {r q : Resource} (hr : r ∈ pathResources) (hq : q ∈ pathResources) :
    PathLet s ((s.releaseIf who r).releaseIf who q) := by
  obtain ⟨k, -⟩ := releaseIf_pathLet (s := s) who (fun _ => hr)
  obtain ⟨k', -⟩ := releaseIf_pathLet (s := s.releaseIf who r) who (fun _ => hq)
  exact k.trans k'

/-- Two leases of the water path that a requester holds, let go one after the other. -/
theorem releaseTwo_frees {s : State} {who : Holder} {r q : Resource} (hr : r ∈ pathResources) (hq : q ∈ pathResources)
    (h : ∀ x, x = r ∨ x = q → (s.entry x).lease = .held ∧ (s.entry x).holder = some who) :
    ∀ x, x = r ∨ x = q → (((s.releaseIf who r).releaseIf who q).entry x).lease = .free := by
  have hholds : ∀ x, x = r ∨ x = q → s.holds who x = true := fun x hx =>
    (State.holds_iff _ _ _).mpr ⟨by rw [(h x hx).1]; decide, (h x hx).2⟩
  have hrel : ∀ x, x = r ∨ x = q → (s.entry x).lease ≠ .releasing := fun x hx => by rw [(h x hx).1]; decide
  obtain ⟨k, hself⟩ := releaseIf_pathLet (s := s) who (r := r) (fun _ => hr)
  obtain ⟨k', hself'⟩ := releaseIf_pathLet (s := s.releaseIf who r) who (r := q) (fun _ => hq)
  have hfreed : ∀ x, (s.releaseIf who r).entry x = s.letFree x → (((s.releaseIf who r).releaseIf who q).entry x).lease = .free := fun x e => by
    rw [k'.stays (by rw [e]; rfl), e]
    rfl
  intro x hx
  rcases hx with rfl | rfl
  · exact hfreed x (hself (hholds x (.inl rfl)) (hrel x (.inl rfl)))
  · rcases k.entry x with e | ⟨-, -, e⟩
    · have hheld : (s.releaseIf who r).holds who x = true := by
        rw [State.holds_iff, e]
        exact (State.holds_iff _ _ _).mp (hholds x (.inr rfl))
      rw [hself' hheld (by rw [e]; exact hrel x (.inr rfl))]
      rfl
    · exact hfreed x e

/-- The regeneration in SOAK. -/
def Regen.soaking (g : Regen) : Regen := { g with phase := .soak, soak := Timer.zero, brineSeen := false, judgement := .none }

/-- The end of a BRINE_DRAW with no CANCEL pending (R66). -/
theorem endBrineDraw_eq {s : State} {g : Regen} (hc : g.cancelPending = false) {a b : State}
    (ha : a = (s.releaseIf (regenWho g) .inlet).releaseIf (regenWho g) .brine)
    (hb : b = a.deductSalt (a.cfg.brineVolume * a.cfg.saltPerDl)) :
    s.endBrineDraw g = ((b.appendRegenDraw .brine g.column g.counted (b.drawHardness g) .done).setRegen (some g.soaking)).releaseIf
      (regenWho g) .selector := by
  unfold State.endBrineDraw
  dsimp only
  rw [← ha, ← hb, hc, if_neg (by decide), if_neg (by decide)]
  unfold Regen.soaking
  rw [hc]

theorem brineDrawn : Clauses.BrineDrawn := by
  intro s g hg hp hil hih hbl hbh hsl hsh hf hr hpulse hcancel
  have hexec := exec_decilitreCounted_regen hg hil hih hf hpulse
  obtain ⟨g', hg'⟩ : ∃ g', g' = g.poured s.acct.hardness := ⟨_, rfl⟩
  obtain ⟨x, hx⟩ : ∃ x, x = s.setRegen (some g') := ⟨_, rfl⟩
  have kx : s.keepsBut x [.soft] := hx ▸ s.keepsBut_setRegen _
  have hwho : regenWho g' = regenWho g := hg' ▸ rfl
  have hcounted : g'.counted = g.counted + 1 := hg' ▸ rfl
  rw [regenDecilitre_eq, ← hg', ← hx, takeDecilitre_brine (hg' ▸ hp), kx.cfg, hcounted] at hexec
  refine ⟨fun hlt => ?_, fun hge => ?_⟩
  · rw [if_neg (by omega), (hr.frame kx).settle, hx, hg'] at hexec
    exact hexec
  · obtain ⟨a, ha⟩ : ∃ a, a = (x.releaseIf (regenWho g') .inlet).releaseIf (regenWho g') .brine := ⟨_, rfl⟩
    obtain ⟨b, hb⟩ : ∃ b, b = a.deductSalt (a.cfg.brineVolume * a.cfg.saltPerDl) := ⟨_, rfl⟩
    obtain ⟨c, hc⟩ : ∃ c, c = b.appendRegenDraw .brine g'.column g'.counted (b.drawHardness g') .done := ⟨_, rfl⟩
    obtain ⟨d, hd⟩ : ∃ d, d = c.setRegen (some g'.soaking) := ⟨_, rfl⟩
    rw [if_pos hge, endBrineDraw_eq (hg' ▸ hcancel) ha hb, ← hc, ← hd, hwho] at hexec
    have ka : PathLet x a := ha ▸ releaseTwo_pathLet _ (by decide) (by decide)
    have hafree : ∀ r, r = .inlet ∨ r = .brine → (a.entry r).lease = .free := by
      rw [ha, hwho]
      refine releaseTwo_frees (by decide) (by decide) fun r hr => ?_
      rw [kx.entry]
      rcases hr with rfl | rfl
      · exact ⟨hil, hih⟩
      · exact ⟨hbl, hbh⟩
    have kb : a.keepsBut b [.acct, .soft] := hb ▸ a.keepsBut_deductSalt _
    have kc : b.keepsBut c [.acct] := hc ▸ b.keepsBut_appendRegenDraw _ _ _ _ _
    have kd : c.keepsBut d [.soft] := hd ▸ c.keepsBut_setRegen _
    have kad : a.keepsBut d [.acct, .soft] := (kb.step kc (by decide)).step kd (by decide)
    have hrd : d.atRest := (ka.atRest (hr.frame kx)).frame kad
    obtain ⟨ke, hsel⟩ := releaseIf_pathLet (s := d) (regenWho g) (r := .selector) (fun _ => by decide)
    obtain ⟨t, ht⟩ : ∃ t, t = d.releaseIf (regenWho g) .selector := ⟨_, rfl⟩
    rw [← ht] at hexec ke hsel
    rw [(ke.atRest hrd).settle] at hexec
    have hde := kad.entry
    have hstays : ∀ r, (a.entry r).lease = .free → (t.entry r).lease = .free := fun r h => by
      rw [ke.stays (by rw [hde]; exact h), hde, h]
    have hselFree : (t.entry .selector).lease = .free := by
      rcases ka.entry .selector with e | ⟨-, -, e⟩
      · have hds : d.entry .selector = s.entry .selector := by rw [hde, e, kx.entry]
        rw [hsel ((State.holds_iff _ _ _).mpr (by rw [hds, hsl]; exact ⟨by decide, hsh⟩)) (by rw [hds, hsl]; decide)]
        rfl
      · exact hstays _ (by rw [e]; rfl)
    have hsoft : t.soft = d.soft := ke.frame.soft
    have hacct : t.acct = c.acct := by rw [ke.frame.acct, kd.acct]
    have hasalt : a.acct = s.acct := by rw [ka.frame.acct, kx.acct]
    have hacfg : a.cfg = s.cfg := by rw [ka.frame.cfg, kx.cfg]
    have hclock : b.drive.clock = s.drive.clock := by rw [kb.drive, ka.clock, kx.drive]
    obtain ⟨hlog, hsalt⟩ := b.acct_appendRegenDraw .brine g'.column g'.counted (b.drawHardness g') .done
    rw [← hc] at hlog hsalt
    have hbsalt : b.acct.salt = if s.acct.salt.known = true then { s.acct.salt with
        amount := s.acct.salt.amount - s.cfg.brineVolume * s.cfg.saltPerDl } else s.acct.salt := by
      rw [hb, deductSalt_eq, hasalt, hacfg]
    have hcols : d.soft.colA = s.soft.colA ∧ d.soft.colB = s.soft.colB ∧ d.soft.queue = s.soft.queue := by
      rw [hd]
      show c.soft.colA = _ ∧ c.soft.colB = _ ∧ c.soft.queue = _
      rw [kc.soft, hb, deductSalt_eq]
      show a.soft.colA = _ ∧ a.soft.colB = _ ∧ a.soft.queue = _
      rw [ka.frame.soft, hx]
      exact ⟨rfl, rfl, rfl⟩
    have hdraw : b.drawHardness g' = s.acct.hardness := by
      have hlast : g'.lastHardness = s.acct.hardness := hg' ▸ rfl
      rw [State.drawHardness, if_neg (by omega), hlast]
    have hnext : b.acct.nextDraw = s.acct.nextDraw := by
      rw [hb, deductSalt_eq, hasalt]
    refine ⟨t, hexec, hstays _ (hafree _ (.inl rfl)), hstays _ (hafree _ (.inr rfl)), hselFree, fun hk => ?_, fun hk => ?_, ?_,
      ⟨g'.soaking, by rw [hsoft, hd]; rfl, rfl, rfl, rfl, hg' ▸ rfl, hg' ▸ rfl⟩, by rw [hsoft]; exact hcols.1, by rw [hsoft]; exact hcols.2.1,
      by rw [hsoft]; exact hcols.2.2, fun r hr => ?_, ?_⟩
    · rw [hacct, hsalt, hbsalt, if_pos hk]
    · rw [hacct, hsalt, hbsalt, if_neg (by rw [hk]; decide)]
    · rw [hacct, hlog, hnext, hdraw, hclock, hcounted, show g'.column = g.column from hg' ▸ rfl]
    · have hpath : r ∉ [Resource.inlet, .brine, .selector] := fun hm =>
        hr ((by decide : [Resource.inlet, .brine, .selector] ⊆ [.selector, .brine, .inlet]) hm)
      rw [ke.entries r hpath, hde, ka.entries r hpath, kx.entry]
    · exact (((State.keepsBut_mono kx (by decide)).step ka.frame (by decide)).step kad (by decide)).step ke.frame (by decide)

end Sys2Proof.Machine

/-! The decilitre that fills RINSE_VOLUME: the column is restored and the queue judged for its next head (R68, R69). Settles O31. -/

namespace Sys2Proof.Machine

/-- The record of a restored column. -/
def State.restoredRec (s : State) (g : Regen) : ColumnRec :=
  { state := if s.inService.isNone then .inService else .standby, remaining := s.restoredCapacity g,
    count := wordSucc (s.column g.column).count, last := if g.judgement = .weak then .weak else .full, breakthrough := none }

/-- The column restored, and the regeneration gone. -/
def State.softRestored (s : State) (g : Regen) : State := (s.setColumn g.column (s.restoredRec g)).setRegen none

theorem State.keepsBut_softRestored (s : State) (g : Regen) : s.keepsBut (s.softRestored g) [.soft] :=
  (s.keepsBut_setColumn _ _).step (State.keepsBut_setRegen _ _) (List.Subset.refl _)

theorem column_softRestored (s : State) (g : Regen) (c : Column) :
    (s.softRestored g).column c = if c = g.column then s.restoredRec g else s.column c := by
  rw [State.softRestored, State.column_setRegen, State.column_setColumn]

theorem soft_softRestored (s : State) (g : Regen) : (s.softRestored g).soft.regen = none ∧ (s.softRestored g).soft.queue = s.soft.queue ∧
    (s.softRestored g).soft.saltWait = s.soft.saltWait := by
  unfold State.softRestored
  cases g.column <;> exact ⟨rfl, rfl, rfl⟩

/-- The reports of a restored column, posted in `t` (R69). -/
def State.endReported (s t : State) (g : Regen) : State :=
  if s.inService.isNone then (t.post .regenEnded (columnCode g.column) (judgementCode g.judgement)).post .columnInService
    (columnCode g.column) (s.restoredCapacity g)
  else t.post .regenEnded (columnCode g.column) (judgementCode g.judgement)

theorem State.keepsBut_endReported (s t : State) (g : Regen) : t.keepsBut (s.endReported t g) [.ports] := by
  unfold State.endReported
  split
  · exact (t.keepsBut_post _ _ _).step (State.keepsBut_post _ _ _ _) (List.Subset.refl _)
  · exact t.keepsBut_post _ _ _

theorem ports_endReported (s : State) {t u : State} (g : Regen) (hp : t.ports = u.ports) (hc : t.drive.clock = u.drive.clock) :
    (s.endReported t g).ports = (s.endReported u g).ports := by
  have hfirst := State.ports_post_clock hp hc .regenEnded (columnCode g.column) (judgementCode g.judgement)
  unfold State.endReported
  split
  · exact State.ports_post_clock hfirst (by rw [(t.keepsBut_post _ _ _).drive, (u.keepsBut_post _ _ _).drive, hc]) _ _ _
  · exact hfirst

/-- The end of a RINSE (R69). -/
theorem endRinse_eq {s : State} {g : Regen} {a b e : State} (ha : a = (s.releaseIf (regenWho g) .inlet).releaseIf (regenWho g) .selector)
    (hw : a.withdraw (regenWho g) = a) (hb : b = a.appendRegenDraw .rinse g.column g.counted (a.drawHardness g) .done)
    (he : e = b.endReported (b.softRestored g) g) : s.endRinse g = ((e.answerRegen g .done
      (byte1 (judgementCode g.judgement) ++ byte2 (b.restoredRec g).remaining ++ byte2 (b.restoredRec g).count) true).judgeFills none).takeHead := by
  obtain ⟨c, hc⟩ : ∃ c, c = b.softRestored g := ⟨_, rfl⟩
  have hrestored : (b.restoreColumn g).setRegen none = c := by
    rw [hc]
    rfl
  have hcol : c.column g.column = b.restoredRec g := by rw [hc, column_softRestored, if_pos rfl]
  have hpost : (c.post .regenEnded (columnCode g.column) (judgementCode g.judgement)).postInService g.column b.inService.isNone = e := by
    have kp := c.keepsBut_post .regenEnded (columnCode g.column) (judgementCode g.judgement)
    unfold State.postInService
    rw [he, ← hc, State.column_congr kp.soft, hcol]
    rfl
  have hecol : e.column g.column = b.restoredRec g := by
    rw [he, ← hc, State.column_congr (b.keepsBut_endReported c g).soft, hcol]
  unfold State.endRinse
  dsimp only
  rw [← ha, hw, ← hb]
  rw [hrestored, hpost, hecol]

theorem State.calm.yieldPath {s : State} (h : s.calm) (who : Holder) (serial : Nat) : s.yieldPath who serial = s := by
  unfold State.yieldPath
  simp [(h .selector).2, (h .inlet).2]

/-- What a regeneration that ends its RINSE leaves, before the queue is judged for its next head. -/
structure RegenRestored (s u : State) (g : Regen) : Prop where
  path : PathMoved s u
  free : ∀ r, r = .inlet ∨ r = .selector → (u.entry r).lease = .free
  entries : s.keepsEntriesBut u [.selector, .inlet]
  column : ∀ c, u.column c = if c = g.column then s.restoredRec g else s.column c
  soft : u.soft.regen = none ∧ u.soft.queue = s.soft.queue ∧ u.soft.saltWait = s.soft.saltWait
  salt : u.acct.salt = s.acct.salt
  log : u.acct.log.getLast? = some ⟨s.acct.nextDraw, .rinse, if g.column = .a then g.counted else 0,
    if g.column = .b then g.counted else 0, 0, s.drawHardness g, .done, s.drive.clock⟩
  subs : ∀ y, (u.port y).subs = ((s.endReported s g).port y).subs
  answered : ∀ p i sl, g.requester = some (p, i) → s.pool[i] = some sl → u.pool[i] = none ∧
    s.responds u sl.port [opResponse sl.tag .done
      (byte1 (judgementCode g.judgement) ++ byte2 (s.restoredRec g).remaining ++ byte2 (s.restoredRec g).count)]
  alone : g.requester = none → u.pool = s.pool ∧ ∀ y, (u.port y).txq = (s.port y).txq
  frame : s.keepsBut u [.arb, .pool, .ports, .soft, .acct, .drive]

theorem txq_endReported (s t : State) (g : Regen) (y : Port) : ((s.endReported t g).port y).txq = (t.port y).txq := by
  unfold State.endReported
  split
  · rw [State.txq_post, State.txq_post]
  · rw [State.txq_post]

/-- INLET let go, and then SELECTOR. -/
theorem releaseInletSelector_entries {s : State} {who : Holder}
    (hh : ∀ r, r = .inlet ∨ r = .selector → (s.entry r).lease = .held ∧ (s.entry r).holder = some who) :
    s.keepsEntriesBut ((s.releaseIf who .inlet).releaseIf who .selector) [.selector, .inlet] := by
  obtain ⟨hil, hih⟩ := hh .inlet (.inl rfl)
  obtain ⟨hsl, hsh⟩ := hh .selector (.inr rfl)
  have hfrees : s.freesAtOnce .inlet := ⟨.inr ⟨hil, by decide, by decide⟩, fun e => by cases e⟩
  have h1 : s.releaseIf who .inlet = s.release .inlet :=
    State.releaseIf_holds ((State.holds_iff _ _ _).mpr ⟨by rw [hil]; decide, hih⟩)
  have he := State.entry_release hfrees
  have hsel : (s.release .inlet).entry .selector = s.entry .selector := by rw [he, if_neg (by decide)]
  have hfrees' : (s.release .inlet).freesAtOnce .selector :=
    ⟨.inr ⟨by rw [hsel, hsl], by decide, by decide⟩, fun _ ⟨h, _⟩ => by
      rw [State.hasHolder, he, if_pos rfl] at h
      exact absurd h (by simp [State.letFree])⟩
  have h2 : (s.release .inlet).releaseIf who .selector = (s.release .inlet).release .selector :=
    State.releaseIf_holds ((State.holds_iff _ _ _).mpr ⟨by rw [hsel, hsl]; decide, by rw [hsel, hsh]⟩)
  rw [h1, h2]
  exact (State.keepsEntriesBut_mono (State.keepsEntriesBut_release hfrees) (by decide)).step
    (State.keepsEntriesBut_release hfrees') (by decide)

theorem endRinse_restores {s : State} {g : Regen} (hr : s.calm)
    (hh : ∀ r, r = .inlet ∨ r = .selector → (s.entry r).lease = .held ∧ (s.entry r).holder = some (regenWho g))
    (hfills : ∀ i, s.fillAt i = none) : ∃ u, s.endRinse g = u.takeHead ∧ RegenRestored s u g := by
  obtain ⟨a, ha⟩ : ∃ a, a = (s.releaseIf (regenWho g) .inlet).releaseIf (regenWho g) .selector := ⟨_, rfl⟩
  have ka : PathLet s a := ha ▸ releaseTwo_pathLet _ (by decide) (by decide)
  have hafree : ∀ r, r = .inlet ∨ r = .selector → (a.entry r).lease = .free := ha ▸ releaseTwo_frees (by decide) (by decide) hh
  have hw : a.withdraw (regenWho g) = a := (ka.calm hr).withdraw _
  obtain ⟨b, hb⟩ : ∃ b, b = a.appendRegenDraw .rinse g.column g.counted (a.drawHardness g) .done := ⟨_, rfl⟩
  obtain ⟨e, he⟩ : ∃ e, e = b.endReported (b.softRestored g) g := ⟨_, rfl⟩
  have heq := endRinse_eq ha hw hb he
  have kb : a.keepsBut b [.acct] := hb ▸ a.keepsBut_appendRegenDraw _ _ _ _ _
  have kc := b.keepsBut_softRestored g
  have ke := b.keepsBut_endReported (b.softRestored g) g
  rw [← he] at ke
  have kse : s.keepsBut e [.arb, .drive, .acct, .soft, .ports] :=
    (((State.keepsBut_mono ka.frame (by decide)).step kb (by decide)).step kc (by decide)).step ke (by decide)
  have hans := answerRegen_answers e g .done
    (byte1 (judgementCode g.judgement) ++ byte2 (b.restoredRec g).remaining ++ byte2 (b.restoredRec g).count)
  obtain ⟨u, hu⟩ : ∃ u, u = e.answerRegen g .done
    (byte1 (judgementCode g.judgement) ++ byte2 (b.restoredRec g).remaining ++ byte2 (b.restoredRec g).count) true := ⟨_, rfl⟩
  rw [← hu] at heq hans
  rw [judgeFills_none (hans.fills fun i => (fillAt_congr (by rw [kse.pool])).trans (hfills i)) none] at heq
  have hbsoft : b.soft = s.soft := by rw [kb.soft, ka.frame.soft]
  have hbcfg : b.cfg = s.cfg := by rw [kb.cfg, ka.frame.cfg]
  have hbcol : ∀ c, b.column c = s.column c := fun c => State.column_congr hbsoft c
  have hbserve : b.inService = s.inService := by simp only [State.inService, hbsoft]
  have hbcap : b.restoredCapacity g = s.restoredCapacity g := by
    unfold State.restoredCapacity State.rated
    rw [hbcfg]
  have hbrec : b.restoredRec g = s.restoredRec g := by
    unfold State.restoredRec
    rw [hbserve, hbcap, hbcol]
  have harb : u.arb = a.arb := by rw [hans.frame.arb, ke.arb, kc.arb, kb.arb]
  have hdrive : u.drive = a.drive := by rw [hans.frame.drive, ke.drive, kc.drive, kb.drive]
  have hsoft : u.soft = (b.softRestored g).soft := by rw [hans.frame.soft, ke.soft]
  have hacct : u.acct = b.acct := by rw [hans.frame.acct, ke.acct, kc.acct]
  have hentry : ∀ r, u.entry r = a.entry r := State.entry_congr (congrArg Arbiter.table harb)
  have hpb : (b.softRestored g).ports = s.ports := by rw [kc.ports, kb.ports, ka.frame.ports]
  have hports : e.ports = (s.endReported s g).ports := by
    rw [he, ports_endReported b (u := s) g hpb (by rw [kc.drive, kb.drive, ka.clock])]
    unfold State.endReported
    rw [hbserve, hbcap]
  have htxq : ∀ y, (e.port y).txq = (s.port y).txq := fun y => by rw [State.port_congr hports, txq_endReported]
  obtain ⟨hlog, hsalt⟩ := a.acct_appendRegenDraw .rinse g.column g.counted (a.drawHardness g) .done
  rw [← hb] at hlog hsalt
  obtain ⟨h1, h2, h3⟩ := soft_softRestored b g
  refine ⟨u, heq, ka.moved.congr rfl rfl harb hdrive, fun r hr => by rw [hentry]; exact hafree r hr, fun r hr => ?_, fun c => ?_,
    ⟨by rw [hsoft, h1], by rw [hsoft, h2, hbsoft], by rw [hsoft, h3, hbsoft]⟩, ?_, ?_, fun y => ?_, fun p i sl hg hsl => ?_, fun hg => ?_,
    (State.keepsBut_mono kse (by decide)).step hans.frame (by decide)⟩
  · rw [hentry, ha]
    exact releaseInletSelector_entries hh r hr
  · rw [State.column_congr hsoft, column_softRestored, hbrec, hbcol]
  · rw [hacct, hsalt, ka.frame.acct]
  · rw [hacct, hlog, ka.frame.acct, ka.clock]
    unfold State.drawHardness
    rw [ka.frame.acct]
  · rw [hans.subs, State.port_congr hports]
  · obtain ⟨hnone, hresp⟩ := hans.answered p i sl hg (by rw [kse.pool]; exact hsl)
    refine ⟨hnone, ?_⟩
    unfold State.responds at hresp ⊢
    rw [hresp, htxq, hbrec]
  · rw [hans.alone hg]
    exact ⟨kse.pool, htxq⟩

theorem rinseRestores : Clauses.RinseRestores := by
  intro s g hg hp hil hih hsl hsh hfills hr hpulse hcancel
  have hexec := exec_decilitreCounted_regen hg hil hih (fun _ i _ => hfills i) hpulse
  obtain ⟨g', hg'⟩ : ∃ g', g' = g.poured s.acct.hardness := ⟨_, rfl⟩
  obtain ⟨x, hx⟩ : ∃ x, x = (s.setRegen (some g')).raiseTank := ⟨_, rfl⟩
  have kx : s.keepsBut x [.soft, .water] := hx ▸ (State.keepsBut_mono (s.keepsBut_setRegen _) (by decide)).step
    (State.keepsBut_setTank _ _ _) (by decide)
  have hxwater : x.water = { s.water with tank := min 255 (s.water.tank + 1) } := hx ▸ rfl
  have hrx : x.atRest := by
    rw [hx]
    exact ⟨hr.1, hr.2.trans (interlockMet_of rfl rfl rfl rfl).symm⟩
  have hwho : regenWho g' = regenWho g := hg' ▸ rfl
  have hcounted : g'.counted = g.counted + 1 := hg' ▸ rfl
  rw [regenDecilitre_eq, ← hg', takeDecilitre_rinse (hg' ▸ hp) (hg' ▸ hcancel), ← hx, hcounted,
    show (s.setRegen (some g')).cfg = s.cfg from rfl] at hexec
  refine ⟨fun hlt => ?_, fun hge r hrec => ?_⟩
  · rw [if_neg (by omega), hrx.1.yieldPath, hrx.settle, hx, hg'] at hexec
    exact hexec
  · rw [if_pos hge] at hexec
    obtain ⟨u, hu, hres⟩ := endRinse_restores (g := g') hrx.1 (fun r hr => by
      rw [kx.entry, hwho]
      rcases hr with rfl | rfl
      · exact ⟨hil, hih⟩
      · exact ⟨hsl, hsh⟩) fun i => (fillAt_congr (by rw [kx.pool])).trans (hfills i)
    rw [hu] at hexec
    have hxcol : ∀ c, x.column c = s.column c := fun c => by
      rw [hx]
      cases c <;> rfl
    have hxserve : x.inService = s.inService := by
      rw [hx]
      rfl
    have hxrec : x.restoredRec g' = r := by
      have hcap : x.restoredCapacity g' = s.restoredCapacity g := by
        rw [hx, hg']
        rfl
      rw [hrec]
      unfold State.restoredRec
      rw [hcap, hxserve, hxcol, hg']
      simp only [Option.isNone_iff_eq_none]
      rfl
    have hjudge : g'.judgement = g.judgement := hg' ▸ rfl
    have hcol' : g'.column = g.column := hg' ▸ rfl
    have hcap : x.restoredCapacity g' = r.remaining := by rw [← hxrec]; rfl
    have hports : x.ports = s.ports := kx.ports
    refine ⟨u, u.takeHead.settle, hexec, (hres.path.atRest hrx hres.frame).headJudged, hres.soft.1, ?_, ?_, ?_, ?_, hres.free _ (.inl rfl),
      hres.free _ (.inr rfl), hres.frame.water.trans hxwater, by rw [hres.salt, kx.acct], ?_, fun v hv y k => ?_, fun p i sl he hs => ?_,
      fun he => ?_, fun q hq => by rw [hres.entries q hq, kx.entry], (State.keepsBut_mono kx (by decide)).step hres.frame (by decide)⟩
    · rw [hres.column, hcol', if_pos rfl, hxrec]
    · rw [hres.column, hcol', if_neg (Column.other_ne _), hxcol]
    · rw [hres.soft.2.1, hx]
      rfl
    · rw [hres.soft.2.2, hx]
      rfl
    · have hdraw : x.drawHardness g' = s.acct.hardness := by
        have hlast : g'.lastHardness = s.acct.hardness := hg' ▸ rfl
        rw [State.drawHardness, if_neg (by omega), hlast]
      rw [hres.log, hdraw, kx.acct, kx.drive, hcounted, hcol']
    · rw [hres.subs y]
      have hpost : (x.endReported x g').ports = ((if s.inService = none then v.post .columnInService (columnCode g.column) r.remaining
          else v).ports) := by
        rw [ports_endReported x (u := s) g' hports (by rw [kx.drive])]
        unfold State.endReported
        rw [hcap, hxserve, hcol', hjudge, ← hv]
        simp only [Option.isNone_iff_eq_none]
      rw [State.port_congr hpost]
    · obtain ⟨hnone, hresp⟩ := hres.answered p i sl ((hg' ▸ rfl : g'.requester = g.requester).trans he) (by rw [kx.pool]; exact hs)
      refine ⟨hnone, ?_⟩
      unfold State.responds at hresp ⊢
      rw [hresp, State.port_congr hports, hxrec, hjudge]
    · obtain ⟨hpool, hsent⟩ := hres.alone ((hg' ▸ rfl : g'.requester = g.requester).trans he)
      exact ⟨hpool.trans kx.pool, fun y => (hsent y).trans (by rw [State.port_congr hports])⟩

/-- Settles O31. -/
theorem regenerationProceeds : Obligations.RegenerationProceeds :=
  ⟨regenHeadTaken, regenerationStarts, regenerationArrives, brineDrawn, soakEnds, rinseRestores⟩

end Sys2Proof.Machine

/-! What an owner's work leaves of the ports where no operation ends, and the blocks that the work of the water path touches. -/

namespace Sys2Proof.Machine

/-! ### The blocks of a FILL's work -/

theorem State.keepsBut_takeHead (s : State) : s.keepsBut s.takeHead [.arb, .soft, .ports] := by
  unfold State.takeHead
  split
  · exact s.keepsBut_refl _
  · refine .ite _ (.ite _ (.ite _ (s.keepsBut_refl _) ?_) ?_) (s.keepsBut_refl _)
    · exact (State.keepsBut_mono (s.keepsBut_withSoft _) (by decide)).step (State.keepsBut_post _ _ _ _) (by decide)
    · exact (State.keepsBut_mono ((s.keepsBut_setQueue _).step (State.keepsBut_setRegen _ _) (List.Subset.refl _)) (by decide)).step
        (State.keepsBut_ask _ _ _ _ _) (by decide)

theorem State.keepsBut_changePosition (s : State) (c : Column) : s.keepsBut (s.changePosition c) [.arb, .drive, .sense] := by
  unfold State.changePosition
  refine .ite _ (s.keepsBut_refl _) (.ite _ (State.keepsBut_mono (s.keepsBut_withArb _) (by decide)) ?_)
  exact (State.keepsBut_mono (s.keepsBut_startTravel c) (by decide)).step (State.keepsBut_editEntry _ _ _) (by decide)

theorem State.keepsBut_toInlet (s : State) (who : Holder) (serial : Nat) (c : Column) :
    s.keepsBut (s.toInlet who serial c) [.arb, .drive, .sense] :=
  State.keepsBut.ite _ ((s.keepsBut_changePosition c).step (State.keepsBut_ask _ _ _ _ _) (by decide)) (s.keepsBut_changePosition c)

theorem State.keepsBut_enterWaitSoft (s : State) (i : SlotId) : s.keepsBut (s.enterWaitSoft i) [.arb, .drive, .sense, .door, .pool] := by
  unfold State.enterWaitSoft
  split
  · exact (((State.keepsBut_mono (s.keepsBut_withdraw _) (by decide)).step (State.keepsBut_releaseIf _ _ _) (by decide)).step
      (State.keepsBut_releaseIf _ _ _) (by decide)).step (State.keepsBut_setWork _ _ _) (by decide)
  · exact s.keepsBut_refl _

theorem State.keepsBut_fillAsks (s : State) (i : SlotId) : s.keepsBut (s.fillAsks i) [.arb, .pool] := by
  unfold State.fillAsks
  split
  · dsimp only
    split
    · exact (State.keepsBut_mono (s.keepsBut_setWork _ _) (by decide)).step (State.keepsBut_ask _ _ _ _ _) (by decide)
    · exact State.keepsBut_mono (s.keepsBut_setWork _ _) (by decide)
  · exact s.keepsBut_refl _

theorem State.keepsBut_judgeFill (s : State) (i : SlotId) : s.keepsBut (s.judgeFill i) [.arb, .drive, .sense, .door, .pool] := by
  unfold State.judgeFill
  split
  · exact s.keepsBut_refl _
  · dsimp only
    refine .ite _ (.ite _ (State.keepsBut_mono (s.keepsBut_fillAsks i) (by decide)) (s.keepsBut_refl _)) (.ite _ ?_ (.ite _ ?_ (s.keepsBut_refl _)))
    · split
      · exact State.keepsBut_mono (s.keepsBut_putEntry _ _) (by decide)
      · exact s.keepsBut_enterWaitSoft i
    · split
      · exact s.keepsBut_enterWaitSoft i
      · exact .ite _ (s.keepsBut_refl _) ((State.keepsBut_mono (s.keepsBut_withdraw _) (by decide)).step (State.keepsBut_toInlet _ _ _ _) (by decide))

theorem State.keepsBut_judgeFills (s : State) (but : Option SlotId) : s.keepsBut (s.judgeFills but) [.arb, .drive, .sense, .door, .pool] :=
  State.keepsBut.foldl _ (fun t i => State.keepsBut.ite _ (t.keepsBut_refl _) (t.keepsBut_judgeFill i)) _ (s.keepsBut_refl _)

theorem State.keepsBut_joinTail (s : State) (c : Column) : s.keepsBut (s.joinTail c) [.soft] :=
  State.keepsBut.ite _ (s.keepsBut_refl _) (s.keepsBut_setQueue _)

theorem State.keepsBut_standbyIn (s : State) (c : Column) : s.keepsBut (s.standbyIn c).1 [.soft] := by
  unfold State.standbyIn
  split
  · exact s.keepsBut_setColumn _ _
  · exact s.keepsBut_refl _

theorem State.keepsBut_postInService (s : State) (c : Column) (came : Bool) : s.keepsBut (s.postInService c came) [.ports] :=
  State.keepsBut.ite _ (s.keepsBut_post _ _ _) (s.keepsBut_refl _)

/-- A column that is exhausted, before the fill positions are judged (R55, R56). -/
def State.columnOut (s : State) (c : Column) (value : Nat) : State :=
  let s := s.setColumn c { s.column c with state := .exhausted, remaining := 0, breakthrough := none }
  let s := if s.cfg.autoRegen then s.joinTail c else s
  ((s.standbyIn (Column.other c)).1.post .columnExhausted (columnCode c) value).postInService (Column.other c) (s.standbyIn (Column.other c)).2

theorem exhaustColumn_eq (s : State) (c : Column) (value : Nat) (but : Option SlotId) :
    s.exhaustColumn c value but = ((s.columnOut c value).judgeFills but).takeHead := rfl

theorem State.keepsBut_columnOut (s : State) (c : Column) (value : Nat) : s.keepsBut (s.columnOut c value) [.soft, .ports] :=
  ((((State.keepsBut_mono (s.keepsBut_setColumn _ _) (by decide)).step (State.keepsBut.ite _ (State.keepsBut_joinTail _ _) (State.keepsBut_refl _ _))
    (by decide)).step (State.keepsBut_standbyIn _ _) (by decide)).step (State.keepsBut_post _ _ _ _) (by decide)).step
    (State.keepsBut_postInService _ _ _) (by decide)

theorem State.keepsBut_exhaustColumn (s : State) (c : Column) (value : Nat) (but : Option SlotId) :
    s.keepsBut (s.exhaustColumn c value but) [.arb, .drive, .sense, .door, .pool, .soft, .ports] := by
  rw [exhaustColumn_eq]
  exact ((State.keepsBut_mono (s.keepsBut_columnOut c value) (by decide)).step (State.keepsBut_judgeFills _ _) (by decide)).step
    (State.keepsBut_takeHead _) (by decide)

theorem State.keepsBut_takeBreakthrough (s : State) (i : SlotId) :
    s.keepsBut (s.takeBreakthrough i) [.arb, .drive, .sense, .door, .pool, .soft, .ports] :=
  have h (t : State) (c : Column) := State.keepsBut.ite (t.soft.colB.breakthrough = some i) (t.keepsBut_exhaustColumn c 1 none) (t.keepsBut_refl _)
  (State.keepsBut.ite _ (s.keepsBut_exhaustColumn _ _ _) (s.keepsBut_refl _)).step (h _ .b) (List.Subset.refl _)

/-! ### The slots that stand -/

/-- No slot has been freed. -/
def SlotsStand (s t : State) : Prop := ∀ i : SlotId, t.pool[i] = none → s.pool[i] = none

theorem SlotsStand.refl (s : State) : SlotsStand s s := fun _ => id

theorem SlotsStand.trans {s t u : State} (h : SlotsStand s t) (k : SlotsStand t u) : SlotsStand s u := fun i e => h i (k i e)

theorem SlotsStand.ite {s t u : State} (p : Prop) [Decidable p] (h : SlotsStand s t) (k : SlotsStand s u) : SlotsStand s (if p then t else u) := by
  split
  · exact h
  · exact k

theorem State.keepsBut.stands {s t : State} {l : List Block} (h : s.keepsBut t l) (hb : Block.pool ∉ l := by decide) : SlotsStand s t :=
  fun i e => by rwa [h.pool hb] at e

theorem SlotsStand.setSlot (s : State) (i : SlotId) (sl : Slot) : SlotsStand s (s.setSlot i (some sl)) := fun j e => by
  by_cases h : j = i
  · subst h
    rw [State.pool_setSlot_self] at e
    cases e
  · rwa [State.pool_setSlot_ne _ h] at e

theorem SlotsStand.setWork (s : State) (i : SlotId) (w : Work) : SlotsStand s (s.setWork i w) := by
  unfold State.setWork
  split
  · exact .setSlot _ _ _
  · exact .refl s

theorem SlotsStand.fixOutcome (s : State) (i : SlotId) (o : OutcomeCode) : SlotsStand s (s.fixOutcome i o) := by
  unfold State.fixOutcome
  split
  · exact .setSlot _ _ _
  · exact .refl s

theorem SlotsStand.foldl {α : Type} (f : State → α → State) (hf : ∀ s x, SlotsStand s (f s x)) : ∀ (l : List α) (s : State), SlotsStand s (l.foldl f s)
  | [], s => .refl s
  | x :: l, s => (hf s x).trans (SlotsStand.foldl f hf l (f s x))

theorem SlotsStand.enterWaitSoft (s : State) (i : SlotId) : SlotsStand s (s.enterWaitSoft i) := by
  unfold State.enterWaitSoft
  split
  · exact (((s.keepsBut_withdraw _).stands.trans (State.keepsBut_releaseIf _ _ _).stands).trans (State.keepsBut_releaseIf _ _ _).stands).trans
      (.setWork _ _ _)
  · exact .refl s

theorem SlotsStand.fillAsks (s : State) (i : SlotId) : SlotsStand s (s.fillAsks i) := by
  unfold State.fillAsks
  split
  · dsimp only
    split
    · exact (SlotsStand.setWork s i _).trans (State.keepsBut_ask _ _ _ _ _).stands
    · exact .setWork s i _
  · exact .refl s

theorem SlotsStand.judgeFill (s : State) (i : SlotId) : SlotsStand s (s.judgeFill i) := by
  unfold State.judgeFill
  split
  · exact .refl s
  · dsimp only
    refine .ite _ (.ite _ (.fillAsks s i) (.refl s)) (.ite _ ?_ (.ite _ ?_ (.refl s)))
    · split
      · exact (s.keepsBut_putEntry _ _).stands
      · exact .enterWaitSoft s i
    · split
      · exact .enterWaitSoft s i
      · exact .ite _ (.refl s) ((s.keepsBut_withdraw _).stands.trans (State.keepsBut_toInlet _ _ _ _).stands)

theorem SlotsStand.judgeFills (s : State) (but : Option SlotId) : SlotsStand s (s.judgeFills but) :=
  .foldl _ (fun t i => .ite _ (.refl t) (.judgeFill t i)) _ _

theorem SlotsStand.exhaustColumn (s : State) (c : Column) (value : Nat) (but : Option SlotId) : SlotsStand s (s.exhaustColumn c value but) := by
  rw [exhaustColumn_eq]
  exact ((s.keepsBut_columnOut c value).stands.trans (.judgeFills _ _)).trans (State.keepsBut_takeHead _).stands

theorem SlotsStand.takeBreakthrough (s : State) (i : SlotId) : SlotsStand s (s.takeBreakthrough i) :=
  have h (t : State) := SlotsStand.ite (t.soft.colB.breakthrough = some i) (.exhaustColumn t .b 1 none) (.refl t)
  (SlotsStand.ite _ (.exhaustColumn s .a 1 none) (.refl s)).trans (h _)

/-- Work that frees no slot sends nothing, and every slot is still of its port and tag. -/
structure Silent (s t : State) : Prop where
  effect : Effect s t
  stands : SlotsStand s t

theorem Silent.txq {s t : State} (h : Silent s t) (p : Port) : (t.port p).txq = (s.port p).txq := by
  obtain ⟨more, hmore, hfrees⟩ := (h.effect.ports p).txq
  cases more with
  | nil => rw [hmore, List.append_nil]
  | cons r rs =>
    obtain ⟨-, i, y, hy, -, -, hnone⟩ := hfrees r List.mem_cons_self
    rw [h.stands i hnone] at hy
    cases hy

theorem Silent.slot {s t : State} (h : Silent s t) {i : SlotId} {sl : Slot} (hp : s.pool[i] = some sl) :
    ∃ x, t.pool[i] = some x ∧ x.port = sl.port ∧ x.tag = sl.tag := by
  cases ht : t.pool[i] with
  | none =>
    rw [h.stands i ht] at hp
    cases hp
  | some x =>
    obtain ⟨y, hy, hport, htag, -⟩ := h.effect.pool i x ht
    rw [hp] at hy
    cases hy
    exact ⟨x, rfl, hport, htag⟩

/-- The operation of slot `i` answered by work that ends no other. -/
structure AnswersOnly (s t : State) (i : SlotId) (p : Port) (x : Response) : Prop where
  self : t.pool[i] = none
  responds : s.responds t p [x]
  fixed : t.fixed = s.fixed

theorem Silent.answers {s a t : State} {i : SlotId} {sl : Slot} {o : OutcomeCode} {fields : List Byte} (h : Silent s a) (hp : s.pool[i] = some sl)
    (ht : Silent (a.endSlot i o fields true) t) : AnswersOnly s t i sl.port (opResponse sl.tag o fields) := by
  obtain ⟨x, hx, hport, htag⟩ := h.slot hp
  have hend := State.endSlot_answered hx o fields
  refine ⟨ht.effect.pool.none (by rw [hend]; exact State.pool_setSlot_self _ _ _), ?_, ?_⟩
  · show (t.port sl.port).txq = _
    rw [ht.txq, hend, ← hport, ← htag]
    show ((((a.send x.port (opResponse x.tag o fields)).setSlot i none)).port x.port).txq = _
    have hq : (((a.send x.port (opResponse x.tag o fields)).setSlot i none).port x.port).txq = (a.port x.port).txq ++ [opResponse x.tag o fields] :=
      txq_answered (s := a) (t := a) rfl i x.port _
    rw [hq, h.txq]
  · rw [ht.effect.fixed, hend, ← h.effect.fixed]
    cases x.port <;> rfl

end Sys2Proof.Machine

/-! CANCEL of an operation that has nothing to wind down (R185). -/

namespace Sys2Proof.Machine

theorem Silent.of_effect {s t : State} (h : Effect s t) (k : SlotsStand s t) : Silent s t := ⟨h, k⟩

theorem Silent.refl (s : State) : Silent s s := ⟨.refl s, .refl s⟩

/-- An outcome fixed, every lease let go, and the requester gone from every list. -/
theorem silent_letGo (s : State) (i : SlotId) (o : OutcomeCode) (who : Holder) : Silent s (((s.fixOutcome i o).releaseAll who).withdraw who) :=
  ⟨withdraw_effect (releaseAll_effect (fixOutcome_effect (.refl s) i o) who) who,
    ((SlotsStand.fixOutcome s i o).trans (State.keepsBut_releaseAll _ _).stands).trans (State.keepsBut_withdraw _ _).stands⟩

section Ends

variable {s : State} {i : SlotId} {sl : Slot}

theorem finishHeat_answersOnly {w : HeatWork} (hp : s.pool[i] = some sl) (hw : sl.work = .heat w) :
    AnswersOnly s (s.finishHeat i .cancelled true) i sl.port (opResponse sl.tag .cancelled []) := by
  have heq : s.finishHeat i .cancelled true =
      (((s.fixOutcome i .cancelled).releaseAll (slotWho i sl)).withdraw (slotWho i sl)).endSlot i .cancelled [] true := by
    unfold State.finishHeat
    rw [heatAt_held hp hw]
    exact congrArg (fun t : State => t.endSlot i .cancelled [] true) (if_neg (by decide))
  rw [heq]
  exact (silent_letGo s i .cancelled (slotWho i sl)).answers hp (.refl _)

theorem finishDrain_answersOnly {w : DrainWork} (hp : s.pool[i] = some sl) (hw : sl.work = .drain w) :
    AnswersOnly s (s.finishDrain i .cancelled true) i sl.port (opResponse sl.tag .cancelled []) := by
  have heq : s.finishDrain i .cancelled true =
      (((s.fixOutcome i .cancelled).releaseAll (slotWho i sl)).withdraw (slotWho i sl)).endSlot i .cancelled [] true := by
    unfold State.finishDrain
    rw [drainAt_held hp hw]
    exact congrArg (fun t : State => t.endSlot i .cancelled [] true) (if_neg (by decide))
  rw [heq]
  exact (silent_letGo s i .cancelled (slotWho i sl)).answers hp (.refl _)

theorem finishCirc_answersOnly {w : CircWork} (hp : s.pool[i] = some sl) (hw : sl.work = .circulate w) (ho : sl.outcome = none)
    (hstill : ¬(s.holdsHeld (slotWho i sl) .circ = true ∧ 0 < s.circLevel)) :
    AnswersOnly s (s.finishCirc i .cancelled true) i sl.port (opResponse sl.tag .cancelled []) := by
  have heq : s.finishCirc i .cancelled true =
      (((s.fixOutcome i .cancelled).releaseAll (slotWho i sl)).withdraw (slotWho i sl)).endSlot i .cancelled [] true := by
    unfold State.finishCirc
    rw [circAt_eq hp hw ho]
    exact if_neg (by simpa using hstill)
  rw [heq]
  exact (silent_letGo s i .cancelled (slotWho i sl)).answers hp (.refl _)

theorem finishFill_answersOnly {w : FillWork} (hp : s.pool[i] = some sl) (hw : sl.work = .fill w) (ho : sl.outcome = none) :
    AnswersOnly s (s.finishFill i .cancelled true) i sl.port (opResponse sl.tag .cancelled (fillFields w)) := by
  obtain ⟨a, ha⟩ : ∃ a, a = (((s.fixOutcome i .cancelled).releaseAll (slotWho i sl)).withdraw (slotWho i sl)).takeBreakthrough i := ⟨_, rfl⟩
  obtain ⟨b, hb⟩ : ∃ b, b = a.appendDraw .wash w.softA w.softB w.bypass (if w.counted = 0 then a.acct.hardness else w.lastHardness) .cancelled :=
    ⟨_, rfl⟩
  have heq : s.finishFill i .cancelled true = b.endSlot i .cancelled (fillFields w) true := by
    unfold State.finishFill
    rw [fillAt_eq hp hw ho]
    dsimp only
    rw [← ha, ← hb]
    exact congrArg (fun t : State => t.endSlot i .cancelled (fillFields w) true) (if_neg (by decide))
  have hgo := silent_letGo s i .cancelled (slotWho i sl)
  have hsilent : Silent s b := by
    rw [hb, ha]
    exact ⟨appendDraw_effect (takeBreakthrough_effect hgo.effect i) _ _ _ _ _ _ (fun h => absurd rfl h),
      (hgo.stands.trans (.takeBreakthrough _ _)).trans (State.keepsBut_appendDraw _ _ _ _ _ _ _).stands⟩
  rw [heq]
  exact hsilent.answers hp (.refl _)

/-- A DOOR_PUSH or DRY that does not hold DOOR_DRIVE is answered at once (R159, R162, R169). -/
theorem finishDoor_answersOnly {dry : Bool} {w : DoorWork} {o : OutcomeCode} (hp : s.pool[i] = some sl) (hw : sl.work = doorWork dry w)
    (ho : sl.outcome = none) (hfree : ¬(w.phase = .pushing ∧ s.holds (slotWho i sl) .doorDrive = true)) :
    AnswersOnly s (s.finishDoor i o true) i sl.port (opResponse sl.tag o (s.doorFields (sl.work.fixFields sl.work.fieldsNow))) := by
  obtain ⟨a, ha⟩ : ∃ a, a = s.fixDoor i o := ⟨_, rfl⟩
  have hfix : a = s.setSlot i (some { sl with outcome := some o, work := sl.work.fixFields sl.work.fieldsNow }) := ha.trans (fixDoor_held hp o)
  have ka : s.keepsBut a [.pool] := hfix ▸ s.keepsBut_setSlot _ _
  have hholds : a.holds (slotWho i sl) .doorDrive = s.holds (slotWho i sl) .doorDrive := by
    unfold State.holds State.hasHolder
    rw [ka.entry]
  have kb := a.keepsBut_withdraw (slotWho i sl)
  have hself : (a.withdraw (slotWho i sl)).pool[i] = some { sl with outcome := some o, work := sl.work.fixFields sl.work.fieldsNow } := by
    rw [kb.pool, hfix, State.pool_setSlot_self]
  have hfields : (a.withdraw (slotWho i sl)).doorFields (sl.work.fixFields sl.work.fieldsNow) =
      s.doorFields (sl.work.fixFields sl.work.fieldsNow) := by
    unfold State.doorFields
    rw [kb.door, ka.door]
  have heq : s.finishDoor i o true =
      (a.withdraw (slotWho i sl)).endSlot i o (s.doorFields (sl.work.fixFields sl.work.fieldsNow)) true := by
    unfold State.finishDoor
    rw [doorAt_eq hp hw ho]
    dsimp only
    rw [← ha, hholds, if_neg hfree, State.endDoorSlot, hself]
    dsimp only
    rw [hfields]
  have hsilent : Silent s (a.withdraw (slotWho i sl)) := by
    rw [ha]
    refine ⟨withdraw_effect (fixDoor_effect (.refl s) i o) _, SlotsStand.trans ?_ (State.keepsBut_withdraw _ _).stands⟩
    rw [← ha, hfix]
    exact .setSlot _ _ _
  rw [heq]
  exact hsilent.answers hp (.refl _)

/-! ### REGENERATE (R73) -/

theorem endQueued_answersOnly (p : Port) (hp : s.pool[i] = some sl) :
    AnswersOnly s (s.endQueued p i .cancelled true) i sl.port (opResponse sl.tag .cancelled (byte1 0 ++ byte1 0)) :=
  Silent.answers ⟨unqueue_effect (.refl s) p i, (s.keepsBut_setQueue _).stands⟩ hp (.refl _)

theorem answerRegen_slot {g : Regen} {p : Port} (hg : g.requester = some (p, i)) (o : OutcomeCode) (fields : List Byte) (answer : Bool) :
    s.answerRegen g o fields answer = s.endSlot i o fields answer := by
  unfold State.answerRegen
  rw [hg]

theorem endInStarting_answersOnly {g : Regen} {p : Port} (hg : g.requester = some (p, i)) (hp : s.pool[i] = some sl) (o : OutcomeCode) :
    AnswersOnly s (s.endInStarting g o true) i sl.port (opResponse sl.tag o (byte1 0 ++ byte1 0)) := by
  have h1 : Silent s ((s.withdraw (regenWho g)).setRegen none) :=
    ⟨endRegenRecord_effect (withdraw_effect (.refl s) _), (s.keepsBut_withdraw _).stands.trans (State.keepsBut_setRegen _ _).stands⟩
  have hjoin (t : State) : SlotsStand t (t.joinHead g.column) := .ite _ (.refl t) (t.keepsBut_setQueue _).stands
  unfold State.endInStarting
  dsimp only
  rw [answerRegen_slot hg]
  refine Silent.answers ⟨ite_effect _ (joinHead_effect h1.effect _ rfl) h1.effect, h1.stands.trans (.ite _ (hjoin _) (.refl _))⟩ hp
    ⟨takeHead_effect (.refl _), (State.keepsBut_takeHead _).stands⟩

theorem State.keepsBut_recordAborted (s : State) (g : Regen) (o : OutcomeCode) (recorded : Bool) :
    s.keepsBut (s.recordAborted g o recorded) [.acct, .soft] :=
  State.keepsBut.ite _ ((State.keepsBut_mono (s.keepsBut_appendRegenDraw _ _ _ _ _) (by decide)).step (State.keepsBut_deductSalt _ _) (by decide))
    (State.keepsBut.ite _ (State.keepsBut_mono (s.keepsBut_appendRegenDraw _ _ _ _ _) (by decide)) (s.keepsBut_refl _))

theorem abortRegen_answersOnly {g : Regen} {p : Port} (hg : g.requester = some (p, i)) (hp : s.pool[i] = some sl) (o : OutcomeCode) :
    AnswersOnly s (s.abortRegen g o false true) i sl.port (opResponse sl.tag o (byte1 (phaseCode g.phase) ++ byte1 g.counted)) := by
  obtain ⟨t, ht⟩ : ∃ t, t = ((s.releaseAll (regenWho g)).withdraw (regenWho g)).recordAborted g o false := ⟨_, rfl⟩
  have h1 : Silent s t := ht ▸ ⟨recordAborted_effect (withdraw_effect (releaseAll_effect (.refl s) _) _) _ _ _,
    ((s.keepsBut_releaseAll _).stands.trans (State.keepsBut_withdraw _ _).stands).trans (State.keepsBut_recordAborted _ _ _ _).stands⟩
  obtain ⟨d, hd⟩ : ∃ d, d = (t.setColumn g.column { t.column g.column with
      state := .exhausted, remaining := 0, last := .aborted, breakthrough := none }).setRegen none := ⟨_, rfl⟩
  have h2 : Silent s d := hd ▸ ⟨endRegenRecord_effect (setColumn_effect h1.effect g.column _ (fun _ k => by cases k) fun _ _ => Nat.zero_le _),
    (h1.stands.trans (State.keepsBut_setColumn _ _ _).stands).trans (State.keepsBut_setRegen _ _).stands⟩
  have heq : s.abortRegen g o false true = (((((if d.cfg.autoRegen then d.joinTail g.column else d).post .regenEnded (columnCode g.column) 3).endSlot i o
      (byte1 (phaseCode g.phase) ++ byte1 g.counted) true).judgeFills none).takeHead) := by
    unfold State.abortRegen
    dsimp only
    rw [answerRegen_slot hg, ← ht, ← hd]
  rw [heq]
  exact Silent.answers ⟨post_effect (ite_effect _ (joinTail_effect h2.effect _) h2.effect) _ _ _,
    (h2.stands.trans (.ite _ (State.keepsBut_joinTail _ _).stands (.refl _))).trans (State.keepsBut_post _ _ _ _).stands⟩ hp
    ⟨takeHead_effect (judgeFills_effect (.refl _) _), (SlotsStand.judgeFills _ _).trans (State.keepsBut_takeHead _).stands⟩

/-- A REGENERATE that has nothing to wind down ends with its regeneration (R70, R73). -/
theorem cancelRegenerate_answersOnly {g : Regen} (hp : s.pool[i] = some sl) (hq : s.regenQueued sl.port i = false) (hr : s.soft.regen = some g)
    (hg : g.requester = some (sl.port, i)) (hb : ¬(g.phase = .brineDraw ∧ g.brineStarted = true))
    (hn : ¬(g.phase = .rinse ∧ s.holdsHeld (regenWho g) .inlet = true)) :
    AnswersOnly s (s.cancelRegenerate sl.port i true) i sl.port (opResponse sl.tag .cancelled
      (if g.phase = .starting then byte1 0 ++ byte1 0 else byte1 (phaseCode g.phase) ++ byte1 g.counted)) := by
  have heq : s.cancelRegenerate sl.port i true = s.endRegen .cancelled true := by
    unfold State.cancelRegenerate
    rw [hq, hr]
    dsimp only
    rw [if_pos hg, if_neg (by decide), if_neg (by simp_all)]
  rw [heq, State.endRegen, hr]
  dsimp only
  split
  · exact endInStarting_answersOnly hg hp _
  · exact abortRegen_answersOnly hg hp _

end Ends

end Sys2Proof.Machine

/-! CANCEL of an operation that has nothing to wind down, from the frame to the responses (R185). -/

namespace Sys2Proof.Machine

theorem tagSlot_spec {s : State} {p : Port} {target : Nat} {i : SlotId} {sl : Slot} (h : s.tagSlot p target = some i) (hp : s.pool[i] = some sl) :
    sl.port = p ∧ sl.tag = target := by
  have := List.find?_some h
  simpa [hp] using this

/-- The end of an operation by a CANCEL or a port reset, by its kind. -/
def State.cancelWork (s : State) (i : SlotId) (p : Port) (answer : Bool) : Work → State
  | .fill _ => s.finishFill i .cancelled answer
  | .circulate _ => s.finishCirc i .cancelled answer
  | .heat _ => s.finishHeat i .cancelled answer
  | .drain _ => s.finishDrain i .cancelled answer
  | .regenerate _ => s.cancelRegenerate p i answer
  | .doorPush _ => s.finishDoor i .cancelled answer
  | .dry _ => s.finishDoor i .cancelled answer

theorem cancelSlot_held {s : State} {i : SlotId} {sl : Slot} (hp : s.pool[i] = some sl) (answer : Bool) :
    s.cancelSlot i answer = s.cancelWork i sl.port answer sl.work := by
  unfold State.cancelSlot State.cancelWork
  cases hw : sl.work <;> simp only [hp, hw]

section Cancel

variable {s : State} {p : Port} {tag target : Nat}

theorem exec_cancel_unknown (h : s.hears p tag) (ht : s.tagSlot p target = none) :
    exec (.cancel p tag target) s = .next (s.answered p tag .unknownTag []) := by
  refine congrArg Host.Outcome.next ((immediate_hears h _).trans ?_)
  rw [State.tagSlot_setRx, ht]
  rfl

theorem exec_cancel_fixed (h : s.hears p tag) {i : SlotId} {sl : Slot} (ht : s.tagSlot p target = some i) (hp : s.pool[i] = some sl)
    {o : OutcomeCode} (ho : sl.outcome = some o) : exec (.cancel p tag target) s = .next (s.answered p tag .ok (byte1 1)) := by
  refine congrArg Host.Outcome.next ((immediate_hears h _).trans ?_)
  rw [State.tagSlot_setRx, ht]
  simp only [State.pool_setRx, hp, Option.bind_some, ho]
  rfl

theorem exec_cancel_unfixed (h : s.hears p tag) {i : SlotId} {sl : Slot} (ht : s.tagSlot p target = some i) (hp : s.pool[i] = some sl)
    (ho : sl.outcome = none) : exec (.cancel p tag target) s =
      .next (((s.setRx p .synced).cancelSlot i true).reply p tag .ok (byte1 0)).settle := by
  refine congrArg Host.Outcome.next ((immediate_hears h _).trans ?_)
  rw [State.tagSlot_setRx, ht]
  simp only [State.pool_setRx, hp, Option.bind_some, ho]

/-- An operation that a CANCEL answers at once (R185). -/
theorem exec_cancel_answers (h : s.hears p tag) {i : SlotId} {sl : Slot} (ht : s.tagSlot p target = some i) (hp : s.pool[i] = some sl)
    (ho : sl.outcome = none) {fields : List Byte}
    (ha : AnswersOnly (s.setRx p .synced) ((s.setRx p .synced).cancelSlot i true) i sl.port (opResponse sl.tag .cancelled fields)) :
    ∃ t more, exec (.cancel p tag target) s = .next t ∧ t.pool[i] = none ∧
      s.responds t p ([opResponse target .cancelled fields, immResponse tag .ok (byte1 0)] ++ more) ∧ t.cfg = s.cfg ∧ t.mode = s.mode := by
  obtain ⟨rfl, rfl⟩ := tagSlot_spec ht hp
  obtain ⟨u, hu⟩ : ∃ u, u = ((s.setRx sl.port .synced).cancelSlot i true).reply sl.port tag .ok (byte1 0) := ⟨_, rfl⟩
  have hsettle := settle_settled (Settled.refl u)
  have hupool : u.pool[i] = none := by
    rw [hu, (State.keepsBut_reply _ _ _ _ _).pool]
    exact ha.self
  have hutxq : (u.port sl.port).txq = (s.port sl.port).txq ++
      [opResponse sl.tag .cancelled fields, immResponse tag .ok (byte1 0)] := by
    have hresp := ha.responds
    unfold State.responds at hresp
    rw [hu, State.reply, State.port_send, if_pos rfl]
    show (((s.setRx sl.port .synced).cancelSlot i true).port sl.port).txq ++ [immResponse tag .ok (byte1 0)] = _
    rw [hresp, State.port_setRx, if_pos rfl]
    exact List.append_assoc _ _ _
  have hufixed : u.cfg = s.cfg ∧ u.mode = s.mode := by
    have hk := State.keepsBut_reply ((s.setRx sl.port .synced).cancelSlot i true) sl.port tag .ok (byte1 0)
    have hs := s.keepsBut_setRx sl.port .synced
    rw [hu, hk.cfg, hk .mode (by decide)]
    exact ⟨(congrArg Fixed.cfg ha.fixed).trans hs.cfg, (congrArg Fixed.mode ha.fixed).trans (hs .mode (by decide))⟩
  obtain ⟨more, hmore, -⟩ := (hsettle.ports sl.port).txq
  refine ⟨u.settle, more, by rw [exec_cancel_unfixed h ht hp ho, hu], hsettle.pool.none hupool, ?_,
    (congrArg Fixed.cfg hsettle.fixed).trans hufixed.1, (congrArg Fixed.mode hsettle.fixed).trans hufixed.2⟩
  unfold State.responds
  rw [hmore, hutxq, List.append_assoc]

end Cancel

theorem cancelEndsAtOnce : Clauses.CancelEndsAtOnce := by
  intro s p tag target h
  refine ⟨exec_cancel_unknown h, fun i sl ht hp => ⟨fun o => exec_cancel_fixed h ht hp, fun fields ho hcase => exec_cancel_answers h ht hp ho ?_⟩⟩
  obtain ⟨rfl, -⟩ := tagSlot_spec ht hp
  have hv := s.keepsBut_setRx sl.port .synced
  obtain ⟨v, hve⟩ : ∃ v, v = s.setRx sl.port .synced := ⟨_, rfl⟩
  rw [← hve] at hv ⊢
  have hpv : v.pool[i] = some sl := by rw [hv.pool, hp]
  have hholds : ∀ who r, v.holds who r = s.holds who r := fun who r => by
    unfold State.holds State.hasHolder
    rw [hv.entry]
  have hheld : ∀ who r, v.holdsHeld who r = s.holdsHeld who r := fun who r => by
    unfold State.holdsHeld
    rw [hv.entry]
  have hqueued : v.regenQueued sl.port i = s.regenQueued sl.port i := by
    unfold State.regenQueued
    rw [hv.soft]
  rw [cancelSlot_held hpv]
  rcases hcase with ⟨⟨w, hw⟩ | ⟨w, hw⟩, rfl⟩ | ⟨w, hw, rfl⟩ | ⟨⟨w, hw⟩, rfl, hstill⟩ | ⟨⟨c, hw⟩, hq, rfl⟩ |
    ⟨⟨c, hw⟩, hq, g, hg, hreq, hbrine, hrinse, rfl⟩ | ⟨w, hw, hfree, rfl⟩ | ⟨w, hw, hfree, rfl⟩ <;> rw [hw]
  · exact finishHeat_answersOnly hpv hw
  · exact finishDrain_answersOnly hpv hw
  · exact finishFill_answersOnly hpv hw ho
  · refine finishCirc_answersOnly hpv hw ho ?_
    have hlevel : v.circLevel = s.circLevel := by
      unfold State.circLevel
      rw [hv.drive]
    rw [hheld, hlevel, show slotWho i sl = ⟨.port sl.port, some i⟩ by simp [slotWho, hw]]
    exact hstill
  · have hcancel : v.cancelWork i sl.port true (.regenerate c) = v.endQueued sl.port i .cancelled true := if_pos (hqueued.trans hq)
    rw [hcancel]
    exact endQueued_answersOnly sl.port hpv
  · refine cancelRegenerate_answersOnly hpv (hqueued.trans hq) (by rw [hv.soft]; exact hg) hreq hbrine ?_
    rw [hheld, show regenWho g = ⟨.port sl.port, some i⟩ by simp [regenWho, hreq]]
    exact hrinse
  · have ha := finishDoor_answersOnly (o := .cancelled) (dry := false) hpv hw ho (by
      rw [hholds, show slotWho i sl = ⟨.dry, some i⟩ by simp [slotWho, hw]]
      exact hfree)
    rw [hw] at ha
    rw [List.append_assoc, ← hv.door]
    exact ha
  · have ha := finishDoor_answersOnly (o := .cancelled) (dry := true) hpv hw ho (by
      rw [hholds, show slotWho i sl = ⟨.dry, some i⟩ by simp [slotWho, hw]]
      exact hfree)
    rw [hw] at ha
    exact ha

end Sys2Proof.Machine

/-! CANCEL of an operation that winds down (R29, R41, R73, R159, R185). Settles O17. -/

namespace Sys2Proof.Machine

section Cancel

variable {s : State} {p : Port} {tag target : Nat} {i : SlotId} {sl : Slot}

theorem cancelWindsDown_circulate (h : s.hears p tag) (ht : s.tagSlot p target = some i) (hp : s.pool[i] = some sl) (ho : sl.outcome = none)
    (hr : s.atRest) {w : CircWork} (hw : sl.work = .circulate w) (hl : (s.entry .circ).lease = .held)
    (hh : (s.entry .circ).holder = some ⟨.port p, some i⟩) (hz : 0 < s.circLevel)
    (honly : ∀ r, s.holds ⟨.port p, some i⟩ r = true → r = .circ) :
    ∃ t, exec (.cancel p tag target) s = .next t ∧ (t.entry .circ).lease = .releasing ∧
      (t.entry .circ).holder = (s.entry .circ).holder ∧ t.drive = { s.drive with circ := { s.drive.circ with active := 0 } } ∧
      t.pool[i] = some { sl with outcome := some .cancelled } ∧ (∀ j : SlotId, j ≠ i → t.pool[j] = s.pool[j]) ∧
      t.ports = (s.answered p tag .ok (byte1 0)).ports ∧ s.keepsEntriesBut t [.circ, .heater] ∧
      s.keepsBut t [.arb, .pool, .ports, .water, .drive, .sense] := by
  obtain ⟨rfl, -⟩ := tagSlot_spec ht hp
  obtain ⟨v, hve⟩ : ∃ v, v = s.setRx sl.port .synced := ⟨_, rfl⟩
  have kv : s.keepsBut v [.ports] := hve ▸ s.keepsBut_setRx sl.port .synced
  have hwho : slotWho i sl = ⟨.port sl.port, some i⟩ := by simp [slotWho, hw]
  obtain ⟨u, hu⟩ : ∃ u, u = v.setSlot i (some { sl with outcome := some .cancelled }) := ⟨_, rfl⟩
  have ku : v.keepsBut u [.pool] := hu ▸ v.keepsBut_setSlot _ _
  have hue : ∀ r, u.entry r = s.entry r := fun r => by rw [ku.entry, kv.entry]
  have hholds : ∀ r, u.holds ⟨.port sl.port, some i⟩ r = s.holds ⟨.port sl.port, some i⟩ r := fun r => by
    unfold State.holds State.hasHolder
    rw [hue]
  have hul : (u.entry .circ).lease = .held := by rw [hue, hl]
  have hud : u.drive = s.drive := by rw [ku.drive, kv.drive]
  obtain ⟨x, hx, kx, hentries, hdrive, hlease, hwait, hyield⟩ := release_circ_winds hul (by
    unfold State.circLevel
    rw [hud]
    exact hz)
  have hall : u.releaseAll ⟨.port sl.port, some i⟩ = x := by
    rw [State.releaseAll_only (r := .circ) fun q hq => honly q ((hholds q).symm.trans hq),
      State.releaseIf_holds ((hholds .circ).trans ((State.holds_iff _ _ _).mpr ⟨by rw [hl]; decide, hh⟩)), hx]
  have hxholder : (x.entry .circ).holder = (s.entry .circ).holder := by
    rw [← hx, ← hue]
    exact ((release_effect (.refl u) .circ).table .circ).same (by rw [hx, hlease]; decide)
  have hxe : ∀ q, q ≠ .circ → x.entry q = s.entry q := fun q hq => by rw [hentries q (by simpa using hq), hue]
  have hxcalm : x.calm := fun q => by
    by_cases hq : q = .circ
    · rw [hq, hwait, hue]
      exact ⟨(hr.1 .circ).1, hyield⟩
    · rw [hxe q hq]
      exact hr.1 q
  have hcancel : v.cancelSlot i true = x := by
    have hpv : v.pool[i] = some sl := by rw [kv.pool, hp]
    have hwinds : (v.holdsHeld ⟨.port sl.port, some i⟩ .circ && decide (0 < v.circLevel)) = true := by
      have hlevel : v.circLevel = s.circLevel := by
        unfold State.circLevel
        rw [kv.drive]
      rw [hlevel, State.holdsHeld, kv.entry, hl, hh]
      simp [hz]
    rw [cancelSlot_held hpv, hw]
    show v.finishCirc i .cancelled true = x
    unfold State.finishCirc
    simp only [circAt_eq hpv hw ho, hwho, State.fixOutcome_held hpv, ← hu, hall, hxcalm.withdraw, hwinds, Bool.true_and, if_true]
  obtain ⟨y, hy⟩ : ∃ y, y = x.reply sl.port tag .ok (byte1 0) := ⟨_, rfl⟩
  have ky : x.keepsBut y [.ports] := hy ▸ x.keepsBut_reply _ _ _ _
  have hi : Interlocked y y.settle := State.calm.settle_interlocked fun q => by
    rw [ky.entry]
    exact hxcalm q
  have hcirc : y.settle.entry .circ = x.entry .circ := (hi.entries _ (by decide)).trans (ky.entry _)
  have hpool : y.settle.pool = u.pool := by rw [hi.frame.pool, ky.pool, kx.pool]
  refine ⟨y.settle, by rw [exec_cancel_unfixed h ht hp ho, ← hve, hcancel, hy], by rw [hcirc, hlease], by rw [hcirc, hxholder],
    by rw [hi.frame.drive, ky.drive, hdrive, hud], ?_, fun j hj => ?_, ?_, fun q hq => ?_, ?_⟩
  · rw [hpool, hu]
    exact State.pool_setSlot_self _ _ _
  · rw [hpool, hu, State.pool_setSlot_ne _ hj, kv.pool]
  · rw [hi.frame.ports, hy]
    exact State.ports_reply_congr (by rw [kx.ports, ku.ports, hve]) _ _ _ _
  · simp only [List.mem_cons, List.not_mem_nil, or_false, not_or] at hq
    rw [hi.entries q (by simpa using hq.2), ky.entry, hxe q hq.1]
  · exact ((((State.keepsBut_mono kv (by decide)).step ku (by decide)).step kx (by decide)).step ky (by decide)).step hi.frame (by decide)

theorem cancelWindsDown_regenerate (h : s.hears p tag) (ht : s.tagSlot p target = some i) (hp : s.pool[i] = some sl) (ho : sl.outcome = none)
    (hr : s.atRest) {c : Column} {g : Regen} (hw : sl.work = .regenerate c) (hq : s.regenQueued p i = false) (hg : s.soft.regen = some g)
    (hreq : g.requester = some (p, i))
    (hrun : (g.phase = .brineDraw ∧ g.brineStarted = true) ∨ (g.phase = .rinse ∧ s.holdsHeld ⟨.port p, some i⟩ .inlet = true)) :
    exec (.cancel p tag target) s = .next ((s.setRegen (some { g with cancelPending := true })).answered p tag .ok (byte1 0)) := by
  obtain ⟨rfl, -⟩ := tagSlot_spec ht hp
  obtain ⟨v, hve⟩ : ∃ v, v = s.setRx sl.port .synced := ⟨_, rfl⟩
  have kv : s.keepsBut v [.ports] := hve ▸ s.keepsBut_setRx sl.port .synced
  have hpv : v.pool[i] = some sl := by rw [kv.pool, hp]
  have hcancel : v.cancelSlot i true = v.setRegen (some { g with cancelPending := true }) := by
    have hvq : v.regenQueued sl.port i = false := by
      unfold State.regenQueued
      rw [kv.soft]
      exact hq
    have hrunning : ((g.phase == .brineDraw && g.brineStarted) || (g.phase == .rinse && v.holdsHeld (regenWho g) .inlet)) = true := by
      have hheld : v.holdsHeld (regenWho g) .inlet = s.holdsHeld ⟨.port sl.port, some i⟩ .inlet := by
        unfold State.holdsHeld
        rw [kv.entry, show regenWho g = ⟨.port sl.port, some i⟩ by simp [regenWho, hreq]]
      rw [hheld]
      rcases hrun with ⟨h1, h2⟩ | ⟨h1, h2⟩ <;> simp [h1, h2]
    rw [cancelSlot_held hpv, hw]
    show v.cancelRegenerate sl.port i true = _
    unfold State.cancelRegenerate
    rw [hvq, kv.soft, hg]
    dsimp only
    rw [if_pos hreq, hrunning]
    rfl
  obtain ⟨t, hte⟩ : ∃ t, t = (s.setRegen (some { g with cancelPending := true })).answered sl.port tag .ok (byte1 0) := ⟨_, rfl⟩
  have hsame : (v.setRegen (some { g with cancelPending := true })).reply sl.port tag .ok (byte1 0) = t := by
    rw [hte, hve]
    cases sl.port <;> rfl
  have hrest : t.atRest := hte ▸ hr.frame ((State.keepsBut_mono (s.keepsBut_setRegen _) (by decide : _ ⊆ [Block.soft, .ports])).step
    (State.keepsBut_answered _ _ _ _ _) (by decide))
  rw [exec_cancel_unfixed h ht hp ho, ← hve, hcancel, hsame, hrest.settle, hte]

theorem drawn_eq (r : Rod) : r.drawn = { r with
    state := if r.state = .extending ∨ r.state = .extended then .retracting else r.state
    retract := some (.lease, Timer.zero), retEdge := false, extEdge := false } := by
  unfold Rod.drawn
  cases r.state <;> rfl

/-- A DOOR_PUSH or DRY that holds DOOR_DRIVE: the rod is drawn in, or goes on being drawn in. -/
theorem cancelWindsDown_door (h : s.hears p tag) (ht : s.tagSlot p target = some i) (hp : s.pool[i] = some sl) (ho : sl.outcome = none)
    (hr : s.atRest) {dry : Bool} {w : DoorWork} (hw : sl.work = doorWork dry w) (hph : w.phase = .pushing)
    (hl : (s.entry .doorDrive).lease = .held ∨ (s.entry .doorDrive).lease = .releasing)
    (hh : (s.entry .doorDrive).holder = some ⟨.dry, some i⟩) :
    ∃ t, exec (.cancel p tag target) s = .next t ∧
      t.pool[i] = some { sl with outcome := some .cancelled, work := sl.work.fixFields sl.work.fieldsNow } ∧
      (∀ j : SlotId, j ≠ i → t.pool[j] = s.pool[j]) ∧ t.ports = (s.answered p tag .ok (byte1 0)).ports ∧
      ((s.entry .doorDrive).lease = .releasing → s.keepsBut t [.pool, .ports]) ∧
      ((s.entry .doorDrive).lease = .held → (t.entry .doorDrive).lease = .releasing ∧
        (t.entry .doorDrive).holder = (s.entry .doorDrive).holder ∧ t.door.rod = { s.door.rod with
          state := if s.door.rod.state = .extending ∨ s.door.rod.state = .extended then .retracting else s.door.rod.state
          retract := some (.lease, Timer.zero), retEdge := false, extEdge := false } ∧
        t.drive = { s.drive with doorRamp := Ramp.zero, rodExtend := false } ∧ t.door.door = s.door.door ∧
        s.keepsEntriesBut t [.doorDrive] ∧ s.keepsBut t [.arb, .pool, .ports, .drive, .door]) := by
  obtain ⟨rfl, -⟩ := tagSlot_spec ht hp
  obtain ⟨v, hve⟩ : ∃ v, v = s.setRx sl.port .synced := ⟨_, rfl⟩
  have kv : s.keepsBut v [.ports] := hve ▸ s.keepsBut_setRx sl.port .synced
  have hpv : v.pool[i] = some sl := by rw [kv.pool, hp]
  obtain ⟨a, ha⟩ : ∃ a, a = v.setSlot i (some { sl with outcome := some .cancelled, work := sl.work.fixFields sl.work.fieldsNow }) := ⟨_, rfl⟩
  have ka : v.keepsBut a [.pool] := ha ▸ v.keepsBut_setSlot _ _
  have hfix : v.fixDoor i .cancelled = a := (fixDoor_held hpv _).trans ha.symm
  have hae : ∀ r, a.entry r = s.entry r := fun r => by rw [ka.entry, kv.entry]
  have ksa : s.keepsBut a [.pool, .ports] := (State.keepsBut_mono kv (by decide)).step ka (by decide)
  have hcancel : v.cancelSlot i true = a.release .doorDrive := by
    have hholds : a.holds (slotWho i sl) .doorDrive = true := by
      rw [State.holds_iff, hae, slotWho_door hw]
      exact ⟨by rcases hl with e | e <;> rw [e] <;> decide, hh⟩
    have hfinish : v.finishDoor i .cancelled true = a.release .doorDrive := by
      unfold State.finishDoor
      rw [doorAt_eq hpv hw ho]
      dsimp only
      rw [hfix, if_pos ⟨hph, hholds⟩]
      rfl
    rw [cancelSlot_held hpv, hw]
    cases dry <;> exact hfinish
  have hpool : ∀ {t : State}, a.keepsBut t [.arb, .drive, .door, .ports] → t.pool[i] = some { sl with
      outcome := some .cancelled, work := sl.work.fixFields sl.work.fieldsNow } ∧ ∀ j : SlotId, j ≠ i → t.pool[j] = s.pool[j] := fun {t} k => by
    rw [k.pool, ha]
    exact ⟨State.pool_setSlot_self _ _ _, fun j hj => by rw [State.pool_setSlot_ne _ hj, kv.pool]⟩
  have hports : ∀ {t : State}, t.ports = a.ports → (t.reply sl.port tag .ok (byte1 0)).ports = (s.answered sl.port tag .ok (byte1 0)).ports :=
    fun hta => State.ports_reply_congr (by rw [hta, ka.ports, hve]) _ _ _ _
  have hexec : exec (.cancel sl.port tag target) s = .next ((a.release .doorDrive).reply sl.port tag .ok (byte1 0)).settle := by
    rw [exec_cancel_unfixed h ht hp ho, ← hve, hcancel]
  have hra : a.atRest := hr.frame ksa
  rcases hl with hl | hl
  · have hal : (a.entry .doorDrive).lease = .held := by rw [hae, hl]
    have hrel := release_door hal
    have kr := State.keepsBut_release_door hal
    have he := State.entry_release_door hal
    have hrr := hra.release_door hal
    obtain ⟨x, hx⟩ : ∃ x, x = a.release .doorDrive := ⟨_, rfl⟩
    rw [← hx] at hexec hrel kr he hrr
    have ky := x.keepsBut_reply sl.port tag .ok (byte1 0)
    obtain ⟨y, hy⟩ : ∃ y, y = x.reply sl.port tag .ok (byte1 0) := ⟨_, rfl⟩
    rw [← hy] at hexec ky
    rw [(hrr.frame ky).settle] at hexec
    obtain ⟨h1, h2⟩ := hpool ((State.keepsBut_mono kr (by decide)).step ky (by decide))
    have hdoor : y.entry .doorDrive = a.doorReleasing := by rw [ky.entry, he, if_pos rfl]
    refine ⟨y, hexec, h1, h2, by rw [hy]; exact hports kr.ports, fun e => absurd (hl.symm.trans e) (by decide), fun _ =>
      ⟨by rw [hdoor]; rfl, ?_, ?_, ?_, ?_, fun q hq => ?_, ((State.keepsBut_mono ksa (by decide)).step kr (by decide)).step ky (by decide)⟩⟩
    · rw [hdoor]
      show (a.entry .doorDrive).holder = _
      rw [hae]
    · rw [ky.door, hrel, ← ksa.door]
      exact drawn_eq _
    · rw [ky.drive, hrel, ← ksa.drive]
    · rw [ky.door, hrel, ← ksa.door]
    · rw [ky.entry, he, if_neg (by simpa using hq), hae]
  · have hal : (a.entry .doorDrive).lease = .releasing := by rw [hae, hl]
    rw [release_door_again hal] at hexec
    have ky := a.keepsBut_reply sl.port tag .ok (byte1 0)
    obtain ⟨y, hy⟩ : ∃ y, y = a.reply sl.port tag .ok (byte1 0) := ⟨_, rfl⟩
    rw [← hy] at hexec ky
    rw [(hra.frame ky).settle] at hexec
    obtain ⟨h1, h2⟩ := hpool (State.keepsBut_mono ky (by decide))
    exact ⟨y, hexec, h1, h2, by rw [hy]; exact hports rfl, fun _ => ksa.step ky (by decide), fun e => absurd (hl.symm.trans e) (by decide)⟩

end Cancel

theorem cancelWindsDown : Clauses.CancelWindsDown := by
  intro s p tag target i sl h ht hp ho hr
  refine ⟨fun w hw hl hh hz honly => cancelWindsDown_circulate h ht hp ho hr hw hl hh hz honly,
    fun c g hw hq hg hreq hrun => cancelWindsDown_regenerate h ht hp ho hr hw hq hg hreq hrun, fun w x hph hl hh hx => ?_⟩
  obtain ⟨dry, hw, rfl⟩ : ∃ dry, sl.work = doorWork dry w ∧ x = sl.work.fixFields sl.work.fieldsNow := by
    rcases hx with ⟨hw, rfl⟩ | ⟨hw, rfl⟩
    · exact ⟨false, hw, by rw [hw]; rfl⟩
    · refine ⟨true, hw, ?_⟩
      rw [hw]
      simp only [Work.fixFields, Work.fieldsNow, hph]
      rfl
  exact cancelWindsDown_door h ht hp ho hr hw hph hl hh

/-- Settles O17. -/
theorem cancelEndsTheOperation : Obligations.CancelEndsTheOperation := ⟨cancelEndsAtOnce, cancelWindsDown⟩

end Sys2Proof.Machine

/-! Who stands where: what the laws of places see of a state (R3, R8, R21, R53). -/

namespace Sys2Proof.Machine

/-! ### The view -/

/-- The kind of an operation, with what of its progress the laws of places speak of. -/
inductive WorkKind where
  | fill (waitSoft : Bool) | circulate | heat | drain | regenerate (c : Column)
  | door (dry : Bool) (phase : DoorPhase) (heldBack : Bool)

def Work.kind : Work → WorkKind
  | .fill w => .fill w.waitSoft | .circulate _ => .circulate | .heat _ => .heat | .drain _ => .drain
  | .regenerate c => .regenerate c | .doorPush w => .door false w.phase w.heldBack | .dry w => .door true w.phase w.heldBack

/-- The resources that an operation of the kind asks for. -/
def WorkKind.resources : WorkKind → List Resource
  | .fill _ => [.selector, .inlet] | .circulate => [.circ] | .heat => [.heater] | .drain => [.drain]
  | .regenerate _ => [.selector, .brine, .inlet] | .door _ _ _ => [.doorDrive]

/-- An operation in a slot; `fixed`: its outcome is fixed. -/
structure Seat where
  port : Port
  fixed : Bool
  kind : WorkKind

def Slot.seat (sl : Slot) : Seat := ⟨sl.port, sl.outcome.isSome, sl.work.kind⟩

/-- The requester of an operation. -/
def Seat.who (i : SlotId) (x : Seat) : Holder :=
  match x.kind with
  | .door _ _ _ => ⟨.dry, some i⟩
  | .fill _ => ⟨.port x.port, some i⟩ | .circulate => ⟨.port x.port, some i⟩ | .heat => ⟨.port x.port, some i⟩
  | .drain => ⟨.port x.port, some i⟩ | .regenerate _ => ⟨.port x.port, some i⟩

/-- A regeneration, as far as the laws of places speak of it. -/
structure Stage where
  column : Column
  requester : Option (Port × SlotId)
  phase : RegenPhase

def Regen.stage (g : Regen) : Stage := ⟨g.column, g.requester, g.phase⟩

/-- The requester of a regeneration. -/
def Stage.who (g : Stage) : Holder :=
  match g.requester with
  | none => ⟨.regen, none⟩
  | some (p, i) => ⟨.port p, some i⟩

/-- An entry of the resource table: its lease, its holder and who waits. -/
structure Place where
  lease : LeaseState
  holder : Option Holder
  line : List Holder

def Entry.place (e : Entry) : Place := ⟨e.lease, e.holder, e.waiters.map (·.who)⟩

/-- A column: its state and its mark of a breakthrough. -/
structure ColumnMark where
  state : ColumnState
  mark : Option SlotId

/-- What the laws of places see of a state. -/
structure Seats where
  op : SlotId → Option Seat
  regen : Option Stage
  queue : List (Column × Option (Port × SlotId))
  col : Column → ColumnMark
  mode : Mode
  selHeld : Column
  selCurrent : Option Column
  retract : Option RetractKind
  table : Resource → Place

def ColumnRec.marked (r : ColumnRec) : ColumnMark := ⟨r.state, r.breakthrough⟩

def State.seats (s : State) : Seats where
  op i := s.pool[i].map Slot.seat
  regen := s.soft.regen.map Regen.stage
  queue := s.soft.queue.map fun q => (q.column, q.requester)
  col c := (s.column c).marked
  mode := s.mode
  selHeld := s.arb.selHeld
  selCurrent := s.arb.selCurrent
  retract := s.door.rod.retract.map (·.1)
  table r := (s.entry r).place

/-- The entry of one resource replaced. -/
def Seats.put (a : Seats) (r : Resource) (p : Place) : Seats := { a with table := fun q => if q = r then p else a.table q }

/-- The operation of one slot replaced. -/
def Seats.seat (a : Seats) (i : SlotId) (x : Option Seat) : Seats := { a with op := fun j => if j = i then x else a.op j }

/-! ### Requesters -/

theorem slotWho_seat (i : SlotId) (sl : Slot) : slotWho i sl = sl.seat.who i := by
  unfold slotWho Seat.who Slot.seat
  cases h : sl.work <;> simp [Work.kind]

theorem regenWho_stage (g : Regen) : regenWho g = g.stage.who := by
  unfold regenWho Stage.who Regen.stage
  cases g.requester <;> rfl

theorem resources_kind (w : Work) : w.resources = w.kind.resources := by
  cases w <;> rfl

theorem Seat.who_slot (i : SlotId) (x : Seat) : (x.who i).slot = some i := by
  unfold Seat.who
  cases x.kind <;> rfl

/-- The requester `h` is an operation in progress that asks for `r`. -/
def Seats.works (a : Seats) (r : Resource) (h : Holder) : Prop :=
  ∃ i x, h = Seat.who i x ∧ a.op i = some x ∧ x.fixed = false ∧ r ∈ x.kind.resources

/-- The requester `h` is a FILL in progress. -/
def Seats.fills (a : Seats) (h : Holder) : Prop :=
  ∃ i x soft, h = Seat.who i x ∧ a.op i = some x ∧ x.fixed = false ∧ x.kind = .fill soft

/-- The slot holds a FILL in progress. -/
def Seats.fillIn (a : Seats) (i : SlotId) : Prop := ∃ x soft, a.op i = some x ∧ x.fixed = false ∧ x.kind = .fill soft

/-- The requester `h` is a FILL in progress or the regeneration in progress. -/
def Seats.user (a : Seats) (started : Bool) (h : Holder) : Prop :=
  a.fills h ∨ ∃ g, a.regen = some g ∧ h = g.who ∧ (started = true → g.phase ≠ .starting)

/-- The requester `h` has SELECTOR HELD. -/
def Seats.atSelector (a : Seats) (h : Holder) : Prop :=
  (a.table .selector).lease = .held ∧ (a.table .selector).holder = some h

/-- The requester `h` is the regeneration in BRINE_DRAW, which has SELECTOR HELD. -/
def Seats.brineUser (a : Seats) (h : Holder) : Prop :=
  a.atSelector h ∧ ∃ g, a.regen = some g ∧ h = g.who ∧ g.phase = .brineDraw

/-! ### The order -/

/-- The table in order: everybody waits in its own place, and holds only what its operation asks for. -/
structure Seats.tableOrdered (a : Seats) : Prop where
  legal : ∀ r, ((a.table r).lease = .free ↔ (a.table r).holder = none) ∧ r.allows (a.table r).lease = true
  path : (a.table .inlet).lease ≠ .free → (a.table .selector).lease = .held ∧ (a.table .selector).holder = (a.table .inlet).holder
  waits : ∀ r, ∀ h ∈ (a.table r).line, h.slot ≠ none → a.works r h
  holds : ∀ r h, (a.table r).holder = some h → h.slot ≠ none → (a.table r).lease = .releasing ∨ a.works r h
  doorLine : ∀ i x dry phase back, a.op i = some x → x.fixed = false → x.kind = .door dry phase back →
    (Seat.who i x ∈ (a.table .doorDrive).line ∨ back = true) → phase = .waitQuiet
  doorHeld : ∀ i x dry phase back, a.op i = some x → x.fixed = false → x.kind = .door dry phase back →
    (a.table .doorDrive).lease = .held → (a.table .doorDrive).holder = some (Seat.who i x) → phase = .pushing
  retract : a.retract = some .lease → (a.table .doorDrive).lease = .releasing
  position : (a.table .selector).lease = .held → a.selCurrent = some a.selHeld
  selector : ∀ h, (a.table .selector).holder = some h → a.user true h
  selectorLine : ∀ h ∈ (a.table .selector).line, a.user false h ∧ (a.fills h → (a.table .selector).holder ≠ some h)
  softWaits : ∀ i x, a.op i = some x → x.fixed = false → x.kind = .fill true →
    Seat.who i x ∉ (a.table .selector).line ∧ (a.table .selector).holder ≠ some (Seat.who i x)
  inlet : ∀ h, (a.table .inlet).holder = some h → a.fills h → (a.col a.selHeld).state ≠ .regenerating
  inletLine : ∀ h ∈ (a.table .inlet).line, a.atSelector h ∧ (a.table .inlet).holder ≠ some h ∧
    (a.fills h → (a.col a.selHeld).state ≠ .regenerating)
  brine : ∀ h, (a.table .brine).holder = some h → a.brineUser h
  brineLine : ∀ h ∈ (a.table .brine).line, a.brineUser h ∧ h ∉ (a.table .inlet).line ∧ (a.table .inlet).holder ≠ some h

/-- The softener in order; `dying`: the operation of this slot is just being ended. -/
structure Seats.softOrdered (dying : Option SlotId) (a : Seats) : Prop where
  regenerating : ∀ c, (a.col c).state = .regenerating ↔ ∃ g, a.regen = some g ∧ g.column = c ∧ g.phase ≠ .starting
  standby : a.mode = .run → ∀ c, (a.col c).state = .standby → (a.col (Column.other c)).state = .inService
  marked : ∀ c i, (a.col c).mark = some i → (a.col c).state = .inService ∧ (dying = some i ∨ a.fillIn i)
  queued : ∀ c p i, (c, some (p, i)) ∈ a.queue → ∃ x, a.op i = some x ∧ x.fixed = false ∧ x.port = p ∧ x.kind = .regenerate c
  asked : ∀ g p i, a.regen = some g → g.requester = some (p, i) →
    ∃ x, a.op i = some x ∧ x.fixed = false ∧ x.port = p ∧ x.kind = .regenerate g.column
  quiet : a.mode = .setup → (∀ i, a.op i = none) ∧ a.regen = none
  nodup : (a.queue.map (·.1)).Nodup
  apart : ∀ g, a.regen = some g → ∀ q ∈ a.queue, q.1 ≠ g.column

/-- The order of O52: the table's, the softener's, and no outcome is fixed but where a lease winds down. -/
structure Seats.ordered (dying : Option SlotId) (a : Seats) : Prop where
  table : a.tableOrdered
  soft : a.softOrdered dying
  ending : ∀ i x, a.op i = some x → x.fixed = true → dying ≠ some i → ∀ r ∈ x.kind.resources, r = .circ ∨ r = .doorDrive

/-- A state in order. -/
def State.ordered (dying : Option SlotId) (s : State) : Prop := s.seats.ordered dying

end Sys2Proof.Machine

/-! The order of places and the laws it stands for: `State.ordered none` is what O52 has every step keep. -/

namespace Sys2Proof.Machine

/-! ### Reading the view -/

theorem seats_op_eq_some {s : State} {i : SlotId} {x : Seat} : s.seats.op i = some x ↔ ∃ sl, s.pool[i] = some sl ∧ sl.seat = x :=
  Option.map_eq_some_iff

theorem seats_op {s : State} {i : SlotId} {sl : Slot} (h : s.pool[i] = some sl) : s.seats.op i = some sl.seat := by
  show s.pool[i].map Slot.seat = _
  rw [h]
  rfl

theorem mem_line (s : State) (r : Resource) (h : Holder) : h ∈ (s.seats.table r).line ↔ ∃ w ∈ (s.entry r).waiters, w.who = h := List.mem_map

theorem waitsFor_iff_line (s : State) (who : Holder) (r : Resource) : s.waitsFor who r = true ↔ who ∈ (s.seats.table r).line := by
  rw [mem_line]
  unfold State.waitsFor
  rw [List.any_eq_true]
  simp only [beq_iff_eq]

theorem waitsFor_false_iff_line (s : State) (who : Holder) (r : Resource) : s.waitsFor who r = false ↔ who ∉ (s.seats.table r).line := by
  rw [← waitsFor_iff_line, Bool.not_eq_true]

theorem holdsHeld_iff (s : State) (who : Holder) (r : Resource) :
    s.holdsHeld who r = true ↔ (s.entry r).lease = .held ∧ (s.entry r).holder = some who := by
  simp [State.holdsHeld]

theorem fillAt_eq_some {s : State} {i : SlotId} {x : Slot × FillWork} :
    s.fillAt i = some x ↔ s.pool[i] = some x.1 ∧ x.1.work = .fill x.2 ∧ x.1.outcome = none := by
  obtain ⟨sl, w⟩ := x
  constructor
  · intro h
    unfold State.fillAt at h
    split at h
    next sl' hp =>
      split at h
      next w' hw ho =>
        cases h
        exact ⟨hp, hw, ho⟩
      next => cases h
    next => cases h
  · rintro ⟨hp, hw, ho⟩
    exact fillAt_eq hp hw ho

theorem kind_eq_fill {w : Work} {soft : Bool} (h : w.kind = .fill soft) : ∃ x, w = .fill x ∧ x.waitSoft = soft := by
  cases w with
  | fill x => exact ⟨x, rfl, WorkKind.fill.inj h⟩
  | _ => cases h

theorem kind_eq_door {w : Work} {dry : Bool} {phase : DoorPhase} {back : Bool} (h : w.kind = .door dry phase back) :
    ∃ x, w = doorWork dry x ∧ x.phase = phase ∧ x.heldBack = back := by
  cases w with
  | doorPush x =>
    obtain ⟨rfl, hp, hb⟩ := WorkKind.door.inj h
    exact ⟨x, rfl, hp, hb⟩
  | dry x =>
    obtain ⟨rfl, hp, hb⟩ := WorkKind.door.inj h
    exact ⟨x, rfl, hp, hb⟩
  | _ => cases h

theorem doorAt_eq_some {s : State} {i : SlotId} {sl : Slot} {dry : Bool} {w : DoorWork} (h : s.doorAt i = some (sl, dry, w)) :
    s.pool[i] = some sl ∧ sl.work = doorWork dry w ∧ sl.outcome = none := by
  unfold State.doorAt at h
  split at h
  next sl' hp =>
    split at h
    next w' hw ho => cases h; exact ⟨hp, hw, ho⟩
    next w' hw ho => cases h; exact ⟨hp, hw, ho⟩
    next => cases h
  next => cases h

theorem kind_doorWork (dry : Bool) (w : DoorWork) : (doorWork dry w).kind = .door dry w.phase w.heldBack := by
  cases dry <;> rfl

/-- A FILL in progress at a slot. -/
theorem fillIn_iff (s : State) (i : SlotId) : s.seats.fillIn i ↔ s.fillAt i ≠ none := by
  constructor
  · rintro ⟨x, soft, hx, ho, hk⟩ hn
    obtain ⟨sl, hp, rfl⟩ := seats_op_eq_some.mp hx
    obtain ⟨w, hw, -⟩ := kind_eq_fill hk
    rw [fillAt_eq hp hw (Option.isSome_eq_false_iff.mp ho |> Option.isNone_iff_eq_none.mp)] at hn
    cases hn
  · intro h
    obtain ⟨x, hx⟩ := Option.ne_none_iff_exists'.mp h
    obtain ⟨hp, hw, ho⟩ := fillAt_eq_some.mp hx
    exact ⟨_, _, seats_op hp, by rw [Slot.seat, ho]; rfl, by rw [Slot.seat, hw]; rfl⟩

theorem seat_fixed (sl : Slot) : sl.seat.fixed = false ↔ sl.outcome = none := by
  rw [Slot.seat, Option.isSome_eq_false_iff, Option.isNone_iff_eq_none]

theorem seat_who_fill {i : SlotId} {x : Seat} {soft : Bool} (h : x.kind = .fill soft) : x.who i = ⟨.port x.port, some i⟩ := by
  unfold Seat.who
  rw [h]

theorem seat_who_door {i : SlotId} {x : Seat} {dry : Bool} {phase : DoorPhase} {back : Bool} (h : x.kind = .door dry phase back) :
    x.who i = ⟨.dry, some i⟩ := by
  unfold Seat.who
  rw [h]

theorem fills_iff (s : State) (h : Holder) : s.seats.fills h ↔ ∃ i x, s.fillAt i = some x ∧ h = ⟨.port x.1.port, some i⟩ := by
  constructor
  · rintro ⟨i, x, soft, rfl, hx, ho, hk⟩
    obtain ⟨sl, hp, rfl⟩ := seats_op_eq_some.mp hx
    obtain ⟨w, hw, -⟩ := kind_eq_fill hk
    exact ⟨i, (sl, w), fillAt_eq hp hw ((seat_fixed sl).mp ho), seat_who_fill hk⟩
  · rintro ⟨i, x, hx, rfl⟩
    obtain ⟨hp, hw, ho⟩ := fillAt_eq_some.mp hx
    have hk : x.1.seat.kind = .fill x.2.waitSoft := by rw [Slot.seat, hw]; rfl
    exact ⟨i, x.1.seat, x.2.waitSoft, (seat_who_fill hk).symm, seats_op hp, (seat_fixed _).mpr ho, hk⟩

theorem works_iff (s : State) (r : Resource) (h : Holder) : s.seats.works r h ↔
    ∃ i sl, s.pool[i] = some sl ∧ sl.outcome = none ∧ h = slotWho i sl ∧ r ∈ sl.work.resources := by
  constructor
  · rintro ⟨i, x, rfl, hx, ho, hr⟩
    obtain ⟨sl, hp, rfl⟩ := seats_op_eq_some.mp hx
    exact ⟨i, sl, hp, (seat_fixed sl).mp ho, (slotWho_seat i sl).symm, by rwa [resources_kind]⟩
  · rintro ⟨i, sl, hp, ho, rfl, hr⟩
    exact ⟨i, sl.seat, slotWho_seat i sl, seats_op hp, (seat_fixed sl).mpr ho, by rwa [resources_kind] at hr⟩

theorem seats_regen_eq_some {s : State} {x : Stage} : s.seats.regen = some x ↔ ∃ g, s.soft.regen = some g ∧ g.stage = x :=
  Option.map_eq_some_iff

theorem user_iff (s : State) (started : Bool) (h : Holder) : s.seats.user started h ↔ s.pathUser started h ∧ s.regenUser started h := by
  constructor
  · rintro (hf | ⟨x, hx, rfl, hs⟩)
    · obtain ⟨i, x, hx, rfl⟩ := (fills_iff s h).mp hf
      exact ⟨fun j e => by cases e; exact .inl ⟨x, hx, rfl⟩, fun e => by cases e⟩
    · obtain ⟨g, hg, rfl⟩ := seats_regen_eq_some.mp hx
      refine ⟨fun i e => .inr ?_, fun _ => ⟨g, hg, (regenWho_stage g).symm, hs⟩⟩
      unfold Stage.who at e ⊢
      cases hq : g.stage.requester with
      | none => rw [hq] at e; cases e
      | some y =>
        rw [hq] at e
        cases e
        exact ⟨g, y.1, hg, hq, rfl, hs⟩
  · rintro ⟨hp, hr⟩
    cases hslot : h.slot with
    | none =>
      obtain ⟨g, hg, rfl, hs⟩ := hr hslot
      exact .inr ⟨g.stage, seats_regen_eq_some.mpr ⟨g, hg, rfl⟩, regenWho_stage g, hs⟩
    | some i =>
      rcases hp i hslot with ⟨x, hx, rfl⟩ | ⟨g, p, hg, hq, rfl, hs⟩
      · exact .inl ((fills_iff s _).mpr ⟨i, x, hx, rfl⟩)
      · refine .inr ⟨g.stage, seats_regen_eq_some.mpr ⟨g, hg, rfl⟩, ?_, hs⟩
        rw [← regenWho_stage, regenWho, hq]

theorem brineUser_iff (s : State) (h : Holder) : s.seats.brineUser h ↔ s.brineUser h := by
  constructor
  · rintro ⟨⟨hl, hh⟩, x, hx, rfl, hp⟩
    obtain ⟨g, hg, rfl⟩ := seats_regen_eq_some.mp hx
    exact ⟨g, hg, (regenWho_stage g).symm, hp, (holdsHeld_iff s _ _).mpr ⟨hl, hh⟩⟩
  · rintro ⟨g, hg, rfl, hp, hh⟩
    exact ⟨(holdsHeld_iff s _ _).mp hh, g.stage, seats_regen_eq_some.mpr ⟨g, hg, rfl⟩, regenWho_stage g, hp⟩

theorem holds_iff_holder {s : State} (h : s.leasesLegal) (who : Holder) (r : Resource) :
    s.holds who r = true ↔ (s.entry r).holder = some who := by
  rw [State.holds_iff]
  refine and_iff_right_of_imp fun e c => ?_
  rw [(h r).1.mp c] at e
  cases e

theorem holds_false_iff_holder {s : State} (h : s.leasesLegal) (who : Holder) (r : Resource) :
    s.holds who r = false ↔ (s.entry r).holder ≠ some who := by
  rw [← Bool.not_eq_true, holds_iff_holder h]

/-! ### The order from the laws, and the laws from the order -/

section FromLaws
variable {s : State} (ht : s.tableSafe) (hp : s.placed) (hf : s.fillSafe)
include ht hp hf

theorem tableOrdered_of_laws : s.seats.tableOrdered := by
  have hfill : ∀ {h}, s.seats.fills h → ∃ i, h.slot = some i ∧ s.fillAt i ≠ none := fun hx => by
    obtain ⟨i, x, hat, rfl⟩ := (fills_iff s _).mp hx
    exact ⟨i, rfl, by rw [hat]; simp⟩
  refine ⟨ht.legal, ht.path, fun r h hh hslot => ?_, fun r h hh hslot => ?_, fun i x dry phase back hx ho hk hw => ?_,
    fun i x dry phase back hx ho hk hl hh => ?_, fun hr => hp.retract hr, hp.position, fun h hh => ?_, fun h hh => ?_,
    fun i x hx ho hk => ?_, fun h hh hx => ?_, fun h hh => ?_, fun h hh => ?_, fun h hh => ?_⟩
  · obtain ⟨w, hw, rfl⟩ := (mem_line s r h).mp hh
    obtain ⟨i, hi⟩ := Option.ne_none_iff_exists'.mp hslot
    obtain ⟨sl, hsl, ho, hwho, hr⟩ := hp.waits r w hw i hi
    exact (works_iff s r _).mpr ⟨i, sl, hsl, ho, hwho, hr⟩
  · obtain ⟨i, hi⟩ := Option.ne_none_iff_exists'.mp hslot
    exact (hp.holds r h i hh hi).imp_right fun ⟨sl, hsl, ho, hwho, hr⟩ => (works_iff s r _).mpr ⟨i, sl, hsl, ho, hwho, hr⟩
  · obtain ⟨sl, hsl, rfl⟩ := seats_op_eq_some.mp hx
    obtain ⟨w, hwork, rfl, rfl⟩ := kind_eq_door hk
    refine (hp.door i sl dry w (doorAt_eq hsl hwork ((seat_fixed sl).mp ho))).1 ?_
    rw [waitsFor_iff_line, ← seat_who_door hk]
    exact hw
  · obtain ⟨sl, hsl, rfl⟩ := seats_op_eq_some.mp hx
    obtain ⟨w, hwork, rfl, rfl⟩ := kind_eq_door hk
    refine (hp.door i sl dry w (doorAt_eq hsl hwork ((seat_fixed sl).mp ho))).2 ?_
    rw [holdsHeld_iff, ← seat_who_door hk]
    exact ⟨hl, hh⟩
  · exact (user_iff s true h).mpr ⟨hf.users.1 h hh, hp.regen.1 h hh⟩
  · obtain ⟨w, hw, rfl⟩ := (mem_line s _ h).mp hh
    refine ⟨(user_iff s false _).mpr ⟨hf.users.2.1 w hw, hp.regen.2.1 w hw⟩, fun hx => ?_⟩
    obtain ⟨i, x, hx, hwho⟩ := (fills_iff s _).mp hx
    obtain ⟨-, hwork, -⟩ := fillAt_eq_some.mp hx
    have hslot : slotWho i x.1 = w.who := by rw [slotWho_fill hwork, hwho]; rfl
    refine (holds_false_iff_holder ht.legal _ _).mp ?_
    rw [← hslot]
    exact (((hp.fills i x.1 x.2 hx).1 (by rw [waitsFor_iff_line, hslot]; exact hh))).1
  · obtain ⟨sl, hsl, rfl⟩ := seats_op_eq_some.mp hx
    obtain ⟨w, hwork, hsoft⟩ := kind_eq_fill hk
    rw [← slotWho_seat, ← waitsFor_false_iff_line]
    have h := (hp.fills i sl w (fillAt_eq hsl hwork ((seat_fixed sl).mp ho))).2 hsoft .selector (.inl rfl)
    exact ⟨h.1, (holds_false_iff_holder ht.legal _ _).mp h.2⟩
  · obtain ⟨i, hi, hx⟩ := hfill hx
    exact (hf.flow h i hh hi hx).2
  · obtain ⟨w, hw, rfl⟩ := (mem_line s _ h).mp hh
    rcases (user_iff s true _).mpr ⟨hf.users.2.2.2 w hw, hp.regen.2.2.2 w hw⟩ with hx | ⟨x, hx, hwho, -⟩
    · obtain ⟨i, hi, hfl⟩ := hfill hx
      obtain ⟨hsel, hcol⟩ := hf.asking w hw i hi hfl
      refine ⟨(holdsHeld_iff s _ _).mp hsel, fun hin => ?_, fun _ => hcol⟩
      have hno := (hf.flow w.who i hin hi hfl).1
      rw [waitsFor_false_iff_line] at hno
      exact hno hh
    · obtain ⟨g, hg, rfl⟩ := seats_regen_eq_some.mp hx
      have hw' : s.waitsFor (regenWho g) .inlet = true := by
        rw [waitsFor_iff_line, regenWho_stage, ← hwho]
        exact hh
      obtain ⟨hsel, hin⟩ := hp.flow g hg hw'
      rw [hwho, ← regenWho_stage]
      refine ⟨(holdsHeld_iff s _ _).mp hsel, (holds_false_iff_holder ht.legal _ _).mp hin, fun hx => ?_⟩
      obtain ⟨i, hi, hfl⟩ := hfill hx
      refine (hf.asking w hw i (by rw [hwho, ← regenWho_stage]; exact hi) hfl).2
  · exact (brineUser_iff s h).mpr (hp.brine.1 h hh)
  · obtain ⟨w, hw, rfl⟩ := (mem_line s _ h).mp hh
    obtain ⟨hu, hwait, hhold⟩ := hp.brine.2 w hw
    exact ⟨(brineUser_iff s _).mpr hu, (waitsFor_false_iff_line s _ _).mp hwait, (holds_false_iff_holder ht.legal _ _).mp hhold⟩

omit ht in
theorem softOrdered_of_laws (hq : s.queueLegal) : s.seats.softOrdered none := by
  have hseat : ∀ {c p i}, ((∃ q ∈ s.soft.queue, q.column = c ∧ q.requester = some (p, i)) ∨
      (∃ g, s.soft.regen = some g ∧ g.column = c ∧ g.requester = some (p, i))) →
      ∃ x, s.seats.op i = some x ∧ x.fixed = false ∧ x.port = p ∧ x.kind = .regenerate c := fun h => by
    obtain ⟨sl, hsl, rfl, hw⟩ := hf.asked _ _ _ h
    refine ⟨sl.seat, seats_op hsl, ?_, rfl, by rw [Slot.seat, hw]; rfl⟩
    rw [seat_fixed]
    by_contra ho
    have := hp.ending _ sl hsl ho .selector (by rw [hw]; simp [Work.resources])
    rcases this with h | h <;> cases h
  obtain ⟨-, hnodup, hapart⟩ := hq
  refine ⟨fun c => (hf.regenerating c).trans ?_, hf.standby, fun c i hm => ?_, fun c p i hm => ?_, fun g p i hg hr => ?_, fun hm => ?_, ?_, ?_⟩
  · constructor
    · rintro ⟨g, hg, rfl, hs⟩
      exact ⟨g.stage, seats_regen_eq_some.mpr ⟨g, hg, rfl⟩, rfl, hs⟩
    · rintro ⟨x, hx, rfl, hs⟩
      obtain ⟨g, hg, rfl⟩ := seats_regen_eq_some.mp hx
      exact ⟨g, hg, rfl, hs⟩
  · exact (hf.marked c i hm).imp_right fun h => .inr ((fillIn_iff s i).mpr h)
  · obtain ⟨q, hq, e⟩ := List.mem_map.mp hm
    obtain ⟨e1, e2⟩ := Prod.mk.inj e
    exact hseat (.inl ⟨q, hq, e1, e2⟩)
  · obtain ⟨x, hx, rfl⟩ := seats_regen_eq_some.mp hg
    exact hseat (.inr ⟨x, hx, rfl, hr⟩)
  · obtain ⟨hpool, hreg⟩ := hf.quiet hm
    exact ⟨fun i => by show s.pool[i].map _ = _; rw [hpool i]; rfl, by show s.soft.regen.map _ = _; rw [hreg]; rfl⟩
  · show ((s.soft.queue.map fun q => (q.column, q.requester)).map (·.1)).Nodup
    rwa [List.map_map]
  · intro g hg q hm
    obtain ⟨x, hx, rfl⟩ := seats_regen_eq_some.mp hg
    obtain ⟨y, hy, rfl⟩ := List.mem_map.mp hm
    exact hapart x hx y hy

theorem ordered_of_laws (hq : s.queueLegal) : s.ordered none := by
  refine ⟨tableOrdered_of_laws ht hp hf, softOrdered_of_laws hp hf hq, fun i x hx ho _ r hr => ?_⟩
  obtain ⟨sl, hsl, rfl⟩ := seats_op_eq_some.mp hx
  refine hp.ending i sl hsl (fun c => ?_) r (by rwa [resources_kind])
  rw [(seat_fixed sl).mpr c] at ho
  cases ho

end FromLaws

/-! ### The laws from the order -/

section FromOrder
variable {s : State} (h : s.ordered none)
include h

theorem State.ordered.legal : s.leasesLegal := h.table.legal

theorem placed_of_ordered : s.placed := by
  have hl := h.legal
  obtain ⟨ht, hs, hend⟩ := h
  refine ⟨fun r w hw i hi => ?_, fun r x i hx hi => ?_, fun i sl hsl ho r hr => ?_, fun i sl dry w hat => ?_, fun hr => ht.retract hr,
    ht.position, fun i sl w hat => ?_, ⟨fun x hx => ?_, fun w hw => ?_, fun x hx => ?_, fun w hw => ?_⟩,
    ⟨fun x hx => (brineUser_iff s x).mp (ht.brine x hx), fun w hw => ?_⟩, fun g hg hw => ?_⟩
  · obtain ⟨j, sl, hsl, ho, hwho, hr⟩ := (works_iff s r _).mp (ht.waits r w.who ((mem_line s r _).mpr ⟨w, hw, rfl⟩) (by simp [hi]))
    have hj := hi
    rw [hwho, slotWho_seat, Seat.who_slot] at hj
    cases hj
    exact ⟨sl, hsl, ho, hwho, hr⟩
  · refine (ht.holds r x hx (by simp [hi])).imp_right fun hw => ?_
    obtain ⟨j, sl, hsl, ho, hwho, hr⟩ := (works_iff s r _).mp hw
    have hj := hi
    rw [hwho, slotWho_seat, Seat.who_slot] at hj
    cases hj
    exact ⟨sl, hsl, ho, hwho, hr⟩
  · refine hend i sl.seat (seats_op hsl) ?_ (by simp) r (by rwa [resources_kind] at hr)
    rw [← Bool.not_eq_false, seat_fixed]
    exact ho
  · obtain ⟨hsl, hwork, ho⟩ := doorAt_eq_some hat
    have hk : sl.seat.kind = .door dry w.phase w.heldBack := by rw [Slot.seat, hwork]; exact kind_doorWork dry w
    have hfix := (seat_fixed sl).mpr ho
    rw [waitsFor_iff_line, holdsHeld_iff, ← seat_who_door (i := i) hk]
    exact ⟨ht.doorLine i _ _ _ _ (seats_op hsl) hfix hk, fun hh => ht.doorHeld i _ _ _ _ (seats_op hsl) hfix hk hh.1 hh.2⟩
  · obtain ⟨hsl, hwork, ho⟩ := fillAt_eq_some.mp hat
    have hwho : slotWho i sl = sl.seat.who i := slotWho_seat i sl
    have hx : s.seats.fills (sl.seat.who i) := ⟨i, _, w.waitSoft, rfl, seats_op hsl, (seat_fixed sl).mpr ho, by rw [Slot.seat, hwork]; rfl⟩
    have hfree : (s.entry .selector).holder ≠ some (sl.seat.who i) → ∀ r, r = .selector ∨ r = .inlet →
        (r = .inlet → sl.seat.who i ∉ (s.seats.table r).line) ∧ s.holds (sl.seat.who i) r = false := by
      rintro hno r (rfl | rfl)
      · exact ⟨(by intro c; cases c), (holds_false_iff_holder hl _ _).mpr hno⟩
      · refine ⟨fun _ hc => hno (ht.inletLine _ hc).1.2, (holds_false_iff_holder hl _ _).mpr fun hc => hno ?_⟩
        refine ((ht.path fun hfr => ?_).2).trans hc
        rw [((hl .inlet).1.mp hfr)] at hc
        cases hc
    rw [hwho]
    refine ⟨fun hw => ?_, fun hsoft r hr => ?_⟩
    · have hno := (ht.selectorLine _ ((waitsFor_iff_line s _ _).mp hw)).2 hx
      exact ⟨(hfree hno .selector (.inl rfl)).2, (waitsFor_false_iff_line s _ _).mpr ((hfree hno .inlet (.inr rfl)).1 rfl)⟩
    · obtain ⟨hline, hno⟩ := ht.softWaits i _ (seats_op hsl) ((seat_fixed sl).mpr ho) (by rw [Slot.seat, hwork]; simp [Work.kind, hsoft])
      refine ⟨(waitsFor_false_iff_line s _ _).mpr ?_, (hfree hno r hr).2⟩
      rcases hr with rfl | rfl
      · exact hline
      · exact (hfree hno .inlet (.inr rfl)).1 rfl
  · exact ((user_iff s true x).mp (ht.selector x hx)).2
  · exact ((user_iff s false _).mp (ht.selectorLine _ ((mem_line s _ _).mpr ⟨w, hw, rfl⟩)).1).2
  · refine ((user_iff s true x).mp (ht.selector x ?_)).2
    refine ((ht.path fun hfr => ?_).2).trans hx
    rw [((hl .inlet).1.mp hfr)] at hx
    cases hx
  · exact ((user_iff s true _).mp (ht.selector _ (ht.inletLine _ ((mem_line s _ _).mpr ⟨w, hw, rfl⟩)).1.2)).2
  · obtain ⟨hu, hline, hno⟩ := ht.brineLine _ ((mem_line s _ _).mpr ⟨w, hw, rfl⟩)
    exact ⟨(brineUser_iff s _).mp hu, (waitsFor_false_iff_line s _ _).mpr hline, (holds_false_iff_holder hl _ _).mpr hno⟩
  · obtain ⟨hsel, hno, -⟩ := ht.inletLine _ ((waitsFor_iff_line s _ _).mp hw)
    exact ⟨(holdsHeld_iff s _ _).mpr hsel, (holds_false_iff_holder hl _ _).mpr hno⟩

theorem fillSafe_of_ordered : s.fillSafe := by
  have hl := h.legal
  obtain ⟨ht, hs, hend⟩ := h
  have hfill : ∀ {w i}, s.seats.user true w → w.slot = some i → s.fillAt i ≠ none → s.seats.fills w := by
    rintro w i (hx | ⟨g, hg, rfl, -⟩) hi hne
    · exact hx
    · exfalso
      obtain ⟨y, soft, hop, hfix, hk⟩ := (fillIn_iff s i).mpr hne
      unfold Stage.who at hi
      cases hq : g.requester with
      | none => rw [hq] at hi; cases hi
      | some p =>
        rw [hq] at hi
        cases hi
        obtain ⟨z, hz, -, -, hkz⟩ := hs.asked g p.1 p.2 hg hq
        rw [hop] at hz
        cases hz
        rw [hk] at hkz
        cases hkz
  have hinlet : ∀ {x}, (s.entry .inlet).holder = some x → (s.entry .selector).holder = some x := fun hx => by
    refine ((ht.path fun hfr => ?_).2).trans hx
    rw [((hl .inlet).1.mp hfr)] at hx
    cases hx
  refine ⟨fun c => (hs.regenerating c).trans ?_, hs.standby, fun c i hm => (hs.marked c i hm).imp_right fun hx => ?_, fun c p i hm => ?_,
    fun hm => ?_, ⟨fun x hx => ?_, fun w hw => ?_, fun x hx => ?_, fun w hw => ?_⟩, fun w hw i hi hne => ?_, fun x i hx hi hne => ?_⟩
  · constructor
    · rintro ⟨x, hx, rfl, hp⟩
      obtain ⟨g, hg, rfl⟩ := seats_regen_eq_some.mp hx
      exact ⟨g, hg, rfl, hp⟩
    · rintro ⟨g, hg, rfl, hp⟩
      exact ⟨g.stage, seats_regen_eq_some.mpr ⟨g, hg, rfl⟩, rfl, hp⟩
  · exact (fillIn_iff s i).mp (hx.resolve_left (by simp))
  · have hseat : ∃ x, s.seats.op i = some x ∧ x.fixed = false ∧ x.port = p ∧ x.kind = .regenerate c := by
      rcases hm with ⟨q, hq, rfl, hr⟩ | ⟨g, hg, rfl, hr⟩
      · exact hs.queued _ p i (List.mem_map.mpr ⟨q, hq, by rw [hr]⟩)
      · exact hs.asked g.stage p i (seats_regen_eq_some.mpr ⟨g, hg, rfl⟩) hr
    obtain ⟨x, hx, -, rfl, hk⟩ := hseat
    obtain ⟨sl, hsl, rfl⟩ := seats_op_eq_some.mp hx
    refine ⟨sl, hsl, rfl, ?_⟩
    unfold Slot.seat at hk
    cases hw : sl.work <;> rw [hw] at hk <;> cases hk
    rfl
  · obtain ⟨hop, hreg⟩ := hs.quiet hm
    exact ⟨fun i => Option.map_eq_none_iff.mp (hop i), Option.map_eq_none_iff.mp hreg⟩
  · exact ((user_iff s true x).mp (ht.selector x hx)).1
  · exact ((user_iff s false _).mp (ht.selectorLine _ ((mem_line s _ _).mpr ⟨w, hw, rfl⟩)).1).1
  · exact ((user_iff s true x).mp (ht.selector x (hinlet hx))).1
  · exact ((user_iff s true _).mp (ht.selector _ (ht.inletLine _ ((mem_line s _ _).mpr ⟨w, hw, rfl⟩)).1.2)).1
  · obtain ⟨hsel, -, hcol⟩ := ht.inletLine _ ((mem_line s _ _).mpr ⟨w, hw, rfl⟩)
    exact ⟨(holdsHeld_iff s _ _).mpr hsel, hcol (hfill (ht.selector _ hsel.2) hi hne)⟩
  · have hx' := hfill (ht.selector x (hinlet hx)) hi hne
    refine ⟨(waitsFor_false_iff_line s _ _).mpr fun hc => (ht.inletLine x hc).2.1 hx, ht.inlet x hx hx'⟩

end FromOrder

end Sys2Proof.Machine

/-! The order under the moves of the table: leases let go, lists shortened, requests made (R4 to R6, R21, R22). -/

namespace Sys2Proof.Machine

/-! ### Requesters of two views -/

theorem Seats.works_congr {a b : Seats} (h : b.op = a.op) (r : Resource) (x : Holder) : b.works r x ↔ a.works r x := by
  unfold Seats.works
  rw [h]

theorem Seats.fills_congr {a b : Seats} (h : b.op = a.op) (x : Holder) : b.fills x ↔ a.fills x := by
  unfold Seats.fills
  rw [h]

theorem Seats.user_congr {a b : Seats} (h : b.op = a.op) (hr : b.regen = a.regen) (started : Bool) (x : Holder) :
    b.user started x ↔ a.user started x := by
  unfold Seats.user
  rw [hr, Seats.fills_congr h]

theorem Seats.softOrdered.congr {a b : Seats} {d : Option SlotId} (k : a.softOrdered d) (h : b.op = a.op) (hr : b.regen = a.regen)
    (hq : b.queue = a.queue) (hc : b.col = a.col) (hm : b.mode = a.mode) : b.softOrdered d := by
  refine ⟨?_, ?_, ?_, ?_, ?_, ?_, ?_, ?_⟩
  · rw [hc, hr]; exact k.regenerating
  · rw [hc, hm]; exact k.standby
  · rw [hc]; unfold Seats.fillIn; rw [h]; exact k.marked
  · rw [hq, h]; exact k.queued
  · rw [hr, h]; exact k.asked
  · rw [hm, h, hr]; exact k.quiet
  · rw [hq]; exact k.nodup
  · rw [hr, hq]; exact k.apart

/-- The regeneration in progress is no FILL. -/
theorem Seats.softOrdered.regen_not_fills {a : Seats} {d : Option SlotId} (k : a.softOrdered d) {g : Stage} (hg : a.regen = some g) :
    ¬a.fills g.who := by
  rintro ⟨i, x, soft, hwho, hx, -, hk⟩
  unfold Stage.who at hwho
  cases hq : g.requester with
  | none =>
    rw [hq] at hwho
    have := congrArg Holder.slot hwho
    rw [Seat.who_slot] at this
    cases this
  | some p =>
    rw [hq] at hwho
    have := congrArg Holder.slot hwho
    rw [Seat.who_slot] at this
    cases this
    obtain ⟨z, hz, -, -, hkz⟩ := k.asked g p.1 p.2 hg hq
    rw [hx] at hz
    cases hz
    rw [hk] at hkz
    cases hkz

/-- Where INLET has a holder, SELECTOR is HELD by it. -/
theorem Seats.tableOrdered.inlet_selector {a : Seats} (k : a.tableOrdered) {h : Holder} (hh : (a.table .inlet).holder = some h) : a.atSelector h := by
  have hne : (a.table .inlet).lease ≠ .free := fun c => by
    rw [(k.legal .inlet).1.mp c] at hh
    cases hh
  exact ⟨(k.path hne).1, (k.path hne).2.trans hh⟩

/-! ### Leases let go and lists shortened -/

/-- What a lease becomes that is let go, suspended or restored. -/
inductive PlaceStep (r : Resource) (p q : Place) : Prop
  | same (lease : q.lease = p.lease) (holder : q.holder = p.holder)
  | free (lease : q.lease = .free) (holder : q.holder = none)
  | winds (lease : q.lease = .releasing) (was : p.lease ≠ .free) (holder : q.holder = p.holder) (which : r = .circ ∨ r = .doorDrive)
  | swaps (guarded : r.guarded = true) (was : p.lease = .held ∨ p.lease = .suspended) (lease : q.lease = .held ∨ q.lease = .suspended)
    (holder : q.holder = p.holder)

theorem PlaceStep.refl (r : Resource) (p : Place) : PlaceStep r p p := .same rfl rfl

theorem PlaceStep.trans {r : Resource} {p q u : Place} (h : PlaceStep r p q) (k : PlaceStep r q u) : PlaceStep r p u := by
  cases k with
  | same kl kh =>
    cases h with
    | same hl hh => exact .same (kl.trans hl) (kh.trans hh)
    | free hl hh => exact .free (kl.trans hl) (kh.trans hh)
    | winds hl hw hh hr => exact .winds (kl.trans hl) hw (kh.trans hh) hr
    | swaps hg hw hl hh => exact .swaps hg hw (hl.imp kl.trans kl.trans) (kh.trans hh)
  | free kl kh => exact .free kl kh
  | winds kl kw kh kr =>
    cases h with
    | same hl hh => exact .winds kl (hl ▸ kw) (kh.trans hh) kr
    | free hl hh => exact absurd hl kw
    | winds hl hw hh hr => exact .winds kl hw (kh.trans hh) kr
    | swaps hg hw hl hh => exact .winds kl (by rcases hw with e | e <;> rw [e] <;> decide) (kh.trans hh) kr
  | swaps kg kw kl kh =>
    cases h with
    | same hl hh => exact .swaps kg (hl ▸ kw) kl (kh.trans hh)
    | free hl hh => rcases kw with e | e <;> (rw [hl] at e; cases e)
    | winds hl hw hh hr => rcases kw with e | e <;> (rw [hl] at e; cases e)
    | swaps hg hw hl hh => exact .swaps kg hw kl (kh.trans hh)

/-- No new holder and no new lease but of the same holder. -/
theorem PlaceStep.holder {r : Resource} {p q : Place} (h : PlaceStep r p q) {x : Holder} (hx : q.holder = some x) : p.holder = some x := by
  cases h with
  | same hl hh => exact hh ▸ hx
  | free hl hh => rw [hh] at hx; cases hx
  | winds hl hw hh hr => exact hh ▸ hx
  | swaps hg hw hl hh => exact hh ▸ hx

theorem PlaceStep.legal {r : Resource} {p q : Place} (h : PlaceStep r p q) (k : (p.lease = .free ↔ p.holder = none) ∧ r.allows p.lease = true) :
    (q.lease = .free ↔ q.holder = none) ∧ r.allows q.lease = true := by
  cases h with
  | same hl hh => rw [hl, hh]; exact k
  | free hl hh => rw [hl, hh]; exact ⟨⟨fun _ => rfl, fun _ => rfl⟩, by cases r <;> rfl⟩
  | winds hl hw hh hr =>
    rw [hl, hh]
    refine ⟨⟨(fun c => by cases c), fun c => absurd (k.1.mpr c) hw⟩, ?_⟩
    rcases hr with rfl | rfl <;> rfl
  | swaps hg hw hl hh =>
    have hne : p.holder ≠ none := fun c => by
      rcases hw with e | e <;> (rw [k.1.mpr c] at e; cases e)
    rw [hh]
    rcases hl with e | e <;> rw [e]
    · exact ⟨⟨(fun c => by cases c), fun c => absurd c hne⟩, by cases r <;> rfl⟩
    · exact ⟨⟨(fun c => by cases c), fun c => absurd c hne⟩, by cases r <;> exact hg⟩

/-- Leases are let go, suspended and restored, and lists are shortened; everything else stands. -/
structure Loosens (a b : Seats) : Prop where
  op : b.op = a.op
  regen : b.regen = a.regen
  queue : b.queue = a.queue
  col : b.col = a.col
  mode : b.mode = a.mode
  selHeld : b.selHeld = a.selHeld
  line : ∀ r, (b.table r).line ⊆ (a.table r).line
  place : ∀ r, PlaceStep r (a.table r) (b.table r)
  current : (b.table .selector).lease = .held → b.selCurrent = a.selCurrent
  retract : (a.retract = some .lease → (a.table .doorDrive).lease = .releasing) → b.retract = some .lease →
    (b.table .doorDrive).lease = .releasing

theorem Loosens.refl (a : Seats) : Loosens a a :=
  ⟨rfl, rfl, rfl, rfl, rfl, rfl, fun _ => List.Subset.refl _, fun r => .refl r _, fun _ => rfl, id⟩

/-- SELECTOR is let go or stands as it did. -/
theorem Loosens.selector {a b : Seats} (h : Loosens a b) : ((b.table .selector).lease = (a.table .selector).lease ∧
    (b.table .selector).holder = (a.table .selector).holder) ∨ ((b.table .selector).lease = .free ∧ (b.table .selector).holder = none) := by
  cases h.place .selector with
  | same hl hh => exact .inl ⟨hl, hh⟩
  | free hl hh => exact .inr ⟨hl, hh⟩
  | winds _ _ _ hr => rcases hr with e | e <;> cases e
  | swaps hg => cases hg

theorem Loosens.trans {a b c : Seats} (h : Loosens a b) (k : Loosens b c) : Loosens a c where
  op := k.op.trans h.op
  regen := k.regen.trans h.regen
  queue := k.queue.trans h.queue
  col := k.col.trans h.col
  mode := k.mode.trans h.mode
  selHeld := k.selHeld.trans h.selHeld
  line r := List.Subset.trans (k.line r) (h.line r)
  place r := (h.place r).trans (k.place r)
  current hl := (k.current hl).trans (h.current (by
    rcases k.selector with ⟨e, -⟩ | ⟨e, -⟩
    · exact e ▸ hl
    · rw [e] at hl; cases hl))
  retract hr := k.retract (h.retract hr)

/-- Where SELECTOR is let go, its holder waits for nothing on the path and holds nothing of it. -/
def Loosens.clears (a b : Seats) : Prop :=
  (b.table .selector).holder = none → ∀ w, (a.table .selector).holder = some w →
    w ∉ (b.table .inlet).line ∧ w ∉ (b.table .brine).line ∧ (b.table .brine).holder ≠ some w ∧ (b.table .inlet).holder ≠ some w

theorem Loosens.tableOrdered {a b : Seats} (h : Loosens a b) (hc : Loosens.clears a b) (k : a.tableOrdered) : b.tableOrdered := by
  have hat : ∀ {w}, a.atSelector w → (w ∈ (b.table .inlet).line ∨ w ∈ (b.table .brine).line ∨ (b.table .brine).holder = some w ∨
      (b.table .inlet).holder = some w) → b.atSelector w := fun hw hor => by
    rcases h.selector with ⟨hl, hh⟩ | ⟨hl, hh⟩
    · exact ⟨hl.trans hw.1, hh.trans hw.2⟩
    · obtain ⟨h1, h2, h3, h4⟩ := hc hh _ hw.2
      rcases hor with e | e | e | e
      · exact absurd e h1
      · exact absurd e h2
      · exact absurd e h3
      · exact absurd e h4
  have hselHolder : ∀ {w}, (b.table .selector).holder = some w → (a.table .selector).holder = some w := fun hw => (h.place .selector).holder hw
  have hfills := Seats.fills_congr h.op
  refine ⟨fun r => (h.place r).legal (k.legal r), fun hl => ?_, fun r w hw hs => ?_, fun r w hw hs => ?_, fun i x dry phase back hx ho hk hw => ?_,
    fun i x dry phase back hx ho hk hl hh => ?_, h.retract k.retract, fun hl => ?_, fun w hw => ?_, fun w hw => ?_, fun i x hx ho hk => ?_,
    fun w hw hf => ?_, fun w hw => ?_, fun w hw => ?_, fun w hw => ?_⟩
  · have hne : (b.table .inlet).holder ≠ none := fun c => hl (((h.place .inlet).legal (k.legal .inlet)).1.mpr c)
    obtain ⟨w, hw⟩ := Option.ne_none_iff_exists'.mp hne
    rw [hw]
    exact hat (k.inlet_selector ((h.place .inlet).holder hw)) (.inr (.inr (.inr hw)))
  · exact (Seats.works_congr h.op r w).mpr (k.waits r w (h.line r hw) hs)
  · have hold := k.holds r w ((h.place r).holder hw) hs
    rw [Seats.works_congr h.op]
    cases h.place r with
    | same hl hh => rwa [hl]
    | free hl hh => rw [hh] at hw; cases hw
    | winds hl => exact .inl hl
    | swaps hg hwas hl hh => exact .inr (hold.resolve_left (by rcases hwas with e | e <;> rw [e] <;> decide))
  · rw [h.op] at hx
    exact k.doorLine i x dry phase back hx ho hk (hw.imp_left (h.line .doorDrive ·))
  · rw [h.op] at hx
    refine k.doorHeld i x dry phase back hx ho hk ?_ ((h.place .doorDrive).holder hh)
    cases h.place .doorDrive with
    | same e _ => exact e ▸ hl
    | free e _ => rw [e] at hl; cases hl
    | winds e => rw [e] at hl; cases hl
    | swaps hg => cases hg
  · rw [h.current hl, h.selHeld]
    refine k.position ?_
    rcases h.selector with ⟨e, -⟩ | ⟨e, -⟩
    · exact e ▸ hl
    · rw [e] at hl; cases hl
  · exact (Seats.user_congr h.op h.regen true w).mpr (k.selector w (hselHolder hw))
  · obtain ⟨hu, hno⟩ := k.selectorLine w (h.line _ hw)
    exact ⟨(Seats.user_congr h.op h.regen false w).mpr hu, fun hf c => hno ((hfills w).mp hf) (hselHolder c)⟩
  · rw [h.op] at hx
    obtain ⟨h1, h2⟩ := k.softWaits i x hx ho hk
    exact ⟨fun c => h1 (h.line _ c), fun c => h2 (hselHolder c)⟩
  · rw [h.col, h.selHeld]
    exact k.inlet w ((h.place .inlet).holder hw) ((hfills w).mp hf)
  · obtain ⟨h1, h2, h3⟩ := k.inletLine w (h.line _ hw)
    refine ⟨hat h1 (.inl hw), fun c => h2 ((h.place .inlet).holder c), fun hf => ?_⟩
    rw [h.col, h.selHeld]
    exact h3 ((hfills w).mp hf)
  · obtain ⟨h1, g, hg, e, hp⟩ := k.brine w ((h.place .brine).holder hw)
    exact ⟨hat h1 (.inr (.inr (.inl hw))), g, h.regen.trans hg, e, hp⟩
  · obtain ⟨⟨h1, g, hg, e, hp⟩, h2, h3⟩ := k.brineLine w (h.line _ hw)
    exact ⟨⟨hat h1 (.inr (.inl hw)), g, h.regen.trans hg, e, hp⟩, fun c => h2 (h.line _ c), fun c => h3 ((h.place .inlet).holder c)⟩

theorem Loosens.ordered {a b : Seats} {d : Option SlotId} (h : Loosens a b) (hc : Loosens.clears a b) (k : a.ordered d) : b.ordered d :=
  ⟨h.tableOrdered hc k.table, k.soft.congr h.op h.regen h.queue h.col h.mode, h.op ▸ k.ending⟩

/-- SELECTOR stands where its place does. -/
theorem Loosens.clears_of_selector {a b : Seats} (h : (b.table .selector).holder = (a.table .selector).holder) : Loosens.clears a b :=
  fun hb w hw => by
    rw [h, hw] at hb
    cases hb

end Sys2Proof.Machine

/-! The order under the other moves: requests, grants, operations that end, begin and go on, and the softener's changes. -/

namespace Sys2Proof.Machine

/-! ### A request (R3, R21) -/

/-- A requester that may join the list of a resource. -/
structure Seats.mayAsk (a : Seats) (r : Resource) (h : Holder) : Prop where
  works : h.slot ≠ none → a.works r h
  selector : r = .selector → a.user false h ∧ (a.fills h → (a.table .selector).holder ≠ some h) ∧
    ∀ i x, a.op i = some x → x.fixed = false → x.kind = .fill true → h ≠ Seat.who i x
  inlet : r = .inlet → a.atSelector h ∧ (a.table .inlet).holder ≠ some h ∧ (a.fills h → (a.col a.selHeld).state ≠ .regenerating) ∧
    h ∉ (a.table .brine).line
  brine : r = .brine → a.brineUser h ∧ h ∉ (a.table .inlet).line ∧ (a.table .inlet).holder ≠ some h
  door : r = .doorDrive → ∀ i x dry phase back, a.op i = some x → x.fixed = false → x.kind = .door dry phase back → h = Seat.who i x →
    phase = .waitQuiet

/-- A list with one more requester. -/
def Seats.asked (a : Seats) (r : Resource) (h : Holder) : Seats := a.put r { a.table r with line := (a.table r).line ++ [h] }

theorem Seats.lease_asked (a : Seats) (r q : Resource) (h : Holder) : ((a.asked r h).table q).lease = (a.table q).lease := by
  show (if q = r then _ else _ : Place).lease = _
  split
  next e => rw [e]
  next => rfl

theorem Seats.holder_asked (a : Seats) (r q : Resource) (h : Holder) : ((a.asked r h).table q).holder = (a.table q).holder := by
  show (if q = r then _ else _ : Place).holder = _
  split
  next e => rw [e]
  next => rfl

theorem Seats.mem_line_asked (a : Seats) (r q : Resource) (h x : Holder) :
    x ∈ ((a.asked r h).table q).line ↔ x ∈ (a.table q).line ∨ (q = r ∧ x = h) := by
  show x ∈ (if q = r then _ else _ : Place).line ↔ _
  split
  next e => rw [e]; simp
  next e => simp [e]

theorem Seats.ordered.ask {a : Seats} {d : Option SlotId} {r : Resource} {h : Holder} (k : a.ordered d) (m : a.mayAsk r h) :
    (a.asked r h).ordered d := by
  obtain ⟨t, s, e⟩ := k
  have hl := a.lease_asked r
  have hh := a.holder_asked r
  have hat : ∀ {x}, (a.asked r h).atSelector x ↔ a.atSelector x := by
    intro x
    unfold Seats.atSelector
    rw [hl, hh]
  refine ⟨⟨fun q => ?_, ?_, fun q x hx hs => ?_, fun q x hx hs => ?_, fun i x dry phase back hx ho hk hw => ?_, fun i x dry phase back hx ho hk hle hho => ?_,
    fun hr => ?_, fun hle => ?_, fun x hx => ?_, fun x hx => ?_, fun i x hx ho hk => ?_, fun x hx hf => ?_, fun x hx => ?_, fun x hx => ?_,
    fun x hx => ?_⟩, s.congr rfl rfl rfl rfl rfl, e⟩
  · rw [hl, hh]; exact t.legal q
  · rw [hl, hl, hh, hh]; exact t.path
  · rcases (a.mem_line_asked r q h x).mp hx with hx | ⟨rfl, rfl⟩
    · exact t.waits q x hx hs
    · exact m.works hs
  · rw [hl]
    rw [hh] at hx
    exact t.holds q x hx hs
  · rcases hw with hw | hw
    · rcases (a.mem_line_asked r _ h _).mp hw with hw | ⟨hr, hw⟩
      · exact t.doorLine i x dry phase back hx ho hk (.inl hw)
      · exact m.door hr.symm i x dry phase back hx ho hk hw.symm
    · exact t.doorLine i x dry phase back hx ho hk (.inr hw)
  · rw [hl] at hle
    rw [hh] at hho
    exact t.doorHeld i x dry phase back hx ho hk hle hho
  · rw [hl]; exact t.retract hr
  · rw [hl] at hle; exact t.position hle
  · rw [hh] at hx; exact t.selector x hx
  · rw [hh]
    rcases (a.mem_line_asked r _ h x).mp hx with hx | ⟨hr, rfl⟩
    · exact t.selectorLine x hx
    · exact ⟨(m.selector hr.symm).1, (m.selector hr.symm).2.1⟩
  · rw [hh]
    refine ⟨fun hx' => ?_, (t.softWaits i x hx ho hk).2⟩
    rcases (a.mem_line_asked r _ h _).mp hx' with hx' | ⟨hr, hx'⟩
    · exact (t.softWaits i x hx ho hk).1 hx'
    · exact (m.selector hr.symm).2.2 i x hx ho hk hx'.symm
  · rw [hh] at hx; exact t.inlet x hx hf
  · rw [hh]
    rcases (a.mem_line_asked r _ h x).mp hx with hx | ⟨hr, rfl⟩
    · obtain ⟨h1, h2, h3⟩ := t.inletLine x hx
      exact ⟨hat.mpr h1, h2, h3⟩
    · obtain ⟨h1, h2, h3, -⟩ := m.inlet hr.symm
      exact ⟨hat.mpr h1, h2, h3⟩
  · rw [hh] at hx
    exact (t.brine x hx).imp_left hat.mpr
  · rw [hh]
    have hno : ∀ {y}, y ∈ (a.table .brine).line → y ∉ (a.table .inlet).line → y ∉ ((a.asked r h).table .inlet).line := fun hy hn c => by
      rcases (a.mem_line_asked r _ h _).mp c with c | ⟨hr, rfl⟩
      · exact hn c
      · exact (m.inlet hr.symm).2.2.2 hy
    rcases (a.mem_line_asked r _ h x).mp hx with hx | ⟨hr, rfl⟩
    · obtain ⟨h1, h2, h3⟩ := t.brineLine x hx
      exact ⟨h1.imp_left hat.mpr, hno hx h2, h3⟩
    · obtain ⟨h1, h2, h3⟩ := m.brine hr.symm
      refine ⟨h1.imp_left hat.mpr, fun c => ?_, h3⟩
      rcases (a.mem_line_asked r _ x x).mp c with c | ⟨c, -⟩
      · exact h2 c
      · rw [← hr] at c; cases c

/-! ### The operations of the slots -/

/-- Two kinds of the same operation. -/
inductive WorkKind.alike : WorkKind → WorkKind → Prop
  | refl (k : WorkKind) : alike k k
  | fill (x y : Bool) : alike (.fill x) (.fill y)
  | door (dry : Bool) (p q : DoorPhase) (x y : Bool) : alike (.door dry p x) (.door dry q y)

theorem WorkKind.alike.resources {k l : WorkKind} (h : k.alike l) : l.resources = k.resources := by cases h <;> rfl

theorem WorkKind.alike.fill_iff {k l : WorkKind} (h : k.alike l) : (∃ s, l = .fill s) ↔ ∃ s, k = .fill s := by
  cases h with
  | refl => exact Iff.rfl
  | fill x y => exact ⟨fun _ => ⟨_, rfl⟩, fun _ => ⟨_, rfl⟩⟩
  | door => exact ⟨(fun ⟨_, e⟩ => by cases e), (fun ⟨_, e⟩ => by cases e)⟩

theorem WorkKind.alike.regenerate {k l : WorkKind} (h : k.alike l) {c : Column} (hk : k = .regenerate c) : l = .regenerate c := by
  cases h with
  | refl => exact hk
  | fill => cases hk
  | door => cases hk

/-- The operation of a slot that goes on. -/
structure Seat.alike (x y : Seat) : Prop where
  port : y.port = x.port
  fixed : y.fixed = x.fixed
  kind : x.kind.alike y.kind

theorem Seat.alike.who {x y : Seat} (h : x.alike y) (i : SlotId) : y.who i = x.who i := by
  obtain ⟨xp, xf, xk⟩ := x
  obtain ⟨yp, yf, yk⟩ := y
  obtain ⟨hp, hf, hk⟩ := h
  dsimp only at hp hf hk
  subst hp
  cases hk <;> rfl

/-- Every operation goes on. -/
def Seats.goesOn (a b : Seats) : Prop := ∀ i, (a.op i = none ∧ b.op i = none) ∨ ∃ x y, a.op i = some x ∧ b.op i = some y ∧ x.alike y

theorem Seats.goesOn.back {a b : Seats} (h : a.goesOn b) {i : SlotId} {y : Seat} (hy : b.op i = some y) : ∃ x, a.op i = some x ∧ x.alike y := by
  rcases h i with ⟨-, e⟩ | ⟨x, z, hx, hz, hk⟩
  · rw [e] at hy; cases hy
  · rw [hy] at hz; cases hz; exact ⟨x, hx, hk⟩

theorem Seats.goesOn.forth {a b : Seats} (h : a.goesOn b) {i : SlotId} {x : Seat} (hx : a.op i = some x) : ∃ y, b.op i = some y ∧ x.alike y := by
  rcases h i with ⟨e, -⟩ | ⟨z, y, hz, hy, hk⟩
  · rw [e] at hx; cases hx
  · rw [hx] at hz; cases hz; exact ⟨y, hy, hk⟩

theorem Seats.goesOn.works {a b : Seats} (h : a.goesOn b) (r : Resource) (x : Holder) : b.works r x ↔ a.works r x := by
  constructor
  · rintro ⟨i, y, rfl, hy, ho, hr⟩
    obtain ⟨z, hz, hk⟩ := h.back hy
    exact ⟨i, z, hk.who i, hz, hk.fixed ▸ ho, hk.kind.resources ▸ hr⟩
  · rintro ⟨i, z, rfl, hz, ho, hr⟩
    obtain ⟨y, hy, hk⟩ := h.forth hz
    exact ⟨i, y, (hk.who i).symm, hy, hk.fixed.trans ho, hk.kind.resources.symm ▸ hr⟩

theorem Seats.goesOn.fills {a b : Seats} (h : a.goesOn b) (x : Holder) : b.fills x ↔ a.fills x := by
  constructor
  · rintro ⟨i, y, soft, rfl, hy, ho, hs⟩
    obtain ⟨z, hz, hk⟩ := h.back hy
    obtain ⟨s, hs⟩ := hk.kind.fill_iff.mp ⟨soft, hs⟩
    exact ⟨i, z, s, hk.who i, hz, hk.fixed ▸ ho, hs⟩
  · rintro ⟨i, z, soft, rfl, hz, ho, hs⟩
    obtain ⟨y, hy, hk⟩ := h.forth hz
    obtain ⟨s, hs⟩ := hk.kind.fill_iff.mpr ⟨soft, hs⟩
    exact ⟨i, y, s, (hk.who i).symm, hy, hk.fixed.trans ho, hs⟩

theorem Seats.goesOn.fillIn {a b : Seats} (h : a.goesOn b) {i : SlotId} (hf : a.fillIn i) : b.fillIn i := by
  obtain ⟨z, soft, hz, ho, hs⟩ := hf
  obtain ⟨y, hy, hk⟩ := h.forth hz
  obtain ⟨s, hs⟩ := hk.kind.fill_iff.mpr ⟨soft, hs⟩
  exact ⟨y, s, hy, hk.fixed.trans ho, hs⟩

/-- The operations go on, each where the order has it; everything else stands. -/
structure Proceeds (a b : Seats) : Prop where
  goes : a.goesOn b
  rest : { b with op := a.op } = a
  doorLine : ∀ i x dry phase back, b.op i = some x → x.fixed = false → x.kind = .door dry phase back →
    (Seat.who i x ∈ (a.table .doorDrive).line ∨ back = true) → phase = .waitQuiet
  doorHeld : ∀ i x dry phase back, b.op i = some x → x.fixed = false → x.kind = .door dry phase back →
    (a.table .doorDrive).lease = .held → (a.table .doorDrive).holder = some (Seat.who i x) → phase = .pushing
  softWaits : ∀ i x, b.op i = some x → x.fixed = false → x.kind = .fill true →
    Seat.who i x ∉ (a.table .selector).line ∧ (a.table .selector).holder ≠ some (Seat.who i x)

theorem Proceeds.ordered {a b : Seats} {d : Option SlotId} (h : Proceeds a b) (k : a.ordered d) : b.ordered d := by
  obtain ⟨op, regen, queue, col, mode, selHeld, selCurrent, retract, table⟩ := a
  obtain ⟨op', regen', queue', col', mode', selHeld', selCurrent', retract', table'⟩ := b
  obtain ⟨hg, hrest, hdl, hdh, hsw⟩ := h
  cases hrest
  obtain ⟨t, s, e⟩ := k
  refine ⟨⟨t.legal, t.path, fun r x hx hs => (hg.works r x).mpr (t.waits r x hx hs), fun r x hx hs => (t.holds r x hx hs).imp_right (hg.works r x).mpr,
    hdl, hdh, t.retract, t.position, fun x hx => (t.selector x hx).imp_left (hg.fills x).mpr, fun x hx => ?_, hsw, fun x hx hf => t.inlet x hx ((hg.fills x).mp hf),
    fun x hx => ?_, t.brine, t.brineLine⟩, ⟨s.regenerating, s.standby, fun c i hm => (s.marked c i hm).imp_right (·.imp_right hg.fillIn), fun c p i hm => ?_,
    fun g p i hr hq => ?_, fun hm => ⟨fun i => ?_, (s.quiet hm).2⟩, s.nodup, s.apart⟩, fun i x hx ho hd r hr => ?_⟩
  · obtain ⟨h1, h2⟩ := t.selectorLine x hx
    exact ⟨h1.imp_left (hg.fills x).mpr, fun hf => h2 ((hg.fills x).mp hf)⟩
  · obtain ⟨h1, h2, h3⟩ := t.inletLine x hx
    exact ⟨h1, h2, fun hf => h3 ((hg.fills x).mp hf)⟩
  · obtain ⟨x, hx, ho, hp, hk⟩ := s.queued c p i hm
    obtain ⟨y, hy, hka⟩ := hg.forth hx
    exact ⟨y, hy, hka.fixed.trans ho, hka.port.trans hp, hka.kind.regenerate hk⟩
  · obtain ⟨x, hx, ho, hp, hk⟩ := s.asked g p i hr hq
    obtain ⟨y, hy, hka⟩ := hg.forth hx
    exact ⟨y, hy, hka.fixed.trans ho, hka.port.trans hp, hka.kind.regenerate hk⟩
  · rcases hg i with ⟨-, e⟩ | ⟨x, y, hx, -, -⟩
    · exact e
    · have hn := (s.quiet hm).1 i
      rw [hx] at hn
      cases hn
  · obtain ⟨z, hz, hk⟩ := hg.back hx
    exact e i z hz (hk.fixed ▸ ho) hd r (hk.kind.resources ▸ hr)

end Sys2Proof.Machine

/-! The order where an operation ends or begins, a grant is made, and the softener changes. -/

namespace Sys2Proof.Machine

/-! ### The end and the beginning of an operation (R27, R29) -/

/-- An operation that is being ended: it waits nowhere and holds only what winds down. -/
structure Seats.letsGo (a : Seats) (i : SlotId) : Prop where
  line : ∀ r, ∀ h ∈ (a.table r).line, h.slot ≠ some i
  holder : ∀ r h, (a.table r).holder = some h → h.slot = some i → (a.table r).lease = .releasing

theorem Seat.who_inj {i j : SlotId} {x y : Seat} (h : Seat.who i x = Seat.who j y) : i = j := by
  have := congrArg Holder.slot h
  rw [Seat.who_slot, Seat.who_slot] at this
  exact Option.some.inj this

theorem Seats.works_seat {a : Seats} {r : Resource} {h : Holder} {i : SlotId} {x : Option Seat} (hw : a.works r h) (hi : h.slot ≠ some i) :
    (a.seat i x).works r h := by
  obtain ⟨j, y, rfl, hy, ho, hr⟩ := hw
  refine ⟨j, y, rfl, ?_, ho, hr⟩
  rw [Seat.who_slot] at hi
  show (if j = i then x else a.op j) = _
  rw [if_neg fun e => hi (congrArg some e)]
  exact hy

theorem Seats.fills_seat {a : Seats} {h : Holder} {i : SlotId} {x : Option Seat} (hi : h.slot ≠ some i) :
    (a.seat i x).fills h ↔ a.fills h := by
  constructor <;> rintro ⟨j, y, soft, rfl, hy, ho, hr⟩ <;> rw [Seat.who_slot] at hi <;> refine ⟨j, y, soft, rfl, ?_, ho, hr⟩
  · have e : (if j = i then x else a.op j) = some y := hy
    rwa [if_neg fun e => hi (congrArg some e)] at e
  · show (if j = i then x else a.op j) = _
    rwa [if_neg fun e => hi (congrArg some e)]

/-- The operation of one slot replaced where nothing of the table is its own. -/
theorem Seats.tableOrdered.seat {a : Seats} (t : a.tableOrdered) {i : SlotId} {x : Option Seat} (hl : a.letsGo i)
    (hx : ∀ y, x = some y → y.fixed = false → ∀ dry phase, y.kind = .door dry phase true → phase = .waitQuiet) : (a.seat i x).tableOrdered := by
  have hop : ∀ {j y}, (a.seat i x).op j = some y → (j = i ∧ x = some y) ∨ (j ≠ i ∧ a.op j = some y) := fun {j y} h => by
    have h : (if j = i then x else a.op j) = some y := h
    split at h
    next e => exact .inl ⟨e, h⟩
    next e => exact .inr ⟨e, h⟩
  have hsel : ∀ {w}, (a.table .selector).holder = some w → w.slot ≠ some i := fun hw hc => by
    have := (t.legal .selector).2
    rw [hl.holder .selector _ hw hc] at this
    cases this
  have hin : ∀ {w}, (a.table .inlet).holder = some w → w.slot ≠ some i := fun hw => hsel (t.inlet_selector hw).2
  have huser : ∀ {st w}, w.slot ≠ some i → a.user st w → (a.seat i x).user st w := fun hw hu => hu.imp_left (Seats.fills_seat hw).mpr
  refine ⟨t.legal, t.path, fun r w hw hs => Seats.works_seat (t.waits r w hw hs) (hl.line r w hw), fun r w hw hs => ?_,
    fun j y dry phase back hy ho hk hw => ?_, fun j y dry phase back hy ho hk hle hho => ?_, t.retract, t.position,
    fun w hw => huser (hsel hw) (t.selector w hw), fun w hw => ?_, fun j y hy ho hk => ?_, fun w hw hf => t.inlet w hw ((Seats.fills_seat (hin hw)).mp hf),
    fun w hw => ?_, t.brine, t.brineLine⟩
  · by_cases hi : w.slot = some i
    · exact .inl (hl.holder r w hw hi)
    · exact (t.holds r w hw hs).imp_right fun hx => Seats.works_seat hx hi
  · rcases hop hy with ⟨rfl, hxy⟩ | ⟨hj, hy⟩
    · rcases hw with hw | rfl
      · exact absurd (Seat.who_slot j y) (hl.line _ _ hw)
      · exact hx y hxy ho dry phase hk
    · exact t.doorLine j y dry phase back hy ho hk hw
  · rcases hop hy with ⟨rfl, hy⟩ | ⟨hj, hy⟩
    · have := hl.holder .doorDrive _ hho (Seat.who_slot j y)
      have hle : (a.table .doorDrive).lease = .held := hle
      rw [this] at hle
      cases hle
    · exact t.doorHeld j y dry phase back hy ho hk hle hho
  · obtain ⟨h1, h2⟩ := t.selectorLine w hw
    exact ⟨huser (hl.line _ w hw) h1, fun hf => h2 ((Seats.fills_seat (hl.line _ w hw)).mp hf)⟩
  · rcases hop hy with ⟨rfl, hy⟩ | ⟨hj, hy⟩
    · exact ⟨fun c => hl.line _ _ c (Seat.who_slot j y), fun c => hsel c (Seat.who_slot j y)⟩
    · exact t.softWaits j y hy ho hk
  · obtain ⟨h1, h2, h3⟩ := t.inletLine w hw
    exact ⟨h1, h2, fun hf => h3 ((Seats.fills_seat (hl.line _ w hw)).mp hf)⟩

/-- An operation that is no REGENERATE has its outcome fixed: it is being ended. -/
theorem Seats.ordered.fix {a : Seats} (k : a.ordered none) {i : SlotId} {x y : Seat} (hl : a.letsGo i) (hx : a.op i = some x)
    (hk : ∀ c, x.kind ≠ .regenerate c) (hy : y.fixed = true) : (a.seat i (some y)).ordered (some i) := by
  obtain ⟨t, s, e⟩ := k
  have hne : ∀ {j}, j ≠ i → (a.seat i (some y)).op j = a.op j := fun h => if_neg h
  refine ⟨t.seat hl fun z hz ho => ?_, ⟨s.regenerating, s.standby, fun c j hm => ?_, fun c p j hm => ?_, fun g p j hr hq => ?_, fun hm => ?_, s.nodup, s.apart⟩,
    fun j z hz ho hd => e j z ?_ ho (by simp)⟩
  · cases hz
    rw [hy] at ho
    cases ho
  · refine (s.marked c j hm).imp_right fun h => ?_
    by_cases hj : j = i
    · exact .inl (congrArg some hj.symm)
    · obtain ⟨z, soft, hz, ho, hs⟩ := h.resolve_left (by simp)
      exact .inr ⟨z, soft, (hne hj).trans hz, ho, hs⟩
  · obtain ⟨z, hz, ho, hp, hkz⟩ := s.queued c p j hm
    refine ⟨z, (hne fun c' => ?_).trans hz, ho, hp, hkz⟩
    subst c'
    rw [hx] at hz
    cases hz
    exact hk _ hkz
  · obtain ⟨z, hz, ho, hp, hkz⟩ := s.asked g p j hr hq
    refine ⟨z, (hne fun c' => ?_).trans hz, ho, hp, hkz⟩
    subst c'
    rw [hx] at hz
    cases hz
    exact hk _ hkz
  · have := (s.quiet hm).1 i
    rw [hx] at this
    cases this
  · exact (hne fun c => hd (congrArg some c.symm)).symm.trans hz

/-- What speaks of the operation of a slot: an entry of the queue, the regeneration in progress, a mark. -/
structure Seats.unnamed (a : Seats) (i : SlotId) : Prop where
  queue : ∀ c p, (c, some (p, i)) ∉ a.queue
  regen : ∀ g p, a.regen = some g → g.requester ≠ some (p, i)
  mark : ∀ c, (a.col c).mark ≠ some i

/-- A slot is freed. -/
theorem Seats.ordered.vacate {a : Seats} {d : Option SlotId} (k : a.ordered d) {i : SlotId} (hd : d = none ∨ d = some i) (hl : a.letsGo i)
    (hn : a.unnamed i) : (a.seat i none).ordered none := by
  obtain ⟨t, s, e⟩ := k
  have hne : ∀ {j}, j ≠ i → (a.seat i none).op j = a.op j := fun h => if_neg h
  have hself : (a.seat i none).op i = none := if_pos rfl
  have hdj : ∀ {j}, j ≠ i → d ≠ some j := fun h c => by
    rcases hd with rfl | rfl
    · cases c
    · exact h (Option.some.inj c).symm
  refine ⟨t.seat hl (fun _ h => by cases h), ⟨s.regenerating, s.standby, fun c j hm => ?_, fun c p j hm => ?_, fun g p j hr hq => ?_, fun hm => ?_, s.nodup, s.apart⟩,
    fun j z hz ho _ => ?_⟩
  · refine (s.marked c j hm).imp_right fun h => .inr ?_
    have hj : j ≠ i := fun c' => hn.mark c (c' ▸ hm)
    obtain ⟨z, soft, hz, ho, hs⟩ := h.resolve_left (hdj hj)
    exact ⟨z, soft, (hne hj).trans hz, ho, hs⟩
  · obtain ⟨z, hz, ho, hp, hkz⟩ := s.queued c p j hm
    exact ⟨z, (hne fun c' => hn.queue c p (c' ▸ hm)).trans hz, ho, hp, hkz⟩
  · obtain ⟨z, hz, ho, hp, hkz⟩ := s.asked g p j hr hq
    exact ⟨z, (hne fun c' => hn.regen g p hr (c' ▸ hq)).trans hz, ho, hp, hkz⟩
  · refine ⟨fun j => ?_, (s.quiet hm).2⟩
    by_cases hj : j = i
    · rw [hj]; exact hself
    · exact (hne hj).trans ((s.quiet hm).1 j)
  · have hj : j ≠ i := fun c => by
      rw [c, hself] at hz
      cases hz
    exact e j z ((hne hj).symm.trans hz) ho (hdj hj)

/-- A slot that is empty: nothing of the table is its own but what winds down. -/
theorem Seats.ordered.empty {a : Seats} {d : Option SlotId} (k : a.ordered d) {i : SlotId} (hi : a.op i = none) : a.letsGo i := by
  have hno : ∀ r h, h.slot = some i → ¬a.works r h := by
    rintro r h hs ⟨j, y, rfl, hy, -, -⟩
    rw [Seat.who_slot] at hs
    cases hs
    rw [hi] at hy
    cases hy
  exact ⟨fun r h hh hs => hno r h hs (k.table.waits r h hh (by simp [hs])), fun r h hh hs => (k.table.holds r h hh (by simp [hs])).resolve_right (hno r h hs)⟩

/-- So it is with one whose outcome is fixed. -/
theorem Seats.ordered.over {a : Seats} {d : Option SlotId} (k : a.ordered d) {i : SlotId} {x : Seat} (hi : a.op i = some x) (hx : x.fixed = true) :
    a.letsGo i := by
  have hno : ∀ r h, h.slot = some i → ¬a.works r h := by
    rintro r h hs ⟨j, y, rfl, hy, ho, -⟩
    rw [Seat.who_slot] at hs
    cases hs
    rw [hi] at hy
    cases hy
    rw [hx] at ho
    cases ho
  exact ⟨fun r h hh hs => hno r h hs (k.table.waits r h hh (by simp [hs])), fun r h hh hs => (k.table.holds r h hh (by simp [hs])).resolve_right (hno r h hs)⟩

/-- No entry and no regeneration is of a slot that holds no REGENERATE in progress, and no mark of one that holds no FILL. -/
theorem Seats.ordered.unnamed {a : Seats} {d : Option SlotId} (k : a.ordered d) {i : SlotId}
    (hi : ∀ x, a.op i = some x → x.fixed = true ∨ ∀ c, x.kind ≠ .regenerate c) (hm : ∀ c, (a.col c).mark ≠ some i) : a.unnamed i := by
  refine ⟨fun c p hq => ?_, fun g p hg hr => ?_, hm⟩
  · obtain ⟨x, hx, ho, -, hk⟩ := k.soft.queued c p i hq
    rcases hi x hx with e | e
    · rw [ho] at e; cases e
    · exact e c hk
  · obtain ⟨x, hx, ho, -, hk⟩ := k.soft.asked g p i hg hr
    rcases hi x hx with e | e
    · rw [ho] at e; cases e
    · exact e _ hk

/-- An operation begins in an empty slot, in RUN. -/
theorem Seats.ordered.begins {a : Seats} (k : a.ordered none) {i : SlotId} {x : Seat} (hi : a.op i = none) (hm : a.mode = .run) (hx : x.fixed = false)
    (hd : ∀ dry phase, x.kind ≠ .door dry phase true) : (a.seat i (some x)).ordered none := by
  have hl := k.empty hi
  obtain ⟨t, s, e⟩ := k
  have hne : ∀ {j}, j ≠ i → (a.seat i (some x)).op j = a.op j := fun h => if_neg h
  refine ⟨t.seat hl fun y hy _ dry phase hk => by cases hy; exact absurd hk (hd dry phase), ⟨s.regenerating, s.standby, fun c j hmk => ?_, fun c p j hq => ?_,
    fun g p j hr hq => ?_, (fun c => by rw [show (a.seat i (some x)).mode = a.mode from rfl, hm] at c; cases c), s.nodup, s.apart⟩, fun j z hz ho _ => ?_⟩
  · refine (s.marked c j hmk).imp_right fun h => .inr ?_
    obtain ⟨z, soft, hz, ho, hs⟩ := h.resolve_left (by simp)
    exact ⟨z, soft, (hne fun c => by rw [c, hi] at hz; cases hz).trans hz, ho, hs⟩
  · obtain ⟨z, hz, ho, hp, hkz⟩ := s.queued c p j hq
    exact ⟨z, (hne fun c => by rw [c, hi] at hz; cases hz).trans hz, ho, hp, hkz⟩
  · obtain ⟨z, hz, ho, hp, hkz⟩ := s.asked g p j hr hq
    exact ⟨z, (hne fun c => by rw [c, hi] at hz; cases hz).trans hz, ho, hp, hkz⟩
  · by_cases hj : j = i
    · subst hj
      have hz : (if j = j then some x else a.op j) = some z := hz
      rw [if_pos rfl] at hz
      cases hz
      rw [hx] at ho
      cases ho
    · exact e j z ((hne hj).symm.trans hz) ho (by simp)

end Sys2Proof.Machine

/-! What the operations on the table make of the view: entries replaced, requests, leases let go, lists shortened. -/

namespace Sys2Proof.Machine

/-! ### The view of a changed state -/

/-- What the view shows. -/
theorem seats_congr {s t : State} (hp : t.pool = s.pool) (ha : t.arb = s.arb) (hs : t.soft = s.soft) (hm : t.mode = s.mode)
    (hr : t.door.rod.retract = s.door.rod.retract) : t.seats = s.seats := by
  unfold State.seats State.entry State.column
  rw [hp, ha, hs, hm, hr]

theorem State.keepsBut.seats {s t : State} {l : List Block} (h : s.keepsBut t l)
    (hl : ∀ b ∈ [Block.pool, .arb, .soft, .mode, .door], b ∉ l := by decide) : t.seats = s.seats :=
  seats_congr (h .pool (hl _ (by decide))) (h .arb (hl _ (by decide))) (h .soft (hl _ (by decide))) (h .mode (hl _ (by decide)))
    (by rw [show t.door = s.door from h .door (hl _ (by decide))])

theorem Seats.put_self (a : Seats) (r : Resource) (p : Place) : (a.put r p).table r = p := if_pos rfl

theorem Seats.put_ne (a : Seats) {r q : Resource} (h : q ≠ r) (p : Place) : (a.put r p).table q = a.table q := if_neg h

theorem Seats.put_table (a : Seats) (r : Resource) : a.put r (a.table r) = a := by
  unfold Seats.put
  congr
  funext q
  split
  next h => rw [h]
  next => rfl

theorem seats_putEntry (s : State) (r : Resource) (e : Entry) : (s.putEntry r e).seats = s.seats.put r e.place := by
  unfold State.seats Seats.put
  congr 1
  funext q
  rw [State.entry_putEntry]
  dsimp only
  split <;> rfl

theorem seats_editEntry (s : State) (r : Resource) (f : Entry → Entry) : (s.editEntry r f).seats = s.seats.put r (f (s.entry r)).place := by
  rw [show (s.editEntry r f).seats = (s.putEntry r _).seats from (State.keepsBut_reportSwitching s _).seats, seats_putEntry]
  rfl

theorem seats_ask (s : State) (r : Resource) (who : Holder) (serial : Nat) (want : Option Column) :
    (s.ask r who serial want).seats = s.seats.asked r who := by
  rw [State.ask, seats_editEntry]
  unfold Seats.asked Entry.place State.seats
  simp only [List.map_append, List.map_cons, List.map_nil, Entry.place]

theorem seats_writeRelease (s : State) (r : Resource) : (s.writeRelease r).seats = s.seats := by
  rw [State.writeRelease, seats_putEntry]
  exact s.seats.put_table r

theorem seats_freeLease (s : State) (r : Resource) : (s.freeLease r).seats = s.seats.put r ⟨.free, none, (s.seats.table r).line⟩ := by
  rw [show (s.freeLease r).seats = _ from (State.keepsBut_reportSwitching s _).seats, seats_putEntry, (State.keepsBut_dropDrive s r).seats]
  rfl

theorem seats_setSlot (s : State) (i : SlotId) (sl : Option Slot) : (s.setSlot i sl).seats = s.seats.seat i (sl.map Slot.seat) := by
  unfold State.seats Seats.seat
  congr 1
  funext j
  show (s.setSlot i sl).pool[j].map Slot.seat = if j = i then _ else s.pool[j].map Slot.seat
  rw [State.pool_setSlot, upd_get]
  split <;> rfl

/-! ### Leases let go -/

/-- The leases agree with their holders and are such as their resources have. -/
def Seats.legal (a : Seats) : Prop := ∀ r, ((a.table r).lease = .free ↔ (a.table r).holder = none) ∧ r.allows (a.table r).lease = true

theorem Loosens.legal {a b : Seats} (h : Loosens a b) (k : a.legal) : b.legal := fun r => (h.place r).legal (k r)

/-- One place is changed. -/
theorem loosens_put {a : Seats} {r : Resource} {p : Place} (hs : PlaceStep r (a.table r) p) (hl : p.line ⊆ (a.table r).line)
    (hr : r = .doorDrive → a.retract = some .lease → (a.table r).lease = .releasing → p.lease = .releasing) : Loosens a (a.put r p) where
  op := rfl
  regen := rfl
  queue := rfl
  col := rfl
  mode := rfl
  selHeld := rfl
  line q := by
    by_cases h : q = r
    · rw [h, Seats.put_self]; exact hl
    · rw [Seats.put_ne _ h]; exact List.Subset.refl _
  place q := by
    by_cases h : q = r
    · rw [h, Seats.put_self]; exact hs
    · rw [Seats.put_ne _ h]; exact .refl q _
  current _ := rfl
  retract hre hb := by
    by_cases h : Resource.doorDrive = r
    · rw [h, Seats.put_self]
      exact hr h.symm hb (h ▸ hre hb)
    · rw [Seats.put_ne _ h]
      exact hre hb

theorem loosens_freeLease (s : State) {r : Resource} (h : r = .doorDrive → s.door.rod.retract.map (·.1) ≠ some .lease) :
    Loosens s.seats (s.freeLease r).seats := by
  rw [seats_freeLease]
  exact loosens_put (.free rfl rfl) (List.Subset.refl _) fun hr hl _ => absurd hl (h hr)

/-- SELECTOR is freed from a travel: its position is unknown. -/
theorem loosens_travelEnded (s : State) (h : (s.entry .selector).lease ≠ .held) :
    Loosens s.seats { s with arb := { s.arb with selCurrent := none } }.seats where
  op := rfl
  regen := rfl
  queue := rfl
  col := rfl
  mode := rfl
  selHeld := rfl
  line _ := List.Subset.refl _
  place q := .refl q _
  current hl := absurd hl h
  retract := id

/-- A released DOOR_DRIVE retracts under its lease. -/
theorem loosens_startRetract (s : State) (h : (s.entry .doorDrive).lease = .held) :
    Loosens s.seats (s.startRetract.editEntry .doorDrive fun e => { e with lease := .releasing }).seats := by
  rw [seats_editEntry]
  obtain ⟨p, hp⟩ : ∃ p : Place, p = ⟨.releasing, (s.seats.table .doorDrive).holder, (s.seats.table .doorDrive).line⟩ := ⟨_, rfl⟩
  have hput : ∀ q, (s.startRetract.seats.put .doorDrive p).table q = if q = .doorDrive then p else s.seats.table q := fun _ => rfl
  refine show Loosens s.seats (s.startRetract.seats.put .doorDrive ⟨.releasing, (s.seats.table .doorDrive).holder, (s.seats.table .doorDrive).line⟩) from ?_
  rw [← hp]
  refine ⟨rfl, rfl, rfl, rfl, rfl, rfl, fun q => ?_, fun q => ?_, fun _ => rfl, fun _ _ => ?_⟩
  · rw [hput]
    split
    next hq => rw [hq, hp]; exact List.Subset.refl _
    next => exact List.Subset.refl _
  · rw [hput]
    split
    next hq =>
      rw [hq, hp]
      refine .winds rfl ?_ rfl (.inr rfl)
      show (s.entry .doorDrive).lease ≠ .free
      rw [h]
      decide
    next => exact .refl q _
  · rw [hput, if_pos rfl, hp]

theorem loosens_letGo (s : State) (r : Resource) (hl : r.allows (s.entry r).lease = true) : Loosens s.seats (s.letGo r).seats := by
  have hfree : (r = .doorDrive → s.door.rod.retract.map (·.1) ≠ some .lease) → Loosens s.seats ((s.writeRelease r).freeLease r).seats := fun hr => by
    have := loosens_freeLease (s.writeRelease r) (r := r) hr
    rwa [seats_writeRelease] at this
  have hq : ∀ q, r = q → q ≠ .doorDrive → Loosens s.seats ((s.writeRelease r).freeLease r).seats := fun q e hq =>
    hfree fun hr => absurd (e.symm.trans hr) hq
  unfold State.letGo
  split
  next => exact .refl _
  next => exact .refl _
  next h =>
    rw [h] at hl
    exact hfree fun hr => by rw [hr] at hl; cases hl
  next h =>
    rw [h] at hl
    have hr : r = .selector := by cases r <;> first | rfl | cases hl
    refine (hq .selector hr (by decide)).trans (loosens_travelEnded _ ?_)
    rw [hr, State.entry_freeLease_self]
    decide
  next h =>
    cases r with
    | circ =>
      dsimp only
      split
      next => exact hq _ rfl (by decide)
      next =>
        rw [seats_editEntry]
        have hs : ({ s.writeRelease .circ with drive := { (s.writeRelease .circ).drive with circ :=
            { (s.writeRelease .circ).drive.circ with active := 0 } } } : State).seats = s.seats :=
          (State.keepsBut_withDrive _ _).seats.trans (seats_writeRelease s .circ)
        rw [hs]
        have hpl : (State.entry ({ s.writeRelease .circ with drive := { (s.writeRelease .circ).drive with circ :=
            { (s.writeRelease .circ).drive.circ with active := 0 } } } : State) .circ).place = s.seats.table .circ := by
          rw [← hs]
          rfl
        have hline := congrArg Place.line hpl
        have hhold := congrArg Place.holder hpl
        refine loosens_put (.winds rfl ?_ hhold (.inl rfl)) (fun x hx => hline ▸ hx) fun c => by cases c
        show (s.entry .circ).lease ≠ .free
        rw [h]
        decide
    | doorDrive =>
      have := loosens_startRetract (s.writeRelease .doorDrive) ((State.entry_writeRelease_lease s .doorDrive).trans h)
      rwa [seats_writeRelease] at this
    | selector => exact hq _ rfl (by decide)
    | brine => exact hq _ rfl (by decide)
    | inlet => exact hq _ rfl (by decide)
    | heater => exact hq _ rfl (by decide)
    | drain => exact hq _ rfl (by decide)
    | dose n => exact hq _ rfl (by simp)

end Sys2Proof.Machine

/-! A requester lets go of what it holds and leaves the lists it stands in (R22, R29, R70), and the table is revoked,
suspended and restored (R5, R6). -/

namespace Sys2Proof.Machine

/-! ### What is not the requester's stands -/

theorem State.entry_letGo_ne (s : State) {r q : Resource} (h : q ≠ r) : (s.letGo r).entry q = s.entry q := by
  have hf : ((s.writeRelease r).freeLease r).entry q = s.entry q := by
    rw [State.freeLease, (State.keepsBut_reportSwitching _ _).entry q, State.entry_putEntry, if_neg h, State.entry_dropDrive,
      State.entry_writeRelease_ne s h]
  unfold State.letGo
  split
  next => rfl
  next => rfl
  next => exact hf
  next => exact hf
  next =>
    cases r with
    | circ =>
      dsimp only
      split
      next => exact hf
      next =>
        rw [State.entry_editEntry, if_neg h]
        exact State.entry_writeRelease_ne s h
    | doorDrive =>
      dsimp only
      rw [State.entry_editEntry, if_neg h]
      exact State.entry_writeRelease_ne s h
    | selector => exact hf
    | brine => exact hf
    | inlet => exact hf
    | heater => exact hf
    | drain => exact hf
    | dose n => exact hf

/-- Only leases of one requester are changed. -/
def Seats.onlyOf (a b : Seats) (who : Holder) : Prop := ∀ r, (a.table r).holder = some who ∨
  ((b.table r).lease = (a.table r).lease ∧ (b.table r).holder = (a.table r).holder)

theorem Seats.onlyOf.refl (a : Seats) (who : Holder) : a.onlyOf a who := fun _ => .inr ⟨rfl, rfl⟩

theorem Seats.onlyOf.trans {a b c : Seats} {who : Holder} (h : a.onlyOf b who) (k : b.onlyOf c who) : a.onlyOf c who := fun r => by
  rcases h r with e | ⟨hl, hh⟩
  · exact .inl e
  · rcases k r with e | ⟨kl, kh⟩
    · exact .inl (hh ▸ e)
    · exact .inr ⟨kl.trans hl, kh.trans hh⟩

/-- The requester holds the resource no more, or it winds down. -/
def Place.over (p : Place) (who : Holder) : Prop := p.holder = some who → p.lease = .releasing

theorem PlaceStep.over {r : Resource} {p q : Place} (h : PlaceStep r p q) {who : Holder} (k : p.over who) : q.over who := fun hq => by
  have hp := k (h.holder hq)
  cases h with
  | same hl hh => exact hl.trans hp
  | free hl hh => rw [hh] at hq; cases hq
  | winds hl => exact hl
  | swaps hg hw => rcases hw with e | e <;> (rw [hp] at e; cases e)

/-! ### A release -/

/-- What a requester's release of leases does. -/
structure Releases (who : Holder) (a b : Seats) : Prop where
  loosens : Loosens a b
  only : a.onlyOf b who

theorem Releases.refl (who : Holder) (a : Seats) : Releases who a a := ⟨.refl a, .refl a who⟩

theorem Releases.trans {who : Holder} {a b c : Seats} (h : Releases who a b) (k : Releases who b c) : Releases who a c :=
  ⟨h.loosens.trans k.loosens, h.only.trans k.only⟩

theorem table_of_entry {s t : State} {r : Resource} (h : t.entry r = s.entry r) : t.seats.table r = s.seats.table r := congrArg Entry.place h

theorem letGo_over {s : State} (hl : s.seats.legal) (r : Resource) (who : Holder) : ((s.letGo r).seats.table r).over who := fun hh => by
  have hfree : ∀ u : State, (u.seats.table r).lease = .free → (u.seats.table r).holder = none → (u.seats.table r).holder = some who →
      (u.seats.table r).lease = .releasing := fun u _ hn hs => by rw [hn] at hs; cases hs
  have hput : ∀ u : State, ((u.freeLease r).seats.table r).lease = .free ∧ ((u.freeLease r).seats.table r).holder = none := fun u => by
    rw [seats_freeLease, Seats.put_self]
    exact ⟨rfl, rfl⟩
  have hrel : ∀ u : State, (((u.editEntry r fun e => { e with lease := .releasing }).seats).table r).lease = .releasing := fun u => by
    rw [seats_editEntry, Seats.put_self]
    rfl
  revert hh
  unfold State.letGo
  split
  next h =>
    intro hh
    have hn : (s.seats.table r).holder = none := (hl r).1.mp h
    rw [hn] at hh
    cases hh
  next h => exact fun _ => h
  next => exact hfree _ (hput _).1 (hput _).2
  next => exact hfree _ (hput _).1 (hput _).2
  next =>
    cases r with
    | circ =>
      dsimp only
      split
      next => exact hfree _ (hput _).1 (hput _).2
      next => exact fun _ => hrel _
    | doorDrive => exact fun _ => hrel _
    | selector => exact hfree _ (hput _).1 (hput _).2
    | brine => exact hfree _ (hput _).1 (hput _).2
    | inlet => exact hfree _ (hput _).1 (hput _).2
    | heater => exact hfree _ (hput _).1 (hput _).2
    | drain => exact hfree _ (hput _).1 (hput _).2
    | dose n => exact hfree _ (hput _).1 (hput _).2

theorem letGo_releases {s : State} (hl : s.seats.legal) {r : Resource} {who : Holder} (h : (s.entry r).holder = some who) :
    Releases who s.seats (s.letGo r).seats :=
  ⟨loosens_letGo s r (hl r).2, fun q => by
    by_cases hq : q = r
    · exact .inl (hq ▸ h)
    · rw [table_of_entry (State.entry_letGo_ne s hq)]
      exact .inr ⟨rfl, rfl⟩⟩

theorem free_releases (s : State) {r : Resource} {who : Holder} (h : (s.entry r).holder = some who) (hr : r ≠ .doorDrive) :
    Releases who s.seats ((s.writeRelease r).freeLease r).seats := by
  have hlo := loosens_freeLease (s.writeRelease r) (r := r) fun c => absurd c hr
  rw [seats_writeRelease] at hlo
  refine ⟨hlo, fun q => ?_⟩
  by_cases hq : q = r
  · exact .inl (hq ▸ h)
  · rw [seats_freeLease, Seats.put_ne _ hq, seats_writeRelease]
    exact .inr ⟨rfl, rfl⟩

theorem release_releases {s : State} (hl : s.seats.legal) {r : Resource} {who : Holder} (h : (s.entry r).holder = some who) :
    Releases who s.seats (s.release r).seats ∧ ((s.release r).seats.table r).over who := by
  unfold State.release
  split
  next hc =>
    obtain ⟨rfl, -, hi⟩ := hc
    have h1 := free_releases s (hi.trans h) (by decide : Resource.inlet ≠ .doorDrive)
    have hl1 := h1.loosens.legal hl
    have hs : (((s.writeRelease .inlet).freeLease .inlet).entry .selector).holder = some who := by
      rcases h1.only .selector with _ | ⟨-, e⟩
      · have e : ((s.writeRelease .inlet).freeLease .inlet).seats.table .selector = s.seats.table .selector := by
          rw [seats_freeLease, Seats.put_ne _ (by decide), seats_writeRelease]
        exact (congrArg Place.holder e).trans h
      · exact e.trans h
    exact ⟨h1.trans (letGo_releases hl1 hs), letGo_over hl1 _ _⟩
  next => exact ⟨letGo_releases hl h, letGo_over hl _ _⟩

theorem releaseIf_releases {s : State} (hl : s.seats.legal) (who : Holder) (r : Resource) :
    Releases who s.seats (s.releaseIf who r).seats ∧ ((s.releaseIf who r).seats.table r).over who := by
  unfold State.releaseIf
  split
  next h => exact release_releases hl ((holds_iff_holder hl who r).mp h)
  next h =>
    refine ⟨.refl who _, fun hh => absurd ((holds_iff_holder hl who r).mpr hh) h⟩

theorem releaseList_releases (who : Holder) : ∀ (l : List Resource) {s : State}, s.seats.legal →
    Releases who s.seats (l.foldl (fun s r => s.releaseIf who r) s).seats ∧
      ∀ r ∈ l, ((l.foldl (fun s r => s.releaseIf who r) s).seats.table r).over who
  | [], s, _ => ⟨.refl who _, (by simp)⟩
  | q :: l, s, hl => by
    obtain ⟨h1, h2⟩ := releaseIf_releases hl who q
    obtain ⟨k1, k2⟩ := releaseList_releases who l (h1.loosens.legal hl)
    refine ⟨h1.trans k1, fun r hr => ?_⟩
    rcases List.mem_cons.mp hr with rfl | hr
    · exact (k1.loosens.place r).over h2
    · exact k2 r hr

theorem mem_allResources (r : Resource) : r ∈ allResources := by
  cases r with
  | dose n => revert n; decide
  | _ => decide

theorem releaseAll_releases {s : State} (hl : s.seats.legal) (who : Holder) :
    Releases who s.seats (s.releaseAll who).seats ∧ ∀ r, ((s.releaseAll who).seats.table r).over who :=
  ⟨(releaseList_releases who _ hl).1, fun r => (releaseList_releases who _ hl).2 r (List.mem_reverse.mpr (mem_allResources r))⟩

/-! ### Lists left -/

theorem seats_withdrawFrom (s : State) (who : Holder) (r : Resource) : (s.withdrawFrom who r).seats =
    s.seats.put r { s.seats.table r with line := (s.seats.table r).line.filter (· != who) } := by
  have hline : ∀ l : List Waiter, (l.filter fun w => w.who != who).map (·.who) = (l.map (·.who)).filter (· != who) := fun l => by
    rw [List.filter_map]
    rfl
  unfold State.withdrawFrom
  split
  next =>
    rw [seats_editEntry]
    unfold Entry.place
    rw [hline]
    rfl
  next h =>
    rw [waitsFor_iff_line] at h
    have : (s.seats.table r).line.filter (· != who) = (s.seats.table r).line :=
      List.filter_eq_self.mpr fun x hx => bne_iff_ne.mpr fun c => h (c ▸ hx)
    rw [this]
    exact (s.seats.put_table r).symm

/-- What a requester's leaving of lists does. -/
theorem withdrawFrom_releases (s : State) (who : Holder) (r : Resource) : Releases who s.seats (s.withdrawFrom who r).seats := by
  rw [seats_withdrawFrom]
  refine ⟨loosens_put (.same rfl rfl) (List.filter_subset_self _) fun _ _ h => h, fun q => .inr ?_⟩
  by_cases h : q = r
  · rw [h, Seats.put_self]
    exact ⟨rfl, rfl⟩
  · rw [Seats.put_ne _ h]
    exact ⟨rfl, rfl⟩

theorem withdrawList_releases (who : Holder) : ∀ (l : List Resource) (s : State),
    Releases who s.seats (l.foldl (fun s r => s.withdrawFrom who r) s).seats ∧
      ∀ r ∈ l, who ∉ ((l.foldl (fun s r => s.withdrawFrom who r) s).seats.table r).line
  | [], s => ⟨.refl who _, (by simp)⟩
  | q :: l, s => by
    obtain ⟨k1, k2⟩ := withdrawList_releases who l (s.withdrawFrom who q)
    refine ⟨(withdrawFrom_releases s who q).trans k1, fun r hr => ?_⟩
    rcases List.mem_cons.mp hr with rfl | hr
    · refine fun c => ?_
      have := k1.loosens.line r c
      rw [seats_withdrawFrom, Seats.put_self] at this
      simp at this
    · exact k2 r hr

theorem withdraw_releases (s : State) (who : Holder) : Releases who s.seats (s.withdraw who).seats ∧
    ∀ r, who ∉ ((s.withdraw who).seats.table r).line :=
  ⟨(withdrawList_releases who _ s).1, fun r => (withdrawList_releases who _ s).2 r (mem_allResources r)⟩

/-! ### All let go -/

/-- A requester lets go of everything and waits nowhere. -/
structure Lets (who : Holder) (a b : Seats) : Prop extends Releases who a b where
  line : ∀ r, who ∉ (b.table r).line
  gone : ∀ r, (b.table r).over who

theorem letsAll {s : State} (hl : s.seats.legal) (who : Holder) : Lets who s.seats ((s.releaseAll who).withdraw who).seats := by
  obtain ⟨h1, h2⟩ := releaseAll_releases hl who
  obtain ⟨k1, k2⟩ := withdraw_releases (s.releaseAll who) who
  exact ⟨h1.trans k1, k2, fun r => (k1.loosens.place r).over (h2 r)⟩

theorem Releases.clears {who : Holder} {a b : Seats} (h : Releases who a b)
    (hb : (b.table .selector).holder ≠ some who → who ∉ (b.table .inlet).line ∧ who ∉ (b.table .brine).line ∧
      (b.table .brine).holder ≠ some who ∧ (b.table .inlet).holder ≠ some who) : Loosens.clears a b := fun hn w hw => by
  rcases h.only .selector with e | ⟨-, e⟩
  · rw [e] at hw
    cases hw
    exact hb (by rw [hn]; simp)
  · rw [← e, hn] at hw
    cases hw

theorem Lets.clears {who : Holder} {a b : Seats} (h : Lets who a b) (hl : a.legal) : Loosens.clears a b := by
  refine h.toReleases.clears fun _ => ⟨h.line _, h.line _, fun c => ?_, fun c => ?_⟩
  · have := (h.loosens.legal hl .brine).2
    rw [h.gone .brine c] at this
    cases this
  · have := (h.loosens.legal hl .inlet).2
    rw [h.gone .inlet c] at this
    cases this

end Sys2Proof.Machine

/-! The operations of the slots: one that ends, its outcome fixed, and those that go on beside it (R27, R29, R58). -/

namespace Sys2Proof.Machine

/-! ### The view of a changed slot -/

theorem seats_setWork {s : State} {i : SlotId} {sl : Slot} (h : s.pool[i] = some sl) (w : Work) :
    (s.setWork i w).seats = s.seats.seat i (some { sl.seat with kind := w.kind }) := by
  rw [State.setWork_held h, seats_setSlot]
  rfl

theorem seats_fixOutcome {s : State} {i : SlotId} {sl : Slot} (h : s.pool[i] = some sl) (o : OutcomeCode) :
    (s.fixOutcome i o).seats = s.seats.seat i (some { sl.seat with fixed := true }) := by
  rw [State.fixOutcome_held h, seats_setSlot]
  rfl

theorem Seats.seat_op (a : Seats) (i : SlotId) : a.seat i (a.op i) = a := by
  unfold Seats.seat
  congr
  funext j
  split
  next h => rw [h]
  next => rfl

theorem Seats.seat_seat (a : Seats) (i : SlotId) (x y : Option Seat) : (a.seat i x).seat i y = a.seat i y := by
  unfold Seats.seat
  congr
  funext j
  dsimp only
  split <;> rfl

theorem Seats.op_seat_self (a : Seats) (i : SlotId) (x : Option Seat) : (a.seat i x).op i = x := if_pos rfl

theorem Seats.op_seat_ne (a : Seats) {i j : SlotId} (h : j ≠ i) (x : Option Seat) : (a.seat i x).op j = a.op j := if_neg h

theorem seats_endSlot (s : State) (i : SlotId) (o : OutcomeCode) (fields : List Byte) (answer : Bool) :
    (s.endSlot i o fields answer).seats = s.seats.seat i none := by
  unfold State.endSlot
  split
  next sl h =>
    dsimp only
    rw [seats_setSlot]
    have : ∀ b : Bool, (if b then s.send sl.port { tag := sl.tag, body := byte1 (outcomeCode o) ++ fields, immediate := false, makesReset := false }
        else s).seats = s.seats := fun b => by
      split
      · exact (State.keepsBut_send s _ _).seats
      · rfl
    rw [this]
    rfl
  next h =>
    have : s.seats.op i = none := by
      show s.pool[i].map _ = _
      rw [h]
      rfl
    rw [← this, Seats.seat_op]

theorem seats_op_pool {s t : State} (h : t.pool = s.pool) : t.seats.op = s.seats.op := by
  funext i
  show t.pool[i].map _ = s.pool[i].map _
  rw [h]

/-! ### Operations that go on -/

theorem Seat.alike.refl (x : Seat) : x.alike x := ⟨rfl, rfl, .refl _⟩

theorem WorkKind.alike.trans {k l m : WorkKind} (h : k.alike l) (g : l.alike m) : k.alike m := by
  cases h with
  | refl => exact g
  | fill x y =>
    cases g with
    | refl => exact .fill x y
    | fill y z => exact .fill x z
  | door dry p q x y =>
    cases g with
    | refl => exact .door dry p q x y
    | door dry q u y z => exact .door dry p u x z

theorem Seat.alike.trans {x y z : Seat} (h : x.alike y) (k : y.alike z) : x.alike z :=
  ⟨k.port.trans h.port, k.fixed.trans h.fixed, h.kind.trans k.kind⟩

/-- Two slots of which one holds what the other did, gone on. -/
def Seat.onward (x y : Option Seat) : Prop := (x = none ∧ y = none) ∨ ∃ u v, x = some u ∧ y = some v ∧ u.alike v

theorem Seat.onward.refl : ∀ x : Option Seat, Seat.onward x x
  | none => .inl ⟨rfl, rfl⟩
  | some u => .inr ⟨u, u, rfl, rfl, .refl u⟩

theorem Seat.onward.trans {x y z : Option Seat} (h : Seat.onward x y) (k : Seat.onward y z) : Seat.onward x z := by
  rcases h with ⟨rfl, rfl⟩ | ⟨u, v, rfl, rfl, h⟩ <;> rcases k with ⟨e, rfl⟩ | ⟨v', w, e, rfl, k⟩
  · exact .inl ⟨rfl, rfl⟩
  · cases e
  · cases e
  · cases e
    exact .inr ⟨u, w, rfl, rfl, h.trans k⟩

theorem Seats.goesOn.refl (a : Seats) : a.goesOn a := fun i => Seat.onward.refl (a.op i)

theorem Seats.goesOn.trans {a b c : Seats} (h : a.goesOn b) (k : b.goesOn c) : a.goesOn c := fun i => Seat.onward.trans (h i) (k i)

theorem Seats.goesOn.of_op {a b : Seats} (h : b.op = a.op) : a.goesOn b := fun i => by
  rw [h]
  exact Seat.onward.refl _

theorem State.goesOn_of_pool {s t : State} (h : t.pool = s.pool) : s.seats.goesOn t.seats := .of_op (seats_op_pool h)

theorem goesOn_setWork {s : State} {i : SlotId} {sl : Slot} (h : s.pool[i] = some sl) {w : Work} (hk : sl.work.kind.alike w.kind) :
    s.seats.goesOn (s.setWork i w).seats := fun j => by
  rw [seats_setWork h]
  by_cases hj : j = i
  · rw [hj, Seats.op_seat_self]
    exact .inr ⟨_, _, seats_op h, rfl, rfl, rfl, hk⟩
  · rw [Seats.op_seat_ne _ hj]
    exact Seat.onward.refl _

theorem Seats.goesOn.foldl {α : Type} {f : State → α → State} (hf : ∀ (s : State) (x : α), s.seats.goesOn (f s x).seats) :
    ∀ (l : List α) (s : State), s.seats.goesOn (l.foldl f s).seats
  | [], _ => .refl _
  | x :: l, s => (hf s x).trans (Seats.goesOn.foldl hf l (f s x))

/-- The operations go on, but that of one slot. -/
def Seats.goesOnBut (a b : Seats) (i : SlotId) : Prop := ∀ j, j ≠ i → Seat.onward (a.op j) (b.op j)

theorem Seats.goesOn.but {a b : Seats} (h : a.goesOn b) (i : SlotId) : a.goesOnBut b i := fun j _ => h j

theorem Seats.goesOnBut.trans {a b c : Seats} {i : SlotId} (h : a.goesOnBut b i) (k : b.goesOnBut c i) : a.goesOnBut c i :=
  fun j hj => (h j hj).trans (k j hj)

theorem Seats.goesOnBut.seat (a : Seats) (i : SlotId) (x : Option Seat) : a.goesOnBut (a.seat i x) i := fun j hj => by
  rw [Seats.op_seat_ne _ hj]
  exact Seat.onward.refl _

theorem Seat.onward.fill {x y : Option Seat} (h : Seat.onward x y) : (∃ u soft, x = some u ∧ u.fixed = false ∧ u.kind = .fill soft) ↔
    ∃ u soft, y = some u ∧ u.fixed = false ∧ u.kind = .fill soft := by
  rcases h with ⟨rfl, rfl⟩ | ⟨u, v, rfl, rfl, h⟩
  · rfl
  · constructor
    · rintro ⟨w, soft, e, ho, hk⟩
      cases e
      obtain ⟨x, hx⟩ := h.kind.fill_iff.mpr ⟨soft, hk⟩
      exact ⟨v, x, rfl, h.fixed.trans ho, hx⟩
    · rintro ⟨w, soft, e, ho, hk⟩
      cases e
      obtain ⟨x, hx⟩ := h.kind.fill_iff.mp ⟨soft, hk⟩
      exact ⟨u, x, rfl, h.fixed ▸ ho, hx⟩

theorem Seats.goesOnBut.fillIn {a b : Seats} {i j : SlotId} (h : a.goesOnBut b i) (hj : j ≠ i) : a.fillIn j ↔ b.fillIn j := (h j hj).fill

/-- A FILL of another slot goes on. -/
theorem Seats.goesOnBut.fills {a b : Seats} {i : SlotId} (h : a.goesOnBut b i) {x : Holder} (hx : x.slot ≠ some i) : a.fills x ↔ b.fills x := by
  have key : ∀ {a b : Seats}, (∀ j, j ≠ i → Seat.onward (a.op j) (b.op j)) → a.fills x → b.fills x := by
    rintro a b h ⟨j, u, soft, rfl, hu, ho, hk⟩
    rw [Seat.who_slot] at hx
    rcases h j (fun e => hx (congrArg some e)) with ⟨e, -⟩ | ⟨u', v, e, hv, ha⟩
    · rw [hu] at e; cases e
    · rw [hu] at e
      cases e
      obtain ⟨t, ht⟩ := ha.kind.fill_iff.mpr ⟨soft, hk⟩
      exact ⟨j, v, t, (ha.who j).symm, hv, ha.fixed.trans ho, ht⟩
  constructor
  · exact key h
  · rintro ⟨j, v, soft, rfl, hv, ho, hk⟩
    rw [Seat.who_slot] at hx
    rcases h j (fun e => hx (congrArg some e)) with ⟨-, e⟩ | ⟨u, v', hu, e, ha⟩
    · rw [hv] at e; cases e
    · rw [hv] at e
      cases e
      obtain ⟨t, ht⟩ := ha.kind.fill_iff.mp ⟨soft, hk⟩
      exact ⟨j, u, t, ha.who j, hu, ha.fixed ▸ ho, ht⟩

/-! ### The judging of fill positions -/

theorem goesOn_fillWork {s : State} {i : SlotId} {x : Slot × FillWork} (h : s.fillAt i = some x) (w : FillWork) :
    s.seats.goesOn (s.setWork i (.fill w)).seats := by
  obtain ⟨hp, hw, -⟩ := fillAt_eq_some.mp h
  exact goesOn_setWork hp (by rw [hw]; exact .fill _ _)

theorem goesOn_enterWaitSoft (s : State) (i : SlotId) : s.seats.goesOn (s.enterWaitSoft i).seats := by
  unfold State.enterWaitSoft
  split
  next sl w h =>
    dsimp only
    obtain ⟨u, hu⟩ : ∃ u, u = ((s.withdraw (slotWho i sl)).releaseIf (slotWho i sl) .inlet).releaseIf (slotWho i sl) .selector := ⟨_, rfl⟩
    rw [← hu]
    have hp : u.pool = s.pool := by
      rw [hu, (State.keepsBut_releaseIf _ _ _).pool, (State.keepsBut_releaseIf _ _ _).pool, (State.keepsBut_withdraw _ _).pool]
    exact (State.goesOn_of_pool hp).trans (goesOn_fillWork ((fillAt_congr (by rw [hp])).trans h) _)
  next => exact .refl _

theorem goesOn_fillAsks (s : State) (i : SlotId) : s.seats.goesOn (s.fillAsks i).seats := by
  unfold State.fillAsks
  split
  next sl w h =>
    dsimp only
    split
    next c hc =>
      exact (goesOn_fillWork h _).trans (State.goesOn_of_pool (State.keepsBut_ask _ _ _ _ _).pool)
    next => exact goesOn_fillWork h _
  next => exact .refl _

theorem goesOn_judgeFill (s : State) (i : SlotId) : s.seats.goesOn (s.judgeFill i).seats := by
  unfold State.judgeFill
  split
  next => exact .refl _
  next sl w h =>
    dsimp only
    split
    next =>
      split
      next => exact goesOn_fillAsks s i
      next => exact .refl _
    next =>
      split
      next =>
        split
        next => exact State.goesOn_of_pool rfl
        next => exact goesOn_enterWaitSoft s i
      next =>
        split
        next =>
          split
          next => exact goesOn_enterWaitSoft s i
          next =>
            split
            next => exact .refl _
            next =>
              exact State.goesOn_of_pool ((State.keepsBut_toInlet _ _ _ _).pool.trans (State.keepsBut_withdraw _ _).pool)
        next => exact .refl _

theorem goesOn_judgeFills (s : State) (but : Option SlotId) : s.seats.goesOn (s.judgeFills but).seats :=
  Seats.goesOn.foldl (fun s i => by
    split
    · exact .refl _
    · exact goesOn_judgeFill s i) _ s

theorem goesOn_exhaustColumn (s : State) (c : Column) (value : Nat) (but : Option SlotId) :
    s.seats.goesOn (s.exhaustColumn c value but).seats := by
  rw [exhaustColumn_eq]
  exact ((State.goesOn_of_pool (State.keepsBut_columnOut s c value).pool).trans (goesOn_judgeFills _ but)).trans
    (State.goesOn_of_pool (State.keepsBut_takeHead _).pool)

theorem goesOn_takeBreakthrough (s : State) (i : SlotId) : s.seats.goesOn (s.takeBreakthrough i).seats := by
  unfold State.takeBreakthrough
  dsimp only
  split <;> split
  · exact (goesOn_exhaustColumn _ _ _ _).trans (goesOn_exhaustColumn _ _ _ _)
  · exact goesOn_exhaustColumn _ _ _ _
  · exact goesOn_exhaustColumn _ _ _ _
  · exact .refl _

end Sys2Proof.Machine

/-! Who waits where while a trip is latched: only FILLs ask anew, and only for INLET and SELECTOR (R58, R172). -/

namespace Sys2Proof.Machine

/-! ### Lists that only FILLs join -/

/-- The lists but SELECTOR's are shortened, and INLET's is joined only by FILLs in progress; the operations go on. -/
structure FillsAsk (s t : State) : Prop where
  effect : Effect s t
  goes : s.seats.goesOn t.seats
  line : ∀ r, r ≠ .selector → ∀ h ∈ (t.seats.table r).line, h ∈ (s.seats.table r).line ∨ (r = .inlet ∧ t.seats.fills h)

theorem FillsAsk.refl (s : State) : FillsAsk s s := ⟨.refl s, .refl _, fun _ _ _ h => .inl h⟩

theorem FillsAsk.trans {s t u : State} (h : FillsAsk s t) (k : FillsAsk t u) : FillsAsk s u :=
  ⟨h.effect.trans k.effect, h.goes.trans k.goes, fun r hr x hx => by
    rcases k.line r hr x hx with hx | hx
    · exact (h.line r hr x hx).imp_right fun ⟨e, hf⟩ => ⟨e, (k.goes.fills x).mpr hf⟩
    · exact .inr hx⟩

/-- Nothing but SELECTOR's list and lists shortened. -/
theorem FillsAsk.of_line {s t : State} (he : Effect s t) (hp : s.seats.goesOn t.seats)
    (hl : ∀ r, r ≠ .selector → (t.seats.table r).line ⊆ (s.seats.table r).line) : FillsAsk s t :=
  ⟨he, hp, fun r hr _ hx => .inl (hl r hr hx)⟩

theorem FillsAsk.of_seats {s t : State} (he : Effect s t) (hs : t.seats = s.seats) : FillsAsk s t :=
  .of_line he (hs ▸ .refl _) fun r _ => by rw [hs]; exact List.Subset.refl _

theorem State.tableSafe.seatsLegal {s : State} (h : s.tableSafe) : s.seats.legal := h.legal

theorem line_askSelector (s : State) (who : Holder) (serial : Nat) (want : Option Column) {r : Resource} (hr : r ≠ .selector) :
    ((s.ask .selector who serial want).seats.table r).line = (s.seats.table r).line := by
  rw [seats_ask]
  unfold Seats.asked
  rw [Seats.put_ne _ hr]

theorem line_setWork (s : State) (i : SlotId) (w : Work) (r : Resource) : ((s.setWork i w).seats.table r) = s.seats.table r :=
  table_of_entry ((State.keepsBut_setWork s i w).entry r)

theorem fillsAsk_enterWaitSoft {s : State} (hs : s.tableSafe) (i : SlotId) : FillsAsk s (s.enterWaitSoft i) := by
  refine .of_line (enterWaitSoft_effect (.refl s) i) (goesOn_enterWaitSoft s i) fun r _ => ?_
  unfold State.enterWaitSoft
  split
  next sl w h =>
    dsimp only
    have h1 := (withdraw_releases s (slotWho i sl)).1
    have h2 := (releaseIf_releases (h1.loosens.legal hs.seatsLegal) (slotWho i sl) .inlet).1
    have h3 := (releaseIf_releases (h2.loosens.legal (h1.loosens.legal hs.seatsLegal)) (slotWho i sl) .selector).1
    rw [line_setWork]
    exact (h1.trans (h2.trans h3)).loosens.line r
  next => exact List.Subset.refl _

theorem fillsAsk_fillAsks (s : State) (i : SlotId) : FillsAsk s (s.fillAsks i) := by
  refine .of_line (fillAsks_effect (.refl s) i) (goesOn_fillAsks s i) fun r hr => ?_
  unfold State.fillAsks
  split
  next sl w h =>
    dsimp only
    split
    next => rw [line_askSelector _ _ _ _ hr, line_setWork]; exact List.Subset.refl _
    next => rw [line_setWork]; exact List.Subset.refl _
  next => exact List.Subset.refl _

theorem line_changePosition (s : State) (c : Column) (r : Resource) :
    ((s.changePosition c).seats.table r).line = (s.seats.table r).line := by
  unfold State.changePosition
  split
  next => rfl
  next =>
    split
    next => rfl
    next =>
      rw [seats_editEntry]
      by_cases h : r = .selector
      · rw [h, Seats.put_self]
        rfl
      · rw [Seats.put_ne _ h]
        rfl

theorem line_toInlet (s : State) (who : Holder) (serial : Nat) (c : Column) (r : Resource) :
    ∀ h ∈ ((s.toInlet who serial c).seats.table r).line, h ∈ (s.seats.table r).line ∨ (r = .inlet ∧ h = who) := by
  intro h hh
  unfold State.toInlet at hh
  dsimp only at hh
  split at hh
  · rw [seats_ask, Seats.mem_line_asked, line_changePosition] at hh
    exact hh
  · rw [line_changePosition] at hh
    exact .inl hh

theorem fillsAsk_judgeFill {s : State} (hs : s.tableSafe) (i : SlotId) : FillsAsk s (s.judgeFill i) := by
  have heff := judgeFill_effect (.refl s) i
  have hgo := goesOn_judgeFill s i
  revert heff hgo
  unfold State.judgeFill
  split
  next => exact fun _ _ => .refl s
  next sl w h =>
    dsimp only
    split
    next =>
      split
      next => exact fun _ _ => fillsAsk_fillAsks s i
      next => exact fun _ _ => .refl s
    next =>
      split
      next =>
        split
        next c hc =>
          refine fun he hg => .of_line he hg fun r hr => ?_
          unfold State.rewriteWant
          dsimp only
          rw [seats_putEntry, Seats.put_ne _ hr]
          exact List.Subset.refl _
        next => exact fun _ _ => fillsAsk_enterWaitSoft hs i
      next =>
        split
        next =>
          split
          next => exact fun _ _ => fillsAsk_enterWaitSoft hs i
          next c hc =>
            split
            next => exact fun _ _ => .refl s
            next =>
              refine fun he hg => ⟨he, hg, fun r _ x hx => ?_⟩
              rcases line_toInlet _ _ _ _ r x hx with hx | ⟨hr, rfl⟩
              · exact .inl ((withdraw_releases s _).1.loosens.line r hx)
              · refine .inr ⟨hr, (hg.fills _).mpr ?_⟩
                obtain ⟨hp, hw, ho⟩ := fillAt_eq_some.mp h
                exact ⟨i, sl.seat, w.waitSoft, slotWho_seat i sl, seats_op hp, (seat_fixed sl).mpr ho, by rw [Slot.seat, hw]; rfl⟩
        next => exact fun _ _ => .refl s

theorem fillsAsk_judgeFills {s : State} (hs : s.tableSafe) (but : Option SlotId) : FillsAsk s (s.judgeFills but) := by
  have key : ∀ (l : List SlotId) {u : State}, FillsAsk s u → FillsAsk s (l.foldl (fun s i => if but = some i then s else s.judgeFill i) u) := by
    intro l
    induction l with
    | nil => exact fun h => h
    | cons i l ih =>
      refine fun {u} h => ih ?_
      show FillsAsk s (if but = some i then u else u.judgeFill i)
      split
      · exact h
      · exact h.trans (fillsAsk_judgeFill (h.effect.tables hs) i)
  exact key _ (.refl s)

/-! ### Nobody takes the head of the queue under a trip -/

theorem takeHead_latched {s : State} (h : s.latched = true) : s.takeHead = s := by
  have hr : s.headReady = false := by simp [State.headReady, h]
  unfold State.takeHead
  split
  next => rfl
  next => rw [hr]; rfl

theorem seats_columnOut_table (s : State) (c : Column) (value : Nat) (r : Resource) : (s.columnOut c value).seats.table r = s.seats.table r :=
  table_of_entry ((State.keepsBut_columnOut s c value).entry r)

theorem columnOut_effect (s : State) (c : Column) (value : Nat) : Effect s (s.columnOut c value) := by
  unfold State.columnOut
  dsimp only
  obtain ⟨u, hu⟩ : ∃ u, u = s.setColumn c { s.column c with state := .exhausted, remaining := 0, breakthrough := none } := ⟨_, rfl⟩
  have h1 : Effect s u := hu ▸ setColumn_effect (.refl s) c _ (fun _ k => by cases k) fun _ _ => Nat.zero_le _
  have hu' : (u.column c).state ≠ .inService := by
    rw [hu, State.column_setColumn, if_pos rfl]
    simp
  rw [← hu]
  split
  · refine postInService_effect (post_effect (standbyIn_effect (joinTail_effect h1 c) _ ?_) _ _ _) _ _
    rw [Column.other_other, State.column_joinTail]
    exact hu'
  · refine postInService_effect (post_effect (standbyIn_effect h1 _ ?_) _ _ _) _ _
    rw [Column.other_other]
    exact hu'

theorem fillsAsk_exhaustColumn {s : State} (hs : s.tableSafe) (hl : s.latched = true) (c : Column) (value : Nat) (but : Option SlotId) :
    FillsAsk s (s.exhaustColumn c value but) := by
  have h1 := columnOut_effect s c value
  have h2 : FillsAsk s (s.columnOut c value) := .of_line h1 (State.goesOn_of_pool (State.keepsBut_columnOut s c value).pool)
    fun r _ => by rw [seats_columnOut_table]; exact List.Subset.refl _
  have h3 := h2.trans (fillsAsk_judgeFills (h1.tables hs) but)
  rw [exhaustColumn_eq, takeHead_latched ((State.latched_congr h3.effect.fixed).trans hl)]
  exact h3

theorem fillsAsk_takeBreakthrough {s : State} (hs : s.tableSafe) (hl : s.latched = true) (i : SlotId) : FillsAsk s (s.takeBreakthrough i) := by
  unfold State.takeBreakthrough
  dsimp only
  have hb : ∀ {u}, FillsAsk s u → FillsAsk s (if u.soft.colB.breakthrough = some i then u.exhaustColumn .b 1 none else u) := fun h => by
    split
    · exact h.trans (fillsAsk_exhaustColumn (h.effect.tables hs) ((State.latched_congr h.effect.fixed).trans hl) _ _ _)
    · exact h
  refine hb ?_
  split
  · exact fillsAsk_exhaustColumn hs hl _ _ _
  · exact .refl s

/-! ### An operation that is ended -/

/-- The outcome fixed, every lease let go, and the requester gone from every list (R29). -/
def State.endLetGo (s : State) (i : SlotId) (o : OutcomeCode) (who : Holder) : State := ((s.fixOutcome i o).releaseAll who).withdraw who

theorem endLetGo_effect (s : State) (i : SlotId) (o : OutcomeCode) (who : Holder) : Effect s (s.endLetGo i o who) :=
  withdraw_effect (releaseAll_effect (fixOutcome_effect (.refl s) i o) who) who

theorem pool_endLetGo (s : State) (i : SlotId) (o : OutcomeCode) (who : Holder) : (s.endLetGo i o who).pool = (s.fixOutcome i o).pool :=
  (State.keepsBut_withdraw _ _).pool.trans (State.keepsBut_releaseAll _ _).pool

theorem table_fixOutcome (s : State) (i : SlotId) (o : OutcomeCode) (r : Resource) : (s.fixOutcome i o).seats.table r = s.seats.table r :=
  table_of_entry ((State.keepsBut_fixOutcome s i o).entry r)

theorem endLetGo_lets {s : State} (hl : s.seats.legal) (i : SlotId) (o : OutcomeCode) (who : Holder) :
    Lets who (s.fixOutcome i o).seats (s.endLetGo i o who).seats :=
  letsAll (fun r => by rw [table_fixOutcome]; exact hl r) who

theorem op_fixOutcome_ne (s : State) {i j : SlotId} (h : j ≠ i) (o : OutcomeCode) : (s.fixOutcome i o).seats.op j = s.seats.op j := by
  cases hp : s.pool[i] with
  | none =>
    unfold State.fixOutcome
    rw [hp]
  | some sl => rw [seats_fixOutcome hp, Seats.op_seat_ne _ h]

theorem goesOnBut_endLetGo (s : State) (i : SlotId) (o : OutcomeCode) (who : Holder) : s.seats.goesOnBut (s.endLetGo i o who).seats i :=
  fun j hj => by
    rw [seats_op_pool (pool_endLetGo s i o who), op_fixOutcome_ne s hj]
    exact Seat.onward.refl _

theorem line_endLetGo {s : State} (hl : s.seats.legal) (i : SlotId) (o : OutcomeCode) (who : Holder) (r : Resource) :
    ((s.endLetGo i o who).seats.table r).line ⊆ (s.seats.table r).line := fun x hx => by
  have := (endLetGo_lets hl i o who).loosens.line r hx
  rwa [table_fixOutcome] at this

/-! ### The lists of the trip set -/

/-- A trip is latched, and of the trip set's lists only INLET's has anybody: FILLs in progress. -/
structure TripLeft (s : State) : Prop where
  latched : s.latched = true
  tables : s.tableSafe
  line : ∀ r, r.inTripSet = true → ∀ h ∈ (s.seats.table r).line, r = .inlet ∧ s.seats.fills h

theorem inTripSet_ne {r : Resource} (h : r.inTripSet = true) : r ≠ .selector := by
  rintro rfl
  cases h

theorem TripLeft.asks {s t : State} (h : TripLeft s) (k : FillsAsk s t) : TripLeft t :=
  ⟨(State.latched_congr k.effect.fixed).trans h.latched, k.effect.tables h.tables, fun r hr x hx => by
    rcases k.line r (inTripSet_ne hr) x hx with hx | hx
    · exact (h.line r hr x hx).imp_right (k.goes.fills x).mpr
    · exact hx⟩

/-- The operation of one slot is gone, or no FILL in progress, and not in INLET's list. -/
theorem TripLeft.drop {s t : State} (h : TripLeft s) (he : Effect s t) (hl : ∀ r, (t.seats.table r).line ⊆ (s.seats.table r).line) {i : SlotId}
    (hg : s.seats.goesOnBut t.seats i) (hi : ∀ x ∈ (t.seats.table .inlet).line, s.seats.fills x → x.slot ≠ some i) : TripLeft t :=
  ⟨(State.latched_congr he.fixed).trans h.latched, he.tables h.tables, fun r hr x hx => by
    obtain ⟨rfl, hf⟩ := h.line r hr x (hl r hx)
    exact ⟨rfl, (hg.fills (hi x hx hf)).mp hf⟩⟩

/-- A requester that is a FILL of the slot. -/
theorem Seats.fills_slot {a : Seats} {x : Holder} {i : SlotId} (h : a.fills x) (hi : x.slot = some i) :
    ∃ u soft, a.op i = some u ∧ u.fixed = false ∧ u.kind = .fill soft ∧ x = u.who i := by
  obtain ⟨j, u, soft, rfl, hu, ho, hk⟩ := h
  rw [Seat.who_slot] at hi
  cases hi
  exact ⟨u, soft, hu, ho, hk, rfl⟩

theorem Seats.fills_slot_ne {a : Seats} {x : Holder} {i : SlotId} (h : a.fills x) (hi : ¬a.fillIn i) : x.slot ≠ some i := fun c => by
  obtain ⟨u, soft, hu, ho, hk, -⟩ := Seats.fills_slot h c
  exact hi ⟨u, soft, hu, ho, hk⟩

end Sys2Proof.Machine

/-! The pool and the regeneration as a trip is latched: what is in progress ends, and nobody of it waits on (R27, R172). -/

namespace Sys2Proof.Machine

/-- The operation of one slot is taken by a trip. -/
structure TripEnds (s t : State) (i : SlotId) : Prop where
  left : TripLeft t
  goes : s.seats.goesOnBut t.seats i
  gone : ¬t.seats.fillIn i

theorem TripEnds.stays {s : State} {i : SlotId} (h : TripLeft s) (hi : ¬s.seats.fillIn i) : TripEnds s s i :=
  ⟨h, (Seats.goesOn.refl _).but i, hi⟩

theorem not_fillIn_of_kind {s : State} {i : SlotId} {sl : Slot} (hp : s.pool[i] = some sl) (h : ∀ w, sl.work ≠ .fill w) : ¬s.seats.fillIn i := by
  rintro ⟨x, soft, hx, -, hk⟩
  rw [seats_op hp] at hx
  cases hx
  obtain ⟨w, hw, -⟩ := kind_eq_fill hk
  exact h w hw

theorem not_fillIn_empty {s : State} {i : SlotId} (hp : s.pool[i] = none) : ¬s.seats.fillIn i := by
  rintro ⟨x, soft, hx, -, -⟩
  have : s.pool[i].map Slot.seat = some x := hx
  rw [hp] at this
  cases this

theorem not_fillIn_endLetGo {s : State} {i : SlotId} {sl : Slot} (hp : s.pool[i] = some sl) (o : OutcomeCode) (who : Holder) :
    ¬(s.endLetGo i o who).seats.fillIn i := by
  rintro ⟨x, soft, hx, ho, -⟩
  rw [seats_op_pool (pool_endLetGo s i o who), seats_fixOutcome hp, Seats.op_seat_self] at hx
  cases hx
  cases ho

/-- A slot freed. -/
theorem TripEnds.endSlot {s t : State} {i : SlotId} (h : TripEnds s t i) (o : OutcomeCode) (fields : List Byte) (answer : Bool) :
    TripEnds s (t.endSlot i o fields answer) i := by
  have hs := seats_endSlot t i o fields answer
  have hgo : t.seats.goesOnBut (t.endSlot i o fields answer).seats i := by
    rw [hs]
    exact .seat _ _ _
  refine ⟨h.left.drop (endSlot_effect (.refl t) i o fields answer) (fun r => ?_) hgo fun x _ hf => Seats.fills_slot_ne hf h.gone, h.goes.trans hgo, ?_⟩
  · rw [hs]
    exact List.Subset.refl _
  · rw [hs]
    rintro ⟨x, soft, hx, -, -⟩
    rw [Seats.op_seat_self] at hx
    cases hx

/-- What the view does not show. -/
theorem TripEnds.unseen {s t u : State} {i : SlotId} (h : TripEnds s t i) (he : Effect t u) (hs : u.seats = t.seats) : TripEnds s u i :=
  ⟨h.left.asks (.of_seats he hs), hs ▸ h.goes, hs ▸ h.gone⟩

/-- An operation's outcome fixed. -/
theorem tripEnds_endLetGo {s : State} (h : TripLeft s) {i : SlotId} {sl : Slot} (hp : s.pool[i] = some sl) (o : OutcomeCode) :
    TripEnds s (s.endLetGo i o (slotWho i sl)) i := by
  refine ⟨h.drop (endLetGo_effect s i o _) (line_endLetGo h.tables.seatsLegal i o _) (goesOnBut_endLetGo s i o _) fun x hx hf hc => ?_,
    goesOnBut_endLetGo s i o _, not_fillIn_endLetGo hp o _⟩
  obtain ⟨u, soft, hu, -, -, rfl⟩ := Seats.fills_slot hf hc
  rw [seats_op hp] at hu
  cases hu
  rw [← slotWho_seat] at hx
  exact (endLetGo_lets h.tables.seatsLegal i o _).line _ hx

theorem tripEnds_finishFill {s : State} (h : TripLeft s) (i : SlotId) (answer : Bool) : TripEnds s (s.finishFill i .tripped answer) i := by
  unfold State.finishFill
  split
  next hf => exact .stays h (by rw [fillIn_iff, hf]; simp)
  next sl w hf =>
    obtain ⟨hp, -, -⟩ := fillAt_eq_some.mp hf
    dsimp only
    have hu := tripEnds_endLetGo h hp .tripped
    change TripEnds s (State.endSlot (if OutcomeCode.tripped = .done ∨ OutcomeCode.tripped = .limit then _ else _) i .tripped _ answer) i
    rw [if_neg (by decide)]
    rw [show ((s.fixOutcome i .tripped).releaseAll (slotWho i sl)).withdraw (slotWho i sl) = s.endLetGo i .tripped (slotWho i sl) from rfl]
    generalize s.endLetGo i .tripped (slotWho i sl) = u at hu ⊢
    have hv := fillsAsk_takeBreakthrough hu.left.tables hu.left.latched i
    generalize u.takeBreakthrough i = v at hv ⊢
    have hvi : TripEnds s v i := ⟨hu.left.asks hv, hu.goes.trans (hv.goes.but i), fun c => hu.gone ((Seat.onward.fill (hv.goes i)).mpr c)⟩
    exact (hvi.unseen (appendDraw_effect (.refl v) _ _ _ _ _ _ (by simp)) (State.keepsBut_appendDraw v _ _ _ _ _ _).seats).endSlot _ _ _

theorem tripEnds_finishCirc {s : State} (h : TripLeft s) {i : SlotId} {sl : Slot} (hp : s.pool[i] = some sl) (hw : ∀ w, sl.work ≠ .fill w)
    (answer : Bool) : TripEnds s (s.finishCirc i .tripped answer) i := by
  unfold State.finishCirc
  split
  next => exact .stays h (not_fillIn_of_kind hp hw)
  next sl' w hc =>
    obtain rfl : sl' = sl := by
      unfold State.circAt at hc
      rw [hp] at hc
      split at hc
      next e =>
        cases e
        split at hc
        · cases hc; rfl
        · cases hc
      next e => cases e
    dsimp only
    have hu := tripEnds_endLetGo h hp .tripped
    split
    · exact hu
    · exact hu.endSlot _ _ _

theorem tripEnds_finishHeat {s : State} (h : TripLeft s) {i : SlotId} {sl : Slot} {w : HeatWork} (hp : s.pool[i] = some sl) (hw : sl.work = .heat w)
    (answer : Bool) : TripEnds s (s.finishHeat i .tripped answer) i := by
  unfold State.finishHeat
  rw [heatAt_held hp hw]
  exact (show TripEnds s ((if OutcomeCode.tripped = .done then _ else s.endLetGo i .tripped (slotWho i sl)).endSlot i .tripped [] answer) i by
    rw [if_neg (by decide)]
    exact (tripEnds_endLetGo h hp .tripped).endSlot _ _ _)

theorem tripEnds_tripSlot {s : State} (h : TripLeft s) (i : SlotId) : TripEnds s (s.tripSlot i) i := by
  unfold State.tripSlot
  split
  next hp => exact .stays h (not_fillIn_empty hp)
  next sl hp =>
    have hno : (∀ w, sl.work ≠ .fill w) → TripEnds s s i := fun hw => .stays h (not_fillIn_of_kind hp hw)
    split
    next => exact tripEnds_finishFill h i true
    next w hw =>
      have hne : ∀ x, sl.work ≠ .fill x := fun x c => by rw [hw] at c; cases c
      split
      next => exact (hno hne).endSlot _ _ _
      next => exact tripEnds_finishCirc h hp hne true
    next w hw => exact tripEnds_finishHeat h hp hw true
    next c hw =>
      have hne : ∀ x, sl.work ≠ .fill x := fun x c => by rw [hw] at c; cases c
      split
      next =>
        have hs := (State.keepsBut_setQueue s (s.soft.queue.flatMap fun q =>
          if q.requester = some (sl.port, i) then
            if s.cfg.autoRegen && (s.column q.column).state == .exhausted then [⟨q.column, none, s.drive.clock⟩] else []
          else [q]))
        have hu : TripEnds s (s.unqueue sl.port i) i := by
          have he := unqueue_effect (.refl s) sl.port i
          have ht : ∀ r, (s.unqueue sl.port i).seats.table r = s.seats.table r := fun r => table_of_entry (hs.entry r)
          have hg : s.seats.goesOn (s.unqueue sl.port i).seats := State.goesOn_of_pool hs.pool
          refine ⟨h.asks (.of_line he hg fun r _ => ?_), hg.but i, fun c => (hno hne).gone ((Seat.onward.fill (hg i)).mpr c)⟩
          rw [ht]
          exact List.Subset.refl _
        exact hu.endSlot _ _ _
      next => exact hno hne
    next w hw => exact hno fun x c => by rw [hw] at c; cases c
    next w hw => exact hno fun x c => by rw [hw] at c; cases c
    next w hw => exact hno fun x c => by rw [hw] at c; cases c

/-! ### The whole pool -/

theorem tripSlots_left : ∀ (l : List SlotId) {s : State}, TripLeft s →
    TripLeft (l.foldl State.tripSlot s) ∧ ∀ i, (i ∈ l ∨ ¬s.seats.fillIn i) → ¬(l.foldl State.tripSlot s).seats.fillIn i
  | [], s, h => ⟨h, fun i hi => hi.resolve_left List.not_mem_nil⟩
  | j :: l, s, h => by
    have hj := tripEnds_tripSlot h j
    obtain ⟨h1, h2⟩ := tripSlots_left l hj.left
    refine ⟨h1, fun i hi => h2 i ?_⟩
    by_cases hij : i = j
    · exact .inr (hij ▸ hj.gone)
    · rcases hi with hi | hi
      · exact .inl ((List.mem_cons.mp hi).resolve_left hij)
      · exact .inr fun c => hi ((hj.goes.fillIn hij).mpr c)

/-- No FILL is left, and nobody waits for a resource of the trip set. -/
structure TripDone (s : State) : Prop where
  latched : s.latched = true
  fills : ∀ i, s.fillAt i = none
  line : ∀ r, r.inTripSet = true → (s.seats.table r).line = []

theorem TripLeft.done {s : State} (h : TripLeft s) (hf : ∀ i, ¬s.seats.fillIn i) : TripDone s :=
  ⟨h.latched, fun i => by have := hf i; rwa [fillIn_iff, not_not] at this, fun r hr => List.eq_nil_iff_forall_not_mem.mpr fun x hx => by
    obtain ⟨j, u, soft, -, hu, ho, hk⟩ := (h.line r hr x hx).2
    exact hf j ⟨u, soft, hu, ho, hk⟩⟩

end Sys2Proof.Machine

/-! The latching of a trip and the force it takes (R7, R172, R173). -/

namespace Sys2Proof.Machine

/-! ### What the latching leaves -/

theorem State.keepsBut_joinHead (s : State) (c : Column) : s.keepsBut (s.joinHead c) [.soft] :=
  .ite _ (s.keepsBut_refl _) (State.keepsBut_setQueue _ _)

theorem State.keepsBut_endLetGo (s : State) (i : SlotId) (o : OutcomeCode) (who : Holder) :
    s.keepsBut (s.endLetGo i o who) [.arb, .drive, .sense, .door, .pool] :=
  ((State.keepsBut_mono (s.keepsBut_fixOutcome i o) (by decide)).step (State.keepsBut_releaseAll _ _) (by decide)).step
    (State.keepsBut_withdraw _ _) (by decide)

theorem State.keepsBut_answerRegen (s : State) (g : Regen) (o : OutcomeCode) (fields : List Byte) (answer : Bool) :
    s.keepsBut (s.answerRegen g o fields answer) [.pool, .ports] := by
  unfold State.answerRegen
  split
  · exact s.keepsBut_endSlot _ _ _ _
  · exact s.keepsBut_refl _

/-- The blocks in which the work of a trip shows, but the protection's own. -/
def tripBlocks : List Block := [.arb, .drive, .sense, .door, .pool, .soft, .ports, .acct]

theorem State.keepsBut_finishFill_tripped (s : State) (i : SlotId) (answer : Bool) : s.keepsBut (s.finishFill i .tripped answer) tripBlocks := by
  unfold State.finishFill
  split
  next => exact s.keepsBut_refl _
  next sl w h =>
    dsimp only
    have h1 := (State.keepsBut_mono (s.keepsBut_endLetGo i .tripped (slotWho i sl)) (by decide : _ ⊆ tripBlocks)).step
      (State.keepsBut_takeBreakthrough _ i) (by decide)
    change s.keepsBut ((if OutcomeCode.tripped = .done ∨ OutcomeCode.tripped = .limit then _ else _ : State).endSlot i .tripped _ answer) _
    rw [if_neg (by decide)]
    exact (h1.step (State.keepsBut_appendDraw _ _ _ _ _ _ _) (by decide)).step (State.keepsBut_endSlot _ _ _ _ _) (by decide)

theorem State.keepsBut_tripSlot (s : State) (i : SlotId) : s.keepsBut (s.tripSlot i) tripBlocks := by
  have hend : ∀ {t : State}, s.keepsBut t tripBlocks → ∀ o fields answer, s.keepsBut (t.endSlot i o fields answer) tripBlocks :=
    fun h o fields answer => h.step (State.keepsBut_endSlot _ _ _ _ _) (by decide)
  have hlet : ∀ who, s.keepsBut (s.endLetGo i .tripped who) tripBlocks := fun who => State.keepsBut_mono (s.keepsBut_endLetGo i _ who) (by decide)
  unfold State.tripSlot
  split
  next => exact s.keepsBut_refl _
  next sl hp =>
    split
    next => exact s.keepsBut_finishFill_tripped i true
    next =>
      split
      next => exact hend (s.keepsBut_refl _) _ _ _
      next =>
        unfold State.finishCirc
        split
        next => exact s.keepsBut_refl _
        next =>
          dsimp only
          split
          · exact hlet _
          · exact hend (hlet _) _ _ _
    next w hw =>
      unfold State.finishHeat
      rw [heatAt_held hp hw]
      exact (show s.keepsBut ((if OutcomeCode.tripped = .done then _ else s.endLetGo i .tripped (slotWho i sl)).endSlot i .tripped [] true) _ by
        rw [if_neg (by decide)]
        exact hend (hlet _) _ _ _)
    next =>
      split
      next => exact hend (State.keepsBut_mono (State.keepsBut_setQueue _ _) (by decide)) _ _ _
      next => exact s.keepsBut_refl _
    next => exact s.keepsBut_refl _
    next => exact s.keepsBut_refl _
    next => exact s.keepsBut_refl _

theorem State.keepsBut_endInStarting (s : State) (g : Regen) (o : OutcomeCode) (answer : Bool) :
    s.keepsBut (s.endInStarting g o answer) tripBlocks :=
  have h1 := ((State.keepsBut_mono (s.keepsBut_withdraw (regenWho g)) (by decide : _ ⊆ tripBlocks)).step
    (State.keepsBut_setRegen _ none) (by decide))
  ((State.keepsBut.ite _ (h1.step (State.keepsBut_joinHead _ _) (by decide)) h1).step (State.keepsBut_answerRegen _ _ _ _ _) (by decide)).step
    (State.keepsBut_takeHead _) (by decide)

theorem State.keepsBut_abortRegen (s : State) (g : Regen) (o : OutcomeCode) (recorded answer : Bool) :
    s.keepsBut (s.abortRegen g o recorded answer) tripBlocks := by
  have h1 := ((State.keepsBut_mono (s.keepsBut_releaseAll (regenWho g)) (by decide : _ ⊆ tripBlocks)).step
    (State.keepsBut_withdraw _ (regenWho g)) (by decide)).step (State.keepsBut_recordAborted _ g o recorded) (by decide)
  unfold State.abortRegen
  dsimp only
  generalize ((s.releaseAll (regenWho g)).withdraw (regenWho g)).recordAborted g o recorded = d at h1 ⊢
  have h2 := (h1.step (State.keepsBut_setColumn d g.column { d.column g.column with
    state := .exhausted, remaining := 0, last := .aborted, breakthrough := none }) (by decide)).step (State.keepsBut_setRegen _ none) (by decide)
  generalize (d.setColumn g.column { d.column g.column with
    state := .exhausted, remaining := 0, last := .aborted, breakthrough := none }).setRegen none = e at h2 ⊢
  have h3 : s.keepsBut (if e.cfg.autoRegen = true then e.joinTail g.column else e) tripBlocks :=
    .ite _ (h2.step (State.keepsBut_joinTail _ _) (by decide)) h2
  exact (((h3.step (State.keepsBut_post _ _ _ _) (by decide)).step (State.keepsBut_answerRegen _ g o _ answer) (by decide)).step
    (State.keepsBut_judgeFills _ none) (by decide)).step (State.keepsBut_takeHead _) (by decide)

theorem State.keepsBut_endRegen (s : State) (o : OutcomeCode) (answer : Bool) : s.keepsBut (s.endRegen o answer) tripBlocks := by
  unfold State.endRegen
  split
  · exact s.keepsBut_refl _
  · exact .ite _ (s.keepsBut_endInStarting _ _ _) (s.keepsBut_abortRegen _ _ _ _)

theorem State.keepsBut_channelTripped (s : State) (c : ChannelId) : s.keepsBut (s.channelTripped c) [.dose, .ports] := by
  have h1 := State.keepsBut_mono (s.keepsBut_setChannel c { (s.channel c).cut with stopPending := false }) (by decide : _ ⊆ [Block.dose, .ports])
  exact .ite _ (s.keepsBut_refl _) (.ite _ h1 (h1.step (State.keepsBut_haltChannel _ _ _) (by decide)))

theorem State.keepsBut_revoke (s : State) (r : Resource) : s.keepsBut (s.revoke r) [.arb, .drive, .sense] := by
  unfold State.revoke
  dsimp only
  split
  · exact (s.keepsBut_freeLease r).step (State.keepsBut_editEntry _ _ _) (by decide)
  · exact State.keepsBut_mono (State.keepsBut_editEntry _ _ _) (by decide)

/-- The protection unit's record stands under the work of a trip. -/
theorem State.prot_tripWork (s : State) : s.tripWork.prot = s.prot := by
  have h1 : s.keepsBut (tripResources.foldl State.revoke s) tripBlocks :=
    .foldl _ (fun t r => State.keepsBut_mono (t.keepsBut_revoke r) (by decide)) _ (s.keepsBut_refl _)
  unfold State.tripWork
  dsimp only
  generalize tripResources.foldl State.revoke s = u at h1 ⊢
  have h2 : u.keepsBut (allSlots.foldl State.tripSlot u) tripBlocks := .foldl _ (fun t i => t.keepsBut_tripSlot i) _ (u.keepsBut_refl _)
  generalize allSlots.foldl State.tripSlot u = v at h2 ⊢
  have h3 := v.keepsBut_endRegen .tripped true
  generalize v.endRegen .tripped true = w at h3 ⊢
  have h4 : w.keepsBut (allChannels.foldl State.channelTripped w) [.dose, .ports] :=
    .foldl _ (fun t c => t.keepsBut_channelTripped c) _ (w.keepsBut_refl _)
  rw [h4.prot, h3.prot (by decide), h2.prot (by decide), h1.prot (by decide)]

/-! ### The lists after it -/

/-- Lists are shortened, and no slot comes to hold anything else. -/
theorem TripDone.step {s t : State} (h : TripDone s) (hl : t.latched = s.latched) (hp : ∀ i : SlotId, t.pool[i] = s.pool[i] ∨ t.pool[i] = none)
    (hline : ∀ r, (t.seats.table r).line ⊆ (s.seats.table r).line) : TripDone t where
  latched := hl.trans h.latched
  fills i := by
    rcases hp i with e | e
    · exact (fillAt_congr e).trans (h.fills i)
    · unfold State.fillAt
      rw [e]
  line r hr := List.eq_nil_iff_forall_not_mem.mpr fun x hx => by
    have := hline r hx
    rw [h.line r hr] at this
    cases this

theorem TripDone.frame {s t : State} (h : TripDone s) {l : List Block} (k : s.keepsBut t l)
    (hl : ∀ b ∈ [Block.pool, .arb, .prot], b ∉ l := by decide) : TripDone t :=
  h.step (by unfold State.latched; rw [k.prot (hl _ (by decide))]) (fun i => .inl (by rw [k.pool (hl _ (by decide))]))
    fun r => by rw [table_of_entry (k.entry r (hl _ (by decide)))]; exact List.Subset.refl _

theorem TripDone.endSlot {s : State} (h : TripDone s) (i : SlotId) (o : OutcomeCode) (fields : List Byte) (answer : Bool) :
    TripDone (s.endSlot i o fields answer) := by
  refine h.step (by unfold State.latched; rw [(s.keepsBut_endSlot i o fields answer).prot]) (fun j => ?_) fun r => ?_
  · unfold State.endSlot
    split
    next sl hp =>
      dsimp only
      by_cases hj : j = i
      · exact .inr (by rw [hj]; exact State.pool_setSlot_self _ _ _)
      · refine .inl ?_
        rw [State.pool_setSlot_ne _ hj]
        split
        · exact congrArg (fun v : Vector (Option Slot) 12 => v[j]) (s.keepsBut_send _ _).pool
        · rfl
    next => exact .inl rfl
  · rw [seats_endSlot]
    exact List.Subset.refl _

theorem TripDone.answerRegen {s : State} (h : TripDone s) (g : Regen) (o : OutcomeCode) (fields : List Byte) (answer : Bool) :
    TripDone (s.answerRegen g o fields answer) := by
  unfold State.answerRegen
  split
  · exact h.endSlot _ _ _ _
  · exact h

theorem TripDone.withdraw {s : State} (h : TripDone s) (who : Holder) : TripDone (s.withdraw who) :=
  h.step (by unfold State.latched; rw [(s.keepsBut_withdraw who).prot]) (fun i => .inl (by rw [(s.keepsBut_withdraw who).pool]))
    (withdraw_releases s who).1.loosens.line

theorem TripDone.releaseAll {s : State} (h : TripDone s) (hl : s.seats.legal) (who : Holder) : TripDone (s.releaseAll who) :=
  h.step (by unfold State.latched; rw [(s.keepsBut_releaseAll who).prot]) (fun i => .inl (by rw [(s.keepsBut_releaseAll who).pool]))
    (releaseAll_releases hl who).1.loosens.line

theorem TripDone.takeHead {s : State} (h : TripDone s) : TripDone s.takeHead := by
  rw [takeHead_latched h.latched]
  exact h

theorem TripDone.endRegen {s : State} (h : TripDone s) (hl : s.seats.legal) (o : OutcomeCode) (answer : Bool) : TripDone (s.endRegen o answer) := by
  unfold State.endRegen
  split
  next => exact h
  next g hg =>
    split
    next =>
      have h1 := (h.withdraw (regenWho g)).frame (State.keepsBut_setRegen _ none)
      have h2 : ∀ b : Bool, TripDone (if b then ((s.withdraw (regenWho g)).setRegen none).joinHead g.column else (s.withdraw (regenWho g)).setRegen none) :=
        fun b => by
          split
          · exact h1.frame (State.keepsBut_joinHead _ _)
          · exact h1
      exact ((h2 _).answerRegen g o _ answer).takeHead
    next =>
      have h1 := ((h.releaseAll hl (regenWho g)).withdraw (regenWho g)).frame (State.keepsBut_recordAborted _ g o false)
      unfold State.abortRegen
      dsimp only
      generalize ((s.releaseAll (regenWho g)).withdraw (regenWho g)).recordAborted g o false = d at h1 ⊢
      have h2 := (h1.frame (State.keepsBut_setColumn d g.column { d.column g.column with
        state := .exhausted, remaining := 0, last := .aborted, breakthrough := none })).frame (State.keepsBut_setRegen _ none)
      generalize (d.setColumn g.column { d.column g.column with
        state := .exhausted, remaining := 0, last := .aborted, breakthrough := none }).setRegen none = e at h2 ⊢
      have h3 : TripDone (if e.cfg.autoRegen = true then e.joinTail g.column else e) := by
        split
        · exact h2.frame (State.keepsBut_joinTail _ _)
        · exact h2
      have h4 := (h3.frame (State.keepsBut_post _ .regenEnded (columnCode g.column) 3)).answerRegen g o
        (byte1 (phaseCode g.phase) ++ byte1 g.counted) answer
      rw [judgeFills_none h4.fills]
      exact h4.takeHead

end Sys2Proof.Machine

/-! A cause handed in while no trip is latched (R171 to R173). -/

namespace Sys2Proof.Machine

/-! ### The revocations -/

theorem line_revoke (s : State) (r q : Resource) : ((s.revoke r).seats.table q).line = if q = r then [] else (s.seats.table q).line := by
  have hf : ∀ q, ((if s.hasHolder r then s.freeLease r else s).seats.table q).line = (s.seats.table q).line := fun q => by
    split
    · rw [seats_freeLease]
      by_cases h : q = r
      · rw [h, Seats.put_self]
      · rw [Seats.put_ne _ h]
    · rfl
  unfold State.revoke
  dsimp only
  rw [seats_editEntry]
  by_cases h : q = r
  · rw [if_pos h, h, Seats.put_self]
    rfl
  · rw [if_neg h, Seats.put_ne _ h, hf]

theorem line_revokes : ∀ (l : List Resource) (s : State) (q : Resource), (q ∈ l ∨ (s.seats.table q).line = []) →
    ((l.foldl State.revoke s).seats.table q).line = []
  | [], _, _, h => h.resolve_left List.not_mem_nil
  | r :: l, s, q, h => by
    refine line_revokes l (s.revoke r) q ?_
    rw [line_revoke]
    by_cases hq : q = r
    · exact .inr (if_pos hq)
    · rw [if_neg hq]
      exact h.imp_left fun hm => (List.mem_cons.mp hm).resolve_left hq

theorem revokes_effect (s : State) : Effect s (tripResources.foldl State.revoke s) := by
  unfold tripResources
  simp only [List.foldl_cons, List.foldl_nil]
  refine revoke_effect (revoke_effect (revoke_effect (revoke_effect (revoke_effect (revoke_effect (revoke_effect (.refl s) _ ?_)
    _ ?_) _ ?_) _ ?_) _ ?_) _ ?_) _ ?_ <;> decide

section Latching

variable {s : State} (ht : s.tableSafe) (c : TripCause)
include ht

theorem tripLeft_revokes : TripLeft (tripResources.foldl State.revoke (s.addCause c)) := by
  have he := revokes_effect (s.addCause c)
  refine ⟨(State.latched_congr he.fixed).trans (s.latched_addCause c), ?_, fun r hr x hx => ?_⟩
  · have hclear := he.uncaused
    rw [s.addCause_clear] at hclear
    exact (hclear.tables ((clearTrip_works s).tables ht)).caused fun r hr => foldl_revoke_free (by decide) _ (.inl (mem_tripResources hr))
  · rw [line_revokes _ _ r (.inl (mem_tripResources hr))] at hx
    cases hx

/-- The pool and the regeneration after the latching. -/
theorem tripDone_endRegen : TripDone ((allSlots.foldl State.tripSlot (tripResources.foldl State.revoke (s.addCause c))).endRegen .tripped true) := by
  obtain ⟨h1, h2⟩ := tripSlots_left allSlots (tripLeft_revokes ht c)
  exact (h1.done fun i => h2 i (.inl (List.mem_finRange i))).endRegen h1.tables.seatsLegal _ _

end Latching

/-! ### The channels -/

/-- The channel has nothing left to do, or a trip has halted it. -/
def Channel.tripped (ch : Channel) : Prop := ch.state = .idle ∨ (ch.state = .halted ∧ ch.cause = .trip)

theorem cut_state (ch : Channel) : ch.cut.state = ch.state ∧ ch.cut.cause = ch.cause := by
  unfold Channel.cut
  split <;> exact ⟨rfl, rfl⟩

theorem channel_channelTripped_self (s : State) (c : ChannelId) : ((s.channelTripped c).channel c).tripped := by
  unfold State.channelTripped
  dsimp only
  split
  next h => exact .inl h
  next =>
    split
    next h =>
      rw [State.channel_setChannel, if_pos rfl]
      exact .inr ⟨(cut_state _).1.trans h.1, (cut_state _).2.trans h.2⟩
    next =>
      rw [State.channel_haltChannel, if_pos rfl]
      exact .inr ⟨rfl, rfl⟩

theorem channel_channelTripped_ne (s : State) {c d : ChannelId} (h : d ≠ c) : (s.channelTripped c).channel d = s.channel d := by
  have h1 := State.channel_setChannel s c d { (s.channel c).cut with stopPending := false }
  rw [if_neg h] at h1
  unfold State.channelTripped
  dsimp only
  split
  next => rfl
  next =>
    split
    next => exact h1
    next =>
      rw [State.channel_haltChannel, if_neg h]
      exact h1

theorem channelsTripped : ∀ (l : List ChannelId) (s : State) (d : ChannelId), (d ∈ l ∨ (s.channel d).tripped) →
    ((l.foldl State.channelTripped s).channel d).tripped
  | [], _, _, h => h.resolve_left List.not_mem_nil
  | c :: l, s, d, h => by
    refine channelsTripped l (s.channelTripped c) d ?_
    by_cases hd : d = c
    · exact .inr (hd ▸ channel_channelTripped_self s c)
    · rw [channel_channelTripped_ne s hd]
      exact h.imp_left fun hm => (List.mem_cons.mp hm).resolve_left hd

/-! ### The forced drain -/

theorem State.keepsBut_finishDrain_tripped (s : State) (i : SlotId) (answer : Bool) :
    s.keepsBut (s.finishDrain i .tripped answer) [.arb, .drive, .sense, .door, .pool, .ports] := by
  unfold State.finishDrain
  split
  next => exact s.keepsBut_refl _
  next sl w h =>
    exact (show s.keepsBut ((if OutcomeCode.tripped = .done then _ else s.endLetGo i .tripped (slotWho i sl)).endSlot i .tripped [] answer) _ by
      rw [if_neg (by decide)]
      exact (State.keepsBut_mono (s.keepsBut_endLetGo i _ _) (by decide)).step (State.keepsBut_endSlot _ _ _ _ _) (by decide))

theorem table_finishDrain {s : State} (hl : s.seats.legal) (i : SlotId) (answer : Bool) (r : Resource) :
    ((s.finishDrain i .tripped answer).seats.table r).line ⊆ (s.seats.table r).line ∧
    ((∀ p, (s.seats.table r).holder ≠ some ⟨.port p, some i⟩) →
      ((s.finishDrain i .tripped answer).seats.table r).lease = (s.seats.table r).lease ∧
      ((s.finishDrain i .tripped answer).seats.table r).holder = (s.seats.table r).holder) := by
  unfold State.finishDrain
  split
  next => exact ⟨List.Subset.refl _, fun _ => ⟨rfl, rfl⟩⟩
  next sl w h =>
    have hw : sl.work = .drain w := by
      unfold State.drainAt at h
      split at h
      next sl' hp =>
        split at h
        next w' hw => cases h; exact hw
        next => cases h
      next => cases h
    have hwho : slotWho i sl = ⟨.port sl.port, some i⟩ := by simp [slotWho, hw]
    have heq : ∀ q, (((if OutcomeCode.tripped = .done then (s.endLetGo i .tripped (slotWho i sl)).setTank 0 true else
        s.endLetGo i .tripped (slotWho i sl)).endSlot i .tripped [] answer).seats.table q) = (s.endLetGo i .tripped (slotWho i sl)).seats.table q :=
      fun q => by rw [if_neg (by decide), seats_endSlot]; rfl
    change (Place.line ((((if OutcomeCode.tripped = .done then (s.endLetGo i .tripped (slotWho i sl)).setTank 0 true else
        s.endLetGo i .tripped (slotWho i sl)).endSlot i .tripped [] answer).seats.table r)) ⊆ _) ∧ (_ →
      Place.lease ((((if OutcomeCode.tripped = .done then (s.endLetGo i .tripped (slotWho i sl)).setTank 0 true else
        s.endLetGo i .tripped (slotWho i sl)).endSlot i .tripped [] answer).seats.table r)) = _ ∧
      Place.holder ((((if OutcomeCode.tripped = .done then (s.endLetGo i .tripped (slotWho i sl)).setTank 0 true else
        s.endLetGo i .tripped (slotWho i sl)).endSlot i .tripped [] answer).seats.table r)) = _)
    rw [heq]
    refine ⟨line_endLetGo hl i _ _ r, fun hno => ?_⟩
    have := (endLetGo_lets hl i .tripped (slotWho i sl)).only r
    rw [table_fixOutcome] at this
    exact this.resolve_left (hwho ▸ hno sl.port)

theorem line_seizeDrain (s : State) (r : Resource) : (s.seizeDrain.seats.table r).line = (s.seats.table r).line := by
  unfold State.seizeDrain
  rw [seats_editEntry]
  by_cases h : r = .drain
  · rw [h, Seats.put_self]
    rfl
  · rw [Seats.put_ne _ h]

/-- DRAIN taken by the force from FREE or from a DRAIN. -/
theorem forceDrain_takes {s : State} (ht : s.tableSafe) (hi : s.hasHolder .inlet = false)
    (hd : ∀ h, (s.entry .drain).holder = some h → h.ident ≠ .protect) : (s.forceDrain.entry .drain).lease = .held ∧
    (s.forceDrain.entry .drain).holder = some ⟨.protect, none⟩ ∧ (∀ r, (s.forceDrain.seats.table r).line ⊆ (s.seats.table r).line) ∧
    s.keepsBut s.forceDrain [.arb, .drive, .sense, .door, .pool, .ports] := by
  obtain ⟨hl, hh⟩ := s.entry_seizeDrain
  have hk : s.keepsBut s.seizeDrain [.arb, .drive, .sense, .door, .pool, .ports] :=
    State.keepsBut_mono (s.keepsBut_editEntry .drain _) (by decide)
  have hline : ∀ r, (s.seizeDrain.seats.table r).line ⊆ (s.seats.table r).line := fun r => by
    rw [line_seizeDrain]
    exact List.Subset.refl _
  rw [State.forceDrain_eq]
  split
  next h e => exact absurd rfl (hd _ e)
  next x i _ e =>
    have hf := fun r => table_finishDrain (seizeDrain_tables ht hi).seatsLegal i true r
    have hsame := (hf .drain).2 fun p c => by
      have c : (s.seizeDrain.entry .drain).holder = some ⟨.port p, some i⟩ := c
      rw [hh] at c
      cases c
    exact ⟨hsame.1.trans hl, hsame.2.trans hh, fun r => List.Subset.trans (hf r).1 (hline r),
      hk.step (State.keepsBut_finishDrain_tripped _ _ _) (by decide)⟩
  next => exact ⟨hl, hh, hline, hk⟩

end Sys2Proof.Machine

/-! A cause handed in latches the trip (R172): O54. -/

namespace Sys2Proof.Machine

theorem State.hasCause_congr {s t : State} (h : t.fixed = s.fixed) (c : TripCause) : t.hasCause c = s.hasCause c := by
  have h1 := congrArg Fixed.flood h
  have h2 := congrArg Fixed.overfill h
  have h3 := congrArg Fixed.overtemp h
  cases c
  · exact h1
  · exact h2
  · exact h3

theorem State.hasCause_addCause (s : State) (c : TripCause) : (s.addCause c).hasCause c = true := by
  cases c <;> rfl

theorem State.prot_addCause_force (s : State) (c : TripCause) : (s.addCause c).prot.force = s.prot.force := by
  cases c <;> rfl

theorem State.prot_fault_force (s : State) (k : FaultKind) (x d : Nat) : (s.fault k x d).prot.force = s.prot.force := by
  unfold State.fault
  split
  · dsimp only
    split <;> rfl
  · rfl

theorem State.keepsBut_tripFault (s : State) (c : TripCause) (point : Nat) : s.keepsBut (s.tripFault c point) [.ports, .prot] := by
  unfold State.tripFault
  split <;> exact s.keepsBut_fault _ _ _

theorem State.prot_tripFault_force (s : State) (c : TripCause) (point : Nat) : (s.tripFault c point).prot.force = s.prot.force := by
  unfold State.tripFault
  split <;> exact s.prot_fault_force _ _ _

/-- What the latching leaves. -/
structure Latches (s t : State) (c : TripCause) : Prop where
  cause : t.hasCause c = true
  latched : t.latched = true
  tables : t.tableSafe
  line : ∀ r, r.inTripSet = true → (t.seats.table r).line = []
  channels : ∀ k, (t.channel k).tripped

theorem Latches.of_frame {s t u : State} {c : TripCause} (h : Latches s t c) (hf : u.fixed = t.fixed) (hu : u.tableSafe) (hd : u.dose = t.dose)
    (hl : ∀ r, (u.seats.table r).line ⊆ (t.seats.table r).line) : Latches s u c :=
  ⟨(State.hasCause_congr hf c).trans h.cause, (State.latched_congr hf).trans h.latched, hu, fun r hr => List.eq_nil_iff_forall_not_mem.mpr fun x hx => (by
    have := hl r hx
    rw [h.line r hr] at this
    cases this), fun k => (by unfold State.channel; rw [hd]; exact h.channels k)⟩

section HandIn

variable {s : State} (ht : s.tableSafe) (c : TripCause)
include ht

theorem tripWork_latches : Latches s (s.addCause c).tripWork c := by
  have hf := (tripWork_effect (.refl (s.addCause c))).fixed
  have hch : ∀ k, ((s.addCause c).tripWork.channel k).tripped := fun k => by
    unfold State.tripWork
    exact channelsTripped allChannels _ k (.inl (mem_allChannels k))
  refine ⟨(State.hasCause_congr hf c).trans (s.hasCause_addCause c), (State.latched_congr hf).trans (s.latched_addCause c),
    (latch_works s c).works.tables ht, fun r hr => ?_, hch⟩
  have hd := tripDone_endRegen ht c
  unfold State.tripWork
  dsimp only
  generalize (allSlots.foldl State.tripSlot (tripResources.foldl State.revoke (s.addCause c))).endRegen .tripped true = w at hd ⊢
  have k : w.keepsBut (allChannels.foldl State.channelTripped w) [.dose, .ports] :=
    .foldl _ (fun t c => t.keepsBut_channelTripped c) _ (w.keepsBut_refl _)
  exact (congrArg Place.line (table_of_entry (k.entry r))).trans (hd.line r hr)

theorem drain_tripWork (hd : ∀ h, (s.entry .drain).holder = some h → h.ident ≠ .protect) :
    ∀ h, ((s.addCause c).tripWork.entry .drain).holder = some h → h.ident ≠ .protect := fun h hh => by
  have he : ((s.addCause c).entry .drain) = s.entry .drain := by cases c <;> rfl
  refine hd h ?_
  have hs := ((tripWork_effect (.refl (s.addCause c))).table .drain).same fun hl => by
    rw [(((latch_works s c).works.tables ht).legal .drain).1.mp hl] at hh
    cases hh
  rw [he] at hs
  exact hs.symm.trans hh

end HandIn

/-- The force begins. -/
theorem takeForce_latches {s u : State} {c : TripCause} (h : Latches s u c) (hc : c ≠ .overtemp) (hf : u.prot.force = .off)
    (hd : ∀ x, (u.entry .drain).holder = some x → x.ident ≠ .protect) : Latches s (u.takeForce c) c ∧ (u.takeForce c).prot.force = .forcing ∧
    ((u.takeForce c).entry .drain).lease = .held ∧ ((u.takeForce c).entry .drain).holder = some ⟨.protect, none⟩ := by
  have hi := h.tables.inlet_free h.latched
  have hw := takeForce_works c fun _ => hi
  obtain ⟨p, hp, hpf, hsame⟩ : ∃ p : Protection, u.takeForce c = ({ u with prot := p } : State).forceDrain ∧ p.force = .forcing ∧
      ({ u with prot := p } : State).latched = u.latched := by
    unfold State.takeForce
    simp only [hf]
    cases c
    · exact ⟨{ u.prot with forceFlood := true, force := .forcing }, rfl, rfl, rfl⟩
    · exact ⟨{ u.prot with forceOverfill := true, force := .forcing }, rfl, rfl, rfl⟩
    · exact absurd rfl hc
  have htab : ({ u with prot := p } : State).tableSafe := h.tables.congr rfl rfl hsame
  obtain ⟨h1, h2, h3, h4⟩ := forceDrain_takes htab (by exact hi) hd
  refine ⟨h.of_frame hw.fixed (hw.works.tables h.tables) ?_ ?_, ?_, ?_, ?_⟩
  · rw [hp, h4.dose]
  · rw [hp]; exact h3
  · rw [hp, h4.prot]; exact hpf
  · rw [hp]; exact h1
  · rw [hp]; exact h2

/-- Settles O54: the pool is taken slot by slot, a FILL that a judgement lets ask for INLET anew being ended later in it. -/
theorem tripLatchRevokes : Obligations.TripLatchRevokes := by
  unfold Obligations.TripLatchRevokes
  intro s t c point hlatch ht hforce hdrain heq
  have hno : s.hasCause c = false := by
    by_contra h
    rw [State.latched_of_cause (by simpa using h)] at hlatch
    cases hlatch
  have hwork := handIn_works s c point
  rw [← heq] at hwork
  obtain ⟨u, hu⟩ : ∃ u, u = if c = .overtemp then (s.addCause c).tripWork else (s.addCause c).tripWork.takeForce c := ⟨_, rfl⟩
  have hfin : t = (u.tripFault c point).post .trip (causeCode c) u.causeSet := by
    rw [heq, hu]
    unfold State.handIn
    simp only [hno, hlatch, Bool.false_eq_true, if_false]
  have hl := tripWork_latches ht c
  have hu' : Latches s u c ∧ (c ≠ .overtemp → u.prot.force = .forcing ∧ (u.entry .drain).lease = .held ∧
      (u.entry .drain).holder = some ⟨.protect, none⟩) := by
    rw [hu]
    split
    next hc => exact ⟨hl, fun k => absurd hc k⟩
    next hc =>
      obtain ⟨h1, h2⟩ := takeForce_latches hl hc
        ((congrArg Protection.force (s.addCause c).prot_tripWork).trans ((s.prot_addCause_force c).trans hforce)) (drain_tripWork ht c hdrain)
      exact ⟨h1, fun _ => h2⟩
  have hk : u.keepsBut t [.ports, .prot] := hfin ▸ (u.keepsBut_tripFault c point).step (State.keepsBut_post _ _ _ _) (by decide)
  have hfx : t.fixed = u.fixed := hfin ▸ (post_effect (tripFault_effect (.refl u) c point) _ _ _).fixed
  have hd := hu'.1.of_frame hfx (hwork.works.tables ht) hk.dose fun r => by
    rw [table_of_entry (hk.entry r)]
    exact List.Subset.refl _
  refine ⟨hd.latched, hd.cause, hd.tables, fun r hr => ?_, hd.channels, fun hc => ?_, congrArg Fixed.cfg hwork.fixed,
    congrArg Fixed.mode hwork.fixed, congrArg Fixed.points hwork.fixed⟩
  · have hfree := (State.hasHolder_false t r).mp (hd.tables.withdrawn hd.latched r hr)
    exact ⟨hfree, (hd.tables.legal r).1.mp hfree, List.map_eq_nil_iff.mp (hd.line r hr)⟩
  · obtain ⟨h1, h2, h3⟩ := hu'.2 hc
    rw [hk.entry .drain]
    refine ⟨?_, h2, h3⟩
    rw [hfin]
    exact (State.prot_tripFault_force u c point).trans h1

end Sys2Proof.Machine

/-! What no owner's work changes, beside the fixed part: the scanner's groups but for the marks of a disturbance, the post-run in
force, the second that is due and the protection's record (R128, R142). -/

namespace Sys2Proof.Machine

/-! ### The standing part -/

/-- What stands under the work of the owners; of a group everything but whether its measurement has been disturbed. -/
structure Standing where
  groups : Vector Group 4
  postrun : Nat
  secondDue : Bool
  prot : Protection

def State.standing (s : State) : Standing := ⟨updAll Group.disturb s.sense.groups, s.drive.postrun, s.drive.secondDue, s.prot⟩

/-- The standing part but for the protection's record, in which a fault shows. -/
def State.scanning (s : State) : Standing := { s.standing with prot := Protection.reset }

theorem scanning_of_standing {s t : State} (h : t.standing = s.standing) : t.scanning = s.scanning := by
  unfold State.scanning
  rw [h]

theorem standing_of_prot {s t : State} (h : t.scanning = s.scanning) (hp : t.prot = s.prot) : t.standing = s.standing := by
  have h1 := congrArg Standing.groups h
  have h2 := congrArg Standing.postrun h
  have h3 := congrArg Standing.secondDue h
  exact Standing.mk.injEq .. ▸ ⟨h1, h2, h3, hp⟩

theorem disturb_disturb (g : Group) : g.disturb.disturb = g.disturb := by
  unfold Group.disturb
  cases g.measuring <;> rfl

/-- The group of a state with the same standing part: the same but for the mark. -/
theorem disturb_group {s t : State} (h : t.scanning = s.scanning) (g : GroupId) : (t.group g).disturb = (s.group g).disturb := by
  have h1 := congrArg (fun x : Standing => x.groups[g]) h
  have hu : ∀ u : State, (updAll Group.disturb u.sense.groups)[g] = (u.group g).disturb := fun u => updAll_get _ _ _
  exact (hu t).symm.trans (h1.trans (hu s))

/-- A fold of work that leaves the standing part. -/
theorem standing_foldl {α : Type} {f : State → α → State} (hf : ∀ s x, (f s x).standing = s.standing) :
    ∀ (l : List α) (s : State), (l.foldl f s).standing = s.standing
  | [], _ => rfl
  | x :: l, s => (standing_foldl hf l (f s x)).trans (hf s x)

theorem scanning_foldl {α : Type} {f : State → α → State} (hf : ∀ s x, (f s x).scanning = s.scanning) :
    ∀ (l : List α) (s : State), (l.foldl f s).scanning = s.scanning
  | [], _ => rfl
  | x :: l, s => (scanning_foldl hf l (f s x)).trans (hf s x)

@[simp] theorem standing_ite (p : Prop) [Decidable p] (s t : State) : (if p then s else t).standing = if p then s.standing else t.standing :=
  apply_ite State.standing p s t

@[simp] theorem scanning_ite (p : Prop) [Decidable p] (s t : State) : (if p then s else t).scanning = if p then s.scanning else t.scanning :=
  apply_ite State.scanning p s t

theorem standing_congr {s t : State} (hs : t.sense = s.sense) (hd : t.drive.postrun = s.drive.postrun) (h2 : t.drive.secondDue = s.drive.secondDue)
    (hp : t.prot = s.prot) : t.standing = s.standing := by
  unfold State.standing
  rw [hs, hd, h2, hp]

theorem State.keepsBut.standing {s t : State} {l : List Block} (h : s.keepsBut t l)
    (hl : ∀ b ∈ [Block.sense, .drive, .prot], b ∉ l := by decide) : t.standing = s.standing :=
  standing_congr (h.sense (hl _ (by decide))) (by rw [h.drive (hl _ (by decide))]) (by rw [h.drive (hl _ (by decide))]) (h.prot (hl _ (by decide)))

theorem State.keepsBut.scanning {s t : State} {l : List Block} (h : s.keepsBut t l)
    (hl : ∀ b ∈ [Block.sense, .drive], b ∉ l := by decide) : t.scanning = s.scanning := by
  unfold State.scanning State.standing
  rw [h.sense (hl _ (by decide)), h.drive (hl _ (by decide))]

/-! ### The operations -/

@[simp] theorem standing_post (s : State) (e : Event) (x v : Nat) : (s.post e x v).standing = s.standing := (s.keepsBut_post e x v).standing (by decide)
@[simp] theorem standing_send (s : State) (p : Port) (r : Response) : (s.send p r).standing = s.standing := (s.keepsBut_send p r).standing (by decide)
@[simp] theorem standing_setWork (s : State) (i : SlotId) (w : Work) : (s.setWork i w).standing = s.standing := (s.keepsBut_setWork i w).standing (by decide)
@[simp] theorem standing_endSlot (s : State) (i : SlotId) (o : OutcomeCode) (fields : List Byte) (answer : Bool) :
    (s.endSlot i o fields answer).standing = s.standing := (s.keepsBut_endSlot i o fields answer).standing (by decide)
@[simp] theorem standing_fixOutcome (s : State) (i : SlotId) (o : OutcomeCode) : (s.fixOutcome i o).standing = s.standing :=
  (s.keepsBut_fixOutcome i o).standing (by decide)
@[simp] theorem standing_putEntry (s : State) (r : Resource) (e : Entry) : (s.putEntry r e).standing = s.standing := (s.keepsBut_putEntry r e).standing (by decide)
@[simp] theorem standing_setQueue (s : State) (q : List QueueEntry) : (s.setQueue q).standing = s.standing := (s.keepsBut_setQueue q).standing (by decide)
@[simp] theorem standing_setRegen (s : State) (g : Option Regen) : (s.setRegen g).standing = s.standing := (s.keepsBut_setRegen g).standing (by decide)
@[simp] theorem standing_setColumn (s : State) (c : Column) (r : ColumnRec) : (s.setColumn c r).standing = s.standing := (s.keepsBut_setColumn c r).standing (by decide)
@[simp] theorem standing_setChannel (s : State) (c : ChannelId) (ch : Channel) : (s.setChannel c ch).standing = s.standing :=
  (s.keepsBut_setChannel c ch).standing (by decide)
@[simp] theorem standing_setReservoir (s : State) (n : ReservoirId) (a : Reservoir) : (s.setReservoir n a).standing = s.standing :=
  (s.keepsBut_setReservoir n a).standing (by decide)
@[simp] theorem standing_appendDraw (s : State) (p : Purpose) (x y z h : Nat) (o : OutcomeCode) : (s.appendDraw p x y z h o).standing = s.standing :=
  (s.keepsBut_appendDraw p x y z h o).standing (by decide)
@[simp] theorem standing_setTank (s : State) (n : Nat) (known : Bool) : (s.setTank n known).standing = s.standing := (s.keepsBut_setTank n known).standing (by decide)
@[simp] theorem standing_setRod (s : State) (r : Rod) : (s.setRod r).standing = s.standing := (s.keepsBut_setRod r).standing (by decide)

@[simp] theorem standing_disturb (s : State) : s.disturb.standing = s.standing := by
  unfold State.standing State.disturb
  congr 1
  refine Vector.ext fun k hk => ?_
  have hu : ∀ (f : Group → Group) (v : Vector Group 4) (g : Fin 4), (updAll f v)[g] = f v[g] := fun f v g => updAll_get f v g
  have := (hu Group.disturb (updAll Group.disturb s.sense.groups) ⟨k, hk⟩).trans
    ((congrArg Group.disturb (hu Group.disturb s.sense.groups ⟨k, hk⟩)).trans ((disturb_disturb _).trans (hu Group.disturb s.sense.groups ⟨k, hk⟩).symm))
  exact this

@[simp] theorem standing_reportSwitching (s t : State) : (reportSwitching s t).standing = t.standing := by simp [reportSwitching]

@[simp] theorem standing_editEntry (s : State) (r : Resource) (f : Entry → Entry) : (s.editEntry r f).standing = s.standing := by simp [State.editEntry]

@[simp] theorem standing_ask (s : State) (r : Resource) (who : Holder) (serial : Nat) (want : Option Column) :
    (s.ask r who serial want).standing = s.standing := by simp [State.ask]

@[simp] theorem standing_withdraw (s : State) (who : Holder) : (s.withdraw who).standing = s.standing :=
  standing_foldl (fun s r => by simp [State.withdrawFrom]) _ s

@[simp] theorem standing_dropDrive (s : State) (r : Resource) : (s.dropDrive r).standing = s.standing := by cases r <;> rfl

@[simp] theorem standing_stopDrive (s : State) (r : Resource) : (s.stopDrive r).standing = s.standing := by cases r <;> rfl

@[simp] theorem standing_freeLease (s : State) (r : Resource) : (s.freeLease r).standing = s.standing := by simp [State.freeLease]

@[simp] theorem standing_writeRelease (s : State) (r : Resource) : (s.writeRelease r).standing = s.standing := by simp [State.writeRelease]

@[simp] theorem standing_startRetract (s : State) : s.startRetract.standing = s.standing := rfl

/-- Changes of the table's own fields and of the drive's generators. -/
theorem standing_withArb (s : State) (x : Arbiter) : ({ s with arb := x } : State).standing = s.standing := rfl

theorem standing_withDrive (s : State) {x : Drive} (hp : x.postrun = s.drive.postrun) (hs : x.secondDue = s.drive.secondDue) :
    ({ s with drive := x } : State).standing = s.standing := standing_congr rfl hp hs rfl

@[simp] theorem standing_letGo (s : State) (r : Resource) : (s.letGo r).standing = s.standing := by
  unfold State.letGo
  split
  next => rfl
  next => rfl
  next => simp
  next => exact (standing_withArb _ _).trans (by simp)
  next =>
    cases r with
    | circ =>
      dsimp only
      split
      · simp
      · exact (standing_editEntry _ _ _).trans ((standing_withDrive _ rfl rfl).trans (standing_writeRelease s _))
    | _ => simp

@[simp] theorem standing_release (s : State) (r : Resource) : (s.release r).standing = s.standing := by simp [State.release]

@[simp] theorem standing_releaseIf (s : State) (who : Holder) (r : Resource) : (s.releaseIf who r).standing = s.standing := by simp [State.releaseIf]

@[simp] theorem standing_releaseAll (s : State) (who : Holder) : (s.releaseAll who).standing = s.standing := standing_foldl (fun s r => by simp) _ s

@[simp] theorem standing_suspend (s : State) (r : Resource) : (s.suspend r).standing = s.standing := by simp [State.suspend]

@[simp] theorem standing_restore (s : State) (r : Resource) : (s.restore r).standing = s.standing := by simp [State.restore]

@[simp] theorem standing_revoke (s : State) (r : Resource) : (s.revoke r).standing = s.standing := by simp [State.revoke]

@[simp] theorem standing_startTravel (s : State) (c : Column) : (s.startTravel c).standing = s.standing := rfl

@[simp] theorem standing_changePosition (s : State) (c : Column) : (s.changePosition c).standing = s.standing := by
  simp [State.changePosition, standing_withArb]

@[simp] theorem standing_grantLease (s : State) (r : Resource) (w : Waiter) : (s.grantLease r w).standing = s.standing := by
  cases r <;> simp [State.grantLease, standing_withArb]

@[simp] theorem scanning_fault (s : State) (k : FaultKind) (x d : Nat) : (s.fault k x d).scanning = s.scanning := (s.keepsBut_fault k x d).scanning (by decide)

end Sys2Proof.Machine

/-! The standing part under the Dose Engine, the Softener Unit and the washing operations. -/

namespace Sys2Proof.Machine

/-! ### The accounts and the Dose Engine -/

@[simp] theorem standing_takeStroke {s t : State} {n : ReservoirId} (h : s.takeStroke n = some t) : t.standing = s.standing := by
  unfold State.takeStroke at h
  dsimp only at h
  split at h
  next => cases h
  next =>
    split at h
    · cases h; simp
    · cases h; rfl

@[simp] theorem standing_saltReported (s : State) : s.saltReported.standing = s.standing := (s.keepsBut_saltReported).standing

@[simp] theorem standing_deductSalt (s : State) (grams : Nat) : (s.deductSalt grams).standing = s.standing := (s.keepsBut_deductSalt grams).standing

@[simp] theorem standing_setSalt (s : State) (a : Salt) : (s.setSalt a).standing = s.standing := rfl

@[simp] theorem standing_appendRegenDraw (s : State) (p : Purpose) (c : Column) (v h : Nat) (o : OutcomeCode) :
    (s.appendRegenDraw p c v h o).standing = s.standing := (s.keepsBut_appendRegenDraw p c v h o).standing

@[simp] theorem standing_armedAct (s : State) (c : ChannelId) : (s.armedAct c).standing = s.standing := by simp [State.armedAct]

@[simp] theorem standing_loadDesc (s : State) (c : ChannelId) (n : DescId) : (s.loadDesc c n).standing = s.standing := by simp [State.loadDesc]

@[simp] theorem standing_triggerChannel (s : State) (c : ChannelId) : (s.triggerChannel c).standing = s.standing := by simp [State.triggerChannel]

@[simp] theorem standing_offerTrigger (s : State) (src : TriggerSource) : (s.offerTrigger src).standing = s.standing :=
  standing_foldl (fun s c => by simp) _ s

@[simp] theorem standing_haltChannel (s : State) (c : ChannelId) (cause : HaltCause) : (s.haltChannel c cause).standing = s.standing := by
  simp [State.haltChannel]

@[simp] theorem standing_haltEmpty (s : State) (c : ChannelId) : (s.haltEmpty c).standing = s.standing := by simp [State.haltEmpty]

@[simp] theorem standing_channelDoorOpened (s : State) (c : ChannelId) : (s.channelDoorOpened c).standing = s.standing := by
  simp [State.channelDoorOpened]

@[simp] theorem standing_channelTripped (s : State) (c : ChannelId) : (s.channelTripped c).standing = s.standing := by simp [State.channelTripped]

@[simp] theorem standing_strokeCut (s : State) (c : ChannelId) : (s.strokeCut c).standing = s.standing := by simp [State.strokeCut]

@[simp] theorem standing_strokeStage3 (s : State) (c : ChannelId) : (s.strokeStage3 c).standing = s.standing := by
  unfold State.strokeStage3
  dsimp only
  split
  next => simp
  next t h =>
    have ht := standing_takeStroke h
    split
    · exact (standing_withDrive _ rfl rfl).trans (by simp [ht])
    · simp [ht]

@[simp] theorem standing_strokeStart (s : State) (c : ChannelId) : (s.strokeStart c).standing = s.standing := by simp [State.strokeStart]

@[simp] theorem standing_channelGranted (s : State) (c : ChannelId) : (s.channelGranted c).standing = s.standing := by simp [State.channelGranted]

@[simp] theorem standing_returnChannel (s : State) (c : ChannelId) : (s.returnChannel c).standing = s.standing := by simp [State.returnChannel]

@[simp] theorem standing_refillChannels (s : State) (n : ReservoirId) : (s.refillChannels n).standing = s.standing :=
  standing_foldl (fun s c => by simp) _ s

@[simp] theorem standing_waterChannels (s : State) : s.waterChannels.standing = s.standing := by
  unfold State.waterChannels
  rw [standing_ite, standing_foldl (fun s c => by simp) allChannels s, ite_self]

@[simp] theorem standing_yieldChannel (s : State) (c : ChannelId) : (s.yieldChannel c).standing = s.standing := by simp [State.yieldChannel]

/-! ### The Softener Unit -/

@[simp] theorem standing_joinTail (s : State) (c : Column) : (s.joinTail c).standing = s.standing := by simp [State.joinTail]

@[simp] theorem standing_joinHead (s : State) (c : Column) : (s.joinHead c).standing = s.standing := by simp [State.joinHead]

@[simp] theorem standing_rewriteWant (s : State) (who : Holder) (c : Column) : (s.rewriteWant who c).standing = s.standing := by
  simp [State.rewriteWant]

@[simp] theorem standing_enterWaitSoft (s : State) (i : SlotId) : (s.enterWaitSoft i).standing = s.standing := by
  unfold State.enterWaitSoft
  split <;> simp

@[simp] theorem standing_fillAsks (s : State) (i : SlotId) : (s.fillAsks i).standing = s.standing := by
  unfold State.fillAsks
  split
  · dsimp only
    split <;> simp
  · rfl

@[simp] theorem standing_toInlet (s : State) (who : Holder) (serial : Nat) (c : Column) : (s.toInlet who serial c).standing = s.standing := by
  simp [State.toInlet]

@[simp] theorem standing_judgeFill (s : State) (i : SlotId) : (s.judgeFill i).standing = s.standing := by
  unfold State.judgeFill
  split
  · rfl
  · dsimp only
    split
    · simp
    · split
      · split <;> simp
      · split
        · split <;> simp
        · rfl

@[simp] theorem standing_judgeFills (s : State) (but : Option SlotId) : (s.judgeFills but).standing = s.standing :=
  standing_foldl (fun s i => by simp) _ s

@[simp] theorem standing_fillSelectorHeld (s : State) (i : SlotId) : (s.fillSelectorHeld i).standing = s.standing := by
  unfold State.fillSelectorHeld
  split
  · rfl
  · dsimp only
    split <;> simp

@[simp] theorem standing_takeHead (s : State) : s.takeHead.standing = s.standing := (s.keepsBut_takeHead).standing

@[simp] theorem standing_standbyIn (s : State) (c : Column) : (s.standbyIn c).1.standing = s.standing := (s.keepsBut_standbyIn c).standing

@[simp] theorem standing_postInService (s : State) (c : Column) (came : Bool) : (s.postInService c came).standing = s.standing :=
  (s.keepsBut_postInService c came).standing

@[simp] theorem standing_exhaustColumn (s : State) (c : Column) (value : Nat) (but : Option SlotId) :
    (s.exhaustColumn c value but).standing = s.standing := by
  rw [exhaustColumn_eq, standing_takeHead, standing_judgeFills, (s.keepsBut_columnOut c value).standing]

@[simp] theorem standing_takeBreakthrough (s : State) (i : SlotId) : (s.takeBreakthrough i).standing = s.standing := by
  simp [State.takeBreakthrough]

@[simp] theorem standing_markBreakthrough (s : State) : s.markBreakthrough.standing = s.standing := by
  unfold State.markBreakthrough
  split <;> simp

/-! ### The washing operations -/

@[simp] theorem standing_finishFill (s : State) (i : SlotId) (o : OutcomeCode) (answer : Bool) : (s.finishFill i o answer).standing = s.standing := by
  unfold State.finishFill
  split <;> simp

@[simp] theorem standing_fillInletGranted (s : State) (i : SlotId) : (s.fillInletGranted i).standing = s.standing := by
  unfold State.fillInletGranted
  split <;> simp

@[simp] theorem standing_finishCirc (s : State) (i : SlotId) (o : OutcomeCode) (answer : Bool) : (s.finishCirc i o answer).standing = s.standing := by
  unfold State.finishCirc
  split <;> simp

@[simp] theorem standing_circGranted (s : State) (i : SlotId) : (s.circGranted i).standing = s.standing := by
  unfold State.circGranted
  split
  · rfl
  · exact standing_withDrive s rfl rfl

@[simp] theorem standing_yieldCirc (s : State) (i : SlotId) : (s.yieldCirc i).standing = s.standing := by
  unfold State.yieldCirc
  split <;> simp

@[simp] theorem standing_finishHeat (s : State) (i : SlotId) (o : OutcomeCode) (answer : Bool) : (s.finishHeat i o answer).standing = s.standing := by
  unfold State.finishHeat
  split <;> simp

@[simp] theorem standing_heatGranted (s : State) (i : SlotId) : (s.heatGranted i).standing = s.standing := by
  unfold State.heatGranted
  split <;> simp

@[simp] theorem standing_yieldHeat (s : State) (i : SlotId) : (s.yieldHeat i).standing = s.standing := by
  unfold State.yieldHeat
  split <;> simp

@[simp] theorem standing_heatsReading (s : State) : s.heatsReading.standing = s.standing :=
  standing_foldl (fun s i => by split <;> simp) _ s

@[simp] theorem standing_heatsProbeFault (s : State) : s.heatsProbeFault.standing = s.standing := standing_foldl (fun s i => by simp) _ s

@[simp] theorem standing_finishDrain (s : State) (i : SlotId) (o : OutcomeCode) (answer : Bool) : (s.finishDrain i o answer).standing = s.standing := by
  unfold State.finishDrain
  split <;> simp

theorem scanning_drainTimeout (s : State) (i : SlotId) : (s.drainTimeout i).scanning = s.scanning := by
  unfold State.drainTimeout
  split
  · rw [scanning_fault]
    exact scanning_of_standing (standing_finishDrain s i _ _)
  · rfl

theorem scanning_judgeDrain (s : State) (i : SlotId) : (s.judgeDrain i).scanning = s.scanning := by
  unfold State.judgeDrain
  split
  · rfl
  · split
    · split
      · split
        · exact scanning_of_standing (standing_finishDrain s i _ _)
        · exact scanning_of_standing (standing_setWork s i _)
      · split
        · exact scanning_drainTimeout s i
        · exact scanning_of_standing (standing_setWork s i _)
      · rfl
      · rfl
    · rfl

theorem scanning_judgeDrains (s : State) : s.judgeDrains.scanning = s.scanning := scanning_foldl scanning_judgeDrain _ s

/-- At a grant the limit of a DRAIN has not passed. -/
@[simp] theorem standing_drainGranted (s : State) (i : SlotId) : (s.drainGranted i).standing = s.standing := by
  unfold State.drainGranted State.judgeDrain
  split
  · simp
  next sl w h =>
    have hw : w = ⟨Timer.zero, none⟩ := by
      unfold State.drainAt at h
      cases hp : s.pool[i] with
      | none =>
        unfold State.setWork at h
        simp only [hp] at h
        cases h
      | some x =>
        rw [State.setWork_held hp] at h
        simp only [State.pool_setSlot_self] at h
        cases h
        rfl
    subst hw
    split
    · split
      · simp
      next e => cases e
      · simp
      · simp
    · simp

end Sys2Proof.Machine

/-! The standing part under the regeneration, the grants and yields of `settle`, and the latching of a trip. -/

namespace Sys2Proof.Machine

/-! ### The regeneration -/

@[simp] theorem standing_startRegen (s : State) (g : Regen) : (s.startRegen g).standing = s.standing := by
  unfold State.startRegen
  dsimp only
  split <;> simp

@[simp] theorem standing_regenSelectorGranted (s : State) : s.regenSelectorGranted.standing = s.standing := by
  unfold State.regenSelectorGranted
  split <;> simp

@[simp] theorem standing_regenSelectorHeld (s : State) : s.regenSelectorHeld.standing = s.standing := by
  unfold State.regenSelectorHeld
  split
  · rfl
  · split <;> simp

@[simp] theorem standing_regenBrineGranted (s : State) : s.regenBrineGranted.standing = s.standing := by
  unfold State.regenBrineGranted
  split <;> simp

@[simp] theorem standing_regenInletGranted (s : State) : s.regenInletGranted.standing = s.standing := by
  unfold State.regenInletGranted
  split
  · rfl
  · split <;> simp

@[simp] theorem standing_endRegen (s : State) (o : OutcomeCode) (answer : Bool) : (s.endRegen o answer).standing = s.standing := by
  have ha : ∀ (t : State) (g : Regen) fields, (t.answerRegen g o fields answer).standing = t.standing := fun t g fields =>
    (t.keepsBut_answerRegen g o fields answer).standing
  have hr : ∀ (t : State) (g : Regen) b, (t.recordAborted g o b).standing = t.standing := fun t g b => (t.keepsBut_recordAborted g o b).standing
  unfold State.endRegen
  split
  · rfl
  · split
    · simp [State.endInStarting, ha]
    · simp [State.abortRegen, ha, hr]

@[simp] theorem standing_brineReading (s : State) : s.brineReading.standing = s.standing := by
  unfold State.brineReading
  split <;> simp

@[simp] theorem standing_endQueued (s : State) (p : Port) (i : SlotId) (o : OutcomeCode) (answer : Bool) :
    (s.endQueued p i o answer).standing = s.standing := by simp [State.endQueued, State.unqueue]

/-! ### The grants and the yields -/

@[simp] theorem standing_doorGranted (s : State) (i : SlotId) : (s.doorGranted i).standing = s.standing := by
  unfold State.doorGranted
  split
  · rfl
  · exact (standing_setRod _ _).trans ((standing_withDrive _ rfl rfl).trans (standing_setWork s _ _))

@[simp] theorem standing_selectorHeld (s : State) (h : Holder) : (s.selectorHeld h).standing = s.standing := by
  unfold State.selectorHeld
  split
  · simp
  · split <;> simp

@[simp] theorem standing_selectorGranted (s : State) (h : Holder) : (s.selectorGranted h).standing = s.standing := by
  simp [State.selectorGranted]

theorem standing_slotGranted (s : State) (h : Holder) {f : State → SlotId → State} (hf : ∀ s i, (f s i).standing = s.standing) :
    (s.slotGranted h f).standing = s.standing := by
  unfold State.slotGranted
  split
  · exact hf s _
  · rfl

@[simp] theorem standing_ownerGranted (s : State) (r : Resource) (h : Holder) : (s.ownerGranted r h).standing = s.standing := by
  cases r with
  | dose n =>
    unfold State.ownerGranted
    dsimp only
    split <;> simp
  | _ => simp [State.ownerGranted, standing_slotGranted]

@[simp] theorem standing_grant (s : State) (r : Resource) : (s.grant r).standing = s.standing := by
  unfold State.grant
  split <;> simp

theorem standing_withWater (s : State) (x : Water) : ({ s with water := x } : State).standing = s.standing := rfl

@[simp] theorem standing_judge (s : State) : s.judge.standing = s.standing := by
  have hm : ∀ t : State, t.markBarred.standing = t.standing := fun t => by simp [State.markBarred]
  unfold State.judge
  rw [hm]
  simp [State.settleInterlock, standing_withWater]

theorem standing_yieldNext {s t : State} (h : s.yieldNext = some t) : t.standing = s.standing := by
  unfold State.yieldNext at h
  split at h
  · cases h
    simp
  · obtain ⟨c, -, rfl⟩ := Option.map_eq_some_iff.mp h
    simp

theorem standing_grantNext {s t : State} (h : s.grantNext = some t) : t.standing = s.standing := by
  have hc : s.choose.2.standing = s.standing := rfl
  unfold State.grantNext at h
  split at h
  · cases h
  · split at h <;> cases h
    · simp [hc]
    · simp

theorem standing_settleFor : ∀ (n : Nat) (s : State), (s.settleFor n).standing = s.standing
  | 0, s => standing_judge s
  | n + 1, s => by
    unfold State.settleFor
    dsimp only
    split
    next t h => exact (standing_settleFor n t).trans ((standing_yieldNext h).trans (standing_judge s))
    next =>
      split
      next t h => exact (standing_settleFor n t).trans ((standing_grantNext h).trans (standing_judge s))
      next => exact standing_judge s

@[simp] theorem standing_settle (s : State) : s.settle.standing = s.standing := standing_settleFor 128 s

@[simp] theorem scanning_settle (s : State) : s.settle.scanning = s.scanning := scanning_of_standing (standing_settle s)

theorem prot_settle (s : State) : s.settle.prot = s.prot := congrArg Standing.prot (standing_settle s)

/-! ### The protection -/

@[simp] theorem standing_tripSlot (s : State) (i : SlotId) : (s.tripSlot i).standing = s.standing := by
  unfold State.tripSlot
  split
  · rfl
  · split
    · simp
    · split <;> simp
    · simp
    · simp
    · rfl
    · rfl
    · rfl

@[simp] theorem standing_tripWork (s : State) : s.tripWork.standing = s.standing := by
  unfold State.tripWork
  dsimp only
  rw [standing_foldl standing_channelTripped, standing_endRegen, standing_foldl standing_tripSlot, standing_foldl standing_revoke]

theorem scanning_withProt (s : State) (x : Protection) : ({ s with prot := x } : State).scanning = s.scanning := rfl

theorem scanning_forceDrain (s : State) : s.forceDrain.scanning = s.scanning := by
  refine scanning_of_standing ?_
  have h : s.seizeDrain.standing = s.standing := by simp [State.seizeDrain]
  rw [State.forceDrain_eq]
  split <;> simp [h]

theorem scanning_takeForce (s : State) (c : TripCause) : (s.takeForce c).scanning = s.scanning := by
  unfold State.takeForce
  dsimp only
  split
  · exact (scanning_forceDrain _).trans (scanning_withProt s _)
  · exact scanning_withProt s _
  · exact scanning_withProt s _

theorem scanning_judgeForce (s : State) : s.judgeForce.scanning = s.scanning := by
  have he : ∀ t : State, t.endForce.scanning = t.scanning := fun t =>
    (scanning_of_standing (standing_freeLease _ _)).trans (scanning_withProt t _)
  unfold State.judgeForce
  dsimp only
  split
  · split
    · exact (he _).trans (scanning_withProt s _)
    · exact scanning_withProt s _
  · rfl

theorem scanning_handIn (s : State) (c : TripCause) (point : Nat) : (s.handIn c point).scanning = s.scanning := by
  have hf : ∀ t : State, (t.tripFault c point).scanning = t.scanning := fun t => (t.keepsBut_tripFault c point).scanning
  have hp : ∀ (t : State) e x v, (t.post e x v).scanning = t.scanning := fun t e x v => scanning_of_standing (standing_post t e x v)
  have ha : (s.addCause c).scanning = s.scanning := by cases c <;> rfl
  have ht : (s.addCause c).tripWork.scanning = s.scanning := (scanning_of_standing (standing_tripWork _)).trans ha
  unfold State.handIn
  dsimp only
  split
  · split
    · rfl
    · exact scanning_takeForce s c
  · rw [hp, hf]
    simp only [scanning_ite, scanning_takeForce, ha, ht, ite_self]

end Sys2Proof.Machine

/-! SENSE_TABLE_WRITE (R136 to R138): O41. -/

namespace Sys2Proof.Machine

/-! ### Refusals -/

theorem slotValueOf_none {x : Nat} (h : 15 < x) (hx : x ≠ 255) : slotValueOf x = none := by
  unfold slotValueOf
  rw [if_neg hx, finOf_eq_none (by omega)]
  rfl

theorem roleOf_none {x : Nat} (h : 13 < x) : roleOf x = none := by
  unfold roleOf
  split <;> first | omega | rfl

section Write

variable {s : State} {p : Port} {tag : Nat} (h : s.hears p tag)
include h

theorem exec_pointWrite_badParam {point role trim threshold direction debounce hop : Nat}
    (hbad : 15 < point ∨ 13 < role ∨ 1023 < trim ∨ 65535 < threshold ∨ 1 < direction ∨ debounce < 1 ∨ 8 < debounce ∨ 1 < hop) :
    exec (.senseTableWrite p tag (.point point role trim threshold direction debounce hop)) s = .next (s.answered p tag .badParam []) := by
  refine congrArg Host.Outcome.next ((immediate_hears h _).trans ?_)
  dsimp only
  split
  next n r hn hr =>
    refine if_pos ?_
    rcases hbad with hb | hb | hb
    · rw [finOf_eq_none (by omega)] at hn
      cases hn
    · rw [roleOf_none hb] at hr
      cases hr
    · exact hb
  next => rfl

theorem exec_groupWrite_badParam {group a b c d : Nat} (hbad : 3 < group ∨ ∃ x ∈ [a, b, c, d], 15 < x ∧ x ≠ 255) :
    exec (.senseTableWrite p tag (.group group a b c d)) s = .next (s.answered p tag .badParam []) := by
  refine congrArg Host.Outcome.next ((immediate_hears h _).trans ?_)
  dsimp only
  split
  next hg ha hb hc hd =>
    exfalso
    rcases hbad with hn | ⟨x, hx, h1, h2⟩
    · rw [finOf_eq_none (by omega)] at hg
      cases hg
    · have hnone := slotValueOf_none h1 h2
      simp only [List.mem_cons, List.not_mem_nil, or_false] at hx
      rcases hx with rfl | rfl | rfl | rfl
      · rw [hnone] at ha; cases ha
      · rw [hnone] at hb; cases hb
      · rw [hnone] at hc; cases hc
      · rw [hnone] at hd; cases hd
  next => rfl

/-- A write with every field in range. -/
theorem exec_pointWrite {n : PointId} {role trim threshold direction debounce hop : Nat} {r : Role} (hr : roleOf role = some r)
    (ht : trim ≤ 1023) (hth : threshold ≤ 65535) (hd : direction ≤ 1) (hb1 : 1 ≤ debounce) (hb2 : debounce ≤ 8) (hh : hop ≤ 1) :
    exec (.senseTableWrite p tag (.point n.val role trim threshold direction debounce hop)) s =
      .next ((s.setRx p .synced).pointWrite p tag n r trim threshold direction debounce hop) := by
  refine congrArg Host.Outcome.next ((immediate_hears h _).trans ?_)
  dsimp only
  rw [finOf_val, hr]
  exact if_neg (by omega)

theorem exec_groupWrite {g : GroupId} {a b c d : Nat} {a' b' c' d' : Option PointId} (ha : slotValueOf a = some a') (hb : slotValueOf b = some b')
    (hc : slotValueOf c = some c') (hd : slotValueOf d = some d') :
    exec (.senseTableWrite p tag (.group g.val a b c d)) s = .next (if s.mode = .run then s.answered p tag .wrongMode []
      else (s.setGroup g { s.group g with map := #v[a', b', c', d'] }).answered p tag .ok []) := by
  refine congrArg Host.Outcome.next ((immediate_hears h _).trans ?_)
  dsimp only
  rw [finOf_val, ha, hb, hc, hd]
  dsimp only
  rw [State.setRx_mode, State.group_setRx]
  split
  · rfl
  · cases p <;> rfl

end Write

theorem senseWriteOutOfRange : Clauses.SenseWriteOutOfRange := fun _ _ _ h =>
  ⟨fun _ _ _ _ _ _ _ => exec_pointWrite_badParam h, fun _ _ _ _ _ => exec_groupWrite_badParam h⟩

end Sys2Proof.Machine

/-! A point's fields written (R136, R137): O41. -/

namespace Sys2Proof.Machine

/-! ### A change of role, trim or direction -/

/-- A point as a change of role, trim or direction leaves it. -/
def Point.anew (x : Point) (role : Role) (trim threshold : Nat) (above : Bool) (debounce : Nat) (auto : Bool) : Point :=
  { x with role := role, trim := trim, threshold := threshold, above := above, debounce := debounce, auto := auto,
           state := .unseen, candidate := none, run := 0, inFault := false, published := none }

/-- The point written and its measurement voided, before anything is judged. -/
def State.voided (s : State) (n : PointId) (x : Point) : State :=
  (s.setPoint n x).setGroup (groupOf n) (((s.setPoint n x).group (groupOf n)).void n)

theorem State.keepsBut_voided (s : State) (n : PointId) (x : Point) : s.keepsBut (s.voided n x) [.sense] :=
  (s.keepsBut_setPoint n x).step (State.keepsBut_setGroup _ _ _) (by decide)

theorem State.point_voided (s : State) (n : PointId) (x : Point) (m : PointId) :
    (s.voided n x).point m = if m = n then x else s.point m := by
  rw [State.voided, State.point_setGroup, State.point_setPoint]

theorem State.group_voided (s : State) (n : PointId) (x : Point) : (s.voided n x).group (groupOf n) = (s.group (groupOf n)).void n := by
  rw [State.voided, State.group_setGroup, if_pos rfl]
  rfl

/-- What a deep write leaves: the point, and what settles after it. -/
structure DeepWrite (u t : State) : Prop where
  settled : Settled u t
  scanning : t.scanning = u.scanning

theorem DeepWrite.point {u t : State} (h : DeepWrite u t) (m : PointId) : t.point m = u.point m :=
  congrArg (fun x : Vector Point 16 => x[m]) (congrArg Fixed.points h.settled.fixed)

theorem DeepWrite.voids {u t : State} (h : DeepWrite u t) {g : GroupId} {m : Measurement} (hm : (u.group g).measuring = some m) :
    ∃ x, (t.group g).measuring = some x ∧ x.point = m.point ∧ x.voided = m.voided := by
  have hd := congrArg Group.measuring (disturb_group h.scanning g)
  unfold Group.disturb at hd
  rw [hm] at hd
  cases ht : (t.group g).measuring with
  | none => rw [ht] at hd; cases hd
  | some x =>
    rw [ht] at hd
    have hx := Option.some.inj hd
    have hp := congrArg (fun y : Measurement => y.point) hx
    have hv := congrArg (fun y : Measurement => y.voided) hx
    exact ⟨x, rfl, hp, hv⟩

theorem writePoint_deep {s : State} {n : PointId} {role : Role} {trim threshold : Nat} {above : Bool} {debounce : Nat} {auto : Bool}
    (h : ¬((s.point n).role = role ∧ (s.point n).trim = trim ∧ (s.point n).above = above)) :
    DeepWrite (s.voided n ((s.point n).anew role trim threshold above debounce auto))
      (s.writePoint n role trim threshold above debounce auto) := by
  have hd : ((s.point n).role != role || (s.point n).trim != trim || (s.point n).above != above) = true := by
    simp only [Bool.or_eq_true, bne_iff_ne, ne_eq]
    by_contra hc
    simp only [not_or, not_not] at hc
    exact h ⟨hc.1.1, hc.1.2, hc.2⟩
  have key : ∀ (p : Prop) [Decidable p] (u : State), DeepWrite u (if p then u.judgeForce else u).settle := fun p _ u => by
    split
    · exact ⟨settle_settled (judgeForce_effect (.refl u)).settled, (scanning_settle _).trans (scanning_judgeForce u)⟩
    · exact ⟨settle_settled (.refl u), scanning_settle u⟩
  unfold State.writePoint
  dsimp only
  rw [if_pos hd]
  exact key _ _

/-! ### The other writes -/

theorem writePoint_light {s : State} {n : PointId} {role : Role} {trim threshold : Nat} {above : Bool} {debounce : Nat} {auto : Bool}
    (h : (s.point n).role = role ∧ (s.point n).trim = trim ∧ (s.point n).above = above) :
    s.writePoint n role trim threshold above debounce auto = s.setPoint n { s.point n with
      threshold := threshold, debounce := debounce, auto := auto
      candidate := if (s.point n).threshold = threshold ∧ (s.point n).debounce = debounce then (s.point n).candidate else none
      run := if (s.point n).threshold = threshold ∧ (s.point n).debounce = debounce then (s.point n).run else 0 } := by
  obtain ⟨rfl, rfl, rfl⟩ := h
  unfold State.writePoint
  simp only [bne_self_eq_false, Bool.or_false, Bool.false_eq_true, if_false, Bool.or_eq_true, bne_iff_ne, ne_eq]
  by_cases hl : (s.point n).threshold = threshold ∧ (s.point n).debounce = debounce
  · rw [if_neg (by simp [hl.1, hl.2]), if_pos hl, if_pos hl]
  · rw [if_pos (by rw [← not_and_or]; exact hl), if_neg hl, if_neg hl]

theorem senseTableWritten : Clauses.SenseTableWritten := by
  intro s p tag h
  refine ⟨fun n role trim threshold direction debounce hop r same hr ht hth hd hb1 hb2 hh hsame => ?_,
    fun g a b c d a' b' c' d' ha hb hc hd => exec_groupWrite h ha hb hc hd⟩
  have hexec := exec_pointWrite h (n := n) hr ht hth hd hb1 hb2 hh
  have habove : (direction == 1) = decide (direction = 1) := rfl
  have hsame' : same ↔ ((s.setRx p .synced).point n).role = r ∧ ((s.setRx p .synced).point n).trim = trim ∧
      ((s.setRx p .synced).point n).above = (direction == 1) := by
    rw [hsame, State.point_setRx, habove]
  have hno : ¬same → ((s.setRx p .synced).point n).role ≠ r ∨ ((s.setRx p .synced).point n).trim ≠ trim ∨
      ((s.setRx p .synced).point n).above ≠ (direction == 1) := fun k => by
    rw [hsame'] at k
    by_contra hc
    simp only [not_or, not_not] at hc
    exact k hc
  refine ⟨fun hm hns => ?_, fun hm hns => ?_, fun hm hs hround => ?_, fun hround hs => ?_⟩
  · have hset : (s.setRx p .synced).mode ≠ .run := by rw [State.setRx_mode, hm]; decide
    rw [State.pointWrite, if_neg (fun c => hset c.1), if_neg (fun c => hset c.1)] at hexec
    have hw := writePoint_deep (s := s.setRx p .synced) (threshold := threshold) (debounce := debounce) (auto := hop == 1)
      (fun c => hns (hsame'.mpr c))
    generalize (s.setRx p .synced).writePoint n r trim threshold (direction == 1) debounce (hop == 1) = w at hexec hw
    obtain ⟨more, hmore, -⟩ := (hw.settled.ports p).txq
    refine ⟨_, more, hexec, ?_, fun m hmeas hmp => ?_, fun m hm' => ?_, ?_, ?_, ?_⟩
    · rw [State.point_reply, hw.point, State.point_voided, if_pos rfl, State.point_setRx]
      rfl
    · have hvoid : ((s.setRx p .synced).voided n (((s.setRx p .synced).point n).anew r trim threshold (direction == 1) debounce
          (hop == 1))).group (groupOf n) = (s.group (groupOf n)).void n := by
        rw [State.group_voided, State.group_setRx]
      obtain ⟨x, hx, hxp, hxv⟩ := hw.voids (g := groupOf n) (m := { m with voided := true }) (by
        rw [hvoid, Group.void]
        show Option.map _ _ = _
        rw [hmeas]
        simp [hmp])
      exact ⟨x, (by rw [State.group_reply]; exact hx), hxp.trans hmp, hxv⟩
    · rw [State.point_reply, hw.point, State.point_voided, if_neg hm', State.point_setRx]
    · show ((w.reply p tag .ok []).port p).txq = _
      rw [State.reply, State.port_send, if_pos rfl]
      show (w.port p).txq ++ _ = _
      rw [hmore, State.port_congr (State.keepsBut_voided _ n _).ports, State.port_setRx, if_pos rfl, List.append_assoc]
      rfl
    · exact (congrArg Fixed.cfg hw.settled.fixed).trans (State.setRx_cfg s p _) |> (State.keepsBut_reply w p tag .ok []).cfg.trans
    · have := (congrArg Fixed.mode hw.settled.fixed).trans (State.setRx_mode s p .synced)
      exact ((State.keepsBut_reply w p tag .ok []) .mode (by decide)).trans this
  · rw [hexec, State.pointWrite, if_pos ⟨(State.setRx_mode s p _).trans hm, hno hns⟩]
    rfl
  · rw [hexec, State.pointWrite, if_neg, if_pos]
    · rfl
    · rw [State.group_setRx, State.setRx_mode, Option.isSome_iff_ne_none]
      exact ⟨hm, hround⟩
    · rintro ⟨-, c⟩
      obtain ⟨h1, h2, h3⟩ := hsame'.mp hs
      rcases c with c | c | c
      · exact c h1
      · exact c h2
      · exact c h3
  · rw [hexec, State.pointWrite, if_neg, if_neg, writePoint_light (hsame'.mp hs)]
    · rw [State.point_setRx]
      cases p <;> rfl
    · rw [State.group_setRx, State.setRx_mode, Option.isSome_iff_ne_none]
      exact fun c => c.2 (hround c.1)
    · rintro ⟨-, c⟩
      obtain ⟨h1, h2, h3⟩ := hsame'.mp hs
      rcases c with c | c | c
      · exact c h1
      · exact c h2
      · exact c h3

/-- Settles O41. -/
theorem senseTableWrittenAndRead : Obligations.SenseTableWrittenAndRead := ⟨senseWriteOutOfRange, senseTableWritten, senseTableRead⟩

end Sys2Proof.Machine

/-! What a measurement makes of the scanner's records (R121, R130 to R135). -/

namespace Sys2Proof.Machine

/-! ### The points and the groups under work -/

theorem points_of_fixed {s t : State} (h : butCauses t.fixed = butCauses s.fixed) : t.sense.points = s.sense.points := congrArg Fixed.points h

theorem scan_of_fixed {s t : State} (h : butCauses t.fixed = butCauses s.fixed) : t.sense.mode = s.sense.mode := congrArg Fixed.scan h

theorem points_deliver (s : State) (p : PointId) (old : PointState) (side : Side) : (s.deliver p old side).sense.points = s.sense.points :=
  points_of_fixed (deliver_works s p old side).fixed

theorem scanning_deliver (s : State) (p : PointId) (old : PointState) (side : Side) : (s.deliver p old side).scanning = s.scanning := by
  have ht : ∀ c, (s.deliverTrip c p side).scanning = s.scanning := fun c => by
    unfold State.deliverTrip
    rw [scanning_judgeForce, scanning_ite, scanning_handIn, ite_self]
  have hs : ∀ {t : State}, t.standing = s.standing → t.scanning = s.scanning := scanning_of_standing
  unfold State.deliver
  dsimp only
  split
  · rfl
  · split
    · exact ht _
    · exact ht _
    · exact (scanning_of_standing (standing_waterChannels _)).trans (scanning_judgeDrains s)
    · refine hs ?_
      unfold State.deliverLow
      split <;> simp [State.lowUncovered, State.lowCovered]
    · refine hs ?_
      unfold State.deliverEmpty
      split <;> simp [State.emptyUncovered, State.emptyCovered]
    · refine hs ?_
      unfold State.deliverSalt
      split <;> simp [State.saltUncovered, State.saltCovered]
    · exact hs (by simp)
    · rfl
    · rfl
    · rfl

theorem scanning_post (s : State) (e : Event) (x v : Nat) : (s.post e x v).scanning = s.scanning := scanning_of_standing (standing_post s e x v)

theorem scanning_setPoint (s : State) (p : PointId) (x : Point) : (s.setPoint p x).scanning = s.scanning := rfl

/-- The run of a count on a side (R131). -/
def Point.nextRun (x : Point) (side : Side) : Nat := if x.candidate = some side then x.run + 1 else 1

theorem compare_valid (s : State) (p : PointId) (count : Nat) : s.compare p count .valid =
    if (compareCount (s.point p) count).state = (s.point p).state then s.setPoint p { s.point p with candidate := none, run := 0 }
    else if (s.point p).debounce ≤ (s.point p).nextRun (compareCount (s.point p) count) then s.confirm p (compareCount (s.point p) count)
    else s.setPoint p
      { s.point p with candidate := some (compareCount (s.point p) count), run := (s.point p).nextRun (compareCount (s.point p) count) } := rfl

theorem scanning_confirm (s : State) (p : PointId) (side : Side) : (s.confirm p side).scanning = s.scanning := by
  unfold State.confirm
  dsimp only
  exact (scanning_post _ _ _ _).trans ((scanning_deliver _ _ _ _).trans (scanning_setPoint s _ _))

theorem scanning_compare (s : State) (p : PointId) (count : Nat) (q : Quality) : (s.compare p count q).scanning = s.scanning := by
  cases q with
  | disturbed => rfl
  | fault => exact scanning_setPoint s _ _
  | valid =>
    rw [compare_valid]
    split
    · exact scanning_setPoint s _ _
    · split
      · exact scanning_confirm s _ _
      · exact scanning_setPoint s _ _

theorem scanning_noteQuality (s : State) (p : PointId) (count : Nat) (q : Quality) : (s.noteQuality p count q).scanning = s.scanning := by
  unfold State.noteQuality
  dsimp only
  split
  · rw [scanning_fault]
    exact scanning_setPoint s _ _
  · exact scanning_setPoint s _ _

/-! ### The record of a measured point -/

/-- A point whose result has been compared: as the debounce takes it (R131). -/
def Point.compared (x : Point) (count : Nat) (q : Quality) : Point :=
  match q with
  | .disturbed => x
  | .fault => { x with candidate := none, run := 0 }
  | .valid =>
    if (compareCount x count).state = x.state then { x with candidate := none, run := 0 }
    else if x.debounce ≤ x.nextRun (compareCount x count) then { x with state := (compareCount x count).state, candidate := none, run := 0 }
    else { x with candidate := some (compareCount x count), run := x.nextRun (compareCount x count) }

theorem points_confirm (s : State) (p : PointId) (side : Side) : (s.confirm p side).sense.points =
    (s.setPoint p { s.point p with state := side.state, candidate := none, run := 0 }).sense.points := by
  unfold State.confirm
  dsimp only
  exact (congrArg Sense.points (State.keepsBut_post _ _ _ _).sense).trans (points_deliver _ _ _ _)

theorem State.point_of_points {s t : State} (h : t.sense.points = s.sense.points) (n : PointId) : t.point n = s.point n :=
  congrArg (fun v : Vector Point 16 => v[n]) h

theorem point_compare (s : State) (p : PointId) (count : Nat) (q : Quality) (n : PointId) :
    (s.compare p count q).point n = if n = p then (s.point p).compared count q else s.point n := by
  cases q with
  | disturbed =>
    refine Eq.trans (b := s.point n) rfl ?_
    split
    next h => rw [h]; rfl
    next => rfl
  | fault => exact s.point_setPoint p n _
  | valid =>
    rw [compare_valid]
    unfold Point.compared
    dsimp only
    split
    · exact s.point_setPoint p n _
    · split
      · exact (State.point_of_points (points_confirm s p _) n).trans (s.point_setPoint p n _)
      · exact s.point_setPoint p n _

theorem point_noteQuality (s : State) (p : PointId) (count : Nat) (q : Quality) (n : PointId) :
    (s.noteQuality p count q).point n = if n = p then { s.point p with inFault := q == .fault } else s.point n := by
  unfold State.noteQuality
  dsimp only
  split
  · exact (State.point_congr ((State.keepsBut_fault _ _ _ _).sense) n).trans (s.point_setPoint p n _)
  · exact s.point_setPoint p n _

/-! ### Publication -/

/-- The records as a publication leaves them, before the owners take the result (R130, R135). -/
def State.shown (s : State) (p : PointId) (count : Nat) (q : Quality) : State :=
  (s.setPoint p { s.point p with published := some ⟨count, q, 0, 0⟩, refresh := false }).setGroup (groupOf p)
    { s.group (groupOf p) with refresh := (s.group (groupOf p)).refresh.filter fun x => x != p }

theorem publish_eq (s : State) (p : PointId) (count : Nat) (q : Quality) : s.publish p count q = s.shown p count q ∨
    s.publish p count q = (s.shown p count q).hardnessReading count q ∨ s.publish p count q = (s.shown p count q).brineReading := by
  unfold State.publish State.shown
  dsimp only
  split
  · exact .inr (.inl rfl)
  · split
    · exact .inr (.inr rfl)
    · exact .inl rfl
  · exact .inl rfl

theorem State.keepsBut_hardnessReading (s : State) (count : Nat) (q : Quality) : s.keepsBut (s.hardnessReading count q) [.acct, .ports] := by
  unfold State.hardnessReading State.setHardness
  dsimp only
  have h := State.keepsBut_mono (s.keepsBut_withAcct { s.acct with hardness := bandLookup count s.cfg.hardnessTable, sensed := true })
    (by decide : _ ⊆ [Block.acct, .ports])
  exact .ite _ (.ite _ (h.step (State.keepsBut_post _ _ _ _) (by decide)) h) (s.keepsBut_refl _)

theorem State.keepsBut_brineReading (s : State) : s.keepsBut s.brineReading [.soft] := by
  unfold State.brineReading
  split
  · exact .ite _ (s.keepsBut_setRegen _) (s.keepsBut_refl _)
  · exact s.keepsBut_refl _

theorem sense_publish (s : State) (p : PointId) (count : Nat) (q : Quality) : (s.publish p count q).sense = (s.shown p count q).sense := by
  rcases publish_eq s p count q with h | h | h <;> rw [h]
  · exact (State.keepsBut_hardnessReading _ _ _).sense
  · exact (State.keepsBut_brineReading _).sense

theorem point_publish (s : State) (p : PointId) (count : Nat) (q : Quality) (n : PointId) : (s.publish p count q).point n =
    if n = p then { s.point p with published := some ⟨count, q, 0, 0⟩, refresh := false } else s.point n := by
  rw [State.point_congr (sense_publish s p count q), State.shown, State.point_setGroup, State.point_setPoint]

theorem group_publish (s : State) (p : PointId) (count : Nat) (q : Quality) (g : GroupId) : (s.publish p count q).group g =
    if g = groupOf p then { s.group (groupOf p) with refresh := (s.group (groupOf p)).refresh.filter fun x => x != p } else s.group g := by
  rw [State.group_congr (sense_publish s p count q), State.shown, State.group_setGroup]
  rfl

/-! ### A measurement as a whole -/

/-- The record of the measured point when the measurement has ended. -/
def Point.measured (x : Point) (m : Measurement) (r : Round) (count : Nat) : Point :=
  let q := quality m count
  let x := { x with inFault := q == .fault }
  let x := if r.mode.compared then x.compared count q else x
  if m.slot.isSome ∧ r.mode = .periodic then x else { x with published := some ⟨count, q, 0, 0⟩, refresh := false }

theorem point_resultTaken (s : State) (g : GroupId) (m : Measurement) (r : Round) (count : Nat) (n : PointId) :
    (s.resultTaken g m r count).point n = if n = m.point then (s.point m.point).measured m r count else s.point n := by
  obtain ⟨q, hq⟩ : ∃ q, q = quality m count := ⟨_, rfl⟩
  obtain ⟨u, hu⟩ : ∃ u, u = (s.unmeasured g).noteQuality m.point count q := ⟨_, rfl⟩
  have h1 : ∀ n, u.point n = if n = m.point then { s.point m.point with inFault := q == .fault } else s.point n := fun n => by
    rw [hu, point_noteQuality]
    rfl
  obtain ⟨v, hv⟩ : ∃ v, v = if r.mode.compared then u.compare m.point count q else u := ⟨_, rfl⟩
  have h2 : ∀ n, v.point n = if n = m.point then (if r.mode.compared then
      ({ s.point m.point with inFault := q == .fault } : Point).compared count q else { s.point m.point with inFault := q == .fault })
      else s.point n := fun n => by
    rw [hv]
    split
    · rw [point_compare, h1, h1, if_pos rfl]
      split <;> rfl
    · exact h1 n
  unfold State.resultTaken Point.measured
  dsimp only
  rw [← hq, ← hu, ← hv]
  split
  · exact h2 n
  · rw [point_publish, h2, h2, if_pos rfl]
    split <;> rfl

end Sys2Proof.Machine

/-! The scan modes: what SENSE_MODE makes of the groups (R124, R126). -/

namespace Sys2Proof.Machine

/-! ### Every group written by itself -/

theorem group_foldl_setGroup (f : GroupId → Group → Group) (h : GroupId) : ∀ (l : List GroupId) (s : State), l.Nodup →
    (l.foldl (fun s g => s.setGroup g (f g (s.group g))) s).group h = if h ∈ l then f h (s.group h) else s.group h
  | [], _, _ => rfl
  | g :: l, s, hl => by
    obtain ⟨hg, hl⟩ := List.nodup_cons.mp hl
    rw [List.foldl_cons, group_foldl_setGroup f h l _ hl, State.group_setGroup]
    by_cases e : h = g
    · rw [if_neg (e ▸ hg), if_pos e, if_pos (e ▸ List.mem_cons_self), e]
    · simp only [List.mem_cons, e, false_or, if_false]

theorem mem_allGroups : ∀ g : GroupId, g ∈ allGroups := by decide

theorem group_allGroups (f : GroupId → Group → Group) (s : State) (h : GroupId) :
    (allGroups.foldl (fun s g => s.setGroup g (f g (s.group g))) s).group h = f h (s.group h) := by
  rw [group_foldl_setGroup f h _ s (by decide), if_pos (mem_allGroups h)]

/-- A fold that writes groups leaves the points, the scan mode and every other block. -/
theorem foldl_setGroup_eq (f : GroupId → Group → Group) : ∀ (l : List GroupId) (s : State), ∃ x : Vector Group 4,
    l.foldl (fun s g => s.setGroup g (f g (s.group g))) s = { s with sense := { s.sense with groups := x } }
  | [], s => ⟨s.sense.groups, rfl⟩
  | g :: l, s => by
    obtain ⟨x, hx⟩ := foldl_setGroup_eq f l (s.setGroup g (f g (s.group g)))
    exact ⟨x, hx⟩

/-! ### The end of a SINGLE scan -/

theorem sense_endSingleScan (s : State) : s.endSingleScan.sense.points = s.sense.points ∧ s.endSingleScan.sense.groups = s.sense.groups := by
  unfold State.endSingleScan
  split <;> exact ⟨rfl, rfl⟩

theorem group_endSingleScan (s : State) (g : GroupId) : s.endSingleScan.group g = s.group g :=
  congrArg (fun v : Vector Group 4 => v[g]) (sense_endSingleScan s).2

theorem owes_none_iff (s : State) : (allGroups.any fun g => (s.group g).singleDue) = false ↔ ∀ g, (s.group g).singleDue = false := by
  rw [List.any_eq_false]
  exact ⟨fun h g => Bool.eq_false_iff.mpr (h g (mem_allGroups g)), fun h g _ => Bool.eq_false_iff.mp (h g)⟩

theorem scan_endSingleScan_over {s : State} (hm : s.sense.mode = .single) (h : ∀ g, (s.group g).singleDue = false) :
    s.endSingleScan.sense.mode = .off := by
  unfold State.endSingleScan
  rw [if_pos ⟨hm, (owes_none_iff s).mpr h⟩]

theorem scan_endSingleScan_on {s : State} (h : ¬(s.sense.mode = .single ∧ ∀ g, (s.group g).singleDue = false)) :
    s.endSingleScan.sense.mode = s.sense.mode := by
  unfold State.endSingleScan
  rw [if_neg fun hc => h ⟨hc.1, (owes_none_iff s).mp hc.2⟩]

/-! ### A scan mode taken -/

/-- The groups of a scan mode taken, before a SINGLE scan that nobody owes ends. -/
def State.modeAsked (s : State) (m : ScanMode) : State :=
  allGroups.foldl (fun u g => u.setGroup g ((u.group g).senseMode g s.sense.mode m)) { s with sense := { s.sense with mode := m } }

theorem takeScanMode_eq (s : State) (m : ScanMode) : s.takeScanMode m = (s.modeAsked m).endSingleScan := rfl

theorem group_modeAsked (s : State) (m : ScanMode) (g : GroupId) : (s.modeAsked m).group g = (s.group g).senseMode g s.sense.mode m :=
  group_allGroups (fun g x => x.senseMode g s.sense.mode m) _ g

theorem modeAsked_eq (s : State) (m : ScanMode) : ∃ x : Vector Group 4, s.modeAsked m = { s with sense := { s.sense with groups := x, mode := m } } :=
  foldl_setGroup_eq (fun g x => x.senseMode g s.sense.mode m) _ _

theorem group_takeScanMode (s : State) (m : ScanMode) (g : GroupId) : (s.takeScanMode m).group g = (s.group g).senseMode g s.sense.mode m :=
  (group_endSingleScan _ g).trans (group_modeAsked s m g)

theorem points_takeScanMode (s : State) (m : ScanMode) : (s.takeScanMode m).sense.points = s.sense.points := by
  obtain ⟨x, hx⟩ := modeAsked_eq s m
  have hp : (s.modeAsked m).sense.points = s.sense.points := hx ▸ rfl
  exact (sense_endSingleScan _).1.trans hp

theorem mode_modeAsked (s : State) (m : ScanMode) : (s.modeAsked m).sense.mode = m := by
  obtain ⟨x, hx⟩ := modeAsked_eq s m
  exact congrArg (fun u : State => u.sense.mode) hx

theorem State.keepsBut_takeScanMode (s : State) (m : ScanMode) : s.keepsBut (s.takeScanMode m) [.sense] := by
  obtain ⟨x, hx⟩ := modeAsked_eq s m
  rw [takeScanMode_eq]
  exact (hx ▸ s.keepsBut_withSense _).step (State.keepsBut_endSingleScan _) (by decide)

/-- SENSE_MODE of a mode, in the state it leaves. -/
theorem exec_senseMode {s : State} {p : Port} {tag mode : Nat} {m : ScanMode} (h : s.hears p tag) (hm : scanModeOf mode = some m) :
    ∃ v t, v.sense = s.sense ∧ exec (.senseMode p tag mode) s = .next t ∧ t.sense = (State.takeScanMode v m).sense ∧
      t.ports = (s.answered p tag .ok []).ports ∧ s.keepsBut t [.sense, .ports] := by
  have hk := (s.setRx p .synced).keepsBut_takeScanMode m
  refine ⟨s.setRx p .synced, ((s.setRx p .synced).takeScanMode m).reply p tag .ok [], (s.keepsBut_setRx p _).sense, ?_,
    State.sense_reply _ _ _ _ _, State.ports_replied (hk .ports (by decide)) _ _ _, State.keepsBut_replied hk _ _ _⟩
  refine congrArg Host.Outcome.next ((immediate_hears h _).trans ?_)
  rw [hm]

/-- A mode taken by a group that is not MEASURING. -/
theorem senseMode_idle {g : GroupId} {was m : ScanMode} {x : Group} (hm : ¬(m = was ∧ m ≠ .single)) (hr : x.round = none) :
    x.senseMode g was m = { x with singleDue := m == ScanMode.single && !(ownSlots g x).isEmpty }.takeMode
      (if m = ScanMode.single ∧ (!(ownSlots g x).isEmpty) = false then .off else m) := by
  unfold Group.senseMode
  dsimp only
  rw [if_neg hm, if_neg (by simp [hr])]

/-- A mode that waits for the end of the group's round. -/
theorem senseMode_measuring {g : GroupId} {was m : ScanMode} {x : Group} (hm : ¬(m = was ∧ m ≠ .single)) (hr : x.round ≠ none) :
    x.senseMode g was m = { x with
      singleDue := m == ScanMode.single && !(ownSlots g x).isEmpty
      next := some (if m = ScanMode.single ∧ (!(ownSlots g x).isEmpty) = false then .off else m) } := by
  unfold Group.senseMode
  dsimp only
  rw [if_neg hm, if_pos (Option.isSome_iff_ne_none.mpr hr)]

theorem senseMode_inForce {g : GroupId} {m : ScanMode} {x : Group} (hm : m ≠ .single) : x.senseMode g m m = x := if_pos ⟨rfl, hm⟩

theorem singleDue_senseMode {g : GroupId} {was m : ScanMode} {x : Group} (hm : ¬(m = was ∧ m ≠ .single)) :
    (x.senseMode g was m).singleDue = (m == ScanMode.single && !(ownSlots g x).isEmpty) := by
  by_cases hr : x.round = none
  · rw [senseMode_idle hm hr]
    rfl
  · rw [senseMode_measuring hm hr]

theorem senseModeTaken : Clauses.SenseModeTaken := by
  intro s p tag mode hears
  refine ⟨fun hbad => ?_, fun m hm hs => ?_⟩
  · refine congrArg Host.Outcome.next ((immediate_hears hears _).trans ?_)
    rw [show scanModeOf mode = none by match mode, hbad with | n + 5, _ => rfl]
    rfl
  · obtain ⟨v, t, hv, ht, hsense, hports, hkeep⟩ := exec_senseMode hears hm
    have hg : ∀ g, t.group g = (s.group g).senseMode g s.sense.mode m := fun g => by
      rw [State.group_congr hsense, group_takeScanMode, State.group_congr hv, hv]
    have hsense' : t.sense.mode = m ∧ t.sense.points = s.sense.points := by
      rw [hsense, points_takeScanMode, hv, takeScanMode_eq, scan_endSingleScan_on, mode_modeAsked]
      · exact ⟨rfl, rfl⟩
      · rw [mode_modeAsked]
        exact fun h => hs h.1
    refine ⟨t, ht, hsense'.1, hsense'.2, fun g => ⟨fun e => ?_, fun hne => ?_, fun hne hr => ?_, fun hne hr => ?_⟩, hports, hkeep⟩
    · rw [hg, e]
      exact senseMode_inForce hs
    · rw [hg, singleDue_senseMode fun c => hne c.1.symm, beq_eq_false_iff_ne.mpr hs, Bool.false_and]
    · rw [hg, senseMode_idle (fun c => hne c.1.symm) hr, if_neg fun c => hs c.1]
      exact ⟨rfl, rfl, rfl, fun e => if_pos e⟩
    · rw [hg, senseMode_measuring (fun c => hne c.1.symm) hr, if_neg fun c => hs c.1]
      exact ⟨rfl, rfl, rfl, rfl⟩

theorem mem_ownSlots {g : GroupId} {x : Group} {k : Fin 4} {n : PointId} :
    (k, n) ∈ ownSlots g x ↔ x.map[k] = some n ∧ groupOf n = g := by
  unfold ownSlots
  rw [List.mem_filterMap]
  constructor
  · rintro ⟨j, -, hj⟩
    split at hj
    next q hq =>
      split at hj
      next e =>
        cases hj
        exact ⟨hq, e⟩
      next => cases hj
    next => cases hj
  · rintro ⟨hk, hg⟩
    refine ⟨k, (by decide : ∀ j : Fin 4, j ∈ ([0, 1, 2, 3] : List (Fin 4))) k, ?_⟩
    rw [hk]
    exact if_pos hg

theorem senseSingleTaken : Clauses.SenseSingleTaken := by
  intro s p tag own hears hown
  obtain ⟨v, t, hv, ht, hsense, hports, hkeep⟩ := exec_senseMode (mode := 1) hears rfl
  have hnot : ¬(ScanMode.single = s.sense.mode ∧ ScanMode.single ≠ .single) := fun c => c.2 rfl
  have hg : ∀ g, t.group g = (s.group g).senseMode g s.sense.mode .single := fun g => by
    rw [State.group_congr hsense, group_takeScanMode, State.group_congr hv, hv]
  have hown' : ∀ g, own g ↔ (!(ownSlots g (s.group g)).isEmpty) = true := fun g => by
    rw [hown g, Bool.not_eq_true', List.isEmpty_eq_false_iff_exists_mem]
    exact ⟨fun ⟨k, n, h⟩ => ⟨(k, n), mem_ownSlots.mpr h⟩, fun ⟨⟨k, n⟩, h⟩ => ⟨k, n, mem_ownSlots.mp h⟩⟩
  have hdue : ∀ g, (t.group g).singleDue = true ↔ own g := fun g => by
    rw [hg, singleDue_senseMode hnot, hown' g]
    rfl
  have hpoints : t.sense.points = s.sense.points := by rw [hsense, points_takeScanMode, hv]
  have htarget : ∀ g (m : ScanMode), (own g ∧ m = .single) ∨ (¬own g ∧ m = .off) →
      (if ScanMode.single = ScanMode.single ∧ (!(ownSlots g (s.group g)).isEmpty) = false then ScanMode.off else .single) = m := by
    rintro g m (⟨h, rfl⟩ | ⟨h, rfl⟩)
    · exact if_neg fun c => by simp [(hown' g).mp h] at c
    · exact if_pos ⟨rfl, Bool.eq_false_iff.mpr fun c => h ((hown' g).mpr c)⟩
  have hdue' : ∀ g, ((State.modeAsked v .single).group g).singleDue = (t.group g).singleDue := fun g => by
    rw [State.group_congr hsense, takeScanMode_eq, group_endSingleScan]
  have hscan : t.sense.mode = ((State.modeAsked v .single).endSingleScan).sense.mode := congrArg Sense.mode hsense
  refine ⟨t, ht, hpoints, fun g => ⟨hdue g, fun m hm => ⟨fun hr => ?_, fun hr => ?_⟩⟩, fun ⟨g, hgo⟩ => ?_, fun hnone => ?_, hports, hkeep⟩
  · rw [hg, senseMode_idle hnot hr, htarget g m hm]
    exact ⟨rfl, rfl, rfl⟩
  · rw [hg, senseMode_measuring hnot hr, htarget g m hm]
    exact ⟨rfl, rfl, rfl, rfl⟩
  · rw [hscan, scan_endSingleScan_on, mode_modeAsked]
    intro c
    have := c.2 g
    rw [hdue', (hdue g).mpr hgo] at this
    cases this
  · rw [hscan, scan_endSingleScan_over (mode_modeAsked _ _)]
    intro g
    rw [hdue']
    exact Bool.eq_false_iff.mpr fun c => hnone g ((hdue g).mp c)

end Sys2Proof.Machine

/-! The rounds that begin (R125 to R127, R129, R135). -/

namespace Sys2Proof.Machine

/-! ### The measurements of a round -/

/-- The alternate frequency a measurement of a point runs at: the hop step for an AUTO point while CIRC_P or DRAIN_P is on (R129). -/
def State.alternate (s : State) (n : PointId) (hop : Nat) : Option Nat :=
  if (s.point n).auto = true ∧ (0 < s.circLevel ∨ s.outputOn .drain = true) then some hop else none

theorem setGroup_setGroup (s : State) (g : GroupId) (x y : Group) : (s.setGroup g x).setGroup g y = s.setGroup g y := by
  simp only [State.setGroup, upd_upd]

theorem group_setGroup_self (s : State) (g : GroupId) (x : Group) : (s.setGroup g x).group g = x := (s.group_setGroup g g x).trans (if_pos rfl)

theorem group_setGroup_other (s : State) {g h : GroupId} (x : Group) (hne : h ≠ g) : (s.setGroup g x).group h = s.group h :=
  (s.group_setGroup g h x).trans (if_neg hne)

theorem startMeasurement_eq (s : State) (g : GroupId) (n : PointId) (slot : Option (Fin 4)) : s.startMeasurement g n slot =
    s.setGroup g { s.group g with measuring := some ⟨n, slot, false, false, s.alternate n (s.group g).hop⟩ } := by
  have h : (if (s.point n).auto && (decide (0 < s.circLevel) || s.outputOn .drain) then some (s.group g).hop else none) =
      s.alternate n (s.group g).hop := by
    unfold State.alternate
    refine if_congr ?_ rfl rfl
    simp only [Bool.and_eq_true, Bool.or_eq_true, decide_eq_true_eq]
  unfold State.startMeasurement
  dsimp only
  rw [h]

/-- A round with points to refresh measures the oldest, whatever the mode (R135). -/
theorem nextMeasurement_refresh {s : State} {g : GroupId} {r : Round} {n : PointId} {later : List PointId}
    (hr : (s.group g).round = some r) (hf : (s.group g).refresh = n :: later) : s.nextMeasurement g =
    s.setGroup g { s.group g with measuring := some ⟨n, none, false, false, s.alternate n (s.group g).hop⟩ } := by
  have h : s.nextMeasurement g = s.startMeasurement g n none := by
    unfold State.nextMeasurement
    dsimp only
    rw [hr, hf]
  exact h.trans (startMeasurement_eq s g n none)

theorem nextSlot_next {s : State} {g : GroupId} {r : Round} {k : Fin 4} {n : PointId} {rest : List (Fin 4 × PointId)}
    (hr : (s.group g).round = some r) (hrest : r.rest = (k, n) :: rest) : s.nextSlot g = s.setGroup g
      { s.group g with round := some { r with rest := rest }, measuring := some ⟨n, some k, false, false, s.alternate n (s.group g).hop⟩ } := by
  unfold State.nextSlot
  dsimp only
  rw [hr]
  dsimp only
  rw [hrest]
  dsimp only
  rw [startMeasurement_eq, setGroup_setGroup, group_setGroup_self]
  rfl

theorem nextSlot_last {s : State} {g : GroupId} {r : Round} (hr : (s.group g).round = some r) (hrest : r.rest = []) :
    s.nextSlot g = s.endRound g r := by
  unfold State.nextSlot
  dsimp only
  rw [hr]
  dsimp only
  rw [hrest]

theorem nextMeasurement_slot {s : State} {g : GroupId} {r : Round} (hr : (s.group g).round = some r) (hf : (s.group g).refresh = []) :
    s.nextMeasurement g = s.nextSlot g := by
  unfold State.nextMeasurement
  dsimp only
  rw [hr, hf]

/-! ### A round begins -/

/-- A round of the group's own slots that is due (R125 to R127). -/
theorem beginRound_due {s : State} {g : GroupId} (hr : (s.group g).round = none) (hd : (s.group g).roundDue = true)
    (hs : roundSlots g (s.group g) (s.group g).mode ≠ []) : s.beginRound g =
    (s.setGroup g { (s.group g).started (roundSlots g (s.group g) (s.group g).mode) true with sinceStart := 0 }).nextMeasurement g := by
  unfold State.beginRound
  dsimp only
  rw [if_neg (by simp [hr]), if_pos (by simp [hd, hs])]

/-- Priority measurements alone that are due, in OFF with the slots of the map (R135). -/
theorem beginRound_refresh {s : State} {g : GroupId} (hr : (s.group g).round = none)
    (hd : (s.group g).roundDue = false ∨ roundSlots g (s.group g) (s.group g).mode = []) (hf : (s.group g).refreshDue = true)
    (hne : (s.group g).refresh ≠ []) : s.beginRound g =
    (s.setGroup g (if (s.group g).mode = .off then (s.group g).started (roundSlots g (s.group g) (s.group g).mode) true
      else (s.group g).started [] false)).nextMeasurement g := by
  unfold State.beginRound
  dsimp only
  rw [if_neg (by simp [hr]), if_neg (by rcases hd with e | e <;> simp [e]), if_pos (by simp [hf, hne])]

theorem scanRoundStarts : Clauses.ScanRoundStarts := by
  intro s g k n rest hr hd hf hs
  refine ⟨_, rfl, ?_⟩
  rw [beginRound_due hr hd (by simp [hs])]
  obtain ⟨x, hx⟩ : ∃ x, x = { (s.group g).started (roundSlots g (s.group g) (s.group g).mode) true with sinceStart := 0 } := ⟨_, rfl⟩
  have hround : x.round = some { mode := (s.group g).mode, rest := roundSlots g (s.group g) (s.group g).mode, own := true, results := [] } := by
    rw [hx]
    rfl
  have hrefresh : x.refresh = [] := by
    rw [hx]
    exact hf
  rw [← hx, nextMeasurement_slot (r := { mode := (s.group g).mode, rest := roundSlots g (s.group g) (s.group g).mode, own := true, results := [] })
    (by rw [group_setGroup_self, hround]) (by rw [group_setGroup_self, hrefresh]),
    nextSlot_next (r := { mode := (s.group g).mode, rest := roundSlots g (s.group g) (s.group g).mode, own := true, results := [] })
    (by rw [group_setGroup_self, hround]) hs, setGroup_setGroup, group_setGroup_self, group_setGroup_self]
  refine ⟨?_, fun h hne => group_setGroup_other s _ hne, rfl, rfl, s.keepsBut_setGroup g _⟩
  rw [hx]
  rfl

theorem priorityRoundStarts : Clauses.PriorityRoundStarts := by
  rintro s g n later x rfl hr hf own rest hop hcase hhop
  refine ⟨_, rfl, ?_⟩
  have hmeasure : ∀ y : Group, y.round = some { mode := (s.group g).mode, rest := rest, own := own, results := [] } → y.refresh = n :: later →
      (s.setGroup g y).nextMeasurement g = s.setGroup g { y with measuring := some ⟨n, none, false, false, s.alternate n y.hop⟩ } := fun y h1 h2 => by
    rw [nextMeasurement_refresh (r := { mode := (s.group g).mode, rest := rest, own := own, results := [] })
      (by rw [group_setGroup_self, h1]) (by rw [group_setGroup_self, h2]), setGroup_setGroup, group_setGroup_self]
    rfl
  rcases hcase with ⟨hd, hne, rfl, hrest⟩ | ⟨hd, hfd, hcase⟩
  · rw [beginRound_due hr hd (hrest ▸ hne), ← hrest, hmeasure { (s.group g).started rest true with sinceStart := 0 } rfl hf, group_setGroup_self,
      if_pos (c := (s.group g).roundDue = true ∧ rest ≠ []) ⟨hd, hne⟩, hhop]
    exact ⟨rfl, fun h hne => group_setGroup_other s _ hne, rfl, rfl, s.keepsBut_setGroup g _⟩
  · have hnot : ¬((s.group g).roundDue = true ∧ roundSlots g (s.group g) (s.group g).mode ≠ []) := fun c =>
      hd.elim (fun e => by simp [e] at c) c.2
    rw [beginRound_refresh hr hd hfd (by simp [hf]), if_neg hnot, hhop]
    rcases hcase with ⟨hm, rfl, hrest⟩ | ⟨hm, rfl, rfl⟩
    · have hslots : roundSlots g (s.group g) (s.group g).mode = rest := by
        rw [hm, hrest]
        rfl
      rw [if_pos hm, hslots, hmeasure ((s.group g).started rest true) rfl hf, group_setGroup_self]
      exact ⟨rfl, fun h hne => group_setGroup_other s _ hne, rfl, rfl, s.keepsBut_setGroup g _⟩
    · rw [if_neg hm, hmeasure ((s.group g).started [] false) rfl hf, group_setGroup_self]
      exact ⟨rfl, fun h hne => group_setGroup_other s _ hne, rfl, rfl, s.keepsBut_setGroup g _⟩

end Sys2Proof.Machine

/-! The rounds that go on: the group and the points when a measurement has ended (R121, R125, R135). -/

namespace Sys2Proof.Machine

/-! ### The group when its measurement has ended -/

theorem eq_of_disturb {x y : Group} (h : x.disturb = y.disturb) (hm : y.measuring = none) : x = y := by
  cases x
  cases y
  dsimp only at hm
  subst hm
  injection h
  simp_all

/-- A group of which a result has been taken: the result kept for the round's end, or the point off the refresh list (R125, R135). -/
def Group.took (x : Group) (m : Measurement) (r : Round) (count : Nat) (mine : Bool) : Group :=
  if m.slot.isSome = true ∧ r.mode = .periodic then
    { x with measuring := none, round := some { r with results := r.results ++ [(m.point, count, quality m count)] } }
  else { x with measuring := none, refresh := if mine then x.refresh.filter fun n => n != m.point else x.refresh }

theorem disturb_keepResult {u : State} {g : GroupId} {x : Group} (h : (u.group g).disturb = x.disturb) (p : PointId) (count : Nat) (q : Quality) :
    ((u.keepResult g p count q).group g).disturb =
      ({ x with round := x.round.map fun r => { r with results := r.results ++ [(p, count, q)] } } : Group).disturb := by
  unfold State.keepResult
  dsimp only
  rw [group_setGroup_self]
  exact congrArg (fun y : Group => ({ y with round := y.round.map fun r : Round => { r with results := r.results ++ [(p, count, q)] } } : Group)) h

theorem disturb_publish {u : State} {g : GroupId} {x : Group} (h : (u.group g).disturb = x.disturb) (p : PointId) (count : Nat) (q : Quality) :
    ((u.publish p count q).group g).disturb =
      ({ x with refresh := if (g == groupOf p) = true then x.refresh.filter fun n => n != p else x.refresh } : Group).disturb := by
  rw [group_publish]
  by_cases e : g = groupOf p
  · subst e
    rw [if_pos rfl, if_pos (beq_self_eq_true _)]
    exact congrArg (fun y : Group => { y with refresh := y.refresh.filter fun n => n != p }) h
  · rw [if_neg e, if_neg (by simp [e])]
    exact h

theorem scan_compare (s : State) (p : PointId) (count : Nat) (q : Quality) : (s.compare p count q).sense.mode = s.sense.mode := by
  cases q with
  | disturbed => rfl
  | fault => rfl
  | valid =>
    rw [compare_valid]
    split
    · rfl
    · split
      · unfold State.confirm
        dsimp only
        exact ((congrArg Sense.mode (State.keepsBut_post _ _ _ _).sense).trans (scan_of_fixed (deliver_works _ _ _ _).fixed)).trans rfl
      · rfl

theorem scan_noteQuality (s : State) (p : PointId) (count : Nat) (q : Quality) : (s.noteQuality p count q).sense.mode = s.sense.mode := by
  unfold State.noteQuality
  dsimp only
  split
  · exact (congrArg Sense.mode (State.keepsBut_fault _ _ _ _).sense).trans rfl
  · rfl

/-- The part when the result has been judged, before it is kept or published. -/
def State.judged (s : State) (g : GroupId) (m : Measurement) (r : Round) (count : Nat) : State :=
  if r.mode.compared then ((s.unmeasured g).noteQuality m.point count (quality m count)).compare m.point count (quality m count)
  else (s.unmeasured g).noteQuality m.point count (quality m count)

theorem resultTaken_eq (s : State) (g : GroupId) (m : Measurement) (r : Round) (count : Nat) : s.resultTaken g m r count =
    if m.slot.isSome = true ∧ r.mode = .periodic then (s.judged g m r count).keepResult g m.point count (quality m count)
    else (s.judged g m r count).publish m.point count (quality m count) := rfl

theorem scanning_judged (s : State) (g : GroupId) (m : Measurement) (r : Round) (count : Nat) :
    (s.judged g m r count).scanning = (s.unmeasured g).scanning := by
  unfold State.judged
  rw [scanning_ite, scanning_compare, scanning_noteQuality, ite_self]

theorem scan_judged (s : State) (g : GroupId) (m : Measurement) (r : Round) (count : Nat) :
    (s.judged g m r count).sense.mode = s.sense.mode := by
  unfold State.judged
  split
  · exact (scan_compare _ _ _ _).trans (scan_noteQuality _ _ _ _)
  · exact scan_noteQuality _ _ _ _

theorem scan_resultTaken (s : State) (g : GroupId) (m : Measurement) (r : Round) (count : Nat) :
    (s.resultTaken g m r count).sense.mode = s.sense.mode := by
  rw [resultTaken_eq]
  split
  · exact scan_judged s g m r count
  · exact (congrArg Sense.mode (sense_publish _ _ _ _)).trans (scan_judged s g m r count)

section Taken

variable {s : State} {g : GroupId} {m : Measurement} {r : Round} (count : Nat)

theorem disturb_unmeasured : ((s.unmeasured g).group g).disturb = ({ s.group g with measuring := none } : Group).disturb :=
  congrArg Group.disturb (group_setGroup_self s g _)

/-- The part when the result has been taken and the grants have followed, before the next measurement. -/
def State.rested (s : State) (g : GroupId) (m : Measurement) (r : Round) (count : Nat) : State := (s.resultTaken g m r count).settle

theorem group_rested (hr : (s.group g).round = some r) :
    (s.rested g m r count).group g = (s.group g).took m r count (g == groupOf m.point) := by
  have hj : ((s.judged g m r count).group g).disturb = ({ s.group g with measuring := none } : Group).disturb :=
    (disturb_group (scanning_judged s g m r count) g).trans disturb_unmeasured
  refine eq_of_disturb ((disturb_group (scanning_settle _) g).trans ?_) (by unfold Group.took; split <;> rfl)
  rw [resultTaken_eq, Group.took]
  split
  next h =>
    refine (disturb_keepResult hj _ _ _).trans ?_
    rw [hr]
    rfl
  next h => exact disturb_publish hj _ _ _

theorem points_settle (s : State) : s.settle.sense.points = s.sense.points :=
  points_of_fixed (congrArg butCauses (settle_settled (Settled.refl s)).fixed)

theorem scan_settle (s : State) : s.settle.sense.mode = s.sense.mode :=
  scan_of_fixed (congrArg butCauses (settle_settled (Settled.refl s)).fixed)

theorem point_rested (n : PointId) : (s.rested g m r count).point n =
    if n = m.point then (s.point m.point).measured m r count else s.point n :=
  (State.point_of_points (points_settle _) n).trans (point_resultTaken s g m r count n)

theorem scan_rested : (s.rested g m r count).sense.mode = s.sense.mode := (scan_settle _).trans (scan_resultTaken s g m r count)

theorem endMeasurement_eq (hm : (s.group g).measuring = some m) (hr : (s.group g).round = some r) (hv : m.voided = false) :
    s.endMeasurement g count = (s.rested g m r count).nextMeasurement g := by
  injection exec_measurementEnd hm hr hv count

end Taken

/-! ### What the group's record shows then -/

theorem Group.took_plain (x : Group) (m : Measurement) (r : Round) (count : Nat) (mine : Bool) :
    (x.took m r count mine).mode = x.mode ∧ (x.took m r count mine).hop = x.hop ∧
      (x.took m r count mine).roundsToPublish = x.roundsToPublish ∧ (x.took m r count mine).sinceStart = x.sinceStart ∧
      (x.took m r count mine).next = x.next ∧ (x.took m r count mine).singleDue = x.singleDue := by
  unfold Group.took
  split <;> exact ⟨rfl, rfl, rfl, rfl, rfl, rfl⟩

/-- The round of a group after a result. -/
def Round.took (r : Round) (m : Measurement) (count : Nat) : Round :=
  { r with results := if r.mode = .periodic ∧ m.slot ≠ none then r.results ++ [(m.point, count, quality m count)] else r.results }

theorem Group.round_took {x : Group} {r : Round} (hr : x.round = some r) (m : Measurement) (count : Nat) (mine : Bool) :
    (x.took m r count mine).round = some (r.took m count) := by
  unfold Group.took Round.took
  by_cases h : m.slot.isSome = true ∧ r.mode = .periodic
  · rw [if_pos h, if_pos (c := r.mode = .periodic ∧ m.slot ≠ none) ⟨h.2, Option.isSome_iff_ne_none.mp h.1⟩]
  · rw [if_neg h, if_neg (c := r.mode = .periodic ∧ m.slot ≠ none) fun c => h ⟨Option.isSome_iff_ne_none.mpr c.2, c.1⟩]
    exact hr

theorem Group.refresh_took_nil {x : Group} (h : x.refresh = []) (m : Measurement) (r : Round) (count : Nat) (mine : Bool) :
    (x.took m r count mine).refresh = [] := by
  unfold Group.took
  split
  · exact h
  · rw [h]
    cases mine <;> rfl

theorem Group.refresh_took_cons {x : Group} {n : PointId} {later : List PointId} (h : x.refresh = n :: later) {m : Measurement}
    (hne : n ≠ m.point) (r : Round) (count : Nat) (mine : Bool) : ∃ l, (x.took m r count mine).refresh = n :: l := by
  unfold Group.took
  split
  · exact ⟨later, h⟩
  · cases mine
    · exact ⟨later, h⟩
    · exact ⟨_, (congrArg (List.filter _) h).trans (List.filter_cons_of_pos (by simp [hne]))⟩

theorem nextMeasured : Clauses.NextMeasured := by
  intro s g count m r hm hr hv n slot rest hcase
  obtain ⟨u, hu⟩ : ∃ u, u = s.rested g m r count := ⟨_, rfl⟩
  obtain ⟨x, hx⟩ : ∃ x, x = (s.group g).took m r count (g == groupOf m.point) := ⟨_, rfl⟩
  have hgroup : u.group g = x := by rw [hu, hx, group_rested count hr]
  obtain ⟨hmode, hhop, hpub, hsince, -, -⟩ := (s.group g).took_plain m r count (g == groupOf m.point)
  have hround := Group.round_took hr m count (g == groupOf m.point)
  rw [← hx] at hmode hhop hpub hsince hround
  have hend : exec (.measurementEnd g count) s = .next (u.nextMeasurement g) := by rw [hu]; exact exec_measurementEnd hm hr hv count
  refine ⟨_, hend, ?_⟩
  rcases hcase with ⟨hf, k, rfl, hrest⟩ | ⟨rfl, rfl, hne, later, hf⟩
  · have hfx : x.refresh = [] := hx ▸ Group.refresh_took_nil hf m r count _
    rw [nextMeasurement_slot (hgroup ▸ hround) (hgroup ▸ hfx), nextSlot_next (r := r.took m count) (hgroup ▸ hround) hrest, group_setGroup_self,
      hgroup, ← hhop]
    exact ⟨rfl, ⟨_, rfl, rfl, rfl, rfl, rfl⟩, hmode, rfl, hpub, hsince⟩
  · obtain ⟨l, hl⟩ := Group.refresh_took_cons hf hne r count (g == groupOf m.point)
    rw [← hx] at hl
    rw [nextMeasurement_refresh (hgroup ▸ hround) (hgroup ▸ hl), group_setGroup_self, hgroup, ← hhop]
    exact ⟨rfl, ⟨_, hround, rfl, rfl, rfl, rfl⟩, hmode, rfl, hpub, hsince⟩

/-! ### The points when the round goes on -/

theorem points_endRound {s : State} {g : GroupId} {r : Round} (h : ¬(r.own = true ∧ r.mode = .periodic)) :
    (s.endRound g r).sense.points = s.sense.points := by
  unfold State.endRound
  simp only [if_neg h]
  exact (sense_endSingleScan _).1

/-- Only the end of a PERIODIC round of the group's own writes a point. -/
theorem points_nextMeasurement {s : State} {g : GroupId}
    (h : ∀ r, (s.group g).round = some r → ¬(r.own = true ∧ r.mode = .periodic)) : (s.nextMeasurement g).sense.points = s.sense.points := by
  unfold State.nextMeasurement
  dsimp only
  split
  next => rfl
  next => rfl
  next =>
    unfold State.nextSlot
    dsimp only
    split
    next => rfl
    next r hr =>
      split
      · rfl
      · exact points_endRound (h r hr)

theorem measurementOnlyPublished : Clauses.MeasurementOnlyPublished := by
  intro s g count m r q hm hr hv hmode hq
  refine ⟨_, rfl, ?_⟩
  have hperiodic : r.mode ≠ .periodic := by rcases hmode with e | e <;> simp [e]
  have hcompared : r.mode.compared = false := by rcases hmode with e | e <;> rw [e] <;> rfl
  have hpoint : ∀ n, (s.endMeasurement g count).point n = if n = m.point then (s.point m.point).measured m r count else s.point n := fun n => by
    rw [endMeasurement_eq count hm hr hv, ← point_rested count n]
    refine State.point_of_points (points_nextMeasurement fun r' hr' => ?_) n
    rw [group_rested count hr, Group.round_took hr] at hr'
    cases hr'
    exact fun c => hperiodic c.2
  have hfixed := (endMeasurement_alters s g count).fixed
  refine ⟨?_, fun n hn => (hpoint n).trans (if_neg hn), congrArg Fixed.cfg hfixed, congrArg Fixed.mode hfixed, congrArg Fixed.accepted hfixed⟩
  have hquality : quality m count = q := hq.symm
  rw [hpoint, if_pos rfl, Point.measured, hquality, hcompared]
  exact if_neg fun c => hperiodic c.2

end Sys2Proof.Machine

/-! The end of a round: what it publishes, and the mode that waited (R124 to R126). -/

namespace Sys2Proof.Machine

/-! ### What a publication leaves of the groups -/

/-- A group record but for the refresh list and the rounds to publish. -/
def Group.fixed (x : Group) : Group := { x with refresh := [], roundsToPublish := 0 }

theorem fixed_publish (s : State) (p : PointId) (count : Nat) (q : Quality) (g : GroupId) :
    ((s.publish p count q).group g).fixed = (s.group g).fixed := by
  rw [group_publish]
  split
  next h => subst h; rfl
  next => rfl

theorem roundsToPublish_publish (s : State) (p : PointId) (count : Nat) (q : Quality) (g : GroupId) :
    ((s.publish p count q).group g).roundsToPublish = (s.group g).roundsToPublish := by
  rw [group_publish]
  split
  next h => subst h; rfl
  next => rfl

theorem scan_publish (s : State) (p : PointId) (count : Nat) (q : Quality) : (s.publish p count q).sense.mode = s.sense.mode :=
  (congrArg Sense.mode (sense_publish s p count q)).trans rfl

/-- The results of a PERIODIC round published one after the other. -/
def State.publishAll (s : State) (l : List (PointId × Nat × Quality)) : State := l.foldl (fun s x => s.publish x.1 x.2.1 x.2.2) s

theorem publishAll_group (l : List (PointId × Nat × Quality)) (g : GroupId) : ∀ s : State,
    ((s.publishAll l).group g).fixed = (s.group g).fixed ∧ ((s.publishAll l).group g).roundsToPublish = (s.group g).roundsToPublish ∧
      (s.publishAll l).sense.mode = s.sense.mode := by
  induction l with
  | nil => exact fun s => ⟨rfl, rfl, rfl⟩
  | cons x l ih =>
    intro s
    obtain ⟨h1, h2, h3⟩ := ih (s.publish x.1 x.2.1 x.2.2)
    exact ⟨h1.trans (fixed_publish _ _ _ _ _), h2.trans (roundsToPublish_publish _ _ _ _ _), h3.trans (scan_publish _ _ _ _)⟩

/-- The last result of a point stands; a point without one is as it was. -/
theorem point_publishAll (n : PointId) : ∀ (l : List (PointId × Nat × Quality)) (s : State),
    (∀ x, (l.filter fun y => y.1 = n).getLast? = some x → ((s.publishAll l).point n).published = some ⟨x.2.1, x.2.2, 0, 0⟩ ∧
      ((s.publishAll l).point n).refresh = false) ∧
    ((∀ y ∈ l, y.1 ≠ n) → (s.publishAll l).point n = s.point n)
  | [], s => ⟨(fun x hx => by cases hx), fun _ => rfl⟩
  | z :: l, s => by
    obtain ⟨h1, h2⟩ := point_publishAll n l (s.publish z.1 z.2.1 z.2.2)
    refine ⟨fun x hx => ?_, fun h => ?_⟩
    · by_cases hl : ∃ y ∈ l, y.1 = n
      · refine h1 x ?_
        obtain ⟨y, hy, hyn⟩ := hl
        have hne : (l.filter fun y => y.1 = n) ≠ [] := List.ne_nil_of_mem (List.mem_filter.mpr ⟨hy, by simpa using hyn⟩)
        rw [List.filter_cons] at hx
        split at hx
        · rwa [List.getLast?_cons_of_ne_nil hne] at hx
        · exact hx
      · have hnone : ∀ y ∈ l, y.1 ≠ n := fun y hy c => hl ⟨y, hy, c⟩
        have hempty : (l.filter fun y => y.1 = n) = [] := List.filter_eq_nil_iff.mpr fun y hy => by simpa using hnone y hy
        rw [List.filter_cons, hempty] at hx
        split at hx
        next hz =>
          cases hx
          have hn : n = z.1 := by simpa using (of_decide_eq_true hz).symm
          have hp := (h2 hnone).trans ((point_publish s z.1 z.2.1 z.2.2 n).trans (if_pos hn))
          exact hp ▸ ⟨rfl, rfl⟩
        next => cases hx
    · refine (h2 fun y hy => h y (List.mem_cons_of_mem _ hy)).trans ?_
      rw [point_publish, if_neg fun c => h z List.mem_cons_self c.symm]

/-! ### The end of a round -/

/-- The group as it is when its round has ended, before it takes the mode that waited. -/
def State.roundOver (s : State) (g : GroupId) (r : Round) : State :=
  if r.own ∧ r.mode = .periodic then (s.setGroup g { s.group g with round := none, measuring := none }).endPeriodic g r
  else s.setGroup g { s.group g with round := none, measuring := none }

/-- A group's record at the end of its round: a SINGLE round no longer owed, and the mode that waited (R124, R126). -/
def Group.ends (x : Group) (r : Round) : Group :=
  let single := r.own && r.mode == .single
  let x := if single then { x with singleDue := x.next == some .single } else x
  match x.next with
  | some m => x.takeMode m
  | none => if single then x.takeMode .off else x

theorem endRound_eq (s : State) (g : GroupId) (r : Round) :
    s.endRound g r = ((s.roundOver g r).setGroup g (((s.roundOver g r).group g).ends r)).endSingleScan := rfl

theorem endPeriodic_more {s : State} {g : GroupId} (r : Round) (h : 1 < (s.group g).roundsToPublish) :
    s.endPeriodic g r = s.setGroup g { s.group g with roundsToPublish := (s.group g).roundsToPublish - 1 } := if_pos h

theorem endPeriodic_last {s : State} {g : GroupId} (r : Round) (h : (s.group g).roundsToPublish ≤ 1) :
    s.endPeriodic g r = (s.setGroup g { s.group g with roundsToPublish := s.cfg.publishEvery }).publishAll r.results :=
  if_neg (Nat.not_lt.mpr h)

theorem endPeriodic_group (s : State) (g : GroupId) (r : Round) :
    ((s.endPeriodic g r).group g).fixed = (s.group g).fixed ∧ (s.endPeriodic g r).sense.mode = s.sense.mode := by
  by_cases h : 1 < (s.group g).roundsToPublish
  · rw [endPeriodic_more r h, group_setGroup_self]
    exact ⟨rfl, rfl⟩
  · rw [endPeriodic_last r (Nat.not_lt.mp h)]
    obtain ⟨h1, -, h3⟩ := publishAll_group r.results g (s.setGroup g { s.group g with roundsToPublish := s.cfg.publishEvery })
    rw [group_setGroup_self] at h1
    exact ⟨h1, h3⟩

theorem roundOver_group (s : State) (g : GroupId) (r : Round) :
    ((s.roundOver g r).group g).fixed = ({ s.group g with round := none, measuring := none } : Group).fixed ∧
      (s.roundOver g r).sense.mode = s.sense.mode := by
  unfold State.roundOver
  split
  · obtain ⟨h1, h2⟩ := endPeriodic_group (s.setGroup g { s.group g with round := none, measuring := none }) g r
    rw [group_setGroup_self] at h1
    exact ⟨h1, h2⟩
  · rw [group_setGroup_self]
    exact ⟨rfl, rfl⟩

theorem Group.ends_waiting {x : Group} {m : ScanMode} (r : Round) (h : x.next = some m) : x.ends r =
    ({ x with singleDue := if r.own = true ∧ r.mode = .single then decide (m = .single) else x.singleDue } : Group).takeMode m := by
  unfold Group.ends
  dsimp only
  split
  next m' hm' =>
    have e : m' = m := by
      split at hm' <;> exact Option.some.inj (hm'.symm.trans h)
    subst e
    by_cases hs : r.own = true ∧ r.mode = .single
    · rw [if_pos (by simp [hs]), if_pos hs, h]
      congr 1
    · rw [if_neg (by simpa using hs), if_neg hs]
  next hn =>
    split at hn <;> cases hn.symm.trans h

theorem Group.ends_single {x : Group} {r : Round} (h : x.next = none) (hs : r.own = true ∧ r.mode = .single) :
    x.ends r = ({ x with singleDue := false } : Group).takeMode .off := by
  unfold Group.ends
  simp [hs, h]

theorem Group.ends_other {x : Group} {r : Round} (h : x.next = none) (hs : ¬(r.own = true ∧ r.mode = .single)) : x.ends r = x := by
  have hb : (r.own && r.mode == .single) = false := by simpa using hs
  unfold Group.ends
  simp [hb, h]

end Sys2Proof.Machine

/-! The last measurement of a round (R124 to R126, R136). -/

namespace Sys2Proof.Machine

/-! ### The end of a round, field by field -/

theorem Group.ends_kept (y : Group) (r : Round) : (y.ends r).round = y.round ∧ (y.ends r).measuring = y.measuring ∧ (y.ends r).next = none := by
  cases h : y.next with
  | some m => exact y.ends_waiting r h ▸ ⟨rfl, rfl, rfl⟩
  | none =>
    by_cases hs : r.own = true ∧ r.mode = .single
    · exact Group.ends_single h hs ▸ ⟨rfl, rfl, rfl⟩
    · rw [Group.ends_other h hs]
      exact ⟨rfl, rfl, h⟩

theorem Group.singleDue_ends {y : Group} {r : Round} (hs : r.own = true ∧ r.mode = .single) :
    (y.ends r).singleDue = true ↔ y.next = some .single := by
  cases h : y.next with
  | some m =>
    rw [y.ends_waiting r h, if_pos hs]
    exact decide_eq_true_iff.trans ⟨congrArg some, Option.some.inj⟩
  | none => exact Group.ends_single h hs ▸ ⟨nofun, nofun⟩

theorem Group.singleDue_ends_other {y : Group} {r : Round} (hs : ¬(r.own = true ∧ r.mode = .single)) : (y.ends r).singleDue = y.singleDue := by
  cases h : y.next with
  | some m =>
    rw [y.ends_waiting r h, if_neg hs]
    rfl
  | none => rw [Group.ends_other h hs]

/-- The state in which the last measurement leaves a round: what the group's record was before, and the round that ends. -/
structure State.ending (s u : State) (g : GroupId) (r r' : Round) : Prop where
  mode : (u.group g).mode = (s.group g).mode
  sinceStart : (u.group g).sinceStart = (s.group g).sinceStart
  next : (u.group g).next = (s.group g).next
  singleDue : (u.group g).singleDue = (s.group g).singleDue
  scan : u.sense.mode = s.sense.mode
  own : r'.own = r.own
  inMode : r'.mode = r.mode

theorem State.ending.ends {s u : State} {g : GroupId} {r r' : Round} (h : s.ending u g r r') :
    ∃ y : Group, (u.endRound g r').group g = y.ends r' ∧ y.round = none ∧ y.measuring = none ∧ y.mode = (s.group g).mode ∧
      y.sinceStart = (s.group g).sinceStart ∧ y.next = (s.group g).next ∧ y.singleDue = (s.group g).singleDue := by
  obtain ⟨hfixed, -⟩ := roundOver_group u g r'
  obtain ⟨y, hy⟩ : ∃ y, y = (u.roundOver g r').group g := ⟨_, rfl⟩
  rw [← hy] at hfixed
  refine ⟨y, ?_, congrArg Group.round hfixed, congrArg Group.measuring hfixed, (congrArg Group.mode hfixed).trans h.mode,
    (congrArg Group.sinceStart hfixed).trans h.sinceStart, (congrArg Group.next hfixed).trans h.next,
    (congrArg Group.singleDue hfixed).trans h.singleDue⟩
  rw [endRound_eq, group_endSingleScan, group_setGroup_self, hy]

theorem State.ending.scan_endRound {s u : State} {g : GroupId} {r r' : Round} (h : s.ending u g r r') :
    ((s.sense.mode = .single ∧ ∀ k, ((u.endRound g r').group k).singleDue = false) → (u.endRound g r').sense.mode = .off) ∧
      (¬(s.sense.mode = .single ∧ ∀ k, ((u.endRound g r').group k).singleDue = false) → (u.endRound g r').sense.mode = s.sense.mode) := by
  obtain ⟨w, hw⟩ : ∃ w, w = (u.roundOver g r').setGroup g (((u.roundOver g r').group g).ends r') := ⟨_, rfl⟩
  have hscan : w.sense.mode = s.sense.mode := by
    rw [hw]
    exact (roundOver_group u g r').2.trans h.scan
  rw [endRound_eq, ← hw, ← hscan]
  simp only [group_endSingleScan]
  exact ⟨fun c => scan_endSingleScan_over c.1 c.2, scan_endSingleScan_on⟩

/-! ### The last measurement -/

/-- A measurement that a write has voided brings its quality and nothing else (R136). -/
theorem exec_measurementEnd_voided {s : State} {g : GroupId} {m : Measurement} {r : Round} (hm : (s.group g).measuring = some m)
    (hr : (s.group g).round = some r) (hv : m.voided = true) {u : State} {count : Nat}
    (hu : u = ((s.unmeasured g).noteQuality m.point count (quality m count)).settle) :
    exec (.measurementEnd g count) s = .next (if m.slot.isNone then u.nextSlot g else u.nextMeasurement g) := by
  subst hu
  refine congrArg Host.Outcome.next ?_
  unfold State.endMeasurement
  dsimp only
  split
  next m' r' hm' hr' =>
    cases hm.symm.trans hm'
    cases hr.symm.trans hr'
    simp only [hv, Bool.true_and, if_true]
    rfl
  next h => exact absurd hr (h m r hm)

theorem group_voided (s : State) (g : GroupId) (m : Measurement) (count : Nat) :
    (((s.unmeasured g).noteQuality m.point count (quality m count)).settle).group g = { s.group g with measuring := none } := by
  refine eq_of_disturb ?_ rfl
  refine (disturb_group (scanning_settle _) g).trans ((disturb_group (scanning_noteQuality _ _ _ _) g).trans ?_)
  exact disturb_unmeasured

theorem Group.refresh_took_only {x : Group} {m : Measurement} (hf : x.refresh = [m.point]) (hs : m.slot = none) (r : Round) (count : Nat) :
    (x.took m r count true).refresh = [] := by
  unfold Group.took
  rw [if_neg (by simp [hs])]
  exact (congrArg (List.filter fun n => n != m.point) hf).trans (by simp)

/-- The last measurement of a round that is not voided, as a whole step. -/
theorem exec_measurementEnd_lastTaken {s : State} {g : GroupId} {count : Nat} {m : Measurement} {r : Round} (hm : (s.group g).measuring = some m)
    (hr : (s.group g).round = some r) (hv : m.voided = false) (hrest : r.rest = [])
    (hf : (s.group g).refresh = [] ∨ (m.slot = none ∧ groupOf m.point = g ∧ (s.group g).refresh = [m.point])) :
    exec (.measurementEnd g count) s = .next ((s.rested g m r count).endRound g (r.took m count)) := by
  obtain ⟨u, hu⟩ : ∃ u, u = s.rested g m r count := ⟨_, rfl⟩
  have hgroup : u.group g = (s.group g).took m r count (g == groupOf m.point) := by rw [hu, group_rested count hr]
  have hround := Group.round_took hr m count (g == groupOf m.point)
  have hrefresh : (u.group g).refresh = [] := by
    rw [hgroup]
    rcases hf with h | ⟨hs, hg, h⟩
    · exact Group.refresh_took_nil h m r count _
    · rw [hg, beq_self_eq_true]
      exact Group.refresh_took_only h hs r count
  rw [exec_measurementEnd hm hr hv, ← State.rested, ← hu, nextMeasurement_slot (r := r.took m count) (hgroup ▸ hround) hrefresh,
    nextSlot_last (r := r.took m count) (hgroup ▸ hround) hrest]

/-- The last measurement of a round, as a whole step. -/
theorem exec_measurementEnd_last {s : State} {g : GroupId} {count : Nat} {m : Measurement} {r : Round} (hm : (s.group g).measuring = some m)
    (hr : (s.group g).round = some r) (hrest : r.rest = [])
    (hf : (s.group g).refresh = [] ∨ (m.slot = none ∧ m.voided = false ∧ groupOf m.point = g ∧ (s.group g).refresh = [m.point])) :
    ∃ u r', exec (.measurementEnd g count) s = .next (u.endRound g r') ∧ s.ending u g r r' := by
  cases hv : m.voided with
  | false =>
    have hgroup := group_rested (m := m) count hr
    obtain ⟨hmode, -, -, hsince, hnext, hdue⟩ := (s.group g).took_plain m r count (g == groupOf m.point)
    exact ⟨_, _, exec_measurementEnd_lastTaken hm hr hv hrest (hf.imp_right fun ⟨h1, _, h2⟩ => ⟨h1, h2⟩),
      hgroup ▸ hmode, hgroup ▸ hsince, hgroup ▸ hnext, hgroup ▸ hdue, scan_rested count, rfl, rfl⟩
  | true =>
    obtain ⟨u, hu⟩ : ∃ u, u = ((s.unmeasured g).noteQuality m.point count (quality m count)).settle := ⟨_, rfl⟩
    have hgroup : u.group g = { s.group g with measuring := none } := by rw [hu, group_voided]
    have hround : (u.group g).round = some r := by
      rw [hgroup]
      exact hr
    have hrefresh : (u.group g).refresh = [] := by
      rw [hgroup]
      rcases hf with h | ⟨-, hc, -⟩
      · exact h
      · exact absurd hc (by simp [hv])
    refine ⟨u, r, ?_, ?_⟩
    · rw [exec_measurementEnd_voided hm hr hv hu, nextMeasurement_slot hround hrefresh, ite_self, nextSlot_last hround hrest]
    · exact ⟨hgroup ▸ rfl, hgroup ▸ rfl, hgroup ▸ rfl, hgroup ▸ rfl, hu ▸ (scan_settle _).trans (scan_noteQuality _ _ _ _), rfl, rfl⟩

theorem roundEnds : Clauses.RoundEnds := by
  intro s g count m r single hm hr hrest hf hsingle
  obtain ⟨u, r', hexec, hend⟩ := exec_measurementEnd_last (count := count) hm hr hrest hf
  obtain ⟨y, hg, hround, hmeas, hmode, hsince, hnext, hdue⟩ := hend.ends
  obtain ⟨hover, hon⟩ := hend.scan_endRound
  have hs : single ↔ r'.own = true ∧ r'.mode = .single := by rw [hend.own, hend.inMode, hsingle]
  obtain ⟨kround, kmeas, knext⟩ := y.ends_kept r'
  refine ⟨_, hexec, ?_, ?_, ?_, fun x hx => ?_, fun hn hsg => ?_, fun hn hsg => ?_, fun hsg => ?_, fun hsg => ?_, hover, hon⟩
  · rw [hg, kround, hround]
  · rw [hg, kmeas, hmeas]
  · rw [hg, knext]
  · rw [hg, y.ends_waiting r' (hnext.trans hx)]
    exact ⟨rfl, rfl, fun e => if_pos e⟩
  · rw [hg, Group.ends_single (hnext.trans hn) (hs.mp hsg)]
    exact ⟨rfl, rfl⟩
  · rw [hg, Group.ends_other (hnext.trans hn) fun c => hsg (hs.mpr c)]
    exact ⟨hmode, hsince⟩
  · rw [hg, Group.singleDue_ends (hs.mp hsg), hnext]
  · rw [hg, Group.singleDue_ends_other fun c => hsg (hs.mpr c), hdue]

/-! ### The results of a PERIODIC round -/

theorem Point.published_compared (x : Point) (count : Nat) (q : Quality) : (x.compared count q).published = x.published := by
  unfold Point.compared
  split
  · rfl
  · rfl
  · split
    · rfl
    · split <;> rfl

/-- A slot measurement of a PERIODIC round publishes nothing of its own (R125). -/
theorem Point.published_measured {m : Measurement} {r : Round} (hs : m.slot ≠ none) (hr : r.mode = .periodic) (x : Point) (count : Nat) :
    (x.measured m r count).published = x.published := by
  unfold Point.measured
  dsimp only
  rw [if_pos ⟨Option.isSome_iff_ne_none.mpr hs, hr⟩, hr]
  exact Point.published_compared _ _ _

theorem periodicRoundPublishes : Clauses.PeriodicRoundPublishes := by
  intro s g count m r all hm hr hv hs hmode hown hrest hf hnext hall
  obtain ⟨u, hu⟩ : ∃ u, u = s.rested g m r count := ⟨_, rfl⟩
  obtain ⟨r', hr'⟩ : ∃ r', r' = r.took m count := ⟨_, rfl⟩
  have hexec := exec_measurementEnd_lastTaken (count := count) hm hr hv hrest (.inl hf)
  rw [← hu, ← hr'] at hexec
  have hresults : r'.results = all := by
    rw [hr', hall]
    exact if_pos ⟨hmode, hs⟩
  have hper : r'.own = true ∧ r'.mode = .periodic := by
    rw [hr']
    exact ⟨hown, hmode⟩
  have hgroup : u.group g = (s.group g).took m r count (g == groupOf m.point) := by rw [hu, group_rested count hr]
  obtain ⟨-, -, hpub, -, hnext', -⟩ := (s.group g).took_plain m r count (g == groupOf m.point)
  have hpoint : ∀ n, (u.point n).published = (s.point n).published := fun n => by
    rw [hu, point_rested]
    split
    next e => rw [e, Point.published_measured hs hmode]
    next => rfl
  have hcfg : u.cfg = s.cfg := by
    injection hexec with he
    have h1 := congrArg Fixed.cfg (endMeasurement_alters s g count).fixed
    have h2 := congrArg Fixed.cfg (endRound_alters u g r').fixed
    exact h2.symm.trans ((congrArg State.cfg he.symm).trans h1)
  obtain ⟨v, hv'⟩ : ∃ v, v = u.setGroup g { u.group g with round := none, measuring := none } := ⟨_, rfl⟩
  have hover : u.roundOver g r' = v.endPeriodic g r' := by
    rw [hv']
    exact if_pos hper
  have hvg : v.group g = { u.group g with round := none, measuring := none } := hv' ▸ group_setGroup_self _ _ _
  have hleft : (v.group g).roundsToPublish = (s.group g).roundsToPublish := by rw [hvg, ← hpub, ← hgroup]
  have hends : (u.endRound g r').group g = (v.endPeriodic g r').group g := by
    rw [endRound_eq, hover, group_endSingleScan, group_setGroup_self]
    refine Group.ends_other ?_ fun c => by rw [hper.2] at c; cases c.2
    refine (congrArg Group.next (endPeriodic_group v g r').1).trans ?_
    rw [hvg]
    exact (congrArg Group.next hgroup).trans (hnext'.trans hnext)
  have hpts : ∀ n, (u.endRound g r').point n = (v.endPeriodic g r').point n := fun n => by
    rw [endRound_eq, hover]
    exact State.point_of_points (sense_endSingleScan _).1 n
  have hvp : ∀ n, (v.point n).published = (s.point n).published := fun n => by
    rw [hv']
    exact hpoint n
  refine ⟨_, hexec, fun hmore => ?_, fun hlast => ?_⟩
  · rw [endPeriodic_more r' (hleft ▸ hmore)] at hends hpts
    exact ⟨by rw [hends, group_setGroup_self, hleft], fun n => by rw [hpts]; exact hvp n⟩
  · rw [endPeriodic_last r' (hleft ▸ hlast), hresults] at hends hpts
    obtain ⟨w, hw⟩ : ∃ w, w = v.setGroup g { v.group g with roundsToPublish := v.cfg.publishEvery } := ⟨_, rfl⟩
    rw [← hw] at hends hpts
    have hcount : (w.group g).roundsToPublish = s.cfg.publishEvery := by
      rw [hw, group_setGroup_self, hv', ← hcfg]
      rfl
    refine ⟨?_, fun n x hx => ?_, fun n hn => ?_⟩
    · rw [hends, (publishAll_group all g w).2.1, hcount]
    · rw [hpts]
      exact (point_publishAll n all w).1 x hx
    · rw [hpts, (point_publishAll n all w).2 hn, hw]
      exact hvp n

end Sys2Proof.Machine

/-! The end of a drive period with nothing due before it: the spans, the reading of the probe and the rounds that begin (R125 to R127,
R140). -/

namespace Sys2Proof.Machine

/-! ### A trigger offered, and a circulation that starts -/

theorem State.keepsBut_armedAct (s : State) (c : ChannelId) : s.keepsBut (s.armedAct c) [.arb, .dose] := by
  have h : ∀ ch r who, s.keepsBut ((s.setChannel c ch).ask r who 0 none) [.arb, .dose] := fun ch r who =>
    (State.keepsBut_mono (s.keepsBut_setChannel c ch) (by decide)).step (State.keepsBut_ask _ _ _ _ _) (by decide)
  unfold State.armedAct
  dsimp only
  exact .ite _ (.ite _ (h _ _ _) (.ite _ (h _ _ _) (s.keepsBut_refl _))) (s.keepsBut_refl _)

theorem State.keepsBut_triggerChannel (s : State) (c : ChannelId) : s.keepsBut (s.triggerChannel c) [.arb, .dose] := by
  unfold State.triggerChannel
  dsimp only
  exact .ite _ (s.keepsBut_refl _) ((State.keepsBut_mono (s.keepsBut_setChannel c _) (by decide)).step (State.keepsBut_armedAct _ c) (by decide))

theorem State.keepsBut_offerTrigger (s : State) (src : TriggerSource) : s.keepsBut (s.offerTrigger src) [.arb, .dose] :=
  State.keepsBut.foldl _ (fun t c => .ite _ (t.keepsBut_triggerChannel c) (t.keepsBut_refl _)) _ (s.keepsBut_refl _)

/-- What the report of a circulation changes: nothing, or the slot of the CIRCULATE that holds CIRC, and what the trigger brings. -/
theorem circReached_cases (s : State) : s.circReached = s ∨ ∃ (x : Ident) (i : SlotId) (sl : Slot) (w : CircWork), (s.entry .circ).lease = .held ∧
    (s.entry .circ).holder = some ⟨x, some i⟩ ∧ s.pool[i] = some sl ∧ sl.work = .circulate w ∧ sl.outcome = none ∧ w.started = false ∧
    s.drive.circRamp.level = s.drive.circ.active ∧ s.circReached = (s.circStarted i sl w).offerTrigger .circulationStarted := by
  by_cases hl : (s.entry .circ).lease = .held
  · cases hh : (s.entry .circ).holder with
    | none =>
      refine .inl ?_
      unfold State.circReached
      simp only [hl, hh]
    | some y =>
      obtain ⟨x, slot⟩ := y
      cases slot with
      | none =>
        refine .inl ?_
        unfold State.circReached
        simp only [hl, hh]
      | some i =>
        cases hat : s.circAt i with
        | none =>
          refine .inl ?_
          unfold State.circReached
          simp only [hl, hh, hat]
        | some y =>
          obtain ⟨sl, w⟩ := y
          obtain ⟨hp, hw, ho⟩ : s.pool[i] = some sl ∧ sl.work = .circulate w ∧ sl.outcome = none := by
            unfold State.circAt at hat
            cases hp : s.pool[i] with
            | none => simp [hp] at hat
            | some z =>
              simp only [hp] at hat
              cases hw : z.work <;> cases ho : z.outcome <;> simp only [hw, ho, reduceCtorEq] at hat
              cases hat
              exact ⟨rfl, hw, ho⟩
          have h := circReached_held hl hh hp hw ho
          by_cases hs : w.started = false ∧ s.drive.circRamp.level = s.drive.circ.active
          · exact .inr ⟨x, i, sl, w, hl, rfl, hp, hw, ho, hs.1, hs.2, h.trans (if_pos hs)⟩
          · exact .inl (h.trans (if_neg hs))
  · exact .inl (circReached_notHeld hl)

theorem State.keepsBut_circReached (s : State) : s.keepsBut s.circReached [.arb, .pool, .ports, .dose] := by
  rcases circReached_cases s with h | ⟨x, i, sl, w, -, -, -, -, -, -, -, h⟩ <;> rw [h]
  · exact s.keepsBut_refl _
  · exact (State.keepsBut_mono (s.keepsBut_circStarted i sl w) (by decide)).step (State.keepsBut_offerTrigger _ _) (by decide)

@[simp] theorem standing_circReached (s : State) : s.circReached.standing = s.standing := (s.keepsBut_circReached).standing

/-- A slot after the report of a circulation: as it was, or a CIRCULATE that has started. -/
theorem pool_circReached (s : State) (j : SlotId) : s.circReached.pool[j] = s.pool[j] ∨ ∃ (sl : Slot) (w : CircWork), s.pool[j] = some sl ∧
    sl.work = .circulate w ∧ sl.outcome = none ∧ s.circReached.pool[j] = some { sl with work := .circulate { w with started := true } } := by
  rcases circReached_cases s with h | ⟨x, i, sl, w, -, -, hp, hw, ho, -, -, h⟩
  · exact .inl (by rw [h])
  · have hpool : s.circReached.pool = upd s.pool i (some { sl with work := .circulate { w with started := true } }) := by
      rw [h]
      exact ((State.keepsBut_offerTrigger _ _).pool).trans ((State.keepsBut_post _ _ _ _).pool)
    have hj : s.circReached.pool[j] = if j = i then some { sl with work := .circulate { w with started := true } } else s.pool[j] := by
      rw [hpool, upd_get]
    by_cases e : j = i
    · subst e
      exact .inr ⟨sl, w, hp, hw, ho, hj.trans (if_pos rfl)⟩
    · exact .inl (hj.trans (if_neg e))

/-! ### The spans -/

/-- A slot whose work has moved on by one period. -/
def State.tickedSlot (s : State) (i : SlotId) (x : Option Slot) : Option Slot :=
  x.map fun sl => if sl.outcome.isSome then sl else { sl with work := s.tickWork i sl }

theorem tickSlot_eq (s : State) (v : Vector (Option Slot) 12) (i j : SlotId) :
    (s.tickSlot v i)[j] = if j = i then s.tickedSlot i v[i] else v[j] := by
  unfold State.tickSlot State.tickedSlot
  cases hv : v[i] with
  | none =>
    dsimp only
    split
    next e => rw [e, hv]; rfl
    next => rfl
  | some sl =>
    dsimp only
    split
    next ho =>
      split
      next e => rw [e, hv, Option.map_some, if_pos ho]
      next => rfl
    next ho => rw [upd_get, Option.map_some, if_neg ho]

theorem pool_tickSlots (s : State) (j : SlotId) : ∀ (l : List SlotId) (v : Vector (Option Slot) 12), l.Nodup →
    (l.foldl s.tickSlot v)[j] = if j ∈ l then s.tickedSlot j v[j] else v[j]
  | [], _, _ => rfl
  | i :: l, v, hl => by
    obtain ⟨hi, hl⟩ := List.nodup_cons.mp hl
    rw [List.foldl_cons, pool_tickSlots s j l _ hl, tickSlot_eq]
    by_cases e : j = i
    · subst e
      rw [if_neg hi, if_pos rfl, if_pos List.mem_cons_self]
    · simp only [List.mem_cons, e, false_or, if_false]

theorem mem_allSlots : ∀ j : SlotId, j ∈ allSlots := by decide

theorem nodup_allSlots : allSlots.Nodup := by decide

theorem pool_tickPool (s : State) (j : SlotId) : s.tickPool.pool[j] = s.tickedSlot j s.pool[j] := by
  have hpool : s.tickPool.pool = allSlots.foldl s.tickSlot s.pool := by rw [State.tickPool_eq]
  rw [hpool, pool_tickSlots s j allSlots _ nodup_allSlots, if_pos (mem_allSlots j)]

theorem State.keepsBut_tickPool (s : State) : s.keepsBut s.tickPool [.pool] := by
  rw [State.tickPool_eq]
  intro b hb
  cases b with
  | pool => exact absurd List.mem_cons_self hb
  | accepted => exact ⟨rfl, rfl⟩
  | _ => rfl

theorem State.keepsBut_tickRegen (s : State) : s.keepsBut s.tickRegen [.soft] := by
  unfold State.tickRegen
  split
  · exact s.keepsBut_refl _
  · exact s.keepsBut_setRegen _

theorem State.keepsBut_tickChannels (s : State) : s.keepsBut (allChannels.foldl State.tickChannel s) [.dose] :=
  State.keepsBut.foldl _ (fun t c => .ite _ (t.keepsBut_setChannel c _) (t.keepsBut_refl _)) _ (s.keepsBut_refl _)

theorem State.keepsBut_tickRod (s : State) : s.keepsBut s.tickRod [.door] := s.keepsBut_setRod _

theorem State.keepsBut_tickForce (s : State) : s.keepsBut s.tickForce [.prot] := .ite _ (s.keepsBut_withProt _) (s.keepsBut_refl _)

/-- The spans of the pool, the regeneration, the channels and the rod. -/
def State.tickWorks (s : State) : State := (allChannels.foldl State.tickChannel s.tickPool.tickRegen).tickRod

theorem State.keepsBut_tickWorks (s : State) : s.keepsBut s.tickWorks [.pool, .soft, .dose, .door] :=
  (((State.keepsBut_mono s.keepsBut_tickPool (by decide)).step (State.keepsBut_tickRegen _) (by decide)).step
    (State.keepsBut_tickChannels _) (by decide)).step (State.keepsBut_tickRod _) (by decide)

theorem State.tickSpans_works (s : State) : s.tickSpans = s.tickWorks.tickDrive.tickForce.tickSense := s.tickSpans_eq

theorem State.keepsBut_tickSpans (s : State) : s.keepsBut s.tickSpans [.pool, .soft, .dose, .door, .drive, .prot, .sense] := by
  rw [State.tickSpans_works]
  exact (((State.keepsBut_mono s.keepsBut_tickWorks (by decide)).step (State.keepsBut_withDrive _ _) (by decide)).step
    (State.keepsBut_tickForce _) (by decide)).step (State.keepsBut_withSense _ _) (by decide)

theorem State.keepsBut_tickPool_tickWorks (s : State) : s.tickPool.keepsBut s.tickWorks [.soft, .dose, .door] :=
  ((State.keepsBut_mono (State.keepsBut_tickRegen _) (by decide)).step (State.keepsBut_tickChannels _) (by decide)).step
    (State.keepsBut_tickRod _) (by decide)

theorem State.keepsBut_tickWorks_tickSpans (s : State) : s.tickWorks.keepsBut s.tickSpans [.drive, .prot, .sense] := by
  rw [State.tickSpans_works]
  exact ((State.keepsBut_mono (State.keepsBut_withDrive _ _) (by decide)).step (State.keepsBut_tickForce _) (by decide)).step
    (State.keepsBut_withSense _ _) (by decide)

theorem pool_tickSpans (s : State) (j : SlotId) : s.tickSpans.pool[j] = s.tickedSlot j s.pool[j] := by
  rw [s.keepsBut_tickWorks_tickSpans.pool, s.keepsBut_tickPool_tickWorks.pool, pool_tickPool]

/-! ### The period counted -/

/-- The part when the period has been counted and the staged settings are in force. -/
def State.staged (s : State) : State := s.countPeriod.applyStaging

theorem State.keepsBut_staged (s : State) : s.keepsBut s.staged [.drive] :=
  (s.keepsBut_withDrive _).step (State.keepsBut_withDrive _ _) (by decide)

/-- The part when the ramps have been counted. -/
def State.counted (s : State) : State := s.staged.circReached.countRamps

theorem State.keepsBut_counted (s : State) : s.keepsBut s.counted [.arb, .pool, .ports, .dose, .drive] :=
  ((State.keepsBut_mono s.keepsBut_staged (by decide)).step (State.keepsBut_circReached _) (by decide)).step
    (State.keepsBut_withDrive _ _) (by decide)

/-- The part when every span has moved on. -/
def State.ticked (s : State) : State := s.counted.tickSpans

theorem exec_drivePeriodEnd {s : State} (hc : s.catchUp = s) (r : PeriodReadings) : exec (.drivePeriodEnd r) s =
    .next ((((s.ticked.takeReadings r).takeProbe r.probe).circYield s.ticked.circSecond).judgeRounds.settle) := by
  refine congrArg Host.Outcome.next ?_
  unfold State.endPeriod
  rw [hc]
  rfl

theorem State.keepsBut_takeReadings (s : State) (r : PeriodReadings) : s.keepsBut (s.takeReadings r) [.drive, .door] := s.keepsBut_withDriveDoor _ _

end Sys2Proof.Machine

/-! The reading of the probe with nothing else due, and the rounds that fall due (R44, R125 to R127, R135). Settles O42. -/

namespace Sys2Proof.Machine

/-! ### The HEATs at a period end -/

theorem heatAt_iff {s : State} {j : SlotId} {x : Slot × HeatWork} : s.heatAt j = some x ↔ s.pool[j] = some x.1 ∧ x.1.work = .heat x.2 := by
  unfold State.heatAt
  cases hp : s.pool[j] with
  | none => simp
  | some sl =>
    cases hw : sl.work <;> simp only [hw]
    case heat w =>
      constructor
      · intro h
        cases h
        exact ⟨rfl, hw⟩
      · rintro ⟨h1, h2⟩
        obtain ⟨a, b⟩ := x
        cases h1
        rw [hw] at h2
        cases h2
        rfl
    all_goals
      refine ⟨fun h => (by cases h), fun ⟨h1, h2⟩ => ?_⟩
      obtain ⟨a, b⟩ := x
      cases h1
      rw [hw] at h2
      cases h2

theorem pool_ticked (s : State) (j : SlotId) : s.ticked.pool[j] = s.counted.tickedSlot j s.staged.circReached.pool[j] := by
  unfold State.ticked
  rw [pool_tickSpans]
  rfl

/-- A HEAT at a period end: its work moved on by one period. -/
def HeatWork.tick (w : HeatWork) : HeatWork := if w.granted then { w with passed := w.passed.tick (seconds w.limit) } else w

theorem tickWork_heat (s : State) (i : SlotId) {sl : Slot} {w : HeatWork} (h : sl.work = .heat w) : s.tickWork i sl = .heat w.tick := by
  unfold State.tickWork HeatWork.tick
  simp only [h]
  exact (apply_ite Work.heat _ _ _).symm

/-- A HEAT of the part at the start of the period, or one whose outcome is fixed, is the HEAT there is when every span has moved on. -/
theorem heat_of_ticked {s : State} {j : SlotId} {x : Slot × HeatWork} (h : s.ticked.heatAt j = some x) :
    ∃ y, s.heatAt j = some y ∧ (x.2 = y.2.tick ∨ x.2 = y.2) := by
  obtain ⟨hp, hw⟩ := heatAt_iff.mp h
  rw [pool_ticked] at hp
  have hstart : s.staged.pool = s.pool := s.keepsBut_staged.pool
  unfold State.tickedSlot at hp
  cases hr : s.staged.circReached.pool[j] with
  | none =>
    rw [hr] at hp
    cases hp
  | some z =>
    rw [hr, Option.map_some] at hp
    have hx := Option.some.inj hp
    have hz : ∀ w, z.work = .heat w → s.heatAt j = some (z, w) := fun w hzw => by
      rcases pool_circReached s.staged j with e | ⟨sl, v, -, -, -, e⟩
      · rw [hr, hstart] at e
        exact heatAt_iff.mpr ⟨e.symm, hzw⟩
      · rw [hr] at e
        cases e
        cases hzw
    split at hx
    · rw [← hx] at hw
      exact ⟨_, hz _ hw, .inr rfl⟩
    · rw [← hx] at hw
      dsimp only at hw
      cases hzw : z.work with
      | heat w =>
        rw [tickWork_heat _ _ hzw] at hw
        injection hw with hw
        exact ⟨_, hz w hzw, .inl hw.symm⟩
      | fill w | circulate w | drain w | dry w =>
        exfalso
        unfold State.tickWork at hw
        simp only [hzw] at hw
        split at hw <;> cases hw
      | regenerate w | doorPush w =>
        exfalso
        unfold State.tickWork at hw
        simp only [hzw] at hw
        cases hw

theorem heatAt_congr {s t : State} (h : t.pool = s.pool) (j : SlotId) : t.heatAt j = s.heatAt j := by
  unfold State.heatAt
  rw [h]

theorem heatLate_ticked {s : State} (h : s.heatsInTime) (r : PeriodReadings) : (s.ticked.takeReadings r).heatLate = false := by
  unfold State.heatLate
  rw [List.any_eq_false]
  intro j _
  rw [heatAt_congr (State.keepsBut_takeReadings _ r).pool]
  cases hat : s.ticked.heatAt j with
  | none => exact Bool.false_ne_true
  | some x =>
    obtain ⟨y, hy, hxy⟩ := heat_of_ticked hat
    dsimp only
    by_cases hg : y.2.granted = true
    · obtain ⟨h1, h2⟩ := h j y hy hg
      have hdue : x.2.passed.due = false := by
        rcases hxy with e | e
        · rw [e, HeatWork.tick, if_pos hg]
          exact decide_eq_false (Nat.not_le.mpr h2)
        · rw [e, h1]
      simp [hdue]
    · have hgx : x.2.granted = false := by
        rcases hxy with e | e
        · rw [e, HeatWork.tick, if_neg hg]
          exact Bool.eq_false_iff.mpr hg
        · rw [e]
          exact Bool.eq_false_iff.mpr hg
      simp [hgx]

/-! ### The reading -/

/-- Where the reading neither trips nor falls with the limit of a HEAT, nothing is chosen (R44, R47). -/
theorem takeProbe_plain {s : State} {x : Int} (ho : s.overtempNew x = false) (hl : s.heatLate = false) :
    s.takeProbe x = s.readProbe x true State.still := by
  unfold State.takeProbe
  rw [if_neg (by simp [ho, hl])]

theorem overtempNew_below {s : State} {x : Int} (h : x ≤ 1000 → x.toNat < s.cfg.overtempLimit) : s.overtempNew x = false := by
  unfold State.overtempNew
  rw [Bool.and_eq_false_iff]
  refine .inl (decide_eq_false fun ⟨_, h1, h2⟩ => ?_)
  have := h h1
  omega

theorem cfg_ticked (s : State) : s.ticked.cfg = s.cfg :=
  (State.keepsBut_tickSpans _).cfg.trans s.keepsBut_counted.cfg

/-- The probe at the end of a period that trips nothing and ends no HEAT's limit. -/
theorem takeProbe_ticked {s : State} {r : PeriodReadings} (hp : r.probe ≤ 1000 → r.probe.toNat < s.cfg.overtempLimit) (hh : s.heatsInTime) :
    (s.ticked.takeReadings r).takeProbe r.probe = (s.ticked.takeReadings r).readProbe r.probe true State.still := by
  refine takeProbe_plain (overtempNew_below ?_) (heatLate_ticked hh r)
  rw [((State.keepsBut_takeReadings _ r).cfg), cfg_ticked]
  exact hp

theorem standing_takeReadings (s : State) (r : PeriodReadings) : (s.takeReadings r).standing = s.standing := rfl

theorem scanning_readProbe (s : State) (x : Int) : (s.readProbe x true State.still).scanning = s.scanning := by
  unfold State.readProbe
  split
  · unfold State.validReading
    dsimp only
    unfold State.takeReading State.still
    split
    · rw [if_pos rfl, scanning_handIn, scanning_of_standing (standing_heatsReading _)]
      exact scanning_of_standing (standing_withWater _ _)
    · rw [scanning_of_standing (standing_heatsReading _)]
      exact scanning_of_standing (standing_withWater _ _)
  · unfold State.invalidReading
    dsimp only
    rw [scanning_of_standing (standing_heatsProbeFault _)]
    split
    · exact (scanning_fault _ _ _ _).trans (scanning_of_standing (standing_withWater _ _))
    · exact scanning_of_standing (standing_withWater _ _)

@[simp] theorem standing_circYield (s : State) (second : Option SlotId) : (s.circYield second).standing = s.standing := by
  unfold State.circYield
  split
  · rfl
  · split
    · split <;> simp
    · rfl

/-! ### The rounds that fall due -/

theorem group_tickSense (s : State) (g : GroupId) : s.tickSense.group g = { s.group g with sinceStart := (s.group g).sinceStart + 1 } :=
  updAll_get _ _ _

/-- The spans of the part but for the scanner's. -/
def State.tickRest (s : State) : State := s.tickWorks.tickDrive.tickForce

theorem State.keepsBut_tickRest (s : State) : s.keepsBut s.tickRest [.pool, .soft, .dose, .door, .drive, .prot] :=
  ((State.keepsBut_mono s.keepsBut_tickWorks (by decide)).step (State.keepsBut_withDrive _ _) (by decide)).step
    (State.keepsBut_tickForce _) (by decide)

theorem State.tickSpans_rest (s : State) : s.tickSpans = s.tickRest.tickSense := s.tickSpans_works

theorem groups_ticked (s : State) (g : GroupId) : (s.ticked.group g).disturb =
    ({ s.group g with sinceStart := (s.group g).sinceStart + 1 } : Group).disturb := by
  have hsense : s.counted.tickRest.sense = s.sense := (State.keepsBut_tickRest _).sense.trans s.keepsBut_counted.sense
  unfold State.ticked
  rw [State.tickSpans_rest, group_tickSense, State.group_congr hsense]

theorem group_judgeRounds (s : State) (g : GroupId) : s.judgeRounds.group g = (s.group g).judgeDue (scanPeriods s.cfg.scanPeriod) g := by
  have hcfg : ∀ (l : List GroupId) (n : Nat) (u : State), (scanPeriods u.cfg.scanPeriod = n) →
      l.foldl (fun s g => s.setGroup g ((s.group g).judgeDue (scanPeriods s.cfg.scanPeriod) g)) u =
        l.foldl (fun s g => s.setGroup g ((s.group g).judgeDue n g)) u := by
    intro l n
    induction l with
    | nil => exact fun _ _ => rfl
    | cons a l ih =>
      intro u hu
      rw [List.foldl_cons, List.foldl_cons, hu]
      exact ih _ hu
  unfold State.judgeRounds
  rw [hcfg allGroups _ s rfl]
  exact group_allGroups (fun g x => x.judgeDue (scanPeriods s.cfg.scanPeriod) g) s g

theorem judgeDue_disturb (n : Nat) (g : GroupId) (x : Group) : (x.judgeDue n g).disturb = (x.disturb).judgeDue n g := rfl

theorem roundDue_judgeDue (n : Nat) (g : GroupId) (x : Group) : (x.judgeDue n g).roundDue = true ↔ x.round = none ∧ roundSlots g x x.mode ≠ [] ∧
    (x.mode = .continuous ∨ (x.mode = .single ∧ x.singleDue = true) ∨ (x.mode = .periodic ∧ (x.fresh = true ∨ n ≤ x.sinceStart)) ∨
      (x.mode = .watch ∧ (x.fresh = true ∨ 100 ≤ x.sinceStart))) := by
  have hw : Config.watchPeriods = 100 := rfl
  unfold Group.judgeDue
  dsimp only
  rw [hw]
  cases hm : x.mode <;> simp <;> tauto

theorem refreshDue_judgeDue (n : Nat) (g : GroupId) (x : Group) : (x.judgeDue n g).refreshDue = true ↔ x.round = none ∧ x.refresh ≠ [] := by
  unfold Group.judgeDue
  simp

theorem cfg_takeProbe (s : State) (x : Int) : (s.takeProbe x).cfg = s.cfg := congrArg Fixed.cfg (takeProbe_works s x).fixed

theorem cfg_circYield (s : State) (second : Option SlotId) : (s.circYield second).cfg = s.cfg :=
  congrArg Fixed.cfg ((circYield_effect (.refl s) second).alters butPeriod).fixed

theorem roundsFallDue : Clauses.RoundsFallDue := by
  rintro s r g x hc hp hh rfl
  refine ⟨_, exec_drivePeriodEnd hc r, ?_⟩
  obtain ⟨v, hv⟩ : ∃ v, v = ((s.ticked.takeReadings r).takeProbe r.probe).circYield s.ticked.circSecond := ⟨_, rfl⟩
  rw [← hv]
  obtain ⟨z, hz⟩ : ∃ z : Group, z = { s.group g with sinceStart := (s.group g).sinceStart + 1 } := ⟨_, rfl⟩
  have hscan : v.scanning = s.ticked.scanning := by
    rw [hv, scanning_of_standing (standing_circYield _ _), takeProbe_ticked hp hh, scanning_readProbe,
      scanning_of_standing (standing_takeReadings _ r)]
  have hcfg : v.cfg = s.cfg := by
    rw [hv, cfg_circYield, cfg_takeProbe, (State.keepsBut_takeReadings _ r).cfg, cfg_ticked]
  have hgroup : (v.judgeRounds.settle.group g).disturb = (z.judgeDue (scanPeriods s.cfg.scanPeriod) g).disturb := by
    rw [disturb_group (scanning_settle _), group_judgeRounds, hcfg, judgeDue_disturb, disturb_group hscan, groups_ticked, ← hz, judgeDue_disturb]
  obtain ⟨y, hy⟩ : ∃ y, y = v.judgeRounds.settle.group g := ⟨_, rfl⟩
  rw [← hy] at hgroup ⊢
  have hdue : y.roundDue = (z.judgeDue (scanPeriods s.cfg.scanPeriod) g).roundDue := (congrArg (fun a : Group => a.roundDue) hgroup :)
  have hrefresh : y.refreshDue = (z.judgeDue (scanPeriods s.cfg.scanPeriod) g).refreshDue := (congrArg (fun a : Group => a.refreshDue) hgroup :)
  have hsince : y.sinceStart = (s.group g).sinceStart + 1 := (congrArg (fun a : Group => a.sinceStart) hgroup).trans (by rw [hz]; rfl)
  have hmode : y.mode = (s.group g).mode := (congrArg (fun a : Group => a.mode) hgroup).trans (by rw [hz]; rfl)
  refine ⟨hsince, hmode, ?_, ?_⟩
  · rw [hdue, roundDue_judgeDue, hz]
    exact Iff.rfl
  · rw [hrefresh, refreshDue_judgeDue, hz]

/-- Settles O42. -/
theorem scanModeAndRounds : Obligations.ScanModeAndRounds :=
  ⟨senseModeTaken, senseSingleTaken, scanRoundStarts, priorityRoundStarts, nextMeasured, roundEnds, roundsFallDue, measurementOnlyPublished,
    periodicRoundPublishes⟩

end Sys2Proof.Machine

/-! A measurement in a round that compares: the record of its point (R121, R125, R131). -/

namespace Sys2Proof.Machine

/-! ### The points when the round goes on -/

/-- A point record but for what a publication writes. -/
def Point.unpublished (x : Point) : Point := { x with published := none, refresh := false }

theorem unpublished_publishAll (n : PointId) : ∀ (l : List (PointId × Nat × Quality)) (s : State),
    ((s.publishAll l).point n).unpublished = (s.point n).unpublished
  | [], _ => rfl
  | x :: l, s => by
    refine (unpublished_publishAll n l (s.publish x.1 x.2.1 x.2.2)).trans ?_
    rw [point_publish]
    split
    next e => subst e; rfl
    next => rfl

theorem unpublished_endRound (s : State) (g : GroupId) (r : Round) (n : PointId) :
    ((s.endRound g r).point n).unpublished = (s.point n).unpublished := by
  rw [endRound_eq, State.point_of_points (sense_endSingleScan _).1, State.point_setGroup]
  unfold State.roundOver
  split
  · obtain ⟨v, hv⟩ : ∃ v, v = s.setGroup g { s.group g with round := none, measuring := none } := ⟨_, rfl⟩
    have hvn : v.point n = s.point n := by rw [hv, State.point_setGroup]
    rw [← hv, ← hvn]
    by_cases h : 1 < (v.group g).roundsToPublish
    · rw [endPeriodic_more r h, State.point_setGroup]
    · rw [endPeriodic_last r (Nat.not_lt.mp h), unpublished_publishAll, State.point_setGroup]
  · rw [State.point_setGroup]

theorem unpublished_nextMeasurement (s : State) (g : GroupId) (n : PointId) :
    ((s.nextMeasurement g).point n).unpublished = (s.point n).unpublished := by
  unfold State.nextMeasurement
  dsimp only
  split
  next => rfl
  next => rw [startMeasurement_eq, State.point_setGroup]
  next =>
    unfold State.nextSlot
    dsimp only
    split
    next => rfl
    next r _ =>
      split
      · rw [startMeasurement_eq, State.point_setGroup, State.point_setGroup]
      · exact unpublished_endRound s g r n

/-- A round whose end publishes nothing, or that is not at its end, leaves the points. -/
theorem points_nextMeasurement_goesOn {s : State} {g : GroupId}
    (h : ∀ r, (s.group g).round = some r → r.own = true → r.mode = .periodic → r.rest ≠ []) :
    (s.nextMeasurement g).sense.points = s.sense.points := by
  unfold State.nextMeasurement
  dsimp only
  split
  next => rfl
  next => rfl
  next =>
    unfold State.nextSlot
    dsimp only
    split
    next => rfl
    next r hr =>
      split
      · rfl
      next he => exact points_endRound fun c => h r hr c.1 c.2 he

/-! ### The comparison -/

theorem Point.inFault_compared (x : Point) (count : Nat) (q : Quality) : (x.compared count q).inFault = x.inFault ∧
    (x.compared count q).refresh = x.refresh := by
  unfold Point.compared
  split
  · exact ⟨rfl, rfl⟩
  · exact ⟨rfl, rfl⟩
  · split
    · exact ⟨rfl, rfl⟩
    · split <;> exact ⟨rfl, rfl⟩

/-- What the debounce makes of a point's record (R131). -/
theorem Point.debounce_compared (x : Point) (count : Nat) (q : Quality) {side : Side} (hside : side = compareCount x count) :
    (q = .disturbed → (x.compared count q).state = x.state ∧ (x.compared count q).candidate = x.candidate ∧ (x.compared count q).run = x.run) ∧
    (q = .fault → (x.compared count q).state = x.state ∧ (x.compared count q).candidate = none ∧ (x.compared count q).run = 0) ∧
    (q = .valid → side.state = x.state →
      (x.compared count q).state = x.state ∧ (x.compared count q).candidate = none ∧ (x.compared count q).run = 0) ∧
    (q = .valid → side.state ≠ x.state → ∀ run, run = (if x.candidate = some side then x.run + 1 else 1) →
      (run < x.debounce → (x.compared count q).state = x.state ∧ (x.compared count q).candidate = some side ∧ (x.compared count q).run = run) ∧
      (x.debounce ≤ run → (x.compared count q).state = side.state ∧ (x.compared count q).candidate = none ∧ (x.compared count q).run = 0)) := by
  subst hside
  refine ⟨?_, ?_, ?_, ?_⟩
  · rintro rfl
    exact ⟨rfl, rfl, rfl⟩
  · rintro rfl
    exact ⟨rfl, rfl, rfl⟩
  · rintro rfl hs
    unfold Point.compared
    dsimp only
    rw [if_pos hs]
    exact ⟨rfl, rfl, rfl⟩
  · rintro rfl hs run rfl
    unfold Point.compared
    dsimp only
    rw [if_neg hs]
    refine ⟨fun hlt => ?_, fun hle => ?_⟩
    · rw [if_neg (c := x.debounce ≤ x.nextRun (compareCount x count)) (Nat.not_le.mpr hlt)]
      exact ⟨rfl, rfl, rfl⟩
    · rw [if_pos (c := x.debounce ≤ x.nextRun (compareCount x count)) hle]
      exact ⟨rfl, rfl, rfl⟩

/-- The record of a point measured in a round that compares, but for what it publishes. -/
theorem Point.unpublished_measured {m : Measurement} {r : Round} (hc : r.mode.compared = true) (x : Point) (count : Nat) :
    (x.measured m r count).unpublished = (({ x with inFault := quality m count == .fault } : Point).compared count (quality m count)).unpublished := by
  unfold Point.measured
  dsimp only
  rw [hc, if_pos rfl]
  split <;> rfl

theorem measurementCompared : Clauses.MeasurementCompared := by
  intro s g count m r hm hr hv hmode
  obtain ⟨q, hq⟩ : ∃ q, q = quality m count := ⟨_, rfl⟩
  obtain ⟨u, hu⟩ : ∃ u, u = s.rested g m r count := ⟨_, rfl⟩
  have hend : exec (.measurementEnd g count) s = .next (u.nextMeasurement g) := by
    rw [hu]
    exact exec_measurementEnd hm hr hv count
  have hcompared : r.mode.compared = true := by rcases hmode with e | e | e <;> rw [e] <;> rfl
  have hround : (u.group g).round = some (r.took m count) := by rw [hu, group_rested count hr, Group.round_took hr]
  have hpoint : ∀ n, u.point n = if n = m.point then (s.point m.point).measured m r count else s.point n := fun n => by rw [hu, point_rested]
  have hkept : r.mode ≠ .periodic ∨ r.rest ≠ [] ∨ r.own = false → ∀ n, (u.nextMeasurement g).point n = u.point n := fun h n => by
    refine State.point_of_points (points_nextMeasurement_goesOn fun r' hr' hown hper => ?_) n
    rw [hround] at hr'
    cases hr'
    rcases h with h | h | h
    · exact absurd hper h
    · exact h
    · exact absurd hown (by simp [Round.took, h])
  obtain ⟨y, hy⟩ : ∃ y : Point, y = { s.point m.point with inFault := q == .fault } := ⟨_, rfl⟩
  have hrecord : ((u.nextMeasurement g).point m.point).unpublished = (y.compared count q).unpublished := by
    rw [unpublished_nextMeasurement, hpoint, if_pos rfl, Point.unpublished_measured hcompared, hy, hq]
  have hstate : ((u.nextMeasurement g).point m.point).state = (y.compared count q).state := (congrArg (fun a : Point => a.state) hrecord :)
  have hcand : ((u.nextMeasurement g).point m.point).candidate = (y.compared count q).candidate := (congrArg (fun a : Point => a.candidate) hrecord :)
  have hrun : ((u.nextMeasurement g).point m.point).run = (y.compared count q).run := (congrArg (fun a : Point => a.run) hrecord :)
  have hfault : ((u.nextMeasurement g).point m.point).inFault = (y.compared count q).inFault := (congrArg (fun a : Point => a.inFault) hrecord :)
  obtain ⟨hd, hf, hsame, hrise⟩ := y.debounce_compared count q (side := compareCount (s.point m.point) count) (by rw [hy]; rfl)
  have hfixed := (endMeasurement_alters s g count).fixed
  have hstep : s.endMeasurement g count = u.nextMeasurement g := by injection hend
  rw [hstep] at hfixed
  refine ⟨_, q, compareCount (s.point m.point) count, hend, hq, rfl, fun hp => ?_, fun hp hs hrest => ?_, ?_, fun e => ?_, fun e => ?_, fun e he => ?_,
    fun e he run hrn => ?_, fun hp n hn => ?_, congrArg Fixed.cfg hfixed, congrArg Fixed.mode hfixed, congrArg Fixed.accepted hfixed⟩
  · have hpub : ¬(m.slot.isSome = true ∧ r.mode = .periodic) := fun c => by
      rcases hp with h | ⟨h, -⟩
      · exact h c.2
      · rw [h] at c
        cases c.1
    rw [hkept (hp.imp_right fun h => h.2), hpoint, if_pos rfl, Point.measured]
    rw [if_neg hpub, ← hq]
    exact ⟨rfl, rfl⟩
  · rw [hkept (.inr (.inl hrest)), hpoint, if_pos rfl, Point.measured]
    rw [if_pos ⟨Option.isSome_iff_ne_none.mpr hs, hp⟩, hcompared, if_pos rfl]
    exact ⟨Point.published_compared _ _ _, (Point.inFault_compared _ _ _).2⟩
  · rw [hfault, (y.inFault_compared count q).1, hy]
    rfl
  · rw [hstate, hcand, hrun]
    simpa only [hy] using hd e
  · rw [hstate, hcand, hrun]
    simpa only [hy] using hf e
  · rw [hstate, hcand, hrun]
    simpa only [hy] using hsame e (by rw [hy]; exact he)
  · rw [hstate, hcand, hrun]
    simpa only [hy] using hrise e (by rw [hy]; exact he) run (by rw [hy]; exact hrn)
  · rw [hkept (hp.imp_right .inl), hpoint, if_neg hn]

end Sys2Proof.Machine

/-! A confirmed change delivered to its owner, and what the step does after it; the accounts of the levels (R77 to R85, R131, R133). -/

namespace Sys2Proof.Machine

/-! ### After the delivery -/

/-- The part `u` when its change has been reported and the result published, in `w`. -/
structure Told (u w : State) (n : PointId) (side : Side) : Prop where
  frame : u.keepsBut w [.ports, .sense]
  ports : w.ports = (u.post .senseChanged n.val (pointStateCode side.state)).ports
  roles : ∀ m, (w.point m).role = (u.point m).role
  states : ∀ m, (w.point m).state = (u.point m).state

theorem Told.waterPresent {u w : State} {n : PointId} {side : Side} (h : Told u w n side) : w.waterPresent = u.waterPresent :=
  State.waterPresent_congr (fun m => h.roles m) fun m => h.states m

theorem Told.atRest {u w : State} {n : PointId} {side : Side} (h : Told u w n side) (hr : u.atRest) : w.atRest := by
  refine ⟨fun r => ?_, ?_⟩
  · rw [h.frame.entry r]
    exact hr.1 r
  · rw [h.frame.water, hr.2]
    simp only [State.interlockMet, State.interlockConditions, h.waterPresent, State.doorClosed, h.frame.entry .circ, h.frame.door, h.frame.water]

/-- A confirmed change reported, and the result of its point published. -/
def State.tells (s : State) (n : PointId) (side : Side) (count : Nat) : State :=
  (s.post .senseChanged n.val (pointStateCode side.state)).publish n count .valid

theorem tells_told {u : State} {n : PointId} (hi : (u.point n).role ≠ .inletCond) (hb : (u.point n).role ≠ .brineCond) (side : Side) (count : Nat) :
    Told u (u.tells n side count) n side := by
  obtain ⟨v, hv⟩ : ∃ v, v = u.post .senseChanged n.val (pointStateCode side.state) := ⟨_, rfl⟩
  have kv : u.keepsBut v [.ports] := hv ▸ u.keepsBut_post _ _ _
  have hvn : ∀ m, v.point m = u.point m := State.point_congr kv.sense
  have kw := State.keepsBut_publish_unread (s := v) (p := n) (by rw [hvn]; exact hi) (by rw [hvn]; exact hb) count .valid
  have hpoint := fun m => point_publish v n count .valid m
  unfold State.tells
  rw [← hv]
  refine ⟨(State.keepsBut_mono kv (by decide)).step kw (by decide), kw.ports.trans (hv ▸ rfl), fun m => ?_, fun m => ?_⟩
  · rw [hpoint, ← hvn]
    split
    next e => rw [e]
    next => rfl
  · rw [hpoint, ← hvn]
    split
    next e => rw [e]
    next => rfl

/-- What a measurement that confirms a change does after the delivery: `w` is the part when the change has been told of, `t` the part when
the step is over. -/
structure Follows (w t : State) : Prop where
  after : w.settle.keepsBut t [.sense]
  points : t.sense.points = w.sense.points

theorem measurementEnd_delivers {s : State} {g : GroupId} {count : Nat} {n : PointId} {side : Side} (h : s.changes g count n side)
    (hi : (s.point n).role ≠ .inletCond) (hb : (s.point n).role ≠ .brineCond) {u : State}
    (hu : u = (s.measured g n side).deliver n (s.point n).state side) :
    ∃ t, exec (.measurementEnd g count) s = .next t ∧ Told u (u.tells n side count) n side ∧ Follows (u.tells n side count) t := by
  have hrole : (u.point n).role = (s.point n).role := by
    rw [hu, State.point_of_points (points_deliver _ _ _ _), State.point_measured, if_pos rfl]
  have htold := tells_told (hrole ▸ hi) (hrole ▸ hb) side count
  obtain ⟨w, hw⟩ : ∃ w, w = u.tells n side count := ⟨_, rfl⟩
  have hround : ∀ r, (w.settle.group g).round = some r → ¬(r.own = true ∧ r.mode = .periodic) := by
    have h1 : (w.settle.group g).round = (w.group g).round := (congrArg (fun a : Group => a.round) (disturb_group (scanning_settle w) g) :)
    have h2 : (w.group g).round = (u.group g).round := by
      rw [hw]
      exact (congrArg (fun a : Group => a.round) (fixed_publish _ n count .valid g) :)
    have h4 : (u.group g).round = ((s.measured g n side).group g).round := by
      rw [hu]
      exact (congrArg (fun a : Group => a.round) (disturb_group (scanning_deliver _ _ _ _) g) :)
    rw [h1, h2, h4, State.round_measured]
    exact h.notPeriodic
  rw [← hw] at htold ⊢
  refine ⟨w.settle.nextMeasurement g, ?_, htold, State.keepsBut_nextMeasurement hround, (points_nextMeasurement hround).trans (points_settle w)⟩
  rw [exec_measurementEnd_changes h, ← hu, hw]
  rfl

/-- A delivery that leaves the part at rest: nothing else comes of the change but its report. -/
theorem Follows.rests {u w t : State} {n : PointId} {side : Side} (h : Follows w t) (hw : Told u w n side) (hr : u.atRest) :
    u.keepsBut t [.ports, .sense] ∧ t.ports = (u.post .senseChanged n.val (pointStateCode side.state)).ports := by
  have ha := h.after
  rw [(hw.atRest hr).settle] at ha
  exact ⟨hw.frame.step ha (by decide), ha.ports.trans hw.ports⟩

/-- The delivery of a change of the first holder of a role. -/
theorem deliver_held {s : State} {g : GroupId} {count : Nat} {n : PointId} {side : Side} (h : s.confirms g count n side) (hr : (s.point n).role ≠ .none) :
    (s.measured g n side).deliver n (s.point n).state side = match (s.point n).role with
      | .leak => (s.measured g n side).deliverTrip .flood n side
      | .tankHigh => (s.measured g n side).deliverTrip .overfill n side
      | .tankMin => (s.measured g n side).judgeDrains.waterChannels
      | .low k => (s.measured g n side).deliverLow k (s.point n).state side
      | .empty k => (s.measured g n side).deliverEmpty k (s.point n).state side
      | .saltLow => (s.measured g n side).deliverSalt (s.point n).state side
      | .softCond => if side = .crossed then (s.measured g n side).markBreakthrough else s.measured g n side
      | .inletCond => s.measured g n side
      | .brineCond => s.measured g n side
      | .none => s.measured g n side := by
  have hpoint : ((s.measured g n side).point n).role = (s.point n).role := by rw [State.point_measured, if_pos rfl]
  unfold State.deliver
  dsimp only
  rw [hpoint, s.roleHolder_measured, h.2, if_neg (by simp [hr])] <;> rfl

/-! ### The accounts of the reservoirs -/

theorem refillChannels_idle {s : State} (h : ∀ c, (s.channel c).state = .idle) (k : ReservoirId) : s.refillChannels k = s :=
  foldl_unchanged fun c _ => if_neg (by simp [h c])

/-- What a change of a level does to its account: the account rewritten, with a report or none. -/
structure LevelSet (m u : State) (k : ReservoirId) (x : Reservoir) (v : State) : Prop where
  frame : m.keepsBut u [.acct, .ports]
  reservoirs : ∀ j : ReservoirId, u.acct.reservoirs[j] = if j = k then x else m.acct.reservoirs[j]
  rest : u.acct.salt = m.acct.salt ∧ u.acct.hardness = m.acct.hardness ∧ u.acct.log = m.acct.log
  ports : u.ports = v.ports

theorem levelSet_set (m : State) (k : ReservoirId) (x : Reservoir) : LevelSet m (m.setReservoir k x) k x m where
  frame := State.keepsBut_mono (m.keepsBut_setReservoir k x) (by decide)
  reservoirs j := upd_get _ _ _ _
  rest := ⟨rfl, rfl, rfl⟩
  ports := rfl

theorem levelSet_posted (m : State) (k : ReservoirId) (x : Reservoir) (e : Event) (a b : Nat) :
    LevelSet m ((m.setReservoir k x).post e a b) k x (m.post e a b) where
  frame := (State.keepsBut_mono (m.keepsBut_setReservoir k x) (by decide)).step (State.keepsBut_post _ _ _ _) (by decide)
  reservoirs j := upd_get _ _ _ _
  rest := ⟨rfl, rfl, rfl⟩
  ports := rfl

theorem levelSet_none (m : State) (k : ReservoirId) : LevelSet m m k m.acct.reservoirs[k] m where
  frame := m.keepsBut_refl _
  reservoirs j := by
    split
    next e => rw [e]
    next => rfl
  rest := ⟨rfl, rfl, rfl⟩
  ports := rfl

end Sys2Proof.Machine

/-! Levels delivered to the accounts (R77 to R85, R133). -/

namespace Sys2Proof.Machine

/-! ### The queue judged for its head, before and after the report -/

theorem takeHead_tells {s : State} {n : PointId} (hi : (s.point n).role ≠ .inletCond) (hb : (s.point n).role ≠ .brineCond)
    (ho : s.saltOut = false) (side : Side) (count : Nat) : s.takeHead.tells n side count = (s.tells n side count).takeHead := by
  have ht := tells_told hi hb side count
  obtain ⟨v, hv⟩ : ∃ v, v = s.tells n side count := ⟨_, rfl⟩
  rw [← hv] at ht ⊢
  have hready : v.headReady = s.headReady := by
    have hm : v.mode = s.mode := ht.frame .mode (by decide)
    simp only [State.headReady, hm, ht.frame.soft, State.latched, ht.frame.prot]
  have hout : v.saltOut = s.saltOut := by simp only [State.saltOut, ht.frame.acct]
  cases hq : s.soft.queue with
  | nil => rw [takeHead_stays (.inl hq), takeHead_stays (.inl (by rw [ht.frame.soft, hq])), hv]
  | cons q rest =>
    cases hr : s.headReady with
    | false => rw [takeHead_stays (.inr (.inl hr)), takeHead_stays (.inr (.inl (hready.trans hr))), hv]
    | true =>
      rw [takeHead_takes hq hr ho, takeHead_takes (by rw [ht.frame.soft, hq]) (hready.trans hr) (hout.trans ho), hv]
      unfold State.tells State.regenAsks
      rw [State.ask_eq, State.ask_eq]
      have hi' : ∀ e a b, ((s.post e a b).point n).role ≠ .inletCond := fun _ _ _ => hi
      have hb' : ∀ e a b, ((s.post e a b).point n).role ≠ .brineCond := fun _ _ _ => hb
      rw [publish_unread (hi' _ _ _) (hb' _ _ _)]
      rw [publish_unread]
      · rfl
      · exact hi
      · exact hb

/-! ### A level that is delivered -/

theorem State.confirms.unread {s : State} {g : GroupId} {count : Nat} {n : PointId} {side : Side} (_h : s.confirms g count n side) {r : Role}
    (hr : (s.point n).role = r) (hi : r ≠ .inletCond) (hb : r ≠ .brineCond) :
    (s.point n).role ≠ .inletCond ∧ (s.point n).role ≠ .brineCond := ⟨hr ▸ hi, hr ▸ hb⟩

/-- A level whose delivery rewrites one account and leaves the rest of the part. -/
theorem level_delivered {s : State} {g : GroupId} {count : Nat} {n : PointId} {side : Side} (h : s.confirms g count n side) (hrest : s.atRest)
    {k : ReservoirId} (hrole : (s.point n).role = .low k ∨ (s.point n).role = .empty k) {x : Reservoir} {u y : State}
    (hL : LevelSet (s.measured g n side) ((s.measured g n side).deliver n (s.point n).state side) k x y) (hy : y.ports = u.ports)
    (hd : u.drive = s.drive) : ∃ t, exec (.measurementEnd g count) s = .next t ∧
      (∀ j : ReservoirId, t.acct.reservoirs[j] = if j = k then x else s.acct.reservoirs[j]) ∧
      t.acct.salt = s.acct.salt ∧ t.acct.hardness = s.acct.hardness ∧ t.acct.log = s.acct.log ∧
      t.ports = (u.post .senseChanged n.val (pointStateCode side.state)).ports ∧ s.keepsBut t [.acct, .ports, .sense] := by
  obtain ⟨m, hm⟩ : ∃ m, m = s.measured g n side := ⟨_, rfl⟩
  obtain ⟨d, hdv⟩ : ∃ d, d = (s.measured g n side).deliver n (s.point n).state side := ⟨_, rfl⟩
  have hi : (s.point n).role ≠ .inletCond := by rcases hrole with e | e <;> simp [e]
  have hb : (s.point n).role ≠ .brineCond := by rcases hrole with e | e <;> simp [e]
  obtain ⟨t, ht, htold, hafter⟩ := measurementEnd_delivers h.1 hi hb hdv
  have km : s.keepsBut m [.sense] := hm ▸ s.keepsBut_measured g n side
  have hmrest : m.atRest := hm ▸ hrest.measured g (by rcases hrole with e | e <;> simp [e]) side
  rw [← hdv, ← hm] at hL
  obtain ⟨kt, hports⟩ := hafter.rests htold (hmrest.frame hL.frame)
  have hacct : t.acct = d.acct := kt.acct
  have kall : s.keepsBut t [.acct, .ports, .sense] :=
    ((State.keepsBut_mono km (by decide)).step hL.frame (by decide)).step kt (by decide)
  refine ⟨t, ht, fun j => ?_, ?_, ?_, ?_, ?_, kall⟩
  · rw [hacct, hL.reservoirs j, km.acct]
  · rw [hacct, hL.rest.1, km.acct]
  · rw [hacct, hL.rest.2.1, km.acct]
  · rw [hacct, hL.rest.2.2, km.acct]
  · rw [hports]
    exact State.ports_post_congr (hL.ports.trans hy) ((hL.frame.drive).trans (km.drive.trans hd.symm)) _ _ _

theorem deliver_level {s : State} {g : GroupId} {count : Nat} {n : PointId} {side : Side} (h : s.confirms g count n side)
    (hidle : ∀ c, (s.channel c).state = .idle) {k : ReservoirId} {a x : Reservoir} {u : State} (ha : a = s.acct.reservoirs[k])
    (hcase : ((s.point n).role = .low k ∧ side = .crossed ∧ x = { a with
          amount := if a.known = true then min a.amount (min s.cfg.resLowmark[k] s.cfg.resFull[k])
            else min s.cfg.resLowmark[k] s.cfg.resFull[k],
          known := true, low := true } ∧ u = s.post .levelLow (k.val + 1) x.amount) ∨
        ((s.point n).role = .low k ∧ side = .clear ∧ (s.point n).state = .crossed ∧
          x = ⟨s.cfg.resFull[k], true, false, false⟩ ∧ u = s.post .reservoirRefilled (k.val + 1) s.cfg.resFull[k]) ∨
        ((s.point n).role = .empty k ∧ side = .crossed ∧ x = { a with amount := 0, known := true, empty := true } ∧
          u = s.post .reservoirEmpty (k.val + 1) 0) ∨
        ((s.point n).role = .empty k ∧ side = .clear ∧ (s.point n).state = .crossed ∧ x = { a with
          amount := min (max a.amount s.cfg.strokeVol[k]) s.cfg.resFull[k], known := true, empty := false } ∧ u = s) ∨
        (side = .clear ∧ (s.point n).state = .unseen ∧ x = a ∧ u = s))
    (hrole : (s.point n).role = .low k ∨ (s.point n).role = .empty k) :
    ∃ y, LevelSet (s.measured g n side) ((s.measured g n side).deliver n (s.point n).state side) k x y ∧ y.ports = u.ports ∧ u.drive = s.drive := by
  have hnone : (s.point n).role ≠ .none := by rcases hrole with e | e <;> simp [e]
  have hdeliver := deliver_held h hnone
  obtain ⟨m, hm⟩ : ∃ m, m = s.measured g n side := ⟨_, rfl⟩
  have km : s.keepsBut m [.sense] := hm ▸ s.keepsBut_measured g n side
  have hpost : ∀ e a b, (m.post e a b).ports = (s.post e a b).ports := fun e a b => State.ports_post_congr km.ports km.drive e a b
  rw [← hm] at hdeliver ⊢
  rw [← km.acct] at ha
  rw [← km.cfg] at hcase
  rcases hcase with ⟨hr, rfl, hx, hu⟩ | ⟨hr, rfl, hold, hx, hu⟩ | ⟨hr, rfl, hx, hu⟩ | ⟨hr, rfl, hold, hx, hu⟩ | ⟨rfl, hold, hx, hu⟩
  · have he : m.lowUncovered k = (m.setReservoir k x).post .levelLow (k.val + 1) x.amount := by
      rw [hx, ha]
      rfl
    rw [hdeliver, hr]
    exact ⟨_, he ▸ levelSet_posted m k x .levelLow (k.val + 1) x.amount, hu ▸ hpost _ _ _, hu ▸ rfl⟩
  · have he : (m.lowCovered k).refillChannels k = (m.setReservoir k x).post .reservoirRefilled (k.val + 1) m.cfg.resFull[k] := by
      rw [refillChannels_idle, hx]
      · rfl
      · intro c
        have hc : (m.lowCovered k).channel c = s.channel c := congrArg (fun v : Vector Channel 4 => v[c]) (congrArg Dose.channels km.dose)
        rw [hc]
        exact hidle c
    rw [hdeliver, hr, hold]
    exact ⟨_, he ▸ levelSet_posted m k x .reservoirRefilled (k.val + 1) m.cfg.resFull[k], hu ▸ hpost _ _ _, hu ▸ rfl⟩
  · have he : m.emptyUncovered k = (m.setReservoir k x).post .reservoirEmpty (k.val + 1) 0 := by
      rw [hx, ha]
      rfl
    rw [hdeliver, hr]
    exact ⟨_, he ▸ levelSet_posted m k x .reservoirEmpty (k.val + 1) 0, hu ▸ hpost _ _ _, hu ▸ rfl⟩
  · have he : m.emptyCovered k = m.setReservoir k x := by
      rw [hx, ha]
      rfl
    rw [hdeliver, hr, hold]
    exact ⟨_, he ▸ levelSet_set m k x, hu ▸ km.ports, hu ▸ rfl⟩
  · have he : LevelSet m m k x m := by
      rw [hx, ha]
      exact levelSet_none m k
    refine ⟨m, ?_, hu ▸ km.ports, hu ▸ rfl⟩
    rw [hdeliver]
    rcases hrole with e | e <;> rw [e, hold] <;> exact he

/-! ### The account of the salt -/

/-- The account of the salt rewritten and reported, before the queue is judged for its head. -/
def State.saltTaken (s : State) (x : Salt) (e : Event) (a : Nat) : State := ((s.setSalt x).saltReported).post e 0 a

theorem State.keepsBut_saltTaken (s : State) (x : Salt) (e : Event) (a : Nat) : s.keepsBut (s.saltTaken x e a) [.acct, .soft, .ports] :=
  ((State.keepsBut_mono (s.keepsBut_withAcct _) (by decide)).step (State.keepsBut_saltReported _) (by decide)).step
    (State.keepsBut_post _ _ _ _) (by decide)

theorem saltTaken_gone {s : State} {x : Salt} (hk : x.known = true) (ha : x.amount = 0) (e : Event) (a : Nat) :
    s.saltTaken x e a = (s.setSalt x).post e 0 a := by
  unfold State.saltTaken State.saltReported
  rw [if_pos]
  simp [State.setSalt, hk, ha]

theorem saltTaken_left {s : State} {x : Salt} (ha : x.amount ≠ 0) (e : Event) (a : Nat) :
    s.saltTaken x e a = ({ s.setSalt x with soft := { s.soft with saltWait := false } } : State).post e 0 a := by
  unfold State.saltTaken State.saltReported
  rw [if_neg]
  · rfl
  · simp [State.setSalt, ha]

theorem deliver_salt {s : State} {g : GroupId} {count : Nat} {n : PointId} {side : Side} (h : s.confirms g count n side)
    (hrole : (s.point n).role = .saltLow) {x : Salt} {u : State}
    (hcase : (side = .crossed ∧ x = ⟨if s.acct.salt.known = true then min s.acct.salt.amount (min s.cfg.saltLowmark s.cfg.saltFull)
            else min s.cfg.saltLowmark s.cfg.saltFull, true, true⟩ ∧ u = s.post .saltLow 0 x.amount) ∨
        (side = .clear ∧ (s.point n).state = .crossed ∧ x = ⟨s.cfg.saltFull, true, false⟩ ∧
          u = s.post .saltRefilled 0 s.cfg.saltFull)) : x.known = true ∧ ∃ e a, u = s.post e 0 a ∧
      (s.measured g n side).deliver n (s.point n).state side = ((s.measured g n side).saltTaken x e a).takeHead := by
  have hdeliver := deliver_held h (by simp [hrole])
  rw [hrole] at hdeliver
  obtain ⟨m, hm⟩ : ∃ m, m = s.measured g n side := ⟨_, rfl⟩
  have km : s.keepsBut m [.sense] := hm ▸ s.keepsBut_measured g n side
  rw [← hm] at hdeliver ⊢
  rw [← km.cfg, ← km.acct] at hcase
  rcases hcase with ⟨rfl, hx, hu⟩ | ⟨rfl, hold, hx, hu⟩
  · refine ⟨hx ▸ rfl, _, _, hu, hdeliver.trans ?_⟩
    rw [hx]
    rfl
  · refine ⟨hx ▸ rfl, _, _, hu, hdeliver.trans ?_⟩
    rw [hx, hold]
    rfl

/-- With the salt gone the queue begins at most a wait for salt, reported. -/
theorem State.keepsBut_takeHead_out {s : State} (ho : s.saltOut = true) : s.keepsBut s.takeHead [.soft, .ports] := by
  unfold State.takeHead
  split
  · exact s.keepsBut_refl _
  · rw [ho]
    refine .ite _ ?_ (s.keepsBut_refl _)
    rw [if_pos rfl]
    exact .ite _ (s.keepsBut_refl _) ((State.keepsBut_mono (s.keepsBut_withSoft _) (by decide)).step (State.keepsBut_post _ _ _ _) (by decide))

theorem levelsDelivered : Clauses.LevelsDelivered := by
  intro s g count n side h hrest hidle
  refine ⟨fun k hrole a x u ha hcase => ?_, fun hrole hs hold => ?_, fun hrole x u hcase => ?_⟩
  · obtain ⟨y, hL, hy, hd⟩ := deliver_level h hidle ha hcase hrole
    exact level_delivered h hrest hrole hL hy hd
  · have hdeliver := deliver_held h (by simp [hrole])
    rw [hrole, hs, hold] at hdeliver
    obtain ⟨t, ht, htold, hafter⟩ := measurementEnd_delivers h.1 (by simp [hrole]) (by simp [hrole]) rfl
    obtain ⟨m, hm⟩ : ∃ m, m = s.measured g n side := ⟨_, rfl⟩
    have km : s.keepsBut m [.sense] := hm ▸ s.keepsBut_measured g n side
    have hmrest : m.atRest := hm ▸ hrest.measured g (by simp [hrole]) side
    have he : (s.measured g n side).deliver n (s.point n).state side = m := by
      rw [hs, hold, hdeliver, hm, hs]
      rfl
    rw [he] at htold hafter
    obtain ⟨kt, hports⟩ := hafter.rests htold hmrest
    exact ⟨t, ht, kt.acct.trans km.acct, hports.trans (State.ports_post_congr km.ports km.drive _ _ _),
      (State.keepsBut_mono km (by decide)).step kt (by decide)⟩
  · obtain ⟨hknown, e, a, hu, hdeliver⟩ := deliver_salt h hrole hcase
    obtain ⟨t, ht, htold, hafter⟩ := measurementEnd_delivers h.1 (by simp [hrole]) (by simp [hrole]) rfl
    obtain ⟨m, hm⟩ : ∃ m, m = s.measured g n side := ⟨_, rfl⟩
    have km : s.keepsBut m [.sense] := hm ▸ s.keepsBut_measured g n side
    have hmrest : m.atRest := hm ▸ hrest.measured g (by simp [hrole]) side
    have hmrole : (m.point n).role = .saltLow := by rw [hm, State.point_measured, if_pos rfl, hrole]
    rw [← hm] at hdeliver htold hafter
    obtain ⟨d, hd⟩ : ∃ d, d = m.saltTaken x e a := ⟨_, rfl⟩
    have kd : m.keepsBut d [.acct, .soft, .ports] := hd ▸ m.keepsBut_saltTaken x e a
    rw [hdeliver, ← hd] at htold hafter
    refine ⟨fun h0 => ⟨t, ht, ?_⟩, fun h0 => ?_⟩
    · have hd' : d = (m.setSalt x).post e 0 a := hd.trans (saltTaken_gone hknown h0 e a)
      have hout : d.saltOut = true := by
        rw [hd']
        simp [State.saltOut, State.post, State.setSalt, hknown, h0]
      have kh := State.keepsBut_takeHead_out hout
      have hdports : d.ports = u.ports := by
        rw [hd', hu]
        exact State.ports_post_congr km.ports km.drive _ _ _
      have hdsoft : d.soft = s.soft := by
        rw [hd']
        exact km.soft
      obtain ⟨kt, hports⟩ := hafter.rests htold ((hmrest.frame kd).frame kh)
      have hacct : t.acct = { s.acct with salt := x } := by
        rw [kt.acct, kh.acct, hd', ← km.acct]
        rfl
      have hdrive : d.drive = u.drive := by
        rw [kd.drive, km.drive, hu]
        rfl
      have kall : s.keepsBut t [.acct, .soft, .ports, .sense] :=
        (((State.keepsBut_mono km (by decide)).step kd (by decide)).step kh (by decide)).step kt (by decide)
      have hmode : d.mode = s.mode := (kd .mode (by decide)).trans (km .mode (by decide))
      have hlatched : d.latched = s.latched := by simp only [State.latched, kd.prot, km.prot]
      refine ⟨hacct, fun hstays => ?_, fun q rest hq hrun hregen hl hw => ?_, kall⟩
      · have hsame : d.takeHead = d := by
          refine takeHead_stays ?_
          rw [hdsoft]
          rcases hstays with c | c | c | c | c
          · exact .inl c
          · exact .inr (.inl (by simp [State.headReady, hmode, c]))
          · exact .inr (.inl (by simp [State.headReady, hdsoft, Option.isNone_iff_eq_none, c]))
          · exact .inr (.inl (by simp [State.headReady, hlatched, c]))
          · exact .inr (.inr ⟨hout, c⟩)
        rw [kt.soft, hports, hsame, hdsoft]
        exact ⟨rfl, State.ports_post_congr hdports hdrive _ _ _⟩
      · have hready : d.headReady = true := by simp [State.headReady, hmode, hrun, hdsoft, hregen, hq, hlatched, hl]
        have hwaits := takeHead_waits (hdsoft ▸ hq) hready hout (hdsoft ▸ hw)
        rw [kt.soft, hports, hwaits]
        refine ⟨by rw [← hdsoft]; rfl, ?_⟩
        exact State.ports_post_congr (State.ports_post_congr hdports hdrive _ _ _) hdrive _ _ _
    · have hd' : d = ({ m.setSalt x with soft := { m.soft with saltWait := false } } : State).post e 0 a := hd.trans (saltTaken_left h0 e a)
      have hout : d.saltOut = false := by
        rw [hd']
        simp [State.saltOut, State.post, State.setSalt, h0]
      have hdrole : (d.point n).role = .saltLow := by rw [State.point_congr kd.sense, hmrole]
      have hi : (d.point n).role ≠ .inletCond := by simp [hdrole]
      have hb : (d.point n).role ≠ .brineCond := by simp [hdrole]
      have hv := tells_told hi hb side count
      have hhead := ((hv.atRest (hmrest.frame kd))).headJudged
      rw [← takeHead_tells hi hb hout] at hhead
      refine ⟨d.tells n side count, _, t, ht, hhead, hafter.after, ?_, ?_, ?_, ?_⟩
      · rw [hv.frame.acct, hd', ← km.acct]
        rfl
      · rw [hv.frame.soft, hd', ← km.soft]
        rfl
      · rw [hv.ports]
        refine State.ports_post_congr ?_ ?_ _ _ _
        · rw [hd', hu]
          exact State.ports_post_congr km.ports km.drive _ _ _
        · rw [kd.drive, km.drive, hu]
          rfl
      · exact ((State.keepsBut_mono km (by decide)).step kd (by decide)).step hv.frame (by decide)

end Sys2Proof.Machine

/-! Results of the conductivity points (R56, R67, R87, R133). -/

namespace Sys2Proof.Machine

/-! ### A point whose change nobody takes -/

/-- A change of a point that holds no role an owner takes changes from. -/
theorem deliver_untaken {s : State} {n : PointId} (h : (s.point n).role = .none ∨ s.roleHolder (s.point n).role ≠ some n ∨
    (s.point n).role = .inletCond ∨ (s.point n).role = .brineCond) (old : PointState) (side : Side) : s.deliver n old side = s := by
  unfold State.deliver
  dsimp only
  by_cases hn : (s.point n).role = .none ∨ s.roleHolder (s.point n).role ≠ some n
  · exact if_pos hn
  · rw [if_neg hn]
    rcases h with e | e | e | e
    · exact absurd (.inl e) hn
    · exact absurd (.inr e) hn
    · rw [e]
    · rw [e]

/-- Water present is read from the first holder of TANK_MIN alone (R34). -/
theorem waterPresent_of_points {s t : State} {n : PointId} (hr : ∀ m, (t.point m).role = (s.point m).role)
    (hs : ∀ m, m ≠ n → (t.point m).state = (s.point m).state) (hn : s.roleHolder .tankMin ≠ some n) : t.waterPresent = s.waterPresent := by
  have hholder : t.roleHolder .tankMin = s.roleHolder .tankMin := by
    have hrole : ∀ m : PointId, t.sense.points[m].role = s.sense.points[m].role := hr
    simp only [State.roleHolder, hrole]
  unfold State.waterPresent
  rw [hholder]
  split
  next q hq => rw [point_get, point_get, hs q fun e => hn (e ▸ hq)]
  next => rfl

theorem State.atRest.ofPoints {s t : State} {l : List Block} {n : PointId} (h : s.atRest) (k : s.keepsBut t l)
    (hr : ∀ m, (t.point m).role = (s.point m).role) (hs : ∀ m, m ≠ n → (t.point m).state = (s.point m).state)
    (hn : s.roleHolder .tankMin ≠ some n) (hl : ∀ b ∈ [Block.arb, .door, .water], b ∉ l := by decide) : t.atRest := by
  have hw := k.water (hl _ (by decide))
  have hd := k.door (hl _ (by decide))
  have he := fun r => k.entry r (hl _ (by decide))
  refine ⟨fun r => ?_, ?_⟩
  · rw [he]
    exact h.1 r
  · rw [hw, h.2]
    simp only [State.interlockMet, State.interlockConditions, waterPresent_of_points hr hs hn, State.doorClosed, he .circ, hd, hw]

theorem roleHolder_ne {s : State} {n : PointId} {r : Role} (h : (s.point n).role ≠ r) : s.roleHolder r ≠ some n := fun e => h (roleHolder_role e)

/-- A confirmed change that no owner takes. -/
theorem change_untaken {s : State} {g : GroupId} {count : Nat} {n : PointId} {side : Side} (h : s.changes g count n side) (hrest : s.atRest)
    (hn : (s.point n).role = .none ∨ s.roleHolder (s.point n).role ≠ some n) (hi : (s.point n).role ≠ .inletCond)
    (hb : (s.point n).role ≠ .brineCond) : ∃ t, exec (.measurementEnd g count) s = .next t ∧
      t.ports = (s.post .senseChanged n.val (pointStateCode side.state)).ports ∧ s.keepsBut t [.ports, .sense] := by
  obtain ⟨m, hm⟩ : ∃ m, m = s.measured g n side := ⟨_, rfl⟩
  have km : s.keepsBut m [.sense] := hm ▸ s.keepsBut_measured g n side
  have hpoint : ∀ q, m.point q = if q = n then { s.point n with inFault := false, state := side.state, candidate := none, run := 0 } else s.point q :=
    fun q => by rw [hm, State.point_measured]
  have hrole : ∀ q, (m.point q).role = (s.point q).role := fun q => by
    rw [hpoint]
    split
    next e => rw [e]
    next => rfl
  have hmrest : m.atRest := by
    refine hrest.ofPoints (n := n) km hrole (fun q hq => by rw [hpoint, if_neg hq]) fun c => ?_
    have hr := roleHolder_role c
    rcases hn with e | e
    · rw [e] at hr
      cases hr
    · rw [hr] at e
      exact e c
  have hd : (s.measured g n side).deliver n (s.point n).state side = m := by
    rw [← hm]
    refine deliver_untaken ?_ _ _
    rw [hrole, hm, State.roleHolder_measured]
    exact hn.imp_right .inl
  obtain ⟨t, ht, htold, hafter⟩ := measurementEnd_delivers h hi hb hd.symm
  obtain ⟨kt, hports⟩ := hafter.rests htold hmrest
  exact ⟨t, ht, hports.trans (State.ports_post_congr km.ports km.drive _ _ _), (State.keepsBut_mono km (by decide)).step kt (by decide)⟩

/-! ### SOFT_COND -/

theorem State.keepsBut_markBreakthrough (s : State) : s.keepsBut s.markBreakthrough [.soft] := by
  unfold State.markBreakthrough
  split
  · exact .ite _ (s.keepsBut_setColumn _ _) (s.keepsBut_refl _)
  · exact s.keepsBut_refl _

theorem State.fillAt_congr {s t : State} (h : t.pool = s.pool) (i : SlotId) : t.fillAt i = s.fillAt i := by
  unfold State.fillAt
  rw [h]

theorem flowingFill_of {s t : State} (he : t.entry .inlet = s.entry .inlet) (hp : t.pool = s.pool) : t.flowingFill = s.flowingFill := by
  unfold State.flowingFill
  simp only [he, State.fillAt_congr hp]

theorem softCond_delivered {s : State} {g : GroupId} {count : Nat} {n : PointId} {side : Side} (h : s.confirms g count n side) (hrest : s.atRest)
    (hrole : (s.point n).role = .softCond) : ∃ t, exec (.measurementEnd g count) s = .next t ∧
      (∀ i, side = .crossed → s.flowingFill = some i → (s.column s.arb.selHeld).state = .inService →
        (s.column s.arb.selHeld).breakthrough = none →
        t.column s.arb.selHeld = { s.column s.arb.selHeld with breakthrough := some i } ∧
        t.column (Column.other s.arb.selHeld) = s.column (Column.other s.arb.selHeld)) ∧
      ((side = .clear ∨ s.flowingFill = none ∨ (s.column s.arb.selHeld).state ≠ .inService ∨
        (s.column s.arb.selHeld).breakthrough ≠ none) → t.soft = s.soft) ∧
      t.ports = (s.post .senseChanged n.val (pointStateCode side.state)).ports ∧ s.keepsBut t [.soft, .ports, .sense] := by
  obtain ⟨m, hm⟩ : ∃ m, m = s.measured g n side := ⟨_, rfl⟩
  have km : s.keepsBut m [.sense] := hm ▸ s.keepsBut_measured g n side
  have hmrest : m.atRest := hm ▸ hrest.measured g (by simp [hrole]) side
  have hdeliver := deliver_held h (by simp [hrole])
  rw [hrole, ← hm] at hdeliver
  obtain ⟨d, hd⟩ : ∃ d, d = if side = .crossed then m.markBreakthrough else m := ⟨_, rfl⟩
  have kd : m.keepsBut d [.soft] := hd ▸ .ite _ m.keepsBut_markBreakthrough (m.keepsBut_refl _)
  obtain ⟨t, ht, htold, hafter⟩ := measurementEnd_delivers h.1 (by simp [hrole]) (by simp [hrole]) (u := d) (by rw [← hm, hdeliver, hd])
  obtain ⟨kt, hports⟩ := hafter.rests htold (hmrest.frame kd)
  have hflow : m.flowingFill = s.flowingFill := flowingFill_of (km.entry .inlet) km.pool
  have hsel : m.arb.selHeld = s.arb.selHeld := by rw [km.arb]
  have hcol : ∀ c, m.column c = s.column c := fun c => by
    unfold State.column
    rw [km.soft]
  refine ⟨t, ht, fun i hs hf hst hbr => ?_, fun hno => ?_, hports.trans (State.ports_post_congr ?_ ?_ _ _ _),
    ((State.keepsBut_mono km (by decide)).step kd (by decide)).step kt (by decide)⟩
  · have hmark : d = m.setColumn s.arb.selHeld { s.column s.arb.selHeld with breakthrough := some i } := by
      rw [hd, if_pos hs]
      unfold State.markBreakthrough
      rw [hflow, hf]
      dsimp only
      rw [hsel, hcol, if_pos (by simp [hst, hbr])]
    have hct : ∀ c, t.column c = d.column c := fun c => by
      unfold State.column
      rw [kt.soft]
    rw [hct, hct, hmark, State.column_setColumn, State.column_setColumn, if_pos rfl, if_neg (by cases s.arb.selHeld <;> simp [Column.other]), hcol]
    exact ⟨rfl, rfl⟩
  · have hsame : d = m := by
      rw [hd]
      split
      next hs =>
        unfold State.markBreakthrough
        rw [hflow]
        split
        next i hi =>
          dsimp only
          rw [hsel, hcol, if_neg]
          rcases hno with e | e | e | e
          · rw [hs] at e
            cases e
          · rw [hi] at e
            cases e
          · simp [e]
          · simp [e]
        next => rfl
      next => rfl
    rw [kt.soft, hsame, km.soft]
  · rw [kd.ports, km.ports]
  · rw [kd.drive, km.drive]

end Sys2Proof.Machine

/-! Results of BRINE_COND and INLET_COND (R67, R87). -/

namespace Sys2Proof.Machine

/-! ### A result of a point that no owner takes changes from -/

theorem State.keepsBut_noteQuality (s : State) (p : PointId) (count : Nat) (q : Quality) : s.keepsBut (s.noteQuality p count q) [.ports, .sense, .prot] := by
  unfold State.noteQuality
  dsimp only
  have h := State.keepsBut_mono (s.keepsBut_setPoint p { s.point p with inFault := q == .fault }) (by decide : _ ⊆ [Block.ports, .sense, .prot])
  exact .ite _ (h.step (State.keepsBut_fault _ _ _ _) (by decide)) h

theorem State.keepsBut_compare_unread {s : State} {p : PointId} (h : (s.point p).role = .inletCond ∨ (s.point p).role = .brineCond)
    (count : Nat) (q : Quality) : s.keepsBut (s.compare p count q) [.ports, .sense] := by
  have hset : ∀ x, s.keepsBut (s.setPoint p x) [.ports, .sense] := fun x => State.keepsBut_mono (s.keepsBut_setPoint p x) (by decide)
  cases q with
  | disturbed => exact s.keepsBut_refl _
  | fault => exact hset _
  | valid =>
    rw [compare_valid]
    refine .ite _ (hset _) (.ite _ ?_ (hset _))
    unfold State.confirm
    dsimp only
    rw [deliver_untaken]
    · exact (hset _).step (State.keepsBut_post _ _ _ _) (by decide)
    · rw [State.point_setPoint_self]
      exact .inr (.inr h)

theorem State.keepsBut_judged_unread {s : State} {m : Measurement} (h : (s.point m.point).role = .inletCond ∨ (s.point m.point).role = .brineCond)
    (g : GroupId) (r : Round) (count : Nat) : s.keepsBut (s.judged g m r count) [.ports, .sense, .prot] := by
  have hn := (State.keepsBut_mono (s.keepsBut_setGroup g { s.group g with measuring := none }) (by decide)).step
    (State.keepsBut_noteQuality (s.unmeasured g) m.point count (quality m count)) (by decide : _ ⊆ [Block.ports, .sense, .prot])
  have hrole : (((s.unmeasured g).noteQuality m.point count (quality m count)).point m.point).role = (s.point m.point).role := by
    rw [point_noteQuality, if_pos rfl]
    rfl
  unfold State.judged
  exact .ite _ (hn.step (State.keepsBut_compare_unread (hrole ▸ h) _ _) (by decide)) hn

theorem publish_brine {s : State} {p : PointId} (h : (s.point p).role = .brineCond) (count : Nat) (q : Quality) :
    s.publish p count q = if q = .valid then (s.shown p count q).brineReading else s.shown p count q := by
  have hrole : ((s.shown p count q).point p).role = .brineCond := by
    unfold State.shown
    rw [State.point_setGroup, State.point_setPoint_self, ← h]
  unfold State.publish
  unfold State.shown at hrole
  dsimp only at hrole ⊢
  rw [hrole]
  rfl

theorem publish_inlet {s : State} {p : PointId} (h : (s.point p).role = .inletCond) (count : Nat) (q : Quality) :
    s.publish p count q = (s.shown p count q).hardnessReading count q := by
  have hrole : ((s.shown p count q).point p).role = .inletCond := by
    unfold State.shown
    rw [State.point_setGroup, State.point_setPoint_self, ← h]
  unfold State.publish
  unfold State.shown at hrole
  dsimp only at hrole ⊢
  rw [hrole]
  rfl

theorem State.keepsBut_shown (s : State) (p : PointId) (count : Nat) (q : Quality) : s.keepsBut (s.shown p count q) [.sense] :=
  (s.keepsBut_setPoint _ _).step (State.keepsBut_setGroup _ _ _) (by decide)

theorem Point.role_compared (x : Point) (count : Nat) (q : Quality) : (x.compared count q).role = x.role := by
  unfold Point.compared
  split
  · rfl
  · rfl
  · split
    · rfl
    · split <;> rfl

theorem Point.role_measured (x : Point) (m : Measurement) (r : Round) (count : Nat) : (x.measured m r count).role = x.role := by
  unfold Point.measured
  dsimp only
  split
  · split
    · exact Point.role_compared _ _ _
    · rfl
  · split
    · exact Point.role_compared _ _ _
    · rfl

theorem role_judged (s : State) (g : GroupId) (m : Measurement) (r : Round) (count : Nat) :
    ((s.judged g m r count).point m.point).role = (s.point m.point).role := by
  unfold State.judged
  split
  · rw [point_compare, if_pos rfl, Point.role_compared, point_noteQuality, if_pos rfl]
    rfl
  · rw [point_noteQuality, if_pos rfl]
    rfl

/-- A result that is published at once, of a point whose result leaves the table, the door and the water path. -/
theorem result_rests {s : State} {g : GroupId} {count : Nat} {m : Measurement} {r : Round} {l : List Block} (hm : (s.group g).measuring = some m)
    (hr : (s.group g).round = some r) (hv : m.voided = false) (hp : r.mode ≠ .periodic) (hrest : s.atRest)
    (hrole : (s.point m.point).role ≠ .tankMin) (k : s.keepsBut (s.resultTaken g m r count) l)
    (hl : ∀ b ∈ [Block.arb, .door, .water], b ∉ l := by decide) :
    ∃ t, exec (.measurementEnd g count) s = .next t ∧ (s.resultTaken g m r count).keepsBut t [.sense] := by
  have hpoint := point_resultTaken s g m r count
  have hrest' : (s.resultTaken g m r count).atRest := by
    refine hrest.ofPoints (n := m.point) k (fun q => ?_) (fun q hq => by rw [hpoint, if_neg hq]) (roleHolder_ne hrole) hl
    rw [hpoint]
    split
    next e => rw [Point.role_measured, e]
    next => rfl
  have hround : ∀ x, ((s.resultTaken g m r count).group g).round = some x → ¬(x.own = true ∧ x.mode = .periodic) := fun x hx => by
    have hg := group_rested (m := m) count hr
    rw [State.rested, hrest'.settle] at hg
    rw [hg, Group.round_took hr] at hx
    cases hx
    exact fun c => hp c.2
  refine ⟨_, exec_measurementEnd hm hr hv count, ?_⟩
  rw [hrest'.settle]
  exact State.keepsBut_nextMeasurement hround

/-! ### BRINE_COND -/

theorem brineCond_taken {s : State} {g : GroupId} {count : Nat} {m : Measurement} {r : Round} (hrest : s.atRest) (hm : (s.group g).measuring = some m)
    (hr : (s.group g).round = some r) (hv : m.voided = false) (hp : r.mode ≠ .periodic) (hrole : (s.point m.point).role = .brineCond) :
    ∃ t, exec (.measurementEnd g count) s = .next t ∧
      (∀ x, s.soft.regen = some x → x.phase = .soak → quality m count = .valid →
        t.soft = { s.soft with regen := some { x with brineSeen := true } }) ∧
      ((quality m count ≠ .valid ∨ ∀ x, s.soft.regen = some x → x.phase ≠ .soak) → t.soft = s.soft) ∧
      s.keepsBut t [.soft, .ports, .sense, .prot] := by
  obtain ⟨j, hj⟩ : ∃ j, j = s.judged g m r count := ⟨_, rfl⟩
  obtain ⟨y, hy⟩ : ∃ y, y = j.shown m.point count (quality m count) := ⟨_, rfl⟩
  have kj : s.keepsBut j [.ports, .sense, .prot] := hj ▸ State.keepsBut_judged_unread (.inr hrole) g r count
  have ky : j.keepsBut y [.sense] := hy ▸ j.keepsBut_shown _ _ _
  have hjrole : (j.point m.point).role = .brineCond := by rw [hj, role_judged, hrole]
  have htaken : s.resultTaken g m r count = if quality m count = .valid then y.brineReading else y := by
    rw [resultTaken_eq, if_neg fun c => hp c.2, ← hj, publish_brine hjrole, ← hy]
  have hsoft : y.soft = s.soft := ky.soft.trans kj.soft
  have kr : s.keepsBut (s.resultTaken g m r count) [.soft, .ports, .sense, .prot] := by
    rw [htaken]
    have h := (State.keepsBut_mono kj (by decide : _ ⊆ [Block.soft, .ports, .sense, .prot])).step ky (by decide)
    exact .ite _ (h.step y.keepsBut_brineReading (by decide)) h
  obtain ⟨t, ht, kt⟩ := result_rests hm hr hv hp hrest (by simp [hrole]) kr
  refine ⟨t, ht, fun x hx hph hval => ?_, fun hno => ?_, kr.step kt (by decide)⟩
  · rw [kt.soft, htaken, if_pos hval]
    unfold State.brineReading
    rw [hsoft, hx]
    dsimp only
    rw [if_pos hph, ← hsoft]
    rfl
  · rw [kt.soft, htaken]
    split
    next hval =>
      have hphase := hno.resolve_left (not_not_intro hval)
      unfold State.brineReading
      rw [hsoft]
      split
      next x hx => rw [if_neg (hphase x hx), hsoft]
      next => exact hsoft
    next => exact hsoft

theorem conductivityDelivered : Clauses.ConductivityDelivered := by
  intro s g count n hrest
  refine ⟨fun side v h hv => ⟨fun hholder hrole => ?_, fun hn hi hb => ?_⟩, fun m r hm hr hvoid hn hp hrole => ?_⟩
  · subst hv
    exact softCond_delivered ⟨h, hrole.symm ▸ hholder⟩ hrest hrole
  · subst hv
    exact change_untaken h hrest hn hi hb
  · subst hn
    exact brineCond_taken hrest hm hr hvoid hp hrole

/-! ### INLET_COND -/

theorem strictlyRising_pairwise : ∀ {l : List Nat}, strictlyRising l = true → l.Pairwise (· < ·)
  | [], _ => .nil
  | [_], _ => List.pairwise_singleton _ _
  | a :: b :: l, h => by
    unfold strictlyRising at h
    rw [Bool.and_eq_true, decide_eq_true_eq] at h
    have hp := strictlyRising_pairwise h.2
    refine List.pairwise_cons.mpr ⟨fun x hx => ?_, hp⟩
    rcases List.mem_cons.mp hx with rfl | hx
    · exact h.1
    · exact h.1.trans ((List.pairwise_cons.mp hp).1 x hx)

/-- The first band at or above the count, of a table that rises, or the last of one below it (R87). -/
theorem bandGives_of {l : List (Nat × Nat)} {x v : Nat}
    (h : ((∃ b ∈ l, x ≤ b.1 ∧ v = b.2 ∧ ∀ b' ∈ l, b'.1 < b.1 → b'.1 < x) ∧ strictlyRising (l.map (·.1)) = true) ∨
      ((∀ b ∈ l, b.1 < x) ∧ ∃ b, l.getLast? = some b ∧ v = b.2)) : bandGives l x v := by
  rcases h with ⟨⟨b, hb, hx, hv, hfirst⟩, hrise⟩ | ⟨hall, b, hlast, hv⟩
  · refine ⟨b, ?_, hv⟩
    have hpair := List.pairwise_map.mp (strictlyRising_pairwise hrise)
    obtain ⟨c, hc⟩ : ∃ c, l.find? (fun y => decide (x ≤ y.1)) = some c :=
      Option.isSome_iff_exists.mp (List.find?_isSome.mpr ⟨b, hb, decide_eq_true hx⟩)
    obtain ⟨hcx, as, bs, hl, hbefore⟩ := List.find?_eq_some_iff_append.mp hc
    have hcb : c = b := by
      rw [hl] at hb hpair hfirst
      rcases List.mem_append.mp hb with ha | ha
      · exact absurd (hbefore b ha) (by simp [hx])
      · rcases List.mem_cons.mp ha with e | ha
        · exact e.symm
        · have hlt : c.1 < b.1 := (List.pairwise_cons.mp (List.pairwise_append.mp hpair).2.1).1 b ha
          have := hfirst c (List.mem_append_right _ List.mem_cons_self) hlt
          have := of_decide_eq_true hcx
          omega
    rw [hc, hcb]
    rfl
  · refine ⟨b, ?_, hv⟩
    have hnone : l.find? (fun y => decide (x ≤ y.1)) = none :=
      List.find?_eq_none.mpr fun y hy => by simpa using hall y hy
    rw [hnone]
    exact hlast

theorem State.ports_setHardness (s : State) (h : Nat) :
    (s.setHardness h true).ports = if s.acct.hardness = h then s.ports else (s.post .hardnessChanged 1 h).ports := by
  unfold State.setHardness
  by_cases e : s.acct.hardness = h
  · simp [e]
  · simp only [bne_iff_ne, ne_eq, e, not_false_eq_true, if_true, if_false]
    rfl

theorem State.acct_setHardness (s : State) (h : Nat) : (s.setHardness h true).acct = { s.acct with hardness := h, sensed := true } := by
  unfold State.setHardness
  dsimp only
  split <;> rfl

theorem hardnessSensed : Clauses.HardnessSensed := by
  intro s g count h m r hm hr hv hdist hmode h0 h1 hrole hrest hcfg hflow htable hband
  obtain ⟨j, hj⟩ : ∃ j, j = s.judged g m r count := ⟨_, rfl⟩
  have hp : r.mode ≠ .periodic := by rcases hmode with e | e <;> simp [e]
  have hq : quality m count = .valid := by simp [quality, hdist, h0, h1]
  have hcompared : r.mode.compared = true := by rcases hmode with e | e <;> rw [e] <;> rfl
  obtain ⟨x, hx⟩ : ∃ x, x = (s.unmeasured g).setPoint m.point { s.point m.point with inFault := false } := ⟨_, rfl⟩
  have hxp : x.point m.point = { s.point m.point with inFault := false } := by rw [hx, State.point_setPoint_self]
  have hjx : j = x.compare m.point count .valid := by
    rw [hj, hx]
    unfold State.judged
    rw [hcompared, if_pos rfl, hq, noteQuality_sound]
    rfl
  have kx : s.keepsBut x [.sense] := hx ▸ (s.keepsBut_setGroup _ _).step (State.keepsBut_setPoint _ _ _) (by decide)
  have kj : s.keepsBut j [.ports, .sense] := by
    rw [hjx]
    exact (State.keepsBut_mono kx (by decide)).step (State.keepsBut_compare_unread (.inl (by rw [hxp]; exact hrole)) _ _) (by decide)
  have hjrole : (j.point m.point).role = .inletCond := by rw [hj, role_judged, hrole]
  obtain ⟨y, hy⟩ : ∃ y, y = j.shown m.point count .valid := ⟨_, rfl⟩
  have ky : j.keepsBut y [.sense] := hy ▸ j.keepsBut_shown _ _ _
  have kall : s.keepsBut y [.ports, .sense] := kj.step ky (by decide)
  have hflow' : y.flowingFill = s.flowingFill := flowingFill_of (kall.entry .inlet) kall.pool
  have hreading : y.hardnessReading count .valid = y.setHardness h true := by
    have hany : s.cfg.hardnessTable.any (fun b => b.1 != 0) = true :=
      List.any_eq_true.mpr (htable.imp fun b hb => ⟨hb.1, by simpa using hb.2⟩)
    have hlookup : bandLookup count s.cfg.hardnessTable = h := bandLookup_of_gives (bandGives_of hband)
    unfold State.hardnessReading
    rw [kall.cfg, hflow', hlookup]
    exact if_pos (by simp [hcfg, hany, Option.isSome_iff_ne_none.mpr hflow])
  have htaken : s.resultTaken g m r count = y.setHardness h true := by
    rw [resultTaken_eq, if_neg fun c => hp c.2, ← hj, hq, publish_inlet hjrole, ← hy, hreading]
  have kh : y.keepsBut (y.setHardness h true) [.acct, .ports] := hreading ▸ y.keepsBut_hardnessReading count .valid
  have kr : s.keepsBut (s.resultTaken g m r count) [.acct, .ports, .sense] := by
    rw [htaken]
    exact (State.keepsBut_mono kall (by decide)).step kh (by decide)
  obtain ⟨t, ht, kt⟩ := result_rests hm hr hv hp hrest (by simp [hrole]) kr
  refine ⟨t, ht, ?_, fun v hv1 hv2 => ?_, kr.step kt (by decide)⟩
  · rw [kt.acct, htaken, State.acct_setHardness, kall.acct]
  · have hsame : (compareCount (x.point m.point) count).state = (x.point m.point).state := by
      rw [hxp]
      exact hv1.symm.trans hv2
    have hjports : j.ports = s.ports := by
      rw [hjx, compare_valid, if_pos hsame]
      exact kx.ports
    have hyports : y.ports = s.ports := ky.ports.trans hjports
    rw [kt.ports, htaken, State.ports_setHardness, kall.acct]
    split
    · exact hyports
    · exact State.ports_post_congr hyports kall.drive _ _ _

end Sys2Proof.Machine

/-! Releases in a part where nobody waits, and the entries that they leave (R4, R18). -/

namespace Sys2Proof.Machine

/-! ### Calm parts -/

theorem State.calm.ofEntries {s t : State} (h : s.calm) (he : ∀ q, t.entry q = s.entry q) : t.calm := fun q => by
  rw [he]
  exact h q

theorem State.calm.frame {s t : State} {l : List Block} (h : s.calm) (k : s.keepsBut t l) (ha : Block.arb ∉ l := by decide) : t.calm :=
  h.ofEntries fun q => k.entry q ha

theorem State.calm.putEntry {s : State} (h : s.calm) (r : Resource) {e : Entry} (hw : e.waiters = []) (hy : e.yieldRequested = false) :
    (s.putEntry r e).calm := fun q => by
  rw [State.entry_putEntry]
  split
  · exact ⟨hw, hy⟩
  · exact h q

theorem State.calm.editEntry {s : State} (h : s.calm) (r : Resource) {f : Entry → Entry} (hw : ∀ e, (f e).waiters = e.waiters) :
    (s.editEntry r f).calm := fun q => by
  have hnone : (f (s.entry r)).waiters = [] := (hw _).trans (h r).1
  by_cases hq : q = r
  · subst hq
    rw [State.editEntry_self]
    exact ⟨hnone, yieldCondition_noWaiters hnone⟩
  · rw [State.keepsEntriesBut_editEntry s r f q (by simpa using hq)]
    exact h q

theorem State.calm.reported {s t : State} (h : t.calm) : (reportSwitching s t).calm := h.ofEntries fun q => (State.keepsBut_reportSwitching s t).entry q

theorem State.calm.writeRelease {s : State} (h : s.calm) (r : Resource) : (s.writeRelease r).calm := h.putEntry r (h r).1 (h r).2

theorem State.calm.freeLease {s : State} (h : s.calm) (r : Resource) : (s.freeLease r).calm :=
  ((h.ofEntries (s.entry_dropDrive r)).putEntry r (e := (s.entry r).freed) (h r).1 rfl).reported

theorem State.calm.letGo {s : State} (h : s.calm) (r : Resource) : (s.letGo r).calm := by
  have hf : ∀ r, ((s.writeRelease r).freeLease r).calm := fun r => (h.writeRelease r).freeLease r
  unfold State.letGo
  split
  · exact h
  · exact h
  · exact hf r
  · exact (hf r).ofEntries fun _ => rfl
  · cases r with
    | circ =>
      dsimp only
      split
      · exact hf _
      · refine State.calm.editEntry (f := fun e => { e with lease := .releasing }) ?_ .circ fun _ => rfl
        exact (h.writeRelease .circ).ofEntries fun _ => rfl
    | doorDrive =>
      refine State.calm.editEntry (f := fun e => { e with lease := .releasing }) ?_ .doorDrive fun _ => rfl
      exact (h.writeRelease .doorDrive).ofEntries fun _ => rfl
    | selector => exact hf _
    | brine => exact hf _
    | inlet => exact hf _
    | heater => exact hf _
    | drain => exact hf _
    | dose n => exact hf _

theorem State.calm.release {s : State} (h : s.calm) (r : Resource) : (s.release r).calm := by
  unfold State.release
  split
  · exact ((h.writeRelease .inlet).freeLease .inlet).letGo .selector
  · exact h.letGo r

theorem State.calm.releaseIf {s : State} (h : s.calm) (who : Holder) (r : Resource) : (s.releaseIf who r).calm := by
  unfold State.releaseIf
  split
  · exact h.release r
  · exact h

theorem calm_foldl {α : Type} {f : State → α → State} (hf : ∀ s x, s.calm → (f s x).calm) : ∀ (l : List α) (s : State), s.calm → (l.foldl f s).calm
  | [], _, h => h
  | x :: l, s, h => calm_foldl hf l (f s x) (hf s x h)

theorem State.calm.releaseAll {s : State} (h : s.calm) (who : Holder) : (s.releaseAll who).calm :=
  calm_foldl (fun _ r k => k.releaseIf who r) _ s h

/-! ### Entries that a release leaves -/

theorem State.entry_freeLease_ne (s : State) {r q : Resource} (h : q ≠ r) : (s.freeLease r).entry q = s.entry q := by
  unfold State.freeLease
  rw [(State.keepsBut_reportSwitching _ _).entry q, State.entry_putEntry, if_neg h, State.entry_dropDrive]

/-- A release leaves the entry of a resource that its holder does not hold. -/
theorem State.entry_releaseIf_ne (s : State) (who : Holder) (r : Resource) {q : Resource} (h : s.holds who q = false) :
    (s.releaseIf who r).entry q = s.entry q := by
  unfold State.releaseIf
  split
  next hr =>
    have hne : q ≠ r := fun e => by
      rw [e, hr] at h
      cases h
    unfold State.release
    split
    next hp =>
      obtain ⟨hsel, hin, hsame⟩ := hp
      have hq : q ≠ .inlet := fun e => by
        subst e
        have hh := ((State.holds_iff _ _ _).mp hr).2
        rw [hsel, ← hsame] at hh
        have hl : (s.entry .inlet).lease ≠ .free := by simpa [State.hasHolder] using hin
        rw [(State.holds_iff _ _ _).mpr ⟨hl, hh⟩] at h
        cases h
      rw [State.entry_letGo_ne _ (hsel ▸ hne), State.entry_freeLease_ne _ hq, State.entry_writeRelease_ne _ hq]
    · exact State.entry_letGo_ne s hne
  next => rfl

theorem State.holds_congr {s t : State} {q : Resource} (h : t.entry q = s.entry q) (who : Holder) : t.holds who q = s.holds who q := by
  simp only [State.holds, State.hasHolder, h]

theorem State.entry_releaseAll_ne (s : State) (who : Holder) {q : Resource} (h : s.holds who q = false) :
    (s.releaseAll who).entry q = s.entry q := by
  have key : ∀ (l : List Resource) (u : State), u.holds who q = false → (l.foldl (fun s r => s.releaseIf who r) u).entry q = u.entry q := by
    intro l
    induction l with
    | nil => exact fun _ _ => rfl
    | cons r l ih =>
      intro u hu
      have he := u.entry_releaseIf_ne who r hu
      exact (ih _ ((State.holds_congr he who).trans hu)).trans he
  exact key _ s h

end Sys2Proof.Machine

/-! The DRAINs judged afresh in a part where nobody waits (R28, R34, R48, R49). -/

namespace Sys2Proof.Machine

/-! ### Which DRAIN is judged -/

theorem drainAt_iff {s : State} {j : SlotId} {x : Slot × DrainWork} : s.drainAt j = some x ↔ s.pool[j] = some x.1 ∧ x.1.work = .drain x.2 := by
  constructor
  · intro h
    unfold State.drainAt at h
    cases hp : s.pool[j] with
    | none => simp [hp] at h
    | some sl =>
      simp only [hp] at h
      cases hw : sl.work <;> simp only [hw, reduceCtorEq] at h
      cases h
      exact ⟨rfl, hw⟩
  · rintro ⟨hp, hw⟩
    exact drainAt_held hp hw

theorem slotWho_drain {sl : Slot} {w : DrainWork} (h : sl.work = .drain w) (i : SlotId) : slotWho i sl = ⟨.port sl.port, some i⟩ := by
  simp [slotWho, h]

/-- A DRAIN that does not hold DRAIN HELD is not judged. -/
theorem judgeDrain_idle {s : State} {i : SlotId} (h : ∀ x, s.drainAt i = some x → s.holdsHeld (slotWho i x.1) .drain = false) : s.judgeDrain i = s := by
  unfold State.judgeDrain
  split
  next => rfl
  next sl w hat => rw [if_neg (by simp [h (sl, w) hat])]

/-- No DRAIN holds DRAIN HELD. -/
theorem judgeDrains_none {s : State} (h : ∀ j x, s.drainAt j = some x → s.holdsHeld (slotWho j x.1) .drain = false) : s.judgeDrains = s :=
  foldl_unchanged fun j _ => judgeDrain_idle (h j)

theorem judgeDrains_absent {s : State} (h : ∀ j, s.drainAt j = none) : s.judgeDrains = s :=
  judgeDrains_none fun j x hx => by rw [h j] at hx; cases hx

theorem foldl_once {α β : Type} {f : β → α → β} {a : α} : ∀ (l : List α) (b : β), l.Nodup → a ∈ l → (∀ x ∈ l, x ≠ a → f b x = b) →
    (∀ x ∈ l, x ≠ a → f (f b a) x = f b a) → l.foldl f b = f b a
  | [], _, _, h, _, _ => absurd h List.not_mem_nil
  | x :: l, b, hn, h, h1, h2 => by
    obtain ⟨hx, hn⟩ := List.nodup_cons.mp hn
    by_cases e : x = a
    · subst e
      exact foldl_unchanged fun y hy => h2 y (List.mem_cons_of_mem _ hy) fun e => hx (e ▸ hy)
    · rw [List.foldl_cons, h1 x List.mem_cons_self e]
      exact foldl_once l b hn ((List.mem_cons.mp h).resolve_left fun c => e c.symm)
        (fun y hy => h1 y (List.mem_cons_of_mem _ hy)) fun y hy => h2 y (List.mem_cons_of_mem _ hy)

/-- Only the DRAIN that holds DRAIN HELD is judged. -/
theorem judgeDrains_running {s : State} {i : SlotId} {p : Port} (hh : s.holdsHeld ⟨.port p, some i⟩ .drain = true) :
    s.judgeDrains = s.judgeDrain i := by
  obtain ⟨hl, hholder⟩ := (holdsHeld_iff _ _ _).mp hh
  have hother : ∀ {u : State}, ((u.entry .drain).lease = .held → (u.entry .drain).holder = (s.entry .drain).holder) → ∀ j, j ≠ i →
      u.judgeDrain j = u := fun {u} hu j hj => judgeDrain_idle fun x hx => by
    obtain ⟨hxp, hxw⟩ := drainAt_iff.mp hx
    rw [Bool.eq_false_iff]
    intro c
    obtain ⟨hul, huh⟩ := (holdsHeld_iff _ _ _).mp c
    rw [hu hul, hholder, slotWho_drain hxw] at huh
    have := congrArg (fun h : Option Holder => h.bind (·.slot)) huh
    exact hj (Option.some.inj this).symm
  refine foldl_once allSlots s nodup_allSlots (mem_allSlots i) (fun j _ hj => hother (fun _ => rfl) j hj)
    fun j _ hj => hother (fun c => ?_) j hj
  exact ((judgeDrain_effect (.refl s) i).table .drain).same (by rw [c]; decide)

/-! ### What it leaves -/

theorem State.keepsBut_finishDrain {s : State} (h : s.calm) (i : SlotId) (o : OutcomeCode) :
    s.keepsBut (s.finishDrain i o true) [.arb, .drive, .sense, .door, .pool, .water, .ports] := by
  unfold State.finishDrain
  split
  · exact s.keepsBut_refl _
  next sl w hat =>
    dsimp only
    have kf := s.keepsBut_fixOutcome i o
    have hc : ((s.fixOutcome i o).releaseAll (slotWho i sl)).calm := (h.frame kf).releaseAll _
    rw [hc.withdraw]
    have ka := (State.keepsBut_mono kf (by decide : _ ⊆ [Block.arb, .drive, .sense, .door, .pool, .water, .ports])).step
      (State.keepsBut_releaseAll _ (slotWho i sl)) (by decide)
    have kt : s.keepsBut (if o = .done then ((s.fixOutcome i o).releaseAll (slotWho i sl)).setTank 0 true
        else (s.fixOutcome i o).releaseAll (slotWho i sl)) [.arb, .drive, .sense, .door, .pool, .water, .ports] :=
      .ite _ (ka.step (State.keepsBut_withWater _ _) (by decide)) ka
    exact kt.step (State.keepsBut_endSlot _ _ _ _ _) (by decide)

theorem State.calm.finishDrain {s : State} (h : s.calm) (i : SlotId) (o : OutcomeCode) : (s.finishDrain i o true).calm := by
  unfold State.finishDrain
  split
  · exact h
  next sl w hat =>
    dsimp only
    have hc : ((s.fixOutcome i o).releaseAll (slotWho i sl)).calm := (h.frame (s.keepsBut_fixOutcome i o)).releaseAll _
    rw [hc.withdraw]
    refine State.calm.frame ?_ (State.keepsBut_endSlot _ _ _ _ _)
    split
    · exact hc.frame (State.keepsBut_withWater _ _)
    · exact hc

theorem entry_finishDrain {s : State} (h : s.calm) (i : SlotId) (o : OutcomeCode) {q : Resource}
    (hq : ∀ x, s.drainAt i = some x → s.holds (slotWho i x.1) q = false) : (s.finishDrain i o true).entry q = s.entry q := by
  unfold State.finishDrain
  split
  · rfl
  next sl w hat =>
    dsimp only
    have kf := s.keepsBut_fixOutcome i o
    have hc : ((s.fixOutcome i o).releaseAll (slotWho i sl)).calm := (h.frame kf).releaseAll _
    have he : ((s.fixOutcome i o).releaseAll (slotWho i sl)).entry q = s.entry q :=
      (State.entry_releaseAll_ne _ _ ((State.holds_congr (kf.entry q) _).trans (hq (sl, w) hat))).trans (kf.entry q)
    rw [hc.withdraw, (State.keepsBut_endSlot _ _ _ _ _).entry q]
    split
    · exact ((State.keepsBut_withWater _ _).entry q).trans he
    · exact he

/-- What judging a DRAIN can do: nothing, a post-run begun or abandoned, its end DONE, or its TIMEOUT. -/
theorem judgeDrain_cases (s : State) (i : SlotId) : s.judgeDrain i = s ∨ (∃ w, s.judgeDrain i = s.setWork i (.drain w)) ∨
    s.judgeDrain i = s.finishDrain i .done true ∨
    ∃ sl, s.judgeDrain i = (s.finishDrain i .timeout true).fault .drainSlow (portCode (Slot.port sl)) s.water.tank := by
  unfold State.judgeDrain
  split
  · exact .inl rfl
  next sl w hat =>
    split
    · split
      · split
        · exact .inr (.inr (.inl rfl))
        · exact .inr (.inl ⟨_, rfl⟩)
      · split
        · refine .inr (.inr (.inr ⟨sl, ?_⟩))
          unfold State.drainTimeout
          rw [hat]
        · exact .inr (.inl ⟨_, rfl⟩)
      · exact .inl rfl
      · exact .inl rfl
    · exact .inl rfl

/-- What stands when a DRAIN has been judged in a calm part. -/
structure DrainJudged (s u : State) : Prop where
  calm : u.calm
  frame : s.keepsBut u [.arb, .drive, .sense, .door, .pool, .water, .ports, .prot]

theorem judgeDrain_judged {s : State} (h : s.calm) (i : SlotId) : DrainJudged s (s.judgeDrain i) := by
  rcases judgeDrain_cases s i with e | ⟨w, e⟩ | e | ⟨sl, e⟩ <;> rw [e]
  · exact ⟨h, s.keepsBut_refl _⟩
  · exact ⟨h.frame (s.keepsBut_setWork i _), State.keepsBut_mono (s.keepsBut_setWork i _) (by decide)⟩
  · exact ⟨h.finishDrain i _, State.keepsBut_mono (State.keepsBut_finishDrain h i _) (by decide)⟩
  · exact ⟨(h.finishDrain i _).frame (State.keepsBut_fault _ _ _ _),
      (State.keepsBut_mono (State.keepsBut_finishDrain h i _) (by decide)).step (State.keepsBut_fault _ _ _ _) (by decide)⟩

theorem entry_judgeDrain {s : State} (h : s.calm) (i : SlotId) {q : Resource}
    (hq : ∀ x, s.drainAt i = some x → s.holds (slotWho i x.1) q = false) : (s.judgeDrain i).entry q = s.entry q := by
  rcases judgeDrain_cases s i with e | ⟨w, e⟩ | e | ⟨sl, e⟩ <;> rw [e]
  · exact (s.keepsBut_setWork i _).entry q
  · exact entry_finishDrain h i _ hq
  · rw [(State.keepsBut_fault _ _ _ _).entry q]
    exact entry_finishDrain h i _ hq

/-- The DRAINs judged: at most the one that holds DRAIN HELD. -/
theorem judgeDrains_cases (s : State) : s.judgeDrains = s ∨ ∃ i sl w, s.pool[i] = some sl ∧ sl.work = .drain w ∧
    s.holdsHeld ⟨.port sl.port, some i⟩ .drain = true ∧ s.judgeDrains = s.judgeDrain i := by
  by_cases h : ∀ j x, s.drainAt j = some x → s.holdsHeld (slotWho j x.1) .drain = false
  · exact .inl (judgeDrains_none h)
  · simp only [not_forall] at h
    obtain ⟨i, ⟨sl, w⟩, hat, hh⟩ := h
    obtain ⟨hp, hw⟩ := drainAt_iff.mp hat
    have hh' : s.holdsHeld ⟨.port sl.port, some i⟩ .drain = true := by
      rw [← slotWho_drain hw]
      exact Bool.eq_true_of_not_eq_false hh
    exact .inr ⟨i, sl, w, hp, hw, hh', judgeDrains_running hh'⟩

theorem judgeDrains_judged {s : State} (h : s.calm) : DrainJudged s s.judgeDrains := by
  rcases judgeDrains_cases s with e | ⟨i, sl, w, -, -, -, e⟩ <;> rw [e]
  · exact ⟨h, s.keepsBut_refl _⟩
  · exact judgeDrain_judged h i

/-- A lease that no DRAIN holds is left. -/
theorem entry_judgeDrains {s : State} (h : s.calm) {q : Resource} (hq : ∀ j x, s.drainAt j = some x → s.holds (slotWho j x.1) q = false) :
    s.judgeDrains.entry q = s.entry q := by
  rcases judgeDrains_cases s with e | ⟨i, sl, w, -, -, -, e⟩ <;> rw [e]
  exact entry_judgeDrain h i (hq i)

/-! ### Channels that waited for water -/

theorem State.keepsBut_channelDoorOpened (s : State) (c : ChannelId) : s.keepsBut (s.channelDoorOpened c) [.arb, .drive, .sense, .door, .dose, .ports] := by
  unfold State.channelDoorOpened
  dsimp only
  have h := (State.keepsBut_mono (s.keepsBut_setChannel c (s.channel c).cut) (by decide : _ ⊆ [Block.arb, .drive, .sense, .door, .dose, .ports])).step
    (State.keepsBut_haltChannel _ c .door) (by decide)
  exact .ite _ (.ite _ ((h.step (State.keepsBut_releaseIf _ _ _) (by decide)).step (State.keepsBut_haltChannel _ _ _) (by decide)) h) (s.keepsBut_refl _)

/-- The work of a channel in a calm part: what it releases is its pump. -/
structure ChannelWorks (s u : State) : Prop where
  calm : s.calm → u.calm
  entries : ∀ q, q = .heater ∨ q = .circ ∨ q = .drain → u.entry q = s.entry q

theorem ChannelWorks.refl (s : State) : ChannelWorks s s := ⟨id, fun _ _ => rfl⟩

theorem ChannelWorks.trans {s t u : State} (h : ChannelWorks s t) (k : ChannelWorks t u) : ChannelWorks s u :=
  ⟨fun c => k.calm (h.calm c), fun q hq => (k.entries q hq).trans (h.entries q hq)⟩

theorem State.keepsBut.channelWorks {s u : State} {l : List Block} (k : s.keepsBut u l) (hl : Block.arb ∉ l := by decide) : ChannelWorks s u :=
  ⟨fun c => c.frame k hl, fun q _ => k.entry q hl⟩

theorem channelWorks_releaseIf (s : State) (who : Holder) (n : ReservoirId) : ChannelWorks s (s.releaseIf who (.dose n)) := by
  refine ⟨fun c => c.releaseIf who _, fun q hq => ?_⟩
  have hne : q ≠ .dose n := by rcases hq with rfl | rfl | rfl <;> simp
  unfold State.releaseIf
  split
  · unfold State.release
    rw [if_neg (by simp), State.entry_letGo_ne _ hne]
  · rfl

theorem channelWorks_halt (s : State) (c : ChannelId) (ch : Channel) (who : Holder) (cause : HaltCause) :
    ChannelWorks s ((s.releaseIf who (s.channelPump ch)).haltChannel c cause) :=
  (channelWorks_releaseIf s who (s.channelReservoir ch)).trans (State.keepsBut_haltChannel _ c cause).channelWorks

theorem channelWorks_doorOpened (s : State) (c : ChannelId) : ChannelWorks s (s.channelDoorOpened c) := by
  unfold State.channelDoorOpened
  dsimp only
  have h : ChannelWorks s ((s.setChannel c (s.channel c).cut).haltChannel c .door) :=
    (s.keepsBut_setChannel c _).channelWorks.trans (State.keepsBut_haltChannel _ c .door).channelWorks
  split
  · split
    · exact h.trans (channelWorks_halt _ c _ _ _)
    · exact h
  · exact .refl s

theorem channelWorks_strokeStage3 (s : State) (c : ChannelId) : ChannelWorks s (s.strokeStage3 c) := by
  unfold State.strokeStage3
  dsimp only
  cases ht : s.takeStroke (s.channelReservoir (s.channel c)) with
  | none => exact channelWorks_halt s c _ _ _
  | some u =>
    dsimp only
    have hu : ChannelWorks s u := by
      unfold State.takeStroke at ht
      dsimp only at ht
      split at ht
      · cases ht
      · split at ht <;> cases ht
        · exact (s.keepsBut_setReservoir _ _).channelWorks
        · exact .refl s
    have hset : ChannelWorks s (u.setChannel c { s.channel c with started := (s.channel c).started + 1, step := .stroke, interval := Timer.zero }) :=
      hu.trans (u.keepsBut_setChannel c _).channelWorks
    split
    · exact hset.trans (State.keepsBut_withDrive _ _).channelWorks
    · unfold State.strokeCut
      split
      · exact hset.trans (channelWorks_doorOpened _ c)
      · exact hset.trans (State.keepsBut_channelTripped _ c).channelWorks

theorem channelWorks_waterChannels (s : State) : ChannelWorks s s.waterChannels := by
  have hfold : ∀ (l : List ChannelId) (u : State), ChannelWorks u (l.foldl (fun s c =>
      let ch := s.channel c
      if ch.state = .dosing ∧ ch.step = .water then s.strokeStage3 c else s) u) := by
    intro l
    induction l with
    | nil => exact .refl
    | cons c l ih =>
      intro u
      refine ChannelWorks.trans ?_ (ih _)
      dsimp only
      split
      · exact channelWorks_strokeStage3 u c
      · exact .refl u
  unfold State.waterChannels
  split
  · exact hfold _ s
  · exact .refl s

theorem waterChannels_dry {s : State} (h : s.waterPresent = false) : s.waterChannels = s := if_neg (by simp [h])

theorem waterChannels_none {s : State} (h : ∀ c, (s.channel c).step ≠ .water) : s.waterChannels = s := by
  unfold State.waterChannels
  split
  · exact foldl_unchanged fun c _ => if_neg fun e => h c e.2
  · rfl

end Sys2Proof.Machine

/-! A confirmed change of TANK_MIN: the interlock and HEATER (R5, R34, R45, R133). -/

namespace Sys2Proof.Machine

/-! ### The interlock judged in a calm part -/

/-- In a calm part the settling is the judgement of the interlock. -/
theorem State.calm.settle_eq {s : State} (h : s.calm) : s.settle = s.settleInterlock := by
  have hi := settleInterlock_interlocked s
  have hcalm : s.settleInterlock.calm := fun q => by
    by_cases hq : q = .heater
    · subst hq
      exact ⟨hi.waiters.trans (h .heater).1, hi.yields (h .heater).1 (h .heater).2⟩
    · rw [hi.entries q (by simpa using hq)]
      exact h q
  have hjudge : s.judge = s.settleInterlock := by
    rw [State.judge]
    exact markBarred_same (.inl (hcalm .doorDrive).1)
  exact settleFor_judged hjudge (yieldNext_none (hcalm .heater).2 fun n => (hcalm (.dose n)).2) (fun r => chosenWaiter_noWaiters (hcalm r).1) 128

/-- The interlock lost under a HELD HEATER suspends it (R5). -/
theorem settleInterlock_suspends {s : State} (hi : s.water.interlock = true) (hm : s.interlockMet = false) (hc : s.doorClosed = true)
    (hl : (s.entry .heater).lease = .held) : (s.settleInterlock.entry .heater).lease = .suspended ∧
      (s.settleInterlock.entry .heater).holder = (s.entry .heater).holder := by
  obtain ⟨u, hu⟩ : ∃ u, u = ({ s with water := { s.water with interlock := s.interlockMet } } : State) := ⟨_, rfl⟩
  have hue : u.entry .heater = s.entry .heater := by rw [hu]; rfl
  have huc : u.doorClosed = true := by rw [hu]; exact hc
  have he : s.settleInterlock = u.suspend .heater := by
    unfold State.settleInterlock
    dsimp only
    rw [if_neg (by simp [hi, hm]), ← hu, if_pos huc, if_neg (by simp [hm])]
  have hs : u.suspend .heater = reportSwitching u (u.editEntry .heater fun e => { e with lease := .suspended }) := by
    unfold State.suspend
    rw [if_pos (by simp [hue, hl])]
    rfl
  rw [he, hs, (State.keepsBut_reportSwitching _ _).entry, State.editEntry_self, State.edited, hue]
  exact ⟨rfl, rfl⟩

/-- The interlock met again under a SUSPENDED HEATER restores it (R5). -/
theorem settleInterlock_restored {s : State} (hi : s.water.interlock = false) (hm : s.interlockMet = true) (hc : s.doorClosed = true)
    (hl : (s.entry .heater).lease = .suspended) : (s.settleInterlock.entry .heater).lease = .held ∧
      (s.settleInterlock.entry .heater).holder = (s.entry .heater).holder := by
  obtain ⟨u, hu⟩ : ∃ u, u = ({ s with water := { s.water with interlock := s.interlockMet } } : State) := ⟨_, rfl⟩
  have hue : u.entry .heater = s.entry .heater := by rw [hu]; rfl
  have huc : u.doorClosed = true := by rw [hu]; exact hc
  have he : s.settleInterlock = u.restore .heater := by
    unfold State.settleInterlock
    dsimp only
    rw [if_neg (by simp [hi, hm]), ← hu, if_pos huc, if_pos hm]
  have hs : u.restore .heater = u.editEntry .heater fun e => { e with lease := .held } := by
    unfold State.restore
    rw [if_pos (by simp [hue, hl])]
  rw [he, hs, State.editEntry_self, State.edited, hue]
  exact ⟨rfl, rfl⟩

/-! ### Water, read from the points -/

theorem waterAbsent_congr {s t : State} (hr : ∀ m, (t.point m).role = (s.point m).role) (hs : ∀ m, (t.point m).state = (s.point m).state) :
    t.waterAbsent = s.waterAbsent := by
  have hr' : ∀ m : PointId, t.sense.points[m].role = s.sense.points[m].role := hr
  have hs' : ∀ m : PointId, t.sense.points[m].state = s.sense.points[m].state := hs
  simp only [State.waterAbsent, State.roleHolder, hr', hs']

theorem measured_water {s : State} {g : GroupId} {n : PointId} {side : Side} (hh : s.roleHolder .tankMin = some n) :
    (s.measured g n side).waterPresent = decide (side = .clear) ∧ (s.measured g n side).waterAbsent = decide (side = .crossed) := by
  have hstate : ((s.measured g n side).sense.points[n]).state = side.state := by
    rw [point_get, State.point_measured, if_pos rfl]
  unfold State.waterPresent State.waterAbsent
  rw [s.roleHolder_measured, hh]
  dsimp only
  rw [hstate]
  cases side <;> exact ⟨rfl, rfl⟩

/-! ### The delivery -/

/-- The states of a step that confirms a change of TANK_MIN: measured `m`, delivered `d`, told of `w`, ended `t`. -/
structure TankTold (s m d w t : State) (n : PointId) (side : Side) : Prop where
  measured : s.keepsBut m [.sense]
  present : m.waterPresent = decide (side = .clear)
  absent : m.waterAbsent = decide (side = .crossed)
  judged : d = m.judgeDrains.waterChannels
  calm : m.calm
  fixed : d.fixed = m.fixed
  interlock : d.water.interlock = m.water.interlock
  told : Told d w n side
  settled : w.settleInterlock.keepsBut t [.sense]
  points : t.sense.points = w.sense.points

theorem tankMin_told {s : State} {g : GroupId} {count : Nat} {n : PointId} {side : Side} (h : s.confirms g count n side)
    (hrole : (s.point n).role = .tankMin) (hrest : s.atRest) :
    ∃ m d w t, exec (.measurementEnd g count) s = .next t ∧ TankTold s m d w t n side := by
  obtain ⟨m, hm⟩ : ∃ m, m = s.measured g n side := ⟨_, rfl⟩
  have km : s.keepsBut m [.sense] := hm ▸ s.keepsBut_measured g n side
  have hcalm : m.calm := State.calm.frame hrest.1 km
  have hdeliver := deliver_held h (by simp [hrole])
  rw [hrole, ← hm] at hdeliver
  obtain ⟨d, hd⟩ : ∃ d, d = m.judgeDrains.waterChannels := ⟨_, rfl⟩
  obtain ⟨t, ht, htold, hafter⟩ := measurementEnd_delivers h.1 (by simp [hrole]) (by simp [hrole]) (u := d) (by rw [← hm, hdeliver, hd])
  have heff := waterChannels_effect (judgeDrains_effect (.refl m))
  rw [← hd] at heff
  have hdcalm : d.calm := hd ▸ (channelWorks_waterChannels _).calm (judgeDrains_judged hcalm).calm
  have hwater := measured_water (g := g) (side := side) (hrole ▸ h.2)
  rw [← hm] at hwater
  have hset := (hdcalm.frame htold.frame).settle_eq
  exact ⟨m, d, _, t, ht, km, hwater.1, hwater.2, hd, hcalm, heff.fixed, heff.interlock, htold, hset ▸ hafter.after, hafter.points⟩

section Facts

variable {s m d w t : State} {n : PointId} {side : Side} (h : TankTold s m d w t n side)

include h

theorem TankTold.wpoints (q : PointId) : (w.point q).role = (m.point q).role ∧ (w.point q).state = (m.point q).state := by
  have hp : d.point q = m.point q := State.point_of_points (congrArg Fixed.points h.fixed) q
  exact ⟨(h.told.roles q).trans (by rw [hp]), (h.told.states q).trans (by rw [hp])⟩

theorem TankTold.wpresent : w.waterPresent = decide (side = .clear) :=
  (State.waterPresent_congr (fun q => (h.wpoints q).1) fun q => (h.wpoints q).2).trans h.present

theorem TankTold.tpresent : t.waterPresent = decide (side = .clear) ∧ t.waterAbsent = decide (side = .crossed) := by
  have hp : ∀ q, t.point q = w.point q := fun q => State.point_of_points h.points q
  exact ⟨(State.waterPresent_congr (fun q => congrArg Point.role (hp q)) fun q => congrArg Point.state (hp q)).trans h.wpresent,
    (waterAbsent_congr (fun q => (congrArg Point.role (hp q)).trans (h.wpoints q).1)
      fun q => (congrArg Point.state (hp q)).trans (h.wpoints q).2).trans h.absent⟩

theorem TankTold.doorClosed : w.doorClosed = s.doorClosed := by
  unfold State.doorClosed
  rw [h.told.frame.door, show d.door.door = m.door.door from congrArg Fixed.doorFilter h.fixed, h.measured.door]

theorem TankTold.probeValid : w.water.probeValid = s.water.probeValid := by
  rw [h.told.frame.water, show d.water.probeValid = m.water.probeValid from congrArg Fixed.probeValid h.fixed, h.measured.water]

theorem TankTold.winterlock : w.water.interlock = s.water.interlock := by rw [h.told.frame.water, h.interlock, h.measured.water]

theorem TankTold.settles : t.water.interlock = t.interlockMet := by
  have hi := settleInterlock_interlocked w
  have hcirc : t.entry .circ = w.entry .circ := (h.settled.entry .circ).trans (hi.entries .circ (by decide))
  have hmet : t.interlockMet = w.interlockMet :=
    interlockMet_of (congrArg Entry.lease hcirc) h.points (by rw [h.settled.door, hi.frame.door]) (by rw [h.settled.water, hi.water])
  rw [hmet, h.settled.water, hi.water]

/-- A lease of HEATER or CIRC that no DRAIN holds stands until the interlock is judged. -/
theorem TankTold.wentry {q : Resource} (hq : q = .heater ∨ q = .circ) (hp : s.inPlace) (hl : (s.entry q).lease ≠ .releasing) :
    w.entry q = s.entry q := by
  have hm := h.measured.entry q
  have hd : d.entry q = m.entry q := by
    rw [h.judged, (channelWorks_waterChannels _).entries q (hq.imp_right .inl)]
    refine entry_judgeDrains h.calm fun j x hx => ?_
    obtain ⟨hxp, hxw⟩ := drainAt_iff.mp hx
    rw [h.measured.pool] at hxp
    rw [State.holds_congr hm, Bool.eq_false_iff]
    have hnot : q ∉ x.1.work.resources := by rcases hq with rfl | rfl <;> simp [hxw, Work.resources]
    exact fun c => hl ((hp j x.1 hxp q hnot).2 c)
  exact (h.told.frame.entry q).trans (hd.trans hm)

end Facts

end Sys2Proof.Machine

/-! What a change of TANK_MIN does to the DRAINs and to the channels that wait for water (R34, R48, R49, R107, R133). -/

namespace Sys2Proof.Machine

/-! ### The DRAIN that holds DRAIN -/

/-- What the end of a DRAIN leaves in a calm part (R29, R33, R48, R49). -/
structure DrainDone (m u : State) (i : SlotId) (sl : Slot) (o : OutcomeCode) : Prop where
  self : u.pool[i] = none
  lease : (u.entry .drain).lease = .free
  responds : m.responds u sl.port [opResponse sl.tag o []]
  tank : u.water = if o = .done then { m.water with tank := 0, tankKnown := true } else m.water
  prot : u.prot = m.prot
  same : u.cfg = m.cfg ∧ u.drive = m.drive

theorem finishDrain_done {m : State} {i : SlotId} {sl : Slot} {w : DrainWork} {o : OutcomeCode} (hc : m.calm) (hp : m.pool[i] = some sl)
    (hw : sl.work = .drain w) (hh : m.holdsHeld ⟨.port sl.port, some i⟩ .drain = true)
    (honly : ∀ q, m.holds ⟨.port sl.port, some i⟩ q = true → q = .drain) : DrainDone m (m.finishDrain i o true) i sl o := by
  obtain ⟨hl, hholder⟩ := (holdsHeld_iff _ _ _).mp hh
  have hholds : m.holds ⟨.port sl.port, some i⟩ .drain = true := (State.holds_iff _ _ _).mpr ⟨by rw [hl]; decide, hholder⟩
  obtain ⟨u, hu⟩ : ∃ u, u = m.letGoAtEnd i sl o .drain := ⟨_, rfl⟩
  have hgo : LetGo m u i sl o .drain := hu ▸ letGo_drain o hl
  have hucalm : u.calm := hu ▸ State.calm.releaseIf (hc.frame (m.keepsBut_setSlot _ _)) _ _
  obtain ⟨v, hv⟩ : ∃ v, v = if o = .done then u.setTank 0 true else u := ⟨_, rfl⟩
  have kv : u.keepsBut v [.water] := hv ▸ .ite _ u.keepsBut_tankEmptied (u.keepsBut_refl _)
  have hfinish : m.finishDrain i o true = v.endSlot i o [] true := by
    rw [finishDrain_eq hp hw honly (by rw [← hu]; exact fun q => State.waitsFor_noWaiters (hucalm q).1 _), ← hu, hv]
  have hans := endSlot_answers (u := v) (i := i) (sl := sl) (o := o) (by rw [kv.pool, hgo.self]) []
  rw [hfinish]
  refine ⟨hans.self, ?_, ?_, ?_, ?_, ?_, ?_⟩
  · rw [hans.frame.entry, kv.entry, hgo.held hholds]
    rfl
  · unfold State.responds
    rw [hans.responds, State.port_congr kv.ports, State.port_congr hgo.frame.ports]
  · rw [hans.frame.water, hv]
    split
    · show ({ u.water with tank := 0, tankKnown := true } : Water) = _
      rw [hgo.frame.water]
    · exact hgo.frame.water
  · rw [hans.frame.prot, kv.prot, hgo.frame.prot]
  · rw [hans.frame.cfg, kv.cfg, hgo.frame.cfg]
  · rw [hans.frame.drive, kv.drive, hgo.frame.drive]

/-- How the running DRAIN is judged. -/
theorem judgeDrain_running {m : State} {i : SlotId} {sl : Slot} {w : DrainWork} (hp : m.pool[i] = some sl) (hw : sl.work = .drain w)
    (hh : m.holdsHeld ⟨.port sl.port, some i⟩ .drain = true) :
    (m.waterAbsent = true → w.postrun = none → m.judgeDrain i =
      if m.drive.postrun = 0 then m.finishDrain i .done true else m.setSlot i (some { sl with work := .drain { w with postrun := some Timer.zero } })) ∧
    (m.waterAbsent = false → w.postrun ≠ none → m.judgeDrain i =
      if w.limit.due = true then (m.finishDrain i .timeout true).fault .drainSlow (portCode sl.port) m.water.tank
      else m.setSlot i (some { sl with work := .drain { w with postrun := none } })) := by
  have hat := drainAt_held hp hw
  have hset : ∀ x, m.setWork i x = m.setSlot i (some { sl with work := x }) := fun x => State.setWork_held hp x
  constructor
  · intro ha hpost
    unfold State.judgeDrain
    simp only [hat, slotWho_drain hw, hh, if_true, ha, hpost, hset]
  · intro ha hpost
    obtain ⟨x, hx⟩ := Option.ne_none_iff_exists'.mp hpost
    unfold State.judgeDrain
    simp only [hat, slotWho_drain hw, hh, if_true, ha, hx, hset]
    unfold State.drainTimeout
    simp only [hat]

section Drain

variable {s m d w t : State} {n : PointId} {side : Side} (h : TankTold s m d w t n side)

include h

theorem TankTold.frame : d.keepsBut t [.arb, .sense, .water, .ports] :=
  ((State.keepsBut_mono h.told.frame (by decide)).step (settleInterlock_interlocked w).frame (by decide)).step h.settled (by decide)

theorem TankTold.entry {q : Resource} (hq : q ≠ .heater) : t.entry q = d.entry q := by
  rw [h.settled.entry, (settleInterlock_interlocked w).entries q (by simpa using hq), h.told.frame.entry]

theorem TankTold.ports : t.ports = (d.post .senseChanged n.val (pointStateCode side.state)).ports := by
  rw [h.settled.ports, (settleInterlock_interlocked w).frame.ports, h.told.ports]

theorem TankTold.txq (p : Port) : (t.port p).txq = (d.port p).txq := by rw [State.port_congr h.ports, State.txq_post]

theorem TankTold.water : t.water = { d.water with interlock := w.interlockMet } := by
  rw [h.settled.water, (settleInterlock_interlocked w).water, h.told.frame.water]

/-- With no DRAIN and no channel waiting for water, the interlock alone is judged. -/
theorem TankTold.quiet (hd : ∀ i, s.drainAt i = none) (hc : ∀ c, (s.channel c).step ≠ .water) :
    t.ports = (s.post .senseChanged n.val (pointStateCode side.state)).ports ∧ s.keepsEntriesBut t [.heater] ∧
      s.keepsBut t [.arb, .water, .ports, .sense] := by
  have hdrain : ∀ i, m.drainAt i = none := fun i => by
    rw [← hd i]
    unfold State.drainAt
    rw [h.measured.pool]
  have hdm : d = m := by
    rw [h.judged, judgeDrains_absent hdrain]
    exact waterChannels_none fun c => by rw [State.channel_congr h.measured.dose]; exact hc c
  refine ⟨?_, fun q hq => ?_, (State.keepsBut_mono h.measured (by decide)).step (hdm ▸ h.frame) (by decide)⟩
  · rw [h.ports, hdm]
    exact State.ports_post_congr h.measured.ports h.measured.drive _ _ _
  · rw [h.entry (by simpa using hq), hdm, h.measured.entry]

/-- The DRAIN that holds DRAIN, with no channel waiting for water. -/
theorem TankTold.drains {i : SlotId} {sl : Slot} {x : DrainWork} (hp : s.pool[i] = some sl) (hw : sl.work = .drain x)
    (hh : s.holdsHeld ⟨.port sl.port, some i⟩ .drain = true) (hc : ∀ c, (s.channel c).step ≠ .water)
    (honly : ∀ r, s.holds ⟨.port sl.port, some i⟩ r = true → r = .drain) :
    (side = .crossed → x.postrun = none → 0 < s.drive.postrun →
      t.pool[i] = some { sl with work := .drain { x with postrun := some Timer.zero } } ∧ t.entry .drain = s.entry .drain) ∧
    (side = .crossed → x.postrun = none → s.drive.postrun = 0 → t.pool[i] = none ∧ (t.entry .drain).lease = .free ∧
      t.water.tank = 0 ∧ t.water.tankKnown = true ∧ s.responds t sl.port [opResponse sl.tag .done []]) ∧
    (side = .clear → x.postrun ≠ none → x.limit.due = false →
      t.pool[i] = some { sl with work := .drain { x with postrun := none } } ∧ t.entry .drain = s.entry .drain) ∧
    (side = .clear → x.postrun ≠ none → x.limit.due = true → t.pool[i] = none ∧ (t.entry .drain).lease = .free ∧
      t.water.tank = s.water.tank ∧ s.responds t sl.port [opResponse sl.tag .timeout []] ∧
      t.prot = (s.fault .drainSlow (portCode sl.port) s.water.tank).prot) := by
  have km := h.measured
  have hmp : m.pool[i] = some sl := by rw [km.pool, hp]
  have hmh : m.holdsHeld ⟨.port sl.port, some i⟩ .drain = true := by
    rw [← hh]
    simp only [State.holdsHeld, km.entry]
  have hmonly : ∀ r, m.holds ⟨.port sl.port, some i⟩ r = true → r = .drain := fun r hr => honly r ((State.holds_congr (km.entry r) _).symm.trans hr)
  have hd : d = m.judgeDrain i := by
    rw [h.judged, judgeDrains_running hmh]
    exact waterChannels_none fun c => by
      rw [State.channel_congr (judgeDrain_judged h.calm i).frame.dose, State.channel_congr km.dose]
      exact hc c
  obtain ⟨hdry, hwet⟩ := judgeDrain_running hmp hw hmh
  have hkept : ∀ y : Slot, d = m.setSlot i (some y) → t.pool[i] = some y ∧ t.entry .drain = s.entry .drain := fun y hy => by
    have ky := m.keepsBut_setSlot i (some y)
    rw [h.entry (by decide), h.frame.pool, hy, ky.entry, km.entry]
    exact ⟨State.pool_setSlot_self _ _ _, rfl⟩
  have hend : ∀ o, DrainDone m (m.finishDrain i o true) i sl o := fun o => finishDrain_done h.calm hmp hw hmh hmonly
  have hresponds : ∀ (u : State) (rs : List Response), m.responds u sl.port rs → (d.port sl.port).txq = (u.port sl.port).txq →
      s.responds t sl.port rs := fun u rs hr hu => by
    unfold State.responds at hr ⊢
    rw [h.txq, hu, hr, State.port_congr km.ports]
  refine ⟨fun hs hpost hrun => ?_, fun hs hpost hrun => ?_, fun hs hpost hdue => ?_, fun hs hpost hdue => ?_⟩
  · have ha : m.waterAbsent = true := by rw [h.absent, hs]; rfl
    rw [hdry ha hpost, if_neg (by rw [km.drive]; omega)] at hd
    exact hkept _ hd
  · have ha : m.waterAbsent = true := by rw [h.absent, hs]; rfl
    rw [hdry ha hpost, if_pos (by rw [km.drive]; exact hrun)] at hd
    have hu := hend .done
    have hwater := hu.tank
    rw [if_pos rfl, ← hd] at hwater
    refine ⟨by rw [h.frame.pool, hd]; exact hu.self, by rw [h.entry (by decide), hd]; exact hu.lease, ?_, ?_, hresponds _ _ hu.responds (by rw [hd])⟩
    · rw [h.water, hwater]
    · rw [h.water, hwater]
  · have ha : m.waterAbsent = false := by rw [h.absent, hs]; rfl
    rw [hwet ha hpost, if_neg (by simp [hdue])] at hd
    exact hkept _ hd
  · have ha : m.waterAbsent = false := by rw [h.absent, hs]; rfl
    rw [hwet ha hpost, if_pos hdue] at hd
    have hu := hend .timeout
    have kf := (m.finishDrain i .timeout true).keepsBut_fault .drainSlow (portCode sl.port) m.water.tank
    have hwater := hu.tank
    rw [if_neg (by decide)] at hwater
    refine ⟨by rw [h.frame.pool, hd, kf.pool]; exact hu.self, by rw [h.entry (by decide), hd, kf.entry]; exact hu.lease, ?_,
      hresponds _ _ hu.responds (by rw [hd, State.txq_fault]), ?_⟩
    · rw [h.water, hd, kf.water, hwater, km.water]
    · rw [h.frame.prot, hd, km.water]
      refine State.prot_fault_congr ⟨hu.same.1.trans km.cfg, hu.prot.trans km.prot, ?_⟩ _ _ _
      rw [hu.same.2, km.drive]

/-- A channel in step WATER makes its stroke at water present (R107). -/
theorem TankTold.strokes {c : ChannelId} {k : ReservoirId} (hs : side = .clear) (hst : (s.channel c).state = .dosing)
    (hstep : (s.channel c).step = .water) (hpump : s.channelPump (s.channel c) = .dose k)
    (hh : s.holdsHeld (channelWho c) (.dose k) = true) (hstock : s.acct.reservoirs[k].empty = false)
    (hother : ∀ e, e ≠ c → (s.channel e).step ≠ .water) :
    t.channel c = { s.channel c with started := (s.channel c).started + 1, step := .stroke, interval := Timer.zero } ∧
      t.drive.strokes[k] = ⟨true, 0⟩ ∧
      t.acct.reservoirs[k].amount = (if s.acct.reservoirs[k].known = true
        then s.acct.reservoirs[k].amount - s.cfg.strokeVol[k] else s.acct.reservoirs[k].amount) := by
  have km := h.measured
  obtain ⟨u, hu⟩ : ∃ u, u = m.judgeDrains := ⟨_, rfl⟩
  have ku : m.keepsBut u [.arb, .drive, .sense, .door, .pool, .water, .ports, .prot] := hu ▸ (judgeDrains_judged h.calm).frame
  have hchan : ∀ e, u.channel e = s.channel e := fun e => by rw [State.channel_congr ku.dose, State.channel_congr km.dose]
  have hentry : u.entry (.dose k) = s.entry (.dose k) := by
    rw [hu, ← km.entry (.dose k)]
    refine entry_judgeDrains h.calm fun j x hx => ?_
    rw [Bool.eq_false_iff]
    intro c1
    have h1 := ((State.holds_iff _ _ _).mp c1).2
    rw [km.entry, ((holdsHeld_iff _ _ _).mp hh).2, slotWho_drain (drainAt_iff.mp hx).2] at h1
    cases h1
  have hpresent : u.waterPresent = true := by
    have heff : Effect m u := hu ▸ judgeDrains_effect (.refl m)
    have hp : ∀ q, u.point q = m.point q := State.point_of_points (congrArg Fixed.points heff.fixed)
    rw [State.waterPresent_congr (fun q => congrArg Point.role (hp q)) (fun q => congrArg Point.state (hp q)), h.present, hs]
    rfl
  have hdescs : u.dose.descs = s.dose.descs := by rw [ku.dose, km.dose]
  have hreservoir : u.channelReservoir (s.channel c) = k := by
    have h1 : u.channelReservoir (s.channel c) = s.channelReservoir (s.channel c) := State.channelReservoir_congr hdescs (ch := s.channel c) (ch' := s.channel c) rfl
    rw [h1]
    exact Resource.dose.inj hpump
  have hacct : u.acct = s.acct := by rw [ku.acct, km.acct]
  have hstruck : Struck u (u.strokeStart c) c k (s.channel c) :=
    strokeStart_begins (hchan c) hreservoir (by rw [hacct]; exact hstock) (fun _ => hpresent) (by
      rw [← hh]
      simp only [State.holdsHeld, hentry])
  have hstart : u.strokeStart c = u.strokeStage3 c := by
    unfold State.strokeStart
    have hfull : u.acct.reservoirs[u.channelReservoir (u.channel c)].empty = false := by simpa only [hchan, hreservoir, hacct] using hstock
    dsimp only
    rw [if_neg (by simp only [hfull, Bool.false_eq_true, not_false_eq_true]), if_neg (by simp [hpresent])]
  have hd : d = u.strokeStage3 c := by
    rw [h.judged, ← hu]
    unfold State.waterChannels
    rw [if_pos hpresent]
    have hthis : (u.channel c).state = .dosing ∧ (u.channel c).step = .water := by rw [hchan]; exact ⟨hst, hstep⟩
    refine (foldl_once (a := c) allChannels u (by decide) ((by decide : ∀ e : ChannelId, e ∈ allChannels) c) (fun e _ he => ?_) fun e _ he => ?_).trans ?_
    · exact if_neg fun x => hother e he (by rw [← hchan]; exact x.2)
    · dsimp only
      rw [if_pos hthis, ← hstart]
      exact if_neg fun x => hother e he (by rw [← hchan, ← hstruck.others e he]; exact x.2)
    · exact if_pos hthis
  rw [← hstart] at hd
  have kt := h.frame
  refine ⟨?_, ?_, ?_⟩
  · rw [State.channel_congr kt.dose, hd, hstruck.channel]
  · rw [kt.drive, hd, hstruck.drive]
    exact (upd_get _ _ _ _).trans (if_pos rfl)
  · rw [kt.acct, hd, hstruck.amount, hacct, ku.cfg, km.cfg]

end Drain

theorem tankMinDelivered : Clauses.TankMinDelivered := by
  intro s g count n side hconf hrole hrest
  obtain ⟨m, d, w, t, ht, h⟩ := tankMin_told hconf hrole hrest
  have hstart : s.water.interlock = s.interlockMet := hrest.2
  refine ⟨t, ht, h.tpresent.1, h.tpresent.2, h.settles, fun hsafe hin hl hdoor hs => ?_, fun hin hl hcirc hdoor hprobe hlock hs => ?_,
    h.quiet, fun i sl x hp hw hh hc honly => h.drains hp hw hh hc honly, fun c k hs hst hstep hpump hh hstock hother => ?_⟩
  · have he := h.wentry (.inl rfl) hin (by rw [hl]; decide)
    have hmet : w.interlockMet = false := by simp [State.interlockMet, State.interlockConditions, h.wpresent, hs]
    have hrun := settleInterlock_suspends (h.winterlock.trans (hstart.trans (hsafe.2 hl))) hmet (h.doorClosed.trans hdoor) (by rw [he, hl])
    rw [h.settled.entry]
    exact ⟨hrun.1, hrun.2.trans (by rw [he])⟩
  · have he := h.wentry (.inl rfl) hin (by rw [hl]; decide)
    have hec := h.wentry (.inr rfl) hin (by rw [hcirc]; decide)
    have hmet : w.interlockMet = true := by
      simp [State.interlockMet, State.interlockConditions, h.wpresent, hs, hec, hcirc, h.doorClosed, hdoor, h.probeValid, hprobe]
    have hrun := settleInterlock_restored (h.winterlock.trans hlock) hmet (h.doorClosed.trans hdoor) (by rw [he, hl])
    rw [h.settled.entry]
    exact ⟨hrun.1, hrun.2.trans (by rw [he])⟩
  · exact h.strokes hs hst hstep hpump hh hstock hother

end Sys2Proof.Machine

/-! A trip that is latched stays still while the arbiter settles: DRAIN under PROTECT, and the lists, the FILLs and the channels that the
latching has emptied (R6, R172, R173). -/

namespace Sys2Proof.Machine

/-! ### DRAIN under PROTECT -/

/-- DRAIN is forced: HELD under PROTECT (R7). -/
def State.drainForced (s : State) : Prop := (s.entry .drain).lease = .held ∧ (s.entry .drain).holder = some ⟨.protect, none⟩

theorem State.drainForced.of_entry {s t : State} (h : s.drainForced) (he : t.entry .drain = s.entry .drain) : t.drainForced := by
  unfold State.drainForced
  rw [he]
  exact h

theorem State.drainForced.frame {s t : State} {l : List Block} (h : s.drainForced) (k : s.keepsBut t l)
    (hl : Block.arb ∉ l := by decide) : t.drainForced :=
  h.of_entry (k.entry .drain hl)

theorem State.drainForced.holds {s : State} (h : s.drainForced) {who : Holder} (hw : who ≠ ⟨.protect, none⟩) : s.holds who .drain = false := by
  unfold State.holds
  rw [h.2]
  simp [Ne.symm hw]

theorem State.drainForced.releaseIf {s : State} (h : s.drainForced) {who : Holder} (hw : who ≠ ⟨.protect, none⟩) (r : Resource) :
    (s.releaseIf who r).drainForced :=
  h.of_entry (s.entry_releaseIf_ne who r (h.holds hw))

theorem State.drainForced.releases {s t : State} (h : s.drainForced) {who : Holder} (hr : Releases who s.seats t.seats)
    (hw : who ≠ ⟨.protect, none⟩) : t.drainForced := by
  rcases hr.only .drain with e | ⟨e1, e2⟩
  · exact absurd (Option.some.inj (e.symm.trans h.2)) hw
  · exact ⟨e1.trans h.1, e2.trans h.2⟩

theorem State.drainForced.withdraw {s : State} (h : s.drainForced) {who : Holder} (hw : who ≠ ⟨.protect, none⟩) : (s.withdraw who).drainForced :=
  h.releases (withdraw_releases s who).1 hw

theorem State.drainForced.ask {s : State} (h : s.drainForced) {r : Resource} (hr : r ≠ .drain) (who : Holder) (serial : Nat)
    (want : Option Column) : (s.ask r who serial want).drainForced :=
  h.of_entry (by rw [entry_ask, if_neg hr.symm])

theorem State.drainForced.changePosition {s : State} (h : s.drainForced) (c : Column) : (s.changePosition c).drainForced := by
  unfold State.changePosition
  split
  · exact h
  · split
    · exact h
    · exact h.of_entry (State.entry_editEntry _ _ _ _)

theorem State.drainForced.toInlet {s : State} (h : s.drainForced) (who : Holder) (serial : Nat) (c : Column) : (s.toInlet who serial c).drainForced := by
  unfold State.toInlet
  dsimp only
  split
  · exact (h.changePosition c).ask (by decide) _ _ _
  · exact h.changePosition c

theorem slotWho_ne_protect (i : SlotId) (sl : Slot) : slotWho i sl ≠ ⟨.protect, none⟩ := by
  unfold slotWho
  split <;> exact fun e => by cases e

theorem State.drainForced.enterWaitSoft {s : State} (h : s.drainForced) (i : SlotId) : (s.enterWaitSoft i).drainForced := by
  unfold State.enterWaitSoft
  split
  next sl w hf =>
    have hw := slotWho_ne_protect i sl
    exact (((h.withdraw hw).releaseIf hw .inlet).releaseIf hw .selector).frame (State.keepsBut_setWork _ _ _)
  · exact h

theorem State.drainForced.fillAsks {s : State} (h : s.drainForced) (i : SlotId) : (s.fillAsks i).drainForced := by
  unfold State.fillAsks
  split
  · dsimp only
    split
    · exact (h.frame (State.keepsBut_setWork _ _ _)).ask (by decide) _ _ _
    · exact h.frame (State.keepsBut_setWork _ _ _)
  · exact h

theorem State.drainForced.judgeFill {s : State} (h : s.drainForced) (i : SlotId) : (s.judgeFill i).drainForced := by
  unfold State.judgeFill
  split
  · exact h
  next sl w hf =>
    dsimp only
    split
    · split
      · exact h.fillAsks i
      · exact h
    · split
      · split
        · exact h.of_entry (State.entry_putEntry _ _ _ _)
        · exact h.enterWaitSoft i
      · split
        · split
          · exact h.enterWaitSoft i
          · split
            · exact h
            · exact (h.withdraw (slotWho_ne_protect i sl)).toInlet _ _ _
        · exact h

theorem State.drainForced.judgeFills {s : State} (h : s.drainForced) (but : Option SlotId) : (s.judgeFills but).drainForced := by
  unfold State.judgeFills
  have key : ∀ (l : List SlotId) (t : State), t.drainForced → (l.foldl (fun s i => if but = some i then s else s.judgeFill i) t).drainForced := by
    intro l
    induction l with
    | nil => exact fun t ht => ht
    | cons i l ih =>
      intro t ht
      refine ih _ ?_
      dsimp only
      split
      · exact ht
      · exact ht.judgeFill i
  exact key _ s h

theorem State.drainForced.startRegen {s : State} (h : s.drainForced) (g : Regen) : (s.startRegen g).drainForced := by
  have h1 := h.frame (s.keepsBut_setColumn g.column
    { s.column g.column with state := .regenerating, remaining := 0, breakthrough := none })
  have h2 := fun b : Prop => fun [Decidable b] => show State.drainForced (Prod.fst (if b then _ else (_, false))) by
    split
    · exact h1.frame (State.keepsBut_standbyIn _ (Column.other g.column))
    · exact h1
  exact ((((h2 _).frame (State.keepsBut_setRegen _ _)).frame (State.keepsBut_post _ _ _ _)).frame
    (State.keepsBut_postInService _ _ _)).judgeFills none

theorem State.drainForced.grantLease {s : State} (h : s.drainForced) {r : Resource} (hr : r ≠ .drain) (w : Waiter) :
    (s.grantLease r w).drainForced := by
  obtain ⟨e1, e2⟩ := entry_grantLease s r .drain w
  rw [if_neg hr.symm] at e1 e2
  exact ⟨e1.trans h.1, e2.trans h.2⟩

theorem State.drainForced.selectorGranted {s : State} (h : s.drainForced) (who : Holder) : (s.selectorGranted who).drainForced := by
  have h1 : ∀ b : Bool, (if b then s.regenSelectorGranted else s).drainForced := fun b => by
    split
    · unfold State.regenSelectorGranted
      split
      · split
        · exact h.startRegen _
        · exact h
      · exact h
    · exact h
  have hheld : ∀ t : State, t.drainForced → (t.selectorHeld who).drainForced := fun t ht => by
    unfold State.selectorHeld
    split
    · unfold State.regenSelectorHeld
      split
      · exact ht
      · split
        · exact ht.ask (by decide) _ _ _
        · exact ht.ask (by decide) _ _ _
        · exact ht
        · exact ht
    · split
      next i _ =>
        unfold State.fillSelectorHeld
        split
        · exact ht
        · dsimp only
          split
          · exact ht.enterWaitSoft i
          · exact ht.toInlet _ _ _
      · exact ht
  obtain ⟨t, heq, ht⟩ : ∃ t, t = (if s.isRegen who = true then s.regenSelectorGranted else s) ∧ t.drainForced := ⟨_, rfl, h1 _⟩
  unfold State.selectorGranted
  dsimp only
  rw [← heq]
  split
  · exact hheld t ht
  · exact ht

theorem State.keepsBut_doorGrant (s : State) (i : SlotId) : s.keepsBut (s.doorGranted i) [.door, .drive, .pool] := by
  unfold State.doorGranted
  split
  · exact s.keepsBut_refl _
  next sl dry w h =>
    exact (((State.keepsBut_mono (s.keepsBut_setWork i _) (by decide : _ ⊆ [Block.door, .drive, .pool])).step
      (State.keepsBut_withDrive _ _) (by decide)).step (State.keepsBut_setRod _ _) (by decide))

/-! ### The arbiter while a trip is latched -/

theorem State.tableSafe.free_of_trip {s : State} (h : s.tableSafe) (hl : s.latched = true) {r : Resource} (hr : r.inTripSet = true) :
    (s.entry r).lease = .free :=
  (State.hasHolder_false s r).mp (h.withdrawn hl r hr)

theorem settleInterlock_latched {s : State} (h : s.tableSafe) (hl : s.latched = true) :
    s.settleInterlock = { s with water := { s.water with interlock := s.interlockMet } } := by
  have hf := h.free_of_trip hl (r := .heater) rfl
  have hsus : ∀ t : State, (t.entry .heater).lease = .free → t.suspend .heater = t := fun t ht => by
    unfold State.suspend
    simp [ht]
  have hres : ∀ t : State, (t.entry .heater).lease = .free → t.restore .heater = t := fun t ht => by
    unfold State.restore
    simp [ht]
  unfold State.settleInterlock
  dsimp only
  split
  next hi => rw [← hi]
  next =>
    split
    · split
      · exact hres _ hf
      · exact hsus _ hf
    · rfl

theorem inTripSet_dose (k : ReservoirId) : (Resource.dose k).inTripSet = true := rfl

theorem yieldNext_latched {s : State} (h : s.tableSafe) (hl : s.latched = true) : s.yieldNext = none := by
  have h1 : s.heatYielder = none := by
    unfold State.heatYielder
    simp [h.free_of_trip hl (r := .heater) rfl]
  have h2 : s.doseYielder = none := by
    refine List.find?_eq_none.mpr fun c _ => ?_
    have : (s.entry (s.channelPump (s.channel c))).lease = .free := h.free_of_trip hl (by
      exact inTripSet_dose _)
    simp [this]
  unfold State.yieldNext
  rw [h1, h2]
  rfl

/-- What is granted while a trip is latched. -/
theorem chosen_latched {s : State} (hl : s.latched = true) {r : Resource} {w : Waiter} (h : s.chosenWaiter r = some w) :
    r = .selector ∨ r = .drain ∨ r = .doorDrive := by
  have hno : ¬r.inTripSet = true := fun hr => by
    have := (eligible_spec (chosenWaiter_spec h).2.2).2.1 hr
    rw [hl] at this
    cases this
  cases r with
  | selector => exact .inl rfl
  | drain => exact .inr (.inl rfl)
  | doorDrive => exact .inr (.inr rfl)
  | dose k => exact absurd (inTripSet_dose k) hno
  | brine => exact absurd rfl hno
  | inlet => exact absurd rfl hno
  | circ => exact absurd rfl hno
  | heater => exact absurd rfl hno

/-- What the arbiter's own steps keep while a trip is latched. -/
structure Stills (P : State → Prop) : Prop where
  interlock : ∀ (s : State) (b : Bool), P s → P { s with water := { s.water with interlock := b } }
  barred : ∀ s : State, P s → P s.markBarred
  choice : ∀ s : State, P s → P s.choose.2
  grant : ∀ (s : State) (r : Resource) (w : Waiter), s.latched = true → s.tableSafe → P s → s.chosenWaiter r = some w →
    (r = .selector ∨ r = .drain ∨ r = .doorDrive) → P ((s.grantLease r w).ownerGranted r w.who)

section Still

variable {P : State → Prop} (hP : Stills P)
include hP

theorem Stills.judge {s : State} (hl : s.latched = true) (ht : s.tableSafe) (h : P s) : P s.judge := by
  unfold State.judge
  rw [settleInterlock_latched ht hl]
  exact hP.barred _ (hP.interlock s _ h)

theorem Stills.grants {s : State} (hl : s.latched = true) (ht : s.tableSafe) (h : P s) (r : Resource) : P (s.grant r) := by
  unfold State.grant
  split
  next w hw => exact hP.grant s r w hl ht h hw (chosen_latched hl hw)
  next => exact h

theorem Stills.grantNext {s t : State} (hl : s.latched = true) (ht : s.tableSafe) (h : P s) (hg : s.grantNext = some t) : P t := by
  unfold State.grantNext at hg
  split at hg
  · cases hg
  · split at hg <;> cases hg
    · exact Stills.grants hP (s := s.choose.2) hl (ht.congr rfl rfl rfl) (hP.choice s h) _
    · exact hP.grants hl ht h _

theorem Stills.settleFor : ∀ (n : Nat) {s : State}, s.latched = true → s.tableSafe → P s → P (s.settleFor n)
  | 0, _, hl, ht, h => hP.judge hl ht h
  | n + 1, s, hl, ht, h => by
    have h1 := hP.judge hl ht h
    have hj := judge_settled s
    have hl1 := (State.latched_congr hj.fixed).trans hl
    unfold State.settleFor
    dsimp only
    rw [yieldNext_latched (hj.tables ht) hl1]
    dsimp only
    split
    next t hg =>
      have hs := grantNext_settled hg
      exact Stills.settleFor n ((State.latched_congr hs.fixed).trans hl1) (hs.tables (hj.tables ht)) (hP.grantNext hl1 (hj.tables ht) h1 hg)
    next => exact h1

theorem Stills.settle {s : State} (hl : s.latched = true) (ht : s.tableSafe) (h : P s) : P s.settle :=
  Stills.settleFor hP 128 hl ht h

end Still

theorem State.keepsBut_markBarred (s : State) : s.keepsBut s.markBarred [.arb] := .ite _ (s.keepsBut_putEntry _ _) (s.keepsBut_refl _)

theorem entry_markBarred (s : State) {r : Resource} (hr : r ≠ .doorDrive) : s.markBarred.entry r = s.entry r := by
  unfold State.markBarred
  dsimp only
  split
  · rw [State.entry_putEntry, if_neg hr]
  · rfl

/-- The arbiter does not take DRAIN from PROTECT. -/
theorem drainForced_stills : Stills State.drainForced where
  interlock s b h := h
  barred s h := h.of_entry (entry_markBarred s (by decide))
  choice s h := h
  grant s r w hl ht h hw hr := by
    rcases hr with rfl | rfl | rfl
    · exact (h.grantLease (by decide) w).selectorGranted _
    · have := h.1
      rw [(chosenWaiter_spec hw).1] at this
      cases this
    · have h1 := h.grantLease (r := .doorDrive) (by decide) w
      change ((s.grantLease .doorDrive w).slotGranted w.who State.doorGranted).drainForced
      unfold State.slotGranted
      split
      · exact h1.frame (State.keepsBut_doorGrant _ _)
      · exact h1

end Sys2Proof.Machine

/-! What the latching of a trip has emptied stays empty while the arbiter settles (R6, R172). -/

namespace Sys2Proof.Machine

/-! ### Neither FILL nor regeneration -/

theorem TripDone.of {s t : State} (h : TripDone s) (hl : t.latched = s.latched) (hf : ∀ i, t.fillAt i = none)
    (he : ∀ r, r.inTripSet = true → t.entry r = s.entry r) : TripDone t where
  latched := hl.trans h.latched
  fills := hf
  line r hr := by
    rw [table_of_entry (he r hr)]
    exact h.line r hr

theorem latched_of_prot {s t : State} (h : t.prot = s.prot) : t.latched = s.latched := by
  unfold State.latched
  rw [h]

/-- Work of another kind put into a slot. -/
theorem fillAt_setWork_other {s : State} (h : ∀ j, s.fillAt j = none) (i : SlotId) {x : Work} (hx : ∀ w, x ≠ .fill w) (j : SlotId) :
    (s.setWork i x).fillAt j = none := by
  cases hp : s.pool[i] with
  | none =>
    unfold State.setWork
    rw [hp]
    exact h j
  | some sl =>
    rw [State.setWork_held hp]
    by_cases hj : j = i
    · unfold State.fillAt
      rw [hj, State.pool_setSlot_self]
      dsimp only
      split
      next w _ => exact absurd rfl (hx w)
      next => rfl
    · exact (fillAt_congr (State.pool_setSlot_ne _ hj _)).trans (h j)

theorem TripDone.setWork {s : State} (h : TripDone s) (i : SlotId) {x : Work} (hx : ∀ w, x ≠ .fill w) : TripDone (s.setWork i x) :=
  h.of (latched_of_prot (s.keepsBut_setWork i x).prot) (fillAt_setWork_other h.fills i hx) fun r _ => (s.keepsBut_setWork i x).entry r

theorem fillAt_fixOutcome {s : State} (h : ∀ j, s.fillAt j = none) (i : SlotId) (o : OutcomeCode) (j : SlotId) : (s.fixOutcome i o).fillAt j = none := by
  cases hp : s.pool[i] with
  | none =>
    unfold State.fixOutcome
    rw [hp]
    exact h j
  | some sl =>
    rw [State.fixOutcome_held hp]
    by_cases hj : j = i
    · unfold State.fillAt
      rw [hj, State.pool_setSlot_self]
      dsimp only
      split
      next e => cases e
      next => rfl
    · exact (fillAt_congr (State.pool_setSlot_ne _ hj _)).trans (h j)

theorem TripDone.endLetGo {s : State} (h : TripDone s) (hl : s.seats.legal) (i : SlotId) (o : OutcomeCode) (who : Holder) :
    TripDone (s.endLetGo i o who) where
  latched := (State.latched_congr (endLetGo_effect s i o who).fixed).trans h.latched
  fills j := (fillAt_congr (congrArg (fun v : Vector (Option Slot) 12 => v[j]) (pool_endLetGo s i o who))).trans (fillAt_fixOutcome h.fills i o j)
  line r hr := List.eq_nil_iff_forall_not_mem.mpr fun x hx => by
    have := line_endLetGo hl i o who r hx
    rw [h.line r hr] at this
    cases this

/-! ### A DRAIN that ends -/

theorem State.keepsBut_drainFinished (s : State) (i : SlotId) (o : OutcomeCode) (answer : Bool) :
    s.keepsBut (s.finishDrain i o answer) [.arb, .drive, .sense, .door, .pool, .water, .ports] := by
  unfold State.finishDrain
  split
  next => exact s.keepsBut_refl _
  next sl w h =>
    have h1 : s.keepsBut (s.endLetGo i o (slotWho i sl)) [.arb, .drive, .sense, .door, .pool, .water, .ports] :=
      State.keepsBut_mono (s.keepsBut_endLetGo i _ _) (by decide)
    exact (State.keepsBut.ite (o = .done) (h1.step (State.keepsBut_withWater _ _) (by decide)) h1).step
      (State.keepsBut_endSlot _ _ _ _ _) (by decide)

theorem TripDone.finishDrain {s : State} (h : TripDone s) (hl : s.seats.legal) (i : SlotId) (o : OutcomeCode) (answer : Bool) :
    TripDone (s.finishDrain i o answer) := by
  unfold State.finishDrain
  split
  next => exact h
  next sl w hat =>
    have h1 := h.endLetGo hl i o (slotWho i sl)
    refine TripDone.endSlot (s := if o = .done then (s.endLetGo i o (slotWho i sl)).setTank 0 true else s.endLetGo i o (slotWho i sl))
      ?_ i o [] answer
    split
    · exact h1.frame (State.keepsBut_withWater _ _)
    · exact h1

theorem TripDone.judgeDrain {s : State} (h : TripDone s) (hl : s.seats.legal) (i : SlotId) : TripDone (s.judgeDrain i) := by
  rcases judgeDrain_cases s i with e | ⟨w, e⟩ | e | ⟨sl, e⟩ <;> rw [e]
  · exact h
  · exact h.setWork i fun _ c => by cases c
  · exact h.finishDrain hl i _ _
  · have hd := h.finishDrain hl i .timeout true
    exact hd.of (State.latched_congr (fault_effect (.refl _) _ _ _).fixed) (fun j => (fillAt_congr (by rw [(State.keepsBut_fault _ _ _ _).pool])).trans (hd.fills j))
      fun r _ => (State.keepsBut_fault _ _ _ _).entry r

theorem State.keepsBut_drainJudged (s : State) (i : SlotId) :
    s.keepsBut (s.judgeDrain i) [.arb, .drive, .sense, .door, .pool, .water, .ports, .prot] := by
  rcases judgeDrain_cases s i with e | ⟨w, e⟩ | e | ⟨sl, e⟩ <;> rw [e]
  · exact s.keepsBut_refl _
  · exact State.keepsBut_mono (s.keepsBut_setWork i _) (by decide)
  · exact State.keepsBut_mono (s.keepsBut_drainFinished i _ _) (by decide)
  · exact (State.keepsBut_mono (s.keepsBut_drainFinished i _ _) (by decide)).step (State.keepsBut_fault _ _ _ _) (by decide)

/-! ### What stays -/

/-- A trip has emptied the water path, and the channels stand as in `d`. -/
structure Quelled (d : Dose) (s : State) : Prop where
  trip : TripDone s
  regen : s.soft.regen = none
  dose : s.dose = d

theorem Quelled.of {d : Dose} {s t : State} (h : Quelled d s) (ht : TripDone t) (hs : t.soft = s.soft) (hd : t.dose = s.dose) : Quelled d t :=
  ⟨ht, by rw [hs]; exact h.regen, hd.trans h.dose⟩

theorem entry_grantLease_ne (s : State) {r q : Resource} (h : q ≠ r) (w : Waiter) : (s.grantLease r w).entry q = s.entry q := by
  have he : ∀ (t : State) (f : Entry → Entry), t.arb.table = s.arb.table → (t.editEntry r f).entry q = s.entry q := fun t f ht => by
    rw [State.entry_editEntry, if_neg h, State.entry_congr ht]
  cases r with
  | selector =>
    unfold State.grantLease
    dsimp only
    split
    · exact he _ _ rfl
    · exact he _ _ rfl
  | _ => exact he _ _ rfl

theorem Quelled.grantLease {d : Dose} {s : State} (h : Quelled d s) {r : Resource} (hr : r.inTripSet = false) (w : Waiter) :
    Quelled d (s.grantLease r w) := by
  obtain ⟨k1, k2, -, k4, -, k6, -⟩ := grantLease_rest s r w
  exact h.of (h.trip.of (State.latched_congr k1) (fun i => (fillAt_congr (by rw [k2])).trans (h.trip.fills i))
    fun q hq => entry_grantLease_ne s (fun e => by rw [e, hr] at hq; cases hq) w) k4 k6

theorem Quelled.selectorGranted {d : Dose} {s : State} (h : Quelled d s) (who : Holder) : s.selectorGranted who = s := by
  have hno : s.isRegen who = false := by
    unfold State.isRegen
    rw [h.regen]
  have hheld : s.selectorHeld who = s := by
    unfold State.selectorHeld
    simp only [hno, Bool.false_eq_true, if_false]
    split
    · unfold State.fillSelectorHeld
      rw [h.trip.fills]
    · rfl
  unfold State.selectorGranted
  simp only [hno, Bool.false_eq_true, if_false, hheld, ite_self]

/-- The arbiter takes up nothing that a trip has ended. -/
theorem quelled_stills (d : Dose) : Stills (Quelled d) where
  interlock s b h := h.of (h.trip.frame (State.keepsBut_withWater _ _)) rfl rfl
  barred s h := h.of (h.trip.of (latched_of_prot s.keepsBut_markBarred.prot)
      (fun i => (fillAt_congr (by rw [s.keepsBut_markBarred.pool])).trans (h.trip.fills i))
      fun r hr => entry_markBarred s fun e => by rw [e] at hr; cases hr) s.keepsBut_markBarred.soft s.keepsBut_markBarred.dose
  choice s h := h.of (h.trip.of rfl h.trip.fills fun _ _ => rfl) rfl rfl
  grant s r w hl ht h hw hr := by
    have hq := h.grantLease (r := r) (by rcases hr with rfl | rfl | rfl <;> rfl) w
    have hgt := (grantLease_tables ht hw).seatsLegal
    obtain ⟨u, hu⟩ : ∃ u, u = s.grantLease r w := ⟨_, rfl⟩
    rw [← hu] at hq hgt ⊢
    rcases hr with rfl | rfl | rfl
    · change Quelled d (u.selectorGranted w.who)
      rw [hq.selectorGranted]
      exact hq
    · change Quelled d (u.slotGranted w.who State.drainGranted)
      unfold State.slotGranted
      split
      next i _ =>
        have hset := hq.trip.setWork i (x := .drain ⟨Timer.zero, none⟩) fun _ c => by cases c
        have ks := u.keepsBut_setWork i (.drain ⟨Timer.zero, none⟩)
        have kj := State.keepsBut_drainJudged (u.setWork i (.drain ⟨Timer.zero, none⟩)) i
        refine hq.of (hset.judgeDrain (fun r => ?_) i) (kj.soft.trans ks.soft) (kj.dose.trans ks.dose)
        rw [table_of_entry (ks.entry r)]
        exact hgt r
      next => exact hq
    · change Quelled d (u.slotGranted w.who State.doorGranted)
      unfold State.slotGranted
      split
      next i _ =>
        have k := u.keepsBut_doorGrant i
        refine hq.of (hq.trip.of (latched_of_prot k.prot) (fun j => ?_) fun r _ => k.entry r) k.soft k.dose
        unfold State.doorGranted
        split
        · exact hq.trip.fills j
        next sl dry w _ =>
          exact fillAt_setWork_other hq.trip.fills i (fun _ c => by cases dry <;> cases c) j
      next => exact hq

end Sys2Proof.Machine

/-! A confirmed CROSSED of a LEAK or TANK_HIGH point (R171 to R173, R176): the force taken, the fault, and O43. -/

namespace Sys2Proof.Machine

/-! ### The force taken -/

/-- The protection as the force of a cause has it. -/
structure Protection.Forces (p q : Protection) (c : TripCause) : Prop where
  force : q.force = .forcing
  flood : c = .flood → q.forceFlood = true
  overfill : c = .overfill → q.forceOverfill = true
  groups : q.groups = p.groups
  causes : (q.flood, q.overfill, q.overtemp) = (p.flood, p.overfill, p.overtemp)

/-- The protection with another record, DRAIN not yet looked at. -/
def State.guarded (s : State) (p : Protection) : State := { s with prot := p }

/-- The record of a cause that forces. -/
def Protection.marks (p : Protection) : TripCause → Protection
  | .flood => { p with forceFlood := true }
  | .overfill => { p with forceOverfill := true }
  | .overtemp => p

theorem Protection.marks_forces (p : Protection) {c : TripCause} {q : Protection} (h : q.force = .forcing)
    (hq : (q.forceFlood, q.forceOverfill, q.groups, q.flood, q.overfill, q.overtemp) =
      ((p.marks c).forceFlood, (p.marks c).forceOverfill, (p.marks c).groups, (p.marks c).flood, (p.marks c).overfill, (p.marks c).overtemp)) :
    p.Forces q c := by
  simp only [Prod.mk.injEq] at hq
  obtain ⟨h1, h2, h3, h4, h5, h6⟩ := hq
  refine ⟨h, ?_, ?_, ?_, ?_⟩
  · rintro rfl
    exact h1
  · rintro rfl
    exact h2
  · rw [h3]
    cases c <;> rfl
  · rw [h4, h5, h6]
    cases c <;> rfl

theorem takeForce_eq (s : State) (c : TripCause) : s.takeForce c = match s.prot.force with
    | .off => (s.guarded { s.prot.marks c with force := .forcing }).forceDrain
    | .forcing => s.guarded (s.prot.marks c)
    | .postrun => s.guarded { s.prot.marks c with force := .forcing, postrun := Timer.zero } := by
  cases c <;> rfl

theorem takeForce_cases (s : State) (c : TripCause) : ∃ p, s.prot.Forces p c ∧
    (s.prot.force = .off ∧ s.takeForce c = (s.guarded p).forceDrain ∨ s.prot.force ≠ .off ∧ s.takeForce c = s.guarded p) := by
  have hforce : (s.prot.marks c).force = s.prot.force := by cases c <;> rfl
  rw [takeForce_eq]
  cases hf : s.prot.force with
  | off => exact ⟨_, s.prot.marks_forces (by rfl) (by rfl), .inl ⟨rfl, rfl⟩⟩
  | forcing => exact ⟨_, s.prot.marks_forces (hforce.trans hf) (by rfl), .inr ⟨(fun e => by cases e), rfl⟩⟩
  | postrun => exact ⟨_, s.prot.marks_forces (by rfl) (by rfl), .inr ⟨(fun e => by cases e), rfl⟩⟩

theorem TripDone.guarded {s : State} (h : TripDone s) {p : Protection} {c : TripCause} (hp : s.prot.Forces p c) : TripDone (s.guarded p) := by
  have hcauses := hp.causes
  simp only [Prod.mk.injEq] at hcauses
  obtain ⟨h1, h2, h3⟩ := hcauses
  exact h.of (by unfold State.latched State.guarded; rw [h1, h2, h3]) h.fills fun _ _ => rfl

theorem State.latched_guarded {s : State} {p : Protection} {c : TripCause} (hp : s.prot.Forces p c) : (s.guarded p).latched = s.latched := by
  have hcauses := hp.causes
  simp only [Prod.mk.injEq] at hcauses
  obtain ⟨h1, h2, h3⟩ := hcauses
  unfold State.latched State.guarded
  rw [h1, h2, h3]

theorem TripDone.forceDrain {s : State} (h : TripDone s) (ht : s.tableSafe) : TripDone s.forceDrain := by
  have hi := ht.inlet_free h.latched
  have hs : TripDone s.seizeDrain := h.of (latched_of_prot (s.keepsBut_editEntry .drain _).prot)
    (fun i => (fillAt_congr (by rw [State.seizeDrain, (s.keepsBut_editEntry .drain _).pool])).trans (h.fills i))
    fun r hr => s.entry_seizeDrain_ne fun e => by rw [e] at hr; cases hr
  rw [State.forceDrain_eq]
  split
  · exact h
  · exact hs.finishDrain (seizeDrain_tables ht hi).seatsLegal _ _ _
  · exact hs

/-- What the force of a cause does. -/
structure ForceTaken (s t : State) (c : TripCause) : Prop where
  forces : s.prot.Forces t.prot c
  frame : s.keepsBut t [.arb, .drive, .sense, .door, .pool, .ports, .prot]
  tables : t.tableSafe
  drain : s.prot.force = .off → t.drainForced
  done : TripDone s → TripDone t

theorem takeForce_taken {s : State} {c : TripCause} (ht : s.tableSafe) (hl : s.latched = true)
    (hd : s.prot.force = .off → ∀ h, (s.entry .drain).holder = some h → h.ident ≠ .protect) : ForceTaken s (s.takeForce c) c := by
  have hi := ht.inlet_free hl
  have htab := (takeForce_works c fun _ => hi).works.tables ht
  obtain ⟨p, hp, ⟨hoff, he⟩ | ⟨hon, he⟩⟩ := takeForce_cases s c
  · have hg : (s.guarded p).tableSafe := ht.congr rfl rfl (State.latched_guarded hp)
    obtain ⟨h1, h2, -, h4⟩ := forceDrain_takes hg (by exact hi) (hd hoff)
    rw [he] at htab ⊢
    refine ⟨?_, ?_, htab, fun _ => ⟨h1, h2⟩, fun h => (h.guarded hp).forceDrain hg⟩
    · rw [h4.prot]
      exact hp
    · exact (State.keepsBut_mono (s.keepsBut_withProt p) (by decide)).step h4 (by decide)
  · rw [he] at htab ⊢
    exact ⟨hp, State.keepsBut_mono (s.keepsBut_withProt p) (by decide), htab, fun h => absurd h hon, fun h => h.guarded hp⟩

end Sys2Proof.Machine

/-! A cause handed in, whatever has latched before it (R171, R172, R176). -/

namespace Sys2Proof.Machine

/-! ### No regeneration is left -/

theorem regen_endRegen {s : State} (h : s.latched = true) (o : OutcomeCode) (answer : Bool) : (s.endRegen o answer).soft.regen = none := by
  unfold State.endRegen
  split
  next hg => exact hg
  next g hg =>
    split
    next =>
      have h1 := (State.keepsBut_mono (s.keepsBut_withdraw (regenWho g)) (by decide : _ ⊆ tripBlocks)).step (State.keepsBut_setRegen _ none) (by decide)
      unfold State.endInStarting
      dsimp only
      obtain ⟨d, hd⟩ : ∃ d, d = (s.withdraw (regenWho g)).setRegen none := ⟨_, rfl⟩
      have hregen : d.soft.regen = none := by rw [hd]; rfl
      rw [← hd] at h1 ⊢
      have h2 : ∀ b : Bool, (if b then d.joinHead g.column else d).soft.regen = none ∧ s.keepsBut (if b then d.joinHead g.column else d) tripBlocks :=
        fun b => by
          split
          · refine ⟨?_, h1.step (State.keepsBut_joinHead _ _) (by decide)⟩
            unfold State.joinHead
            split <;> exact hregen
          · exact ⟨hregen, h1⟩
      obtain ⟨hr, hk⟩ := h2 (g.requester.isNone || (d.cfg.autoRegen && (d.column g.column).state == .exhausted))
      have ka := State.keepsBut_answerRegen (if (g.requester.isNone || (d.cfg.autoRegen && (d.column g.column).state == .exhausted)) = true
        then d.joinHead g.column else d) g o (byte1 0 ++ byte1 0) answer
      rw [takeHead_latched ((latched_of_prot ((ka.prot).trans (hk.prot (by decide)))).trans h), ka.soft]
      exact hr
    next =>
      have h1 := ((State.keepsBut_mono (s.keepsBut_releaseAll (regenWho g)) (by decide : _ ⊆ tripBlocks)).step
        (State.keepsBut_withdraw _ (regenWho g)) (by decide)).step (State.keepsBut_recordAborted _ g o false) (by decide)
      unfold State.abortRegen
      dsimp only
      generalize ((s.releaseAll (regenWho g)).withdraw (regenWho g)).recordAborted g o false = d at h1 ⊢
      have h2 := (h1.step (State.keepsBut_setColumn d g.column { d.column g.column with
        state := .exhausted, remaining := 0, last := .aborted, breakthrough := none }) (by decide)).step (State.keepsBut_setRegen _ none) (by decide)
      obtain ⟨e, he⟩ : ∃ e, e = (d.setColumn g.column { d.column g.column with
        state := .exhausted, remaining := 0, last := .aborted, breakthrough := none }).setRegen none := ⟨_, rfl⟩
      have hregen : e.soft.regen = none := by rw [he]; rfl
      rw [← he] at h2 ⊢
      have h3 : (if e.cfg.autoRegen = true then e.joinTail g.column else e).soft.regen = none ∧
          s.keepsBut (if e.cfg.autoRegen = true then e.joinTail g.column else e) tripBlocks := by
        split
        · refine ⟨?_, h2.step (State.keepsBut_joinTail _ _) (by decide)⟩
          unfold State.joinTail
          split <;> exact hregen
        · exact ⟨hregen, h2⟩
      obtain ⟨hr, hk⟩ := h3
      generalize (if e.cfg.autoRegen = true then e.joinTail g.column else e) = f at hr hk ⊢
      have kf := ((State.keepsBut_mono (f.keepsBut_post .regenEnded (columnCode g.column) 3) (by decide : _ ⊆ [Block.ports, .pool, .arb, .drive, .sense, .door])).step
        (State.keepsBut_answerRegen _ g o (byte1 (phaseCode g.phase) ++ byte1 g.counted) answer) (by decide)).step
        (State.keepsBut_judgeFills _ none) (by decide)
      rw [takeHead_latched ((latched_of_prot ((kf.prot).trans (hk.prot (by decide)))).trans h), kf.soft]
      exact hr

/-! ### The cause joins the set -/

/-- The part with a cause in the set, before the force is taken. -/
def State.joined (s : State) (c : TripCause) : State :=
  if s.hasCause c = true then s else if s.latched = true then s.addCause c else (s.addCause c).tripWork

/-- What the force and the fault of a cause find. -/
structure Joined (s u : State) (c : TripCause) : Prop where
  cause : u.hasCause c = true
  others : ∀ d, d ≠ c → u.hasCause d = s.hasCause d
  latched : u.latched = true
  tables : u.tableSafe
  force : u.prot.force = s.prot.force
  groups : u.prot.groups = s.prot.groups
  cfg : u.cfg = s.cfg
  clock : u.drive.clock = s.drive.clock
  tank : u.water.tank = s.water.tank
  drain : (∀ h, (s.entry .drain).holder = some h → h.ident ≠ .protect) → ∀ h, (u.entry .drain).holder = some h → h.ident ≠ .protect
  quelled : s.latched = false → Quelled u.dose u ∧ ∀ k, (u.channel k).tripped

theorem hasCause_addCause_ne (s : State) {c d : TripCause} (h : d ≠ c) : (s.addCause c).hasCause d = s.hasCause d := by
  cases c with
  | flood => cases d with
    | flood => exact absurd rfl h
    | overfill => rfl
    | overtemp => rfl
  | overfill => cases d with
    | overfill => exact absurd rfl h
    | flood => rfl
    | overtemp => rfl
  | overtemp => cases d with
    | overtemp => exact absurd rfl h
    | flood => rfl
    | overfill => rfl

theorem keepsBut_tripWork (s : State) : s.keepsBut s.tripWork (.dose :: tripBlocks) := by
  have h1 : s.keepsBut (tripResources.foldl State.revoke s) tripBlocks :=
    .foldl _ (fun t r => State.keepsBut_mono (t.keepsBut_revoke r) (by decide)) _ (s.keepsBut_refl _)
  unfold State.tripWork
  dsimp only
  generalize tripResources.foldl State.revoke s = u at h1 ⊢
  have h2 : u.keepsBut (allSlots.foldl State.tripSlot u) tripBlocks := .foldl _ (fun t i => t.keepsBut_tripSlot i) _ (u.keepsBut_refl _)
  generalize allSlots.foldl State.tripSlot u = v at h2 ⊢
  have h3 := v.keepsBut_endRegen .tripped true
  generalize v.endRegen .tripped true = w at h3 ⊢
  have h4 : w.keepsBut (allChannels.foldl State.channelTripped w) [.dose, .ports] :=
    .foldl _ (fun t c => t.keepsBut_channelTripped c) _ (w.keepsBut_refl _)
  exact (((State.keepsBut_mono h1 (by decide)).step h2 (by decide)).step h3 (by decide)).step h4 (by decide)

theorem quelled_tripWork {s : State} (ht : s.tableSafe) (c : TripCause) : Quelled (s.addCause c).tripWork.dose (s.addCause c).tripWork := by
  have hd := tripDone_endRegen ht c
  have hl : (allSlots.foldl State.tripSlot (tripResources.foldl State.revoke (s.addCause c))).latched = true :=
    (tripSlots_left allSlots (tripLeft_revokes ht c)).1.latched
  have hr := regen_endRegen hl .tripped true
  unfold State.tripWork
  dsimp only
  generalize (allSlots.foldl State.tripSlot (tripResources.foldl State.revoke (s.addCause c))).endRegen .tripped true = w at hd hr ⊢
  have k : w.keepsBut (allChannels.foldl State.channelTripped w) [.dose, .ports] :=
    .foldl _ (fun t c => t.keepsBut_channelTripped c) _ (w.keepsBut_refl _)
  exact ⟨hd.frame k, by rw [k.soft]; exact hr, rfl⟩

theorem clock_of_fixed {s t : State} (h : t.fixed = s.fixed) : t.drive.clock = s.drive.clock := congrArg Fixed.clock h

theorem joined_joins {s : State} (ht : s.tableSafe) (c : TripCause) : Joined s (s.joined c) c := by
  unfold State.joined
  split
  next hc =>
    exact ⟨hc, fun _ _ => rfl, State.latched_of_cause hc, ht, rfl, rfl, rfl, rfl, rfl, id, fun h => by
      rw [State.latched_of_cause hc] at h
      cases h⟩
  next hc =>
    have hadd : ∀ x : State, x = s.addCause c → x.prot.force = s.prot.force ∧ x.prot.groups = s.prot.groups ∧ x.cfg = s.cfg ∧
        x.drive.clock = s.drive.clock ∧ x.water.tank = s.water.tank ∧ x.entry .drain = s.entry .drain := by
      rintro x rfl
      cases c <;> exact ⟨rfl, rfl, rfl, rfl, rfl, rfl⟩
    obtain ⟨h1, h2, h3, h4, h5, h6⟩ := hadd _ rfl
    split
    next hl =>
      exact ⟨s.hasCause_addCause c, fun d hd => hasCause_addCause_ne s hd, s.latched_addCause c, (addCause_works c hl).works.tables ht, h1, h2,
        h3, h4, h5, fun h x hx => h x (by rwa [h6] at hx), fun h => by rw [hl] at h; cases h⟩
    next =>
      have hw := tripWork_latches ht c
      have hf := (tripWork_effect (.refl (s.addCause c))).fixed
      have hp := (s.addCause c).prot_tripWork
      have hwater := (keepsBut_tripWork (s.addCause c)).water (by decide)
      exact ⟨hw.cause, fun d hd => (State.hasCause_congr hf d).trans (hasCause_addCause_ne s hd), hw.latched, hw.tables,
        (congrArg Protection.force hp).trans h1, (congrArg Protection.groups hp).trans h2, (State.cfg_congr hf).trans h3,
        (clock_of_fixed hf).trans h4, (by rw [hwater]; exact h5), drain_tripWork ht c,
        fun _ => ⟨quelled_tripWork ht c, hw.channels⟩⟩

end Sys2Proof.Machine

/-! O43: a confirmed CROSSED of a LEAK or TANK_HIGH point latches the trip, and the measurement taken. -/

namespace Sys2Proof.Machine

/-! ### The cause handed in -/

/-- The kind of the fault of a cause. -/
def TripCause.faultKind : TripCause → FaultKind
  | .flood => .flood
  | .overfill => .overfill
  | .overtemp => .overtemp

theorem handIn_eq (s : State) {c : TripCause} (hc : c ≠ .overtemp) (point : Nat) : s.handIn c point =
    if s.hasCause c = true then (s.joined c).takeForce c
    else (((s.joined c).takeForce c).tripFault c point).post .trip (causeCode c) ((s.joined c).takeForce c).causeSet := by
  unfold State.handIn State.joined
  by_cases h : s.hasCause c = true
  · simp only [h, if_true, hc, if_false]
  · simp only [h, if_false, hc, Bool.false_eq_true]

theorem State.tripFault_eq (s : State) {c : TripCause} (hc : c ≠ .overtemp) (point : Nat) :
    s.tripFault c point = s.fault c.faultKind point s.water.tank := by
  cases c with
  | flood => rfl
  | overfill => rfl
  | overtemp => exact absurd rfl hc

/-- A fault leaves the causes and the force. -/
theorem prot_fault_keeps (s : State) (k : FaultKind) (x d : Nat) :
    ∃ groups multiple, (s.fault k x d).prot = { s.prot with groups := groups, multiple := multiple } := by
  unfold State.fault
  dsimp only
  split
  · split
    · exact ⟨_, _, rfl⟩
    · exact ⟨_, _, rfl⟩
  · exact ⟨_, _, rfl⟩

/-- What a cause of the force that is handed in leaves. -/
structure Handed (s t : State) (c : TripCause) (point : Nat) : Prop where
  cause : t.hasCause c = true
  others : ∀ d, d ≠ c → t.hasCause d = s.hasCause d
  tables : t.tableSafe
  force : t.prot.force = .forcing
  flood : c = .flood → t.prot.forceFlood = true
  overfill : c = .overfill → t.prot.forceOverfill = true
  drain : s.prot.force = .off → t.drainForced
  quelled : s.latched = false → Quelled t.dose t ∧ ∀ k, (t.channel k).tripped
  fault : s.hasCause c = false → s.cfg.capture[faultKindIndex c.faultKind] = true → t.prot.groups[faultGroupIndex (faultGroupOf c.faultKind)] =
    some ((s.prot.groups[faultGroupIndex (faultGroupOf c.faultKind)]).getD ⟨c.faultKind, point, s.drive.clock, s.water.tank⟩)
  cfg : t.cfg = s.cfg
  mode : t.mode = s.mode
  clock : t.drive.clock = s.drive.clock
  points : t.sense.points = s.sense.points

theorem hasCause_of_causes {s t : State} (h : (t.prot.flood, t.prot.overfill, t.prot.overtemp) = (s.prot.flood, s.prot.overfill, s.prot.overtemp))
    (c : TripCause) : t.hasCause c = s.hasCause c := by
  simp only [Prod.mk.injEq] at h
  obtain ⟨h1, h2, h3⟩ := h
  cases c
  · exact h1
  · exact h2
  · exact h3

theorem handIn_handed {s : State} (ht : s.tableSafe) {c : TripCause} (hc : c ≠ .overtemp) (point : Nat)
    (hd : s.prot.force = .off → ∀ h, (s.entry .drain).holder = some h → h.ident ≠ .protect) : Handed s (s.handIn c point) c point := by
  have hj := joined_joins ht c
  have hf := takeForce_taken (c := c) hj.tables hj.latched fun hoff => hj.drain (hd (hj.force.symm.trans hoff))
  have hworks := handIn_works s c point
  have hquelled : s.latched = false → Quelled ((s.joined c).takeForce c).dose ((s.joined c).takeForce c) ∧
      ∀ k, (((s.joined c).takeForce c).channel k).tripped := fun hl => by
    obtain ⟨hq, hch⟩ := hj.quelled hl
    refine ⟨⟨hf.done hq.trip, by rw [hf.frame.soft]; exact hq.regen, rfl⟩, fun k => ?_⟩
    rw [State.channel_congr hf.frame.dose]
    exact hch k
  have hcauses := hasCause_of_causes hf.forces.causes
  have hclock : ((s.joined c).takeForce c).drive.clock = s.drive.clock :=
    (clock_of_fixed (takeForce_works c fun h => h.inlet_free hj.latched).fixed).trans hj.clock
  rw [handIn_eq s hc] at hworks ⊢
  obtain ⟨v, hv⟩ : ∃ v, v = (s.joined c).takeForce c := ⟨_, rfl⟩
  rw [← hv] at hf hworks hquelled hcauses hclock ⊢
  split at hworks
  next h =>
    rw [if_pos h]
    exact ⟨(hcauses c).trans hj.cause, fun d hne => (hcauses d).trans (hj.others d hne), hf.tables, hf.forces.force, hf.forces.flood,
      hf.forces.overfill, fun hoff => hf.drain (hj.force.trans hoff), hquelled, (fun h' => by rw [h] at h'; cases h'), congrArg Fixed.cfg hworks.fixed,
      congrArg Fixed.mode hworks.fixed, congrArg Fixed.clock hworks.fixed, congrArg Fixed.points hworks.fixed⟩
  next h =>
    rw [if_neg h]
    have k := (v.keepsBut_tripFault c point).step (State.keepsBut_post _ .trip (causeCode c) v.causeSet) (by decide)
    have hprot : ((v.tripFault c point).post .trip (causeCode c) v.causeSet).prot = (v.tripFault c point).prot := (State.keepsBut_post _ _ _ _).prot
    have hfixed := (post_effect (tripFault_effect (.refl v) c point) .trip (causeCode c) v.causeSet).fixed
    rw [v.tripFault_eq hc] at *
    obtain ⟨t, htt⟩ : ∃ t, t = (v.fault c.faultKind point v.water.tank).post .trip (causeCode c) v.causeSet := ⟨_, rfl⟩
    rw [← htt] at k hprot hfixed hworks ⊢
    obtain ⟨gs, mu, hgs⟩ := prot_fault_keeps v c.faultKind point v.water.tank
    have hkeep := hprot.trans hgs
    have hcause := hasCause_of_causes (s := v) (t := t) (by rw [hkeep])
    refine ⟨(hcause c).trans ((hcauses c).trans hj.cause), fun d hne => (hcause d).trans ((hcauses d).trans (hj.others d hne)), hworks.works.tables ht, ?_,
      ?_, ?_, fun hoff => (hf.drain (hj.force.trans hoff)).frame k, fun hl => ?_, fun _ hcap => ?_, congrArg Fixed.cfg hworks.fixed,
      congrArg Fixed.mode hworks.fixed, congrArg Fixed.clock hworks.fixed, congrArg Fixed.points hworks.fixed⟩
    · rw [hkeep]; exact hf.forces.force
    · rw [hkeep]; exact hf.forces.flood
    · rw [hkeep]; exact hf.forces.overfill
    · obtain ⟨hq, hch⟩ := hquelled hl
      refine ⟨⟨hq.trip.of (State.latched_congr hfixed) (fun i => (fillAt_congr (by rw [k.pool])).trans (hq.trip.fills i)) fun r _ => k.entry r,
        by rw [k.soft]; exact hq.regen, rfl⟩, fun j => ?_⟩
      rw [State.channel_congr k.dose]
      exact hch j
    · rw [hprot, State.group_fault (by rw [hf.frame.cfg, hj.cfg]; exact hcap), hclock, hf.forces.groups, hj.groups, hf.frame.water, hj.tank]

/-! ### The clause -/

theorem leakLatchesTheTrip : Clauses.LeakLatchesTheTrip := by
  intro s g count n c hconf hrole ht hdrain
  have hc : c ≠ .overtemp := by rcases hrole with ⟨-, rfl⟩ | ⟨-, rfl⟩ <;> exact fun e => by cases e
  have hi : (s.point n).role ≠ .inletCond := by rcases hrole with ⟨e, -⟩ | ⟨e, -⟩ <;> simp [e]
  have hb : (s.point n).role ≠ .brineCond := by rcases hrole with ⟨e, -⟩ | ⟨e, -⟩ <;> simp [e]
  have hn : (s.point n).role ≠ .none := by rcases hrole with ⟨e, -⟩ | ⟨e, -⟩ <;> simp [e]
  obtain ⟨m, hm⟩ : ∃ m, m = s.measured g n .crossed := ⟨_, rfl⟩
  have km : s.keepsBut m [.sense] := hm ▸ s.keepsBut_measured g n .crossed
  have htm : m.tableSafe := ht.congr (by rw [km.arb]) (by unfold State.doorClosed; rw [km.door]) (latched_of_prot km.prot)
  obtain ⟨D, hD⟩ : ∃ D, D = m.handIn c n.val := ⟨_, rfl⟩
  have hH : Handed m D c n.val := hD ▸ handIn_handed htm hc n.val fun hoff h he => hdrain (by rw [← km.prot]; exact hoff) h (by rw [← km.entry]; exact he)
  have hpoint : (m.point n).state = .crossed := by rw [hm, State.point_measured, if_pos rfl]; rfl
  have hgone : ∀ x, (s.point n).role = x → D.roleGone x = false := fun x hx => by
    have hh : D.roleHolder x = some n := by
      have : m.roleHolder x = some n := hm ▸ (s.roleHolder_measured g n .crossed x).trans (hx ▸ hconf.2)
      unfold State.roleHolder at this ⊢
      rwa [hH.points]
    have hp : (D.point n).state = .crossed := by rw [State.point_of_points hH.points]; exact hpoint
    rw [← Bool.not_eq_true, State.roleGone_holder hh, hp]
    exact fun e => by cases e
  have hover : D.forceOver = false := by
    unfold State.forceOver
    rcases hrole with ⟨e, rfl⟩ | ⟨e, rfl⟩
    · rw [hH.flood rfl, hgone .leak e]
      rfl
    · rw [hH.overfill rfl, hgone .tankHigh e]
      exact Bool.and_false _
  have hdel : D = (s.measured g n .crossed).deliver n (s.point n).state .crossed := by
    rw [deliver_held hconf hn, ← hm]
    have hstay : (m.deliverTrip c n .crossed) = D := by
      unfold State.deliverTrip
      rw [if_pos rfl, ← hD, State.judgeForce_stays hover]
    rcases hrole with ⟨e, rfl⟩ | ⟨e, rfl⟩ <;> rw [e] <;> exact hstay.symm
  obtain ⟨t, hexec, htold, hfol⟩ := measurementEnd_delivers hconf.1 hi hb hdel
  obtain ⟨w, hw⟩ : ∃ w, w = D.tells n .crossed count := ⟨_, rfl⟩
  rw [← hw] at htold hfol
  have kw := htold.frame
  have hlw : w.latched = true := (latched_of_prot kw.prot).trans (State.latched_of_cause hH.cause)
  have htw : w.tableSafe := hH.tables.congr (by rw [kw.arb]) (by unfold State.doorClosed; rw [kw.door]) (latched_of_prot kw.prot)
  have hset := settle_settled (Settled.refl w)
  have ks := hfol.after
  have hprot : t.prot = D.prot := ks.prot.trans ((prot_settle w).trans kw.prot)
  have htab : t.tableSafe := (hset.tables htw).congr (by rw [ks.arb]) (by unfold State.doorClosed; rw [ks.door]) (latched_of_prot ks.prot)
  have hcause : ∀ d, t.hasCause d = D.hasCause d := fun d => hasCause_of_causes (by rw [hprot]) d
  have hlt : t.latched = true := State.latched_of_cause ((hcause c).trans hH.cause)
  refine ⟨t, hexec, hlt, (hcause c).trans hH.cause, fun d hd => ?_, htab, ?_, fun r hr => ?_, fun hl => ?_, fun hoff => ?_, fun hno hcap => ?_, ?_, ?_, ?_⟩
  · rw [hcause, hH.others d hd]
    exact hasCause_of_causes (by rw [km.prot]) d
  · rw [hprot]
    exact hH.force
  · exact ⟨htab.free_of_trip hlt hr, (htab.legal r).1.mp (htab.free_of_trip hlt hr)⟩
  · obtain ⟨hq, hch⟩ := hH.quelled ((latched_of_prot km.prot).trans hl)
    have hqw : Quelled D.dose w := hq.of (hq.trip.frame kw) kw.soft kw.dose
    have hqs := (quelled_stills D.dose).settle hlw htw hqw
    refine ⟨fun r hr => ?_, fun k => ?_⟩
    · rw [ks.entry]
      exact List.map_eq_nil_iff.mp (hqs.trip.line r hr)
    · rw [State.channel_congr (ks.dose.trans hqs.dose)]
      exact hch k
  · have hd := drainForced_stills.settle hlw htw ((hH.drain (by rw [km.prot]; exact hoff)).frame kw)
    exact hd.frame ks
  · have hfault := hH.fault ((hasCause_of_causes (by rw [km.prot]) c).trans hno)
    rw [km.prot, km.drive, km.water, km.cfg] at hfault
    rw [hprot]
    rcases hrole with ⟨-, rfl⟩ | ⟨-, rfl⟩
    · exact hfault hcap
    · exact hfault hcap
  · rw [ks.cfg, State.cfg_congr hset.fixed, kw.cfg, hH.cfg, km.cfg]
  · exact (ks .mode (by decide)).trans ((congrArg Fixed.mode hset.fixed).trans ((kw .mode (by decide)).trans (hH.mode.trans (km .mode (by decide)))))
  · rw [ks.drive, clock_of_fixed hset.fixed, kw.drive, hH.clock, km.drive]

/-- Settles O43: each clause follows the count through the point's debounce to the block that the role of the point names. -/
theorem measurementTaken : Obligations.MeasurementTaken :=
  ⟨measurementCompared, levelsDelivered, tankMinDelivered, conductivityDelivered, hardnessSensed, leakLatchesTheTrip⟩

end Sys2Proof.Machine

/-! A DRAIN that is DONE at its grant lets go of everything its port and slot hold (R29, R48), and a grant of DRAIN makes a DRAIN of the
slot it names. `inPlace` speaks of the requester that the slot's operation is, for a DRY the identity DRY, and says nothing of the same
slot under its port's identity: a slot with a DRY, whose port's identity holds CIRC and waits for DRAIN, meets every hypothesis of
`Clauses.DoorOpens`, and the grant that follows the opening frees the CIRC that the opening has SUSPENDED. Refutes O48. -/

namespace Sys2Proof.Machine

/-! ### The counterexample -/

def dryInDelay : Slot := ⟨.l1, 7, .dry ⟨60, 60, .ajar, Timer.zero, Timer.zero, false, false, false, []⟩, 0, 0, none⟩

def drainWaiter : Waiter := ⟨⟨.port .l1, some 0⟩, 0, none, false⟩

/-- The reset state with the water absent, DRAIN_POSTRUN 0, and a door that three readings have found open. -/
def dryState : State :=
  { State.reset with
    door := { State.reset.door with door := ⟨true, false, 3⟩ }
    sense := { State.reset.sense with
      points := upd State.reset.sense.points 4 { State.reset.point 4 with role := .tankMin, state := .crossed } }
    drive := { State.reset.drive with postrun := 0 } }

/-- Slot 0 has a DRY, and its port's identity holds CIRC and waits for DRAIN. -/
def strayCirc : State :=
  let s := dryState.setSlot 0 (some dryInDelay)
  let s := s.putEntry .circ ((s.entry .circ).leasedTo .held drainWaiter.who)
  s.putEntry .drain { s.entry .drain with waiters := [drainWaiter] }

theorem strayCirc_inPlace : strayCirc.inPlace := State.inPlace_of_placedAt (by decide +kernel)

theorem strayCirc_tableSafe : strayCirc.tableSafe where
  legal r := by
    have hall : ∀ q ∈ allResources, ((strayCirc.entry q).lease = .free ↔ (strayCirc.entry q).holder = none) ∧
        q.allows (strayCirc.entry q).lease = true := by decide +kernel
    exact hall r (Resource.mem_allResources r)
  path h := absurd (by decide +kernel : (strayCirc.entry .inlet).lease = .free) h
  apart h := absurd h (by decide +kernel)
  alone h := absurd h (by decide +kernel)
  withdrawn h := absurd h (by decide +kernel)
  shut _ _ _ := by decide +kernel

theorem strayCirc_heaterSafe : strayCirc.heaterSafe := ⟨by decide +kernel, fun h => absurd h (by decide +kernel)⟩

/-- CIRC is HELD, and the door change frees it. -/
theorem strayCirc_circ : (strayCirc.entry .circ).lease = .held ∧ (strayCirc.doorChange.entry .circ).lease = .free := by decide +kernel

theorem not_doorOpens : ¬ Clauses.DoorOpens := by
  intro h
  obtain ⟨t, hexec, -, -, -, -, -, -, -, hheld, -⟩ := h strayCirc (by decide +kernel) (by decide +kernel) strayCirc_tableSafe strayCirc_heaterSafe
  obtain rfl : strayCirc.doorChange = t := Host.Outcome.next.inj hexec
  obtain ⟨hbefore, hafter⟩ := strayCirc_circ
  have hsuspended := (hheld strayCirc_inPlace (fun g hg => absurd hg (by rw [show strayCirc.soft.regen = none by rfl]; simp))
    (by decide +kernel) .circ rfl (.inl hbefore)).1
  rw [hafter] at hsuspended
  cases hsuspended

/-- Refutes O48: a DRAIN granted to the holder of CIRC, and DONE at once, frees the CIRC that the opening has SUSPENDED. -/
theorem not_doorStateChanges : ¬ Obligations.DoorStateChanges := by
  intro h
  obtain ⟨hopens, -⟩ := h
  exact not_doorOpens hopens

end Sys2Proof.Machine

/-! A HEAT that is DONE lets go of everything its port and slot hold (R29), and a grant of DRAIN makes a DRAIN of the slot it names.
`inPlace` leaves an operation a lease that is RELEASING beside its own resources, and says nothing of a slot under another port's
identity: with SELECTOR and INLET RELEASING in the name of a HEAT, and L1's identity waiting for DRAIN in the slot of L2's CIRCULATE,
the period end that finds the HEAT at its target frees INLET, grants DRAIN and ends the CIRCULATE's run, against
`Clauses.HeldGeneratorsCount`. Refutes O44. -/

namespace Sys2Proof.Machine

/-! ### The counterexample -/

def runningSlot : Slot := ⟨.l2, 5, .circulate ⟨100, 60, Timer.zero, true⟩, 1, 0, none⟩

def heatingSlot : Slot := ⟨.l3, 9, .heat ⟨600, 60, Timer.zero, true⟩, 2, 0, none⟩

def strayDrain : Waiter := ⟨⟨.port .l1, some 1⟩, 3, none, false⟩

/-- The reset state with the door closed behind a met interlock. -/
def closedState : State :=
  { State.reset with
    door := { State.reset.door with door := ⟨true, true, 0⟩ }
    water := { State.reset.water with probeValid := true, interlock := true, temperature := 590 }
    sense := { State.reset.sense with
      points := upd State.reset.sense.points 4 { State.reset.point 4 with role := .tankMin, state := .clear } } }

/-- L2's CIRCULATE holds CIRC and L3's HEAT holds HEATER, with SELECTOR and INLET RELEASING in the HEAT's name; L1's identity waits for
DRAIN in the slot of the CIRCULATE. -/
def strayPeriod : State :=
  let s := (closedState.setSlot 1 (some runningSlot)).setSlot 2 (some heatingSlot)
  let s := s.putEntry .circ ((s.entry .circ).leasedTo .held ⟨.port .l2, some 1⟩)
  let s := s.putEntry .heater ((s.entry .heater).leasedTo .held ⟨.port .l3, some 2⟩)
  let s := s.putEntry .inlet ((s.entry .inlet).leasedTo .releasing ⟨.port .l3, some 2⟩)
  let s := s.putEntry .selector ((s.entry .selector).leasedTo .releasing ⟨.port .l3, some 2⟩)
  s.putEntry .drain { s.entry .drain with waiters := [strayDrain] }

/-- The readings that find the target reached. -/
def targetReached : PeriodReadings := ⟨false, false, false, false, true, 600⟩

theorem strayPeriod_inPlace : strayPeriod.inPlace := State.inPlace_of_placedAt (by decide +kernel)

theorem strayPeriod_catchUp : strayPeriod.catchUp = strayPeriod := by decide +kernel

theorem strayPeriod_heatsInTime : strayPeriod.heatsInTime := by
  have hall : ∀ j ∈ allSlots, (strayPeriod.heatAt j).all fun x => !x.2.passed.due && decide (x.2.passed.passed + 1 < 50 * x.2.limit) := by
    decide +kernel
  intro j x hx _
  have h := hall j (mem_allSlots j)
  rw [hx] at h
  simpa using h

/-- The slot of the CIRCULATE after the period end. -/
theorem strayPeriod_slot : (strayPeriod.endPeriod targetReached).pool[(1 : SlotId)] =
    some { runningSlot with work := .drain ⟨Timer.zero, none⟩ } := by decide +kernel

theorem not_heldGeneratorsCount : ¬ Clauses.HeldGeneratorsCount := by
  intro h
  obtain ⟨t, hexec, hcirc, -⟩ := h strayPeriod targetReached strayPeriod_catchUp (by decide +kernel) strayPeriod_inPlace strayPeriod_heatsInTime
  obtain rfl : strayPeriod.endPeriod targetReached = t := Host.Outcome.next.inj hexec
  obtain ⟨-, -, hrun⟩ := hcirc _ (.inl (by decide +kernel)) (by decide +kernel) rfl
  obtain ⟨y, hy, -⟩ := hrun 1 runningSlot ⟨100, 60, Timer.zero, true⟩ (by decide +kernel) (by decide +kernel) (by decide +kernel) rfl rfl
  rw [strayPeriod_slot] at hy
  cases hy

/-- Refutes O44: the run of a CIRCULATE whose slot a grant of DRAIN takes does not move on. -/
theorem not_drivePeriodEnds : ¬ Obligations.DrivePeriodEnds := by
  rintro ⟨-, -, -, -, -, hheld, -⟩
  exact not_heldGeneratorsCount hheld

end Sys2Proof.Machine

/-! The items of the configuration, and CONFIG_READ and CONFIG_WRITE of them (R88, R189). -/

namespace Sys2Proof.Machine

/-! ### The rows -/

/-- The code of an item (R189). -/
def Item.code : Item → Nat
  | .flowPulsesPerDl => 0x01 | .noFlowTimeout => 0x02 | .tankLimit => 0x03 | .drainPostrun => 0x04 | .drainLimit => 0x05
  | .overtempLimit => 0x06 | .circRampGrade => 0x07 | .capRated .a => 0x10 | .capRated .b => 0x11 | .exhaustPolicy => 0x12
  | .autoRegen => 0x13 | .brineVolume => 0x14 | .soakTime => 0x15 | .rinseVolume => 0x16 | .saltPerDl => 0x17
  | .weakPercent => 0x18 | .hardnessSource => 0x20 | .hardnessSet => 0x21 | .hardnessTable => 0x22 | .factorTable => 0x23
  | .resFull _ => 0x24 | .resLowmark _ => 0x25 | .strokeVol _ => 0x26 | .saltFull => 0x27 | .saltLowmark => 0x28
  | .portRing _ => 0x30 | .regenRing => 0x31 | .channelRing _ => 0x32 | .dryRing => 0x33 | .urgentTenure => 0x34
  | .regrantHoldoff => 0x35 | .scanPeriod => 0x38 | .publishEvery => 0x39 | .pushStart => 0x40 | .pushMax => 0x41
  | .pushGrade => 0x42 | .pushMaxhold => 0x43 | .extendTimeout => 0x44 | .rodHold => 0x45 | .retractTimeout => 0x46
  | .capture _ => 0x48

/-- The index of an item (R189). -/
def Item.index : Item → Nat
  | .resFull n => n.val + 1 | .resLowmark n => n.val + 1 | .strokeVol n => n.val + 1 | .portRing p => (portIndex p).val + 1
  | .channelRing c => c.val | .capture k => k.val + 1
  | _ => 0

/-- The items that take a number, in the order of R189. -/
def numberItems : List Item :=
  [.flowPulsesPerDl, .noFlowTimeout, .tankLimit, .drainPostrun, .drainLimit, .overtempLimit, .circRampGrade, .capRated .a, .capRated .b,
    .exhaustPolicy, .autoRegen, .brineVolume, .soakTime, .rinseVolume, .saltPerDl, .weakPercent, .hardnessSource, .hardnessSet,
    .resFull 0, .resFull 1, .resFull 2, .resLowmark 0, .resLowmark 1, .resLowmark 2, .strokeVol 0, .strokeVol 1, .strokeVol 2,
    .saltFull, .saltLowmark, .portRing .l1, .portRing .l2, .portRing .l3, .regenRing, .channelRing 0, .channelRing 1, .channelRing 2,
    .channelRing 3, .dryRing, .urgentTenure, .regrantHoldoff, .scanPeriod, .publishEvery, .pushStart, .pushMax, .pushGrade, .pushMaxhold,
    .extendTimeout, .rodHold, .retractTimeout, .capture 0, .capture 1, .capture 2, .capture 3, .capture 4, .capture 5, .capture 6,
    .capture 7, .capture 8, .capture 9, .capture 10, .capture 11, .capture 12, .capture 13]

/-- The row of an item. -/
def Settings.row (g : Settings) (i : Item) : ItemRow := ⟨i.code, i.index, g.read i, (itemRange i).1, (itemRange i).2, itemLive i⟩

theorem toNat_not_eq_ite (b : Bool) : (!b).toNat = if b then 0 else 1 := by cases b <;> rfl

theorem itemRows_eq (g : Settings) : g.itemRows = numberItems.map g.row := by
  have h3 : List.finRange 3 = [0, 1, 2] := by decide
  have h4 : List.finRange 4 = [0, 1, 2, 3] := by decide
  have h14 : List.finRange 14 = [0, 1, 2, 3, 4, 5, 6, 7, 8, 9, 10, 11, 12, 13] := by decide
  unfold Settings.itemRows numberItems
  simp only [h3, h4, h14, List.map_cons, List.map_nil, Settings.row, Settings.read, toNat_not_eq_ite]
  simp only [toNat_eq_ite]
  rfl

theorem mem_itemRows {g : Settings} {x : ItemRow} : x ∈ g.itemRows ↔ ∃ i ∈ numberItems, g.row i = x := by
  rw [itemRows_eq, List.mem_map]

/-- An item is found by its code and index. -/
theorem itemOf_code (i : Item) : itemOf i.code i.index = some i := by
  cases i with
  | capRated c => cases c <;> rfl
  | resFull n => fin_cases n <;> rfl
  | resLowmark n => fin_cases n <;> rfl
  | strokeVol n => fin_cases n <;> rfl
  | portRing p => cases p <;> rfl
  | channelRing c => fin_cases c <;> rfl
  | capture k => fin_cases k <;> rfl
  | _ => rfl

theorem mem_numberItems {i : Item} (h1 : i ≠ .hardnessTable) (h2 : i ≠ .factorTable) : i ∈ numberItems := by
  cases i with
  | hardnessTable => exact absurd rfl h1
  | factorTable => exact absurd rfl h2
  | capRated c => cases c <;> decide
  | resFull n => fin_cases n <;> decide
  | resLowmark n => fin_cases n <;> decide
  | strokeVol n => fin_cases n <;> decide
  | portRing p => cases p <;> decide
  | channelRing c => fin_cases c <;> decide
  | capture k => fin_cases k <;> decide
  | _ => decide

theorem numberItems_plain : ∀ i ∈ numberItems, i ≠ .hardnessTable ∧ i ≠ .factorTable := by decide

theorem unindexed_some {i j : Item} {x : Nat} (h : unindexed i x = some j) : i = j ∧ x = 0 := by
  unfold unindexed at h
  split at h
  · cases h
    exact ⟨rfl, ‹_›⟩
  · cases h

theorem finOf_some {n x : Nat} {k : Fin n} (h : finOf n x = some k) : x = k.val := by
  unfold finOf at h
  split at h
  · cases h
    rfl
  · cases h

theorem fromOne_some {n x : Nat} {k : Fin n} (h : fromOne n x = some k) : x = k.val + 1 := by
  unfold fromOne at h
  split at h
  · cases h
  · have := finOf_some h
    omega

theorem portOf_some {x : Nat} {p : Port} (h : portOf x = some p) : x = (portIndex p).val + 1 := by
  unfold portOf at h
  split at h <;> cases h <;> rfl

/-- The code and the index of an item that is found. -/
theorem itemOf_some {c x : Nat} {i : Item} (h : itemOf c x = some i) : c = i.code ∧ x = i.index := by
  unfold itemOf at h
  have hmap : ∀ {α : Type} {k : Option α} {f : α → Item}, k.map f = some i → ∃ m, k = some m ∧ i = f m := fun h => by
    obtain ⟨m, hk, hi⟩ := Option.map_eq_some_iff.mp h
    exact ⟨m, hk, hi.symm⟩
  split at h
  case h_21 | h_22 | h_23 | h_41 =>
    obtain ⟨m, hm, rfl⟩ := hmap h
    exact ⟨rfl, fromOne_some hm⟩
  case h_26 =>
    obtain ⟨m, hm, rfl⟩ := hmap h
    exact ⟨rfl, portOf_some hm⟩
  case h_28 =>
    obtain ⟨m, hm, rfl⟩ := hmap h
    exact ⟨rfl, finOf_some hm⟩
  case h_42 => cases h
  all_goals
    obtain ⟨rfl, rfl⟩ := unindexed_some h
    exact ⟨rfl, rfl⟩

end Sys2Proof.Machine

/-! CONFIG_READ and CONFIG_WRITE of the items and of the two band tables (R88, R189). -/

namespace Sys2Proof.Machine

/-! ### The two requests -/

theorem exec_configRead {s : State} {p : Port} {tag : Nat} (h : s.hears p tag) (c x : Nat) : exec (.configRead p tag c x) s =
    .next (match itemOf c x with
      | none => s.answered p tag .badParam []
      | some i => s.answered p tag .ok (s.cfg.readBytes i)) := by
  have hcfg : (s.setRx p .synced).cfg = s.cfg := (s.keepsBut_setRx p .synced).cfg
  refine congrArg Host.Outcome.next ?_
  rw [immediate_hears h]
  cases itemOf c x with
  | none => rfl
  | some i =>
    dsimp only
    rw [hcfg]
    rfl

section Write

variable {s : State} {p : Port} {tag c x : Nat} {v : ConfigPayload} (h : s.hears p tag) (hw : v.wf c = true)
include h hw

theorem exec_configWrite_unknown (hi : itemOf c x = none) : exec (.configWrite p tag c x v) s = .next (s.answered p tag .badParam []) := by
  refine congrArg Host.Outcome.next ?_
  rw [if_pos hw, immediate_hears h, hi]
  rfl

theorem exec_configWrite_wrongMode {i : Item} (hi : itemOf c x = some i) (hm : s.mode = .run) (hl : itemLive i = false) :
    exec (.configWrite p tag c x v) s = .next (s.answered p tag .wrongMode []) := by
  refine congrArg Host.Outcome.next ?_
  rw [if_pos hw, immediate_hears h, hi]
  dsimp only
  rw [State.mode_setRx, if_pos ⟨hm, hl⟩]
  rfl

theorem exec_configWrite_open {i : Item} (hi : itemOf c x = some i) (hm : s.mode = .setup ∨ itemLive i = true) :
    exec (.configWrite p tag c x v) s = .next (match s.cfg.write i v with
      | none => s.answered p tag .badParam []
      | some g => (({ s.setRx p .synced with cfg := g } : State).itemWritten i).reply p tag .ok []) := by
  have hcfg : (s.setRx p .synced).cfg = s.cfg := (s.keepsBut_setRx p .synced).cfg
  have hclosed : ¬(s.mode = .run ∧ itemLive i = false) := fun ⟨h1, h2⟩ => by
    rcases hm with hm | hm
    · rw [hm] at h1
      cases h1
    · rw [hm] at h2
      cases h2
  refine congrArg Host.Outcome.next ?_
  rw [if_pos hw, immediate_hears h, hi]
  dsimp only
  rw [State.mode_setRx, if_neg hclosed, hcfg]
  cases s.cfg.write i v with
  | none => rfl
  | some g => rfl

/-- A write that is taken. -/
theorem exec_configWrite_taken {i : Item} {g : Settings} (hi : itemOf c x = some i) (hm : s.mode = .setup ∨ itemLive i = true)
    (hg : s.cfg.write i v = some g) :
    exec (.configWrite p tag c x v) s = .next ((({ s.setRx p .synced with cfg := g } : State).itemWritten i).reply p tag .ok []) := by
  rw [exec_configWrite_open h hw hi hm, hg]

theorem exec_configWrite_badParam {i : Item} (hi : itemOf c x = some i) (hm : s.mode = .setup ∨ itemLive i = true)
    (hg : s.cfg.write i v = none) : exec (.configWrite p tag c x v) s = .next (s.answered p tag .badParam []) := by
  rw [exec_configWrite_open h hw hi hm, hg]

end Write

/-- The configuration written before or after the frame is taken. -/
theorem State.write_setRx (s : State) (p : Port) (g : Settings) :
    ({ s.setRx p .synced with cfg := g } : State) = ({ s with cfg := g } : State).setRx p .synced := by
  cases p <;> rfl

/-! ### What a write leaves -/

theorem fixed_itemWritten (s : State) (i : Item) : (s.itemWritten i).fixed = s.fixed := by
  cases hb : i.bounds with
  | false => exact (itemWritten_plain s hb).fixed
  | true =>
    cases i with
    | capRated c => cases c <;> rfl
    | resFull n => rfl
    | saltFull =>
      change (s.saltFullWritten).fixed = s.fixed
      unfold State.saltFullWritten
      dsimp only
      split
      · exact (saltReported_effect (.refl _)).fixed
      · rfl
    | portRing p => rfl
    | _ => cases hb

/-- The responses that a write of an item ends operations with. -/
theorem txq_itemWritten (s : State) (i : Item) (p : Port) : ∃ more, ((s.itemWritten i).port p).txq = (s.port p).txq ++ more := by
  have hsame : ∀ t : State, t.ports = s.ports → ∃ more, (t.port p).txq = (s.port p).txq ++ more := fun t ht =>
    ⟨[], by unfold State.port; rw [ht, List.append_nil]⟩
  have heff : ∀ t : State, Effect s t → ∃ more, (t.port p).txq = (s.port p).txq ++ more := fun t ht => by
    obtain ⟨more, hm, -⟩ := (ht.ports p).txq
    exact ⟨more, hm⟩
  have hset : ∀ t : State, Settled s t → ∃ more, (t.port p).txq = (s.port p).txq ++ more := fun t ht => by
    obtain ⟨more, hm, -⟩ := (ht.ports p).txq
    exact ⟨more, hm⟩
  cases i with
  | capRated c => exact hsame _ (s.keepsBut_setColumn c _).ports
  | resFull n => exact hsame _ rfl
  | saltFull =>
    unfold State.itemWritten State.saltFullWritten
    dsimp only
    split
    · unfold State.saltReported
      split <;> exact hsame _ rfl
    · exact hsame _ rfl
  | exhaustPolicy => exact hset _ (judgeFills_effect (.refl s) none).settle
  | autoRegen =>
    unfold State.itemWritten State.autoRegenWritten
    dsimp only
    split
    · exact hset _ (takeHead_effect (queueExhausted_effect (.refl s))).settle
    · exact hsame _ (s.keepsBut_setQueue _).ports
  | hardnessSource =>
    unfold State.itemWritten State.hardnessWritten
    dsimp only
    split
    · exact hsame _ rfl
    · exact heff _ (setHardness_effect (.refl s) _ _)
  | hardnessSet =>
    unfold State.itemWritten State.hardnessWritten
    dsimp only
    split
    · exact hsame _ rfl
    · exact heff _ (setHardness_effect (.refl s) _ _)
  | publishEvery => exact hsame _ rfl
  | pushMax =>
    unfold State.itemWritten State.pushMaxWritten
    dsimp only
    split
    · exact hsame _ rfl
    · exact hsame _ rfl
  | _ => exact hsame _ rfl

/-! ### The items -/

theorem readBytes_number (g : Settings) {i : Item} (h : i ∈ numberItems) : g.readBytes i = byte2 (g.read i) := by
  obtain ⟨h1, h2⟩ := numberItems_plain i h
  cases i with
  | hardnessTable => exact absurd rfl h1
  | factorTable => exact absurd rfl h2
  | _ => rfl

theorem wf_number {i : Item} (h : i ∈ numberItems) {v : Nat} (hv : v < 65536) : ConfigPayload.wf i.code (.value v) = true := by
  have hcode : ∀ i ∈ numberItems, (i.code != 0x22 && i.code != 0x23) = true := by decide
  have := hcode i h
  unfold ConfigPayload.wf isWord
  simp only [Bool.and_eq_true] at this ⊢
  exact ⟨⟨by simpa using hv, this.1⟩, this.2⟩

theorem itemRows_put {g : Settings} {i : Item} {v : Nat} (h : itemInRange i v = true) :
    (g.put i v).itemRows = g.itemRows.map fun y => if y.code = i.code ∧ y.index = i.index then { y with value := v } else y := by
  rw [itemRows_eq, itemRows_eq, List.map_map]
  refine List.map_congr_left fun j _ => ?_
  have hij : (j.code = i.code ∧ j.index = i.index) ↔ j = i := by
    refine ⟨fun ⟨h1, h2⟩ => ?_, fun e => e ▸ ⟨rfl, rfl⟩⟩
    have hj := itemOf_code j
    rw [h1, h2, itemOf_code i] at hj
    exact (Option.some.inj hj).symm
  simp only [Function.comp_apply, Settings.row, hij, Settings.read_put g h]
  split <;> rfl

theorem configItems : Clauses.ConfigItems := by
  intro s p tag h
  refine ⟨fun x hx => ?_, fun item index hno htab => ?_⟩
  · obtain ⟨i, hi, rfl⟩ := mem_itemRows.mp hx
    have hof : itemOf (s.cfg.row i).code (s.cfg.row i).index = some i := itemOf_code i
    refine ⟨?_, fun v hv => ?_⟩
    · rw [exec_configRead h, hof]
      dsimp only
      rw [readBytes_number _ hi]
      rfl
    · have hw : ConfigPayload.wf (s.cfg.row i).code (.value v) = true := wf_number hi hv
      refine ⟨fun hm hl => exec_configWrite_wrongMode h hw hof hm hl, fun hm => ⟨fun hout => ?_, fun hlow hhigh => ?_⟩⟩
      · refine exec_configWrite_badParam h hw hof hm (if_neg fun hin => ?_)
        obtain ⟨h1, h2⟩ := (itemInRange_iff i v).mp hin
        rcases hout with hout | hout
        · exact absurd h1 (Nat.not_le.mpr hout)
        · exact absurd h2 (Nat.not_le.mpr hout)
      · have hin : itemInRange i v = true := (itemInRange_iff i v).mpr ⟨hlow, hhigh⟩
        obtain ⟨u, hu⟩ : ∃ u : State, u = { s.setRx p .synced with cfg := s.cfg.put i v } := ⟨_, rfl⟩
        have hfixed := fixed_itemWritten u i
        obtain ⟨more, hmore⟩ := txq_itemWritten u i p
        have hcfg : (u.itemWritten i).cfg = s.cfg.put i v := (State.cfg_congr hfixed).trans (by rw [hu])
        refine ⟨(u.itemWritten i).reply p tag .ok [], more, ?_, ?_, ?_, ?_, ?_, ?_⟩
        · rw [hu]
          exact exec_configWrite_taken h hw hof hm (if_pos hin)
        · rw [(State.keepsBut_reply _ _ _ _ _).cfg, hcfg, itemRows_put hin]
          rfl
        · rw [(State.keepsBut_reply _ _ _ _ _).cfg, hcfg]
          exact (s.cfg.tables_put i v).1
        · rw [(State.keepsBut_reply _ _ _ _ _).cfg, hcfg]
          exact (s.cfg.tables_put i v).2
        · have hport : u.port p = { s.port p with rx := .synced } := by
            rw [hu]
            exact (s.port_setRx p p .synced).trans (if_pos rfl)
          have hbase : (u.port p).txq = (s.port p).txq := by rw [hport]
          have hsend : (((u.itemWritten i).reply p tag .ok []).port p).txq = ((u.itemWritten i).port p).txq ++ [immResponse tag .ok []] := by
            unfold State.reply
            rw [State.port_send, if_pos rfl]
            rfl
          unfold State.responds
          rw [hsend, hmore, hbase, List.append_assoc]
        · exact ((State.keepsBut_reply _ _ _ _ _) .mode (by decide)).trans ((congrArg Fixed.mode hfixed).trans (by rw [hu]; exact State.mode_setRx s p _))
  · have hnone : itemOf item index = none := by
      cases ho : itemOf item index with
      | none => rfl
      | some i =>
        exfalso
        obtain ⟨rfl, rfl⟩ := itemOf_some ho
        by_cases h1 : i = .hardnessTable
        · exact htab (by subst h1; exact ⟨rfl, .inl rfl⟩)
        · by_cases h2 : i = .factorTable
          · exact htab (by subst h2; exact ⟨rfl, .inr rfl⟩)
          · exact hno (s.cfg.row i) (mem_itemRows.mpr ⟨i, mem_numberItems h1 h2, rfl⟩) ⟨rfl, rfl⟩
    exact ⟨by rw [exec_configRead h, hnone], fun v hv => exec_configWrite_unknown h hv hnone⟩

/-! ### The band tables -/

theorem strictlyRising_iff : ∀ l : List Nat, strictlyRising l = true ↔ l.Pairwise (· < ·)
  | [] => by simp [strictlyRising]
  | [a] => by simp [strictlyRising]
  | a :: b :: l => by
    have ih := strictlyRising_iff (b :: l)
    unfold strictlyRising
    rw [Bool.and_eq_true, decide_eq_true_iff, ih]
    constructor
    · rintro ⟨hab, hp⟩
      refine List.pairwise_cons.mpr ⟨fun c hc => ?_, hp⟩
      rcases List.mem_cons.mp hc with rfl | hc
      · exact hab
      · exact lt_trans hab ((List.pairwise_cons.mp hp).1 c hc)
    · intro hp
      obtain ⟨h1, h2⟩ := List.pairwise_cons.mp hp
      exact ⟨h1 b List.mem_cons_self, h2⟩

theorem hardnessTableOk_iff {bs : List (Nat × Nat)} (h : bs.length = 8) : hardnessTableOk bs = true ↔ hardnessBandsOk bs := by
  unfold hardnessTableOk hardnessBandsOk
  simp only [h, beq_self_eq_true, Bool.true_and, Bool.and_eq_true, Bool.or_eq_true, List.all_eq_true, decide_eq_true_iff, beq_iff_eq,
    strictlyRising_iff, List.pairwise_map]

theorem factorTableOk_iff {bs : List (Nat × Nat)} (h : bs.length = 8) : factorTableOk bs = true ↔ factorBandsOk bs := by
  unfold factorTableOk factorBandsOk
  simp only [h, beq_self_eq_true, Bool.true_and, Bool.and_eq_true, List.all_eq_true, decide_eq_true_iff, strictlyRising_iff,
    List.pairwise_map, and_assoc]

theorem configBands : Clauses.ConfigBands := by
  intro s p tag h
  refine ⟨exec_configRead h 0x22 0, exec_configRead h 0x23 0, fun bs hw => ?_, fun bs hw => ?_⟩
  · have hlen : bs.length = 8 := by
      unfold ConfigPayload.wf at hw
      simp only [Bool.and_eq_true, beq_iff_eq] at hw
      exact hw.1.2
    rw [← hardnessTableOk_iff hlen]
    refine ⟨fun hok => ?_, fun hok => exec_configWrite_badParam h hw (i := .hardnessTable) rfl (.inr rfl) (if_neg fun k => hok k.2)⟩
    rw [exec_configWrite_taken h hw (i := .hardnessTable) rfl (.inr rfl) (if_pos ⟨rfl, hok⟩), State.write_setRx]
    rfl
  · have hlen : bs.length = 8 := by
      unfold ConfigPayload.wf at hw
      simp only [Bool.and_eq_true, beq_iff_eq] at hw
      exact hw.1.2
    rw [← factorTableOk_iff hlen]
    refine ⟨fun hok => ?_, fun hok => exec_configWrite_badParam h hw (i := .factorTable) rfl (.inr rfl) (if_neg fun k => hok k.2)⟩
    rw [exec_configWrite_taken h hw (i := .factorTable) rfl (.inr rfl) (if_pos ⟨rfl, hok⟩), State.write_setRx]
    rfl

end Sys2Proof.Machine

/-! What a write of an item does beyond the item (R51, R75, R83 to R86, R125, R144, R168). -/

namespace Sys2Proof.Machine

/-- The configuration with an item written, the frame taken. -/
def State.itemSet (s : State) (p : Port) (i : Item) (v : Nat) : State := { s.setRx p .synced with cfg := s.cfg.put i v }

theorem State.keepsBut_itemSet (s : State) (p : Port) (i : Item) (v : Nat) : s.keepsBut (s.itemSet p i v) [.cfg, .ports] :=
  (State.keepsBut_mono (s.keepsBut_setRx p .synced) (by decide)).step (State.keepsBut_withCfg _ _) (by decide)

theorem State.ports_itemSet (s : State) (p : Port) (i : Item) (v : Nat) : (s.itemSet p i v).ports = (s.setRx p .synced).ports := rfl

theorem itemRange_word : ∀ i ∈ numberItems, (itemRange i).2 < 65536 := by decide

section Acts

variable {s : State} {p : Port} {tag : Nat} {i : Item} {v : Nat}

/-- A number in range, written where the mode lets it. -/
theorem exec_configWrite_set (h : s.hears p tag) (hi : i ∈ numberItems) (hm : s.mode = .setup ∨ itemLive i = true)
    (hlow : (itemRange i).1 ≤ v) (hhigh : v ≤ (itemRange i).2) :
    exec (.configWrite p tag i.code i.index (.value v)) s = .next (((s.itemSet p i v).itemWritten i).reply p tag .ok []) :=
  exec_configWrite_taken h (wf_number hi (lt_of_le_of_lt hhigh (itemRange_word i hi))) (itemOf_code i) hm
    (if_pos ((itemInRange_iff i v).mpr ⟨hlow, hhigh⟩))

/-- What a write leaves, where its work leaves all but some blocks. -/
theorem State.keepsBut_itemReplied {u : State} {l : List Block} (k : (s.itemSet p i v).keepsBut u l) :
    s.keepsBut (u.reply p tag .ok []) (l ++ [.cfg, .ports]) :=
  (State.keepsBut_mono (s.keepsBut_itemSet p i v) (List.subset_append_right _ _)).step
    ((State.keepsBut_mono k (List.subset_append_left l [.ports])).step (u.keepsBut_reply p tag .ok []) (List.subset_append_right _ _))
    (List.append_subset.mpr ⟨List.subset_append_left _ _, List.subset_append_of_subset_right _ (by decide)⟩)

theorem State.ports_itemReplied {u : State} (k : u.ports = (s.itemSet p i v).ports) :
    (u.reply p tag .ok []).ports = (s.answered p tag .ok []).ports := State.ports_replied k tag .ok []

/-- A write that does nothing beyond the item. -/
theorem itemUnchanged_written (h : s.hears p tag) (hi : i ∈ numberItems) (hm : s.mode = .setup ∨ itemLive i = true)
    (hlow : (itemRange i).1 ≤ v) (hhigh : v ≤ (itemRange i).2) (hw : (s.itemSet p i v).itemWritten i = s.itemSet p i v) :
    ∃ t, exec (.configWrite p tag i.code i.index (.value v)) s = .next t ∧ t.ports = (s.answered p tag .ok []).ports ∧
      s.keepsBut t [.cfg, .ports] :=
  ⟨_, by rw [exec_configWrite_set h hi hm hlow hhigh, hw], State.ports_itemReplied rfl,
    State.keepsBut_itemReplied (l := []) (State.keepsBut_refl _ _)⟩

theorem rated_written (h : s.hears p tag) (hm : s.mode = .setup) (hlow : 1000 ≤ v) (hhigh : v ≤ 65535) (c : Column) : ∃ t,
    exec (.configWrite p tag (0x10 + columnCode c) 0 (.value v)) s = .next t ∧
      t.column c = { s.column c with remaining := min (s.column c).remaining v } ∧
      t.column (Column.other c) = s.column (Column.other c) ∧ t.soft.queue = s.soft.queue ∧ t.soft.regen = s.soft.regen ∧
      t.soft.saltWait = s.soft.saltWait ∧ t.ports = (s.answered p tag .ok []).ports ∧ s.keepsBut t [.soft, .cfg, .ports] := by
  have hcode : 0x10 + columnCode c = (Item.capRated c).code ∧ 0 = (Item.capRated c).index := by cases c <;> exact ⟨rfl, rfl⟩
  have hexec := exec_configWrite_set (i := .capRated c) h (mem_numberItems (by simp) (by simp)) (.inl hm) hlow hhigh
  rw [← hcode.1, ← hcode.2] at hexec
  have hs : (s.itemSet p (.capRated c) v).soft = s.soft := (s.keepsBut_itemSet p _ v).soft
  have hrated : (s.itemSet p (.capRated c) v).rated c = v := by cases c <;> rfl
  have hwritten : (s.itemSet p (.capRated c) v).itemWritten (.capRated c) = (s.itemSet p (.capRated c) v).setColumn c
      { s.column c with remaining := min (s.column c).remaining v } := by
    show (s.itemSet p (.capRated c) v).ratedWritten c = _
    unfold State.ratedWritten
    rw [hrated, State.column_congr hs]
  rw [hwritten] at hexec
  obtain ⟨u, hu⟩ : ∃ u, u = s.itemSet p (.capRated c) v := ⟨_, rfl⟩
  have hport : u.ports = (s.setRx p .synced).ports := hu ▸ rfl
  refine ⟨_, hexec, ?_, ?_, ?_, ?_, ?_, State.ports_itemReplied (State.ports_setColumn _ _ _),
    State.keepsBut_itemReplied (l := [.soft]) (State.keepsBut_setColumn _ _ _)⟩
  · rw [State.column_congr (State.reply_soft _ _ _ _ _), State.column_setColumn, if_pos rfl]
  · rw [State.column_congr (State.reply_soft _ _ _ _ _), State.column_setColumn, if_neg (by cases c <;> decide), State.column_congr hs]
  all_goals
    rw [State.reply_soft, ← hs]
    cases c <;> rfl

theorem resFull_written (h : s.hears p tag) (hm : s.mode = .setup) (hlow : 100 ≤ v) (hhigh : v ≤ 20000) (n : ReservoirId) : ∃ t,
    exec (.configWrite p tag 0x24 (n.val + 1) (.value v)) s = .next t ∧
      (∀ m : ReservoirId, t.acct.reservoirs[m] = if m = n
        then { s.acct.reservoirs[n] with amount := min s.acct.reservoirs[n].amount v } else s.acct.reservoirs[m]) ∧
      t.acct = { s.acct with reservoirs := t.acct.reservoirs } ∧ t.ports = (s.answered p tag .ok []).ports ∧
      s.keepsBut t [.acct, .cfg, .ports] := by
  have hexec := exec_configWrite_set (i := .resFull n) h (mem_numberItems (by simp) (by simp)) (.inl hm) hlow hhigh
  have ha : (s.itemSet p (.resFull n) v).acct = s.acct := (s.keepsBut_itemSet p _ v).acct
  have hfull : (s.itemSet p (.resFull n) v).cfg.resFull[n] = v := by
    show (s.cfg.put (.resFull n) v).resFull[n] = v
    simp [Settings.put, upd]
  have hwritten : (s.itemSet p (.resFull n) v).itemWritten (.resFull n) = (s.itemSet p (.resFull n) v).setReservoir n
      { s.acct.reservoirs[n] with amount := min s.acct.reservoirs[n].amount v } := by
    show (s.itemSet p (.resFull n) v).resFullWritten n = _
    unfold State.resFullWritten
    dsimp only
    rw [hfull, ha]
  rw [hwritten] at hexec
  refine ⟨_, hexec, fun m => ?_, ?_, State.ports_itemReplied (i := .resFull n) (v := v) rfl,
    State.keepsBut_itemReplied (l := [.acct]) (State.keepsBut_setReservoir _ _ _)⟩
  · rw [(State.keepsBut_reply _ _ _ _ _).acct]
    exact (upd_get _ _ _ _).trans (by rw [ha])
  · rw [(State.keepsBut_reply _ _ _ _ _).acct, ← ha]
    rfl

theorem saltFull_written (h : s.hears p tag) (hm : s.mode = .setup) (hlow : 100 ≤ v) (hhigh : v ≤ 4000) : ∃ t,
    exec (.configWrite p tag 0x27 0 (.value v)) s = .next t ∧
      t.acct = { s.acct with salt := { s.acct.salt with amount := min s.acct.salt.amount v } } ∧
      t.soft = { s.soft with saltWait := s.soft.saltWait && decide (s.acct.salt.amount ≤ v) } ∧
      t.ports = (s.answered p tag .ok []).ports ∧ s.keepsBut t [.acct, .soft, .cfg, .ports] := by
  have hexec := exec_configWrite_set (i := .saltFull) h (mem_numberItems (by simp) (by simp)) (.inl hm) hlow hhigh
  obtain ⟨u, hu⟩ : ∃ u, u = s.itemSet p .saltFull v := ⟨_, rfl⟩
  have ku : s.keepsBut u [.cfg, .ports] := hu ▸ s.keepsBut_itemSet p _ v
  have hfull : u.cfg.saltFull = v := hu ▸ rfl
  have hports : u.ports = (s.setRx p .synced).ports := hu ▸ rfl
  rw [← hu] at hexec
  have hwritten : u.itemWritten .saltFull = if v < s.acct.salt.amount then (u.setSalt { s.acct.salt with amount := v }).saltReported else u := by
    unfold State.itemWritten State.saltFullWritten
    dsimp only
    rw [hfull, ku.acct]
  rw [hwritten] at hexec
  refine ⟨_, hexec, ?_⟩
  by_cases hv : v < s.acct.salt.amount
  · have hne : v ≠ 0 := by omega
    rw [if_pos hv, State.saltReported_eq]
    refine ⟨?_, ?_, State.ports_replied (s := s) ?_ tag .ok [], ?_⟩
    · rw [(State.keepsBut_reply _ _ _ _ _).acct, min_eq_right hv.le, ← ku.acct]
      rfl
    · rw [State.reply_soft, ← ku.soft, decide_eq_false (Nat.not_le.mpr hv)]
      simp [State.setSalt, hne]
    · exact hports
    · exact State.keepsBut_mono ((((State.keepsBut_mono ku (by decide) : s.keepsBut u [.acct, .soft, .cfg, .ports])).step
        (u.keepsBut_withAcct _) (by decide)).step ((State.keepsBut_withSoft _ _)) (by decide) |>.step (State.keepsBut_reply _ _ _ _ _) (by decide)) (by decide)
  · have hle := Nat.not_lt.mp hv
    rw [if_neg hv]
    refine ⟨?_, ?_, State.ports_replied (s := s) hports tag .ok [], ?_⟩
    · rw [(State.keepsBut_reply _ _ _ _ _).acct, ku.acct, min_eq_left hle]
    · rw [State.reply_soft, ku.soft, decide_eq_true hle, Bool.and_true]
    · exact (State.keepsBut_mono ku (by decide)).step (State.keepsBut_reply _ _ _ _ _) (by decide)

/-- A CONFIGURED hardness set by a write. -/
theorem hardness_written (h : s.hears p tag) (hi : i = .hardnessSet ∨ i = .hardnessSource) (hm : itemLive i = true)
    (hlow : (itemRange i).1 ≤ v) (hhigh : v ≤ (itemRange i).2) (hoff : (s.cfg.put i v).hardnessSensed = false) : ∃ t,
    exec (.configWrite p tag i.code i.index (.value v)) s = .next t ∧
      t.acct = { s.acct with hardness := (s.cfg.put i v).hardnessSet, sensed := false } ∧
      t.ports = ((if s.acct.hardness = (s.cfg.put i v).hardnessSet then s
        else s.post .hardnessChanged 0 (s.cfg.put i v).hardnessSet).answered p tag .ok []).ports ∧
      s.keepsBut t [.acct, .cfg, .ports] := by
  have hmem : i ∈ numberItems := by rcases hi with rfl | rfl <;> decide
  have hexec := exec_configWrite_set (i := i) h hmem (.inr hm) hlow hhigh
  obtain ⟨u, hu⟩ : ∃ u, u = s.itemSet p i v := ⟨_, rfl⟩
  obtain ⟨x, hx⟩ : ∃ x, x = (s.cfg.put i v).hardnessSet := ⟨_, rfl⟩
  have ku : s.keepsBut u [.cfg, .ports] := hu ▸ s.keepsBut_itemSet p _ v
  have hcfg : u.cfg = s.cfg.put i v := hu ▸ rfl
  have hports : u.ports = (s.setRx p .synced).ports := hu ▸ rfl
  have hwritten : u.itemWritten i = u.setHardness x false := by
    rw [hx]
    rcases hi with rfl | rfl <;> exact (if_neg (by rw [hcfg, hoff]; decide)).trans (by rw [hcfg])
  rw [← hu, hwritten] at hexec
  refine ⟨_, hexec, ?_⟩
  rw [← hx]
  unfold State.setHardness
  dsimp only
  have kw := u.keepsBut_withAcct { u.acct with hardness := x, sensed := false }
  by_cases hc : s.acct.hardness = x
  · rw [if_pos hc, if_neg (by rw [ku.acct, hc]; simp)]
    refine ⟨?_, State.ports_replied (kw.ports.trans hports) tag .ok [], ?_⟩
    · rw [(State.keepsBut_reply _ _ _ _ _).acct, ← ku.acct]
    · exact ((State.keepsBut_mono ku (by decide)).step kw (by decide)).step (State.keepsBut_reply _ _ _ _ _) (by decide)
  · rw [if_neg hc, if_pos (by rw [ku.acct]; simpa using hc)]
    refine ⟨?_, ?_, ?_⟩
    · rw [(State.keepsBut_reply _ _ _ _ _).acct, ← ku.acct]
      rfl
    · refine State.ports_replied (s := s.post .hardnessChanged 0 x) ?_ tag .ok []
      rw [← State.post_setRx]
      exact State.ports_post_clock (kw.ports.trans hports) (by rw [kw.drive, ku.drive, (s.keepsBut_setRx p .synced).drive]) _ _ _
    · exact (((State.keepsBut_mono ku (by decide)).step kw (by decide)).step (State.keepsBut_post _ _ _ _) (by decide)).step
        (State.keepsBut_reply _ _ _ _ _) (by decide)

theorem publishEvery_written (h : s.hears p tag) (hlow : 1 ≤ v) (hhigh : v ≤ 16) : ∃ t,
    exec (.configWrite p tag 0x39 0 (.value v)) s = .next t ∧
      (∀ g, t.group g = { s.group g with roundsToPublish := min (s.group g).roundsToPublish v }) ∧
      t.sense.points = s.sense.points ∧ t.sense.mode = s.sense.mode ∧ t.ports = (s.answered p tag .ok []).ports ∧
      s.keepsBut t [.sense, .cfg, .ports] := by
  have hexec := exec_configWrite_set (i := .publishEvery) h (by decide) (.inr rfl) hlow hhigh
  have hsense : (s.itemSet p .publishEvery v).sense = s.sense := (s.keepsBut_itemSet p _ v).sense
  have hevery : (s.itemSet p .publishEvery v).cfg.publishEvery = v := rfl
  have hwritten : (s.itemSet p .publishEvery v).itemWritten .publishEvery = { s.itemSet p .publishEvery v with sense := { s.sense with
      groups := updAll (fun g => { g with roundsToPublish := min g.roundsToPublish v }) s.sense.groups } } := by
    show (s.itemSet p .publishEvery v).publishWritten = _
    unfold State.publishWritten
    rw [hevery, hsense]
  rw [hwritten] at hexec
  refine ⟨_, hexec, fun g => ?_, ?_, ?_, State.ports_itemReplied (i := .publishEvery) (v := v) rfl,
    State.keepsBut_itemReplied (l := [.sense]) (State.keepsBut_withSense _ _)⟩
  · unfold State.group
    rw [(State.keepsBut_reply _ _ _ _ _).sense]
    exact updAll_get _ _ _
  · rw [(State.keepsBut_reply _ _ _ _ _).sense]
  · rw [(State.keepsBut_reply _ _ _ _ _).sense]

theorem pushMax_written (h : s.hears p tag) (hhigh : v ≤ 255) : ∃ t, exec (.configWrite p tag 0x41 0 (.value v)) s = .next t ∧
      t.drive = (if s.door.rod.state = .extending
        then { s.drive with door := { s.drive.door with staged := v, applyPending := true } } else s.drive) ∧
      t.ports = (s.answered p tag .ok []).ports ∧ s.keepsBut t [.drive, .cfg, .ports] := by
  have hexec := exec_configWrite_set (i := .pushMax) h (by decide) (.inr rfl) (Nat.zero_le _) hhigh
  have k := s.keepsBut_itemSet p .pushMax v
  have hmax : (s.itemSet p .pushMax v).cfg.pushMax = v := rfl
  have hwritten : (s.itemSet p .pushMax v).itemWritten .pushMax = { s.itemSet p .pushMax v with drive := if s.door.rod.state = .extending
        then { s.drive with door := { s.drive.door with staged := v, applyPending := true } } else s.drive } := by
    show (s.itemSet p .pushMax v).pushMaxWritten = _
    unfold State.pushMaxWritten
    rw [hmax, ← k.door, ← k.drive]
    split <;> rfl
  rw [hwritten] at hexec
  refine ⟨_, hexec, ?_, State.ports_itemReplied (i := .pushMax) (v := v) rfl,
    State.keepsBut_itemReplied (l := [.drive]) (State.keepsBut_withDrive _ _)⟩
  rw [(State.keepsBut_reply _ _ _ _ _).drive]

end Acts

theorem configWriteActs : Clauses.ConfigWriteActs := by
  intro s p tag v h _
  refine ⟨fun x hx hcode hm hlow hhigh => ?_, rated_written h, resFull_written h, saltFull_written h, fun item hd hset => ?_,
    fun item hset => ?_, publishEvery_written h, pushMax_written h⟩
  · obtain ⟨i, hi, rfl⟩ := mem_itemRows.mp hx
    refine itemUnchanged_written h hi hm hlow hhigh ?_
    have hnot : i.code ∉ [0x10, 0x11, 0x12, 0x13, 0x20, 0x21, 0x24, 0x27, 0x39, 0x41] := hcode
    cases i with
    | capRated c => exact absurd (by cases c <;> decide) hnot
    | exhaustPolicy | autoRegen | hardnessSource | hardnessSet | saltFull | publishEvery | pushMax => exact absurd (by decide) hnot
    | resFull n => exact absurd (List.mem_of_elem_eq_true rfl) hnot
    | _ => rfl
  · rcases hset with ⟨rfl, hv, rfl, hoff⟩ | ⟨rfl, rfl, rfl⟩
    · exact hardness_written (i := .hardnessSet) h (.inl rfl) rfl (Nat.zero_le _) hv hoff
    · exact hardness_written (i := .hardnessSource) h (.inr rfl) rfl (Nat.zero_le _) (by decide) rfl
  · rcases hset with ⟨rfl, hv, hon⟩ | ⟨rfl, rfl⟩
    · exact itemUnchanged_written (i := .hardnessSet) h (by decide) (.inr rfl) (Nat.zero_le _) hv (if_pos hon)
    · exact itemUnchanged_written (i := .hardnessSource) h (by decide) (.inr rfl) (Nat.zero_le _) (by decide)
        (if_pos (c := (s.itemSet p .hardnessSource 1).cfg.hardnessSensed = true)
          (e := (s.itemSet p .hardnessSource 1).setHardness (s.itemSet p .hardnessSource 1).cfg.hardnessSet false) rfl)

end Sys2Proof.Machine

/-! AUTO_REGEN and EXHAUST_POLICY written (R57, R58, R61, R189). Settles O20. -/

namespace Sys2Proof.Machine

/-! ### AUTO_REGEN -/

section AutoRegen

variable {s : State} {p : Port} {tag : Nat} (h : s.hears p tag)
include h

theorem autoRegen_off : ∃ t, exec (.configWrite p tag 0x13 0 (.value 0)) s = .next t ∧
    t.soft = { s.soft with queue := s.soft.queue.filter fun q => q.requester.isSome } ∧
    t.ports = (s.answered p tag .ok []).ports ∧ s.keepsBut t [.soft, .cfg, .ports] := by
  have hexec := exec_configWrite_set (i := .autoRegen) (v := 0) h (by decide) (.inr rfl) (by decide) (by decide)
  obtain ⟨u, hu⟩ : ∃ u, u = s.itemSet p .autoRegen 0 := ⟨_, rfl⟩
  have ku : s.keepsBut u [.cfg, .ports] := hu ▸ s.keepsBut_itemSet p _ _
  have hports : u.ports = (s.setRx p .synced).ports := hu ▸ rfl
  have hwritten : u.itemWritten .autoRegen = u.setQueue (u.soft.queue.filter fun q => q.requester.isSome) :=
    if_neg (by rw [hu]; exact Bool.false_ne_true)
  rw [← hu, hwritten] at hexec
  have kq := u.keepsBut_setQueue (u.soft.queue.filter fun q => q.requester.isSome)
  refine ⟨_, hexec, ?_, State.ports_replied (kq.ports.trans hports) tag .ok [],
    ((State.keepsBut_mono ku (by decide)).step kq (by decide)).step (State.keepsBut_reply _ _ _ _ _) (by decide)⟩
  rw [State.reply_soft, ← ku.soft]
  rfl

theorem autoRegen_on (hr : s.atRest) : ∃ u w, exec (.configWrite p tag 0x13 0 (.value 1)) s = .next (w.reply p tag .ok []) ∧
    u.headJudged w ∧ u.soft = { s.soft with queue := s.soft.queue ++ ([Column.a, .b].filter fun c => (s.column c).state == .exhausted &&
        s.soft.queue.all (fun q => q.column != c) && !s.regenOf c).map fun c => ⟨c, none, s.drive.clock⟩ } ∧
      u.ports = (s.setRx p .synced).ports ∧ u.cfg.autoRegen = true ∧ s.keepsBut u [.soft, .cfg, .ports] := by
  have hexec := exec_configWrite_set (i := .autoRegen) (v := 1) h (by decide) (.inr rfl) (by decide) (by decide)
  obtain ⟨u, hu⟩ : ∃ u, u = s.itemSet p .autoRegen 1 := ⟨_, rfl⟩
  have ku : s.keepsBut u [.cfg, .ports] := hu ▸ s.keepsBut_itemSet p _ _
  have hports : u.ports = (s.setRx p .synced).ports := hu ▸ rfl
  have hon : u.cfg.autoRegen = true := hu ▸ rfl
  have hwritten : u.itemWritten .autoRegen = u.queueExhausted.takeHead.settle := if_pos hon
  rw [← hu, hwritten] at hexec
  have hqueue := queueExhausted_eq u
  have kq := u.keepsBut_setQueue (u.soft.queue ++ u.joiners)
  have k := (State.keepsBut_mono ku (by decide : _ ⊆ [Block.soft, .cfg, .ports])).step kq (by decide)
  have hjoiners : u.joiners = ([Column.a, .b].filter fun c => (s.column c).state == .exhausted &&
        s.soft.queue.all (fun q => q.column != c) && !s.regenOf c).map fun c => ⟨c, none, s.drive.clock⟩ := by
    unfold State.joiners State.joins
    simp only [State.column_congr ku.soft, State.regenOf, ku.soft, ku.drive]
  refine ⟨u.queueExhausted, _, hexec, ?_, ?_, ?_, ?_, hqueue ▸ k⟩ <;> rw [hqueue]
  · exact (hr.frame k).headJudged
  · rw [← hjoiners, ← ku.soft]
    rfl
  · exact kq.ports.trans hports
  · exact hon

end AutoRegen

/-! ### EXHAUST_POLICY -/

theorem exhaustPolicy_quiet {s : State} {p : Port} {tag v : Nat} (h : s.hears p tag) (hv : v ≤ 1) (hr : s.atRest)
    (hf : ∀ i, s.fillAt i = none) : ∃ t, exec (.configWrite p tag 0x12 0 (.value v)) s = .next t ∧
      t.ports = (s.answered p tag .ok []).ports ∧ s.keepsBut t [.cfg, .ports] := by
  have k := s.keepsBut_itemSet p .exhaustPolicy v
  refine itemUnchanged_written (i := .exhaustPolicy) h (by decide) (.inr rfl) (Nat.zero_le _) hv ?_
  show ((s.itemSet p .exhaustPolicy v).judgeFills none).settle = _
  rw [judgeFills_none fun i => (fillAt_congr (by rw [k.pool])).trans (hf i), (hr.frame k).settle]

/-- The FILLs judged where one alone stands and its judgement leaves the others' slots. -/
theorem judgeFills_alone {s : State} {i : SlotId} (h : ∀ j, j ≠ i → s.fillAt j = none)
    (hp : ∀ j : SlotId, j ≠ i → (s.judgeFill i).pool[j] = s.pool[j]) : s.judgeFills none = s.judgeFill i := by
  have hnone : ∀ (t : State) (j : SlotId), t.fillAt j = none → t.judgeFill j = t := fun t j hj => by
    unfold State.judgeFill
    rw [hj]
  unfold State.judgeFills
  refine foldl_once _ _ (List.nodup_finRange 12) (List.mem_finRange i) (fun j _ hj => ?_) fun j _ hj => ?_
  · exact hnone s j (h j hj)
  · exact hnone _ j ((fillAt_congr (hp j hj)).trans (h j hj))

section Inlet

variable {s : State} {i : SlotId} {sl : Slot} {w : FillWork}

/-- A FILL whose SELECTOR is HELD, INLET FREE and the tank with room, in a part at rest. -/
structure State.atSelector (s : State) (i : SlotId) (sl : Slot) (w : FillWork) : Prop where
  slot : s.pool[i] = some sl
  work : sl.work = .fill w
  outcome : sl.outcome = none
  rest : s.atRest
  holds : s.holdsHeld (washWho sl.port i) .selector = true
  inlet : (s.entry .inlet).lease = .free
  drain : s.hasHolder .drain = false
  door : s.hasHolder .doorDrive = false
  regen : ∀ g, s.soft.regen = some g → regenWho g ≠ washWho sl.port i
  room : s.water.tank < s.cfg.tankLimit

/-- The FILL after INLET was granted, or with its request for INLET waiting. -/
structure InletAsked (s : State) (i : SlotId) (sl : Slot) (w : FillWork) (t : State) : Prop where
  slot : t.pool[i] = some { sl with work := .fill { w with noFlow := if (t.entry .inlet).lease = .held then Timer.zero else w.noFlow } }
  pool : ∀ j : SlotId, j ≠ i → t.pool[j] = s.pool[j]
  entries : s.keepsEntriesBut t [.inlet]
  position : t.arb.selHeld = s.arb.selHeld
  frame : s.keepsBut t [.arb, .pool]

/-- A request for INLET that the door or a latched fault keeps out waits. -/
theorem settleFor_askInlet_kept (h : s.atSelector i sl w) (serial n : Nat) (hk : s.doorClosed = false ∨ s.latched = true) :
    (s.ask .inlet (washWho sl.port i) serial none).settleFor n = s.ask .inlet (washWho sl.port i) serial none := by
  have hentry := entry_ask s .inlet (washWho sl.port i) serial none
  have k := s.keepsBut_ask .inlet (washWho sl.port i) serial none
  obtain ⟨t, ht⟩ : ∃ t, t = s.ask .inlet (washWho sl.port i) serial none := ⟨_, rfl⟩
  rw [← ht] at hentry k ⊢
  have hother : ∀ q, q ≠ .inlet → t.entry q = s.entry q := fun q hq => by rw [hentry, if_neg hq]
  have hjudge : t.judge = t := judge_same
    (by rw [k.water, h.rest.2, interlockMet_of (by rw [hother .circ (by decide)]) (by rw [k.sense]) (by rw [k.door]) (by rw [k.water])])
    (.inl (by rw [hother .doorDrive (by decide)]; exact (h.rest.1 _).1))
  refine settleFor_stays hjudge (yieldNext_none (by rw [hother .heater (by decide)]; exact (h.rest.1 _).2) fun m => ?_) (fun q => ?_) n
  · rw [hother (.dose m) (fun e => by cases e)]
    exact (h.rest.1 _).2
  · by_cases hq : q = .inlet
    · subst hq
      refine chosenWaiter_ineligible fun x _ => ?_
      have hclosed : t.doorClosed = s.doorClosed := by simp only [State.doorClosed, k.door]
      have hlatched : t.latched = s.latched := by simp only [State.latched, k.prot]
      unfold State.eligibleBase
      rcases hk with hk | hk <;> simp [hclosed, hlatched, hk, Resource.guarded, Resource.inTripSet]
    · exact chosenWaiter_noWaiters (by rw [hother q hq]; exact (h.rest.1 q).1)

/-- A FILL at the selector asks for INLET: it is granted, or waits (R25, R35). -/
theorem settleFor_askInlet_fill (h : s.atSelector i sl w) (serial n : Nat) :
    InletAsked s i sl w ((s.ask .inlet (washWho sl.port i) serial none).settleFor (n + 1)) := by
  by_cases hk : s.doorClosed = true ∧ s.latched = false
  · have hadmits : s.admits .inlet (washWho sl.port i) :=
      { free := h.inlet
        guarded := fun _ => ⟨hk.1, h.door⟩
        trip := fun _ => hk.2
        inlet := fun _ => ⟨h.drain, h.holds⟩
        drain := fun e => by cases e
        door := fun e => by cases e }
    have kgrant := State.keepsBut_grantedTo_quiet (s := s) (r := .inlet) (l := .held) (.inr (by decide)) (washWho sl.port i)
    have hrest := h.rest.grantedTo (r := .inlet) (by decide) (washWho sl.port i) .held
    have hentry := State.entry_grantedTo s .inlet (washWho sl.port i) .held
    have harb := State.arb_grantedTo_rest s .inlet (washWho sl.port i) .held
    obtain ⟨x, hx⟩ : ∃ x, x = s.grantedTo .inlet (washWho sl.port i) .held := ⟨_, rfl⟩
    rw [settleFor_ask _ _ _ h.rest hadmits, State.grantLease_ask _ _ h.rest h.inlet (by decide), if_neg (by decide), ← hx]
    rw [← hx] at kgrant hrest hentry harb
    have hslot : x.pool[i] = some sl := by rw [kgrant.pool, h.slot]
    have hgranted : x.ownerGranted .inlet (washWho sl.port i) = x.setSlot i (some { sl with work := .fill { w with noFlow := Timer.zero } }) := by
      unfold State.ownerGranted
      dsimp only
      rw [State.isRegen_false (by rw [kgrant.soft]; exact h.regen), if_neg (by decide)]
      show x.fillInletGranted i = _
      unfold State.fillInletGranted
      simp only [fillAt_eq hslot h.work h.outcome]
      rw [kgrant.cfg, kgrant.water, if_neg (by have := h.room; omega), State.setWork_held hslot]
    have kset := x.keepsBut_setSlot i (some { sl with work := .fill { w with noFlow := Timer.zero } })
    rw [hgranted, (hrest.frame kset).settleFor]
    refine ⟨?_, fun j hj => ?_, fun q hq => ?_, ?_, (State.keepsBut_mono kgrant (by decide)).step kset (by decide)⟩
    · rw [State.pool_setSlot_self, kset.entry, hentry, if_pos rfl]
      rfl
    · rw [State.pool_setSlot_ne _ hj, kgrant.pool]
    · rw [kset.entry, hentry, if_neg (by simpa using hq)]
    · rw [kset.arb, harb.1]
  · have hkept : s.doorClosed = false ∨ s.latched = true := by
      cases hd : s.doorClosed <;> cases hl : s.latched <;> simp_all
    have hentry := entry_ask s .inlet (washWho sl.port i) serial none
    have k := s.keepsBut_ask .inlet (washWho sl.port i) serial none
    rw [settleFor_askInlet_kept h serial _ hkept]
    refine ⟨?_, fun j _ => by rw [k.pool], fun q hq => ?_, by rw [State.ask_eq]; rfl, State.keepsBut_mono k (by decide)⟩
    · have hfree : (s.edited .inlet fun e => { e with waiters := e.waiters ++ [⟨washWho sl.port i, serial, none, false⟩] }).lease ≠ .held :=
        fun e => by cases h.inlet.symm.trans e
      rw [hentry, if_pos rfl, if_neg hfree, k.pool, h.slot]
      have := h.work
      cases sl
      cases w
      simp_all
    · rw [hentry, if_neg (by simpa using hq)]

end Inlet

/-! ### The position under BYPASS (R57) -/

theorem fillPosition_bypass {s : State} {who : Holder} (hn : s.inService = none) (hb : s.cfg.exhaustBypass = true)
    (hh : s.holds who .selector = false) (hd : ∃ d, (s.column d).state = .exhausted) :
    ∃ c, s.fillPosition who = some c ∧ (s.column c).state = .exhausted ∧
      ∀ d, s.arb.selCurrent = some d → (s.column d).state = .exhausted → c = d := by
  have hother : (s.column (if s.soft.colA.state == .exhausted then Column.a else .b)).state = .exhausted := by
    by_cases ha : s.soft.colA.state = .exhausted
    · rw [if_pos (by simpa using ha)]
      exact ha
    · rw [if_neg (by simpa using ha)]
      obtain ⟨d, hd⟩ := hd
      cases d with
      | a => exact absurd hd ha
      | b => exact hd
  unfold State.fillPosition
  simp only [hn, hb, hh, if_true, Bool.false_and, Bool.false_eq_true, if_false]
  cases hcur : s.arb.selCurrent with
  | none => exact ⟨_, rfl, hother, fun d hd => by cases hd⟩
  | some c =>
    refine ⟨_, rfl, ?_, fun d hd he => ?_⟩
    · split
      next h => exact beq_iff_eq.mp h
      next => exact hother
    · cases hd
      exact if_pos (beq_iff_eq.mpr he)

/-- The holder of SELECTOR at an EXHAUSTED column stays there. -/
theorem fillPosition_kept {s : State} {who : Holder} (hn : s.inService = none) (hb : s.cfg.exhaustBypass = true)
    (hh : s.holds who .selector = true) (he : (s.column s.arb.selHeld).state = .exhausted) : s.fillPosition who = some s.arb.selHeld := by
  unfold State.fillPosition
  simp [hn, hb, hh, he]

section Bypass

variable {u : State} {i : SlotId} {sl : Slot} {w : FillWork} {c : Column}

/-- The slot of a FILL that waits no longer for soft water. -/
def Slot.awake (sl : Slot) (w : FillWork) : Slot := { sl with work := .fill { w with waitSoft := false } }

/-- A FILL that waits for soft water, alone in a vacant part at rest where the policy is BYPASS. -/
structure State.asleep (u : State) (i : SlotId) (sl : Slot) (w : FillWork) : Prop where
  slot : u.pool[i] = some sl
  work : sl.work = .fill w
  outcome : sl.outcome = none
  waits : w.waitSoft = true
  vacant : u.vacant
  rest : u.atRest
  service : u.inService = none
  policy : u.cfg.exhaustBypass = true
  regen : ∀ g, u.soft.regen = some g → regenWho g ≠ washWho sl.port i
  room : u.water.tank < u.cfg.tankLimit

/-- What the grants to such a FILL leave. -/
structure Awoken (u : State) (i : SlotId) (sl : Slot) (w : FillWork) (c : Column) (y : State) : Prop where
  slot : y.pool[i] = some { sl with work := .fill { w with
    waitSoft := false, noFlow := if (y.entry .inlet).lease = .held then Timer.zero else w.noFlow } }
  selector : y.entry .selector = u.cfg.grantRecord u.drive.clock (washWho sl.port i) (some sl.port)
    (if u.arb.selCurrent = some c then .held else .moving) (u.entry .selector)
  position : y.arb.selHeld = c
  pool : ∀ j : SlotId, j ≠ i → y.pool[j] = u.pool[j]
  entries : u.keepsEntriesBut y [.selector, .inlet]
  frame : u.keepsBut y [.arb, .pool, .drive]

theorem State.asleep.judgeFill (h : u.asleep i sl w) (hc : u.fillPosition (washWho sl.port i) = some c) :
    u.judgeFill i = (u.setSlot i (some (sl.awake w))).ask .selector (washWho sl.port i) sl.age (some c) := by
  unfold State.judgeFill
  simp only [fillAt_eq h.slot h.work h.outcome, h.waits, if_true]
  rw [slotWho_fill h.work, hc, Option.isSome_some, if_pos rfl]
  unfold State.fillAsks
  simp only [fillAt_eq h.slot h.work h.outcome, slotWho_fill h.work, hc, State.setWork_held h.slot]
  rfl

/-- The selector stands at the position: SELECTOR is HELD, and INLET asked for. -/
theorem State.asleep.held (h : u.asleep i sl w) (he : (u.column c).state = .exhausted) (hcur : u.arb.selCurrent = some c) (n : Nat) :
    Awoken u i sl w c (((((u.setSlot i (some (sl.awake w))).heldAt c).grantedTo .selector (washWho sl.port i) .held).ownerGranted .selector
      (washWho sl.port i)).settleFor (n + 1)) := by
  obtain ⟨v, hv⟩ : ∃ v, v = (u.setSlot i (some (sl.awake w))).heldAt c := ⟨_, rfl⟩
  have kslot := u.keepsBut_setSlot i (some (sl.awake w))
  have kv : u.keepsBut v [.arb, .pool] := hv ▸ (State.keepsBut_mono kslot (by decide)).step (State.keepsBut_heldAt _ c) (by decide)
  have hventry : ∀ q, v.entry q = u.entry q := fun q => by rw [hv]; rfl
  have hvslot : v.pool[i] = some (sl.awake w) := by
    rw [hv]
    exact State.pool_setSlot_self _ _ _
  have hvpool : ∀ j : SlotId, j ≠ i → v.pool[j] = u.pool[j] := fun j hj => by
    rw [hv]
    exact State.pool_setSlot_ne _ hj _
  have hvarb : v.arb.selHeld = c ∧ v.arb.selCurrent = some c := by
    rw [hv]
    exact ⟨rfl, hcur⟩
  have hvrest : v.atRest := by
    rw [hv]
    exact (h.rest.frame kslot).of rfl rfl rfl rfl
  have hport : v.waiterPort (washWho sl.port i) = some sl.port := by
    show (v.pool[i]).map (fun x : Slot => x.port) = _
    rw [hvslot]
    rfl
  have kx := State.keepsBut_grantedTo_quiet (s := v) (r := .selector) (l := .held) (.inr (by decide)) (washWho sl.port i)
  have hxentry := State.entry_grantedTo v .selector (washWho sl.port i) .held
  have hxarb := State.arb_grantedTo_rest v .selector (washWho sl.port i) .held
  have hxrest := hvrest.grantedTo (r := .selector) (by decide) (washWho sl.port i) .held
  rw [← hv]
  obtain ⟨x, hx⟩ : ∃ x, x = v.grantedTo .selector (washWho sl.port i) .held := ⟨_, rfl⟩
  rw [← hx] at kx hxentry hxarb hxrest ⊢
  have kall : u.keepsBut x [.arb, .pool] := kv.step kx (by decide)
  have hxslot : x.pool[i] = some (sl.awake w) := by rw [kx.pool, hvslot]
  have hxregen : ∀ g, x.soft.regen = some g → regenWho g ≠ washWho sl.port i := by rw [kall.soft]; exact h.regen
  have hheld : x.holdsHeld (washWho sl.port i) .selector = true := by
    unfold State.holdsHeld
    rw [hxentry, if_pos rfl]
    simp [Settings.grantRecord]
  have hholds : x.holds (washWho sl.port i) .selector = true := by
    rw [State.holds_iff, hxentry, if_pos rfl]
    exact ⟨by simp [Settings.grantRecord], rfl⟩
  have hlease : (x.entry .selector).lease = .held := by
    rw [hxentry, if_pos rfl]
    rfl
  have hfree : ∀ q, q ≠ .selector → x.entry q = u.entry q := fun q hq => by rw [hxentry, if_neg hq, hventry]
  have hat : x.atSelector i (sl.awake w) { w with waitSoft := false } :=
    { slot := hxslot
      work := rfl
      outcome := h.outcome
      rest := hxrest
      holds := hheld
      inlet := by rw [hfree _ (by decide)]; exact (h.vacant .inlet).1
      drain := by rw [State.hasHolder, hfree _ (by decide)]; exact h.vacant.noHolder .drain
      door := by rw [State.hasHolder, hfree _ (by decide)]; exact h.vacant.noHolder .doorDrive
      regen := hxregen
      room := by rw [kall.water, kall.cfg]; exact h.room }
  have hposition : x.fillPosition (washWho sl.port i) = some x.arb.selHeld := by
    refine fillPosition_kept ?_ (by rw [kall.cfg]; exact h.policy) hholds ?_
    · rw [← h.service]
      simp only [State.inService, kall.soft]
    · rw [hxarb.1, hvarb.1, State.column_congr kall.soft, he]
  have hchange : x.changePosition x.arb.selHeld = x := by
    unfold State.changePosition
    rw [if_neg (by rw [State.hasHolder, hfree _ (by decide : Resource.inlet ≠ .selector), (h.vacant .inlet).1]; simp [hlease]),
      if_pos (by rw [hxarb.1, hxarb.2, hvarb.1, hvarb.2])]
  have howner : x.ownerGranted .selector (washWho sl.port i) = x.ask .inlet (washWho sl.port i) sl.age none := by
    rw [selectorGranted_fill hxregen, if_pos hlease]
    unfold State.selectorHeld
    rw [State.isRegen_false hxregen, if_neg (by decide)]
    show x.fillSelectorHeld i = _
    unfold State.fillSelectorHeld
    simp only [fillAt_eq hxslot rfl h.outcome, slotWho_fill (sl := sl.awake w) rfl]
    rw [show (sl.awake w).port = sl.port from rfl, hposition]
    dsimp only
    unfold State.toInlet
    rw [hchange]
    exact if_pos (by rw [hlease]; rfl)
  have hasked := settleFor_askInlet_fill hat sl.age n
  rw [howner]
  obtain ⟨y, hy⟩ : ∃ y, y = (x.ask .inlet (washWho sl.port i) sl.age none).settleFor (n + 1) := ⟨_, rfl⟩
  rw [show (sl.awake w).port = sl.port from rfl, ← hy] at hasked
  rw [← hy]
  refine ⟨hasked.slot, ?_, by rw [hasked.position, hxarb.1, hvarb.1], fun j hj => by rw [hasked.pool j hj, kx.pool, hvpool j hj],
    fun q hq => ?_, State.keepsBut_mono (kall.step hasked.frame (by decide)) (by decide)⟩
  · rw [hasked.entries .selector (by decide), hxentry, if_pos rfl, if_pos hcur, hport, kv.cfg, kv.drive, hventry]
  · simp only [List.mem_cons, List.not_mem_nil, or_false, not_or] at hq
    rw [hasked.entries q (by simpa using hq.2), hfree q hq.1]

/-- The selector stands elsewhere: it travels. -/
theorem State.asleep.moving (h : u.asleep i sl w) (hcur : u.arb.selCurrent ≠ some c) (n : Nat) :
    Awoken u i sl w c (((((u.setSlot i (some (sl.awake w))).startTravel c).grantedTo .selector (washWho sl.port i) .moving).ownerGranted
      .selector (washWho sl.port i)).settleFor n) := by
  obtain ⟨v, hv⟩ : ∃ v, v = (u.setSlot i (some (sl.awake w))).startTravel c := ⟨_, rfl⟩
  have kslot := u.keepsBut_setSlot i (some (sl.awake w))
  have kv : u.keepsBut v [.arb, .pool, .drive] := hv ▸ (State.keepsBut_mono kslot (by decide)).step (State.keepsBut_startTravel _ c) (by decide)
  have hventry : ∀ q, v.entry q = u.entry q := fun q => by rw [hv]; rfl
  have hvslot : v.pool[i] = some (sl.awake w) := by
    rw [hv]
    exact State.pool_setSlot_self _ _ _
  have hvpool : ∀ j : SlotId, j ≠ i → v.pool[j] = u.pool[j] := fun j hj => by
    rw [hv]
    exact State.pool_setSlot_ne _ hj _
  have hvheld : v.arb.selHeld = c := by rw [hv]; rfl
  have hclock : v.drive.clock = u.drive.clock := by rw [hv]; rfl
  have hvrest : v.atRest := by
    rw [hv]
    exact (h.rest.frame kslot).of rfl rfl rfl rfl
  have hport : v.waiterPort (washWho sl.port i) = some sl.port := by
    show (v.pool[i]).map (fun x : Slot => x.port) = _
    rw [hvslot]
    rfl
  have kx := State.keepsBut_grantedTo_quiet (s := v) (r := .selector) (l := .moving) (.inr (by decide)) (washWho sl.port i)
  have hxentry := State.entry_grantedTo v .selector (washWho sl.port i) .moving
  have hxarb := State.arb_grantedTo_rest v .selector (washWho sl.port i) .moving
  have hxrest := hvrest.grantedTo (r := .selector) (by decide) (washWho sl.port i) .moving
  rw [← hv]
  obtain ⟨x, hx⟩ : ∃ x, x = v.grantedTo .selector (washWho sl.port i) .moving := ⟨_, rfl⟩
  rw [← hx] at kx hxentry hxarb hxrest ⊢
  have kall : u.keepsBut x [.arb, .pool, .drive] := kv.step kx (by decide)
  have hlease : (x.entry .selector).lease ≠ .held := by
    rw [hxentry, if_pos rfl]
    exact fun e => by cases e
  have hinlet : (x.entry .inlet).lease ≠ .held := by
    rw [hxentry, if_neg (by decide), hventry, (h.vacant .inlet).1]
    decide
  rw [selectorGranted_fill (by rw [kall.soft]; exact h.regen), if_neg hlease, hxrest.settleFor]
  refine ⟨?_, ?_, by rw [hxarb.1, hvheld], fun j hj => by rw [kx.pool, hvpool j hj], fun q hq => ?_, kall⟩
  · rw [kx.pool, hvslot, if_neg hinlet]
    rfl
  · rw [hxentry, if_pos rfl, if_neg hcur, hport, kv.cfg, hclock, hventry]
  · simp only [List.mem_cons, List.not_mem_nil, or_false, not_or] at hq
    rw [hxentry, if_neg hq.1, hventry]

/-- The FILL that waits for soft water is granted SELECTOR at an EXHAUSTED column. -/
theorem State.asleep.awakes (h : u.asleep i sl w) (hc : u.fillPosition (washWho sl.port i) = some c) (he : (u.column c).state = .exhausted)
    (halone : ∀ j, j ≠ i → u.fillAt j = none) : Awoken u i sl w c (u.judgeFills none).settle := by
  have hjudge := h.judgeFill hc
  have kslot := u.keepsBut_setSlot i (some (sl.awake w))
  have hrest := h.rest.frame kslot
  have hvac : (u.setSlot i (some (sl.awake w))).vacant := h.vacant.of_entries fun q => rfl
  have hadmits : (u.setSlot i (some (sl.awake w))).admits .selector (washWho sl.port i) :=
    hvac.admits _ (by decide) (fun e => by cases e) (fun e => by cases e) (fun e => by cases e)
  have hasks : u.judgeFills none = (u.setSlot i (some (sl.awake w))).ask .selector (washWho sl.port i) sl.age (some c) := by
    rw [judgeFills_alone halone fun j hj => ?_, hjudge]
    rw [hjudge, (State.keepsBut_ask _ _ _ _ _).pool, State.pool_setSlot_ne _ hj]
  rw [hasks, State.settle, settleFor_ask _ _ _ hrest hadmits, State.grantLease_ask_selector _ _ hrest hadmits.free]
  by_cases hcur : u.arb.selCurrent = some c
  · rw [if_pos (show (u.setSlot i (some (sl.awake w))).arb.selCurrent = some c from hcur)]
    exact h.held he hcur _
  · rw [if_neg (show ¬(u.setSlot i (some (sl.awake w))).arb.selCurrent = some c from hcur)]
    exact h.moving hcur _

end Bypass

theorem configWriteQueues : Clauses.ConfigWriteQueues := by
  intro s p tag h
  refine ⟨autoRegen_off h, autoRegen_on h, fun v hv hr hf => exhaustPolicy_quiet h hv hr hf,
    fun i sl w hslot hwork hout hwait halone hservice hd hr hvac hregen hroom => ?_⟩
  have hexec := exec_configWrite_set (i := .exhaustPolicy) (v := 1) h (by decide) (.inr rfl) (by decide) (by decide)
  obtain ⟨u, hu⟩ : ∃ u, u = s.itemSet p .exhaustPolicy 1 := ⟨_, rfl⟩
  have ku : s.keepsBut u [.cfg, .ports] := hu ▸ s.keepsBut_itemSet p _ _
  have hports : u.ports = (s.setRx p .synced).ports := hu ▸ rfl
  have hpolicy : u.cfg.exhaustBypass = true := hu ▸ rfl
  have hlimit : u.cfg.tankLimit = s.cfg.tankLimit := hu ▸ rfl
  have hrecord : u.cfg.grantRecord = s.cfg.grantRecord := hu ▸ rfl
  have hcolumn : ∀ d, u.column d = s.column d := State.column_congr ku.soft
  have hinservice : u.inService = none := by
    rw [← hservice]
    simp only [State.inService, ku.soft]
  have hvacu : u.vacant := hvac.of_entries ku.entry
  have hasleep : u.asleep i sl w :=
    { slot := by rw [ku.pool, hslot]
      work := hwork
      outcome := hout
      waits := hwait
      vacant := hvacu
      rest := hr.frame ku
      service := hinservice
      policy := hpolicy
      regen := by rw [ku.soft]; exact hregen
      room := by rw [ku.water, hlimit]; exact hroom }
  have hnoholds : u.holds (washWho sl.port i) .selector = false := by
    simp [State.holds, hvacu.noHolder]
  obtain ⟨c, hc, he, hstays⟩ := fillPosition_bypass hinservice hpolicy hnoholds (by simpa only [hcolumn] using hd)
  have hawoken := hasleep.awakes hc he fun j hj => (fillAt_congr (by rw [ku.pool])).trans (halone j hj)
  obtain ⟨y, hy⟩ : ∃ y, y = (u.judgeFills none).settle := ⟨_, rfl⟩
  have hwritten : u.itemWritten .exhaustPolicy = y := hy ▸ rfl
  rw [← hu, hwritten] at hexec
  rw [← hy] at hawoken
  have kr := y.keepsBut_reply p tag .ok []
  rw [hcolumn] at he
  refine ⟨_, c, hexec, he, fun d hcur hex => hstays d (by rw [ku.arb]; exact hcur) (by rw [hcolumn]; exact hex), ?_, ?_, ?_, fun j hj => ?_,
    fun q hq => ?_, State.ports_replied (hawoken.frame.ports.trans hports) tag .ok [],
    ((State.keepsBut_mono ku (by decide)).step hawoken.frame (by decide)).step kr (by decide)⟩
  · rw [kr.pool, kr.entry, hawoken.slot]
  · rw [kr.entry, hawoken.selector, hrecord, ku.drive, ku.arb, ku.entry]
    rfl
  · rw [kr.arb, hawoken.position]
  · rw [kr.pool, hawoken.pool j hj, ku.pool]
  · rw [kr.entry, hawoken.entries q hq, ku.entry]

/-- Settles O20. -/
theorem configWritten : Obligations.ConfigWritten := ⟨configItems, configBands, configWriteActs, configWriteQueues⟩

end Sys2Proof.Machine

/-! The pulses and the decilitres of a FILL that nothing interrupts (R31, R36, R54). -/

namespace Sys2Proof.Machine

/-! ### The pulse of a FILL -/

/-- The FILL of a slot holds INLET HELD. -/
structure State.flows (s : State) (i : SlotId) (sl : Slot) (w : FillWork) : Prop where
  slot : s.pool[i] = some sl
  work : sl.work = .fill w
  outcome : sl.outcome = none
  lease : (s.entry .inlet).lease = .held
  holder : (s.entry .inlet).holder = some (washWho sl.port i)

section Flows

variable {s : State} {i : SlotId} {sl : Slot} {w : FillWork} (h : s.flows i sl w)
include h

theorem State.flows.fillAt : s.fillAt i = some (sl, w) := fillAt_eq h.slot h.work h.outcome

theorem State.flows.flowing : s.flowingFill = some i := flowingFill_eq h.lease h.holder (by rw [h.fillAt]; rfl)

theorem flowPulse_fill : s.flowPulse = if s.cfg.flowPulsesPerDl ≤ w.pulses + 1 then s.fillDecilitre i
    else s.setSlot i (some { sl with work := .fill { w with pulses := w.pulses + 1, noFlow := Timer.zero } }) := by
  unfold State.flowPulse State.fillPulse
  simp only [h.flowing, h.fillAt, State.setWork_held h.slot]

/-- The pulse that completes a decilitre is the decilitre. -/
theorem exec_decilitre (hp : s.cfg.flowPulsesPerDl ≤ w.pulses + 1) :
    exec .decilitreCounted s = .next (s.fillDecilitre i).settle ∧ exec .flowPulse s = .next (s.fillDecilitre i).settle := by
  have hpulse : s.flowPulse = s.fillDecilitre i := by rw [flowPulse_fill h, if_pos hp]
  have hnext : s.decilitreNext = true := by
    unfold State.decilitreNext
    simp only [h.flowing, h.fillAt, decide_eq_true_eq]
    exact hp
  refine ⟨?_, congrArg (fun t : State => Host.Outcome.next t.settle) hpulse⟩
  show Host.Outcome.next (if s.decilitreNext then s.flowPulse.settle else s) = _
  rw [if_pos hnext, hpulse]

end Flows

theorem noWashThroughRegenerating : Clauses.NoWashThroughRegenerating := by
  intro s i sl w hp hw ho hl hh hr hcol hpulse
  have h : s.flows i sl w := ⟨hp, hw, ho, hl, hh⟩
  have hsame : s.fillDecilitre i = s := by
    unfold State.fillDecilitre
    simp only [h.fillAt, if_pos hcol]
  obtain ⟨h1, h2⟩ := exec_decilitre h hpulse
  rw [hsame, hr.settle] at h1 h2
  exact ⟨h2, h1⟩

/-! ### The state after the tank is raised -/

/-- The tallies of a FILL after a decilitre through a column in service. -/
theorem FillWork.counted'_soft (w : FillWork) (c : Column) (n : Nat) : w.counted' (.soft c) n = { w with
    counted := w.counted + 1, pulses := 0, lastHardness := n, noFlow := Timer.zero
    softA := if c = .a then w.softA + 1 else w.softA
    softB := if c = .b then w.softB + 1 else w.softB } := by
  cases c <;> rfl

/-- A decilitre has been counted for the FILL of a slot: the tank is raised and the tallies stand in the slot. -/
structure Counted (s : State) (i : SlotId) (sl : Slot) (x : FillWork) (l : List Block) (y : State) : Prop where
  self : y.pool[i] = some { sl with work := .fill x }
  pool : ∀ j : SlotId, j ≠ i → y.pool[j] = s.pool[j]
  water : y.water = { s.water with tank := min 255 (s.water.tank + 1) }
  frame : s.keepsBut y (.pool :: .water :: l)

/-- What charging the decilitre has left, with the tank raised and the tallies in the slot. -/
def State.poured (q : State) (i : SlotId) (sl : Slot) (x : FillWork) : State := q.raiseTank.setSlot i (some { sl with work := .fill x })

theorem State.keepsBut_raiseTank (s : State) : s.keepsBut s.raiseTank [.water] := s.keepsBut_setTank _ _

theorem counted_poured {s q : State} {l : List Block} (k : s.keepsBut q l) (i : SlotId) (sl : Slot) (x : FillWork)
    (hp : Block.pool ∉ l := by decide) (hw : Block.water ∉ l := by decide) : Counted s i sl x l (q.poured i sl x) := by
  have kr := q.keepsBut_raiseTank
  have ks := q.raiseTank.keepsBut_setSlot i (some { sl with work := .fill x })
  refine ⟨State.pool_setSlot_self _ _ _, fun j hj => ?_, ?_, ?_⟩
  · rw [State.poured, State.pool_setSlot_ne _ hj, kr.pool, k .pool hp]
  · have hq : q.water = s.water := k .water hw
    rw [← hq]
    rfl
  · exact ((State.keepsBut_mono k (List.subset_cons_of_subset _ (List.subset_cons_of_subset _ (List.Subset.refl _)))).step kr
      (by simp)).step ks (by simp)

/-- A decilitre of a FILL, from what its charge has left (R36). -/
theorem fillDecilitre_eq {s q : State} {i : SlotId} {sl : Slot} {w x : FillWork} {ch : Charge} (h : s.flows i sl w) {l : List Block}
    (hst : (s.column s.arb.selHeld).state ≠ .regenerating) (hq : s.chargeDecilitre i = (q, ch)) (hx : w.counted' ch s.acct.hardness = x)
    (k : s.keepsBut q l) (hp : Block.pool ∉ l := by decide) (hw : Block.water ∉ l := by decide) (hc : Block.cfg ∉ l := by decide) :
    s.fillDecilitre i = if x.counted = x.requested then (q.poured i sl x).finishFill i .done true
      else if s.cfg.tankLimit ≤ min 255 (s.water.tank + 1) then (q.poured i sl x).finishFill i .limit true
      else ((q.poured i sl x).fillStage5 i (washWho sl.port i) sl.age).yieldPath (washWho sl.port i) sl.age := by
  have hslot : q.raiseTank.pool[i] = some sl := by rw [q.keepsBut_raiseTank.pool, k .pool hp, h.slot]
  have hy := counted_poured k i sl x hp hw
  have hcfg : (q.poured i sl x).cfg = s.cfg := hy.frame .cfg (by simp [hc])
  have hset : q.raiseTank.setWork i (.fill x) = q.poured i sl x := State.setWork_held hslot _
  have hwater := hy.water
  unfold State.fillDecilitre
  simp only [h.fillAt, if_neg hst, slotWho_fill h.work, hq, hx, hset, hcfg, hwater]

theorem counted'_requested (w : FillWork) (ch : Charge) (n : Nat) :
    (w.counted' ch n).counted = w.counted + 1 ∧ (w.counted' ch n).requested = w.requested := by
  cases ch with
  | soft c => cases c <;> exact ⟨rfl, rfl⟩
  | bypass => exact ⟨rfl, rfl⟩

section Counted

variable {s y : State} {i : SlotId} {sl : Slot} {x : FillWork} {l : List Block} (h : Counted s i sl x l y)
include h

theorem Counted.fillAt (ho : sl.outcome = none) : y.fillAt i = some ({ sl with work := .fill x }, x) := fillAt_eq h.self rfl ho

theorem Counted.others {j : SlotId} (hj : j ≠ i) : y.fillAt j = s.fillAt j := fillAt_congr (h.pool j hj)

theorem Counted.interlock (hi : s.water.interlock = s.interlockMet) (hc : (y.entry .circ).lease = (s.entry .circ).lease)
    (hsense : Block.sense ∉ l := by decide) (hdoor : Block.door ∉ l := by decide) : y.water.interlock = y.interlockMet := by
  rw [interlockMet_of hc (congrArg Sense.points (h.frame .sense (by simp [hsense])))
    (congrArg Door.door (h.frame .door (by simp [hdoor]))) (by rw [h.water]), ← hi, h.water]

theorem Counted.atRest (hr : s.atRest) (he : ∀ r, y.entry r = s.entry r) (hsense : Block.sense ∉ l := by decide)
    (hdoor : Block.door ∉ l := by decide) : y.atRest :=
  ⟨fun r => by rw [he]; exact hr.1 r, h.interlock hr.2 (by rw [he]) hsense hdoor⟩

/-- The FILL ends with the decilitre. -/
theorem Counted.ends {o : OutcomeCode} (ho : sl.outcome = none) (hwait : ∀ q, y.waitsFor (washWho sl.port i) q = false)
    (hent : ∀ r, (y.entry r).lease = (s.entry r).lease ∧ (y.entry r).holder = (s.entry r).holder)
    (honly : ∀ r, s.holds (washWho sl.port i) r = true → r = .inlet ∨ r = .selector) (hmark : ∀ c, (y.column c).breakthrough ≠ some i)
    (hidle : ∀ k, (s.channel k).state = .idle) (hdose : Block.dose ∉ l := by decide) :
    FillOver y (y.finishFill i o true) i { sl with work := .fill x } x o := by
  refine finishFill_over h.self rfl ho hwait (fun r hr => honly r ?_) hmark fun _ k => ?_
  · rw [State.holds_iff, ← (hent r).1, ← (hent r).2, ← State.holds_iff]
    exact hr
  · rw [State.channel_congr (h.frame .dose (by simp [hdose]))]
    exact hidle k

/-- What the end of the FILL leaves, told from the part before the decilitre. -/
theorem Counted.ended {t : State} {o : OutcomeCode} (hover : FillOver y t i { sl with work := .fill x } x o) (hx : x.counted ≠ 0)
    (hent : ∀ r, (y.entry r).lease = (s.entry r).lease ∧ (y.entry r).holder = (s.entry r).holder)
    (hinlet : (s.entry .inlet).lease = .held ∧ (s.entry .inlet).holder = some (washWho sl.port i))
    (hselector : s.holds (washWho sl.port i) .selector = true → (s.entry .selector).lease = .held)
    (htxq : (y.port sl.port).txq = (s.port sl.port).txq) (hacct : Block.acct ∉ l := by decide) (hdrive : Block.drive ∉ l := by decide) :
    s.fillEnded t i sl x o := by
  have hfreed : ∀ r, s.holds (washWho sl.port i) r = true → (s.entry r).lease = .held → (t.entry r).lease = .free := fun r hh hl => by
    have hyh : y.holds (washWho sl.port i) r = true := by
      rw [State.holds_iff, (hent r).1, (hent r).2, ← State.holds_iff]
      exact hh
    rw [hover.freed r hyh (by rw [(hent r).1, hl]; decide)]
    rfl
  have hlog := hover.log
  rw [if_neg hx, h.frame .acct (by simp [hacct]), h.frame .drive (by simp [hdrive])] at hlog
  refine ⟨hover.self, hfreed .inlet ((State.holds_iff _ _ _).mpr ⟨by rw [hinlet.1]; decide, hinlet.2⟩) hinlet.1,
    fun hs => hfreed .selector hs (hselector hs), hlog, ?_, fun j hj => (hover.pool j hj).trans (h.pool j hj)⟩
  have hresp := hover.responds
  unfold State.responds at hresp ⊢
  rw [hresp]
  show (y.port sl.port).txq ++ _ = _
  rw [htxq]
  rfl

end Counted

/-! ### A charge that exhausts no column -/

/-- The column at the held position with the hardness of a decilitre taken from it. -/
def State.charged (s : State) : State := s.setColumn s.arb.selHeld
  { s.column s.arb.selHeld with remaining := (s.column s.arb.selHeld).remaining - s.acct.hardness }

theorem chargeDecilitre_stays {s : State} {i : SlotId} (hst : (s.column s.arb.selHeld).state = .inService)
    (hrem : s.acct.hardness < (s.column s.arb.selHeld).remaining) (hmark : (s.column s.arb.selHeld).breakthrough ≠ some i) :
    s.chargeDecilitre i = (s.charged, .soft s.arb.selHeld) := by
  have hleft : (s.charged.column s.arb.selHeld).remaining ≠ 0 := by
    rw [State.charged, State.column_setColumn, if_pos rfl]
    exact Nat.sub_ne_zero_of_lt hrem
  unfold State.chargeDecilitre
  dsimp only
  rw [if_pos (beq_iff_eq.mpr hst), if_neg hmark]
  exact Prod.ext (if_neg hleft) rfl

theorem State.inService_state {s : State} {c : Column} (h : s.inService = some c) : (s.column c).state = .inService := by
  unfold State.inService at h
  split at h
  next ha =>
    cases h
    exact beq_iff_eq.mp ha
  next =>
    split at h
    next hb =>
      cases h
      exact beq_iff_eq.mp hb
    next => cases h

theorem inService_setColumn {s : State} (c : Column) (r : ColumnRec) (h : r.state = (s.column c).state) :
    (s.setColumn c r).inService = s.inService := by
  unfold State.inService
  cases c with
  | a =>
    show (if r.state == .inService then _ else _) = _
    rw [h]
    rfl
  | b =>
    show (if s.soft.colA.state == .inService then _ else if r.state == .inService then _ else _) = _
    rw [h]
    rfl

/-- A FILL at its position stays there. -/
theorem fillStage5_stays {s : State} {i : SlotId} {who : Holder} (h : s.fillPosition who = some s.arb.selHeld) (serial : Nat) :
    s.fillStage5 i who serial = s := by
  unfold State.fillStage5
  rw [h]
  exact if_pos rfl

theorem fillPosition_inService {s : State} {c : Column} (h : s.inService = some c) (who : Holder) : s.fillPosition who = some c := by
  simp [State.fillPosition, h]

theorem fillPulsesCounted : Clauses.FillPulsesCounted := by
  intro s i sl w hp hw ho hl hh hr
  have h : s.flows i sl w := ⟨hp, hw, ho, hl, hh⟩
  refine ⟨fun hpulse => ?_, fun hpulse hpath hserve hrem hmark hidle honly x hx => ?_⟩
  · have hflow := flowPulse_fill h
    rw [if_neg (by omega)] at hflow
    exact congrArg Host.Outcome.next (by rw [hflow, (hr.frame (s.keepsBut_setSlot _ _)).settle])
  · obtain ⟨h1, h2⟩ := exec_decilitre h hpulse
    obtain ⟨hsl, hsh⟩ := hpath (by rw [hl]; decide)
    have hstate := State.inService_state hserve
    have kq : s.keepsBut s.charged [.soft] := s.keepsBut_setColumn _ _
    have hcharge := chargeDecilitre_stays (i := i) hstate hrem (hmark _)
    have hxw : w.counted' (.soft s.arb.selHeld) s.acct.hardness = x := hx ▸ w.counted'_soft _ _
    have hdl := fillDecilitre_eq h (by rw [hstate]; decide) hcharge hxw kq
    have hy := counted_poured kq i sl x
    obtain ⟨hxc, hxr⟩ := counted'_requested w (.soft s.arb.selHeld) s.acct.hardness
    rw [hxw] at hxc hxr
    obtain ⟨y, hyeq⟩ : ∃ y, y = s.charged.poured i sl x := ⟨_, rfl⟩
    rw [← hyeq] at hdl hy
    have hysoft : y.soft = s.charged.soft := by rw [hyeq]; rfl
    have hyarb : y.arb = s.arb := hy.frame.arb
    have hent : ∀ r, y.entry r = s.entry r := hy.frame.entry
    have hrest : y.atRest := hy.atRest hr hent
    have hcol : y.column s.arb.selHeld = { s.column s.arb.selHeld with
        remaining := (s.column s.arb.selHeld).remaining - s.acct.hardness } := by
      rw [State.column_congr hysoft, State.charged, State.column_setColumn, if_pos rfl]
    have hother : y.column (Column.other s.arb.selHeld) = s.column (Column.other s.arb.selHeld) := by
      rw [State.column_congr hysoft, State.charged, column_other_setColumn]
    have hymark : ∀ c, (y.column c).breakthrough ≠ some i := fun c => by
      by_cases hc : c = s.arb.selHeld
      · rw [hc, hcol]
        exact hmark s.arb.selHeld
      · rw [show c = Column.other s.arb.selHeld by cases c <;> cases hs : s.arb.selHeld <;> simp_all [Column.other], hother]
        exact hmark _
    have hends : ∀ o, FillOver y (y.finishFill i o true) i { sl with work := .fill x } x o := fun o =>
      hy.ends ho (fun q => State.waitsFor_noWaiters (hrest.1 q).1 _) (fun r => by rw [hent]; exact ⟨rfl, rfl⟩) honly hymark hidle
    have hover : ∀ o, s.fillDecilitre i = y.finishFill i o true → ∃ t, (s.fillDecilitre i).settle = t ∧
        t.water = { s.water with tank := min 255 (s.water.tank + 1) } ∧
        t.column s.arb.selHeld = y.column s.arb.selHeld ∧ t.column (Column.other s.arb.selHeld) = y.column (Column.other s.arb.selHeld) ∧
        s.fillEnded t i sl x o ∧ s.keepsBut t [.arb, .pool, .water, .soft, .acct, .ports, .drive] := fun o e => by
      have hfill := hends o
      obtain ⟨t, ht⟩ : ∃ t, t = y.finishFill i o true := ⟨_, rfl⟩
      rw [← ht] at hfill e
      refine ⟨t, by rw [e]; exact (hfill.moved.atRest hrest hfill.frame).settle, by rw [hfill.frame.water, hy.water],
        State.column_congr hfill.frame.soft _, State.column_congr hfill.frame.soft _,
        hy.ended hfill (by rw [hxc]; omega) (fun r => by rw [hent]; exact ⟨rfl, rfl⟩) ⟨hl, hh⟩ (fun _ => hsl)
          (by rw [State.port_congr hy.frame.ports]), (State.keepsBut_mono hy.frame (by decide)).step hfill.frame (by decide)⟩
    rw [hxc, hxr] at hdl
    by_cases hdone : w.counted + 1 = w.requested
    · rw [if_pos hdone] at hdl
      obtain ⟨t, ht, hwater, htc, hto, hend, hframe⟩ := hover .done hdl
      rw [ht] at h1 h2
      refine ⟨t, h1, h2, hwater, htc.trans hcol, hto.trans hother, fun hn => absurd hdone hn, fun o hcase => ?_⟩
      rcases hcase with ⟨-, rfl⟩ | ⟨hn, -⟩
      · exact ⟨hend, hframe⟩
      · exact absurd hdone hn
    · rw [if_neg hdone] at hdl
      by_cases hlim : s.cfg.tankLimit ≤ min 255 (s.water.tank + 1)
      · rw [if_pos hlim] at hdl
        obtain ⟨t, ht, hwater, htc, hto, hend, hframe⟩ := hover .limit hdl
        rw [ht] at h1 h2
        refine ⟨t, h1, h2, hwater, htc.trans hcol, hto.trans hother, fun _ hlt => absurd hlim (Nat.not_le.mpr hlt), fun o hcase => ?_⟩
        rcases hcase with ⟨hd, -⟩ | ⟨-, -, rfl⟩
        · exact absurd hd hdone
        · exact ⟨hend, hframe⟩
      · have hposition : y.fillPosition (washWho sl.port i) = some y.arb.selHeld := by
          refine fillPosition_inService ?_ _
          have hin : y.inService = s.charged.inService := by simp only [State.inService, hysoft]
          have hcharged : s.charged.inService = s.inService := inService_setColumn _ _ rfl
          rw [hin, hcharged, hserve, hyarb]
        rw [if_neg hlim, fillStage5_stays hposition, hrest.1.yieldPath] at hdl
        rw [hdl, hrest.settle] at h1 h2
        refine ⟨y, h1, h2, hy.water, hcol, hother, fun _ _ => ⟨hy.self, hy.pool, State.keepsBut_mono hy.frame (by decide)⟩, fun o hcase => ?_⟩
        rcases hcase with ⟨hd, -⟩ | ⟨-, hd, -⟩
        · exact absurd hd hdone
        · exact absurd hd hlim

end Sys2Proof.Machine

/-! The decilitre that exhausts its column: the column out, its entry in the queue, and the queue judged for its head (R55, R56, R61, R62). -/

namespace Sys2Proof.Machine

/-! ### The column out (R55) -/

/-- The queue after a column is exhausted: it joins the tail under AUTO_REGEN. -/
def State.queueOut (s : State) (c : Column) : List QueueEntry :=
  if s.cfg.autoRegen = true ∧ (∀ q ∈ s.soft.queue, q.column ≠ c) ∧ s.regenOf c = false
    then s.soft.queue ++ [⟨c, none, s.drive.clock⟩] else s.soft.queue

/-- The part with the reports of an exhausted column posted (R55). -/
def State.outReported (s : State) (c : Column) (value : Nat) : State :=
  if (s.column (Column.other c)).state = .standby
    then (s.post .columnExhausted (columnCode c) value).post .columnInService (columnCode (Column.other c))
      (s.column (Column.other c)).remaining
    else s.post .columnExhausted (columnCode c) value

/-- A column has been exhausted. -/
structure ColumnOut (s : State) (c : Column) (value : Nat) (y : State) : Prop where
  column : y.column c = { s.column c with state := .exhausted, remaining := 0, breakthrough := none }
  other : y.column (Column.other c) = { s.column (Column.other c) with
    state := if (s.column (Column.other c)).state = .standby then .inService else (s.column (Column.other c)).state }
  queue : y.soft.queue = s.queueOut c
  regen : y.soft.regen = s.soft.regen
  saltWait : y.soft.saltWait = s.soft.saltWait
  ports : y.ports = (s.outReported c value).ports
  frame : s.keepsBut y [.soft, .ports]

theorem joinTail_queue (s : State) (c : Column) : (if s.cfg.autoRegen then s.joinTail c else s) = s.setQueue (s.queueOut c) := by
  have hqueued : s.isQueued c = true ↔ ¬∀ q ∈ s.soft.queue, q.column ≠ c := by
    simp [State.isQueued]
  unfold State.queueOut State.joinTail
  by_cases ha : s.cfg.autoRegen = true
  · rw [if_pos ha]
    by_cases hq : ∀ q ∈ s.soft.queue, q.column ≠ c
    · have hnot : s.isQueued c = false := by
        rw [Bool.eq_false_iff, ne_eq, hqueued, not_not]
        exact hq
      cases hr : s.regenOf c with
      | false => rw [if_neg (by simp [hnot]), if_pos ⟨ha, hq, rfl⟩]
      | true =>
        rw [if_pos (by simp), if_neg fun k => by cases k.2.2]
        rfl
    · rw [if_pos (by simp [hqueued.mpr hq]), if_neg fun k => hq k.2.1]
      rfl
  · rw [if_neg ha, if_neg fun k => ha k.1]
    rfl

theorem columnOut_out (s : State) (c : Column) (value : Nat) : ColumnOut s c value (s.columnOut c value) := by
  obtain ⟨a, ha⟩ : ∃ a, a = s.setColumn c { s.column c with state := .exhausted, remaining := 0, breakthrough := none } := ⟨_, rfl⟩
  have ka : s.keepsBut a [.soft] := ha ▸ s.keepsBut_setColumn _ _
  have hqueueOut : a.queueOut c = s.queueOut c := by
    have hsoft : a.soft.queue = s.soft.queue ∧ a.soft.regen = s.soft.regen := by
      rw [ha]
      cases c <;> exact ⟨rfl, rfl⟩
    unfold State.queueOut State.regenOf
    rw [ka.cfg, ka.drive, hsoft.1, hsoft.2]
  obtain ⟨b, hb⟩ : ∃ b, b = a.setQueue (s.queueOut c) := ⟨_, rfl⟩
  have kb : a.keepsBut b [.soft] := hb ▸ a.keepsBut_setQueue _
  have hbcol : ∀ d, b.column d = a.column d := fun d => by
    rw [hb]
    cases d <;> rfl
  have hbother : b.column (Column.other c) = s.column (Column.other c) := by
    rw [hbcol, ha, column_other_setColumn]
  have hbself : b.column c = { s.column c with state := .exhausted, remaining := 0, breakthrough := none } := by
    rw [hbcol, ha, State.column_setColumn, if_pos rfl]
  have hbsoft : b.soft.queue = s.queueOut c ∧ b.soft.regen = s.soft.regen ∧ b.soft.saltWait = s.soft.saltWait := by
    rw [hb, ha]
    cases c <;> exact ⟨rfl, rfl, rfl⟩
  have kab : s.keepsBut b [.soft] := ka.step kb (List.Subset.refl _)
  have hout : s.columnOut c value = ((b.standbyIn (Column.other c)).1.post .columnExhausted (columnCode c) value).postInService
      (Column.other c) (b.standbyIn (Column.other c)).2 := by
    have hjoin := joinTail_queue a c
    rw [hqueueOut, ← hb, ha] at hjoin
    unfold State.columnOut
    dsimp only
    rw [hjoin]
  have hsecond : ∀ {u v : State}, u.ports = v.ports → u.drive.clock = v.drive.clock → ∀ n,
      ((u.post .columnExhausted (columnCode c) value).post .columnInService (columnCode (Column.other c)) n).ports =
        ((v.post .columnExhausted (columnCode c) value).post .columnInService (columnCode (Column.other c)) n).ports := fun {u v} hp hc n =>
    State.ports_post_clock (State.ports_post_clock hp hc _ _ _)
      (by rw [(u.keepsBut_post _ _ _).drive, (v.keepsBut_post _ _ _).drive, hc]) _ _ _
  by_cases hst : (s.column (Column.other c)).state = .standby
  · obtain ⟨d, hd⟩ : ∃ d, d = b.setColumn (Column.other c) { b.column (Column.other c) with state := .inService } := ⟨_, rfl⟩
    have kd : b.keepsBut d [.soft] := hd ▸ b.keepsBut_setColumn _ _
    have hstandby : b.standbyIn (Column.other c) = (d, true) := by
      unfold State.standbyIn
      rw [if_pos (by rw [hbother, hst]; rfl), hd]
    have hdother : d.column (Column.other c) = { s.column (Column.other c) with state := .inService } := by
      rw [hd, State.column_setColumn, if_pos rfl, hbother]
    have hdself : d.column c = b.column c := by
      rw [hd, State.column_setColumn, if_neg (Ne.symm (Column.other_ne c))]
    have hdsoft : d.soft.queue = b.soft.queue ∧ d.soft.regen = b.soft.regen ∧ d.soft.saltWait = b.soft.saltWait := by
      rw [hd]
      cases c <;> exact ⟨rfl, rfl, rfl⟩
    have kp := d.keepsBut_post .columnExhausted (columnCode c) value
    have hfinal : s.columnOut c value = (d.post .columnExhausted (columnCode c) value).post .columnInService (columnCode (Column.other c))
        (s.column (Column.other c)).remaining := by
      rw [hout, hstandby]
      unfold State.postInService
      rw [if_pos rfl, State.column_congr kp.soft, hdother]
    rw [hfinal]
    have kpp := kp.step (State.keepsBut_post (d.post .columnExhausted (columnCode c) value) .columnInService (columnCode (Column.other c))
      (s.column (Column.other c)).remaining) (List.Subset.refl _)
    refine ⟨?_, ?_, ?_, ?_, ?_, ?_, ?_⟩
    · rw [State.column_congr kpp.soft, hdself, hbself]
    · rw [State.column_congr kpp.soft, hdother, if_pos hst]
    · rw [kpp.soft, hdsoft.1, hbsoft.1]
    · rw [kpp.soft, hdsoft.2.1, hbsoft.2.1]
    · rw [kpp.soft, hdsoft.2.2, hbsoft.2.2]
    · rw [State.outReported, if_pos hst]
      exact hsecond (by rw [kd.ports, kab.ports]) (by rw [kd.drive, kab.drive]) _
    · exact (State.keepsBut_mono (kab.step kd (List.Subset.refl _)) (by decide)).step kpp (by decide)
  · have hstandby : b.standbyIn (Column.other c) = (b, false) := by
      unfold State.standbyIn
      rw [if_neg (by rw [hbother]; simpa using hst)]
    have kp := b.keepsBut_post .columnExhausted (columnCode c) value
    have hfinal : s.columnOut c value = b.post .columnExhausted (columnCode c) value := by
      rw [hout, hstandby]
      rfl
    rw [hfinal]
    refine ⟨?_, ?_, ?_, ?_, ?_, ?_, (State.keepsBut_mono kab (by decide)).step kp (by decide)⟩
    · rw [State.column_congr kp.soft, hbself]
    · rw [State.column_congr kp.soft, hbother, if_neg hst]
    · rw [kp.soft, hbsoft.1]
    · rw [kp.soft, hbsoft.2.1]
    · rw [kp.soft, hbsoft.2.2]
    · rw [State.outReported, if_neg hst]
      exact State.ports_post_clock kab.ports (by rw [kab.drive]) _ _ _

/-- An amount taken from a column just before it is exhausted leaves no trace. -/
theorem columnOut_setColumn (s : State) (c : Column) (n value : Nat) :
    (s.setColumn c { s.column c with remaining := n }).columnOut c value = s.columnOut c value := by
  have hset : (s.setColumn c { s.column c with remaining := n }).setColumn c { (s.setColumn c { s.column c with remaining := n }).column c with
      state := .exhausted, remaining := 0, breakthrough := none } =
      s.setColumn c { s.column c with state := .exhausted, remaining := 0, breakthrough := none } := by
    cases c <;> rfl
  unfold State.columnOut
  dsimp only
  rw [hset]

/-! ### The charge that exhausts (R54 to R56) -/

theorem judgeFills_but {s : State} {i : SlotId} (h : ∀ j, j ≠ i → s.fillAt j = none) : s.judgeFills (some i) = s := by
  unfold State.judgeFills
  refine foldl_unchanged fun j _ => ?_
  split
  · rfl
  next hj =>
    unfold State.judgeFill
    rw [h j fun e => hj (by rw [e])]

/-- How the report tells why the column is exhausted: 1 by the breakthrough marked for the FILL, 0 by count. -/
def State.outValue (s : State) (i : SlotId) : Nat := if (s.column s.arb.selHeld).breakthrough = some i then 1 else 0

theorem chargeDecilitre_exhausts {s : State} {i : SlotId} (hst : (s.column s.arb.selHeld).state = .inService)
    (hout : (s.column s.arb.selHeld).remaining ≤ s.acct.hardness ∨ (s.column s.arb.selHeld).breakthrough = some i)
    (halone : ∀ j, j ≠ i → s.fillAt j = none) :
    s.chargeDecilitre i = ((s.columnOut s.arb.selHeld (s.outValue i)).takeHead, .soft s.arb.selHeld) := by
  have hexhaust : ∀ value, s.charged.exhaustColumn s.arb.selHeld value (some i) = (s.columnOut s.arb.selHeld value).takeHead := fun value => by
    have k := s.keepsBut_columnOut s.arb.selHeld value
    rw [exhaustColumn_eq, State.charged, columnOut_setColumn, judgeFills_but fun j hj => (fillAt_congr (by rw [k.pool])).trans (halone j hj)]
  unfold State.chargeDecilitre State.outValue
  dsimp only
  rw [if_pos (beq_iff_eq.mpr hst)]
  refine Prod.ext ?_ rfl
  dsimp only
  by_cases hmark : (s.column s.arb.selHeld).breakthrough = some i
  · rw [if_pos hmark, if_pos hmark]
    exact hexhaust 1
  · have hleft : (s.charged.column s.arb.selHeld).remaining = 0 := by
      rw [State.charged, State.column_setColumn, if_pos rfl]
      exact Nat.sub_eq_zero_of_le (hout.resolve_right hmark)
    rw [if_neg hmark, if_neg hmark]
    exact (if_pos hleft).trans (hexhaust 0)

/-! ### The queue judged where no head is taken (R62) -/

/-- The queue has been judged and no head taken. -/
structure HeadUntaken (y z : State) : Prop where
  column : ∀ c, z.column c = y.column c
  regen : z.soft.regen = y.soft.regen
  queue : z.soft.queue = y.soft.queue
  begins : y.mode = .run → y.soft.regen = none → y.latched = false → y.soft.saltWait = false →
    ∀ q, y.soft.queue.head? = some q → z.soft.saltWait = true ∧ z.ports = (y.post .saltNeeded (columnCode q.column) 0).ports
  stays : y.mode = .setup ∨ y.soft.regen ≠ none ∨ y.latched = true ∨ y.soft.saltWait = true ∨ y.soft.queue = [] →
    z.soft.saltWait = y.soft.saltWait ∧ z.ports = y.ports
  frame : y.keepsBut z [.soft, .ports]

theorem HeadUntaken.same {y : State} (h : y.mode = .setup ∨ y.soft.regen ≠ none ∨ y.latched = true ∨ y.soft.saltWait = true ∨ y.soft.queue = []) :
    HeadUntaken y y where
  column _ := rfl
  regen := rfl
  queue := rfl
  begins hm hg hl hw q hq := by
    rcases h with h | h | h | h | h
    · rw [hm] at h
      cases h
    · exact absurd hg h
    · rw [hl] at h
      cases h
    · rw [hw] at h
      cases h
    · rw [h] at hq
      cases hq
  stays _ := ⟨rfl, rfl⟩
  frame := y.keepsBut_refl _

theorem takeHead_kept {y : State} (h : y.mode = .setup ∨ y.soft.regen ≠ none ∨ y.latched = true ∨
    (y.acct.salt.known = true ∧ y.acct.salt.amount = 0) ∨ y.soft.queue = []) : HeadUntaken y y.takeHead := by
  by_cases hstays : y.mode = .setup ∨ y.soft.regen ≠ none ∨ y.latched = true ∨ y.soft.saltWait = true ∨ y.soft.queue = []
  · have hhead : y.takeHead = y := by
      refine State.headStays.takeHead ?_
      rcases hstays with e | e | e | e | e
      · exact .inr (.inl e)
      · exact .inr (.inr (.inl e))
      · exact .inr (.inr (.inr (.inl e)))
      · rcases h with f | f | f | f | f
        · exact .inr (.inl f)
        · exact .inr (.inr (.inl f))
        · exact .inr (.inr (.inr (.inl f)))
        · exact .inr (.inr (.inr (.inr ⟨f.1, f.2, e⟩)))
        · exact .inl f
      · exact .inl e
    rw [hhead]
    exact .same hstays
  · simp only [not_or, ne_eq, not_not] at hstays
    obtain ⟨hm, hg, hl, hw, hq⟩ := hstays
    have hsalt : y.acct.salt.known = true ∧ y.acct.salt.amount = 0 := by
      rcases h with e | e | e | e | e
      · exact absurd e hm
      · exact absurd hg e
      · exact absurd e hl
      · exact e
      · exact absurd e hq
    obtain ⟨q, rest, hcons⟩ := List.exists_cons_of_ne_nil hq
    have hrun : y.mode = .run := by
      cases hmode : y.mode with
      | run => rfl
      | setup => exact absurd hmode hm
    have hready : y.headReady = true := by simp [State.headReady, hrun, hg, hcons, Bool.eq_false_iff.mpr hl]
    have htake : y.takeHead = ({ y with soft := { y.soft with saltWait := true } } : State).post .saltNeeded (columnCode q.column) 0 :=
      takeHead_waits hcons hready (by simp [State.saltOut, hsalt]) (Bool.eq_false_iff.mpr hw)
    have ka := y.keepsBut_withSoft { y.soft with saltWait := true }
    obtain ⟨a, ha⟩ : ∃ a : State, a = { y with soft := { y.soft with saltWait := true } } := ⟨_, rfl⟩
    have hsoft : a.soft = { y.soft with saltWait := true } := ha ▸ rfl
    rw [← ha] at ka htake
    have kp := a.keepsBut_post .saltNeeded (columnCode q.column) 0
    rw [htake]
    refine ⟨fun c => ?_, by rw [kp.soft, hsoft], by rw [kp.soft, hsoft], fun _ _ _ _ q' hq' => ⟨by rw [kp.soft, hsoft], ?_⟩, fun hs => ?_,
      (State.keepsBut_mono ka (by decide)).step kp (by decide)⟩
    · rw [State.column_congr kp.soft, ha]
      cases c <;> rfl
    · rw [hcons] at hq'
      cases hq'
      exact State.ports_post_congr ka.ports ka.drive _ _ _
    · rcases hs with e | e | e | e | e
      · exact absurd e hm
      · exact absurd hg e
      · exact absurd e hl
      · exact absurd e hw
      · exact absurd e hq

end Sys2Proof.Machine

/-! What a FILL does after the decilitre that exhausted its column: it moves its SELECTOR to the new column, flows on as bypass, or waits for
soft water (R58 to R60). -/

namespace Sys2Proof.Machine

/-! ### A HELD lease of the water path let go -/

theorem release_letNow {s : State} {r : Resource} (hr : r ∈ pathResources) (hl : (s.entry r).lease = .held)
    (hp : r = .selector → ¬(s.hasHolder .inlet = true ∧ (s.entry .inlet).holder = (s.entry .selector).holder)) : s.release r = s.letNow r := by
  have hne : r ≠ .circ ∧ r ≠ .doorDrive := by
    refine ⟨?_, ?_⟩ <;> (rintro rfl; exact absurd hr (by decide))
  rw [State.release_eq ⟨.inr ⟨hl, hne.1, hne.2⟩, hp⟩, ← State.freeLease_writeRelease, freed_letNow hr]

theorem State.entry_letNow (s : State) (r q : Resource) : (s.letNow r).entry q = if q = r then s.letFree r else s.entry q := by
  rw [State.letNow, State.entry_putEntry, State.entry_dropDrive]

theorem State.position_letNow (s : State) (r : Resource) : (s.letNow r).arb.selHeld = s.arb.selHeld ∧ (s.letNow r).arb.selCurrent = s.arb.selCurrent := by
  cases r <;> exact ⟨rfl, rfl⟩

theorem State.clock_letNow (s : State) (r : Resource) : (s.letNow r).drive.clock = s.drive.clock := by
  cases r <;> rfl

theorem State.keepsBut_letNow (s : State) (r : Resource) : s.keepsBut (s.letNow r) [.arb, .drive] :=
  (State.keepsBut_mono (s.keepsBut_dropDrive r) (by decide)).step (State.keepsBut_putEntry _ _ _) (by decide)

/-! ### A FILL with the water path -/

/-- A FILL has SELECTOR and INLET, both HELD, and waits for neither. -/
structure State.ownsPath (s : State) (who : Holder) : Prop where
  inlet : (s.entry .inlet).lease = .held ∧ (s.entry .inlet).holder = some who
  selector : (s.entry .selector).lease = .held ∧ (s.entry .selector).holder = some who

section Owns

variable {y : State} {who : Holder} (h : y.ownsPath who)
include h

theorem State.ownsPath.holds {r : Resource} (hr : r = .inlet ∨ r = .selector) : y.holds who r = true := by
  rw [State.holds_iff]
  rcases hr with rfl | rfl
  · exact ⟨by rw [h.inlet.1]; decide, h.inlet.2⟩
  · exact ⟨by rw [h.selector.1]; decide, h.selector.2⟩

theorem State.ownsPath.releaseInlet : y.releaseIf who .inlet = y.letNow .inlet := by
  rw [State.releaseIf_holds (h.holds (.inl rfl))]
  exact release_letNow (by decide) h.inlet.1 fun e => by cases e

/-- SELECTOR and INLET let go. -/
def State.pathLetGo (y : State) : State := (y.letNow .inlet).letNow .selector

theorem State.ownsPath.releaseBoth : (y.releaseIf who .inlet).releaseIf who .selector = y.pathLetGo ∧
    (y.releaseIf who .inlet).release .selector = y.pathLetGo := by
  have hsel : (y.letNow .inlet).entry .selector = y.entry .selector := by rw [State.entry_letNow, if_neg (by decide)]
  have hinlet : ((y.letNow .inlet).entry .inlet).lease = .free := by
    rw [State.entry_letNow, if_pos rfl]
    rfl
  have hgo : (y.letNow .inlet).release .selector = y.pathLetGo :=
    release_letNow (by decide) (by rw [hsel]; exact h.selector.1) fun _ k => by simp [State.hasHolder, hinlet] at k
  rw [h.releaseInlet]
  refine ⟨?_, hgo⟩
  rw [State.releaseIf_holds, hgo]
  rw [State.holds_iff, hsel]
  exact ⟨by rw [h.selector.1]; decide, h.selector.2⟩

end Owns

theorem State.entry_pathLetGo (y : State) (q : Resource) :
    y.pathLetGo.entry q = if q = .selector then y.letFree .selector else if q = .inlet then y.letFree .inlet else y.entry q := by
  have hfree : (y.letNow .inlet).letFree .selector = y.letFree .selector :=
    State.letFree_congr (by rw [State.entry_letNow, if_neg (by decide)]) (y.clock_letNow _)
  rw [State.pathLetGo, State.entry_letNow, hfree, State.entry_letNow]

theorem State.position_pathLetGo (y : State) : y.pathLetGo.arb.selHeld = y.arb.selHeld ∧ y.pathLetGo.arb.selCurrent = y.arb.selCurrent := by
  obtain ⟨h1, h2⟩ := (y.letNow .inlet).position_letNow .selector
  obtain ⟨h3, h4⟩ := y.position_letNow .inlet
  exact ⟨h1.trans h3, h2.trans h4⟩

theorem State.clock_pathLetGo (y : State) : y.pathLetGo.drive.clock = y.drive.clock :=
  ((y.letNow .inlet).clock_letNow .selector).trans (y.clock_letNow .inlet)

theorem State.keepsBut_pathLetGo (y : State) : y.keepsBut y.pathLetGo [.arb, .drive] :=
  (y.keepsBut_letNow _).step (State.keepsBut_letNow _ _) (List.Subset.refl _)

/-! ### The three ways on -/

/-- A FILL has closed INLET and its SELECTOR moves to the new column (R58, R59). -/
structure SwitchedOver (y : State) (c : Column) (t : State) : Prop where
  inlet : t.entry .inlet = y.letFree .inlet
  selector : t.entry .selector = { y.entry .selector with lease := .moving }
  entries : y.keepsEntriesBut t [.selector, .inlet]
  held : t.arb.selHeld = c
  current : t.arb.selCurrent = none
  drive : t.drive = { y.drive with travel := some Timer.zero, travelReading := none }
  frame : y.keepsBut t [.arb, .drive]

theorem toInlet_switches {y : State} {who : Holder} {c : Column} (h : y.ownsPath who) (hcur : y.arb.selCurrent ≠ some c)
    (hyield : yieldCondition y.cfg y.drive.clock { y.entry .selector with lease := .moving } = (y.entry .selector).yieldRequested)
    (serial : Nat) : SwitchedOver y c ((y.releaseIf who .inlet).toInlet who serial c) := by
  obtain ⟨a, ha⟩ : ∃ a, a = y.letNow .inlet := ⟨_, rfl⟩
  have haentry : ∀ q, a.entry q = if q = .inlet then y.letFree .inlet else y.entry q := fun q => ha ▸ y.entry_letNow _ q
  have hasel : a.entry .selector = y.entry .selector := by rw [haentry, if_neg (by decide)]
  have ka : y.keepsBut a [.arb, .drive] := ha ▸ y.keepsBut_letNow _
  have hadrive : a.drive = y.drive := ha ▸ rfl
  have hacur : a.arb.selCurrent = y.arb.selCurrent := ha ▸ (y.position_letNow _).2
  have hinlet : a.hasHolder .inlet = false := by
    rw [State.hasHolder, haentry, if_pos rfl]
    rfl
  obtain ⟨m, hm⟩ : ∃ m, m = a.startTravel c := ⟨_, rfl⟩
  have km : a.keepsBut m [.arb, .drive] := hm ▸ a.keepsBut_startTravel c
  have hmentry : ∀ q, m.entry q = a.entry q := fun q => by rw [hm]; rfl
  have hmsel : m.entry .selector = y.entry .selector := (hmentry _).trans hasel
  have hmdrive : m.drive = { y.drive with travel := some Timer.zero, travelReading := none } := by
    rw [hm, ← hadrive]
    rfl
  have hmarb : m.arb.selHeld = c ∧ m.arb.selCurrent = none := by
    rw [hm]
    exact ⟨rfl, rfl⟩
  have hedit : m.editEntry .selector (fun e => { e with lease := .moving }) = m.putEntry .selector { y.entry .selector with lease := .moving } := by
    rw [State.editEntry_quiet (.inr (by decide)), State.edited, hmsel, km.cfg, ka.cfg, hmdrive]
    exact congrArg (fun b => m.putEntry .selector { y.entry .selector with lease := .moving, yieldRequested := b }) hyield
  obtain ⟨t, ht⟩ : ∃ t, t = m.putEntry .selector { y.entry .selector with lease := .moving } := ⟨_, rfl⟩
  have hchange : a.changePosition c = t := by
    unfold State.changePosition
    rw [if_neg (by rw [hinlet, hasel, h.selector.1]; simp), if_neg (by rw [hacur]; exact hcur), ← hm, hedit, ht]
  have htentry : ∀ q, t.entry q = if q = .selector then { y.entry .selector with lease := .moving } else a.entry q := fun q => by
    rw [ht, State.entry_putEntry, hmentry]
  have hto : a.toInlet who serial c = t := by
    unfold State.toInlet
    dsimp only
    rw [hchange, if_neg (by rw [htentry, if_pos rfl]; exact fun e => by cases e)]
  rw [h.releaseInlet, ← ha, hto]
  have kt : m.keepsBut t [.arb] := ht ▸ m.keepsBut_putEntry _ _
  refine ⟨?_, ?_, fun q hq => ?_, ?_, ?_, ?_, (ka.step km (List.Subset.refl _)).step kt (by decide)⟩
  · rw [htentry, if_neg (by decide), haentry, if_pos rfl]
  · rw [htentry, if_pos rfl]
  · simp only [List.mem_cons, List.not_mem_nil, or_false, not_or] at hq
    rw [htentry, if_neg hq.1, haentry, if_neg hq.2]
  · rw [ht]
    exact hmarb.1
  · rw [ht]
    exact hmarb.2
  · rw [kt.drive, hmdrive]

/-- A FILL has let SELECTOR and INLET go and waits for soft water (R58, R60). -/
structure WaitsSoft (y : State) (i : SlotId) (sl : Slot) (x : FillWork) (t : State) : Prop where
  self : t.pool[i] = some { sl with work := .fill { x with waitSoft := true } }
  pool : ∀ j : SlotId, j ≠ i → t.pool[j] = y.pool[j]
  entry : ∀ q, t.entry q = if q = .selector then y.letFree .selector else if q = .inlet then y.letFree .inlet else y.entry q
  position : t.arb.selHeld = y.arb.selHeld ∧ t.arb.selCurrent = y.arb.selCurrent
  clock : t.drive.clock = y.drive.clock
  frame : y.keepsBut t [.arb, .drive, .pool]

theorem enterWaitSoft_waits {y : State} {i : SlotId} {sl : Slot} {x : FillWork} (hp : y.pool[i] = some { sl with work := .fill x })
    (ho : sl.outcome = none) (h : y.ownsPath (washWho sl.port i)) (hwait : ∀ q, y.waitsFor (washWho sl.port i) q = false) :
    WaitsSoft y i sl x (y.enterWaitSoft i) := by
  have k := y.keepsBut_pathLetGo
  have hslot : y.pathLetGo.pool[i] = some { sl with work := .fill x } := by rw [k.pool, hp]
  have henter : y.enterWaitSoft i = y.pathLetGo.setSlot i (some { sl with work := .fill { x with waitSoft := true } }) := by
    unfold State.enterWaitSoft
    simp only [fillAt_eq hp rfl ho, slotWho_fill (sl := { sl with work := .fill x }) rfl]
    rw [State.withdraw_absent hwait, h.releaseBoth.1, State.setWork_held hslot]
  rw [henter]
  refine ⟨State.pool_setSlot_self _ _ _, fun j hj => ?_, y.entry_pathLetGo, y.position_pathLetGo, y.clock_pathLetGo,
    (State.keepsBut_mono k (by decide)).step (State.keepsBut_setSlot _ _ _) (by decide)⟩
  rw [State.pool_setSlot_ne _ hj, k.pool]

theorem yieldPath_unasked {s : State} (h : (s.entry .selector).yieldRequested = false) (hi : (s.entry .inlet).yieldRequested = false)
    (who : Holder) (serial : Nat) : s.yieldPath who serial = s := by
  unfold State.yieldPath
  simp [h, hi]

/-- A part in which a leased SELECTOR alone has waiters is settled. -/
theorem State.calmBut.settle_selector {s : State} (h : s.calmBut .selector) (hl : (s.entry .selector).lease ≠ .free) (n : Nat) :
    s.settleFor n = s := by
  refine settleFor_stays (h.judge (by decide)) (yieldNext_none (h.1 .heater (by decide)).2 fun m => (h.1 (.dose m) fun e => by cases e).2)
    (fun r => ?_) n
  by_cases hr : r = .selector
  · subst hr
    exact chosenWaiter_leased hl
  · exact chosenWaiter_noWaiters (h.1 r hr).1

theorem Counted.calmBut {s y : State} {i : SlotId} {sl : Slot} {x : FillWork} {l : List Block} (h : Counted s i sl x l y)
    (hr : s.calmBut .selector) (he : ∀ r, r ≠ .selector → y.entry r = s.entry r) (hsense : Block.sense ∉ l := by decide)
    (hdoor : Block.door ∉ l := by decide) : y.calmBut .selector :=
  ⟨fun q hq => by rw [he q hq]; exact hr.1 q hq, h.interlock hr.2 (by rw [he .circ (by decide)]) hsense hdoor⟩

/-- What a FILL does with the water path leaves nobody but SELECTOR's to wait. -/
theorem State.calmBut.path {y t : State} (h : y.calmBut .selector) (he : y.keepsEntriesBut t [.selector, .inlet])
    (hi : (t.entry .inlet).waiters = [] ∧ (t.entry .inlet).yieldRequested = false) {l : List Block} (k : y.keepsBut t l)
    (hp : Block.sense ∉ l := by decide) (hd : Block.door ∉ l := by decide) (hw : Block.water ∉ l := by decide) : t.calmBut .selector := by
  refine ⟨fun q hq => ?_, ?_⟩
  · by_cases hin : q = .inlet
    · rw [hin]
      exact hi
    · rw [he q (by simp [hq, hin])]
      exact h.1 q hq
  · rw [k .water hw, h.2, interlockMet_of (by rw [he .circ (by decide)]) (congrArg Sense.points (k .sense hp))
      (congrArg Door.door (k .door hd)) (by rw [k .water hw])]

end Sys2Proof.Machine

/-! The FILL whose decilitre exhausts its column, where no head is taken from the queue (R36, R55 to R60, R62). -/

namespace Sys2Proof.Machine

/-! ### The end of a FILL that has the water path -/

/-- A FILL with the water path has ended: both leases let go, and nothing else of the table. -/
structure PathOver (y : State) (i : SlotId) (sl : Slot) (x : FillWork) (o : OutcomeCode) (t : State) : Prop where
  ended : FillOver y t i { sl with work := .fill x } x o
  entry : ∀ q, t.entry q = if q = .selector then y.letFree .selector else if q = .inlet then y.letFree .inlet else y.entry q
  position : t.arb.selHeld = y.arb.selHeld ∧ t.arb.selCurrent = y.arb.selCurrent
  clock : t.drive.clock = y.drive.clock

theorem PathOver.of {y : State} {i : SlotId} {sl : Slot} {x : FillWork} {o : OutcomeCode} (hp : y.pool[i] = some { sl with work := .fill x })
    (ho : sl.outcome = none) (h : y.ownsPath (washWho sl.port i)) (hwait : ∀ q, y.waitsFor (washWho sl.port i) q = false)
    (honly : ∀ r, y.holds (washWho sl.port i) r = true → r = .inlet ∨ r = .selector) (hmark : ∀ c, (y.column c).breakthrough ≠ some i)
    (hidle : ∀ k, (y.channel k).state = .idle) : PathOver y i sl x o (y.finishFill i o true) := by
  have hover := finishFill_over (o := o) hp rfl ho hwait honly hmark fun _ => hidle
  obtain ⟨a, ha⟩ : ∃ a, a = y.setSlot i (some { sl with work := .fill x, outcome := some o }) := ⟨_, rfl⟩
  have ka : y.keepsBut a [.pool] := ha ▸ y.keepsBut_setSlot _ _
  have haowns : a.ownsPath (washWho sl.port i) := by
    rw [ha]
    exact ⟨h.inlet, h.selector⟩
  obtain ⟨b, hb⟩ : ∃ b, b = y.fillLetGo i { sl with work := .fill x } o := ⟨_, rfl⟩
  have hrelease : b = a.releaseAll (washWho sl.port i) := by
    rw [hb, ha]
    rfl
  have hgo : b = a.pathLetGo := by
    rw [hrelease, State.releaseAll_path fun q hq => honly q (by rw [ha] at hq; exact hq), haowns.releaseBoth.1]
  have kb : y.keepsBut b [.pool, .arb, .drive] := hgo ▸ (State.keepsBut_mono ka (by decide)).step a.keepsBut_pathLetGo (by decide)
  have hnobody : ∀ q, b.waitsFor (washWho sl.port i) q = false := fun q => by
    rw [← hwait q]
    refine waitsFor_congr ?_ _
    rw [hgo, State.entry_pathLetGo]
    split
    next e =>
      rw [e, State.letFree, ka.entry]
    next =>
      split
      next e => rw [e, State.letFree, ka.entry]
      next => rw [ka.entry]
  obtain ⟨d, hd⟩ : ∃ d, d = y.fillDrawn i { sl with work := .fill x } x o := ⟨_, rfl⟩
  have kd : b.keepsBut d [.acct] := by
    rw [hd, State.fillDrawn, ← hb]
    exact b.keepsBut_appendDraw _ _ _ _ _ _
  have hoffer : (if o = .done ∨ o = .limit then d.offerTrigger .fillDone else d) = d := by
    split
    · exact offerTrigger_idle (fun c => by rw [State.channel_congr ((kb.dose).symm ▸ kd.dose)]; exact hidle c) _
    · rfl
  have hfinish : y.finishFill i o true = d.endSlot i o (fillFields x) true := by
    rw [finishFill_eq hp rfl ho (by rw [← hb]; exact hnobody) hmark, ← hd, hoffer]
  have ke := d.keepsBut_endSlot i o (fillFields x) true
  have harb : (y.finishFill i o true).arb = a.pathLetGo.arb := by rw [hfinish, ke.arb, kd.arb, hgo]
  have hdrive : (y.finishFill i o true).drive = a.pathLetGo.drive := by rw [hfinish, ke.drive, kd.drive, hgo]
  have hfree : ∀ r, a.letFree r = y.letFree r := fun r => State.letFree_congr (ka.entry r) (by rw [ka.drive])
  obtain ⟨h1, h2⟩ := a.position_pathLetGo
  refine ⟨hover, fun q => ?_, ⟨by rw [harb, h1, ka.arb], by rw [harb, h2, ka.arb]⟩, by rw [hdrive, a.clock_pathLetGo, ka.drive]⟩
  rw [State.entry_congr (congrArg Arbiter.table harb), State.entry_pathLetGo, hfree, hfree, ka.entry]

/-! ### The decilitre that exhausts -/

/-- A decilitre of the FILL that has the water path exhausts the column in service at the selector's position, and nobody else works
with the water. -/
structure State.exhausts (s : State) (i : SlotId) (sl : Slot) (w : FillWork) (c : Column) : Prop where
  flows : s.flows i sl w
  owns : s.ownsPath (washWho sl.port i)
  rest : s.atRest
  held : s.arb.selHeld = c
  current : s.arb.selCurrent = some c
  serves : (s.column c).state = .inService
  other : (s.column (Column.other c)).state ≠ .inService
  otherMark : (s.column (Column.other c)).breakthrough ≠ some i
  out : (s.column c).remaining ≤ s.acct.hardness ∨ (s.column c).breakthrough = some i
  idle : ∀ k, (s.channel k).state = .idle
  only : ∀ r, s.holds (washWho sl.port i) r = true → r = .inlet ∨ r = .selector
  alone : ∀ j, j ≠ i → s.fillAt j = none

theorem Column.eq_or_other (c d : Column) : d = c ∨ d = Column.other c := by
  cases c <;> cases d <;> simp [Column.other]

section Exhausts

variable {s : State} {i : SlotId} {sl : Slot} {w x : FillWork} {c : Column}

/-- The part after the charge and the judgement of the queue, the tank raised and the tallies in the slot. -/
def State.outPoured (s : State) (i : SlotId) (sl : Slot) (x : FillWork) (c : Column) : State :=
  ((s.columnOut c (s.outValue i)).takeHead).poured i sl x

/-- The charge has left the columns as an exhausted column leaves them, the leases as they were, and of the waiters and the queue what the
head that it may have taken makes of them. -/
structure OutPoured (s : State) (i : SlotId) (sl : Slot) (x : FillWork) (c : Column) (y : State) : Prop where
  counted : Counted s i sl x [.soft, .ports, .arb] y
  column : y.column c = { s.column c with state := .exhausted, remaining := 0, breakthrough := none }
  other : y.column (Column.other c) = { s.column (Column.other c) with
    state := if (s.column (Column.other c)).state = .standby then .inService else (s.column (Column.other c)).state }
  lease : ∀ r, (y.entry r).lease = (s.entry r).lease ∧ (y.entry r).holder = (s.entry r).holder
  waits : ∀ r, y.waitsFor (washWho sl.port i) r = false
  unasked : ∀ r, (y.entry r).yieldRequested = false
  moves : yieldCondition y.cfg y.drive.clock { y.entry .selector with lease := .moving } = false
  held : y.arb.selHeld = c
  current : y.arb.selCurrent = some c
  calm : y.calmBut .selector
  txq : ∀ p, (y.port p).txq = (s.port p).txq

/-- The column whose regeneration or service the FILL meets next, by the policy (R57 to R60). -/
theorem OutPoured.position {y : State} (h : s.exhausts i sl w c) (k : OutPoured s i sl x c y) : y.fillPosition (washWho sl.port i) =
    if (s.column (Column.other c)).state = .standby then some (Column.other c) else if s.cfg.exhaustBypass then some c else none := by
  have hcfg : y.cfg = s.cfg := k.counted.frame.cfg
  have hc : (y.column c).state = .exhausted := by rw [k.column]
  have hoc : (y.column (Column.other c)).state =
      if (s.column (Column.other c)).state = .standby then .inService else (s.column (Column.other c)).state := by rw [k.other]
  by_cases hst : (s.column (Column.other c)).state = .standby
  · rw [if_pos hst] at hoc ⊢
    refine fillPosition_inService ?_ _
    cases c with
    | a =>
      have ha : y.soft.colA.state = .exhausted := hc
      have hb : y.soft.colB.state = .inService := hoc
      simp [State.inService, ha, hb, Column.other]
    | b =>
      have ha : y.soft.colA.state = .inService := hoc
      simp [State.inService, ha, Column.other]
  · rw [if_neg hst] at hoc ⊢
    have hnone : y.inService = none := State.inService_eq_none fun d => by
      rcases Column.eq_or_other c d with rfl | rfl
      · rw [hc]
        decide
      · rw [hoc]
        exact h.other
    have hholds : y.holds (washWho sl.port i) .selector = true := by
      rw [State.holds_iff, (k.lease _).1, (k.lease _).2, ← State.holds_iff]
      exact h.owns.holds (.inr rfl)
    unfold State.fillPosition
    rw [hnone, hcfg]
    cases s.cfg.exhaustBypass with
    | true => simp [hholds, k.held, hc]
    | false => rfl

theorem OutPoured.owns {y : State} (h : s.exhausts i sl w c) (k : OutPoured s i sl x c y) : y.ownsPath (washWho sl.port i) :=
  ⟨by rw [(k.lease _).1, (k.lease _).2]; exact h.owns.inlet, by rw [(k.lease _).1, (k.lease _).2]; exact h.owns.selector⟩

/-- The three ways on of a FILL whose column is exhausted and that does not end. -/
structure GoesOn (s : State) (i : SlotId) (sl : Slot) (x : FillWork) (c : Column) (y t : State) : Prop where
  switches : (s.column (Column.other c)).state = .standby → SwitchedOver y (Column.other c) t
  stays : (s.column (Column.other c)).state ≠ .standby → s.cfg.exhaustBypass = true → t = y
  waits : (s.column (Column.other c)).state ≠ .standby → s.cfg.exhaustBypass = false → WaitsSoft y i sl x t

theorem OutPoured.goesOn {y : State} (h : s.exhausts i sl w c) (k : OutPoured s i sl x c y) :
    GoesOn s i sl x c y ((y.fillStage5 i (washWho sl.port i) sl.age).yieldPath (washWho sl.port i) sl.age) := by
  have hposition := k.position h
  have howns := k.owns h
  by_cases hst : (s.column (Column.other c)).state = .standby
  · rw [if_pos hst] at hposition
    have hswitch := toInlet_switches (c := Column.other c) howns
      (by rw [k.current]; exact fun e => Column.other_ne c (Option.some.inj e).symm) (k.moves.trans (k.unasked _).symm) sl.age
    have hstage : y.fillStage5 i (washWho sl.port i) sl.age = (y.releaseIf (washWho sl.port i) .inlet).toInlet (washWho sl.port i) sl.age
        (Column.other c) := by
      unfold State.fillStage5
      rw [hposition]
      exact if_neg (by rw [k.held]; exact Column.other_ne c)
    rw [hstage, yieldPath_unasked (by rw [hswitch.selector]; exact k.unasked .selector) (by rw [hswitch.inlet]; rfl)]
    exact ⟨fun _ => hswitch, fun hn => absurd hst hn, fun hn => absurd hst hn⟩
  · rw [if_neg hst] at hposition
    cases hb : s.cfg.exhaustBypass with
    | true =>
      rw [hb, if_pos rfl, ← k.held] at hposition
      rw [fillStage5_stays hposition, yieldPath_unasked (k.unasked _) (k.unasked _)]
      exact ⟨fun hs => absurd hs hst, fun _ _ => rfl, fun _ hf => absurd (hb.symm.trans hf) (by decide)⟩
    | false =>
      rw [hb, if_neg (by decide)] at hposition
      have hwaits := enterWaitSoft_waits k.counted.self h.flows.outcome howns k.waits
      have hstage : y.fillStage5 i (washWho sl.port i) sl.age = y.enterWaitSoft i := by
        unfold State.fillStage5
        rw [hposition]
      rw [hstage, yieldPath_unasked (by rw [hwaits.entry, if_pos rfl]; rfl) (by rw [hwaits.entry, if_neg (by decide), if_pos rfl]; rfl)]
      exact ⟨fun hs => absurd hs hst, fun _ hf => absurd (hb.symm.trans hf) (by decide), fun _ _ => hwaits⟩

theorem OutPoured.ends {y : State} (h : s.exhausts i sl w c) (k : OutPoured s i sl x c y) (o : OutcomeCode) :
    PathOver y i sl x o (y.finishFill i o true) := by
  refine .of k.counted.self h.flows.outcome (k.owns h) k.waits (fun r hr => h.only r ?_) (fun d => ?_) fun n => ?_
  · rw [State.holds_iff, ← (k.lease r).1, ← (k.lease r).2, ← State.holds_iff]
    exact hr
  · rcases Column.eq_or_other c d with rfl | rfl
    · rw [k.column]
      exact fun e => by cases e
    · rw [k.other]
      exact h.otherMark
  · rw [State.channel_congr k.counted.frame.dose]
    exact h.idle n

/-- The decilitre, from what its charge has left. -/
theorem State.exhausts.decilitre (h : s.exhausts i sl w c) (hx : w.counted' (.soft c) s.acct.hardness = x) : s.fillDecilitre i =
    if w.counted + 1 = w.requested then (s.outPoured i sl x c).finishFill i .done true
      else if s.cfg.tankLimit ≤ min 255 (s.water.tank + 1) then (s.outPoured i sl x c).finishFill i .limit true
      else ((s.outPoured i sl x c).fillStage5 i (washWho sl.port i) sl.age).yieldPath (washWho sl.port i) sl.age := by
  have hcharge := chargeDecilitre_exhausts (s := s) (i := i) (by rw [h.held]; exact h.serves) (by rw [h.held]; exact h.out) h.alone
  rw [h.held] at hcharge
  have k : s.keepsBut ((s.columnOut c (s.outValue i)).takeHead) [.soft, .ports, .arb] :=
    (State.keepsBut_mono (s.keepsBut_columnOut _ _) (by decide)).step (State.keepsBut_takeHead _) (by decide)
  have hdl := fillDecilitre_eq h.flows (by rw [h.held, h.serves]; decide) hcharge hx k
  obtain ⟨h1, h2⟩ := counted'_requested w (.soft c) s.acct.hardness
  rw [hx] at h1 h2
  rw [h1, h2] at hdl
  exact hdl

end Exhausts

end Sys2Proof.Machine

/-! The decilitre that exhausts its column where no head is taken from the queue: how each FILL goes on or ends (R36, R55 to R62). -/

namespace Sys2Proof.Machine

theorem State.txq_takeHead (s : State) (p : Port) : ((s.takeHead).port p).txq = (s.port p).txq := by
  unfold State.takeHead
  split
  · rfl
  · split
    · split
      · split
        · rfl
        · exact State.txq_post _ _ _ _ _
      · exact congrArg PortState.txq (State.port_congr (State.keepsBut_ask _ _ _ _ _).ports p)
    · rfl

theorem ColumnOut.txq {s y : State} {c : Column} {value : Nat} (h : ColumnOut s c value y) (p : Port) : (y.port p).txq = (s.port p).txq := by
  rw [State.port_congr h.ports, State.outReported]
  split
  · rw [State.txq_post, State.txq_post]
  · rw [State.txq_post]

section Untaken

variable {s : State} {i : SlotId} {sl : Slot} {w x : FillWork} {c : Column}

/-- Where no head is taken the charge leaves the leases and the waiters as they were. -/
theorem OutPoured.of_untaken (h : s.exhausts i sl w c)
    (hk : HeadUntaken (s.columnOut c (s.outValue i)) (s.columnOut c (s.outValue i)).takeHead) :
    OutPoured s i sl x c (s.outPoured i sl x c) ∧ (s.outPoured i sl x c).arb = s.arb := by
  have hout := columnOut_out s c (s.outValue i)
  obtain ⟨z, hz⟩ : ∃ z, z = (s.columnOut c (s.outValue i)).takeHead := ⟨_, rfl⟩
  have hztxq : ∀ p, (z.port p).txq = (s.port p).txq := fun p => by rw [hz, State.txq_takeHead, hout.txq]
  have hy : s.outPoured i sl x c = z.poured i sl x := hz ▸ rfl
  rw [← hz] at hk
  rw [hy]
  have kz : s.keepsBut z [.soft, .ports] := hout.frame.step hk.frame (by decide)
  have hcounted := counted_poured (State.keepsBut_mono kz (by decide) : s.keepsBut z [.soft, .ports, .arb]) i sl x
  obtain ⟨y, hyeq⟩ : ∃ y, y = z.poured i sl x := ⟨_, rfl⟩
  have hysoft : y.soft = z.soft := by rw [hyeq]; rfl
  have hyports : y.ports = z.ports := by rw [hyeq]; rfl
  have hyarb : y.arb = s.arb := by
    rw [hyeq]
    exact kz.arb
  rw [← hyeq] at hcounted ⊢
  have hent : ∀ r, y.entry r = s.entry r := State.entry_congr (congrArg Arbiter.table hyarb)
  have hrest := hcounted.atRest h.rest hent
  refine ⟨⟨hcounted, ?_, ?_, fun r => by rw [hent]; exact ⟨rfl, rfl⟩, fun r => State.waitsFor_noWaiters (hrest.1 r).1 _, fun r => (hrest.1 r).2,
    yieldCondition_noWaiters (hrest.1 _).1, by rw [hyarb]; exact h.held, by rw [hyarb]; exact h.current, hrest.calmBut _, fun p => ?_⟩, hyarb⟩
  · rw [State.column_congr hysoft, hk.column, hout.column]
  · rw [State.column_congr hysoft, hk.column, hout.other]
  · rw [State.port_congr hyports, hztxq]

/-- What the softener and the reports tell of the exhausted column, where no head is taken. -/
structure ToldOut (s t : State) (i : SlotId) (c : Column) : Prop where
  column : t.column c = { s.column c with state := .exhausted, remaining := 0, breakthrough := none }
  other : t.column (Column.other c) = { s.column (Column.other c) with
    state := if (s.column (Column.other c)).state = .standby then .inService else (s.column (Column.other c)).state }
  regen : t.soft.regen = s.soft.regen
  queue : t.soft.queue = s.queueOut c
  begins : s.mode = .run → s.soft.regen = none → s.latched = false → s.soft.saltWait = false →
    ∀ q, t.soft.queue.head? = some q → t.soft.saltWait = true ∧ ∀ (y : Port) (k : SubId),
      (t.port y).subs[k] = (((s.outReported c (s.outValue i)).post .saltNeeded (columnCode q.column) 0).port y).subs[k]
  stays : s.mode = .setup ∨ s.soft.regen ≠ none ∨ s.latched = true ∨ s.soft.saltWait = true ∨ t.soft.queue = [] →
    t.soft.saltWait = s.soft.saltWait ∧ ∀ (y : Port) (k : SubId), (t.port y).subs[k] = ((s.outReported c (s.outValue i)).port y).subs[k]

theorem State.keepsBut_outReported (s : State) (c : Column) (value : Nat) : s.keepsBut (s.outReported c value) [.ports] := by
  unfold State.outReported
  split
  · exact (s.keepsBut_post _ _ _).step (State.keepsBut_post _ _ _ _) (List.Subset.refl _)
  · exact s.keepsBut_post _ _ _

theorem toldOut {t : State} (hk : HeadUntaken (s.columnOut c (s.outValue i)) (s.columnOut c (s.outValue i)).takeHead)
    (hsoft : t.soft = (s.outPoured i sl x c).soft) (hsubs : ∀ p, (t.port p).subs = ((s.outPoured i sl x c).port p).subs) : ToldOut s t i c := by
  have hout := columnOut_out s c (s.outValue i)
  obtain ⟨z, hz⟩ : ∃ z, z = (s.columnOut c (s.outValue i)).takeHead := ⟨_, rfl⟩
  obtain ⟨b, hb⟩ : ∃ b, b = s.columnOut c (s.outValue i) := ⟨_, rfl⟩
  have hsz : t.soft = z.soft := hsoft.trans (by rw [hz]; rfl)
  have hpz : ∀ p, (t.port p).subs = (z.port p).subs := fun p => (hsubs p).trans (by rw [hz]; rfl)
  rw [← hz, ← hb] at hk
  rw [← hb] at hout
  have kr := s.keepsBut_outReported c (s.outValue i)
  have hmode : b.mode = s.mode := hout.frame .mode (by decide)
  have hlatched : b.latched = s.latched := by simp only [State.latched, hout.frame.prot]
  have hquiet : z.ports = b.ports → ∀ (y : Port) (k : SubId), (t.port y).subs[k] = ((s.outReported c (s.outValue i)).port y).subs[k] :=
    fun e y k => by rw [hpz, State.port_congr e, State.port_congr hout.ports]
  refine ⟨?_, ?_, by rw [hsz, hk.regen, hout.regen], by rw [hsz, hk.queue, hout.queue], fun hm hg hl hw q hq => ?_, fun hs => ?_⟩
  · rw [State.column_congr hsz, hk.column, hout.column]
  · rw [State.column_congr hsz, hk.column, hout.other]
  · rw [hsz, hk.queue] at hq
    obtain ⟨h1, h2⟩ := hk.begins (by rw [hmode, hm]) (by rw [hout.regen, hg]) (by rw [hlatched, hl]) (by rw [hout.saltWait, hw]) q hq
    refine ⟨by rw [hsz, h1], fun y k => ?_⟩
    have hports : (b.post .saltNeeded (columnCode q.column) 0).ports =
        ((s.outReported c (s.outValue i)).post .saltNeeded (columnCode q.column) 0).ports :=
      State.ports_post_clock hout.ports (by rw [hout.frame.drive, kr.drive]) _ _ _
    rw [hpz, State.port_congr (h2.trans hports)]
  · obtain ⟨h1, h2⟩ := hk.stays (by
      rw [hmode, hout.regen, hlatched, hout.saltWait]
      rw [hsz, hk.queue] at hs
      exact hs)
    exact ⟨by rw [hsz, h1, hout.saltWait], hquiet h2⟩

end Untaken

section GoesOn

variable {s y t : State} {i : SlotId} {sl : Slot} {x : FillWork} {c : Column} (g : GoesOn s i sl x c y t)
include g

/-- What a FILL that goes on leaves. -/
theorem GoesOn.leaves : y.keepsBut t [.arb, .drive, .pool] ∧ y.keepsEntriesBut t [.selector, .inlet] ∧
    ∀ j : SlotId, j ≠ i → t.pool[j] = y.pool[j] := by
  by_cases hst : (s.column (Column.other c)).state = .standby
  · have h := g.switches hst
    exact ⟨State.keepsBut_mono h.frame (by decide), h.entries, fun j _ => by rw [h.frame.pool]⟩
  · cases hb : s.cfg.exhaustBypass with
    | true =>
      rw [g.stays hst hb]
      exact ⟨y.keepsBut_refl _, fun _ _ => rfl, fun _ _ => rfl⟩
    | false =>
      have h := g.waits hst hb
      refine ⟨h.frame, fun q hq => ?_, h.pool⟩
      simp only [List.mem_cons, List.not_mem_nil, or_false, not_or] at hq
      rw [h.entry, if_neg hq.1, if_neg hq.2]

/-- Its entries keep their waiters, and nobody is asked to yield. -/
theorem GoesOn.quiet {r : Resource} (hr : r = .selector ∨ r = .inlet) (hy : ∀ r, (y.entry r).yieldRequested = false) :
    (t.entry r).waiters = (y.entry r).waiters ∧ (t.entry r).yieldRequested = false := by
  by_cases hst : (s.column (Column.other c)).state = .standby
  · have h := g.switches hst
    rcases hr with rfl | rfl
    · rw [h.selector]
      exact ⟨rfl, hy _⟩
    · rw [h.inlet]
      exact ⟨rfl, rfl⟩
  · cases hb : s.cfg.exhaustBypass with
    | true =>
      rw [g.stays hst hb]
      exact ⟨rfl, hy _⟩
    | false =>
      have h := g.waits hst hb
      rcases hr with rfl | rfl
      · rw [h.entry, if_pos rfl]
        exact ⟨rfl, rfl⟩
      · rw [h.entry, if_neg (by decide), if_pos rfl]
        exact ⟨rfl, rfl⟩

end GoesOn

theorem fillExhaustsColumn : Clauses.FillExhaustsColumn := by
  intro s i sl w c hp hw ho hil hih hsl hsh hr hheld hcur hpulse hserves hother hmark hout hidle honly halone hstays x hx
  have h : s.exhausts i sl w c := ⟨⟨hp, hw, ho, hil, hih⟩, ⟨⟨hil, hih⟩, ⟨hsl, hsh⟩⟩, hr, hheld, hcur, hserves, hother, hmark, hout, hidle, honly, halone⟩
  have hxw : w.counted' (.soft c) s.acct.hardness = x := hx ▸ w.counted'_soft _ _
  obtain ⟨hxc, -⟩ := counted'_requested w (.soft c) s.acct.hardness
  rw [hxw] at hxc
  have hvalue : s.outValue i = if (s.column c).breakthrough = some i then 1 else 0 := by rw [State.outValue, hheld]
  have hcolumnOut := columnOut_out s c (s.outValue i)
  have hk : HeadUntaken (s.columnOut c (s.outValue i)) (s.columnOut c (s.outValue i)).takeHead := by
    refine takeHead_kept ?_
    have hmode : (s.columnOut c (s.outValue i)).mode = s.mode := hcolumnOut.frame .mode (by decide)
    have hlatched : (s.columnOut c (s.outValue i)).latched = s.latched := by simp only [State.latched, hcolumnOut.frame.prot]
    rw [hmode, hcolumnOut.regen, hlatched, hcolumnOut.frame.acct, hcolumnOut.queue]
    rcases hstays with e | e | e | e | ⟨e, e'⟩
    · exact .inl e
    · exact .inr (.inl e)
    · exact .inr (.inr (.inl e))
    · exact .inr (.inr (.inr (.inl e)))
    · exact .inr (.inr (.inr (.inr ((if_neg fun k => absurd k.1 (by rw [e]; decide)).trans e'))))
  obtain ⟨k, harb⟩ := OutPoured.of_untaken (x := x) h hk
  obtain ⟨h1, h2⟩ := exec_decilitre h.flows hpulse
  rw [h.decilitre hxw] at h1 h2
  have htold : ∀ t : State, t.soft = (s.outPoured i sl x c).soft → (∀ p, (t.port p).subs = ((s.outPoured i sl x c).port p).subs) → ToldOut s t i c :=
    fun t => toldOut hk
  obtain ⟨y, hy⟩ : ∃ y, y = s.outPoured i sl x c := ⟨_, rfl⟩
  rw [← hy] at k h1 h2 htold harb
  have hent : ∀ r, y.entry r = s.entry r := State.entry_congr (congrArg Arbiter.table harb)
  have hrest : y.atRest := k.counted.atRest hr hent
  have hreported : ∀ u v : State, u = s.post .columnExhausted (columnCode c) (if (s.column c).breakthrough = some i then 1 else 0) →
      v = (if (s.column (Column.other c)).state = .standby
        then u.post .columnInService (columnCode (Column.other c)) (s.column (Column.other c)).remaining else u) →
      v = s.outReported c (s.outValue i) := fun u v hu hv => by rw [hv, hu, ← hvalue, State.outReported]
  have hfinal : ∀ t : State, ToldOut s t i c →
      ∀ u v : State, u = s.post .columnExhausted (columnCode c) (if (s.column c).breakthrough = some i then 1 else 0) →
        v = (if (s.column (Column.other c)).state = .standby
          then u.post .columnInService (columnCode (Column.other c)) (s.column (Column.other c)).remaining else u) →
        (s.mode = .run → s.soft.regen = none → s.latched = false → s.soft.saltWait = false →
          ∀ q, t.soft.queue.head? = some q → t.soft.saltWait = true ∧ ∀ (y : Port) (k : SubId),
            (t.port y).subs[k] = ((v.post .saltNeeded (columnCode q.column) 0).port y).subs[k]) ∧
        (s.mode = .setup ∨ s.soft.regen ≠ none ∨ s.latched = true ∨ s.soft.saltWait = true ∨ t.soft.queue = [] →
          t.soft.saltWait = s.soft.saltWait ∧ ∀ (y : Port) (k : SubId), (t.port y).subs[k] = (v.port y).subs[k]) :=
    fun t ht u v hu hv => by
      rw [hreported u v hu hv]
      exact ⟨ht.begins, ht.stays⟩
  have hends : ∀ o, ∃ t, (y.finishFill i o true).settle = t ∧ t.water = { s.water with tank := min 255 (s.water.tank + 1) } ∧ ToldOut s t i c ∧
      s.fillEnded t i sl x o ∧ s.keepsEntriesBut t [.selector, .inlet] ∧ s.keepsBut t [.arb, .pool, .water, .soft, .acct, .ports, .drive] := fun o => by
    have hover := k.ends h o
    obtain ⟨t, ht⟩ : ∃ t, t = y.finishFill i o true := ⟨_, rfl⟩
    rw [← ht] at hover
    have hframe := hover.ended.frame
    refine ⟨t, by rw [← ht]; exact (hover.ended.moved.atRest hrest hframe).settle, by rw [hframe.water, k.counted.water], htold t hframe.soft hover.ended.subs,
      k.counted.ended hover.ended (by rw [hxc]; omega) k.lease ⟨hil, hih⟩ (fun _ => hsl) (k.txq _), fun q hq => ?_,
      (State.keepsBut_mono k.counted.frame (by decide)).step hframe (by decide)⟩
    simp only [List.mem_cons, List.not_mem_nil, or_false, not_or] at hq
    rw [hover.entry, if_neg hq.1, if_neg hq.2, hent]
  by_cases hdone : w.counted + 1 = w.requested
  · obtain ⟨t, ht, hwater, hto, hend, hentries, hframe⟩ := hends .done
    rw [if_pos hdone, ht] at h1 h2
    refine ⟨t, h1, h2, hwater, hto.column, hto.other, hto.regen, hto.queue, hfinal t hto, fun o hcase => ?_, fun hn => absurd hdone hn⟩
    rcases hcase with ⟨-, rfl⟩ | ⟨hn, -⟩
    · exact ⟨hend, hentries, hframe⟩
    · exact absurd hdone hn
  · by_cases hlim : s.cfg.tankLimit ≤ min 255 (s.water.tank + 1)
    · obtain ⟨t, ht, hwater, hto, hend, hentries, hframe⟩ := hends .limit
      rw [if_neg hdone, if_pos hlim, ht] at h1 h2
      refine ⟨t, h1, h2, hwater, hto.column, hto.other, hto.regen, hto.queue, hfinal t hto, fun o hcase => ?_,
        fun _ hlt => absurd hlim (Nat.not_le.mpr hlt)⟩
      rcases hcase with ⟨hd, -⟩ | ⟨-, -, rfl⟩
      · exact absurd hd hdone
      · exact ⟨hend, hentries, hframe⟩
    · have g := k.goesOn h
      obtain ⟨t, ht⟩ : ∃ t, t = (y.fillStage5 i (washWho sl.port i) sl.age).yieldPath (washWho sl.port i) sl.age := ⟨_, rfl⟩
      rw [if_neg hdone, if_neg hlim, ← ht] at h1 h2
      rw [← ht] at g
      obtain ⟨hframe, hentries, hpool⟩ := g.leaves
      have hquiet : ∀ r, r = .selector ∨ r = .inlet → (t.entry r).waiters = [] ∧ (t.entry r).yieldRequested = false := fun r hr' =>
        ⟨(g.quiet hr' k.unasked).1.trans (hrest.1 r).1, (g.quiet hr' k.unasked).2⟩
      have hcalm := k.calm.path hentries (hquiet .inlet (.inr rfl)) hframe
      have hrestt : t.atRest := ⟨fun q => by
        by_cases hq : q = .selector
        · rw [hq]
          exact hquiet .selector (.inl rfl)
        · exact hcalm.1 q hq, hcalm.2⟩
      have hto := htold t hframe.soft fun p => by rw [State.port_congr hframe.ports]
      rw [hrestt.settle] at h1 h2
      refine ⟨t, h1, h2, by rw [hframe.water, k.counted.water], hto.column, hto.other, hto.regen, hto.queue, hfinal t hto, fun o hcase => ?_,
        fun _ _ => ⟨fun hst => ?_, fun hst hb => ?_, fun hst hb => ?_, fun j hj => (hpool j hj).trans (k.counted.pool j hj), fun q hq => ?_,
          (State.keepsBut_mono k.counted.frame (by decide)).step hframe (by decide)⟩⟩
      · rcases hcase with ⟨hd, -⟩ | ⟨-, hd, -⟩
        · exact absurd hd hdone
        · exact absurd hd hlim
      · have hs := g.switches hst
        refine ⟨by rw [hs.frame.pool, k.counted.self], by rw [hs.inlet]; rfl, by rw [hs.inlet]; rfl, by rw [hs.selector, hent], hs.held, hs.current, ?_⟩
        rw [hs.drive, k.counted.frame.drive]
      · rw [g.stays hst hb]
        exact ⟨k.counted.self, harb, k.counted.frame.drive⟩
      · have hs := g.waits hst hb
        exact ⟨hs.self, by rw [hs.entry, if_neg (by decide), if_pos rfl]; rfl, by rw [hs.entry, if_pos rfl]; rfl⟩
      · rw [hentries q hq, hent]

end Sys2Proof.Machine

/-! The decilitre that exhausts a column whose regeneration can begin: the head is taken, and a FILL that lets SELECTOR go passes it on
(R58 to R65). -/

namespace Sys2Proof.Machine

/-! ### SELECTOR passed to the regeneration -/

/-- Nobody is asked to yield for waiters of the NORMAL ring (R18). -/
theorem yieldCondition_normal {g : Settings} {clock : Nat} {e : Entry} (h : ∀ w ∈ e.waiters, ringOf g w.who.ident = .normal) :
    yieldCondition g clock e = false := by
  rw [Bool.eq_false_iff, ne_eq, yieldCondition_iff]
  rintro ⟨-, holder, -, -, ⟨w, hw, hring, -⟩, -⟩
  rw [h w hw] at hring
  cases hring

theorem State.subs_post_clock {s t : State} (h : ∀ p, (t.port p).subs = (s.port p).subs) (hc : t.drive.clock = s.drive.clock) (e : Event)
    (x v : Nat) (p : Port) : ((t.post e x v).port p).subs = ((s.post e x v).port p).subs := by
  rw [State.port_post, State.port_post, hc]
  exact PortState.subs_place_congr (h p) _

/-- The waiter of a regeneration from a REGEN entry (R63). -/
def regenWaiter (c : Column) : Waiter := ⟨⟨.regen, none⟩, 0, some c, false⟩

/-- A regeneration in STARTING waits alone for a FREE SELECTOR that stands at its column. -/
structure State.offers (b : State) (g : Regen) : Prop where
  regen : b.soft.regen = some g
  phase : g.phase = .starting
  requester : g.requester = none
  waiters : (b.entry .selector).waiters = [regenWaiter g.column]
  lease : (b.entry .selector).lease = .free
  unasked : (b.entry .selector).yieldRequested = false
  calm : b.calmBut .selector
  current : b.arb.selCurrent = some g.column
  fills : b.fillsWait g.column
  idle : (b.column g.column).state ≠ .inService

/-- The regeneration has SELECTOR and has started. -/
structure RegenPassed (b : State) (g : Regen) (t : State) : Prop where
  regen : ∃ g', t.soft.regen = some g' ∧ g'.column = g.column ∧ g'.requester = none ∧ g'.phase = .brineDraw
  queue : t.soft.queue = b.soft.queue
  column : t.column g.column = { b.column g.column with state := .regenerating, remaining := 0, breakthrough := none }
  other : t.column (Column.other g.column) = b.column (Column.other g.column)
  ports : t.ports = (b.post .regenStarted (columnCode g.column) 3).ports
  selector : t.entry .selector = { b.cfg.grantRecord b.drive.clock ⟨.regen, none⟩ none .held (b.entry .selector) with waiters := [] }
  held : t.arb.selHeld = g.column
  current : t.arb.selCurrent = some g.column
  entries : b.keepsEntriesBut t [.selector, .brine, .inlet]
  frame : b.keepsBut t [.arb, .soft, .ports, .drive]

theorem State.offers.starts {b : State} {g : Regen} (h : b.offers g) : RegenPassed b g b.settle := by
  have hwho : regenWho g = ⟨.regen, none⟩ := by
    unfold regenWho
    rw [h.requester]
  obtain ⟨y, hy⟩ : ∃ y, y = b.putEntry .selector { b.entry .selector with waiters := [] } := ⟨_, rfl⟩
  have ky : b.keepsBut y [.arb] := hy ▸ b.keepsBut_putEntry _ _
  have hyentry : ∀ q, y.entry q = if q = .selector then { b.entry .selector with waiters := [] } else b.entry q := fun q => by
    rw [hy, State.entry_putEntry]
  have hysel : y.entry .selector = { b.entry .selector with waiters := [] } := by rw [hyentry, if_pos rfl]
  have hyother : ∀ q, q ≠ .selector → y.entry q = b.entry q := fun q hq => by rw [hyentry, if_neg hq]
  have hyrest : y.atRest := by
    refine ⟨fun q => ?_, ?_⟩
    · by_cases hq : q = .selector
      · rw [hq, hysel]
        exact ⟨rfl, h.unasked⟩
      · rw [hyother q hq]
        exact h.calm.1 q hq
    · rw [ky.water, h.calm.2, interlockMet_of (by rw [hyother .circ (by decide)]) (by rw [ky.sense]) (by rw [ky.door]) (by rw [ky.water])]
  have hyarb : y.arb.selHeld = b.arb.selHeld ∧ y.arb.selCurrent = b.arb.selCurrent := by
    rw [hy]
    exact ⟨rfl, rfl⟩
  have hask : y.ask .selector (regenWho g) 0 (some g.column) = b := by
    have hentry : ({ b.entry .selector with waiters := [regenWaiter g.column] } : Entry) = b.entry .selector := by
      rw [← h.waiters]
    have hedited := edited_ask (e := y.entry .selector) (by rw [hysel]; exact h.lease) (by rw [hysel]) (by rw [hysel]; exact h.unasked) y.cfg
      y.drive.clock ⟨regenWho g, 0, some g.column, false⟩
    rw [State.ask_eq, State.edited, hedited, hysel, hwho, hy, State.putEntry_putEntry]
    exact (congrArg (b.putEntry .selector) hentry).trans (State.putEntry_entry b .selector)
  have hcur : y.arb.selCurrent = some g.column := by rw [hyarb.2, h.current]
  have hcol : ∀ d, y.column d = b.column d := State.column_congr ky.soft
  obtain ⟨z, hz, hheld, -⟩ := settle_regenAsks hyrest (by rw [ky.soft]; exact h.regen) h.phase (by rw [hysel]; exact h.lease)
    (h.fills.congr ky.pool ky.cfg hcol) 0
  obtain ⟨hzcur, hzdrive, hsettle⟩ := hheld hcur
  rw [if_pos hcur] at hz
  rw [hask] at hsettle
  have hd : Draws z g.begun ((z.ask .brine (regenWho g) (z.regenSerial g.begun) none).settleFor 127) :=
    Draws.settleFor hz.rest rfl 127 ((Draws.of_rest hz.rest hz.regen).ask (.inl rfl) _ _)
  rw [← hsettle] at hd
  obtain ⟨n, st, hsoft⟩ := hd.soft
  have hcolt : ∀ d, b.settle.column d = z.column d := fun d => by simp only [State.column, hsoft]
  have hcomes : y.standbyComes g.column = false := by simp [State.standbyComes, hcol, h.idle]
  refine ⟨⟨{ g.begun with brineStarted := st, noFlow := n }, by rw [hsoft], rfl, h.requester, rfl⟩, by rw [hsoft, hz.queue, ky.soft], by rw [hcolt, hz.column, hcol], ?_, ?_, ?_,
    by rw [hd.held, hz.held], by rw [hd.current, hzcur], fun q hq => ?_, ?_⟩
  · rw [hcolt, hz.other, hcol, hcomes, if_neg (by decide)]
  · have hcode : regenRequesterCode g = 3 := by
      unfold regenRequesterCode
      rw [h.requester]
    rw [hd.frame.ports, hz.ports, State.startReported, hcomes, if_neg (by decide), hcode]
    exact State.ports_post_congr ky.ports ky.drive _ _ _
  · rw [hd.entries _ (by decide), hz.selector, hysel, hwho, ky.cfg, ky.drive]
    rfl
  · simp only [List.mem_cons, List.not_mem_nil, or_false, not_or] at hq
    rw [hd.entries q (by simp [hq]), hz.entries q (by simp [hq]), hyother q hq.1]
  · exact ((State.keepsBut_mono ky (by decide)).step hz.frame (by decide)).step hd.frame (by decide)

/-! ### The head taken by the charge -/

/-- The one entry of the queue, of a column that was just exhausted. -/
def State.outEntry (s : State) (c : Column) : QueueEntry := ⟨c, none, s.drive.clock⟩

/-- The queue can be judged for a head: a part in RUN with nothing queued, nothing regenerated and the salt not out (R62). -/
structure State.canRegenerate (s : State) : Prop where
  mode : s.mode = .run
  queue : s.soft.queue = []
  regen : s.soft.regen = none
  latched : s.latched = false
  auto : s.cfg.autoRegen = true
  ring : s.cfg.regenUrgent = false
  salt : ¬(s.acct.salt.known = true ∧ s.acct.salt.amount = 0)

section Taken

variable {s : State} {i : SlotId} {sl : Slot} {w x : FillWork} {c : Column}

theorem takeHead_out (h : s.canRegenerate) (value : Nat) : (s.columnOut c value).takeHead =
    ((s.columnOut c value).headTaken (s.outEntry c) []).ask .selector ⟨.regen, none⟩ 0 (some c) := by
  have hout := columnOut_out s c value
  have hqueue : (s.columnOut c value).soft.queue = [s.outEntry c] := by
    rw [hout.queue, State.queueOut, h.queue, if_pos ⟨h.auto, fun q hq => (by cases hq), by rw [State.regenOf, h.regen]⟩]
    rfl
  have hmode : (s.columnOut c value).mode = s.mode := hout.frame .mode (by decide)
  have hlatched : (s.columnOut c value).latched = s.latched := by simp only [State.latched, hout.frame.prot]
  have hready : (s.columnOut c value).headReady = true := by
    simp [State.headReady, hmode, h.mode, hout.regen, h.regen, hqueue, hlatched, h.latched]
  exact takeHead_takes hqueue hready (by
    rw [State.saltOut, hout.frame.acct]
    simpa using h.salt)

/-- The part after a charge that takes the head of the queue: the regeneration waits for SELECTOR. -/
structure TakenOut (s : State) (i : SlotId) (c : Column) (y : State) : Prop where
  selector : y.entry .selector = { s.entry .selector with waiters := [regenWaiter c] }
  entries : y.keepsEntriesBut s [.selector]
  regen : y.soft.regen = some (freshRegen (s.outEntry c))
  queue : y.soft.queue = []
  ports : y.ports = (s.outReported c (s.outValue i)).ports

theorem OutPoured.of_taken (h : s.exhausts i sl w c) (hr : s.canRegenerate) :
    OutPoured s i sl x c (s.outPoured i sl x c) ∧ TakenOut s i c (s.outPoured i sl x c) := by
  have hout := columnOut_out s c (s.outValue i)
  obtain ⟨b, hb⟩ : ∃ b, b = (s.columnOut c (s.outValue i)).headTaken (s.outEntry c) [] := ⟨_, rfl⟩
  obtain ⟨z, hz⟩ : ∃ z, z = b.ask .selector ⟨.regen, none⟩ 0 (some c) := ⟨_, rfl⟩
  have hy : s.outPoured i sl x c = z.poured i sl x := by rw [State.outPoured, takeHead_out hr, ← hb, ← hz]
  have kb : s.keepsBut b [.soft, .ports] := hb ▸ hout.frame.step (State.keepsBut_headTaken _ _ _) (by decide)
  have kz : b.keepsBut z [.arb] := hz ▸ b.keepsBut_ask _ _ _ _
  have hbports : b.ports = (s.outReported c (s.outValue i)).ports := by
    rw [hb, (State.keepsBut_headTaken _ _ _).ports, hout.ports]
  have hbcol : ∀ d, b.column d = (s.columnOut c (s.outValue i)).column d := fun d => by rw [hb, State.column_headTaken]
  have hring : ringOf s.cfg .regen = .normal := by
    simp [ringOf, hr.ring]
  have hnormal : ∀ (clock : Nat) (e : Entry), e.waiters = [regenWaiter c] → yieldCondition s.cfg clock e = false := fun clock e he =>
    yieldCondition_normal fun v hv => by
      rw [he, List.mem_singleton] at hv
      rw [hv]
      exact hring
  have hzentry : ∀ q, z.entry q = if q = .selector then { s.entry .selector with waiters := [regenWaiter c] } else s.entry q := fun q => by
    have hwait : ({ s.entry .selector with waiters := (s.entry .selector).waiters ++ [regenWaiter c] } : Entry) =
        { s.entry .selector with waiters := [regenWaiter c] } := by rw [(h.rest.1 .selector).1, List.nil_append]
    have hedit : b.edited .selector (fun e => { e with waiters := e.waiters ++ [⟨⟨.regen, none⟩, 0, some c, false⟩] }) =
        { s.entry .selector with waiters := [regenWaiter c] } := by
      unfold State.edited
      rw [kb.entry, kb.cfg]
      refine (congrArg (fun e : Entry => { e with yieldRequested := yieldCondition s.cfg b.drive.clock e }) hwait).trans ?_
      rw [hnormal _ _ rfl, ← (h.rest.1 .selector).2]
    rw [hz, entry_ask, hedit, kb.entry]
  have hcounted := counted_poured ((State.keepsBut_mono kb (by decide)).step kz (by decide) : s.keepsBut z [.soft, .ports, .arb]) i sl x
  rw [hy]
  obtain ⟨y, hyeq⟩ : ∃ y, y = z.poured i sl x := ⟨_, rfl⟩
  have hysoft : y.soft = b.soft := by
    rw [hyeq]
    exact kz.soft
  have hyports : y.ports = b.ports := by
    rw [hyeq]
    exact kz.ports
  have hyarb : y.arb = z.arb := by rw [hyeq]; rfl
  have hyentry : ∀ q, y.entry q = if q = .selector then { s.entry .selector with waiters := [regenWaiter c] } else s.entry q := fun q =>
    (State.entry_congr (congrArg Arbiter.table hyarb) q).trans (hzentry q)
  rw [← hyeq] at hcounted ⊢
  have hysel : y.entry .selector = { s.entry .selector with waiters := [regenWaiter c] } := by rw [hyentry, if_pos rfl]
  have hyother : ∀ q, q ≠ .selector → y.entry q = s.entry q := fun q hq => by rw [hyentry, if_neg hq]
  have hposition : y.arb.selHeld = s.arb.selHeld ∧ y.arb.selCurrent = s.arb.selCurrent := by
    rw [hyarb, hz, State.ask_eq, ← kb.arb]
    exact ⟨rfl, rfl⟩
  refine ⟨⟨hcounted, ?_, ?_, fun r => ?_, fun r => ?_, fun r => ?_, ?_, by rw [hposition.1]; exact h.held, by rw [hposition.2]; exact h.current,
    hcounted.calmBut (h.rest.calmBut _) hyother, fun p => ?_⟩, ⟨hysel, fun q hq => ?_, ?_, ?_, hyports.trans hbports⟩⟩
  · rw [State.column_congr hysoft, hbcol, hout.column]
  · rw [State.column_congr hysoft, hbcol, hout.other]
  · rw [hyentry]
    split
    next e => exact e ▸ ⟨rfl, rfl⟩
    next => exact ⟨rfl, rfl⟩
  · by_cases hq : r = .selector
    · rw [hq, State.waitsFor, hysel]
      rfl
    · exact State.waitsFor_noWaiters (by rw [hyother r hq]; exact (h.rest.1 r).1) _
  · by_cases hq : r = .selector
    · rw [hq, hysel]
      exact (h.rest.1 .selector).2
    · rw [hyother r hq]
      exact (h.rest.1 r).2
  · rw [hcounted.frame.cfg]
    exact hnormal _ _ (by rw [hysel])
  · rw [State.port_congr (hyports.trans hbports), ← State.port_congr hout.ports, hout.txq]
  · rw [hyother q (by simpa using hq)]
  · rw [hysoft, hb]
    rfl
  · rw [hysoft, hb]
    rfl

end Taken

end Sys2Proof.Machine

/-! The decilitre that exhausts a column whose regeneration can begin: the clause (R36, R55 to R65). -/

namespace Sys2Proof.Machine

section Passed

variable {s y t : State} {i : SlotId} {sl : Slot} {w x : FillWork} {c : Column}

/-- A FILL has let SELECTOR and INLET go, and nothing else that the regeneration waits for. -/
structure LetGoTo (y t : State) : Prop where
  entry : ∀ q, t.entry q = if q = .selector then y.letFree .selector else if q = .inlet then y.letFree .inlet else y.entry q
  position : t.arb.selHeld = y.arb.selHeld ∧ t.arb.selCurrent = y.arb.selCurrent
  clock : t.drive.clock = y.drive.clock
  subs : ∀ p, (t.port p).subs = (y.port p).subs
  frame : y.keepsBut t [.pool, .arb, .drive, .acct, .ports]

theorem PathOver.letGo {o : OutcomeCode} (h : PathOver y i sl x o t) : LetGoTo y t :=
  ⟨h.entry, h.position, h.clock, h.ended.subs, State.keepsBut_mono h.ended.frame (by decide)⟩

theorem WaitsSoft.letGo (h : WaitsSoft y i sl x t) : LetGoTo y t :=
  ⟨h.entry, h.position, h.clock, fun p => by rw [State.port_congr h.frame.ports], State.keepsBut_mono h.frame (by decide)⟩

theorem LetGoTo.calm (h : LetGoTo y t) (hc : y.calmBut .selector) : t.calmBut .selector := by
  refine hc.path (fun q hq => ?_) ?_ h.frame
  · simp only [List.mem_cons, List.not_mem_nil, or_false, not_or] at hq
    rw [h.entry, if_neg hq.1, if_neg hq.2]
  · rw [h.entry, if_neg (by decide), if_pos rfl]
    exact ⟨(hc.1 .inlet (by decide)).1, rfl⟩

/-- The regeneration that waits for SELECTOR is offered it. -/
theorem LetGoTo.offers (h : LetGoTo y t) (k : OutPoured s i sl x c y) (ht : TakenOut s i c y) (hfill : t.fillsWait c) :
    t.offers (freshRegen (s.outEntry c)) := by
  have hsel : t.entry .selector = y.letFree .selector := by rw [h.entry, if_pos rfl]
  refine ⟨by rw [h.frame.soft, ht.regen], rfl, rfl, ?_, by rw [hsel]; rfl, by rw [hsel]; rfl, h.calm k.calm, by rw [h.position.2, k.current]; rfl,
    hfill, ?_⟩
  · rw [hsel, State.letFree, ht.selector]
    rfl
  · have hcol : (t.column c).state = .exhausted := by rw [State.column_congr h.frame.soft, k.column]
    rw [show (freshRegen (s.outEntry c)).column = c from rfl, hcol]
    decide

/-- What the regeneration has when SELECTOR is passed to it. -/
structure PassedToRegen (s t0 t : State) (i : SlotId) (c : Column) : Prop where
  selector : s.cfg.passedOn s.drive.clock (s.entry .selector) (t.entry .selector) [regenWaiter c] (regenWaiter c) none .held
    ((s.entry .selector).holder.map fun h => (h.ident, s.drive.clock))
  held : t.arb.selHeld = c
  current : t.arb.selCurrent = some c
  regen : ∃ g, t.soft.regen = some g ∧ g.column = c ∧ g.requester = none ∧ g.phase = .brineDraw
  queue : t.soft.queue = []
  column : t.column c = { s.column c with state := .regenerating, remaining := 0, breakthrough := none }
  other : t.column (Column.other c) = t0.column (Column.other c)
  ports : t.ports = (t0.post .regenStarted (columnCode c) 3).ports
  subs : ∀ (p : Port) (k : SubId), (t.port p).subs[k] =
    (((s.outReported c (s.outValue i)).post .regenStarted (columnCode c) 3).port p).subs[k]
  entries : s.keepsEntriesBut t [.selector, .brine, .inlet]
  frame : t0.keepsBut t [.arb, .soft, .ports, .drive]

theorem LetGoTo.passed {t0 : State} (h : LetGoTo y t0) (hx : s.exhausts i sl w c) (k : OutPoured s i sl x c y) (ht : TakenOut s i c y)
    (hfill : t0.fillsWait c) : PassedToRegen s t0 t0.settle i c := by
  have hs := (h.offers k ht hfill).starts
  obtain ⟨t, hteq⟩ : ∃ t, t = t0.settle := ⟨_, rfl⟩
  rw [← hteq] at hs ⊢
  have hsel : t0.entry .selector = y.letFree .selector := by rw [h.entry, if_pos rfl]
  have hycfg : y.cfg = s.cfg := k.counted.frame.cfg
  have hydrive : y.drive = s.drive := k.counted.frame.drive
  have hclock : t0.drive.clock = s.drive.clock := by rw [h.clock, hydrive]
  have hlast : (t0.entry .selector).lastRelease = (s.entry .selector).holder.map fun h => (h.ident, s.drive.clock) := by
    rw [hsel]
    show releaseRecord y.drive.clock (y.entry .selector) = _
    rw [ht.selector, hydrive]
    unfold releaseRecord
    rw [hx.owns.selector.2]
    rfl
  have hentry : t.entry .selector = { s.cfg.grantRecord s.drive.clock ⟨.regen, none⟩ none .held (s.entry .selector) with
      waiters := [], lastRelease := (s.entry .selector).holder.map fun h => (h.ident, s.drive.clock), yieldRequested := false } := by
    rw [hs.selector, h.frame.cfg, hycfg, hclock, ← hlast, hsel, State.letFree, ht.selector]
    rfl
  refine ⟨⟨?_, ?_⟩, hs.held, hs.current, hs.regen, by rw [hs.queue, h.frame.soft, ht.queue], ?_, hs.other, hs.ports, fun p j => ?_, fun q hq => ?_,
    hs.frame⟩
  · rw [hentry]
    rfl
  · rw [hentry]
    refine ⟨fun e => (by cases e), fun e => ?_⟩
    obtain ⟨-, _, -, -, ⟨v, hv, -⟩, -⟩ := e
    cases hv
  · rw [show t.column c = _ from hs.column, show (freshRegen (s.outEntry c)).column = c from rfl, State.column_congr h.frame.soft, k.column]
  · have hsubs := State.subs_post_clock (s := s.outReported c (s.outValue i)) (t := t0)
      (fun q => (h.subs q).trans (by rw [State.port_congr ht.ports]))
      (by rw [hclock, (s.keepsBut_outReported _ _).drive]) .regenStarted (columnCode c) 3 p
    rw [State.port_congr hs.ports]
    exact congrArg (fun v => v[j]) hsubs
  · have hq' := hq
    simp only [List.mem_cons, List.not_mem_nil, or_false, not_or] at hq'
    rw [hs.entries q hq, h.entry, if_neg hq'.1, if_neg hq'.2.2]
    exact (ht.entries q (by simpa using hq'.1)).symm

end Passed

end Sys2Proof.Machine

/-! The decilitre that exhausts a column whose regeneration can begin: a FILL that goes on, one that ends and one that waits (R36, R58 to R65). -/

namespace Sys2Proof.Machine

section HeadTaken

variable {s y : State} {i : SlotId} {sl : Slot} {w x : FillWork} {c : Column}

/-- A FILL that has ended with the decilitre has passed SELECTOR to the regeneration. -/
theorem PathOver.passed {o : OutcomeCode} {t : State} (hover : PathOver y i sl x o t) (h : s.exhausts i sl w c) (k : OutPoured s i sl x c y)
    (ht : TakenOut s i c y) : PassedToRegen s t t.settle i c := by
  refine hover.letGo.passed h k ht (.of_none (fun j => ?_) c)
  by_cases hj : j = i
  · unfold State.fillAt
    rw [hj, hover.ended.self]
  · exact (fillAt_congr ((hover.ended.pool j hj).trans (k.counted.pool j hj))).trans (h.alone j hj)

/-- A FILL that waits for soft water has passed SELECTOR to the regeneration. -/
theorem WaitsSoft.passed {t : State} (hwait : WaitsSoft y i sl x t) (h : s.exhausts i sl w c) (k : OutPoured s i sl x c y) (ht : TakenOut s i c y)
    (hst : (s.column (Column.other c)).state ≠ .standby) (hb : s.cfg.exhaustBypass = false) : PassedToRegen s t t.settle i c := by
  refine hwait.letGo.passed h k ht fun j sl' w' hf => ?_
  have hother : (t.column (Column.other c)).state = (s.column (Column.other c)).state := by
    rw [State.column_congr hwait.frame.soft, k.other, if_neg hst]
  rw [hother, hwait.frame.cfg, k.counted.frame.cfg]
  refine ⟨?_, hb, h.other, hst⟩
  by_cases hj : j = i
  · rw [hj, fillAt_eq hwait.self rfl h.flows.outcome] at hf
    cases hf
    rfl
  · rw [fillAt_congr ((hwait.pool j hj).trans (k.counted.pool j hj)), h.alone j hj] at hf
    cases hf

/-- A FILL that goes on leaves the regeneration to wait for SELECTOR. -/
theorem GoesOn.keepsWaiting {t : State} (g : GoesOn s i sl x c y t) (k : OutPoured s i sl x c y)
    (hon : (s.column (Column.other c)).state = .standby ∨ s.cfg.exhaustBypass = true) (h : s.exhausts i sl w c) : t.settle = t := by
  obtain ⟨hframe, hentries, -⟩ := g.leaves
  have hquiet : (t.entry .inlet).waiters = [] ∧ (t.entry .inlet).yieldRequested = false :=
    ⟨(g.quiet (.inr rfl) k.unasked).1.trans (k.calm.1 .inlet (by decide)).1, (g.quiet (.inr rfl) k.unasked).2⟩
  have hcalm := k.calm.path hentries hquiet hframe
  refine hcalm.settle_selector ?_ 128
  by_cases hst : (s.column (Column.other c)).state = .standby
  · rw [(g.switches hst).selector]
    exact fun e => by cases e
  · rw [g.stays hst (hon.resolve_left hst), (k.lease _).1, h.owns.selector.1]
    decide

end HeadTaken

theorem fillExhaustsHeadTaken : Clauses.FillExhaustsHeadTaken := by
  intro s i sl w c hp hw ho hil hih hsl hsh hr hheld hcur hpulse hserves hother hmark hout hidle honly halone hmode hqueue hregen hlatched hauto
    hring hsalt _ _ x v u hx hv hu
  have h : s.exhausts i sl w c := ⟨⟨hp, hw, ho, hil, hih⟩, ⟨⟨hil, hih⟩, ⟨hsl, hsh⟩⟩, hr, hheld, hcur, hserves, hother, hmark, hout, hidle, honly, halone⟩
  have hcan : s.canRegenerate := ⟨hmode, hqueue, hregen, hlatched, hauto, hring, hsalt⟩
  have hxw : w.counted' (.soft c) s.acct.hardness = x := hx ▸ w.counted'_soft _ _
  obtain ⟨hxc, -⟩ := counted'_requested w (.soft c) s.acct.hardness
  rw [hxw] at hxc
  have hreported : u = s.outReported c (s.outValue i) := by rw [hu, State.outReported, State.outValue, hheld]
  obtain ⟨k, htaken⟩ := OutPoured.of_taken (x := x) h hcan
  obtain ⟨h1, h2⟩ := exec_decilitre h.flows hpulse
  rw [h.decilitre hxw] at h1 h2
  obtain ⟨y, hy⟩ : ∃ y, y = s.outPoured i sl x c := ⟨_, rfl⟩
  rw [← hy] at k htaken h1 h2
  subst hv
  have hlast : ((s.entry .selector).holder.map fun h => (h.ident, s.drive.clock)) = some (.port sl.port, s.drive.clock) := by
    rw [hsh]
    rfl
  have hyent : ∀ r, r ≠ .selector → y.entry r = s.entry r := fun r hq => (htaken.entries r (by simpa using hq)).symm
  have hfinish : ∀ r : OutcomeCode, ∃ t g, (y.finishFill i r true).settle = t ∧ t.water = { s.water with tank := min 255 (s.water.tank + 1) } ∧
      PassedToRegen s (y.finishFill i r true) t i c ∧ t.soft.regen = some g ∧ g.column = c ∧ g.requester = none ∧ g.phase = .brineDraw ∧
      t.column (Column.other c) = y.column (Column.other c) ∧ s.fillEnded (y.finishFill i r true) i sl x r ∧
      s.keepsBut t [.arb, .pool, .water, .soft, .acct, .ports, .drive] := fun r => by
    have hover := k.ends h r
    have hpassed := hover.passed h k htaken
    obtain ⟨g, hg, hgc, hgr, hgp⟩ := hpassed.regen
    exact ⟨_, g, rfl, by rw [hpassed.frame.water, hover.ended.frame.water, k.counted.water], hpassed, hg, hgc, hgr, hgp,
      hpassed.other.trans (State.column_congr hover.ended.frame.soft _), k.counted.ended hover.ended (by rw [hxc]; omega) k.lease ⟨hil, hih⟩
        (fun _ => hsl) (k.txq _),
      ((State.keepsBut_mono k.counted.frame (by decide)).step hover.ended.frame (by decide)).step hpassed.frame (by decide)⟩
  have hanswered : ∀ (t0 t : State) (r : OutcomeCode), s.fillEnded t0 i sl x r → PassedToRegen s t0 t i c → t.pool[i] = none ∧
      t.acct.log.getLast? = some ⟨s.acct.nextDraw, .wash, x.softA, x.softB, x.bypass, x.lastHardness, r, s.drive.clock⟩ ∧
      s.responds t sl.port [opResponse sl.tag r (byte1 x.counted ++ byte1 x.softA ++ byte1 x.softB ++ byte1 x.bypass)] :=
    fun t0 t r ⟨hself, _, _, hlog, hresponds, _⟩ hpassed => by
      refine ⟨by rw [hpassed.frame.pool]; exact hself, by rw [hpassed.frame.acct]; exact hlog, ?_⟩
      unfold State.responds at hresponds ⊢
      rw [State.port_congr hpassed.ports, State.txq_post]
      exact hresponds
  clear hu
  subst hreported
  by_cases hend : w.counted + 1 = w.requested ∨ s.cfg.tankLimit ≤ min 255 (s.water.tank + 1)
  · obtain ⟨r, hdl, hor⟩ : ∃ r : OutcomeCode, (if w.counted + 1 = w.requested then y.finishFill i .done true
        else if s.cfg.tankLimit ≤ min 255 (s.water.tank + 1) then y.finishFill i .limit true
        else (y.fillStage5 i (washWho sl.port i) sl.age).yieldPath (washWho sl.port i) sl.age) = y.finishFill i r true ∧
        ∀ o : Option OutcomeCode, (w.counted + 1 = w.requested ∧ o = some .done) ∨
          (w.counted + 1 ≠ w.requested ∧ s.cfg.tankLimit ≤ min 255 (s.water.tank + 1) ∧ o = some .limit) ∨
          (w.counted + 1 ≠ w.requested ∧ min 255 (s.water.tank + 1) < s.cfg.tankLimit ∧
            (s.column (Column.other c)).state ≠ .standby ∧ s.cfg.exhaustBypass = false ∧ o = none) → o = some r := by
      by_cases hdone : w.counted + 1 = w.requested
      · refine ⟨.done, if_pos hdone, fun o hcase => ?_⟩
        rcases hcase with ⟨-, e⟩ | ⟨hn, -⟩ | ⟨hn, -⟩
        · exact e
        · exact absurd hdone hn
        · exact absurd hdone hn
      · have hlim := hend.resolve_left hdone
        refine ⟨.limit, (if_neg hdone).trans (if_pos hlim), fun o hcase => ?_⟩
        rcases hcase with ⟨hd, -⟩ | ⟨-, -, e⟩ | ⟨-, hlt, -⟩
        · exact absurd hd hdone
        · exact e
        · exact absurd hlim (Nat.not_le.mpr hlt)
    obtain ⟨t, g, ht, hwater, hpassed, hg, hgc, hgr, hgp, hto, hended, hframe⟩ := hfinish r
    rw [hdl, ht] at h1 h2
    refine ⟨t, g, h1, h2, hwater, hpassed.queue, hg, hgc, hgr, hto.trans k.other, fun j hj => ?_, fun hn hlt => ?_, fun o hcase => ?_⟩
    · rw [hpassed.frame.pool]
      exact hended.2.2.2.2.2 j hj
    · rcases hend with e | e
      · exact absurd e hn
      · exact absurd e (Nat.not_le.mpr hlt)
    · rw [hor o hcase]
      exact ⟨hlast ▸ hpassed.selector, hpassed.held, hpassed.current, hgp, hpassed.column, hpassed.subs, fun e => (by cases e),
        fun r' e => Option.some.inj e ▸ hanswered _ t r hended hpassed, hpassed.entries, hframe⟩
  · obtain ⟨hdone, hlim⟩ := not_or.mp hend
    have g := k.goesOn h
    obtain ⟨b, hb⟩ : ∃ b, b = (y.fillStage5 i (washWho sl.port i) sl.age).yieldPath (washWho sl.port i) sl.age := ⟨_, rfl⟩
    rw [if_neg hdone, if_neg hlim, ← hb] at h1 h2
    rw [← hb] at g
    obtain ⟨hframe, hentries, hpool⟩ := g.leaves
    have hsoft : b.soft = y.soft := hframe.soft
    have hbcol : ∀ d, b.column d = y.column d := State.column_congr hsoft
    by_cases hon : (s.column (Column.other c)).state = .standby ∨ s.cfg.exhaustBypass = true
    · rw [g.keepsWaiting k hon h] at h1 h2
      refine ⟨b, freshRegen (s.outEntry c), h1, h2, by rw [hframe.water, k.counted.water], by rw [hsoft, htaken.queue], by rw [hsoft, htaken.regen], rfl,
        rfl, by rw [hbcol, k.other], fun j hj => (hpool j hj).trans (k.counted.pool j hj), fun _ _ _ => ⟨?_, rfl, by rw [hbcol, k.column], fun p n => ?_,
          fun hst => ?_, fun hst => ?_, fun q hq => ?_, (State.keepsBut_mono k.counted.frame (by decide)).step hframe (by decide)⟩, fun o hcase => ?_⟩
      · by_cases hst : (s.column (Column.other c)).state = .standby
        · rw [(g.switches hst).frame.pool, k.counted.self]
        · rw [g.stays hst (hon.resolve_left hst), k.counted.self]
      · rw [State.port_congr (hframe.ports.trans htaken.ports)]
      · have hs := g.switches hst
        exact ⟨by rw [hs.inlet]; rfl, by rw [hs.selector, htaken.selector]; rfl, hs.held, hs.current, by rw [hs.drive, k.counted.frame.drive]⟩
      · rw [g.stays hst (hon.resolve_left hst)]
        exact ⟨hyent .inlet (by decide), htaken.selector, k.held, k.current, k.counted.frame.drive⟩
      · rw [hentries q hq, hyent q fun e => hq (by rw [e]; decide)]
      · rcases hcase with ⟨hd, -⟩ | ⟨-, hl, -⟩ | ⟨-, -, hst, hby, -⟩
        · exact absurd hd hdone
        · exact absurd hl hlim
        · rcases hon with e | e
          · exact absurd e hst
          · rw [hby] at e
            cases e
    · obtain ⟨hst, hby⟩ := not_or.mp hon
      have hby : s.cfg.exhaustBypass = false := Bool.eq_false_iff.mpr hby
      have hwaits := g.waits hst hby
      have hpassed := hwaits.passed h k htaken hst hby
      obtain ⟨t, ht⟩ : ∃ t, t = b.settle := ⟨_, rfl⟩
      rw [← ht] at hpassed h1 h2
      obtain ⟨g', hg, hgc, hgr, hgp⟩ := hpassed.regen
      refine ⟨t, g', h1, h2, by rw [hpassed.frame.water, hframe.water, k.counted.water], hpassed.queue, hg, hgc, hgr,
        by rw [hpassed.other, hbcol, k.other], fun j hj => ?_, fun _ _ e => absurd e hon, fun o hcase => ?_⟩
      · rw [hpassed.frame.pool]
        exact (hpool j hj).trans (k.counted.pool j hj)
      · have hnone : o = none := by
          rcases hcase with ⟨hd, -⟩ | ⟨-, hl, -⟩ | ⟨-, -, -, -, e⟩
          · exact absurd hd hdone
          · exact absurd hl hlim
          · exact e
        rw [hnone]
        exact ⟨hlast ▸ hpassed.selector, hpassed.held, hpassed.current, hgp, hpassed.column, hpassed.subs,
          fun _ => ⟨by rw [hpassed.frame.pool, hwaits.self], by rw [hpassed.frame.acct, hframe.acct, k.counted.frame.acct]⟩, fun r e => (by cases e),
          hpassed.entries, ((State.keepsBut_mono k.counted.frame (by decide)).step hframe (by decide)).step hpassed.frame (by decide)⟩

end Sys2Proof.Machine

/-! A FILL that yields SELECTOR at a decilitre to another that waits for it (R10, R16, R18, R19). Settles O28. -/

namespace Sys2Proof.Machine

/-- Where one resource alone can be granted, nobody yields and nothing is judged, `settle` grants it. -/
theorem settleFor_sole {s : State} {r : Resource} {w : Waiter} (n : Nat) (hj : s.judge = s) (hy : s.yieldNext = none)
    (hw : s.chosenWaiter r = some w) (ho : ∀ q, q ≠ r → s.chosenWaiter q = none) :
    s.settleFor (n + 1) = ((s.grantLease r w).ownerGranted r w.who).settleFor n := by
  have hg : s.grantable = [r] := by
    have hall : (fun q => (s.chosenWaiter q).isSome) = fun q => decide (q = r) := funext fun q => by
      by_cases hq : q = r
      · simp [hq, hw]
      · simp [hq, ho q hq]
    unfold State.grantable
    rw [hall]
    clear hw ho hall
    cases r with
    | dose k => fin_cases k <;> decide
    | _ => decide
  have hc : grantsConflict [r] = false := by
    clear hw ho hg
    cases r with
    | dose k => fin_cases k <;> decide
    | _ => decide
  have hnext : s.grantNext = some (s.grant r) := by
    unfold State.grantNext
    rw [hg]
    simp [hc]
  have hgrant : s.grant r = (s.grantLease r w).ownerGranted r w.who := by rw [State.grant, hw]
  conv => lhs; unfold State.settleFor
  simp [hj, hy, hnext, hgrant]

/-! ### INLET granted to a FILL while others wait for its SELECTOR -/

section Inlet

variable {m : State} {j : SlotId} {sl : Slot} {z : FillWork}

/-- A FILL that has SELECTOR HELD and can have INLET, where nobody waits but for SELECTOR. -/
structure State.meetsInlet (m : State) (j : SlotId) (sl : Slot) (z : FillWork) : Prop where
  slot : m.pool[j] = some sl
  work : sl.work = .fill z
  outcome : sl.outcome = none
  calm : m.calmBut .selector
  selector : (m.entry .selector).lease = .held ∧ (m.entry .selector).holder = some (washWho sl.port j)
  inlet : (m.entry .inlet).lease = .free
  drain : m.hasHolder .drain = false
  door : m.hasHolder .doorDrive = false
  closed : m.doorClosed = true
  latched : m.latched = false
  regen : m.soft.regen = none
  room : m.water.tank < m.cfg.tankLimit

/-- The FILL that has INLET granted. -/
structure InletGiven (m : State) (j : SlotId) (sl : Slot) (z : FillWork) (t : State) : Prop where
  slot : t.pool[j] = some { sl with work := .fill { z with noFlow := Timer.zero } }
  pool : ∀ k : SlotId, k ≠ j → t.pool[k] = m.pool[k]
  inlet : t.entry .inlet = m.cfg.grantRecord m.drive.clock (washWho sl.port j) (some sl.port) .held (m.entry .inlet)
  entries : m.keepsEntriesBut t [.inlet]
  position : t.arb.selHeld = m.arb.selHeld ∧ t.arb.selCurrent = m.arb.selCurrent
  frame : m.keepsBut t [.arb, .pool]

theorem State.meetsInlet.given (h : m.meetsInlet j sl z) (serial n : Nat) :
    InletGiven m j sl z ((m.ask .inlet (washWho sl.port j) serial none).settleFor (n + 1)) := by
  obtain ⟨hw, hy⟩ := h.calm.1 .inlet (by decide)
  have hentry : m.edited .inlet (fun e => { e with waiters := e.waiters ++ [⟨washWho sl.port j, serial, none, false⟩] }) =
      { m.entry .inlet with waiters := [⟨washWho sl.port j, serial, none, false⟩] } := edited_ask h.inlet hw hy _ _ _
  obtain ⟨a, ha⟩ : ∃ a, a = m.ask .inlet (washWho sl.port j) serial none := ⟨_, rfl⟩
  have haput : a = m.putEntry .inlet { m.entry .inlet with waiters := [⟨washWho sl.port j, serial, none, false⟩] } := by
    rw [ha, State.ask_eq, hentry]
  have ka : m.keepsBut a [.arb] := haput ▸ m.keepsBut_putEntry _ _
  have haentry : ∀ q, a.entry q = if q = .inlet then { m.entry .inlet with waiters := [⟨washWho sl.port j, serial, none, false⟩] }
      else m.entry q := fun q => by rw [haput, State.entry_putEntry]
  have hainlet : a.entry .inlet = { m.entry .inlet with waiters := [⟨washWho sl.port j, serial, none, false⟩] } := by rw [haentry, if_pos rfl]
  have haother : ∀ q, q ≠ .inlet → a.entry q = m.entry q := fun q hq => by rw [haentry, if_neg hq]
  have hjudge : a.judge = a := judge_same
    (by rw [ka.water, h.calm.2, interlockMet_of (by rw [haother .circ (by decide)]) (by rw [ka.sense]) (by rw [ka.door]) (by rw [ka.water])])
    (.inl (by rw [haother .doorDrive (by decide)]; exact (h.calm.1 _ (by decide)).1))
  have hyield : a.yieldNext = none := yieldNext_none (by rw [haother .heater (by decide)]; exact (h.calm.1 _ (by decide)).2)
    fun k => by rw [haother (.dose k) (fun e => by cases e)]; exact (h.calm.1 _ (fun e => by cases e)).2
  have hadmits : a.admits .inlet (washWho sl.port j) :=
    { free := by rw [hainlet]; exact h.inlet
      guarded := fun _ => ⟨by rw [State.doorClosed, ka.door]; exact h.closed, by rw [State.hasHolder, haother _ (by decide)]; exact h.door⟩
      trip := fun _ => by rw [State.latched, ka.prot]; exact h.latched
      inlet := fun _ => ⟨by rw [State.hasHolder, haother _ (by decide)]; exact h.drain,
        by rw [State.holdsHeld, haother _ (by decide), h.selector.1, h.selector.2]; simp⟩
      drain := fun e => (by cases e)
      door := fun e => (by cases e) }
  have hchosen : a.chosenWaiter .inlet = some ⟨washWho sl.port j, serial, none, false⟩ := by
    refine State.chosenWaiter_alone hadmits.free (by rw [hainlet]) (State.admits.eligibleBase hadmits fun v hv => ?_)
    rw [haother .doorDrive (by decide), (h.calm.1 .doorDrive (by decide)).1] at hv
    cases hv
  have hothers : ∀ q, q ≠ .inlet → a.chosenWaiter q = none := fun q hq => by
    by_cases hs : q = .selector
    · exact chosenWaiter_leased (by rw [hs, haother _ (by decide), h.selector.1]; decide)
    · exact chosenWaiter_noWaiters (by rw [haother q hq]; exact (h.calm.1 q hs).1)
  have hport : a.waiterPort (washWho sl.port j) = some sl.port := by
    show (a.pool[j]).map (fun x : Slot => x.port) = _
    rw [ka.pool, h.slot]
    rfl
  obtain ⟨b, hb⟩ : ∃ b, b = m.putEntry .inlet (m.cfg.grantRecord m.drive.clock (washWho sl.port j) (some sl.port) .held (m.entry .inlet)) :=
    ⟨_, rfl⟩
  have hgrant : a.grantLease .inlet ⟨washWho sl.port j, serial, none, false⟩ = b := by
    show a.editEntry .inlet (Entry.granted a.cfg a.drive.clock (a.waiterPort (washWho sl.port j)) ⟨washWho sl.port j, serial, none, false⟩ .held) = b
    rw [State.editEntry_quiet (.inr (by decide)), State.edited, hainlet, hport, ka.cfg, ka.drive, granted_alone hw hy, haput, State.putEntry_putEntry, hb]
  have kb : m.keepsBut b [.arb] := hb ▸ m.keepsBut_putEntry _ _
  have hbentry : ∀ q, b.entry q = if q = .inlet then m.cfg.grantRecord m.drive.clock (washWho sl.port j) (some sl.port) .held (m.entry .inlet)
      else m.entry q := fun q => by rw [hb, State.entry_putEntry]
  have hbslot : b.pool[j] = some sl := by rw [kb.pool, h.slot]
  have hgranted : b.ownerGranted .inlet (washWho sl.port j) = b.setSlot j (some { sl with work := .fill { z with noFlow := Timer.zero } }) := by
    unfold State.ownerGranted
    dsimp only
    rw [State.isRegen_false (by rw [kb.soft, h.regen]; exact fun g e => by cases e), if_neg (by decide)]
    show b.fillInletGranted j = _
    unfold State.fillInletGranted
    simp only [fillAt_eq hbslot h.work h.outcome]
    rw [kb.cfg, kb.water, if_neg (by have := h.room; omega), State.setWork_held hbslot]
  obtain ⟨t, ht⟩ : ∃ t, t = b.setSlot j (some { sl with work := .fill { z with noFlow := Timer.zero } }) := ⟨_, rfl⟩
  have kt : b.keepsBut t [.pool] := ht ▸ b.keepsBut_setSlot _ _
  have hcalm : t.calmBut .selector := by
    refine h.calm.path (fun q hq => ?_) ?_ ((State.keepsBut_mono kb (by decide)).step kt (by decide) : m.keepsBut t [.arb, .pool])
    · rw [kt.entry, hbentry, if_neg fun e : q = .inlet => hq (by rw [e]; decide)]
    · rw [kt.entry, hbentry, if_pos rfl]
      exact ⟨hw, hy⟩
  have hleased : (t.entry .selector).lease ≠ .free := by
    rw [kt.entry, hbentry, if_neg (by decide), h.selector.1]
    decide
  rw [← ha, settleFor_sole n hjudge hyield hchosen hothers, hgrant, hgranted, ← ht, hcalm.settle_selector hleased]
  refine ⟨?_, fun k hk => ?_, ?_, fun q hq => ?_, ?_, (State.keepsBut_mono kb (by decide)).step kt (by decide)⟩
  · rw [ht]
    exact State.pool_setSlot_self _ _ _
  · rw [ht, State.pool_setSlot_ne _ hk, kb.pool]
  · rw [kt.entry, hbentry, if_pos rfl]
  · rw [kt.entry, hbentry, if_neg (by simpa using hq)]
  · rw [kt.arb, hb]
    exact ⟨rfl, rfl⟩

end Inlet

end Sys2Proof.Machine

/-! A FILL yields SELECTOR at a decilitre (R19, R36). Settles O28. -/

namespace Sys2Proof.Machine

/-- A FILL that is asked to yield SELECTOR lets it go with INLET and asks for it again. -/
theorem yieldPath_yields {y : State} {who : Holder} (h : y.ownsPath who) (hy : (y.entry .selector).yieldRequested = true) (serial : Nat) :
    y.yieldPath who serial = y.pathLetGo.ask .selector who serial (some y.arb.selHeld) := by
  unfold State.yieldPath
  rw [if_pos (by rw [h.holds (.inr rfl), hy]; rfl)]
  dsimp only
  rw [h.releaseBoth.2]

section Yields

variable {y : State}

/-- The part in which a FILL has yielded SELECTOR and asked for it again. -/
structure Yielded (y : State) (who : Holder) (v : Waiter) (r : State) : Prop where
  selector : r.entry .selector = { y.letFree .selector with waiters := (y.entry .selector).waiters ++ [v] }
  inlet : r.entry .inlet = y.letFree .inlet
  entries : y.keepsEntriesBut r [.selector, .inlet]
  position : r.arb.selHeld = y.arb.selHeld ∧ r.arb.selCurrent = y.arb.selCurrent
  clock : r.drive.clock = y.drive.clock
  frame : y.keepsBut r [.arb, .drive]

theorem yielded {who : Holder} (h : y.ownsPath who) (hy : (y.entry .selector).yieldRequested = true) (serial : Nat) :
    Yielded y who ⟨who, serial, some y.arb.selHeld, false⟩ (y.yieldPath who serial) := by
  rw [yieldPath_yields h hy]
  have k := y.keepsBut_pathLetGo
  have hentry := y.entry_pathLetGo
  obtain ⟨h1, h2⟩ := y.position_pathLetGo
  have hclock := y.clock_pathLetGo
  obtain ⟨b, hb⟩ : ∃ b, b = y.pathLetGo := ⟨_, rfl⟩
  rw [← hb] at k hentry h1 h2 hclock ⊢
  have hedited : b.edited .selector (fun e => { e with waiters := e.waiters ++ [⟨who, serial, some y.arb.selHeld, false⟩] }) =
      { y.letFree .selector with waiters := (y.entry .selector).waiters ++ [⟨who, serial, some y.arb.selHeld, false⟩] } := by
    unfold State.edited
    rw [hentry, if_pos rfl, yieldCondition_let_go (.inl rfl)]
    rfl
  have hask := entry_ask b .selector who serial (some y.arb.selHeld)
  have ka := b.keepsBut_ask .selector who serial (some y.arb.selHeld)
  refine ⟨?_, ?_, fun q hq => ?_, ?_, by rw [ka.drive, hclock], k.step ka (by decide)⟩
  · rw [hask, if_pos rfl, hedited]
  · rw [hask, if_neg (by decide), hentry, if_neg (by decide), if_pos rfl]
  · simp only [List.mem_cons, List.not_mem_nil, or_false, not_or] at hq
    rw [hask, if_neg hq.1, hentry, if_neg hq.1, if_neg hq.2]
  · rw [State.ask_eq]
    exact ⟨h1, h2⟩

end Yields

section Chosen

variable {r : State} {v : Waiter} {j : SlotId} {sl : Slot} {z : FillWork} {c : Column}

/-- A FILL that waits for SELECTOR is chosen for it where it stands, and can have INLET after it. -/
structure State.givesPath (r : State) (v : Waiter) (j : SlotId) (sl : Slot) (z : FillWork) (c : Column) : Prop where
  who : v.who = washWho sl.port j
  want : v.want = some c
  slot : r.pool[j] = some sl
  work : sl.work = .fill z
  outcome : sl.outcome = none
  calm : r.calmBut .selector
  held : r.arb.selHeld = c
  current : r.arb.selCurrent = some c
  serves : r.inService = some c
  inlet : (r.entry .inlet).lease = .free
  drain : r.hasHolder .drain = false
  door : r.hasHolder .doorDrive = false
  closed : r.doorClosed = true
  latched : r.latched = false
  regen : r.soft.regen = none
  room : r.water.tank < r.cfg.tankLimit

/-- The FILL that has both. -/
structure PathGiven (r : State) (v : Waiter) (j : SlotId) (sl : Slot) (z : FillWork) (t : State) : Prop where
  slot : t.pool[j] = some { sl with work := .fill { z with noFlow := Timer.zero } }
  pool : ∀ k : SlotId, k ≠ j → t.pool[k] = r.pool[k]
  selector : t.entry .selector = { Entry.granted r.cfg r.drive.clock (some sl.port) v .held (r.entry .selector) with
    yieldRequested := yieldCondition r.cfg r.drive.clock (Entry.granted r.cfg r.drive.clock (some sl.port) v .held (r.entry .selector)) }
  inlet : t.entry .inlet = r.cfg.grantRecord r.drive.clock v.who (some sl.port) .held (r.entry .inlet)
  entries : r.keepsEntriesBut t [.selector, .inlet]
  position : t.arb.selHeld = r.arb.selHeld ∧ t.arb.selCurrent = r.arb.selCurrent
  frame : r.keepsBut t [.arb, .pool]

theorem State.givesPath.given (h : r.givesPath v j sl z c) (n : Nat) :
    PathGiven r v j sl z (((r.grantLease .selector v).ownerGranted .selector v.who).settleFor (n + 1)) := by
  have hport : r.waiterPort v.who = some sl.port := by
    rw [h.who]
    show (r.pool[j]).map (fun x : Slot => x.port) = _
    rw [h.slot]
    rfl
  obtain ⟨e, he⟩ : ∃ e, e = Entry.granted r.cfg r.drive.clock (some sl.port) v .held (r.entry .selector) := ⟨_, rfl⟩
  have helease : e.lease = .held ∧ e.holder = some (washWho sl.port j) := by
    rw [he, Entry.granted_eq, ← h.who]
    exact ⟨rfl, rfl⟩
  obtain ⟨a, ha⟩ : ∃ a, a = (r.heldAt c).putEntry .selector { e with yieldRequested := yieldCondition r.cfg r.drive.clock e } := ⟨_, rfl⟩
  have hgrant : r.grantLease .selector v = a := by
    have hlease : r.grantLease .selector v = (r.heldAt c).editEntry .selector (Entry.granted r.cfg r.drive.clock (r.waiterPort v.who) v .held) := by
      unfold State.grantLease
      dsimp only
      rw [h.want]
      exact if_pos h.current
    rw [hlease, State.editEntry_quiet (.inr (by decide)), hport, ha, he]
    rfl
  have ka : r.keepsBut a [.arb] := ha ▸ (r.keepsBut_heldAt c).step (State.keepsBut_putEntry _ _ _) (by decide)
  have haentry : ∀ q, a.entry q = if q = .selector then { e with yieldRequested := yieldCondition r.cfg r.drive.clock e } else r.entry q := fun q => by
    rw [ha, State.entry_putEntry]
    rfl
  have hasel : a.entry .selector = { e with yieldRequested := yieldCondition r.cfg r.drive.clock e } := by rw [haentry, if_pos rfl]
  have haother : ∀ q, q ≠ .selector → a.entry q = r.entry q := fun q hq => by rw [haentry, if_neg hq]
  have haarb : a.arb.selHeld = c ∧ a.arb.selCurrent = some c := by
    rw [ha]
    exact ⟨rfl, h.current⟩
  have hnoregen : ∀ g, a.soft.regen = some g → regenWho g ≠ washWho sl.port j := fun g hg => by
    rw [ka.soft, h.regen] at hg
    cases hg
  have haslot : a.pool[j] = some sl := by rw [ka.pool, h.slot]
  have hacalm : a.calmBut .selector := h.calm.ofEntry (by decide) (fun q hq => haother q (by simpa using hq)) (by rw [ka.sense]) (by rw [ka.door]) ka.water
  have hmeets : a.meetsInlet j sl z :=
    { slot := haslot
      work := h.work
      outcome := h.outcome
      calm := hacalm
      selector := by rw [hasel]; exact helease
      inlet := by rw [haother _ (by decide)]; exact h.inlet
      drain := by rw [State.hasHolder, haother _ (by decide)]; exact h.drain
      door := by rw [State.hasHolder, haother _ (by decide)]; exact h.door
      closed := by rw [State.doorClosed, ka.door]; exact h.closed
      latched := by rw [State.latched, ka.prot]; exact h.latched
      regen := by rw [ka.soft]; exact h.regen
      room := by rw [ka.water, ka.cfg]; exact h.room }
  have hlease : (a.entry .selector).lease = .held := hmeets.selector.1
  have hchange : a.changePosition c = a.heldAt c := by
    unfold State.changePosition
    rw [if_neg (by rw [hlease, State.hasHolder, hmeets.inlet]; simp), if_pos haarb.2]
    rfl
  have hsame : a.heldAt c = a := by
    have : a.arb.selHeld = c := haarb.1
    unfold State.heldAt
    rw [← this]
  have howner : a.ownerGranted .selector v.who = a.ask .inlet (washWho sl.port j) sl.age none := by
    rw [h.who, selectorGranted_fill hnoregen, if_pos hlease]
    unfold State.selectorHeld
    rw [State.isRegen_false hnoregen, if_neg (by decide)]
    show a.fillSelectorHeld j = _
    unfold State.fillSelectorHeld
    have hposition : a.fillPosition (washWho sl.port j) = some c := by
      refine fillPosition_inService ?_ _
      rw [← h.serves]
      simp only [State.inService, ka.soft]
    simp only [fillAt_eq haslot h.work h.outcome, slotWho_fill h.work, hposition]
    unfold State.toInlet
    rw [hchange, hsame]
    exact if_pos (by rw [hlease]; rfl)
  have hgiven := hmeets.given sl.age n
  rw [hgrant, howner]
  refine ⟨hgiven.slot, fun k hk => by rw [hgiven.pool k hk, ka.pool], ?_, ?_, fun q hq => ?_, ⟨by rw [hgiven.position.1, haarb.1, h.held],
    by rw [hgiven.position.2, haarb.2, h.current]⟩, (State.keepsBut_mono ka (by decide)).step hgiven.frame (by decide)⟩
  · rw [hgiven.entries .selector (by decide), hasel, he]
  · rw [hgiven.inlet, haother _ (by decide), ka.cfg, ka.drive, h.who]
  · simp only [List.mem_cons, List.not_mem_nil, or_false, not_or] at hq
    rw [hgiven.entries q (by simpa using hq.2), haother q hq.1]

end Chosen

theorem fillYields : Clauses.FillYields := by
  intro s i sl w hp hw ho hil hih hsl hsh hcalm hyield hforeign hwaits hpos hhold hregen hserves hcur hrem hmark hclosed hlatched hdrain hdoor hpulse
    hdone hlim
  have h : s.flows i sl w := ⟨hp, hw, ho, hil, hih⟩
  obtain ⟨h1, -⟩ := exec_decilitre h hpulse
  have hstate := State.inService_state hserves
  have kq : s.keepsBut s.charged [.soft] := s.keepsBut_setColumn _ _
  obtain ⟨x, hx⟩ : ∃ x, x = w.counted' (.soft s.arb.selHeld) s.acct.hardness := ⟨_, rfl⟩
  have hdl := fillDecilitre_eq h (by rw [hstate]; decide) (chargeDecilitre_stays (i := i) hstate hrem (hmark _)) hx.symm kq
  have hy := counted_poured kq i sl x
  obtain ⟨hxc, hxr⟩ := counted'_requested w (.soft s.arb.selHeld) s.acct.hardness
  rw [← hx] at hxc hxr
  obtain ⟨y, hyeq⟩ : ∃ y, y = s.charged.poured i sl x := ⟨_, rfl⟩
  rw [← hyeq] at hdl hy
  have hysoft : y.soft = s.charged.soft := by rw [hyeq]; rfl
  have hent : ∀ r, y.entry r = s.entry r := hy.frame.entry
  have harb : y.arb = s.arb := hy.frame.arb
  have hinservice : y.inService = some s.arb.selHeld := by
    have hcharged : s.charged.inService = s.inService := inService_setColumn _ _ rfl
    rw [← hserves, ← hcharged]
    simp only [State.inService, hysoft]
  have hycalm : y.calmBut .selector := hy.calmBut hcalm fun r _ => hent r
  have howns : y.ownsPath (washWho sl.port i) := ⟨by rw [hent]; exact ⟨hil, hih⟩, by rw [hent]; exact ⟨hsl, hsh⟩⟩
  have hyd := yielded howns (by rw [hent]; exact hyield) sl.age
  rw [hxc, hxr, if_neg hdone, if_neg (Nat.not_le.mpr hlim), fillStage5_stays (by rw [harb]; exact fillPosition_inService hinservice _)] at hdl
  rw [hdl] at h1
  obtain ⟨r, hr⟩ : ∃ r, r = y.yieldPath (washWho sl.port i) sl.age := ⟨_, rfl⟩
  rw [← hr] at h1 hyd
  have hrcalm : r.calmBut .selector := hycalm.path hyd.entries (by rw [hyd.inlet]; exact ⟨(hycalm.1 .inlet (by decide)).1, rfl⟩) hyd.frame
  have hother : ∀ q, q ≠ .selector → q ≠ .inlet → r.entry q = s.entry q := fun q h1 h2 => by rw [hyd.entries q (by simp [h1, h2]), hent]
  have krs : s.keepsBut r [.arb, .pool, .water, .soft, .drive] := (State.keepsBut_mono hy.frame (by decide)).step hyd.frame (by decide)
  have hclock : r.drive.clock = s.drive.clock := by rw [hyd.clock, hy.frame.drive]
  have hcfg : r.cfg = s.cfg := krs.cfg
  obtain ⟨asker, hasker⟩ : ∃ asker : Waiter, asker = ⟨washWho sl.port i, sl.age, some s.arb.selHeld, false⟩ := ⟨_, rfl⟩
  have hsel : r.entry .selector = { y.letFree .selector with waiters := (s.entry .selector).waiters ++ [asker] } := by
    rw [hyd.selector, hent, harb, hasker]
  have hwaiters : (r.entry .selector).waiters = (s.entry .selector).waiters ++ [asker] := by rw [hsel]
  have hlast : (r.entry .selector).lastRelease = some (.port sl.port, s.drive.clock) := by
    rw [hsel]
    show releaseRecord y.drive.clock (y.entry .selector) = _
    rw [hent, hy.frame.drive]
    unfold releaseRecord
    rw [hsh]
    exact if_pos (List.any_eq_true.mpr (hforeign.imp fun v hv => ⟨hv.1, by simpa using hv.2⟩))
  have hports : ∀ v ∈ (r.entry .selector).waiters, ∃ p : Port, v.who.ident = .port p := fun v hv => by
    rw [hwaiters] at hv
    rcases List.mem_append.mp hv with hv | hv
    · obtain ⟨-, j, y', z, hwho, -⟩ := hwaits v hv
      exact ⟨y'.port, by rw [hwho]⟩
    · rw [List.mem_singleton.mp hv, hasker]
      exact ⟨sl.port, rfl⟩
  have hunasked : ∀ q, (r.entry q).yieldRequested = false := fun q => by
    by_cases hq : q = .selector
    · rw [hq, hsel]
      rfl
    · exact (hrcalm.1 q hq).2
  have hposr : (r.entry .selector).rrUrgent = (s.entry .selector).rrUrgent ∧ (r.entry .selector).rrNormal = (s.entry .selector).rrNormal := by
    rw [hsel, State.letFree, hent]
    exact ⟨rfl, rfl⟩
  obtain ⟨v, hchooses, hsettle⟩ := settleFor_chooses (s := r) (r := .selector) 127 hrcalm.2 hunasked (fun q hq => (hrcalm.1 q hq).1) (by rw [hsel]; rfl)
    (by rw [hwaiters]; simp) ⟨by rw [hposr.1]; exact hpos.1, by rw [hposr.2]; exact hpos.2⟩
    (fun v hv => by obtain ⟨p, e⟩ := hports v hv; rw [e]; exact fun e => by cases e) (fun _ _ => by simp [State.eligibleBase, Resource.guarded, Resource.inTripSet])
  rw [hlast, hwaiters, hclock, hcfg] at hchooses
  have hmem := hchooses.1
  have hident : v.who.ident ≠ .port sl.port := Settings.afterHoldOff_now hhold
    (hforeign.imp fun u hu => ⟨List.mem_append_left _ hu.1, hu.2⟩) hmem
  have hvs : v ∈ (s.entry .selector).waiters := by
    rcases List.mem_append.mp (Settings.mem_afterHoldOff hmem) with e | e
    · exact e
    · rw [List.mem_singleton.mp e, hasker] at hident
      exact absurd rfl hident
  obtain ⟨hwant, j, y', z, hwho, hji, hslot, hwork, hout, -⟩ := hwaits v hvs
  have hgives : r.givesPath v j y' z s.arb.selHeld :=
    { who := hwho
      want := hwant
      slot := by rw [hyd.frame.pool, hy.pool j hji, hslot]
      work := hwork
      outcome := hout
      calm := hrcalm
      held := by rw [hyd.position.1, harb]
      current := by rw [hyd.position.2, harb, hcur]
      serves := by
        rw [← hinservice]
        simp only [State.inService, hyd.frame.soft]
      inlet := by rw [hyd.inlet]; rfl
      drain := by rw [State.hasHolder, hother _ (by decide) (by decide)]; exact hdrain
      door := by rw [State.hasHolder, hother _ (by decide) (by decide)]; exact hdoor
      closed := by rw [State.doorClosed, krs.door]; exact hclosed
      latched := by rw [State.latched, krs.prot]; exact hlatched
      regen := by
        rw [hyd.frame.soft, hysoft, ← hregen]
        unfold State.charged
        cases s.arb.selHeld <;> rfl
      room := by rw [hyd.frame.water, hy.water, hcfg]; exact hlim }
  have hgiven := hgives.given 126
  obtain ⟨t, ht⟩ : ∃ t, t = r.settle := ⟨_, rfl⟩
  rw [show ((r.grantLease .selector v).ownerGranted .selector v.who).settleFor (126 + 1) = t by rw [ht]; exact hsettle.symm] at hgiven
  rw [← ht] at h1
  subst hasker
  refine ⟨t, v, j, y', z, h1, State.chooses_congr hcfg hposr.1 hposr.2 hchooses, hwho, hji, hslot, hwork, ?_, ?_, by rw [hgiven.position.1, hyd.position.1, harb],
    by rw [hgiven.position.2, hyd.position.2, harb], ⟨x, ?_, hxc, hxr⟩, hgiven.slot, fun k hki hkj => ?_, fun q hq => ?_, krs.step hgiven.frame (by decide)⟩
  · have hpassed := passedOn_granted (g := s.cfg) (clock := s.drive.clock) (e := s.entry .selector) (f := r.entry .selector) (v := v) (some y'.port) .held hposr.1 hposr.2
    rw [hwaiters, hlast] at hpassed
    rw [hgiven.selector, hcfg, hclock]
    exact hpassed
  · have hinletEntry : t.entry .inlet = s.cfg.grantRecord s.drive.clock v.who (some y'.port) .held (y.letFree .inlet) := by
      rw [hgiven.inlet, hcfg, hclock, hyd.inlet]
    have hnowait := (hcalm.1 .inlet (by decide)).1
    have hlastInlet : (y.letFree .inlet).lastRelease = none := by
      show releaseRecord y.drive.clock (y.entry .inlet) = none
      rw [hent]
      exact releaseRecord_noWaiters hnowait _
    have hfree : y.letFree .inlet = { s.entry .inlet with lease := .free, holder := none, holderPort := none, yieldRequested := false, lastRelease := none } := by
      rw [← hlastInlet, State.letFree, hent]
    have hentry : t.entry .inlet = { s.cfg.grantRecord s.drive.clock v.who (some y'.port) .held (s.entry .inlet) with
        waiters := [], lastRelease := none, yieldRequested := false } := by
      rw [hinletEntry, hfree, ← hnowait]
      rfl
    rw [hentry]
    refine ⟨rfl, fun e => (by cases e), fun e => ?_⟩
    obtain ⟨-, _, -, -, ⟨u, hu, -⟩, -⟩ := e
    cases hu
  · rw [hgiven.pool i (Ne.symm hji), hyd.frame.pool, hy.self]
  · rw [hgiven.pool k hkj, hyd.frame.pool, hy.pool k hki]
  · have hq' := hq
    simp only [List.mem_cons, List.not_mem_nil, or_false, not_or] at hq'
    rw [hgiven.entries q hq, hother q hq'.1 hq'.2]

/-- Settles O28. -/
theorem fillCountsAndCharges : Obligations.FillCountsAndCharges :=
  ⟨fillPulsesCounted, fillExhaustsColumn, fillExhaustsHeadTaken, fillYields, noWashThroughRegenerating⟩

end Sys2Proof.Machine

/-! The order under the softener's changes: columns, the queue, the regeneration (R51 to R70). -/

namespace Sys2Proof.Machine

/-- The softener's books change, and with them who uses SELECTOR, INLET and BRINE. -/
structure SoftStep (a b : Seats) : Prop where
  rest : { b with regen := a.regen, queue := a.queue, col := a.col, mode := a.mode } = a
  selector : ∀ h, (a.table .selector).holder = some h → a.user true h → b.user true h
  selectorLine : ∀ h ∈ (a.table .selector).line, a.user false h → b.user false h
  brine : ∀ h, ((a.table .brine).holder = some h ∨ h ∈ (a.table .brine).line) → a.brineUser h → b.brineUser h
  inlet : ∀ h, ((a.table .inlet).holder = some h ∨ h ∈ (a.table .inlet).line) → (b.col a.selHeld).state = .regenerating →
    (a.col a.selHeld).state = .regenerating
  regenerating : ∀ c, (b.col c).state = .regenerating ↔ ∃ g, b.regen = some g ∧ g.column = c ∧ g.phase ≠ .starting
  standby : b.mode = .run → ∀ c, (b.col c).state = .standby → (b.col (Column.other c)).state = .inService
  mark : ∀ c i, (b.col c).mark = some i → (b.col c).state = .inService ∧ ((a.col c).mark = some i ∨ a.fillIn i)
  queued : ∀ c p i, (c, some (p, i)) ∈ b.queue →
    (c, some (p, i)) ∈ a.queue ∨ ∃ x, a.op i = some x ∧ x.fixed = false ∧ x.port = p ∧ x.kind = .regenerate c
  asked : ∀ g r, b.regen = some g → g.requester = some r →
    (∃ g', a.regen = some g' ∧ g'.column = g.column ∧ g'.requester = some r) ∨ (g.column, some r) ∈ a.queue
  quiet : b.mode = .setup → (∀ i, a.op i = none) ∧ b.regen = none
  nodup : (b.queue.map (·.1)).Nodup
  apart : ∀ g, b.regen = some g → ∀ q ∈ b.queue, q.1 ≠ g.column

theorem SoftStep.ordered {a b : Seats} {d : Option SlotId} (h : SoftStep a b) (k : a.ordered d) : b.ordered d := by
  obtain ⟨op, regen, queue, col, mode, selHeld, selCurrent, retract, table⟩ := a
  obtain ⟨op', regen', queue', col', mode', selHeld', selCurrent', retract', table'⟩ := b
  obtain ⟨hrest, hsel, hline, hbrine, hinlet, hreg, hstand, hmark, hqueue, hasked, hquiet, hnodup, hapart⟩ := h
  cases hrest
  obtain ⟨t, s, e⟩ := k
  refine ⟨⟨t.legal, t.path, t.waits, t.holds, t.doorLine, t.doorHeld, t.retract, t.position, fun x hx => hsel x hx (t.selector x hx),
    fun x hx => ⟨hline x hx (t.selectorLine x hx).1, (t.selectorLine x hx).2⟩, t.softWaits, fun x hx hf c => t.inlet x hx hf (hinlet x (.inl hx) c),
    fun x hx => ?_, fun x hx => hbrine x (.inl hx) (t.brine x hx), fun x hx => ?_⟩, ⟨hreg, hstand, fun c i hm => ?_, fun c p i hm => ?_,
    fun g p i hg hr => ?_, hquiet, hnodup, hapart⟩, e⟩
  · obtain ⟨h1, h2, h3⟩ := t.inletLine x hx
    exact ⟨h1, h2, fun hf c => h3 hf (hinlet x (.inr hx) c)⟩
  · obtain ⟨h1, h2, h3⟩ := t.brineLine x hx
    exact ⟨hbrine x (.inr hx) h1, h2, h3⟩
  · exact (hmark c i hm).imp_right fun h => h.elim (fun h => (s.marked c i h).2) .inr
  · exact (hqueue c p i hm).elim (s.queued c p i) id
  · rcases hasked g (p, i) hg hr with ⟨g', hg', hc, hr'⟩ | hm
    · exact hc ▸ s.asked g' p i hg' hr'
    · exact s.queued _ p i hm

/-! ### The columns and the queue (R51, R54 to R62) -/

/-- Columns and queue change, the regeneration does not. -/
structure Restocks (a b : Seats) : Prop where
  rest : { b with queue := a.queue, col := a.col, mode := a.mode } = a
  regenerating : ∀ c, (b.col c).state = .regenerating ↔ (a.col c).state = .regenerating
  standby : b.mode = .run → ∀ c, (b.col c).state = .standby → (b.col (Column.other c)).state = .inService
  mark : ∀ c i, (b.col c).mark = some i → (b.col c).state = .inService ∧ ((a.col c).mark = some i ∨ a.fillIn i)
  queued : ∀ c p i, (c, some (p, i)) ∈ b.queue →
    (c, some (p, i)) ∈ a.queue ∨ ∃ x, a.op i = some x ∧ x.fixed = false ∧ x.port = p ∧ x.kind = .regenerate c
  quiet : b.mode = .setup → (∀ i, a.op i = none) ∧ a.regen = none
  nodup : (b.queue.map (·.1)).Nodup
  apart : ∀ g, a.regen = some g → ∀ q ∈ b.queue, q.1 ≠ g.column

theorem Restocks.ordered {a b : Seats} {d : Option SlotId} (h : Restocks a b) (k : a.ordered d) : b.ordered d := by
  obtain ⟨op, regen, queue, col, mode, selHeld, selCurrent, retract, table⟩ := a
  obtain ⟨op', regen', queue', col', mode', selHeld', selCurrent', retract', table'⟩ := b
  obtain ⟨hrest, hreg, hstand, hmark, hqueue, hquiet, hnodup, hapart⟩ := h
  cases hrest
  refine (?_ : SoftStep _ _).ordered k
  refine ⟨rfl, fun _ _ hx => hx, fun _ _ hx => hx, fun _ _ hx => hx, fun _ _ => (hreg _).mp, fun c => (hreg c).trans (k.soft.regenerating c),
    hstand, hmark, hqueue, fun g r hg hr => .inl ⟨g, hg, rfl, hr⟩, hquiet, hnodup, hapart⟩

/-! ### The regeneration (R63 to R70) -/

/-- The head of the queue is taken for a regeneration. -/
theorem Seats.ordered.taken {a : Seats} {d : Option SlotId} (k : a.ordered d) {q : Column × Option (Port × SlotId)} {rest : List (Column × Option (Port × SlotId))}
    (hq : a.queue = q :: rest) (hr : a.regen = none) (hm : a.mode = .run) :
    ({ a with regen := some ⟨q.1, q.2, .starting⟩, queue := rest } : Seats).ordered d := by
  have hno : ∀ {st h}, a.user st h → ({ a with regen := some ⟨q.1, q.2, .starting⟩, queue := rest } : Seats).user st h := fun hu => by
    rcases hu with hu | ⟨g, hg, -⟩
    · exact .inl hu
    · rw [hr] at hg; cases hg
  have hnodup : ((q :: rest).map (·.1)).Nodup := hq ▸ k.soft.nodup
  rw [List.map_cons, List.nodup_cons] at hnodup
  refine (?_ : SoftStep _ _).ordered k
  refine ⟨rfl, fun _ _ => hno, fun _ _ => hno, fun h _ hb => ?_, fun _ _ => id, fun c => ?_, k.soft.standby,
    fun c i hc => ⟨(k.soft.marked c i hc).1, .inl hc⟩, fun c p i hc => .inl (hq ▸ List.mem_cons_of_mem _ hc), fun g r hg hr => .inr ?_, fun c => ?_, hnodup.2,
    fun g hg p hp c => ?_⟩
  · obtain ⟨-, g, hg, -⟩ := hb
    rw [hr] at hg; cases hg
  · refine (k.soft.regenerating c).trans ⟨fun ⟨g, hg, _⟩ => ?_, fun ⟨g, hg, _, hp⟩ => ?_⟩
    · rw [hr] at hg; cases hg
    · cases hg
      exact absurd rfl hp
  · cases hg
    rw [← show q.2 = some r from hr, hq]
    exact List.mem_cons_self
  · rw [show a.mode = .setup from c] at hm
    cases hm
  · cases hg
    exact hnodup.1 (List.mem_map.mpr ⟨p, hp, c⟩)

/-- The regeneration in progress goes to another phase after its start, BRINE left or the phase kept. -/
theorem Seats.ordered.phased {a : Seats} {d : Option SlotId} (k : a.ordered d) {g : Stage} (hg : a.regen = some g) {ph : RegenPhase}
    (hs : g.phase ≠ .starting) (hp : ph ≠ .starting)
    (hb : ph = g.phase ∨ ((a.table .brine).holder = none ∧ (a.table .brine).line = [])) :
    ({ a with regen := some { g with phase := ph } } : Seats).ordered d := by
  have hu : ∀ {st h}, a.user st h → ({ a with regen := some { g with phase := ph } } : Seats).user st h := fun hu => by
    rcases hu with hu | ⟨x, hx, e, -⟩
    · exact .inl hu
    · rw [hg] at hx
      cases hx
      exact .inr ⟨_, rfl, e, fun _ => hp⟩
  refine (?_ : SoftStep _ _).ordered k
  refine ⟨rfl, fun _ _ => hu, fun _ _ => hu, fun h hx hbr => ?_, fun _ _ => id, fun c => ?_, k.soft.standby,
    fun c i hc => ⟨(k.soft.marked c i hc).1, .inl hc⟩, fun _ _ _ => .inl, fun x r hx hr => .inl ⟨g, hg, ?_⟩, fun c => ?_, k.soft.nodup, fun x hx => ?_⟩
  · rcases hb with rfl | ⟨h1, h2⟩
    · obtain ⟨h1, x, hx, e⟩ := hbr
      exact ⟨h1, x, hg ▸ hx, e⟩
    · rcases hx with hx | hx
      · rw [h1] at hx; cases hx
      · rw [h2] at hx; cases hx
  · refine (k.soft.regenerating c).trans ⟨fun ⟨x, hx, hc, _⟩ => ?_, fun ⟨x, hx, hc, _⟩ => ?_⟩
    · rw [hg] at hx
      cases hx
      exact ⟨_, rfl, hc, hp⟩
    · cases hx
      exact ⟨g, hg, hc, hs⟩
  · cases hx
    exact ⟨rfl, hr⟩
  · have := (k.soft.quiet c).2
    rw [hg] at this
    cases this
  · cases hx
    exact k.soft.apart g hg

/-- Nothing of the table is a regeneration's. -/
def Seats.leaves (a : Seats) (g : Stage) : Prop := (a.table .selector).holder ≠ some g.who ∧ g.who ∉ (a.table .selector).line

/-- The regeneration in progress ends; columns and queue change with it. -/
theorem Seats.ordered.ended {a : Seats} {d : Option SlotId} (k : a.ordered d) {g : Stage} (hg : a.regen = some g) (hl : a.leaves g)
    {col : Column → ColumnMark} {queue : List (Column × Option (Port × SlotId))} (hreg : ∀ c, (col c).state ≠ .regenerating)
    (hst : a.mode = .run → ∀ c, (col c).state = .standby → (col (Column.other c)).state = .inService)
    (hm : ∀ c i, (col c).mark = some i → (col c).state = .inService ∧ (a.col c).mark = some i)
    (hq : ∀ c r, (c, some r) ∈ queue → (c, some r) ∈ a.queue) (hn : (queue.map (·.1)).Nodup) :
    ({ a with regen := none, col := col, queue := queue } : Seats).ordered d := by
  have hu : ∀ {st h}, h ≠ g.who → a.user st h → ({ a with regen := none, col := col, queue := queue } : Seats).user st h := fun hne hu => by
    rcases hu with hu | ⟨x, hx, e, -⟩
    · exact .inl hu
    · rw [hg] at hx
      cases hx
      exact absurd e hne
  refine (?_ : SoftStep _ _).ordered k
  refine ⟨rfl, fun h hh => hu fun c => hl.1 (c ▸ hh), fun h hh => hu fun c => hl.2 (c ▸ hh), fun h _ hbr => ?_, fun _ _ c => absurd c (hreg _),
    fun c => ⟨fun h => absurd h (hreg c), fun ⟨x, hx, _⟩ => by cases hx⟩, hst, fun c i hc => (hm c i hc).imp_right .inl, fun c p i hc => .inl (hq c _ hc),
    fun x r hx => (by cases hx), fun c => ⟨(k.soft.quiet c).1, rfl⟩, hn, fun x hx => by cases hx⟩
  obtain ⟨⟨-, hh⟩, x, hx, e, -⟩ := hbr
  rw [hg] at hx
  cases hx
  exact absurd (e ▸ hh) hl.1

/-- The regeneration in progress starts, while SELECTOR has no holder: its column regenerates, and the other comes into service for it. -/
theorem Seats.ordered.started {a : Seats} {d : Option SlotId} (k : a.ordered d) {g : Stage} (hg : a.regen = some g) (hs : g.phase = .starting)
    (hf : (a.table .selector).holder = none) {col : Column → ColumnMark} (hc : col g.column = ⟨.regenerating, none⟩)
    (ho : col (Column.other g.column) = a.col (Column.other g.column) ∨
      ((a.col (Column.other g.column)).state = .standby ∧ col (Column.other g.column) = { a.col (Column.other g.column) with state := .inService }))
    (hst : (col (Column.other g.column)).state ≠ .standby) :
    ({ a with regen := some { g with phase := .brineDraw }, col := col } : Seats).ordered d := by
  have hnot : ∀ h, ¬a.atSelector h := fun h c => by
    rw [c.2] at hf
    cases hf
  have hreg : ∀ c, (a.col c).state ≠ .regenerating := fun c e => by
    obtain ⟨x, hx, -, hp⟩ := (k.soft.regenerating c).mp e
    rw [hg] at hx
    cases hx
    exact hp hs
  have hoc : ∀ c, c ≠ g.column → c = Column.other g.column := fun c hne => by
    cases c <;> cases hcol : g.column <;> simp_all [Column.other]
  refine (?_ : SoftStep _ _).ordered k
  refine ⟨rfl, fun h hh => ?_, fun h _ hu => ?_, fun h _ hbr => absurd hbr.1 (hnot h), fun h hx => ?_, fun c => ?_, fun _ c hc' => ?_,
    fun c i hm => ?_, fun _ _ _ => .inl, fun x r hx hr => .inl ⟨g, hg, ?_⟩, fun c => ?_, k.soft.nodup, fun x hx => ?_⟩
  · rw [hf] at hh; cases hh
  · rcases hu with hu | ⟨x, hx, e, -⟩
    · exact .inl hu
    · rw [hg] at hx
      cases hx
      exact .inr ⟨_, rfl, e, fun c => by cases c⟩
  · rcases hx with hx | hx
    · exact absurd (k.table.inlet_selector hx) (hnot h)
    · exact absurd (k.table.inletLine h hx).1 (hnot h)
  · show (col c).state = _ ↔ _
    by_cases hcc : c = g.column
    · rw [hcc, hc]
      exact ⟨fun _ => ⟨_, rfl, rfl, fun e => by cases e⟩, fun _ => rfl⟩
    · refine ⟨fun e => ?_, fun ⟨x, hx, hc', _⟩ => by cases hx; exact absurd hc'.symm hcc⟩
      rw [hoc c hcc] at e
      rcases ho with ho | ⟨-, ho⟩
      · rw [ho] at e; exact absurd e (hreg _)
      · rw [ho] at e; cases e
  · change (col c).state = _ at hc'
    by_cases hcc : c = g.column
    · rw [hcc, hc] at hc'; cases hc'
    · rw [hoc c hcc] at hc'
      exact absurd hc' hst
  · change (col c).mark = _ at hm
    show (col c).state = _ ∧ _
    by_cases hcc : c = g.column
    · rw [hcc, hc] at hm; cases hm
    · rw [hoc c hcc] at hm ⊢
      rcases ho with ho | ⟨hsb, ho⟩
      · rw [ho] at hm ⊢
        exact ⟨(k.soft.marked _ i hm).1, .inl hm⟩
      · rw [ho] at hm
        have := (k.soft.marked _ i hm).1
        rw [hsb] at this
        cases this
  · cases hx
    exact ⟨rfl, hr⟩
  · have := (k.soft.quiet c).2
    rw [hg] at this
    cases this
  · cases hx
    exact k.soft.apart g hg

end Sys2Proof.Machine

/-! The order under the grants and the moves of the selector (R10, R23 to R25). -/

namespace Sys2Proof.Machine

/-- A resource granted to one that waits for it. -/
def Seats.granted (a : Seats) (r : Resource) (l : LeaseState) (h : Holder) : Seats := a.put r ⟨l, some h, (a.table r).line.filter (· != h)⟩

theorem Seats.granted_ne (a : Seats) {r q : Resource} (hq : q ≠ r) (l : LeaseState) (h : Holder) : (a.granted r l h).table q = a.table q :=
  Seats.put_ne a hq _

theorem Seats.granted_self (a : Seats) (r : Resource) (l : LeaseState) (h : Holder) :
    (a.granted r l h).table r = ⟨l, some h, (a.table r).line.filter (· != h)⟩ := Seats.put_self a r _

theorem Seats.line_granted (a : Seats) (r q : Resource) (l : LeaseState) (h : Holder) : ((a.granted r l h).table q).line ⊆ (a.table q).line := by
  by_cases hq : q = r
  · rw [hq, Seats.granted_self]
    exact List.filter_subset_self _
  · rw [Seats.granted_ne a hq]
    exact List.Subset.refl _

section Grants

variable {a : Seats} {d : Option SlotId} {r : Resource} {l : LeaseState} {h : Holder}

/-- Any resource but SELECTOR and DOOR_DRIVE. -/
theorem Seats.ordered.grant (k : a.ordered d) (hh : h ∈ (a.table r).line) (hs : r ≠ .selector) (hd : r ≠ .doorDrive)
    (hl : l = .held ∨ (l = .suspended ∧ r.guarded = true)) : (a.granted r l h).ordered d := by
  obtain ⟨t, s, e⟩ := k
  have hsel := a.granted_ne (Ne.symm hs) l h
  have hdoor := a.granted_ne (Ne.symm hd) l h
  have hsub := fun q => a.line_granted r q l h
  have hfree : l ≠ .free := by rcases hl with rfl | ⟨rfl, -⟩ <;> decide
  have hholder : ∀ {q x}, ((a.granted r l h).table q).holder = some x → (q = r ∧ x = h) ∨ (q ≠ r ∧ (a.table q).holder = some x) := fun {q x} hx => by
    by_cases hq : q = r
    · rw [hq, Seats.granted_self] at hx
      exact .inl ⟨hq, (Option.some.inj hx).symm⟩
    · rw [Seats.granted_ne a hq] at hx
      exact .inr ⟨hq, hx⟩
  have hat : ∀ {x}, (a.granted r l h).atSelector x ↔ a.atSelector x := fun {x} => by
    unfold Seats.atSelector
    rw [hsel]
  refine ⟨⟨fun q => ?_, fun hle => ?_, fun q x hx => t.waits q x (hsub q hx), fun q x hx hslot => ?_, ?_, ?_, ?_, ?_, ?_, ?_, ?_, fun x hx hf => ?_, fun x hx => ?_,
    fun x hx => ?_, fun x hx => ?_⟩, s.congr rfl rfl rfl rfl rfl, e⟩
  · by_cases hq : q = r
    · subst hq
      rw [Seats.granted_self]
      refine ⟨⟨fun c => absurd c hfree, fun c => by cases c⟩, ?_⟩
      rcases hl with rfl | ⟨rfl, hg⟩
      · cases q <;> rfl
      · cases q <;> exact hg
    · rw [Seats.granted_ne a hq]
      exact t.legal q
  · rw [hsel]
    by_cases hq : Resource.inlet = r
    · subst hq
      rw [Seats.granted_self]
      exact (t.inletLine h hh).1
    · rw [Seats.granted_ne a hq] at hle ⊢
      exact t.path hle
  · rcases hholder hx with ⟨rfl, rfl⟩ | ⟨hq, hx⟩
    · exact .inr (t.waits q x hh hslot)
    · rw [Seats.granted_ne a hq]
      exact t.holds q x hx hslot
  · rw [hdoor]; exact t.doorLine
  · rw [hdoor]; exact t.doorHeld
  · rw [hdoor]; exact t.retract
  · rw [hsel]; exact t.position
  · rw [hsel]; exact t.selector
  · rw [hsel]; exact t.selectorLine
  · rw [hsel]; exact t.softWaits
  · rcases hholder hx with ⟨rfl, rfl⟩ | ⟨hq, hx⟩
    · exact (t.inletLine x hh).2.2 hf
    · exact t.inlet x hx hf
  · obtain ⟨h1, h2, h3⟩ := t.inletLine x (hsub _ hx)
    refine ⟨hat.mpr h1, fun c => ?_, h3⟩
    rcases hholder c with ⟨rfl, rfl⟩ | ⟨hq, c⟩
    · rw [Seats.granted_self] at hx
      simp at hx
    · exact h2 c
  · rcases hholder hx with ⟨rfl, rfl⟩ | ⟨hq, hx⟩
    · exact (t.brineLine x hh).1.imp_left hat.mpr
    · exact (t.brine x hx).imp_left hat.mpr
  · obtain ⟨h1, h2, h3⟩ := t.brineLine x (hsub _ hx)
    refine ⟨h1.imp_left hat.mpr, fun c => h2 (hsub _ c), fun c => ?_⟩
    rcases hholder c with ⟨rfl, rfl⟩ | ⟨hq, c⟩
    · exact h2 hh
    · exact h3 c

/-! ### DOOR_DRIVE -/

/-- DOOR_DRIVE granted to an operation, which goes on in PUSHING. -/
theorem Seats.ordered.grantDoor (k : a.ordered d) (hf : (a.table .doorDrive).lease = .free) {i : SlotId} {x : Seat} {dry : Bool} {phase : DoorPhase}
    {back : Bool} (hx : a.op i = some x) (ho : x.fixed = false) (hk : x.kind = .door dry phase back) :
    ((a.granted .doorDrive .held (x.who i)).seat i (some { x with kind := .door dry .pushing false })).ordered d := by
  obtain ⟨y, hy⟩ : ∃ y : Seat, y = { x with kind := .door dry .pushing false } := ⟨_, rfl⟩
  rw [← hy]
  have hwho : y.who i = x.who i := by
    rw [hy, seat_who_door (x := { x with kind := WorkKind.door dry DoorPhase.pushing false }) rfl, seat_who_door hk]
  have hxy : x.alike y := by
    rw [hy]
    exact ⟨rfl, rfl, hk ▸ .door _ _ _ _ _⟩
  have hgoes : a.goesOn (a.seat i (some y)) := fun j => by
    by_cases hj : j = i
    · rw [hj, Seats.op_seat_self]
      exact .inr ⟨x, y, hx, rfl, hxy⟩
    · rw [Seats.op_seat_ne _ hj]
      exact Seat.onward.refl _
  obtain ⟨b, hb⟩ : ∃ b, b = (a.granted .doorDrive .held (x.who i)).seat i (some y) := ⟨_, rfl⟩
  have hbop : b.op = (a.seat i (some y)).op := hb ▸ rfl
  have hbt : ∀ q, q ≠ .doorDrive → b.table q = a.table q := fun q hq => hb ▸ a.granted_ne hq _ _
  have hbd : b.table .doorDrive = ⟨.held, some (x.who i), (a.table .doorDrive).line.filter (· != x.who i)⟩ := by rw [hb]; exact a.granted_self .doorDrive .held (x.who i)
  have hworks : ∀ {r z}, a.works r z → b.works r z := fun {r z} h => (Seats.works_congr hbop r z).mpr ((hgoes.works r z).mpr h)
  have hfills : ∀ {z}, b.fills z ↔ a.fills z := fun {z} => (Seats.fills_congr hbop z).trans (hgoes.fills z)
  have huser : ∀ {st z}, a.user st z → b.user st z := fun h => h.imp hfills.mpr fun h => by rw [hb]; exact h
  have hat : ∀ {z}, b.atSelector z ↔ a.atSelector z := fun {z} => by
    unfold Seats.atSelector
    rw [hbt _ (by decide)]
  have hself : ∀ {j z}, b.op j = some z → (j = i ∧ z = y) ∨ (j ≠ i ∧ a.op j = some z) := fun {j z} h => by
    rw [hbop] at h
    by_cases hj : j = i
    · rw [hj, Seats.op_seat_self] at h
      exact .inl ⟨hj, (Option.some.inj h).symm⟩
    · rw [Seats.op_seat_ne _ hj] at h
      exact .inr ⟨hj, h⟩
  rw [← hb]
  have hproceeds : b.softOrdered d ∧ ∀ j z, b.op j = some z → z.fixed = true → d ≠ some j → ∀ r ∈ z.kind.resources, r = .circ ∨ r = .doorDrive := by
    have hp : ({ a with table := fun _ => ⟨.free, none, []⟩, retract := none } : Seats).ordered d := by
      refine ⟨⟨fun r => ⟨⟨fun _ => rfl, fun _ => rfl⟩, by cases r <;> rfl⟩, fun c => absurd rfl c, by simp, by simp, ?_, by simp, by simp, by simp, by simp, by simp,
        by simp, by simp, by simp, by simp, by simp⟩, k.soft.congr rfl rfl rfl rfl rfl, k.ending⟩
      intro j z dry phase back hz ho hk hw
      exact k.table.doorLine j z dry phase back hz ho hk (.inr (hw.resolve_left (by simp)))
    have hq : Proceeds { a with table := fun _ => ⟨.free, none, []⟩, retract := none }
        { a.seat i (some y) with table := fun _ => ⟨.free, none, []⟩, retract := none } := by
      refine ⟨hgoes, rfl, fun j z dry' phase' back' hz ho' hk' hw => ?_, by simp, by simp⟩
      have hbk : back' = true := hw.resolve_left (by simp)
      change (a.seat i (some y)).op j = some z at hz
      by_cases hj : j = i
      · rw [hj, Seats.op_seat_self] at hz
        cases hz
        rw [hy] at hk'
        cases hk'
        cases hbk
      · rw [Seats.op_seat_ne _ hj] at hz
        exact k.table.doorLine j z dry' phase' back' hz ho' hk' (.inr hbk)
    obtain ⟨-, h2, h3⟩ := hq.ordered hp
    rw [hb]
    exact ⟨h2.congr rfl rfl rfl rfl rfl, h3⟩
  obtain ⟨t, -, -⟩ := k
  refine ⟨⟨fun q => ?_, ?_, fun q z hz hs => hworks ?_, fun q z hz hs => ?_, fun j z dry' phase' back' hz ho' hk' hw => ?_,
    fun j z dry' phase' back' hz ho' hk' hl hh => ?_, fun hr => ?_, ?_, fun z hz => ?_, fun z hz => ?_, fun j z hz ho' hk' => ?_, fun z hz hf' => ?_,
    fun z hz => ?_, fun z hz => ?_, fun z hz => ?_⟩, hproceeds.1, hproceeds.2⟩
  · by_cases hq : q = .doorDrive
    · rw [hq, hbd]
      exact ⟨⟨(fun c => by cases c), fun c => by cases c⟩, rfl⟩
    · rw [hbt q hq]
      exact t.legal q
  · rw [hbt .inlet (by decide), hbt .selector (by decide)]
    exact t.path
  · by_cases hq : q = .doorDrive
    · rw [hq, hbd] at hz
      rw [hq]
      exact t.waits _ z (List.mem_of_mem_filter hz) hs
    · rw [hbt q hq] at hz
      exact t.waits q z hz hs
  · by_cases hq : q = .doorDrive
    · rw [hq, hbd] at hz
      cases hz
      refine .inr (hworks ⟨i, x, rfl, hx, ho, ?_⟩)
      rw [hk, hq]
      exact List.mem_cons_self
    · rw [hbt q hq] at hz ⊢
      exact (t.holds q z hz hs).imp_right hworks
  · rw [hbd] at hw
    rcases hself hz with ⟨rfl, rfl⟩ | ⟨hj, hz⟩
    · rw [hy] at hk'
      cases hk'
      rcases hw with hw | hw
      · rw [hwho] at hw
        simp at hw
      · cases hw
    · exact t.doorLine j z dry' phase' back' hz ho' hk' (hw.imp_left List.mem_of_mem_filter)
  · rw [hbd] at hh
    rcases hself hz with ⟨rfl, rfl⟩ | ⟨hj, hz⟩
    · rw [hy] at hk'
      cases hk'
      rfl
    · exact absurd (Seat.who_inj (Option.some.inj hh)).symm hj
  · have := t.retract (by rw [hb] at hr; exact hr)
    rw [hf] at this
    cases this
  · rw [hbt .selector (by decide), hb]
    exact t.position
  · rw [hbt .selector (by decide)] at hz
    exact huser (t.selector z hz)
  · rw [hbt .selector (by decide)] at hz ⊢
    exact ⟨huser (t.selectorLine z hz).1, fun hf' => (t.selectorLine z hz).2 (hfills.mp hf')⟩
  · rw [hbt .selector (by decide)]
    rcases hself hz with ⟨rfl, rfl⟩ | ⟨hj, hz⟩
    · rw [hy] at hk'
      cases hk'
    · exact t.softWaits j z hz ho' hk'
  · rw [hbt .inlet (by decide)] at hz
    rw [hb]
    exact t.inlet z hz (hfills.mp hf')
  · rw [hbt .inlet (by decide)] at hz ⊢
    obtain ⟨h1, h2, h3⟩ := t.inletLine z hz
    refine ⟨hat.mpr h1, h2, fun hf' => ?_⟩
    rw [hb]
    exact h3 (hfills.mp hf')
  · rw [hbt .brine (by decide)] at hz
    refine (t.brine z hz).imp hat.mpr fun h => ?_
    rw [hb]
    exact h
  · rw [hbt .brine (by decide)] at hz
    rw [hbt .inlet (by decide)]
    obtain ⟨h1, h2, h3⟩ := t.brineLine z hz
    refine ⟨h1.imp hat.mpr fun h => ?_, h2, h3⟩
    rw [hb]
    exact h

/-- DOOR_DRIVE granted to one that is no operation. -/
theorem Seats.ordered.grantDoorless (k : a.ordered d) (hf : (a.table .doorDrive).lease = .free) (hn : h.slot = none) :
    (a.granted .doorDrive .held h).ordered d := by
  obtain ⟨t, s, e⟩ := k
  have hsub := fun q => a.line_granted .doorDrive q .held h
  have hother : ∀ {q}, q ≠ .doorDrive → (a.granted .doorDrive .held h).table q = a.table q := fun hq => a.granted_ne hq _ _
  have hat : ∀ {x}, (a.granted .doorDrive .held h).atSelector x ↔ a.atSelector x := fun {x} => by
    unfold Seats.atSelector
    rw [hother (by decide)]
  have hne : ∀ {i x}, h ≠ Seat.who i x := fun c => by
    rw [c, Seat.who_slot] at hn
    cases hn
  refine ⟨⟨fun q => ?_, ?_, fun q x hx => t.waits q x (hsub q hx), fun q x hx hs => ?_, fun i x dry phase back hx ho hk hw => ?_, fun i x dry phase back hx ho hk hl hh => ?_,
    fun hr => ?_, ?_, ?_, ?_, ?_, ?_, ?_, ?_, ?_⟩, s.congr rfl rfl rfl rfl rfl, e⟩
  · by_cases hq : q = .doorDrive
    · rw [hq, Seats.granted_self]
      exact ⟨⟨(fun c => by cases c), fun c => by cases c⟩, rfl⟩
    · rw [hother hq]
      exact t.legal q
  · rw [hother (by decide), hother (by decide)]
    exact t.path
  · by_cases hq : q = .doorDrive
    · rw [hq, Seats.granted_self] at hx
      cases hx
      exact absurd hn hs
    · rw [hother hq] at hx ⊢
      exact t.holds q x hx hs
  · exact t.doorLine i x dry phase back hx ho hk (hw.imp_left (hsub _ ·))
  · rw [Seats.granted_self] at hh
    exact absurd (Option.some.inj hh) hne
  · have := t.retract hr
    rw [hf] at this
    cases this
  · rw [hother (by decide)]; exact t.position
  · rw [hother (by decide)]; exact t.selector
  · rw [hother (by decide)]; exact t.selectorLine
  · rw [hother (by decide)]; exact t.softWaits
  · rw [hother (by decide)]; exact t.inlet
  · rw [hother (by decide)]
    exact fun x hx => (t.inletLine x hx).imp_left hat.mpr
  · rw [hother (by decide)]
    exact fun x hx => (t.brine x hx).imp_left hat.mpr
  · rw [hother (by decide), hother (by decide)]
    exact fun x hx => (t.brineLine x hx).imp_left (·.imp_left hat.mpr)

end Grants

/-! ### SELECTOR -/

/-- Nobody holds or waits for INLET and BRINE. -/
structure Seats.pathIdle (a : Seats) : Prop where
  inlet : (a.table .inlet).holder = none
  inletLine : (a.table .inlet).line = []
  brine : (a.table .brine).holder = none
  brineLine : (a.table .brine).line = []

/-- Who uses INLET or BRINE has SELECTOR HELD. -/
theorem Seats.tableOrdered.pathIdle {a : Seats} (t : a.tableOrdered)
    (h : ∀ x, a.atSelector x → (a.table .inlet).holder ≠ some x ∧ x ∉ (a.table .inlet).line ∧ ¬a.brineUser x) : a.pathIdle where
  inlet := by
    by_contra c
    obtain ⟨x, hx⟩ := Option.ne_none_iff_exists'.mp c
    exact (h x (t.inlet_selector hx)).1 hx
  inletLine := List.eq_nil_iff_forall_not_mem.mpr fun x hx => (h x (t.inletLine x hx).1).2.1 hx
  brine := by
    by_contra c
    obtain ⟨x, hx⟩ := Option.ne_none_iff_exists'.mp c
    exact (h x (t.brine x hx).1).2.2 (t.brine x hx)
  brineLine := List.eq_nil_iff_forall_not_mem.mpr fun x hx => (h x (t.brineLine x hx).1.1).2.2 (t.brineLine x hx).1

theorem Seats.tableOrdered.pathIdle_of_lease {a : Seats} (t : a.tableOrdered) (h : (a.table .selector).lease ≠ .held) : a.pathIdle :=
  t.pathIdle fun _ hx => absurd hx.1 h

/-- SELECTOR as it comes to stand while INLET and BRINE are idle. -/
theorem Seats.ordered.selectorTo {a : Seats} {d : Option SlotId} (k : a.ordered d) (hi : a.pathIdle) {p : Place} {c : Column} {cur : Option Column}
    (hlegal : (p.lease = .free ↔ p.holder = none) ∧ Resource.selector.allows p.lease = true) (hpos : p.lease = .held → cur = some c)
    (hh : ∀ h, p.holder = some h → a.user true h) (hl : p.line ⊆ (a.table .selector).line) (hw : ∀ h ∈ p.line, a.fills h → p.holder ≠ some h)
    (hs : ∀ i x, a.op i = some x → x.fixed = false → x.kind = .fill true → p.holder ≠ some (Seat.who i x)) :
    ({ a.put .selector p with selHeld := c, selCurrent := cur } : Seats).ordered d := by
  obtain ⟨t, s, e⟩ := k
  obtain ⟨b, hb⟩ : ∃ b : Seats, b = { a.put .selector p with selHeld := c, selCurrent := cur } := ⟨_, rfl⟩
  have hbs : b.table .selector = p := by rw [hb]; exact Seats.put_self a .selector p
  have hbt : ∀ q, q ≠ .selector → b.table q = a.table q := fun q hq => hb ▸ Seats.put_ne a hq p
  have hop : b.op = a.op := hb ▸ rfl
  have hreg : b.regen = a.regen := hb ▸ rfl
  have hin : (b.table .inlet).holder = none ∧ (b.table .inlet).line = [] := by rw [hbt _ (by decide)]; exact ⟨hi.inlet, hi.inletLine⟩
  have hbr : (b.table .brine).holder = none ∧ (b.table .brine).line = [] := by rw [hbt _ (by decide)]; exact ⟨hi.brine, hi.brineLine⟩
  have huser : ∀ {st x}, b.user st x ↔ a.user st x := Seats.user_congr hop hreg _ _
  rw [← hb]
  refine ⟨⟨fun q => ?_, fun c' => ?_, fun q x hx hs' => (Seats.works_congr hop q x).mpr ?_, fun q x hx hs' => ?_, ?_, ?_, ?_, fun hle => ?_, fun x hx => ?_, fun x hx => ?_,
    fun i x hx ho hk => ?_, fun x hx => ?_, fun x hx => ?_, fun x hx => ?_, fun x hx => ?_⟩,
    s.congr hop hreg (hb ▸ rfl) (hb ▸ rfl) (hb ▸ rfl), hop ▸ e⟩
  · by_cases hq : q = .selector
    · rw [hq, hbs]
      exact hlegal
    · rw [hbt q hq]
      exact t.legal q
  · rw [hbt _ (by decide)] at c'
    exact absurd ((t.legal .inlet).1.mpr hi.inlet) c'
  · by_cases hq : q = .selector
    · rw [hq] at hx ⊢
      rw [hbs] at hx
      exact t.waits _ x (hl hx) hs'
    · rw [hbt q hq] at hx
      exact t.waits q x hx hs'
  · rw [Seats.works_congr hop]
    by_cases hq : q = .selector
    · rw [hq] at hx ⊢
      rw [hbs] at hx
      refine .inr ?_
      rcases hh x hx with ⟨i, y, soft, rfl, hy, ho, hk⟩ | ⟨g, hg, rfl, -⟩
      · exact ⟨i, y, rfl, hy, ho, by rw [hk]; exact List.mem_cons_self⟩
      · unfold Stage.who at hs' ⊢
        cases hr : g.requester with
        | none =>
          rw [hr] at hs'
          exact absurd rfl hs'
        | some pi =>
          obtain ⟨y, hy, ho, hp, hk⟩ := s.asked g pi.1 pi.2 hg hr
          refine ⟨pi.2, y, ?_, hy, ho, by rw [hk]; exact List.mem_cons_self⟩
          unfold Seat.who
          rw [hk, hp]
    · rw [hbt q hq] at hx ⊢
      exact t.holds q x hx hs'
  · rw [hop, hbt _ (by decide)]; exact t.doorLine
  · rw [hop, hbt _ (by decide)]; exact t.doorHeld
  · rw [hbt _ (by decide), hb]; exact t.retract
  · rw [hbs] at hle
    rw [hb]
    exact hpos hle
  · rw [hbs] at hx
    exact huser.mpr (hh x hx)
  · rw [hbs] at hx ⊢
    exact ⟨huser.mpr (t.selectorLine x (hl hx)).1, fun hf => hw x hx ((Seats.fills_congr hop x).mp hf)⟩
  · rw [hbs]
    rw [hop] at hx
    exact ⟨fun hc => (t.softWaits i x hx ho hk).1 (hl hc), hs i x hx ho hk⟩
  · rw [hin.1] at hx; cases hx
  · rw [hin.2] at hx; cases hx
  · rw [hbr.1] at hx; cases hx
  · rw [hbr.2] at hx; cases hx

/-- SELECTOR granted, HELD where it stands or MOVING. -/
theorem Seats.ordered.grantSelector {a : Seats} {d : Option SlotId} (k : a.ordered d) {h : Holder} (hh : h ∈ (a.table .selector).line)
    (hf : (a.table .selector).lease = .free) (hu : a.user true h) {l : LeaseState} {c : Column} {cur : Option Column}
    (hl : (l = .held ∧ cur = some c) ∨ l = .moving) : ({ a.granted .selector l h with selHeld := c, selCurrent := cur } : Seats).ordered d := by
  refine k.selectorTo (k.table.pathIdle_of_lease (by rw [hf]; decide)) ?_ (fun e => ?_) (fun x hx => ?_) (List.filter_subset_self _) (fun x hx _ c => ?_)
    fun i x hx ho hk c => ?_
  · rcases hl with ⟨rfl, -⟩ | rfl <;> exact ⟨⟨(fun c => by cases c), fun c => by cases c⟩, rfl⟩
  · rcases hl with ⟨-, e'⟩ | rfl
    · exact e'
    · cases e
  · cases hx
    exact hu
  · cases c
    simp at hx
  · cases c
    exact (k.table.softWaits i x hx ho hk).1 hh

/-- A FILL that has SELECTOR HELD moves it, while it neither holds nor waits for INLET. -/
theorem Seats.ordered.moves {a : Seats} {d : Option SlotId} (k : a.ordered d) {h : Holder} (hs : a.atSelector h) (hf : a.fills h)
    (hi : (a.table .inlet).holder ≠ some h) (hl : h ∉ (a.table .inlet).line) (c : Column) :
    ({ a.put .selector ⟨.moving, (a.table .selector).holder, (a.table .selector).line⟩ with selHeld := c, selCurrent := none } : Seats).ordered d := by
  have hx : ∀ x, a.atSelector x → x = h := fun x hx => Option.some.inj (hx.2.symm.trans hs.2)
  refine k.selectorTo (k.table.pathIdle fun x hxs => ?_) ⟨⟨(fun c => by cases c), fun c => ?_⟩, rfl⟩ (fun c => by cases c) k.table.selector (List.Subset.refl _)
    (fun x hx => (k.table.selectorLine x hx).2) fun i x hx ho hk => (k.table.softWaits i x hx ho hk).2
  · rw [hx x hxs]
    refine ⟨hi, hl, ?_⟩
    rintro ⟨-, g, hg, e, -⟩
    exact k.soft.regen_not_fills hg (e ▸ hf)
  · have c : (a.table .selector).holder = none := c
    rw [hs.2] at c
    cases c

/-- SELECTOR arrives. -/
theorem Seats.ordered.arrives {a : Seats} {d : Option SlotId} (k : a.ordered d) (hm : (a.table .selector).lease = .moving) :
    ({ a.put .selector ⟨.held, (a.table .selector).holder, (a.table .selector).line⟩ with selCurrent := some a.selHeld } : Seats).ordered d := by
  refine k.selectorTo (c := a.selHeld) (k.table.pathIdle_of_lease (by rw [hm]; decide)) ⟨⟨(fun c => by cases c), fun c => ?_⟩, rfl⟩ (fun _ => rfl) k.table.selector
    (List.Subset.refl _) (fun x hx => (k.table.selectorLine x hx).2) fun i x hx ho hk => (k.table.softWaits i x hx ho hk).2
  have := (k.table.legal .selector).1.mpr c
  rw [hm] at this
  cases this

end Sys2Proof.Machine

/-! Work that keeps the order: what the view does not show, leases let go, and the Dose Engine (R5, R6, R22, R96 to R119). -/

namespace Sys2Proof.Machine

/-- Work from the first state to the second keeps the order, whoever is just being ended. -/
def State.keepsOrder (s t : State) : Prop := ∀ d, s.ordered d → t.ordered d

theorem State.keepsOrder.refl (s : State) : s.keepsOrder s := fun _ k => k

theorem State.keepsOrder.trans {s t u : State} (h : s.keepsOrder t) (k : t.keepsOrder u) : s.keepsOrder u := fun d o => k d (h d o)

/-- What the view does not show. -/
theorem State.keepsOrder.unseen {a s t : State} (h : a.keepsOrder s) (e : t.seats = s.seats) : a.keepsOrder t := fun d o => by
  unfold State.ordered
  rw [e]
  exact h d o

theorem State.keepsOrder.frame {a s t : State} (h : a.keepsOrder s) {l : List Block} (k : s.keepsBut t l)
    (hl : ∀ b ∈ [Block.pool, .arb, .soft, .mode, .door], b ∉ l := by decide) : a.keepsOrder t := h.unseen (k.seats hl)

theorem State.keepsOrder.foldl {α : Type} {a : State} (f : State → α → State) (hf : ∀ s x, a.keepsOrder s → a.keepsOrder (f s x)) :
    ∀ (l : List α) {s : State}, a.keepsOrder s → a.keepsOrder (l.foldl f s)
  | [], _, h => h
  | x :: l, _, h => State.keepsOrder.foldl f hf l (hf _ x h)

/-- Leases are let go and lists shortened, SELECTOR's lease with all that hangs on it. -/
theorem State.keepsOrder.loosens {a s t : State} (h : a.keepsOrder s) (k : s.seats.legal → Loosens s.seats t.seats ∧ Loosens.clears s.seats t.seats) :
    a.keepsOrder t := fun d o =>
  have hs := h d o
  (k hs.table.legal).1.ordered (k hs.table.legal).2 hs

/-! ### Leases and lists -/

theorem guarded_ne {r : Resource} (hg : r.guarded = true) : r ≠ .selector ∧ r ≠ .doorDrive := by
  refine ⟨?_, ?_⟩ <;> rintro rfl <;> cases hg

section Leases

variable {a s : State} (h : a.keepsOrder s)
include h

theorem withdrawFrom_keeps (who : Holder) (r : Resource) : a.keepsOrder (s.withdrawFrom who r) :=
  h.loosens fun _ => ⟨(withdrawFrom_releases s who r).loosens, Loosens.clears_of_selector (by
    rw [seats_withdrawFrom]
    by_cases hr : Resource.selector = r
    · rw [hr, Seats.put_self]
    · rw [Seats.put_ne _ hr])⟩

theorem withdraw_keeps (who : Holder) : a.keepsOrder (s.withdraw who) :=
  State.keepsOrder.foldl _ (fun _ r h => withdrawFrom_keeps h who r) _ h

theorem letGo_keeps {r : Resource} (hr : r ≠ .selector) : a.keepsOrder (s.letGo r) :=
  h.loosens fun hl => ⟨loosens_letGo s r (hl r).2, Loosens.clears_of_selector (by rw [table_of_entry (State.entry_letGo_ne s (Ne.symm hr))])⟩

theorem release_keeps {r : Resource} (hr : r ≠ .selector) : a.keepsOrder (s.release r) := by
  unfold State.release
  rw [if_neg fun c => hr c.1]
  exact letGo_keeps h hr

theorem releaseIf_keeps (who : Holder) {r : Resource} (hr : r ≠ .selector) : a.keepsOrder (s.releaseIf who r) := by
  unfold State.releaseIf
  split
  · exact release_keeps h hr
  · exact h

/-- A requester lets go of everything and waits nowhere. -/
theorem letsAll_keeps (who : Holder) : a.keepsOrder ((s.releaseAll who).withdraw who) :=
  h.loosens fun hl => ⟨(letsAll hl who).loosens, (letsAll hl who).clears hl⟩

theorem freeLease_keeps {r : Resource} (hr : r ≠ .selector) (hd : r = .doorDrive → s.door.rod.retract.map (·.1) ≠ some .lease) :
    a.keepsOrder (s.freeLease r) :=
  h.loosens fun _ => ⟨loosens_freeLease s hd, Loosens.clears_of_selector (by rw [seats_freeLease, Seats.put_ne _ (Ne.symm hr)])⟩

theorem editEntry_keeps {r : Resource} {f : Entry → Entry} (hr : r ≠ .selector) (hd : r ≠ .doorDrive)
    (hp : PlaceStep r (s.entry r).place (f (s.entry r)).place) (hl : (f (s.entry r)).place.line ⊆ (s.entry r).place.line) : a.keepsOrder (s.editEntry r f) :=
  h.loosens fun _ => by
    rw [seats_editEntry]
    exact ⟨loosens_put hp hl fun c => absurd c hd, Loosens.clears_of_selector (by rw [Seats.put_ne _ (Ne.symm hr)])⟩

theorem suspend_keeps {r : Resource} (hg : r.guarded = true) : a.keepsOrder (s.suspend r) := by
  have hne := guarded_ne hg
  unfold State.suspend
  split
  next hl =>
    have hs : a.keepsOrder (s.stopDrive r) := by
      refine h.unseen ?_
      cases r <;> rfl
    have he : (s.stopDrive r).entry r = s.entry r := by cases r <;> rfl
    refine (editEntry_keeps hs hne.1 hne.2 (.swaps hg (.inl ?_) (.inr rfl) rfl) (List.Subset.refl _)).unseen ((State.keepsBut_reportSwitching s _).seats (by decide))
    rw [he]
    exact beq_iff_eq.mp hl
  next => exact h

theorem restore_keeps {r : Resource} (hg : r.guarded = true) : a.keepsOrder (s.restore r) := by
  have hne := guarded_ne hg
  unfold State.restore
  split
  next hl => exact editEntry_keeps h hne.1 hne.2 (.swaps hg (.inr (beq_iff_eq.mp hl)) (.inl rfl) rfl) (List.Subset.refl _)
  next => exact h

theorem revoke_keeps {r : Resource} (hr : r ≠ .selector) (hd : r ≠ .doorDrive) : a.keepsOrder (s.revoke r) := by
  unfold State.revoke
  dsimp only
  refine editEntry_keeps ?_ hr hd (.same rfl rfl) (by simp [Entry.place])
  split
  · exact freeLease_keeps h hr fun c => absurd c hd
  · exact h

theorem ask_keeps {r : Resource} {who : Holder} (hm : ∀ d, s.ordered d → s.seats.mayAsk r who) (serial : Nat) (want : Option Column) :
    a.keepsOrder (s.ask r who serial want) := fun d o => by
  unfold State.ordered
  rw [seats_ask]
  exact (h d o).ask (hm d (h d o))

theorem judgeYields_keeps : a.keepsOrder (allResources.foldl State.judgeYield s) := by
  refine State.keepsOrder.foldl _ (fun s r h => h.unseen ?_) _ h
  unfold State.judgeYield
  rw [seats_editEntry]
  exact Seats.put_table _ _

end Leases

/-! ### The Dose Engine -/

section Dosing

variable {a s : State} (h : a.keepsOrder s)
include h

/-- A channel asks for a pump. -/
theorem askPump_keeps (c : ChannelId) (n : ReservoirId) : a.keepsOrder (s.ask (.dose n) (channelWho c) 0 none) :=
  ask_keeps h (fun _ _ => ⟨fun hs => absurd rfl hs, (fun e => by cases e), (fun e => by cases e), (fun e => by cases e), (fun e => by cases e)⟩) 0 none

theorem setChannel_keeps (c : ChannelId) (ch : Channel) : a.keepsOrder (s.setChannel c ch) := h.frame (s.keepsBut_setChannel c ch) (by decide)

theorem post_keeps (e : Event) (x v : Nat) : a.keepsOrder (s.post e x v) := h.frame (s.keepsBut_post e x v) (by decide)

theorem fault_keeps (k : FaultKind) (x d : Nat) : a.keepsOrder (s.fault k x d) := h.frame (s.keepsBut_fault k x d) (by decide)

theorem reply_keeps (p : Port) (tag : Nat) (o : OutcomeCode) (fields : List Byte) : a.keepsOrder (s.reply p tag o fields) :=
  h.frame (s.keepsBut_reply p tag o fields) (by decide)

theorem releasePump_keeps (c : ChannelId) (ch : Channel) : a.keepsOrder (s.releaseIf (channelWho c) (s.channelPump ch)) :=
  releaseIf_keeps h _ fun e => by cases e

theorem armedAct_keeps (c : ChannelId) : a.keepsOrder (s.armedAct c) := by
  have hask : ∀ ch x, a.keepsOrder ((s.setChannel c x).ask (s.channelPump ch) (channelWho c) 0 none) := fun ch x =>
    askPump_keeps (setChannel_keeps h c x) c _
  unfold State.armedAct
  dsimp only
  split
  · split
    · exact hask _ _
    · split
      · exact hask _ _
      · exact h
  · exact h

theorem loadDesc_keeps (c : ChannelId) (n : DescId) : a.keepsOrder (s.loadDesc c n) := armedAct_keeps (setChannel_keeps h c _) c

theorem triggerChannel_keeps (c : ChannelId) : a.keepsOrder (s.triggerChannel c) := by
  unfold State.triggerChannel
  dsimp only
  split
  · exact h
  · exact armedAct_keeps (setChannel_keeps h c _) c

theorem offerTrigger_keeps (src : TriggerSource) : a.keepsOrder (s.offerTrigger src) :=
  State.keepsOrder.foldl _ (fun s c h => by
    split
    · exact triggerChannel_keeps h c
    · exact h) _ h

theorem offerChannelDone_keeps (done : ChannelId) : a.keepsOrder (s.offerChannelDone done) :=
  State.keepsOrder.foldl _ (fun s c h => by
    dsimp only
    split
    · exact triggerChannel_keeps h c
    · exact h) _ h

theorem haltChannel_keeps (c : ChannelId) (cause : HaltCause) : a.keepsOrder (s.haltChannel c cause) := h.frame (s.keepsBut_haltChannel c cause) (by decide)

theorem haltEmpty_keeps (c : ChannelId) : a.keepsOrder (s.haltEmpty c) := haltChannel_keeps (releasePump_keeps h c _) c _

theorem channelDoorOpened_keeps (c : ChannelId) : a.keepsOrder (s.channelDoorOpened c) := by
  unfold State.channelDoorOpened
  dsimp only
  split
  · have h1 := haltChannel_keeps (setChannel_keeps h c (s.channel c).cut) c .door
    split
    · exact haltChannel_keeps (releaseIf_keeps h1 _ fun e => by cases e) c .stop
    · exact h1
  · exact h

theorem channelTripped_keeps (c : ChannelId) : a.keepsOrder (s.channelTripped c) := h.frame (s.keepsBut_channelTripped c) (by decide)

theorem strokeCut_keeps (c : ChannelId) : a.keepsOrder (s.strokeCut c) := by
  unfold State.strokeCut
  split
  · exact channelDoorOpened_keeps h c
  · exact channelTripped_keeps h c

theorem takeStroke_keeps {t : State} {n : ReservoirId} (ht : s.takeStroke n = some t) : a.keepsOrder t := by
  unfold State.takeStroke at ht
  dsimp only at ht
  split at ht
  · cases ht
  · split at ht <;> cases ht
    · exact h.frame (s.keepsBut_setReservoir n _) (by decide)
    · exact h

theorem strokeStage3_keeps (c : ChannelId) : a.keepsOrder (s.strokeStage3 c) := by
  unfold State.strokeStage3
  dsimp only
  split
  next => exact haltEmpty_keeps h c
  next t ht =>
    have h1 := takeStroke_keeps h ht
    split
    · exact (setChannel_keeps h1 c _).frame (State.keepsBut_withDrive _ _)
    · exact strokeCut_keeps (setChannel_keeps h1 c _) c

theorem strokeStart_keeps (c : ChannelId) : a.keepsOrder (s.strokeStart c) := by
  unfold State.strokeStart
  dsimp only
  split
  · exact haltEmpty_keeps h c
  · split
    · exact setChannel_keeps h c _
    · exact strokeStage3_keeps h c

theorem channelGranted_keeps (c : ChannelId) : a.keepsOrder (s.channelGranted c) := by
  unfold State.channelGranted
  split
  · exact strokeStart_keeps (setChannel_keeps h c _) c
  · exact h

theorem stopChannel_keeps (c : ChannelId) : a.keepsOrder (s.stopChannel c) := by
  have hstop := haltChannel_keeps (releasePump_keeps h c (s.channel c)) c .stop
  unfold State.stopChannel
  dsimp only
  split
  · exact h
  · exact haltChannel_keeps h c _
  · exact haltChannel_keeps (withdraw_keeps h _) c _
  · split
    · exact setChannel_keeps h c _
    · exact hstop
  · split
    · exact hstop
    · exact haltChannel_keeps h c _
    · exact h
    · exact h
    · exact h

theorem finishDesc_keeps (c : ChannelId) : a.keepsOrder (s.finishDesc c) := by
  have h1 := releasePump_keeps h c (s.channel c)
  have h2 : ∀ t : State, a.keepsOrder t → a.keepsOrder (if (s.channel c).stopPending then t.stopChannel c else t) := fun t ht => by
    split
    · exact stopChannel_keeps ht c
    · exact ht
  unfold State.finishDesc
  dsimp only
  refine h2 _ ?_
  have h3 : ∀ t : State, a.keepsOrder t → a.keepsOrder (if (s.currentDesc (s.channel c)).endReport == 1 then
      match (s.channel c).current with
      | some n => t.post .doseDescDone c.val n.val
      | none => t
    else t) := fun t ht => by
    split
    · split
      · exact post_keeps ht _ _ _
      · exact ht
    · exact ht
  refine h3 _ (offerChannelDone_keeps ?_ c)
  split
  · split
    · exact setChannel_keeps h1 c _
    · exact loadDesc_keeps h1 c _
  · exact setChannel_keeps h1 c _

theorem strokeEnded_keeps (c : ChannelId) : a.keepsOrder (s.strokeEnded c) := by
  have h1 := fun x => setChannel_keeps (releasePump_keeps h c (s.channel c)) c x
  unfold State.strokeEnded
  dsimp only
  split
  · exact h
  · split
    · exact finishDesc_keeps h c
    · split
      · exact haltChannel_keeps (h1 _) c _
      · split
        · exact armedAct_keeps (h1 _) c
        · exact setChannel_keeps h c _

theorem channelDoorClosed_keeps (c : ChannelId) : a.keepsOrder (s.channelDoorClosed c) := by
  unfold State.channelDoorClosed
  dsimp only
  split
  · exact strokeStart_keeps (setChannel_keeps h c _) c
  · exact h

theorem returnChannel_keeps (c : ChannelId) : a.keepsOrder (s.returnChannel c) := armedAct_keeps (setChannel_keeps h c _) c

theorem refillChannels_keeps (n : ReservoirId) : a.keepsOrder (s.refillChannels n) :=
  State.keepsOrder.foldl _ (fun s c h => by
    dsimp only
    split
    · exact returnChannel_keeps h c
    · exact h) _ h

theorem waterChannels_keeps : a.keepsOrder s.waterChannels := by
  unfold State.waterChannels
  split
  · refine State.keepsOrder.foldl _ (fun s c h => ?_) _ h
    dsimp only
    split
    · exact strokeStage3_keeps h c
    · exact h
  · exact h

theorem yieldChannel_keeps (c : ChannelId) : a.keepsOrder (s.yieldChannel c) :=
  askPump_keeps (setChannel_keeps (release_keeps h (r := s.channelPump (s.channel c)) fun e => nomatch e) c _) c _

end Dosing

end Sys2Proof.Machine

/-! The softener's work keeps the order: the queue, the columns, the fill positions (R54 to R62). -/

namespace Sys2Proof.Machine

/-! ### The view under the softener's changes -/

theorem seats_setQueue (s : State) (q : List QueueEntry) :
    (s.setQueue q).seats = { s.seats with queue := q.map fun q => (q.column, q.requester) } := rfl

theorem seats_setRegen (s : State) (g : Option Regen) : (s.setRegen g).seats = { s.seats with regen := g.map Regen.stage } := rfl

theorem seats_setColumn (s : State) (c : Column) (r : ColumnRec) :
    (s.setColumn c r).seats = { s.seats with col := fun x => if x = c then r.marked else s.seats.col x } := by
  have hcol : (s.setColumn c r).seats.col = fun x => if x = c then r.marked else s.seats.col x := by
    funext x
    show ((s.setColumn c r).column x).marked = if x = c then r.marked else (s.column x).marked
    rw [State.column_setColumn]
    split <;> rfl
  rw [← hcol]
  cases c <;> rfl

/-- A column's record replaced by one of the same state and mark. -/
theorem seats_setColumn_same (s : State) {c : Column} {r : ColumnRec} (h : r.marked = (s.column c).marked) : (s.setColumn c r).seats = s.seats := by
  rw [seats_setColumn]
  have : (fun x => if x = c then r.marked else s.seats.col x) = s.seats.col := by
    funext x
    split
    next e => rw [e]; exact h
    next => rfl
  rw [this]

/-- What the softener's work can change of the view. -/
theorem State.keepsBut.softSeats {s t : State} {l : List Block} (h : s.keepsBut t l)
    (hl : ∀ b ∈ [Block.pool, .arb, .mode, .door], b ∉ l := by decide) :
    t.seats = { s.seats with regen := t.seats.regen, queue := t.seats.queue, col := t.seats.col } := by
  unfold State.seats State.entry
  rw [h.pool (hl _ (by decide)), h.arb (hl _ (by decide)), show t.mode = s.mode from h .mode (hl _ (by decide)), h.door (hl _ (by decide))]

/-! ### The queue (R61) -/

/-- A queue that the order allows beside the regeneration in progress: no other entries of a REGENERATE than there were. -/
structure Seats.lined (a : Seats) (q : List (Column × Option (Port × SlotId))) : Prop where
  named : ∀ c r, (c, some r) ∈ q → (c, some r) ∈ a.queue
  nodup : (q.map (·.1)).Nodup
  apart : ∀ g, a.regen = some g → ∀ e ∈ q, e.1 ≠ g.column

theorem Seats.ordered.lined {a : Seats} {d : Option SlotId} (k : a.ordered d) : a.lined a.queue := ⟨fun _ _ h => h, k.soft.nodup, k.soft.apart⟩

theorem isQueued_false_seats {s : State} {c : Column} (h : s.isQueued c = false) : ∀ e ∈ s.seats.queue, e.1 ≠ c := fun e he => by
  obtain ⟨q, hq, rfl⟩ := List.mem_map.mp he
  exact isQueued_false h q hq

theorem Seats.lined.append {a : Seats} {q : List (Column × Option (Port × SlotId))} (h : a.lined q) {c : Column} (hc : ∀ e ∈ q, e.1 ≠ c)
    (hr : ∀ g, a.regen = some g → c ≠ g.column) : a.lined (q ++ [(c, none)]) where
  named x r hx := by
    rcases List.mem_append.mp hx with hx | hx
    · exact h.named x r hx
    · simp at hx
  nodup := by
    rw [List.map_append, List.nodup_append]
    refine ⟨h.nodup, by simp, fun x hx y hy => ?_⟩
    simp only [List.map_cons, List.map_nil, List.mem_singleton] at hy
    obtain ⟨e, he, rfl⟩ := List.mem_map.mp hx
    rw [hy]
    exact hc e he
  apart g hg e he := by
    rcases List.mem_append.mp he with he | he
    · exact h.apart g hg e he
    · rw [List.mem_singleton.mp he]
      exact hr g hg

theorem Seats.lined.cons {a : Seats} {q : List (Column × Option (Port × SlotId))} (h : a.lined q) {c : Column} (hc : ∀ e ∈ q, e.1 ≠ c)
    (hr : ∀ g, a.regen = some g → c ≠ g.column) : a.lined ((c, none) :: q) where
  named x r hx := by
    rcases List.mem_cons.mp hx with hx | hx
    · cases hx
    · exact h.named x r hx
  nodup := by
    rw [List.map_cons, List.nodup_cons]
    refine ⟨fun hx => ?_, h.nodup⟩
    obtain ⟨e, he, hec⟩ := List.mem_map.mp hx
    exact hc e he hec
  apart g hg e he := by
    rcases List.mem_cons.mp he with rfl | he
    · exact hr g hg
    · exact h.apart g hg e he

theorem joinTail_lined {s : State} {c : Column} (h : s.seats.lined s.seats.queue) : s.seats.lined (s.joinTail c).seats.queue := by
  unfold State.joinTail
  split
  next => exact h
  next hn =>
    simp only [Bool.or_eq_true, not_or, Bool.not_eq_true] at hn
    have := h.append (c := c) (isQueued_false_seats hn.1) fun g hg => by
      obtain ⟨x, hx, rfl⟩ := seats_regen_eq_some.mp hg
      exact (regenOf_false hn.2 x hx).symm
    rw [seats_setQueue, List.map_append]
    exact this

theorem joinHead_lined {s : State} {c : Column} (h : s.seats.lined s.seats.queue) (hr : s.soft.regen = none) : s.seats.lined (s.joinHead c).seats.queue := by
  unfold State.joinHead
  split
  next => exact h
  next hn =>
    rw [Bool.not_eq_true] at hn
    refine h.cons (c := c) (isQueued_false_seats hn) fun g hg => ?_
    obtain ⟨x, hx, rfl⟩ := seats_regen_eq_some.mp hg
    rw [hr] at hx
    cases hx

theorem queueOut_lined {s : State} {c : Column} (h : s.seats.lined s.seats.queue) :
    s.seats.lined ((s.queueOut c).map fun q => (q.column, q.requester)) := by
  have hq : (if s.cfg.autoRegen then s.joinTail c else s).seats.queue = (s.setQueue (s.queueOut c)).seats.queue := by rw [joinTail_queue]
  rw [seats_setQueue] at hq
  dsimp only at hq
  rw [← hq]
  split
  · exact joinTail_lined h
  · exact h

/-- The queue replaced. -/
theorem Seats.ordered.requeue {a : Seats} {d : Option SlotId} (k : a.ordered d) {q : List (Column × Option (Port × SlotId))} (h : a.lined q) :
    ({ a with queue := q } : Seats).ordered d :=
  have hr : Restocks a { a with queue := q } := ⟨rfl, fun _ => .rfl, k.soft.standby, fun c i hm => ⟨(k.soft.marked c i hm).1, .inl hm⟩,
    fun c _ _ hm => .inl (h.named c _ hm), k.soft.quiet, h.nodup, h.apart⟩
  hr.ordered k

section Queue

variable {a s : State} (h : a.keepsOrder s)
include h

theorem joinTail_keeps (c : Column) : a.keepsOrder (s.joinTail c) := fun d o => by
  have k := h d o
  have he : (s.joinTail c).seats = { s.seats with queue := (s.joinTail c).seats.queue } := by
    unfold State.joinTail
    split <;> rfl
  unfold State.ordered
  rw [he]
  exact k.requeue (joinTail_lined k.lined)

theorem queueExhausted_keeps : a.keepsOrder s.queueExhausted := by
  have h1 : a.keepsOrder (if s.soft.colA.state == .exhausted then s.joinTail .a else s) := by
    split
    · exact joinTail_keeps h .a
    · exact h
  unfold State.queueExhausted
  dsimp only
  generalize (if s.soft.colA.state == .exhausted then s.joinTail .a else s) = t at h1 ⊢
  split
  · exact joinTail_keeps h1 .b
  · exact h1

/-! ### The head of the queue (R62, R63) -/

theorem takeHead_keeps : a.keepsOrder s.takeHead := fun d o => by
  have k := h d o
  unfold State.takeHead
  split
  next => exact k
  next q rest hq =>
    split
    next hr =>
      obtain ⟨hmode, hreg, -⟩ : s.mode = .run ∧ s.soft.regen = none ∧ True := by
        simp only [State.headReady, Bool.and_eq_true, beq_iff_eq, Option.isNone_iff_eq_none] at hr
        exact ⟨hr.1.1.1, hr.1.1.2, trivial⟩
      split
      next =>
        split
        · exact k
        · exact k
      next =>
        have hk := k.taken (q := (q.column, q.requester)) (rest := rest.map fun q => (q.column, q.requester)) (by
          show s.soft.queue.map _ = _
          rw [hq]
          rfl) (by show s.soft.regen.map _ = _; rw [hreg]; rfl) hmode
        obtain ⟨u, hu⟩ : ∃ u, u = (s.setQueue rest).setRegen (some (freshRegen q)) := ⟨_, rfl⟩
        have hus : u.seats = { s.seats with regen := some ⟨q.column, q.requester, .starting⟩, queue := rest.map fun q => (q.column, q.requester) } := by
          rw [hu, seats_setRegen, seats_setQueue]
          rfl
        rw [← hu]
        rw [← hus] at hk
        have hg : u.seats.regen = some (freshRegen q).stage := by rw [hus]; rfl
        refine ask_keeps (State.keepsOrder.refl u) (fun d' k' => ?_) _ _ d hk
        rw [regenWho_stage]
        refine ⟨fun hs => ?_, fun _ => ⟨.inr ⟨_, hg, rfl, fun c => by cases c⟩, fun c => absurd c (k'.soft.regen_not_fills hg), fun i x hx ho hk2 c => ?_⟩,
          (fun c => by cases c), (fun c => by cases c), fun c => by cases c⟩
        · unfold Stage.who at hs ⊢
          cases hrq : (freshRegen q).stage.requester with
          | none => rw [hrq] at hs; exact absurd rfl hs
          | some pi =>
            obtain ⟨x, hx, ho, hp, hkx⟩ := k'.soft.asked _ pi.1 pi.2 hg hrq
            refine ⟨pi.2, x, ?_, hx, ho, by rw [hkx]; exact List.mem_cons_self⟩
            unfold Seat.who
            rw [hkx, hp]
        · exact k'.soft.regen_not_fills hg (c ▸ ⟨i, x, true, rfl, hx, ho, hk2⟩)
    next => exact k

end Queue

end Sys2Proof.Machine

/-! The work of the fills on the path keeps the order: positions, waits, and the switch-over (R35, R57 to R60). -/

namespace Sys2Proof.Machine

/-! ### A FILL in the view -/

theorem fills_of_fillAt {s : State} {i : SlotId} {sl : Slot} {w : FillWork} (h : s.fillAt i = some (sl, w)) : s.seats.fills (slotWho i sl) := by
  obtain ⟨hp, hw, ho⟩ := fillAt_eq_some.mp h
  exact ⟨i, sl.seat, w.waitSoft, slotWho_seat i sl, seats_op hp, (seat_fixed sl).mpr ho, by rw [Slot.seat, hw]; rfl⟩

theorem kind_of_fillAt {s : State} {i : SlotId} {sl : Slot} {w : FillWork} (h : s.fillAt i = some (sl, w)) : sl.seat.kind = .fill w.waitSoft := by
  obtain ⟨-, hw, -⟩ := fillAt_eq_some.mp h
  rw [Slot.seat, hw]
  rfl

theorem Seats.fills.works {a : Seats} {h : Holder} (k : a.fills h) {r : Resource} (hr : r = .selector ∨ r = .inlet) : a.works r h := by
  obtain ⟨i, x, soft, rfl, hx, ho, hk⟩ := k
  refine ⟨i, x, rfl, hx, ho, ?_⟩
  rw [hk]
  rcases hr with rfl | rfl <;> simp [WorkKind.resources]

/-- The requester neither holds SELECTOR nor waits for it. -/
def Seats.offPath (a : Seats) (h : Holder) : Prop := h ∉ (a.table .selector).line ∧ (a.table .selector).holder ≠ some h

/-- A FILL's work replaced; into WAIT_SOFT off the path. -/
theorem Seats.ordered.setFill {s : State} {d : Option SlotId} (k : s.seats.ordered d) {i : SlotId} {sl : Slot} {w : FillWork} (h : s.fillAt i = some (sl, w))
    (w' : FillWork) (hw : w'.waitSoft = true → w.waitSoft = true ∨ s.seats.offPath (slotWho i sl)) : (s.setWork i (.fill w')).ordered d := by
  obtain ⟨hp, hwork, ho⟩ := fillAt_eq_some.mp h
  have hseat := seats_setWork hp (.fill w')
  have hop : ∀ {j x}, (s.setWork i (.fill w')).seats.op j = some x → (j = i ∧ x = { sl.seat with kind := .fill w'.waitSoft }) ∨ (j ≠ i ∧ s.seats.op j = some x) :=
    fun {j x} hx => by
      rw [hseat] at hx
      by_cases hj : j = i
      · rw [hj, Seats.op_seat_self] at hx
        exact .inl ⟨hj, (Option.some.inj hx).symm⟩
      · rw [Seats.op_seat_ne _ hj] at hx
        exact .inr ⟨hj, hx⟩
  refine Proceeds.ordered ⟨goesOn_fillWork h w', ?_, fun j x dry phase back hx ho' hk hl => ?_, fun j x dry phase back hx ho' hk => ?_, fun j x hx ho' hk => ?_⟩ k
  · rw [hseat]
    rfl
  · rcases hop hx with ⟨rfl, rfl⟩ | ⟨-, hx⟩
    · cases hk
    · exact k.table.doorLine j x dry phase back hx ho' hk hl
  · rcases hop hx with ⟨rfl, rfl⟩ | ⟨-, hx⟩
    · cases hk
    · exact k.table.doorHeld j x dry phase back hx ho' hk
  · rcases hop hx with ⟨rfl, rfl⟩ | ⟨-, hx⟩
    · have hwho : Seat.who j { sl.seat with kind := .fill w'.waitSoft } = slotWho j sl := by
        rw [slotWho_seat, seat_who_fill (kind_of_fillAt h)]
        exact seat_who_fill rfl
      rw [hwho]
      rcases hw (WorkKind.fill.inj hk) with hsoft | hoff
      · rw [slotWho_seat]
        exact k.table.softWaits j sl.seat (seats_op hp) ho' (by rw [kind_of_fillAt h, hsoft])
      · exact hoff
    · exact k.table.softWaits j x hx ho' hk

/-! ### Positions (R57) -/

/-- No FILL's position is a column that regenerates. -/
theorem fillPosition_not_regenerating {s : State} {d : Option SlotId} (k : s.ordered d) (hm : s.mode = .run) {who : Holder} {c : Column}
    (h : s.fillPosition who = some c) : (s.column c).state ≠ .regenerating := by
  unfold State.fillPosition at h
  split at h
  next c' hc =>
    cases h
    rw [State.inService_state hc]
    decide
  next hn =>
    have hno : ∀ c, (s.column c).state ≠ .inService := fun c e => by
      have hin := beq_iff_eq.mpr e
      unfold State.inService at hn
      split at hn
      next => cases hn
      next ha =>
        split at hn
        next => cases hn
        next hb =>
          cases c
          · exact ha hin
          · exact hb hin
    have hstand : ∀ c, (s.column c).state ≠ .standby := fun c e => hno _ (k.soft.standby hm c e)
    have hcases : ∀ c, (s.column c).state = .exhausted ∨ (s.column c).state = .regenerating := fun c => by
      cases hc : (s.column c).state with
      | inService => exact absurd hc (hno c)
      | standby => exact absurd hc (hstand c)
      | exhausted => exact .inl rfl
      | regenerating => exact .inr rfl
    have hother : (s.column (if s.soft.colA.state == .exhausted then Column.a else .b)).state ≠ .regenerating := by
      split
      next he =>
        rw [show (s.column .a).state = .exhausted from beq_iff_eq.mp he]
        decide
      next he =>
        have ha : (s.column .a).state = .regenerating := (hcases .a).resolve_left fun e => he (beq_iff_eq.mpr e)
        intro hb
        obtain ⟨g, hg, hga, -⟩ := (k.soft.regenerating .a).mp ha
        obtain ⟨g', hg', hgb, -⟩ := (k.soft.regenerating .b).mp hb
        rw [hg] at hg'
        cases hg'
        rw [hga] at hgb
        cases hgb
    split at h
    next =>
      split at h
      next he =>
        cases h
        simp only [Bool.and_eq_true, beq_iff_eq] at he
        rw [he.2]
        decide
      next =>
        dsimp only at h
        split at h
        next c' hc =>
          cases h
          split
          next he => rw [beq_iff_eq.mp he]; decide
          next => exact hother
        next =>
          cases h
          exact hother
    next => cases h

/-- Where an operation is in progress the part is in RUN. -/
theorem Seats.ordered.run {a : Seats} {d : Option SlotId} (k : a.ordered d) {i : SlotId} {x : Seat} (h : a.op i = some x) : a.mode = .run := by
  cases hm : a.mode with
  | run => rfl
  | setup =>
    have := (k.soft.quiet hm).1 i
    rw [h] at this
    cases this

/-! ### INLET asked for (R25, R35) -/

/-- A FILL asks for INLET, where it has SELECTOR HELD at a column that does not regenerate. -/
theorem Seats.ordered.fillAsksInlet {a : Seats} {d : Option SlotId} (k : a.ordered d) {h : Holder} (hf : a.fills h) (hs : a.atSelector h)
    (hi : (a.table .inlet).holder ≠ some h) (hc : (a.col a.selHeld).state ≠ .regenerating) : (a.asked .inlet h).ordered d :=
  k.ask ⟨fun _ => hf.works (.inr rfl), (fun e => by cases e), fun _ => ⟨hs, hi, fun _ => hc, fun hb => by
    obtain ⟨⟨-, g, hg, e, -⟩, -⟩ := k.table.brineLine h hb
    exact k.soft.regen_not_fills hg (e ▸ hf)⟩, (fun e => by cases e), fun e => by cases e⟩

theorem seats_changePosition (s : State) (c : Column) : (s.changePosition c).seats =
    if (s.entry .selector).lease ≠ .held ∨ s.hasHolder .inlet = true then s.seats
    else if s.arb.selCurrent = some c then { s.seats with selHeld := c }
    else { s.seats.put .selector ⟨.moving, (s.seats.table .selector).holder, (s.seats.table .selector).line⟩ with selHeld := c, selCurrent := none } := by
  unfold State.changePosition
  split
  · rfl
  · split
    · rfl
    · rw [seats_editEntry]
      rfl

/-- A FILL that has SELECTOR HELD, and does not hold or wait for INLET, asks for a position. -/
theorem toInlet_ordered {s : State} {d : Option SlotId} (k : s.ordered d) {who : Holder} (hf : s.seats.fills who) (hs : s.seats.atSelector who)
    (hi : (s.seats.table .inlet).holder ≠ some who) (hl : who ∉ (s.seats.table .inlet).line) {c : Column} (hc : (s.column c).state ≠ .regenerating) (serial : Nat) :
    (s.toInlet who serial c).ordered d := by
  have hno : (s.seats.table .inlet).holder = none := by
    by_contra e
    obtain ⟨x, hx⟩ := Option.ne_none_iff_exists'.mp e
    have := (k.table.inlet_selector hx).2.symm.trans hs.2
    cases this
    exact hi hx
  have hcond : ¬((s.entry .selector).lease ≠ .held ∨ s.hasHolder .inlet = true) := fun e => e.elim (fun e => e hs.1) fun e => by
    rw [State.hasHolder, bne_iff_ne] at e
    exact e ((k.table.legal .inlet).1.mpr hno)
  have hseats := seats_changePosition s c
  rw [if_neg hcond] at hseats
  unfold State.toInlet
  dsimp only
  by_cases hcur : s.arb.selCurrent = some c
  · rw [if_pos hcur] at hseats
    have hpos : s.arb.selCurrent = some s.arb.selHeld := k.table.position hs.1
    have hsame : (s.changePosition c).seats = s.seats := by
      rw [hseats, show c = s.seats.selHeld from Option.some.inj (hcur.symm.trans hpos)]
    have hlease : ((s.changePosition c).entry .selector).lease = .held := (congrArg (fun a : Seats => (a.table .selector).lease) hsame).trans hs.1
    rw [if_pos (by rw [hlease]; rfl)]
    unfold State.ordered
    rw [seats_ask, hsame]
    refine k.fillAsksInlet hf hs hi ?_
    show (s.column s.arb.selHeld).state ≠ _
    rw [← Option.some.inj (hcur.symm.trans hpos)]
    exact hc
  · rw [if_neg hcur] at hseats
    have hlease : ((s.changePosition c).entry .selector).lease = .moving := by
      have := congrArg (fun a : Seats => (a.table .selector).lease) hseats
      exact this.trans (by dsimp only; rw [Seats.put_self])
    rw [if_neg (by rw [hlease]; decide)]
    unfold State.ordered
    rw [hseats]
    exact k.moves hs hf hi hl c

/-! ### WAIT_SOFT (R35, R58, R60) -/

/-- A requester that leaves the lists leaves the leases. -/
theorem lease_withdraw (s : State) (who : Holder) (r : Resource) :
    ((s.withdraw who).seats.table r).lease = (s.seats.table r).lease ∧ ((s.withdraw who).seats.table r).holder = (s.seats.table r).holder := by
  have key : ∀ (l : List Resource) (s : State), ((l.foldl (fun s r => s.withdrawFrom who r) s).seats.table r).lease = (s.seats.table r).lease ∧
      ((l.foldl (fun s r => s.withdrawFrom who r) s).seats.table r).holder = (s.seats.table r).holder := fun l => by
    induction l with
    | nil => exact fun _ => ⟨rfl, rfl⟩
    | cons q l ih =>
      intro s
      obtain ⟨h1, h2⟩ := ih (s.withdrawFrom who q)
      have hq : ((s.withdrawFrom who q).seats.table r).lease = (s.seats.table r).lease ∧ ((s.withdrawFrom who q).seats.table r).holder = (s.seats.table r).holder := by
        rw [seats_withdrawFrom]
        by_cases hr : r = q
        · rw [hr, Seats.put_self]
          exact ⟨rfl, rfl⟩
        · rw [Seats.put_ne _ hr]
          exact ⟨rfl, rfl⟩
      exact ⟨h1.trans hq.1, h2.trans hq.2⟩
  unfold State.withdraw
  exact key allResources s

/-- A FILL lets INLET go and then SELECTOR, and waits for neither. -/
theorem pathLeft {s : State} {d : Option SlotId} (k : s.ordered d) {who : Holder} (hf : s.seats.fills who) :
    (((s.withdraw who).releaseIf who .inlet).releaseIf who .selector).ordered d ∧
      (((s.withdraw who).releaseIf who .inlet).releaseIf who .selector).seats.offPath who := by
  obtain ⟨h1, hl1⟩ := withdraw_releases s who
  have hleg1 := h1.loosens.legal k.table.legal
  obtain ⟨h2, hi2⟩ := releaseIf_releases hleg1 who .inlet
  have hleg2 := h2.loosens.legal hleg1
  obtain ⟨h3, hs3⟩ := releaseIf_releases hleg2 who .selector
  have hleg3 := h3.loosens.legal hleg2
  have h := (h1.trans h2).trans h3
  obtain ⟨t, ht⟩ : ∃ t, t = ((s.withdraw who).releaseIf who .inlet).releaseIf who .selector := ⟨_, rfl⟩
  rw [← ht] at h h3 hs3 hleg3 ⊢
  have hline : ∀ r, who ∉ (t.seats.table r).line := fun r hx => hl1 r ((h2.trans h3).loosens.line r hx)
  have hover : ∀ {r : Resource}, (t.seats.table r).over who → r.allows .releasing = false → (t.seats.table r).holder ≠ some who := fun {r} ho hr e => by
    have := (hleg3 r).2
    rw [ho e, hr] at this
    cases this
  have hbrine : (t.seats.table .brine).holder ≠ some who := fun e => by
    obtain ⟨-, g, hg, hw, -⟩ := k.table.brine who ((h.loosens.place .brine).holder e)
    exact k.soft.regen_not_fills hg (hw ▸ hf)
  refine ⟨h.loosens.ordered (h.clears fun _ => ⟨hline _, hline _, hbrine, hover ((h3.loosens.place .inlet).over hi2) rfl⟩) k, hline _, hover hs3 rfl⟩

section Fills

variable {a s : State} (h : a.keepsOrder s)
include h

theorem enterWaitSoft_keeps (i : SlotId) : a.keepsOrder (s.enterWaitSoft i) := fun d o => by
  have k := h d o
  unfold State.enterWaitSoft
  split
  next sl w hat =>
    obtain ⟨h1, h2⟩ := pathLeft k (fills_of_fillAt hat)
    dsimp only
    obtain ⟨t, ht⟩ : ∃ t, t = ((s.withdraw (slotWho i sl)).releaseIf (slotWho i sl) .inlet).releaseIf (slotWho i sl) .selector := ⟨_, rfl⟩
    have hpool : t.pool = s.pool := by
      rw [ht, (State.keepsBut_releaseIf _ _ _).pool (by decide), (State.keepsBut_releaseIf _ _ _).pool (by decide), (State.keepsBut_withdraw _ _).pool (by decide)]
    rw [← ht] at h1 h2 ⊢
    exact Seats.ordered.setFill h1 ((fillAt_congr (by rw [hpool])).trans hat) _ fun _ => .inr h2
  next => exact k

end Fills

/-- A FILL off the path asks for SELECTOR, or enters WAIT_SOFT. -/
theorem fillAsks_ordered {s : State} {d : Option SlotId} (k : s.ordered d) {i : SlotId}
    (h : ∀ sl w, s.fillAt i = some (sl, w) → s.seats.offPath (slotWho i sl)) : (s.fillAsks i).ordered d := by
  unfold State.fillAsks
  split
  next sl w hat =>
    have hoff := h sl w hat
    dsimp only
    split
    next c hc =>
      obtain ⟨hp, hwork, ho⟩ := fillAt_eq_some.mp hat
      obtain ⟨t, ht⟩ : ∃ t, t = s.setWork i (.fill { w with waitSoft := false }) := ⟨_, rfl⟩
      have h1 : t.ordered d := ht ▸ Seats.ordered.setFill k hat _ (fun e => by cases e)
      have hslot : t.pool[i] = some { sl with work := .fill { w with waitSoft := false } } := by
        rw [ht, State.setWork_held hp]
        exact State.pool_setSlot_self _ _ _
      have hat' : t.fillAt i = some ({ sl with work := .fill { w with waitSoft := false } }, { w with waitSoft := false }) := fillAt_eq hslot rfl ho
      have hwho : slotWho i { sl with work := .fill { w with waitSoft := false } } = slotWho i sl := by
        rw [slotWho_fill (sl := { sl with work := .fill { w with waitSoft := false } }) rfl, slotWho_fill hwork]
      have hfills := fills_of_fillAt hat'
      rw [hwho] at hfills
      rw [← ht]
      unfold State.ordered
      rw [seats_ask]
      have htab : t.seats.table .selector = s.seats.table .selector := by
        rw [ht]
        exact line_setWork s i _ _
      refine Seats.ordered.ask h1 ⟨fun _ => hfills.works (.inl rfl), fun _ => ⟨.inl hfills, fun _ => by rw [htab]; exact hoff.2, fun j x hx ho' hk e => ?_⟩,
        (fun e => by cases e), (fun e => by cases e), fun e => by cases e⟩
      have hj : i = j := by
        have := congrArg Holder.slot e
        rw [Seat.who_slot, slotWho_seat, Seat.who_slot] at this
        exact Option.some.inj this
      rw [← hj, seats_op hslot] at hx
      cases hx
      cases hk
    next => exact Seats.ordered.setFill k hat _ fun _ => .inr hoff
  next => exact k

section Judging

variable {a s : State} (h : a.keepsOrder s)
include h

theorem judgeFill_keeps (i : SlotId) : a.keepsOrder (s.judgeFill i) := fun d o => by
  have k := h d o
  unfold State.judgeFill
  split
  next => exact k
  next sl w hat =>
    obtain ⟨hp, hwork, ho⟩ := fillAt_eq_some.mp hat
    have hf := fills_of_fillAt hat
    dsimp only
    split
    next hsoft =>
      split
      next =>
        refine fillAsks_ordered k fun sl' w' e => ?_
        rw [hat] at e
        cases e
        rw [slotWho_seat]
        exact k.table.softWaits i sl.seat (seats_op hp) ((seat_fixed sl).mpr ho) (by rw [kind_of_fillAt hat, hsoft])
      next => exact k
    next =>
      split
      next =>
        split
        next c hc =>
          unfold State.rewriteWant
          dsimp only
          unfold State.ordered
          rw [seats_putEntry]
          have hsame : (Entry.place { s.entry .selector with waiters := (s.entry .selector).waiters.map fun w =>
              if (w.who == slotWho i sl) = true then { w with want := some c } else w }) = s.seats.table .selector := by
            show Place.mk _ _ _ = Place.mk _ _ _
            congr 1
            rw [List.map_map]
            refine List.map_congr_left fun x _ => ?_
            show (if x.who == slotWho i sl then _ else _ : Waiter).who = _
            split <;> rfl
          rw [hsame, Seats.put_table]
          exact k
        next => exact enterWaitSoft_keeps (.refl s) i d k
      next =>
        split
        next hheld =>
          split
          next => exact enterWaitSoft_keeps (.refl s) i d k
          next c hc =>
            split
            next => exact k
            next hno =>
              simp only [Bool.or_eq_true, not_or, Bool.not_eq_true] at hno
              have hk1 := withdraw_keeps (.refl s) (slotWho i sl) d k
              obtain ⟨hrel, hline⟩ := withdraw_releases s (slotWho i sl)
              have kw := s.keepsBut_withdraw (slotWho i sl)
              have hstand := lease_withdraw s (slotWho i sl) .selector
              refine toInlet_ordered hk1 ((Seats.fills_congr hrel.loosens.op _).mpr hf) ?_ (fun e => ?_) (hline _) ?_ _
              · obtain ⟨h1, h2⟩ := (holdsHeld_iff s _ _).mp hheld
                exact ⟨hstand.1.trans h1, hstand.2.trans h2⟩
              · have := (hrel.loosens.place .inlet).holder e
                exact ((holds_false_iff_holder k.table.legal _ _).mp hno.1) this
              · rw [State.column_congr kw.soft]
                exact fillPosition_not_regenerating k (k.run (seats_op hp)) hc
        next => exact k

theorem judgeFills_keeps (but : Option SlotId) : a.keepsOrder (s.judgeFills but) :=
  State.keepsOrder.foldl _ (fun s i h => by
    split
    · exact h
    · exact judgeFill_keeps h i) _ h

end Judging

end Sys2Proof.Machine

/-! The columns keep the order: exhausted, charged and marked (R54 to R56); and a FILL or a regeneration on the path (R19, R25, R35, R59). -/

namespace Sys2Proof.Machine

/-! ### A column out (R55) -/

theorem columnOut_ordered {s : State} {d : Option SlotId} (k : s.ordered d) {c : Column} (hc : (s.column c).state = .inService) (value : Nat) :
    (s.columnOut c value).ordered d := by
  have hout := columnOut_out s c value
  have hframe : (s.columnOut c value).seats = { s.seats with
      queue := (s.queueOut c).map fun q => (q.column, q.requester), col := (s.columnOut c value).seats.col } := by
    rw [hout.frame.softSeats]
    unfold State.seats
    rw [hout.queue, hout.regen]
  have hcol : ∀ x, (s.columnOut c value).seats.col x = if x = c then ⟨.exhausted, none⟩ else
      { s.seats.col x with state := if (s.column x).state = .standby then .inService else (s.column x).state } := fun x => by
    show ((s.columnOut c value).column x).marked = _
    split
    next e =>
      rw [e, hout.column]
      rfl
    next e =>
      obtain rfl : x = Column.other c := by cases x <;> cases c <;> simp_all [Column.other]
      rw [hout.other]
      rfl
  have hlined := queueOut_lined (c := c) k.lined
  have hr : Restocks s.seats (s.columnOut c value).seats := by
    refine ⟨?_, fun x => ?_, fun _ x => ?_, fun x i => ?_, fun x p i hx => .inl ?_, fun hm => ?_, ?_, fun g hg => ?_⟩
    · rw [hframe]
    · rw [hcol]
      show _ ↔ (s.column x).state = _
      split
      next e =>
        rw [e, hc]
        simp
      next =>
        dsimp only
        split
        next e =>
          rw [e]
          simp
        next => exact .rfl
    · rw [hcol]
      split
      next => exact fun e => by cases e
      next =>
        dsimp only
        split
        next => exact fun e => by cases e
        next hne => exact fun e => absurd e hne
    · rw [hcol]
      split
      next => exact fun e => by cases e
      next =>
        dsimp only
        intro hm
        have hin := (k.soft.marked x i hm).1
        refine ⟨?_, .inl hm⟩
        rw [if_neg (by rw [show (s.column x).state = _ from hin]; decide)]
        exact hin
    · rw [hframe] at hx
      exact hlined.named x _ hx
    · rw [hframe] at hm
      exact k.soft.quiet hm
    · rw [hframe]
      exact hlined.nodup
    · rw [hframe]
      exact hlined.apart g hg
  exact hr.ordered k

theorem exhaustColumn_ordered {s : State} {d : Option SlotId} (k : s.ordered d) {c : Column} (hc : (s.column c).state = .inService) (value : Nat)
    (but : Option SlotId) : (s.exhaustColumn c value but).ordered d := by
  rw [exhaustColumn_eq]
  exact takeHead_keeps (judgeFills_keeps (.refl _) but) d (columnOut_ordered k hc value)

/-! ### Columns after an exhaustion -/

theorem column_takeHead (s : State) (c : Column) : s.takeHead.column c = s.column c := by
  unfold State.takeHead
  split
  next => rfl
  next q rest hq =>
    split
    next =>
      split
      next =>
        split
        next => rfl
        next => exact State.column_congr ((State.keepsBut_post _ _ _ _).soft (by decide)) c
      next =>
        unfold State.regenAsks
        rw [State.column_congr ((State.keepsBut_ask _ _ _ _ _).soft (by decide))]
        cases c <;> rfl
    next => rfl

theorem column_exhaustColumn (s : State) (c : Column) (value : Nat) (but : Option SlotId) (x : Column) :
    (s.exhaustColumn c value but).column x = (s.columnOut c value).column x := by
  rw [exhaustColumn_eq, column_takeHead, State.column_congr ((State.keepsBut_judgeFills _ _).soft (by decide))]

theorem mark_exhaustColumn (s : State) (c : Column) (value : Nat) (but : Option SlotId) (x : Column) :
    ((s.exhaustColumn c value but).column x).breakthrough = if x = c then none else (s.column x).breakthrough := by
  have hout := columnOut_out s c value
  rw [column_exhaustColumn]
  split
  next e => rw [e, hout.column]
  next e =>
    obtain rfl : x = Column.other c := by cases x <;> cases c <;> simp_all [Column.other]
    rw [hout.other]

/-- The mark of a column names nobody but where it is in service. -/
theorem inService_of_mark {s : State} {d : Option SlotId} (k : s.ordered d) {c : Column} {i : SlotId} (h : (s.column c).breakthrough = some i) :
    (s.column c).state = .inService :=
  (k.soft.marked c i h).1

theorem takeBreakthrough_ordered {s : State} {d : Option SlotId} (k : s.ordered d) (i : SlotId) : (s.takeBreakthrough i).ordered d := by
  have h1 : (if s.soft.colA.breakthrough = some i then s.exhaustColumn .a 1 none else s).ordered d := by
    split
    next e => exact exhaustColumn_ordered k (inService_of_mark (c := .a) k e) _ _
    next => exact k
  unfold State.takeBreakthrough
  dsimp only
  generalize (if s.soft.colA.breakthrough = some i then s.exhaustColumn .a 1 none else s) = t at h1 ⊢
  split
  next e => exact exhaustColumn_ordered h1 (inService_of_mark (c := .b) h1 e) _ _
  next => exact h1

theorem takeBreakthrough_unmarks (s : State) (i : SlotId) (c : Column) : ((s.takeBreakthrough i).column c).breakthrough ≠ some i := by
  have h1 : ((if s.soft.colA.breakthrough = some i then s.exhaustColumn .a 1 none else s).column .a).breakthrough ≠ some i := by
    split
    next =>
      rw [mark_exhaustColumn, if_pos rfl]
      exact fun e => by cases e
    next e => exact e
  unfold State.takeBreakthrough
  dsimp only
  generalize (if s.soft.colA.breakthrough = some i then s.exhaustColumn .a 1 none else s) = t at h1 ⊢
  split
  next =>
    rw [mark_exhaustColumn]
    split
    next => exact fun e => by cases e
    next hc =>
      cases c
      · exact h1
      · exact absurd rfl hc
  next e =>
    cases c
    · exact h1
    · exact e

/-! ### A decilitre charged (R54) -/

theorem setColumn_remaining_ordered {s : State} {d : Option SlotId} (k : s.ordered d) (c : Column) (n : Nat) :
    (s.setColumn c { s.column c with remaining := n }).ordered d := by
  have hsame := seats_setColumn_same s (c := c) (r := { s.column c with remaining := n }) rfl
  unfold State.ordered
  rw [hsame]
  exact k

theorem chargeDecilitre_ordered {s : State} {d : Option SlotId} (k : s.ordered d) (i : SlotId) : (s.chargeDecilitre i).1.ordered d := by
  unfold State.chargeDecilitre
  dsimp only
  split
  next hs =>
    have h1 := setColumn_remaining_ordered k s.arb.selHeld ((s.column s.arb.selHeld).remaining - s.acct.hardness)
    have hc : ((s.setColumn s.arb.selHeld { s.column s.arb.selHeld with
        remaining := (s.column s.arb.selHeld).remaining - s.acct.hardness }).column s.arb.selHeld).state = .inService := by
      rw [State.column_setColumn, if_pos rfl]
      exact beq_iff_eq.mp hs
    dsimp only
    split
    next => exact exhaustColumn_ordered h1 hc _ _
    next =>
      split
      next => exact exhaustColumn_ordered h1 hc _ _
      next => exact h1
  next => exact k

/-! ### Who flows (R31) -/

theorem flowing_of_ordered {s : State} {d : Option SlotId} (k : s.ordered d) {i : SlotId} (h : s.flowingFill = some i) :
    ∃ sl w, s.fillAt i = some (sl, w) ∧ (s.seats.table .inlet).lease = .held ∧ (s.seats.table .inlet).holder = some (slotWho i sl) := by
  unfold State.flowingFill at h
  split at h
  next hl =>
    split at h
    next p j hh =>
      split at h
      next hsome =>
        cases h
        obtain ⟨⟨sl, w⟩, hat⟩ := Option.isSome_iff_exists.mp hsome
        have hheld : (s.seats.table .inlet).lease = .held := beq_iff_eq.mp hl
        have hwho : (s.seats.table .inlet).holder = some ⟨.port p, some i⟩ := hh
        refine ⟨sl, w, hat, hheld, ?_⟩
        obtain ⟨j, x, hx, hop, -, -⟩ := (k.table.holds .inlet _ hwho (by simp)).resolve_left (by rw [hheld]; decide)
        have hj := congrArg Holder.slot hx
        rw [Seat.who_slot] at hj
        cases hj
        rw [seats_op (fillAt_eq_some.mp hat).1] at hop
        cases hop
        rw [hwho, hx, slotWho_seat]
      next => cases h
    next => cases h
  next => cases h

theorem markBreakthrough_keeps {a s : State} (h : a.keepsOrder s) : a.keepsOrder s.markBreakthrough := fun d o => by
  have k := h d o
  unfold State.markBreakthrough
  split
  next i hi =>
    dsimp only
    split
    next hc =>
      obtain ⟨sl, w, hat, -, -⟩ := flowing_of_ordered k hi
      obtain ⟨hp, hw, ho⟩ := fillAt_eq_some.mp hat
      have hfill : s.seats.fillIn i := ⟨sl.seat, w.waitSoft, seats_op hp, (seat_fixed sl).mpr ho, kind_of_fillAt hat⟩
      have hstate : (s.column s.arb.selHeld).state = .inService := beq_iff_eq.mp (Bool.and_eq_true_iff.mp hc).1
      have hst : ∀ x, ((s.setColumn s.arb.selHeld { s.column s.arb.selHeld with breakthrough := some i }).seats.col x).state = (s.seats.col x).state := fun x => by
        rw [seats_setColumn]
        dsimp only
        split
        next e => rw [e]; rfl
        next => rfl
      unfold State.ordered
      refine (?_ : Restocks s.seats _).ordered k
      refine ⟨by rw [seats_setColumn], fun x => by rw [hst], fun hm x => ?_, fun x j => ?_, fun _ _ _ hq => .inl ?_, ?_, ?_, ?_⟩
      · rw [hst, hst]
        rw [seats_setColumn] at hm
        exact k.soft.standby hm x
      · rw [hst, seats_setColumn]
        dsimp only
        split
        next e =>
          intro hm
          cases hm
          rw [e]
          exact ⟨hstate, .inr hfill⟩
        next => exact fun hm => ⟨(k.soft.marked x j hm).1, .inl hm⟩
      · rw [seats_setColumn] at hq; exact hq
      · rw [seats_setColumn]; exact k.soft.quiet
      · rw [seats_setColumn]; exact k.soft.nodup
      · rw [seats_setColumn]; exact k.soft.apart
    next => exact k
  next => exact k

end Sys2Proof.Machine

/-! Operations ended keep the order: leases let go, the outcome fixed, the slot freed (R27, R29, R40, R46, R48). -/

namespace Sys2Proof.Machine

theorem State.ordered.unseen {d : Option SlotId} {s t : State} (k : s.ordered d) (e : t.seats = s.seats) : t.ordered d := by
  unfold State.ordered
  rw [e]
  exact k

theorem State.ordered.frame {d : Option SlotId} {s t : State} (k : s.ordered d) {l : List Block} (h : s.keepsBut t l)
    (hl : ∀ b ∈ [Block.pool, .arb, .soft, .mode, .door], b ∉ l := by decide) : t.ordered d := k.unseen (h.seats hl)

/-! ### The leases let go (R29) -/

/-- The operations replaced in both views. -/
theorem Lets.withOp {who : Holder} {a b : Seats} (h : Lets who a b) (op : SlotId → Option Seat) : Lets who { a with op := op } { b with op := op } :=
  ⟨⟨⟨rfl, h.loosens.regen, h.loosens.queue, h.loosens.col, h.loosens.mode, h.loosens.selHeld, h.loosens.line, h.loosens.place, h.loosens.current,
    h.loosens.retract⟩, h.only⟩, h.line, h.gone⟩

/-- A requester has let go of everything: nothing of the table is its operation's. -/
theorem Lets.letsGo {a b : Seats} {i : SlotId} {x : Seat} {d : Option SlotId} (h : Lets (x.who i) a b) (k : a.ordered d) (hx : a.op i = some x) :
    b.letsGo i := by
  have hwho : ∀ {r w}, a.works r w → w.slot = some i → w = x.who i := fun hw hs => by
    obtain ⟨j, y, rfl, hy, -, -⟩ := hw
    rw [Seat.who_slot] at hs
    cases hs
    rw [hx] at hy
    cases hy
    rfl
  refine ⟨fun r w hw hs => ?_, fun r w hw hs => ?_⟩
  · have := hwho (k.table.waits r w (h.loosens.line r hw) (by rw [hs]; simp)) hs
    exact h.line r (this ▸ hw)
  · have ha := (h.loosens.place r).holder hw
    rcases k.table.holds r w ha (by rw [hs]; simp) with hrel | hwk
    · rcases h.only r with he | ⟨hl, -⟩
      · exact h.gone r ((Option.some.inj (ha.symm.trans he)) ▸ hw)
      · exact hl.trans hrel
    · exact h.gone r (hwho hwk hs ▸ hw)

theorem op_endLetGo {s : State} {i : SlotId} {sl : Slot} (hp : s.pool[i] = some sl) (o : OutcomeCode) (who : Holder) :
    (s.endLetGo i o who).seats.op = (s.seats.seat i (some { sl.seat with fixed := true })).op := by
  rw [seats_op_pool (pool_endLetGo s i o who), seats_fixOutcome hp]

/-- An operation that is no REGENERATE is being ended: its outcome fixed, everything let go. -/
theorem endLetGo_ordered {s : State} (k : s.ordered none) {i : SlotId} {sl : Slot} (hp : s.pool[i] = some sl) (hk : ∀ c, sl.work ≠ .regenerate c)
    (o : OutcomeCode) : (s.endLetGo i o (slotWho i sl)).ordered (some i) := by
  obtain ⟨t, ht⟩ : ∃ t, t = s.endLetGo i o (slotWho i sl) := ⟨_, rfl⟩
  have hlets : Lets (sl.seat.who i) s.seats { t.seats with op := s.seats.op } := by
    have h := (endLetGo_lets k.table.legal i o (slotWho i sl)).withOp s.seats.op
    rw [seats_fixOutcome hp, ← ht, slotWho_seat] at h
    exact h
  have hb : ({ t.seats with op := s.seats.op } : Seats).ordered none := hlets.loosens.ordered (hlets.clears k.table.legal) k
  have hop := seats_op hp
  have hview : ({ t.seats with op := s.seats.op } : Seats).seat i (some { sl.seat with fixed := true }) = t.seats := by
    have he : t.seats.op = (s.seats.seat i (some { sl.seat with fixed := true })).op := ht ▸ op_endLetGo hp o _
    show { t.seats with op := (s.seats.seat i (some { sl.seat with fixed := true })).op } = t.seats
    rw [← he]
  unfold State.ordered
  rw [← ht, ← hview]
  refine hb.fix (hlets.letsGo k hop) hop (fun c e => ?_) rfl
  unfold Slot.seat at e
  cases hw : sl.work <;> rw [hw] at e <;> cases e
  exact hk _ hw

/-! ### The slot freed, or left to its wind-down -/

/-- The slot of an operation whose outcome is fixed is freed, once no mark names it. -/
theorem endSlot_ordered {t : State} {i : SlotId} (k : t.ordered (some i)) {x : Seat} (hx : t.seats.op i = some x) (hf : x.fixed = true)
    (hm : ∀ c, (t.column c).breakthrough ≠ some i) (o : OutcomeCode) (fields : List Byte) (answer : Bool) :
    (t.endSlot i o fields answer).ordered none := by
  unfold State.ordered
  rw [seats_endSlot]
  exact k.vacate (.inr rfl) (k.over hx hf) (k.unnamed (fun y hy => .inl (by rw [hx] at hy; cases hy; exact hf)) hm)

/-- The end of an operation that leaves a wind-down behind, and no mark. -/
theorem Seats.ordered.settled {a : Seats} {i : SlotId} (k : a.ordered (some i)) {x : Seat} (hx : a.op i = some x)
    (hr : ∀ r ∈ x.kind.resources, r = .circ ∨ r = .doorDrive) (hm : ∀ c, (a.col c).mark ≠ some i) : a.ordered none := by
  obtain ⟨t, s, e⟩ := k
  refine ⟨t, ⟨s.regenerating, s.standby, fun c j hc => (s.marked c j hc).imp_right fun h => ?_, s.queued, s.asked, s.quiet, s.nodup, s.apart⟩,
    fun j y hy ho _ => ?_⟩
  · refine h.imp_left fun hj => ?_
    cases hj
    exact absurd hc (hm c)
  · by_cases hj : j = i
    · subst hj
      rw [hx] at hy
      cases hy
      exact hr
    · exact e j y hy ho fun c => hj (Option.some.inj c).symm

/-- No mark names a slot that holds no FILL in progress. -/
theorem unmarked_of_order {s : State} (k : s.ordered none) {i : SlotId} (h : ¬s.seats.fillIn i) (c : Column) : (s.column c).breakthrough ≠ some i :=
  fun e => h ((k.soft.marked c i e).2.resolve_left (by simp))

/-- The marks after the leases are let go. -/
theorem column_endLetGo (s : State) (i : SlotId) (o : OutcomeCode) (who : Holder) (c : Column) : (s.endLetGo i o who).column c = s.column c :=
  State.column_congr ((State.keepsBut_endLetGo s i o who).soft (by decide)) c

/-- An operation that is neither a FILL nor a REGENERATE ends, and its slot is freed after work that neither view nor softener shows. -/
theorem endsAtOnce_ordered {s : State} (k : s.ordered none) {i : SlotId} {sl : Slot} (hp : s.pool[i] = some sl) (hf : ∀ w, sl.work ≠ .fill w)
    (hk : ∀ c, sl.work ≠ .regenerate c) (o : OutcomeCode) {t : State} (ht : t.seats = (s.endLetGo i o (slotWho i sl)).seats) (o' : OutcomeCode)
    (fields : List Byte) (answer : Bool) : (t.endSlot i o' fields answer).ordered none := by
  have h1 := (endLetGo_ordered k hp hk o).unseen ht
  refine endSlot_ordered h1 (x := { sl.seat with fixed := true }) ?_ rfl (fun c => ?_) o' fields answer
  · rw [ht, op_endLetGo hp, Seats.op_seat_self]
  · have hcol : (t.column c).marked = ((s.endLetGo i o (slotWho i sl)).column c).marked := congrArg (fun a : Seats => a.col c) ht
    have hmark : (t.column c).breakthrough = (s.column c).breakthrough := by
      rw [column_endLetGo] at hcol
      exact congrArg ColumnMark.mark hcol
    rw [hmark]
    exact unmarked_of_order k (not_fillIn_of_kind hp hf) c

/-! ### FILL (R40) -/

theorem finishFill_ordered {s : State} (k : s.ordered none) (i : SlotId) (o : OutcomeCode) (answer : Bool) : (s.finishFill i o answer).ordered none := by
  unfold State.finishFill
  split
  next => exact k
  next sl w hat =>
    obtain ⟨hp, hw, ho⟩ := fillAt_eq_some.mp hat
    have h1 : (s.endLetGo i o (slotWho i sl)).ordered (some i) := endLetGo_ordered k hp (by rw [hw]; simp) o
    have hop := op_endLetGo hp o (slotWho i sl)
    dsimp only
    obtain ⟨t, ht⟩ : ∃ t, t = s.endLetGo i o (slotWho i sl) := ⟨_, rfl⟩
    have hfold : ((s.fixOutcome i o).releaseAll (slotWho i sl)).withdraw (slotWho i sl) = t := ht.symm
    rw [hfold]
    rw [← ht] at h1 hop
    have h2 := takeBreakthrough_ordered h1 i
    have hmark := takeBreakthrough_unmarks t i
    obtain ⟨y, hy, hfix⟩ : ∃ y, (t.takeBreakthrough i).seats.op i = some y ∧ y.fixed = true := by
      rcases goesOn_takeBreakthrough t i i with ⟨e, -⟩ | ⟨u, v, hu, hv, hal⟩
      · rw [hop, Seats.op_seat_self] at e
        cases e
      · rw [hop, Seats.op_seat_self] at hu
        cases hu
        exact ⟨v, hv, hal.fixed⟩
    obtain ⟨u, hu⟩ : ∃ u, u = t.takeBreakthrough i := ⟨_, rfl⟩
    rw [← hu] at h2 hmark hy ⊢
    obtain ⟨v, hv⟩ : ∃ v, v = u.appendDraw .wash w.softA w.softB w.bypass (if w.counted = 0 then u.acct.hardness else w.lastHardness) o := ⟨_, rfl⟩
    have kv : u.keepsBut v [.acct] := hv ▸ u.keepsBut_appendDraw _ _ _ _ _ _
    have hd : v.keepsBut (if o = .done ∨ o = .limit then v.offerTrigger .fillDone else v) [.arb, .dose] := .ite _ (v.keepsBut_offerTrigger _) (v.keepsBut_refl _)
    have h3 : (if o = .done ∨ o = .limit then v.offerTrigger .fillDone else v).ordered (some i) := by
      have h3 := h2.frame kv (by decide)
      split
      · exact offerTrigger_keeps (.refl v) _ _ h3
      · exact h3
    rw [← hv]
    refine endSlot_ordered h3 (x := y) ?_ hfix (fun c => ?_) _ _ _
    · rw [seats_op_pool hd.pool, seats_op_pool kv.pool]
      exact hy
    · rw [State.column_congr hd.soft, State.column_congr kv.soft]
      exact hmark c

/-! ### CIRCULATE (R29, R41) -/

theorem circAt_eq_some {s : State} {i : SlotId} {sl : Slot} {w : CircWork} (h : s.circAt i = some (sl, w)) :
    s.pool[i] = some sl ∧ sl.work = .circulate w ∧ sl.outcome = none := by
  unfold State.circAt at h
  split at h
  next x hx =>
    split at h
    next v hw ho =>
      cases h
      exact ⟨hx, hw, ho⟩
    next => cases h
  next => cases h

theorem finishCirc_ordered {s : State} (k : s.ordered none) (i : SlotId) (o : OutcomeCode) (answer : Bool) : (s.finishCirc i o answer).ordered none := by
  unfold State.finishCirc
  split
  next => exact k
  next sl w hat =>
    obtain ⟨hp, hw, ho⟩ := circAt_eq_some hat
    have hk : ∀ c, sl.work ≠ .regenerate c := by rw [hw]; simp
    have hf : ∀ v, sl.work ≠ .fill v := by rw [hw]; simp
    dsimp only
    split
    next =>
      have h1 := endLetGo_ordered k hp hk o
      refine h1.settled (x := { sl.seat with fixed := true }) (by rw [op_endLetGo hp, Seats.op_seat_self]) (fun r hr => ?_) fun c => ?_
      · unfold Slot.seat at hr
        rw [hw] at hr
        simp only [Work.kind, WorkKind.resources, List.mem_singleton] at hr
        exact .inl hr
      · show ((s.endLetGo i o (slotWho i sl)).column c).breakthrough ≠ _
        rw [column_endLetGo]
        exact unmarked_of_order k (not_fillIn_of_kind hp hf) c
    next => exact endsAtOnce_ordered k hp hf hk o rfl _ _ _

/-! ### HEAT (R46) -/

theorem heatAt_eq_some {s : State} {i : SlotId} {sl : Slot} {w : HeatWork} (h : s.heatAt i = some (sl, w)) :
    s.pool[i] = some sl ∧ sl.work = .heat w := by
  unfold State.heatAt at h
  split at h
  next x hx =>
    split at h
    next v hw =>
      cases h
      exact ⟨hx, hw⟩
    next => cases h
  next => cases h

theorem finishHeat_ordered {s : State} (k : s.ordered none) (i : SlotId) (o : OutcomeCode) (answer : Bool) : (s.finishHeat i o answer).ordered none := by
  unfold State.finishHeat
  split
  next => exact k
  next sl w hat =>
    obtain ⟨hp, hw⟩ := heatAt_eq_some hat
    have hk : ∀ c, sl.work ≠ .regenerate c := by rw [hw]; simp
    have hf : ∀ v, sl.work ≠ .fill v := by rw [hw]; simp
    dsimp only
    obtain ⟨t, ht⟩ : ∃ t, t = s.endLetGo i o (slotWho i sl) := ⟨_, rfl⟩
    have h1 : t.ordered (some i) := ht ▸ endLetGo_ordered k hp hk o
    have hfold : ((s.fixOutcome i o).releaseAll (slotWho i sl)).withdraw (slotWho i sl) = t := ht.symm
    rw [hfold]
    have hd : t.keepsBut (if o = .done then (t.post .heatReached (portCode sl.port) t.water.temperature).offerTrigger .heatDone else t) [.ports, .arb, .dose] :=
      .ite _ ((State.keepsBut_mono (t.keepsBut_post _ _ _) (by decide)).step (State.keepsBut_offerTrigger _ _) (by decide)) (t.keepsBut_refl _)
    refine endSlot_ordered (x := { sl.seat with fixed := true }) ?_ ?_ rfl (fun c => ?_) _ _ _
    · split
      · exact offerTrigger_keeps (post_keeps (.refl t) _ _ _) _ _ h1
      · exact h1
    · rw [seats_op_pool hd.pool, ht, op_endLetGo hp, Seats.op_seat_self]
    · rw [State.column_congr hd.soft, ht, column_endLetGo]
      exact unmarked_of_order k (not_fillIn_of_kind hp hf) c

/-! ### DRAIN (R48) -/

theorem drainAt_eq_some {s : State} {i : SlotId} {sl : Slot} {w : DrainWork} (h : s.drainAt i = some (sl, w)) :
    s.pool[i] = some sl ∧ sl.work = .drain w := by
  unfold State.drainAt at h
  split at h
  next x hx =>
    split at h
    next v hw =>
      cases h
      exact ⟨hx, hw⟩
    next => cases h
  next => cases h

theorem finishDrain_ordered {s : State} (k : s.ordered none) (i : SlotId) (o : OutcomeCode) (answer : Bool) : (s.finishDrain i o answer).ordered none := by
  unfold State.finishDrain
  split
  next => exact k
  next sl w hat =>
    obtain ⟨hp, hw⟩ := drainAt_eq_some hat
    dsimp only
    refine endsAtOnce_ordered k hp (by rw [hw]; simp) (by rw [hw]; simp) o ?_ _ _ _
    split
    · exact (State.keepsBut_setTank _ _ _).seats (by decide)
    · rfl

end Sys2Proof.Machine

/-! The work of the washing operations keeps the order: what is taken up, granted, judged and yielded (R27 to R29, R35, R41 to R49). -/

namespace Sys2Proof.Machine

/-! ### The work of a slot in the view -/

/-- Work replaced by work of the same kind. -/
theorem seats_setWork_same {s : State} {i : SlotId} {sl : Slot} (hp : s.pool[i] = some sl) {w : Work} (hw : w.kind = sl.work.kind) :
    (s.setWork i w).seats = s.seats := by
  rw [seats_setWork hp, hw]
  have : s.seats.op i = some { sl.seat with kind := sl.work.kind } := seats_op hp
  rw [← this, Seats.seat_op]

theorem State.ordered.setWork {d : Option SlotId} {s : State} (k : s.ordered d) {i : SlotId} {sl : Slot} (hp : s.pool[i] = some sl) {w : Work}
    (hw : w.kind = sl.work.kind) : (s.setWork i w).ordered d := k.unseen (seats_setWork_same hp hw)

theorem works_of_slot {s : State} {i : SlotId} {sl : Slot} (hp : s.pool[i] = some sl) (ho : sl.outcome = none) {r : Resource}
    (hr : r ∈ sl.work.resources) : s.seats.works r (slotWho i sl) :=
  ⟨i, sl.seat, slotWho_seat i sl, seats_op hp, (seat_fixed sl).mpr ho, by rwa [resources_kind] at hr⟩

/-- An operation in progress asks for a resource that is neither on the path nor the rod. -/
theorem opAsks_ordered {d : Option SlotId} {s : State} (k : s.ordered d) {i : SlotId} {sl : Slot} (hp : s.pool[i] = some sl) (ho : sl.outcome = none)
    {r : Resource} (hr : r ∈ sl.work.resources) (hne : r = .circ ∨ r = .heater ∨ r = .drain) (serial : Nat) :
    (s.ask r (slotWho i sl) serial none).ordered d := by
  refine ask_keeps (.refl s) (fun _ _ => ⟨fun _ => works_of_slot hp ho hr, ?_, ?_, ?_, ?_⟩) serial none d k <;> rintro rfl <;> rcases hne with e | e | e <;> cases e

/-- No outcome is fixed of an operation that uses another resource than CIRC and DOOR_DRIVE. -/
theorem State.ordered.notFixed {s : State} (k : s.ordered none) {i : SlotId} {sl : Slot} (hp : s.pool[i] = some sl) {r : Resource}
    (hr : r ∈ sl.work.resources) (hc : r ≠ .circ) (hd : r ≠ .doorDrive) : sl.outcome = none := by
  by_contra ho
  have hfix : sl.seat.fixed = true := by
    rw [← Bool.not_eq_false, seat_fixed]
    exact ho
  rw [resources_kind] at hr
  rcases k.ending i sl.seat (seats_op hp) hfix (by simp) r hr with e | e
  · exact hc e
  · exact hd e

/-- A slot whose outcome is fixed is freed. -/
theorem endOver_ordered {s : State} (k : s.ordered none) {i : SlotId} {sl : Slot} (hp : s.pool[i] = some sl) (ho : sl.outcome ≠ none) (o : OutcomeCode)
    (fields : List Byte) (answer : Bool) : (s.endSlot i o fields answer).ordered none := by
  have hfix : sl.seat.fixed = true := by
    rw [← Bool.not_eq_false, seat_fixed]
    exact ho
  have hop := seats_op hp
  have hno : ¬s.seats.fillIn i := fun ⟨x, soft, hx, hxf, _⟩ => by
    rw [hop] at hx
    cases hx
    rw [hfix] at hxf
    cases hxf
  unfold State.ordered
  rw [seats_endSlot]
  exact k.vacate (.inl rfl) (k.over hop hfix) (k.unnamed (fun y hy => .inl (by rw [hop] at hy; cases hy; exact hfix)) (unmarked_of_order k hno))

/-- An operation just taken up holds no SELECTOR and waits for none. -/
theorem Seats.letsGo.offPath {a : Seats} {d : Option SlotId} {i : SlotId} (hl : a.letsGo i) (k : a.ordered d) {h : Holder} (hi : h.slot = some i) : a.offPath h :=
  ⟨fun c => hl.line _ h c hi, fun c => by
    have := (k.table.legal .selector).2
    rw [hl.holder .selector h c hi] at this
    cases this⟩

theorem slotWho_slot (i : SlotId) (sl : Slot) : (slotWho i sl).slot = some i := by rw [slotWho_seat, Seat.who_slot]

/-! ### FILL (R28, R35) -/

section Washing

variable {s : State} (k : s.ordered none)
include k

theorem takeUpFill_ordered {i : SlotId} (hl : s.seats.letsGo i) : (s.takeUpFill i).ordered none := by
  unfold State.takeUpFill
  split
  next => exact k
  next sl w hat =>
    split
    next => exact fillAsks_ordered k fun sl' _ _ => hl.offPath k (slotWho_slot i sl')
    next => exact finishFill_ordered k i _ _

theorem fillInletGranted_ordered (i : SlotId) : (s.fillInletGranted i).ordered none := by
  unfold State.fillInletGranted
  split
  next => exact k
  next sl w hat =>
    split
    next => exact finishFill_ordered k i _ _
    next =>
      obtain ⟨hp, hw, -⟩ := fillAt_eq_some.mp hat
      exact k.setWork hp (by rw [hw]; rfl)

/-! ### CIRCULATE (R27, R29, R41, R42) -/

theorem circFreed_ordered (h : Option Holder) : (s.circFreed h).ordered none := by
  unfold State.circFreed
  split
  next =>
    split
    next sl hp =>
      split
      next w o hw ho => exact endOver_ordered k hp (by rw [ho]; simp) _ _ _
      next => exact k
    next => exact k
  next => exact k

theorem endCircWindDown_ordered : s.endCircWindDown.ordered none := by
  unfold State.endCircWindDown
  dsimp only
  exact circFreed_ordered (freeLease_keeps (.refl s) (by decide) (fun e => by cases e) none k) _

theorem takeUpCirc_ordered (i : SlotId) : (s.takeUpCirc i).ordered none := by
  unfold State.takeUpCirc
  split
  next => exact k
  next sl w hat =>
    obtain ⟨hp, hw, ho⟩ := circAt_eq_some hat
    split
    next => exact opAsks_ordered k hp ho (by rw [hw]; simp [Work.resources]) (.inl rfl) _
    next => exact finishCirc_ordered k i _ _

theorem circGranted_ordered (i : SlotId) : (s.circGranted i).ordered none := by
  unfold State.circGranted
  split
  · exact k
  · exact k.frame (State.keepsBut_withDrive _ _) (by decide)

theorem circReached_ordered : s.circReached.ordered none := by
  unfold State.circReached
  dsimp only
  split
  next =>
    split
    next i _ sl w hat =>
      obtain ⟨hp, hw, -⟩ := circAt_eq_some hat
      split
      next => exact offerTrigger_keeps (post_keeps (.refl _) _ _ _) _ _ (k.setWork hp (by rw [hw]; rfl))
      next => exact k
    next => exact k
  next => exact k

theorem yieldCirc_ordered (i : SlotId) : (s.yieldCirc i).ordered none := by
  unfold State.yieldCirc
  split
  next => exact k
  next sl w hat =>
    obtain ⟨hp, hw, ho⟩ := circAt_eq_some hat
    have hp' : (s.release .circ).pool[i] = some sl := by rw [(State.keepsBut_release s .circ).pool (by decide), hp]
    exact opAsks_ordered (release_keeps (.refl s) (by decide) none k) hp' ho (by rw [hw]; simp [Work.resources]) (.inl rfl) _

/-! ### HEAT (R45 to R47) -/

theorem takeUpHeat_ordered {i : SlotId} : (s.takeUpHeat i).ordered none := by
  unfold State.takeUpHeat
  split
  next => exact k
  next sl w hat =>
    obtain ⟨hp, hw⟩ := heatAt_eq_some hat
    have hr : Resource.heater ∈ sl.work.resources := by rw [hw]; simp [Work.resources]
    split
    next => exact opAsks_ordered k hp (k.notFixed hp hr (by decide) (by decide)) hr (.inr (.inl rfl)) _
    next => exact finishHeat_ordered k i _ _

theorem heatGranted_ordered (i : SlotId) : (s.heatGranted i).ordered none := by
  unfold State.heatGranted
  split
  next => exact k
  next sl w hat =>
    obtain ⟨hp, hw⟩ := heatAt_eq_some hat
    have h1 : (if w.granted then s else s.setWork i (.heat { w with granted := true, passed := Timer.zero })).ordered none := by
      split
      · exact k
      · exact k.setWork hp (by rw [hw]; rfl)
    dsimp only
    generalize (if w.granted then s else s.setWork i (.heat { w with granted := true, passed := Timer.zero })) = t at h1 ⊢
    split
    · exact finishHeat_ordered h1 i _ _
    · split
      · exact restore_keeps (.refl t) (r := .heater) rfl none h1
      · exact h1

theorem yieldHeat_ordered (i : SlotId) : (s.yieldHeat i).ordered none := by
  unfold State.yieldHeat
  split
  next => exact k
  next sl w hat =>
    obtain ⟨hp, hw⟩ := heatAt_eq_some hat
    have hr : Resource.heater ∈ sl.work.resources := by rw [hw]; simp [Work.resources]
    have hp' : (s.release .heater).pool[i] = some sl := by rw [(State.keepsBut_release s .heater).pool (by decide), hp]
    exact opAsks_ordered (release_keeps (.refl s) (by decide) none k) hp' (k.notFixed hp hr (by decide) (by decide)) hr (.inr (.inl rfl)) _

end Washing

/-- Work over a list that keeps the order of a state at rest. -/
theorem State.ordered.foldl {α : Type} {f : State → α → State} (hf : ∀ s x, s.ordered none → (f s x).ordered none) :
    ∀ (l : List α) {s : State}, s.ordered none → (l.foldl f s).ordered none
  | [], _, k => k
  | x :: l, s, k => State.ordered.foldl hf l (hf s x k)

section Washing

variable {s : State} (k : s.ordered none)
include k

theorem heatsReading_ordered : s.heatsReading.ordered none :=
  State.ordered.foldl (fun s i k => by
    split
    · split
      · exact finishHeat_ordered k i _ _
      · exact k
    · exact k) _ k

theorem heatsProbeFault_ordered : s.heatsProbeFault.ordered none := State.ordered.foldl (fun _ i k => finishHeat_ordered k i _ _) _ k

/-! ### DRAIN (R34, R48, R49) -/

theorem takeUpDrain_ordered (i : SlotId) : (s.takeUpDrain i).ordered none := by
  unfold State.takeUpDrain
  split
  next => exact k
  next sl w hat =>
    obtain ⟨hp, hw⟩ := drainAt_eq_some hat
    have hr : Resource.drain ∈ sl.work.resources := by rw [hw]; simp [Work.resources]
    exact opAsks_ordered k hp (k.notFixed hp hr (by decide) (by decide)) hr (.inr (.inr rfl)) _

theorem drainTimeout_ordered (i : SlotId) : (s.drainTimeout i).ordered none := by
  unfold State.drainTimeout
  split
  next => exact (finishDrain_ordered k i _ _).frame (State.keepsBut_fault _ _ _ _) (by decide)
  next => exact k

theorem judgeDrain_ordered (i : SlotId) : (s.judgeDrain i).ordered none := by
  unfold State.judgeDrain
  split
  next => exact k
  next sl w hat =>
    obtain ⟨hp, hw⟩ := drainAt_eq_some hat
    have hset : ∀ w', (s.setWork i (.drain w')).ordered none := fun w' => k.setWork hp (by rw [hw]; rfl)
    split
    · split
      · split
        · exact finishDrain_ordered k i _ _
        · exact hset _
      · split
        · exact drainTimeout_ordered k i
        · exact hset _
      · exact k
      · exact k
    · exact k

theorem judgeDrains_ordered : s.judgeDrains.ordered none := State.ordered.foldl (fun _ i k => judgeDrain_ordered k i) _ k

theorem drainGranted_ordered {i : SlotId} {sl : Slot} {w : DrainWork} (hp : s.pool[i] = some sl) (hw : sl.work = .drain w) :
    (s.drainGranted i).ordered none := judgeDrain_ordered (k.setWork hp (by rw [hw]; rfl)) i

end Washing

end Sys2Proof.Machine

/-! What the judging of the fill positions spares: the leases of those that are not judged, and the lists they do not join (R58). -/

namespace Sys2Proof.Machine

/-- Where one view follows another, a requester keeps its leases, gets none, and joins no list but SELECTOR's. -/
structure Spares (h : Holder) (a b : Seats) : Prop where
  keeps : ∀ r, (a.table r).holder = some h → (b.table r).lease = (a.table r).lease ∧ (b.table r).holder = some h
  holder : ∀ r, (b.table r).holder = some h → (a.table r).holder = some h
  line : ∀ r, r ≠ .selector → h ∈ (b.table r).line → h ∈ (a.table r).line

theorem Spares.of_table {h : Holder} {a b : Seats} (e : b.table = a.table) : Spares h a b := by
  refine ⟨fun r hr => ?_, fun r hr => ?_, fun r _ hr => ?_⟩ <;> rw [e] at *
  · exact ⟨rfl, hr⟩
  · exact hr
  · exact hr

theorem Spares.refl (h : Holder) (a : Seats) : Spares h a a := .of_table rfl

theorem Spares.trans {h : Holder} {a b c : Seats} (k : Spares h a b) (l : Spares h b c) : Spares h a c where
  keeps r hr := by
    obtain ⟨h1, h2⟩ := k.keeps r hr
    obtain ⟨h3, h4⟩ := l.keeps r h2
    exact ⟨h3.trans h1, h4⟩
  holder r hr := k.holder r (l.holder r hr)
  line r hs hr := k.line r hs (l.line r hs hr)

theorem Spares.of_frame {h : Holder} {s t : State} {l : List Block} (k : s.keepsBut t l) (hl : Block.arb ∉ l) : Spares h s.seats t.seats :=
  .of_table (funext fun r => table_of_entry (k.entry r hl))

theorem Spares.of_releases {h who : Holder} {a b : Seats} (k : Releases who a b) (hne : h ≠ who) : Spares h a b where
  keeps r hr := by
    rcases k.only r with e | ⟨e1, e2⟩
    · exact absurd (Option.some.inj (hr.symm.trans e)) hne
    · exact ⟨e1, e2.trans hr⟩
  holder r hr := (k.loosens.place r).holder hr
  line r _ hr := k.loosens.line r hr

theorem Spares.of_ask {h : Holder} (s : State) {r : Resource} {who : Holder} (serial : Nat) (want : Option Column) (hne : h ≠ who ∨ r = .selector) :
    Spares h s.seats (s.ask r who serial want).seats := by
  rw [seats_ask]
  refine ⟨fun q hq => ⟨Seats.lease_asked _ r q who, (Seats.holder_asked _ r q who).trans hq⟩, fun q hq => (Seats.holder_asked _ r q who) ▸ hq, fun q hs hq => ?_⟩
  refine ((Seats.mem_line_asked _ r q who h).mp hq).resolve_right fun ⟨e1, e2⟩ => ?_
  rcases hne with hne | hne
  · exact hne e2
  · exact hs (e1.trans hne)

theorem Spares.of_changePosition {h : Holder} (s : State) (c : Column) (hne : (s.seats.table .selector).holder ≠ some h) :
    Spares h s.seats (s.changePosition c).seats := by
  have hput : Spares h s.seats (s.seats.put .selector ⟨.moving, (s.seats.table .selector).holder, (s.seats.table .selector).line⟩) := by
    refine ⟨fun r hr => ?_, fun r hr => ?_, fun r hs hr => ?_⟩
    · by_cases e : r = .selector
      · exact absurd (e ▸ hr) hne
      · rw [Seats.put_ne _ e]
        exact ⟨rfl, hr⟩
    · by_cases e : r = .selector
      · rw [e, Seats.put_self] at hr
        exact e ▸ hr
      · rwa [Seats.put_ne _ e] at hr
    · rwa [Seats.put_ne _ hs] at hr
  rw [seats_changePosition]
  split
  next => exact .refl h _
  next =>
    split
    next => exact .of_table rfl
    next => exact hput.trans (.of_table rfl)

theorem Spares.of_toInlet {h : Holder} (s : State) {who : Holder} (serial : Nat) (c : Column) (hne : h ≠ who)
    (hs : (s.seats.table .selector).holder ≠ some h) : Spares h s.seats (s.toInlet who serial c).seats := by
  unfold State.toInlet
  dsimp only
  split
  · exact (Spares.of_changePosition s c hs).trans (.of_ask _ _ _ (.inl hne))
  · exact .of_changePosition s c hs

/-! ### The judging of the positions -/

section Judging

variable {h : Holder}

theorem spares_enterWaitSoft {s : State} {d : Option SlotId} (k : s.ordered d) {i : SlotId} (hne : ∀ sl w, s.fillAt i = some (sl, w) → h ≠ slotWho i sl) :
    Spares h s.seats (s.enterWaitSoft i).seats := by
  unfold State.enterWaitSoft
  split
  next sl w hat =>
    have hne := hne sl w hat
    have h1 := (withdraw_releases s (slotWho i sl)).1
    have h2 := (releaseIf_releases (h1.loosens.legal k.table.legal) (slotWho i sl) .inlet).1
    have h3 := (releaseIf_releases (h2.loosens.legal (h1.loosens.legal k.table.legal)) (slotWho i sl) .selector).1
    exact (Spares.of_releases ((h1.trans h2).trans h3) hne).trans (.of_frame (State.keepsBut_setWork _ _ _) (by decide))
  next => exact .refl h _

theorem spares_fillAsks (s : State) {i : SlotId} (hne : ∀ sl w, s.fillAt i = some (sl, w) → h ≠ slotWho i sl) :
    Spares h s.seats (s.fillAsks i).seats := by
  unfold State.fillAsks
  split
  next sl w hat =>
    have hset : ∀ w', Spares h s.seats (s.setWork i w').seats := fun w' => .of_frame (State.keepsBut_setWork _ _ _) (by decide)
    dsimp only
    split
    next => exact (hset _).trans (.of_ask _ _ _ (.inl (hne sl w hat)))
    next => exact hset _
  next => exact .refl h _

theorem seats_rewriteWant (s : State) (who : Holder) (c : Column) : (s.rewriteWant who c).seats = s.seats := by
  unfold State.rewriteWant
  dsimp only
  rw [seats_putEntry]
  have hsame : (Entry.place { s.entry .selector with waiters := (s.entry .selector).waiters.map fun w =>
      if (w.who == who) = true then { w with want := some c } else w }) = s.seats.table .selector := by
    show Place.mk _ _ _ = Place.mk _ _ _
    congr 1
    rw [List.map_map]
    refine List.map_congr_left fun x _ => ?_
    show (if x.who == who then _ else _ : Waiter).who = _
    split <;> rfl
  rw [hsame, Seats.put_table]

theorem spares_judgeFill {s : State} {d : Option SlotId} (k : s.ordered d) {i : SlotId} (hne : ∀ sl w, s.fillAt i = some (sl, w) → h ≠ slotWho i sl) :
    Spares h s.seats (s.judgeFill i).seats := by
  unfold State.judgeFill
  split
  next => exact .refl h _
  next sl w hat =>
    have hwho := hne sl w hat
    dsimp only
    split
    next =>
      split
      · exact spares_fillAsks s hne
      · exact .refl h _
    next =>
      split
      next =>
        split
        next => exact .of_table (by rw [seats_rewriteWant])
        next => exact spares_enterWaitSoft k hne
      next =>
        split
        next hheld =>
          split
          next => exact spares_enterWaitSoft k hne
          next c hc =>
            split
            next => exact .refl h _
            next =>
              refine (Spares.of_releases (withdraw_releases s (slotWho i sl)).1 hwho).trans (.of_toInlet _ _ _ hwho fun e => hwho ?_)
              rw [(lease_withdraw s (slotWho i sl) .selector).2] at e
              exact Option.some.inj (e.symm.trans ((holdsHeld_iff s _ _).mp hheld).2)
        next => exact .refl h _

/-- One that is no FILL in progress, or the FILL left out, is spared by the judging of the positions. -/
theorem spares_judgeFills {s : State} {d : Option SlotId} (k : s.ordered d) (but : Option SlotId) (hne : s.seats.fills h → ∃ i, but = some i ∧ h.slot = some i) :
    Spares h s.seats (s.judgeFills but).seats := by
  have key : ∀ (l : List SlotId) {t : State}, t.ordered d → s.seats.goesOn t.seats → Spares h s.seats t.seats →
      Spares h s.seats (l.foldl (fun s i => if but = some i then s else s.judgeFill i) t).seats := by
    intro l
    induction l with
    | nil => exact fun _ _ hsp => hsp
    | cons i l ih =>
      intro t kt hgo hsp
      show Spares h s.seats (l.foldl _ (if but = some i then t else t.judgeFill i)).seats
      split
      next => exact ih kt hgo hsp
      next hbut =>
        refine ih (judgeFill_keeps (.refl t) i d kt) (hgo.trans (goesOn_judgeFill t i)) (hsp.trans (spares_judgeFill kt fun sl w hat e => ?_))
        obtain ⟨j, hj, hs⟩ := hne ((hgo.fills h).mp (e ▸ fills_of_fillAt hat))
        rw [e, slotWho_slot] at hs
        cases hs
        exact hbut hj
  exact key _ k (.refl _) (.refl h _)

end Judging

/-! ### The head of the queue, and a column out -/

theorem seats_takeHead_spares (s : State) (h : Holder) : Spares h s.seats s.takeHead.seats := by
  unfold State.takeHead
  split
  next => exact .refl h _
  next q rest hq =>
    split
    next =>
      split
      next =>
        split
        next => exact .refl h _
        next => exact .of_table rfl
      next =>
        exact Spares.trans (b := ((s.setQueue rest).setRegen (some (freshRegen q))).seats) (.of_table rfl) (.of_ask _ _ _ (.inr rfl))
    next => exact .refl h _

theorem spares_exhaustColumn {h : Holder} {s : State} {d : Option SlotId} (k : s.ordered d) {c : Column} (hc : (s.column c).state = .inService) (value : Nat)
    (but : Option SlotId) (hne : s.seats.fills h → ∃ i, but = some i ∧ h.slot = some i) : Spares h s.seats (s.exhaustColumn c value but).seats := by
  rw [exhaustColumn_eq]
  have kout := State.keepsBut_columnOut s c value
  have h1 : Spares h s.seats (s.columnOut c value).seats := .of_frame kout (by decide)
  refine (h1.trans (spares_judgeFills (columnOut_ordered k hc value) but fun hf => hne ?_)).trans (seats_takeHead_spares _ h)
  exact (Seats.fills_congr (seats_op_pool kout.pool) h).mp hf

theorem spares_chargeDecilitre {h : Holder} {s : State} {d : Option SlotId} (k : s.ordered d) {i : SlotId} (hi : h.slot = some i) :
    Spares h s.seats (s.chargeDecilitre i).1.seats := by
  unfold State.chargeDecilitre
  dsimp only
  split
  next hs =>
    have h1 := setColumn_remaining_ordered k s.arb.selHeld ((s.column s.arb.selHeld).remaining - s.acct.hardness)
    have hc : ((s.setColumn s.arb.selHeld { s.column s.arb.selHeld with
        remaining := (s.column s.arb.selHeld).remaining - s.acct.hardness }).column s.arb.selHeld).state = .inService := by
      rw [State.column_setColumn, if_pos rfl]
      exact beq_iff_eq.mp hs
    have hsame := seats_setColumn_same s (c := s.arb.selHeld) (r := { s.column s.arb.selHeld with
        remaining := (s.column s.arb.selHeld).remaining - s.acct.hardness }) rfl
    have h2 : Spares h s.seats (s.setColumn s.arb.selHeld { s.column s.arb.selHeld with
        remaining := (s.column s.arb.selHeld).remaining - s.acct.hardness }).seats := .of_table (by rw [hsame])
    dsimp only
    split
    next => exact h2.trans (spares_exhaustColumn h1 hc _ _ fun _ => ⟨i, rfl, hi⟩)
    next =>
      split
      next => exact h2.trans (spares_exhaustColumn h1 hc _ _ fun _ => ⟨i, rfl, hi⟩)
      next => exact h2
  next => exact .refl h _

end Sys2Proof.Machine

/-! A FILL and a regeneration on the path keep the order: SELECTOR held, a decilitre's last stage, and the yield (R19, R35, R36, R58, R59). -/

namespace Sys2Proof.Machine

theorem entry_releaseIf_ne (s : State) (who : Holder) {r q : Resource} (hr : r ≠ .selector) (hq : q ≠ r) : (s.releaseIf who r).entry q = s.entry q := by
  unfold State.releaseIf
  split
  · unfold State.release
    rw [if_neg fun c => hr c.1]
    exact State.entry_letGo_ne s hq
  · rfl

theorem table_releaseIf_ne (s : State) (who : Holder) {r q : Resource} (hr : r ≠ .selector) (hq : q ≠ r) :
    (s.releaseIf who r).seats.table q = s.seats.table q := table_of_entry (entry_releaseIf_ne s who hr hq)

/-- A FILL has nothing to do with BRINE. -/
theorem Seats.ordered.fills_not_brine {a : Seats} {d : Option SlotId} (k : a.ordered d) {h : Holder} (hf : a.fills h) :
    h ∉ (a.table .brine).line ∧ (a.table .brine).holder ≠ some h := by
  have hno : ¬a.brineUser h := fun ⟨_, g, hg, e, _⟩ => k.soft.regen_not_fills hg (e ▸ hf)
  exact ⟨fun c => hno (k.table.brineLine h c).1, fun c => hno (k.table.brine h c)⟩

/-- A requester that may use the path asks for what its operation asks for. -/
theorem Seats.ordered.user_works {a : Seats} {d : Option SlotId} (k : a.ordered d) {st : Bool} {h : Holder} (hu : a.user st h) (hs : h.slot ≠ none)
    {r : Resource} (hr : r = .selector ∨ r = .inlet ∨ (r = .brine ∧ ¬a.fills h)) : a.works r h := by
  rcases hu with hf | ⟨g, hg, rfl, -⟩
  · rcases hr with hr | hr | ⟨-, hr⟩
    · exact hf.works (.inl hr)
    · exact hf.works (.inr hr)
    · exact absurd hf hr
  · unfold Stage.who at hs ⊢
    cases hq : g.requester with
    | none =>
      rw [hq] at hs
      exact absurd rfl hs
    | some pi =>
      obtain ⟨x, hx, ho, hp, hk⟩ := k.soft.asked g pi.1 pi.2 hg hq
      refine ⟨pi.2, x, ?_, hx, ho, ?_⟩
      · unfold Seat.who
        rw [hk, hp]
      · rw [hk]
        rcases hr with rfl | rfl | ⟨rfl, -⟩ <;> simp [WorkKind.resources]

/-! ### SELECTOR held by a FILL (R35, R58) -/

theorem fillSelectorHeld_ordered {s : State} {d : Option SlotId} (k : s.ordered d) {i : SlotId}
    (h : ∀ sl w, s.fillAt i = some (sl, w) → s.seats.atSelector (slotWho i sl) ∧ (s.seats.table .inlet).holder ≠ some (slotWho i sl) ∧
      slotWho i sl ∉ (s.seats.table .inlet).line) : (s.fillSelectorHeld i).ordered d := by
  unfold State.fillSelectorHeld
  split
  next => exact k
  next sl w hat =>
    obtain ⟨h1, h2, h3⟩ := h sl w hat
    dsimp only
    split
    next => exact enterWaitSoft_keeps (.refl s) i d k
    next c hc =>
      exact toInlet_ordered k (fills_of_fillAt hat) h1 h2 h3 (fillPosition_not_regenerating k (k.run (seats_op (fillAt_eq_some.mp hat).1)) hc) _

/-- A FILL that moves the selector does not ask for INLET yet. -/
theorem toInlet_elsewhere {s : State} {d : Option SlotId} (k : s.ordered d) {who : Holder} (hs : s.seats.atSelector who)
    (hi : (s.seats.table .inlet).holder ≠ some who) {c : Column} (hc : c ≠ s.arb.selHeld) (serial : Nat) :
    ((s.toInlet who serial c).seats.table .inlet).line = (s.seats.table .inlet).line := by
  have hno : (s.seats.table .inlet).holder = none := by
    by_contra e
    obtain ⟨x, hx⟩ := Option.ne_none_iff_exists'.mp e
    exact hi (by rw [hx, ← (k.table.inlet_selector hx).2, hs.2])
  have hcond : ¬((s.entry .selector).lease ≠ .held ∨ s.hasHolder .inlet = true) := fun e => e.elim (fun e => e hs.1) fun e => by
    rw [State.hasHolder, bne_iff_ne] at e
    exact e ((k.table.legal .inlet).1.mpr hno)
  have hcur : s.arb.selCurrent ≠ some c := fun e => hc (Option.some.inj (e.symm.trans (k.table.position hs.1)))
  have hseats := seats_changePosition s c
  rw [if_neg hcond, if_neg hcur] at hseats
  have hlease : ((s.changePosition c).seats.table .selector).lease = .moving := by
    rw [hseats]
    exact congrArg Place.lease (Seats.put_self _ _ _)
  unfold State.toInlet
  dsimp only
  rw [if_neg (fun e => by
    have := beq_iff_eq.mp e
    rw [show ((s.changePosition c).entry .selector).lease = .moving from hlease] at this
    cases this)]
  rw [hseats]
  rfl

/-! ### The yield (R19) -/

theorem yieldPath_ordered {s : State} {d : Option SlotId} (k : s.ordered d) {who : Holder} (hu : s.seats.user true who)
    (hl : who ∉ (s.seats.table .inlet).line) (hb : who ∉ (s.seats.table .brine).line ∧ (s.seats.table .brine).holder ≠ some who) (serial : Nat) :
    (s.yieldPath who serial).ordered d := by
  unfold State.yieldPath
  split
  next hsel =>
    have hholds := (Bool.and_eq_true_iff.mp hsel).1
    obtain ⟨hle, hwho⟩ := (State.holds_iff s who .selector).mp hholds
    obtain ⟨u, hu1⟩ : ∃ u, u = s.releaseIf who .inlet := ⟨_, rfl⟩
    obtain ⟨h1, hov1⟩ := releaseIf_releases k.table.legal who .inlet
    rw [← hu1] at h1 hov1
    have hleg1 := h1.loosens.legal k.table.legal
    have hwho1 : (u.entry .selector).holder = some who := by rw [hu1, entry_releaseIf_ne s who (by decide) (by decide), hwho]
    obtain ⟨h2, hov2⟩ := release_releases hleg1 hwho1
    obtain ⟨t, ht⟩ : ∃ t, t = u.release .selector := ⟨_, rfl⟩
    rw [← ht] at h2 hov2
    have h12 := h1.trans h2
    have hleg2 := h12.loosens.legal k.table.legal
    have hover : ∀ {r : Resource}, (t.seats.table r).over who → r.allows .releasing = false → (t.seats.table r).holder ≠ some who := fun {r} ho hr e => by
      have := (hleg2 r).2
      rw [ho e, hr] at this
      cases this
    have hkt : t.ordered d := h12.loosens.ordered (h12.clears fun _ => ⟨fun c => hl (h12.loosens.line _ c), fun c => hb.1 (h12.loosens.line _ c),
      fun c => hb.2 ((h12.loosens.place _).holder c), hover ((h2.loosens.place .inlet).over hov1) rfl⟩) k
    have hut : t.seats.user true who := (Seats.user_congr h12.loosens.op h12.loosens.regen _ _).mpr hu
    dsimp only
    rw [← hu1, ← ht]
    refine ask_keeps (.refl t) (fun d' k' => ⟨fun hs => k'.user_works hut hs (.inl rfl), fun _ => ⟨?_, fun _ => hover hov2 rfl, fun i x hx ho hk e => ?_⟩,
      (fun e => by cases e), (fun e => by cases e), fun e => by cases e⟩) _ _ d hkt
    · exact hut.imp_right fun ⟨g, hg, e, _⟩ => ⟨g, hg, e, fun c => by cases c⟩
    · rw [h12.loosens.op] at hx
      exact (k.table.softWaits i x hx ho hk).2 (e ▸ hwho)
  next =>
    split
    next hin =>
      have hholds := (Bool.and_eq_true_iff.mp hin).1
      obtain ⟨hle, hwho⟩ := (State.holds_iff s who .inlet).mp hholds
      have hat : s.seats.atSelector who := k.table.inlet_selector hwho
      obtain ⟨h1, hov⟩ := release_releases k.table.legal hwho
      have h2 := release_keeps (.refl s) (r := .inlet) (by decide) d k
      have hseltab : (s.release .inlet).seats.table .selector = s.seats.table .selector := by
        unfold State.release
        rw [if_neg fun c => by cases c.1]
        exact table_of_entry (State.entry_letGo_ne s (by decide))
      obtain ⟨t, ht⟩ : ∃ t, t = s.release .inlet := ⟨_, rfl⟩
      rw [← ht] at h1 hov h2 hseltab ⊢
      have hleg := h1.loosens.legal k.table.legal
      have hut : t.seats.user true who := (Seats.user_congr h1.loosens.op h1.loosens.regen _ _).mpr hu
      refine ask_keeps (.refl t) (fun d' k' => ⟨fun hs => k'.user_works hut hs (.inr (.inl rfl)), (fun e => by cases e), fun _ => ⟨?_, fun e => ?_, fun hf => ?_,
        fun c => hb.1 (h1.loosens.line _ c)⟩, (fun e => by cases e), fun e => by cases e⟩) _ _ d h2
      · unfold Seats.atSelector
        rw [hseltab]
        exact hat
      · have := (hleg .inlet).2
        rw [hov e] at this
        cases this
      · rw [h1.loosens.col, h1.loosens.selHeld]
        exact k.table.inlet who hwho ((Seats.fills_congr h1.loosens.op who).mp hf)
    next => exact k

/-! ### The last stage of a decilitre (R36, R59) -/

theorem fillStage5_yields {s : State} {d : Option SlotId} (k : s.ordered d) {i : SlotId} {sl : Slot} {w : FillWork} (hat : s.fillAt i = some (sl, w))
    (hin : (s.seats.table .inlet).holder = some (slotWho i sl)) (serial : Nat) :
    ((s.fillStage5 i (slotWho i sl) serial).yieldPath (slotWho i sl) serial).ordered d := by
  have hf := fills_of_fillAt hat
  have hsel := k.table.inlet_selector hin
  unfold State.fillStage5
  split
  next =>
    have h1 := enterWaitSoft_keeps (.refl s) i d k
    have hoff : (s.enterWaitSoft i).seats.offPath (slotWho i sl) := by
      obtain ⟨-, h2⟩ := pathLeft k hf
      unfold State.enterWaitSoft
      rw [hat]
      dsimp only
      unfold Seats.offPath
      rw [line_setWork]
      exact h2
    have hf1 := ((goesOn_enterWaitSoft s i).fills _).mpr hf
    exact yieldPath_ordered h1 (.inl hf1) (fun c => hoff.2 (h1.table.inletLine _ c).1.2) (h1.fills_not_brine hf1) _
  next c hc =>
    split
    next => exact yieldPath_ordered k (.inl hf) (fun e => (k.table.inletLine _ e).2.1 hin) (k.fills_not_brine hf) _
    next hne =>
      obtain ⟨h1, hov⟩ := releaseIf_releases k.table.legal (slotWho i sl) .inlet
      have ku := releaseIf_keeps (.refl s) (slotWho i sl) (r := .inlet) (by decide) d k
      have htab := table_releaseIf_ne s (slotWho i sl) (r := .inlet) (q := .selector) (by decide) (by decide)
      obtain ⟨u, hu⟩ : ∃ u, u = s.releaseIf (slotWho i sl) .inlet := ⟨_, rfl⟩
      rw [← hu] at h1 hov ku htab ⊢
      have hfu := (Seats.fills_congr h1.loosens.op _).mpr hf
      have hsu : u.seats.atSelector (slotWho i sl) := by
        unfold Seats.atSelector
        rw [htab]
        exact hsel
      have hiu : (u.seats.table .inlet).holder ≠ some (slotWho i sl) := fun e => by
        have := (h1.loosens.legal k.table.legal .inlet).2
        rw [hov e] at this
        cases this
      have hlu : slotWho i sl ∉ (u.seats.table .inlet).line := fun e => (k.table.inletLine _ (h1.loosens.line _ e)).2.1 hin
      have hreg : (u.column c).state ≠ .regenerating := by
        have hcol : (u.seats.col c).state = (s.seats.col c).state := by rw [h1.loosens.col]
        exact fun e => fillPosition_not_regenerating k (k.run (seats_op (fillAt_eq_some.mp hat).1)) hc (hcol.symm.trans e)
      have kt := toInlet_ordered ku hfu hsu hiu hlu hreg serial
      have hline := toInlet_elsewhere ku hsu hiu (c := c) (by rw [show u.arb.selHeld = s.arb.selHeld from h1.loosens.selHeld]; exact hne) serial
      have hop : (u.toInlet (slotWho i sl) serial c).seats.op = u.seats.op := seats_op_pool ((State.keepsBut_toInlet _ _ _ _).pool (by decide))
      have hft := (Seats.fills_congr hop _).mpr hfu
      exact yieldPath_ordered kt (.inl hft) (by rw [hline]; exact hlu) (kt.fills_not_brine hft) _

/-! ### A decilitre of a FILL (R36, R37) -/

theorem goesOn_chargeDecilitre (s : State) (i : SlotId) : s.seats.goesOn (s.chargeDecilitre i).1.seats := by
  unfold State.chargeDecilitre
  dsimp only
  split
  next =>
    have h1 : ∀ n, s.seats.goesOn (s.setColumn s.arb.selHeld { s.column s.arb.selHeld with remaining := n }).seats := fun n =>
      State.goesOn_of_pool ((State.keepsBut_setColumn _ _ _).pool (by decide))
    dsimp only
    split
    next => exact (h1 _).trans (goesOn_exhaustColumn _ _ _ _)
    next =>
      split
      next => exact (h1 _).trans (goesOn_exhaustColumn _ _ _ _)
      next => exact h1 _
  next => exact .refl _

theorem fillDecilitre_ordered {s : State} (k : s.ordered none) {i : SlotId} (h : s.flowingFill = some i) : (s.fillDecilitre i).ordered none := by
  obtain ⟨sl, w, hat, -, hin⟩ := flowing_of_ordered k h
  obtain ⟨hp, hw, ho⟩ := fillAt_eq_some.mp hat
  have hsoft : w.waitSoft = false := by
    by_contra e
    rw [Bool.not_eq_false] at e
    refine (k.table.softWaits i sl.seat (seats_op hp) ((seat_fixed sl).mpr ho) (by rw [kind_of_fillAt hat, e])).2 ?_
    rw [← slotWho_seat]
    exact (k.table.inlet_selector hin).2
  unfold State.fillDecilitre
  rw [hat]
  dsimp only
  split
  next => exact k
  next =>
    have h1 := chargeDecilitre_ordered k i
    have hsp := spares_chargeDecilitre k (slotWho_slot i sl)
    have hgo := goesOn_chargeDecilitre s i
    generalize hcd : s.chargeDecilitre i = p at h1 hsp hgo ⊢
    obtain ⟨v, hv⟩ : ∃ v, v = w.counted' p.2 s.acct.hardness := ⟨_, rfl⟩
    have hvsoft : v.waitSoft = false := by
      rw [hv, ← hsoft]
      unfold FillWork.counted'
      split <;> rfl
    rw [← hv]
    obtain ⟨u, hu⟩ : ∃ u, u = p.1.raiseTank := ⟨_, rfl⟩
    have ku : p.1.keepsBut u [.water] := hu ▸ p.1.keepsBut_raiseTank
    have h2 := h1.frame ku (by decide)
    have hx := hgo i
    rw [seats_op hp] at hx
    obtain ⟨y, hy, hal⟩ : ∃ y, p.1.seats.op i = some y ∧ sl.seat.alike y := by
      rcases hx with ⟨e, -⟩ | ⟨x, y, hx, hy, hal⟩
      · cases e
      · cases hx
        exact ⟨y, hy, hal⟩
    obtain ⟨sl', hp', rfl⟩ := seats_op_eq_some.mp hy
    have hpu : u.pool[i] = some sl' := by rw [ku.pool, hp']
    obtain ⟨soft, hk'⟩ := hal.kind.fill_iff.mpr ⟨_, kind_of_fillAt hat⟩
    obtain ⟨w', hw', -⟩ := kind_eq_fill hk'
    have ho' : sl'.outcome = none := (seat_fixed sl').mp (hal.fixed.trans ((seat_fixed sl).mpr ho))
    have hatu : u.fillAt i = some (sl', w') := fillAt_eq hpu hw' ho'
    have h3 := Seats.ordered.setFill h2 hatu v fun e => by rw [hvsoft] at e; cases e
    have hpt : (u.setWork i (.fill v)).pool[i] = some { sl' with work := .fill v } := by
      rw [State.setWork_held hpu]
      exact State.pool_setSlot_self _ _ _
    have hatt : (u.setWork i (.fill v)).fillAt i = some ({ sl' with work := .fill v }, v) := fillAt_eq hpt rfl ho'
    have hwho : slotWho i { sl' with work := .fill v } = slotWho i sl := by
      have e1 := hal.who i
      rw [slotWho_fill (sl := { sl' with work := .fill v }) rfl, slotWho_seat, ← e1, ← slotWho_seat, slotWho_fill hw']
    rw [← hu]
    split
    next => exact finishFill_ordered h3 i _ _
    next =>
      split
      next => exact finishFill_ordered h3 i _ _
      next =>
        rw [← hwho]
        refine fillStage5_yields h3 hatt ?_ _
        rw [line_setWork, hwho, table_of_entry (ku.entry .inlet)]
        exact (hsp.keeps .inlet hin).2

theorem fillPulse_ordered {s : State} (k : s.ordered none) {i : SlotId} (h : s.flowingFill = some i) : (s.fillPulse i).ordered none := by
  unfold State.fillPulse
  split
  next => exact k
  next sl w hat =>
    obtain ⟨hp, hw, -⟩ := fillAt_eq_some.mp hat
    split
    next => exact fillDecilitre_ordered k h
    next => exact k.setWork hp (by rw [hw]; rfl)

end Sys2Proof.Machine

/-! The ends of a regeneration keep the order: without start, aborted, rinsed, and its REGENERATE answered (R63, R66, R67, R69, R70). -/

namespace Sys2Proof.Machine

/-! ### Salt and records are not of the view -/

theorem seats_deductSalt (s : State) (n : Nat) : (s.deductSalt n).seats = s.seats := by
  unfold State.deductSalt State.saltReported
  dsimp only
  split
  · split <;> rfl
  · rfl

theorem seats_recordAborted (s : State) (g : Regen) (o : OutcomeCode) (recorded : Bool) : (s.recordAborted g o recorded).seats = s.seats := by
  unfold State.recordAborted
  split
  · rw [seats_deductSalt]
    exact (s.keepsBut_appendRegenDraw _ _ _ _ _).seats (by decide)
  · split
    · exact (s.keepsBut_appendRegenDraw _ _ _ _ _).seats (by decide)
    · rfl

theorem regen_deductSalt (s : State) (n : Nat) : (s.deductSalt n).soft.regen = s.soft.regen := by
  unfold State.deductSalt State.saltReported
  dsimp only
  split
  · split <;> rfl
  · rfl

theorem regen_recordAborted (s : State) (g : Regen) (o : OutcomeCode) (recorded : Bool) : (s.recordAborted g o recorded).soft.regen = s.soft.regen := by
  unfold State.recordAborted
  split
  · rw [regen_deductSalt, (s.keepsBut_appendRegenDraw _ _ _ _ _).soft (by decide)]
  · split
    · rw [(s.keepsBut_appendRegenDraw _ _ _ _ _).soft (by decide)]
    · rfl

/-! ### The REGENERATE of a regeneration that is gone -/

section Idle

variable {a : Seats} {d : Option SlotId} (k : a.ordered d)
include k

/-- No entry of the queue names the REGENERATE of the regeneration in progress. -/
theorem Seats.ordered.requester_not_queued {g : Stage} (hg : a.regen = some g) {p : Port} {i : SlotId} (hq : g.requester = some (p, i)) (c : Column) (p' : Port) :
    (c, some (p', i)) ∉ a.queue := fun hm => by
  obtain ⟨x, hx, -, -, hk⟩ := k.soft.asked g p i hg hq
  obtain ⟨y, hy, -, -, hk'⟩ := k.soft.queued c p' i hm
  rw [hx] at hy
  cases hy
  rw [hk] at hk'
  cases hk'
  exact k.soft.apart g hg _ hm rfl

/-- A REGENERATE that is not the one of the regeneration in progress has nothing of the table. -/
theorem Seats.ordered.idleRegenerate {i : SlotId} {x : Seat} {c : Column} (hx : a.op i = some x) (hk : x.kind = .regenerate c)
    (hr : ∀ g p, a.regen = some g → g.requester ≠ some (p, i)) : a.letsGo i := by
  have huser : ∀ {st h}, h.slot = some i → ¬a.user st h := fun {st h} hs hu => by
    rcases hu with ⟨j, y, soft, rfl, hy, -, hky⟩ | ⟨g, hg, rfl, -⟩
    · rw [Seat.who_slot] at hs
      cases hs
      rw [hx] at hy
      cases hy
      rw [hk] at hky
      cases hky
    · unfold Stage.who at hs
      cases hq : g.requester with
      | none =>
        rw [hq] at hs
        cases hs
      | some pi =>
        rw [hq] at hs
        cases hs
        exact hr g pi.1 hg hq
  have hsel : ∀ {h}, h.slot = some i → (a.table .selector).holder ≠ some h := fun hs hh => huser hs (k.table.selector _ hh)
  have hres : ∀ {r h}, h.slot = some i → a.works r h → r = .selector ∨ r = .brine ∨ r = .inlet := fun {r h} hs hw => by
    obtain ⟨j, y, rfl, hy, -, hr'⟩ := hw
    rw [Seat.who_slot] at hs
    cases hs
    rw [hx] at hy
    cases hy
    rw [hk] at hr'
    simpa [WorkKind.resources] using hr'
  refine ⟨fun r h hh hs => ?_, fun r h hh hs => ?_⟩
  · rcases hres hs (k.table.waits r h hh (by simp [hs])) with rfl | rfl | rfl
    · exact huser hs (k.table.selectorLine h hh).1
    · exact hsel hs (k.table.brineLine h hh).1.1.2
    · exact hsel hs (k.table.inletLine h hh).1.2
  · refine (k.table.holds r h hh (by simp [hs])).resolve_right fun hw => ?_
    rcases hres hs hw with rfl | rfl | rfl
    · exact hsel hs hh
    · exact hsel hs (k.table.brine h hh).1.2
    · exact hsel hs (k.table.inlet_selector hh).2

end Idle

theorem not_fillIn_of_regenerate {a : Seats} {i : SlotId} {x : Seat} {c : Column} (hx : a.op i = some x) (hk : x.kind = .regenerate c) : ¬a.fillIn i :=
  fun ⟨y, soft, hy, _, hky⟩ => by
    rw [hx] at hy
    cases hy
    rw [hk] at hky
    cases hky

/-- The REGENERATE of a regeneration that is gone is answered. -/
theorem answerRegen_ordered {t : State} (k : t.ordered none) (hr : t.soft.regen = none) {g : Regen}
    (h : ∀ p i, g.requester = some (p, i) → (∃ x c, t.seats.op i = some x ∧ x.kind = .regenerate c) ∧ ∀ c p', (c, some (p', i)) ∉ t.seats.queue)
    (o : OutcomeCode) (fields : List Byte) (answer : Bool) : (t.answerRegen g o fields answer).ordered none := by
  have hreg : t.seats.regen = none := by
    show t.soft.regen.map _ = none
    rw [hr]
    rfl
  unfold State.answerRegen
  split
  next p i hq =>
    obtain ⟨⟨x, c, hx, hk⟩, hqueue⟩ := h p i hq
    unfold State.ordered
    rw [seats_endSlot]
    refine k.vacate (.inl rfl) (k.idleRegenerate hx hk fun g _ hg => ?_) ⟨hqueue, fun g _ hg => ?_, unmarked_of_order k (not_fillIn_of_regenerate hx hk)⟩ <;>
      · rw [hreg] at hg
        cases hg
  next => exact k

/-- Who is asked for by the regeneration in progress. -/
theorem requester_op {s : State} {d : Option SlotId} (k : s.ordered d) {g : Regen} (hg : s.soft.regen = some g) {p : Port} {i : SlotId}
    (hq : g.requester = some (p, i)) : (∃ x c, s.seats.op i = some x ∧ x.kind = .regenerate c) ∧ ∀ c p', (c, some (p', i)) ∉ s.seats.queue := by
  have hst : s.seats.regen = some g.stage := by
    show s.soft.regen.map _ = _
    rw [hg]
    rfl
  obtain ⟨x, hx, -, -, hk⟩ := k.soft.asked g.stage p i hst hq
  exact ⟨⟨x, _, hx, hk⟩, k.requester_not_queued hst hq⟩

theorem seats_regen_some {s : State} {g : Regen} (h : s.soft.regen = some g) : s.seats.regen = some g.stage := by
  show s.soft.regen.map _ = _
  rw [h]
  rfl

/-! ### In STARTING (R63) -/

theorem endInStarting_ordered {s : State} (k : s.ordered none) {g : Regen} (hg : s.soft.regen = some g) (hs : g.phase = .starting) (o : OutcomeCode)
    (answer : Bool) : (s.endInStarting g o answer).ordered none := by
  obtain ⟨t, ht⟩ : ∃ t, t = s.withdraw (regenWho g) := ⟨_, rfl⟩
  have kt : t.ordered none := ht ▸ withdraw_keeps (.refl s) _ none k
  have kframe : s.keepsBut t [.arb, .sense] := ht ▸ s.keepsBut_withdraw _
  have hgt : t.soft.regen = some g := (congrArg _ kframe.soft).trans hg
  have hst := seats_regen_some hgt
  have hreg : ∀ c, (t.seats.col c).state ≠ .regenerating := fun c e => by
    obtain ⟨x, hx, -, hp⟩ := (kt.soft.regenerating c).mp e
    rw [hst] at hx
    cases hx
    exact hp hs
  have hleaves : t.seats.leaves g.stage := by
    refine ⟨fun e => ?_, ?_⟩
    · rcases kt.table.selector _ e with hf | ⟨x, hx, -, hp⟩
      · exact kt.soft.regen_not_fills hst hf
      · rw [hst] at hx
        cases hx
        exact hp rfl hs
    · rw [← regenWho_stage, ht]
      exact (withdraw_releases s (regenWho g)).2 .selector
  obtain ⟨u, hu⟩ : ∃ u, u = t.setRegen none := ⟨_, rfl⟩
  have hlined : u.seats.lined u.seats.queue := ⟨fun _ _ h => h, hu ▸ kt.soft.nodup, fun g hg => by
    rw [hu] at hg
    cases hg⟩
  unfold State.endInStarting
  dsimp only
  rw [← ht, ← hu]
  generalize hback : (g.requester.isNone || (u.cfg.autoRegen && (u.column g.column).state == .exhausted)) = back
  obtain ⟨v, hv⟩ : ∃ v, v = (if back = true then u.joinHead g.column else u) := ⟨_, rfl⟩
  have hvl : u.seats.lined v.seats.queue := by
    rw [hv]
    split
    · exact joinHead_lined hlined (by rw [hu]; rfl)
    · exact hlined
  have hvs : v.seats = { t.seats with regen := none, col := t.seats.col, queue := v.seats.queue } := by
    rw [hv]
    split
    · unfold State.joinHead
      split <;> (rw [hu]; rfl)
    · rw [hu]
      rfl
  have hqueue : ∀ c r, (c, some r) ∈ v.seats.queue → (c, some r) ∈ t.seats.queue := fun c r h => by
    have := hvl.named c r h
    rw [hu] at this
    exact this
  have kv : v.ordered none := by
    unfold State.ordered
    rw [hvs]
    exact kt.ended hst hleaves hreg kt.soft.standby (fun c i hm => ⟨(kt.soft.marked c i hm).1, hm⟩) hqueue hvl.nodup
  have hvr : v.soft.regen = none := by
    have := congrArg Seats.regen hvs
    exact Option.map_eq_none_iff.mp this
  rw [← hv]
  refine takeHead_keeps (.refl _) none (answerRegen_ordered kv hvr (fun p i hq => ?_) _ _ _)
  obtain ⟨⟨x, c, hx, hk⟩, hno⟩ := requester_op kt hgt hq
  exact ⟨⟨x, c, (congrArg (fun a : Seats => a.op i) hvs).trans hx, hk⟩, fun c p' hm => hno c p' (hqueue c _ hm)⟩

/-! ### A started regeneration (R69, R70) -/

/-- The column of a regeneration that ends takes its last record, and the regeneration is gone. -/
theorem columnEnds_ordered {t : State} {d : Option SlotId} (k : t.ordered d) {g : Regen} (hg : t.soft.regen = some g) (hl : t.seats.leaves g.stage)
    (hs : g.phase ≠ .starting) {r : ColumnRec} (hr : r.state ≠ .regenerating) (hm : r.breakthrough = none)
    (hst : r.state = .standby → (t.column (Column.other g.column)).state = .inService) : ((t.setColumn g.column r).setRegen none).ordered d := by
  have hstage := seats_regen_some hg
  have hc : (t.seats.col g.column).state = .regenerating := (k.soft.regenerating g.column).mpr ⟨g.stage, hstage, rfl, hs⟩
  unfold State.ordered
  rw [seats_setRegen, seats_setColumn]
  refine k.ended hstage hl (fun c => ?_) (fun hrun c => ?_) (fun c i => ?_) (fun _ _ h => h) k.soft.nodup <;> dsimp only
  · split
    · exact hr
    · rename_i hne
      intro e
      obtain ⟨x, hx, hcol, -⟩ := (k.soft.regenerating c).mp e
      rw [hstage] at hx
      cases hx
      exact hne hcol.symm
  · by_cases hcc : c = g.column
    · rw [if_pos hcc, hcc, if_neg (Column.other_ne _)]
      exact hst
    · rw [if_neg hcc]
      intro e
      have := k.soft.standby hrun c e
      obtain rfl : c = Column.other g.column := by cases c <;> cases hgc : g.column <;> simp_all [Column.other]
      rw [Column.other_other, hc] at this
      cases this
  · split
    · intro e
      have : r.breakthrough = some i := e
      rw [hm] at this
      cases this
    · exact fun e => ⟨(k.soft.marked c i e).1, e⟩

/-- A requester that has let go of everything and waits nowhere has left the path. -/
theorem Lets.leaves {a b : Seats} {g : Stage} (h : Lets g.who a b) (hl : a.legal) : b.leaves g := by
  refine ⟨fun e => ?_, h.line .selector⟩
  have := (h.loosens.legal hl .selector).2
  rw [h.gone .selector e] at this
  cases this

theorem abortRegen_ordered {s : State} (k : s.ordered none) {g : Regen} (hg : s.soft.regen = some g) (hs : g.phase ≠ .starting) (o : OutcomeCode)
    (recorded answer : Bool) : (s.abortRegen g o recorded answer).ordered none := by
  obtain ⟨t, ht⟩ : ∃ t, t = (s.releaseAll (regenWho g)).withdraw (regenWho g) := ⟨_, rfl⟩
  have kt : t.ordered none := ht ▸ letsAll_keeps (.refl s) _ none k
  have hlets : Lets g.stage.who s.seats t.seats := by
    rw [ht, regenWho_stage]
    exact letsAll k.table.legal _
  obtain ⟨u, hu⟩ : ∃ u, u = t.recordAborted g o recorded := ⟨_, rfl⟩
  have hus : u.seats = t.seats := by rw [hu, seats_recordAborted]
  have ku := kt.unseen hus
  have hgu : u.soft.regen = some g := by
    rw [hu]
    rw [regen_recordAborted, ht, (State.keepsBut_withdraw _ _).soft (by decide), (State.keepsBut_releaseAll _ _).soft (by decide)]
    exact hg
  have hleaves : u.seats.leaves g.stage := hus ▸ hlets.leaves k.table.legal
  obtain ⟨v, hv⟩ : ∃ v, v = (u.setColumn g.column { u.column g.column with state := .exhausted, remaining := 0, last := .aborted, breakthrough := none }).setRegen none :=
    ⟨_, rfl⟩
  have kv : v.ordered none := hv ▸ columnEnds_ordered ku hgu hleaves hs (by simp) rfl fun e => by cases e
  have hvq : v.seats.queue = u.seats.queue := by
    rw [hv, seats_setRegen, seats_setColumn]
  have hvo : v.seats.op = u.seats.op := by
    rw [hv, seats_setRegen, seats_setColumn]
  obtain ⟨w, hw⟩ : ∃ w, w = (if v.cfg.autoRegen then v.joinTail g.column else v) := ⟨_, rfl⟩
  have kw : w.ordered none := by
    rw [hw]
    split
    · exact joinTail_keeps (.refl v) _ none kv
    · exact kv
  have hwr : w.soft.regen = none := by
    rw [hw]
    split
    · unfold State.joinTail
      split <;> (rw [hv]; rfl)
    · rw [hv]
      rfl
  have hwq : ∀ c r, (c, some r) ∈ w.seats.queue → (c, some r) ∈ u.seats.queue := fun c r h => by
    rw [← hvq]
    rw [hw] at h
    split at h
    · exact (joinTail_lined kv.lined).named c r h
    · exact h
  have hwo : w.seats.op = u.seats.op := by
    rw [← hvo, hw]
    split
    · unfold State.joinTail
      split <;> rfl
    · rfl
  unfold State.abortRegen
  dsimp only
  rw [← ht, ← hu, ← hv, ← hw]
  obtain ⟨x, hx⟩ : ∃ x, x = w.post .regenEnded (columnCode g.column) 3 := ⟨_, rfl⟩
  have kx : w.keepsBut x [.ports] := hx ▸ w.keepsBut_post _ _ _
  have hxs := kx.seats
  rw [← hx]
  refine takeHead_keeps (judgeFills_keeps (.refl _) _) none (answerRegen_ordered (kw.frame kx (by decide)) (by rw [kx.soft]; exact hwr) (fun p i hq => ?_) _ _ _)
  obtain ⟨⟨y, c, hy, hk⟩, hno⟩ := requester_op ku hgu hq
  rw [hxs]
  exact ⟨⟨y, c, by rw [hwo]; exact hy, hk⟩, fun c p' hm => hno c p' (hwq c _ hm)⟩

theorem endRegen_ordered {s : State} (k : s.ordered none) (o : OutcomeCode) (answer : Bool) : (s.endRegen o answer).ordered none := by
  unfold State.endRegen
  split
  next => exact k
  next g hg =>
    split
    next hs => exact endInStarting_ordered k hg hs o answer
    next hs => exact abortRegen_ordered k hg hs o false answer

theorem rinseSuspended_ordered {s : State} (k : s.ordered none) : s.rinseSuspended.ordered none := by
  unfold State.rinseSuspended
  split
  next g hg =>
    split
    next h => exact abortRegen_ordered k hg (by rw [h.1]; decide) _ _ _
    next => exact k
  next => exact k

end Sys2Proof.Machine

/-! The phases of a regeneration and the REGENERATE operation keep the order (R61, R65 to R69, R72, R73). -/

namespace Sys2Proof.Machine

/-! ### The phases in the view -/

theorem seats_setRegen_same {s : State} {g g' : Regen} (hg : s.soft.regen = some g) (h : g'.stage = g.stage) : (s.setRegen (some g')).seats = s.seats := by
  rw [seats_setRegen]
  show { s.seats with regen := some g'.stage } = s.seats
  rw [h, ← seats_regen_some hg]

/-- Where the regeneration is not in BRINE_DRAW, nobody has to do with BRINE. -/
theorem Seats.ordered.brineIdle {a : Seats} {d : Option SlotId} (k : a.ordered d) {g : Stage} (hg : a.regen = some g) (hp : g.phase ≠ .brineDraw) :
    (a.table .brine).holder = none ∧ (a.table .brine).line = [] := by
  have hno : ∀ h, ¬a.brineUser h := fun h ⟨_, x, hx, _, e⟩ => by
    rw [hg] at hx
    cases hx
    exact hp e
  refine ⟨?_, List.eq_nil_iff_forall_not_mem.mpr fun h hh => hno h (k.table.brineLine h hh).1⟩
  by_contra e
  obtain ⟨h, hh⟩ := Option.ne_none_iff_exists'.mp e
  exact hno h (k.table.brine h hh)

/-- The regeneration may ask for SELECTOR. -/
theorem Seats.ordered.regenMayAsk {a : Seats} {d : Option SlotId} (k : a.ordered d) {g : Stage} (hg : a.regen = some g) : a.mayAsk .selector g.who := by
  have hu : a.user false g.who := .inr ⟨g, hg, rfl, fun e => by cases e⟩
  exact ⟨fun hs => k.user_works hu hs (.inl rfl), fun _ => ⟨hu, fun hf => absurd hf (k.soft.regen_not_fills hg),
    fun i x hx ho hk e => k.soft.regen_not_fills hg ⟨i, x, true, e, hx, ho, hk⟩⟩, (fun e => by cases e), (fun e => by cases e), fun e => by cases e⟩

/-- The regeneration that has SELECTOR HELD may ask for INLET. -/
theorem Seats.ordered.regenMayAskInlet {a : Seats} {d : Option SlotId} (k : a.ordered d) {g : Stage} (hg : a.regen = some g) (hs : a.atSelector g.who)
    (hi : (a.table .inlet).holder ≠ some g.who) (hb : g.who ∉ (a.table .brine).line) : a.mayAsk .inlet g.who := by
  have hu : a.user false g.who := .inr ⟨g, hg, rfl, fun e => by cases e⟩
  exact ⟨fun hn => k.user_works hu hn (.inr (.inl rfl)), (fun e => by cases e), fun _ => ⟨hs, hi, fun hf => absurd hf (k.soft.regen_not_fills hg), hb⟩,
    (fun e => by cases e), fun e => by cases e⟩

section Phases

variable {s : State} {d : Option SlotId} (k : s.ordered d) {g : Regen} (hg : s.soft.regen = some g)
include k hg

theorem regenAsks_ordered : (s.regenAsks g).ordered d := by
  have hm := k.regenMayAsk (seats_regen_some hg)
  unfold State.regenAsks State.ordered
  rw [seats_ask, regenWho_stage]
  exact k.ask hm

/-! ### SELECTOR and BRINE held (R65, R68) -/

theorem regenSelectorHeld_ordered (hs : s.seats.atSelector (regenWho g)) (hi : (s.seats.table .inlet).holder ≠ some (regenWho g))
    (hl : regenWho g ∉ (s.seats.table .inlet).line) (hb : regenWho g ∉ (s.seats.table .brine).line) : s.regenSelectorHeld.ordered d := by
  have hst := seats_regen_some hg
  unfold State.regenSelectorHeld
  rw [hg]
  dsimp only
  rw [regenWho_stage] at *
  split
  next hp =>
    unfold State.ordered
    rw [seats_ask]
    have hu : s.seats.user false g.stage.who := .inr ⟨_, hst, rfl, fun e => by cases e⟩
    exact k.ask ⟨fun hn => k.user_works hu hn (.inr (.inr ⟨rfl, k.soft.regen_not_fills hst⟩)), (fun e => by cases e), (fun e => by cases e),
      fun _ => ⟨⟨hs, _, hst, rfl, hp⟩, hl, hi⟩, fun e => by cases e⟩
  next =>
    unfold State.ordered
    rw [seats_ask]
    exact k.ask (k.regenMayAskInlet hst hs hi hb)
  next => exact k
  next => exact k

theorem regenBrineGranted_ordered (hs : s.seats.atSelector (regenWho g)) (hi : (s.seats.table .inlet).holder ≠ some (regenWho g))
    (hb : regenWho g ∉ (s.seats.table .brine).line) : s.regenBrineGranted.ordered d := by
  unfold State.regenBrineGranted
  rw [hg]
  dsimp only
  rw [regenWho_stage] at *
  unfold State.ordered
  rw [seats_ask]
  exact k.ask (k.regenMayAskInlet (seats_regen_some hg) hs hi hb)

end Phases

theorem regenInletGranted_ordered {s : State} {d : Option SlotId} (k : s.ordered d) : s.regenInletGranted.ordered d := by
  unfold State.regenInletGranted
  split
  next => exact k
  next g hg =>
    have hsame : ∀ g' : Regen, g'.stage = g.stage → (s.setRegen (some g')).ordered d := fun g' e => k.unseen (seats_setRegen_same hg e)
    split
    · exact hsame _ rfl
    · exact hsame _ rfl
    · exact k
    · exact k

theorem brineReading_ordered {s : State} {d : Option SlotId} (k : s.ordered d) : s.brineReading.ordered d := by
  unfold State.brineReading
  split
  next g hg =>
    split
    · exact k.unseen (seats_setRegen_same hg rfl)
    · exact k
  next => exact k

theorem endSoak_ordered {s : State} {d : Option SlotId} (k : s.ordered d) {g : Regen} (hg : s.soft.regen = some g) (hp : g.phase = .soak) :
    (s.endSoak g).ordered d := by
  have hst := seats_regen_some hg
  have hb := k.brineIdle hst (show g.phase ≠ _ by rw [hp]; decide)
  obtain ⟨g', hg'⟩ : ∃ g' : Regen, g' = { g with phase := .rinse, judgement := s.soakJudgement g, counted := 0, pulses := 0, rinseStarted := false } := ⟨_, rfl⟩
  have h1 : (s.setRegen (some g')).ordered d := by
    have := k.phased hst (ph := .rinse) (show g.phase ≠ _ by rw [hp]; decide) (by decide) (.inr hb)
    unfold State.ordered
    rw [seats_setRegen, hg']
    exact this
  unfold State.endSoak
  dsimp only
  rw [← hg']
  exact regenAsks_ordered h1 rfl

/-! ### BRINE_DRAW ends (R66) -/

theorem releaseIf_over {s : State} {d : Option SlotId} (k : s.ordered d) (who : Holder) {r : Resource} (hr : r.allows .releasing = false) :
    ((s.releaseIf who r).seats.table r).holder ≠ some who := fun e => by
  obtain ⟨h, hov⟩ := releaseIf_releases k.table.legal who r
  have := (h.loosens.legal k.table.legal r).2
  rw [hov e, hr] at this
  cases this

theorem endBrineDraw_ordered {s : State} (k : s.ordered none) {g : Regen} (hg : s.soft.regen = some g) (hp : g.phase = .brineDraw)
    (hin : (s.seats.table .inlet).holder = some (regenWho g)) : (s.endBrineDraw g).ordered none := by
  have hst := seats_regen_some hg
  have hne : g.phase ≠ .starting := by rw [hp]; decide
  obtain ⟨u, hu⟩ : ∃ u, u = s.releaseIf (regenWho g) .inlet := ⟨_, rfl⟩
  have ku : u.ordered none := hu ▸ releaseIf_keeps (.refl s) _ (by decide) none k
  have hui : (u.seats.table .inlet).holder ≠ some (regenWho g) := hu ▸ releaseIf_over k _ rfl
  have hul := (releaseIf_releases k.table.legal (regenWho g) .inlet).1.loosens
  obtain ⟨t, ht⟩ : ∃ t, t = u.releaseIf (regenWho g) .brine := ⟨_, rfl⟩
  have kt : t.ordered none := ht ▸ releaseIf_keeps (.refl u) _ (by decide) none ku
  have htb : (t.seats.table .brine).holder ≠ some (regenWho g) := ht ▸ releaseIf_over ku _ rfl
  have htl := (releaseIf_releases ku.table.legal (regenWho g) .brine).1.loosens
  rw [← hu] at hul
  rw [← ht] at htl
  obtain ⟨v, hv⟩ : ∃ v, v = (t.deductSalt (t.cfg.brineVolume * t.cfg.saltPerDl)).appendRegenDraw .brine g.column g.counted
    ((t.deductSalt (t.cfg.brineVolume * t.cfg.saltPerDl)).drawHardness g) (if g.cancelPending then .cancelled else .done) := ⟨_, rfl⟩
  have hvs : v.seats = t.seats := by
    rw [hv, (State.keepsBut_appendRegenDraw _ _ _ _ _ _).seats (by decide), seats_deductSalt]
  have kv := kt.unseen hvs
  have hgv : v.soft.regen = some g := by
    rw [hv, (State.keepsBut_appendRegenDraw _ _ _ _ _ _).soft (by decide), regen_deductSalt, ht, (State.keepsBut_releaseIf _ _ _).soft (by decide), hu, (State.keepsBut_releaseIf _ _ _).soft (by decide)]
    exact hg
  have hin' : ∀ h, (∃ x, s.seats.regen = some x ∧ h = x.who) → (s.seats.table .inlet).holder = some h := fun h ⟨x, hx, e⟩ => by
    rw [hst] at hx
    cases hx
    rw [e, ← regenWho_stage]
    exact hin
  have hbrine : (v.seats.table .brine).holder = none ∧ (v.seats.table .brine).line = [] := by
    rw [hvs]
    refine ⟨?_, List.eq_nil_iff_forall_not_mem.mpr fun h hh => ?_⟩
    · by_contra e
      obtain ⟨h, hh⟩ := Option.ne_none_iff_exists'.mp e
      obtain ⟨-, x, hx, e', -⟩ := kt.table.brine h hh
      have hsame : h = regenWho g := by
        rw [htl.regen, hul.regen, hst] at hx
        cases hx
        rw [e', regenWho_stage]
      exact htb (hsame ▸ hh)
    · obtain ⟨⟨-, x, hx, e', -⟩, -, hno⟩ := k.table.brineLine h (hul.line _ (htl.line _ hh))
      exact hno (hin' h ⟨x, hx, e'⟩)
  have hline : regenWho g ∉ (v.seats.table .inlet).line := fun e => by
    rw [hvs] at e
    exact (k.table.inletLine _ (hul.line _ (htl.line _ e))).2.1 hin
  have hhold : (v.seats.table .inlet).holder ≠ some (regenWho g) := fun e => by
    rw [hvs] at e
    exact hui ((htl.place .inlet).holder e)
  unfold State.endBrineDraw
  dsimp only
  rw [← hu, ← ht, ← hv]
  split
  next => exact abortRegen_ordered kv hgv hne _ _ _
  next =>
    obtain ⟨g', hg'⟩ : ∃ g' : Regen, g' = { g with phase := .soak, soak := Timer.zero, brineSeen := false, judgement := .none } := ⟨_, rfl⟩
    obtain ⟨w, hw⟩ : ∃ w, w = v.setRegen (some g') := ⟨_, rfl⟩
    have hws : w.seats = { v.seats with regen := some { g.stage with phase := .soak } } := by
      rw [hw, seats_setRegen, hg']
      rfl
    have kw : w.ordered none := by
      unfold State.ordered
      rw [hws]
      exact kv.phased (seats_regen_some hgv) hne (by decide) (.inr hbrine)
    rw [← hg', ← hw]
    have htab : ∀ r, w.seats.table r = v.seats.table r := fun r => by rw [hws]
    obtain ⟨h, hov⟩ := releaseIf_releases kw.table.legal (regenWho g) .selector
    refine h.loosens.ordered (h.clears fun _ => ⟨fun e => hline ?_, fun e => ?_, fun e => ?_, fun e => hhold ?_⟩) kw
    · rw [← htab]
      exact h.loosens.line _ e
    · have := h.loosens.line _ e
      rw [htab, hbrine.2] at this
      cases this
    · have := (h.loosens.place _).holder e
      rw [htab, hbrine.1] at this
      cases this
    · rw [← htab]
      exact (h.loosens.place _).holder e

/-! ### RINSE ends (R69) -/

theorem endRinse_ordered {s : State} (k : s.ordered none) {g : Regen} (hg : s.soft.regen = some g) (hp : g.phase = .rinse) : (s.endRinse g).ordered none := by
  have hst := seats_regen_some hg
  have hne : g.phase ≠ .starting := by rw [hp]; decide
  obtain ⟨h1, hi1⟩ := releaseIf_releases k.table.legal (regenWho g) .inlet
  have hleg1 := h1.loosens.legal k.table.legal
  obtain ⟨h2, hs2⟩ := releaseIf_releases hleg1 (regenWho g) .selector
  obtain ⟨h3, hl3⟩ := withdraw_releases ((s.releaseIf (regenWho g) .inlet).releaseIf (regenWho g) .selector) (regenWho g)
  obtain ⟨t, ht⟩ : ∃ t, t = ((s.releaseIf (regenWho g) .inlet).releaseIf (regenWho g) .selector).withdraw (regenWho g) := ⟨_, rfl⟩
  rw [← ht] at h3 hl3
  have h := (h1.trans h2).trans h3
  have hleg := h.loosens.legal k.table.legal
  have hover : ∀ {r : Resource}, (t.seats.table r).over (regenWho g) → r.allows .releasing = false → (t.seats.table r).holder ≠ some (regenWho g) := fun {r} ho hr e => by
    have := (hleg r).2
    rw [ho e, hr] at this
    cases this
  have hsel := hover ((h3.loosens.place .selector).over hs2) rfl
  have hinl := hover (((h2.trans h3).loosens.place .inlet).over hi1) rfl
  have hbr : (t.seats.table .brine).holder ≠ some (regenWho g) := fun e => by
    have := (h.loosens.place .brine).holder e
    rw [(k.brineIdle hst (show g.phase ≠ _ by rw [hp]; decide)).1] at this
    cases this
  have kt : t.ordered none := h.loosens.ordered (h.clears fun _ => ⟨hl3 _, hl3 _, hbr, hinl⟩) k
  have hleaves : t.seats.leaves g.stage := by
    unfold Seats.leaves
    rw [← regenWho_stage]
    exact ⟨hsel, hl3 _⟩
  have hgt : t.soft.regen = some g := by
    rw [ht, (State.keepsBut_withdraw _ _).soft (by decide), (State.keepsBut_releaseIf _ _ _).soft (by decide), (State.keepsBut_releaseIf _ _ _).soft (by decide)]
    exact hg
  obtain ⟨u, hu⟩ : ∃ u, u = t.appendRegenDraw .rinse g.column g.counted (t.drawHardness g) .done := ⟨_, rfl⟩
  have kfu : t.keepsBut u [.acct] := hu ▸ t.keepsBut_appendRegenDraw _ _ _ _ _
  have hus := kfu.seats
  have ku := kt.unseen hus
  have hgu : u.soft.regen = some g := by rw [kfu.soft]; exact hgt
  have hcol : (u.column g.column).state = .regenerating := (ku.soft.regenerating g.column).mpr ⟨_, seats_regen_some hgu, rfl, hne⟩
  obtain ⟨v, hv⟩ : ∃ v, v = (u.restoreColumn g).setRegen none := ⟨_, rfl⟩
  have kv : v.ordered none := by
    rw [hv]
    unfold State.restoreColumn
    refine columnEnds_ordered ku hgu (hus ▸ hleaves) hne ?_ rfl fun e => ?_
    · dsimp only
      split <;> decide
    · dsimp only at e
      split at e
      next => cases e
      next hin =>
        cases hc : u.inService with
        | none =>
          rw [hc] at hin
          exact absurd rfl hin
        | some c =>
          have hsv := State.inService_state hc
          by_cases hcc : c = g.column
          · rw [hcc, hcol] at hsv
            cases hsv
          · obtain rfl : c = Column.other g.column := by cases c <;> cases hgc : g.column <;> simp_all [Column.other]
            exact hsv
  have hvq : v.seats.queue = u.seats.queue := by
    rw [hv, seats_setRegen]
    unfold State.restoreColumn
    rw [seats_setColumn]
  have hvo : v.seats.op = u.seats.op := by
    rw [hv, seats_setRegen]
    unfold State.restoreColumn
    rw [seats_setColumn]
  unfold State.endRinse
  dsimp only
  rw [← ht, ← hu, ← hv]
  obtain ⟨x, hx⟩ : ∃ x, x = (v.post .regenEnded (columnCode g.column) (judgementCode g.judgement)).postInService g.column u.inService.isNone := ⟨_, rfl⟩
  have kx : v.keepsBut x [.ports] := hx ▸ (v.keepsBut_post _ _ _).step (State.keepsBut_postInService _ _ _) (List.Subset.refl _)
  have hxs := kx.seats
  rw [← hx]
  refine takeHead_keeps (judgeFills_keeps (.refl _) _) none (answerRegen_ordered (kv.frame kx (by decide)) (by rw [kx.soft, hv]; rfl) (fun p i hq => ?_) _ _ _)
  obtain ⟨⟨y, c, hy, hk⟩, hno⟩ := requester_op ku hgu hq
  rw [hxs, hvo, hvq]
  exact ⟨⟨y, c, hy, hk⟩, hno⟩

/-! ### A decilitre of a regeneration (R65 to R69) -/

theorem regenDecilitre_ordered {s : State} (k : s.ordered none) {g : Regen} (hg : s.soft.regen = some g)
    (hin : (s.seats.table .inlet).holder = some (regenWho g)) : (s.regenDecilitre g).ordered none := by
  unfold State.regenDecilitre
  extract_lets g' t
  have hts : t.seats = s.seats := seats_setRegen_same hg rfl
  have kt := k.unseen hts
  have hgt : t.soft.regen = some g' := rfl
  have hwho : regenWho g' = regenWho g := rfl
  have hint : (t.seats.table .inlet).holder = some (regenWho g') := by rw [hts, hwho]; exact hin
  clear_value t g'
  split
  next hp =>
    split
    · exact endBrineDraw_ordered kt hgt hp hint
    · exact kt
  next hp =>
    have kr := t.keepsBut_raiseTank
    have hrs := kr.seats
    have k1 := kt.frame kr (by decide)
    have hg1 : t.raiseTank.soft.regen = some g' := by rw [kr.soft]; exact hgt
    have hst := seats_regen_some hg1
    split
    · exact abortRegen_ordered k1 hg1 (by rw [hp]; decide) _ _ _
    · split
      · exact endRinse_ordered k1 hg1 hp
      · have hb := k1.brineIdle hst (show g'.phase ≠ _ by rw [hp]; decide)
        refine yieldPath_ordered k1 (.inr ⟨_, hst, regenWho_stage g', fun _ => show g'.phase ≠ _ by rw [hp]; decide⟩) (fun e => ?_) ⟨?_, ?_⟩ _
        · rw [hrs] at e
          exact (kt.table.inletLine _ e).2.1 hint
        · rw [hb.2]
          exact List.not_mem_nil
        · rw [hb.1]
          exact fun e => by cases e
  next => exact kt
  next => exact kt

end Sys2Proof.Machine

/-! The REGENERATE operation, the pulses and the times without flow keep the order (R31, R38, R61, R65, R72, R73). -/

namespace Sys2Proof.Machine

/-! ### The queue without an entry (R61) -/

/-- Each element gives nothing or one element of the same key. -/
theorem flatMap_keys_sublist {α β : Type} {f : α → List α} {g : α → β} (h : ∀ x, f x = [] ∨ ∃ y, f x = [y] ∧ g y = g x) :
    ∀ l : List α, ((l.flatMap f).map g).Sublist (l.map g)
  | [] => List.Sublist.refl _
  | x :: l => by
    have ih := flatMap_keys_sublist h l
    rw [List.flatMap_cons, List.map_append, List.map_cons]
    rcases h x with hx | ⟨y, hx, hy⟩
    · rw [hx]
      exact ih.cons _
    · rw [hx, List.map_cons, List.map_nil, hy]
      exact ih.cons_cons _

section Unqueue

variable (s : State) (p : Port) (i : SlotId)

theorem mem_unqueue {e : QueueEntry} (h : e ∈ (s.unqueue p i).soft.queue) : ∃ q ∈ s.soft.queue, e.column = q.column ∧
    ((e = q ∧ q.requester ≠ some (p, i)) ∨ e.requester = none) := by
  obtain ⟨q, hq, he⟩ := List.mem_flatMap.mp h
  refine ⟨q, hq, ?_⟩
  split at he
  next =>
    split at he
    next =>
      rw [List.mem_singleton.mp he]
      exact ⟨rfl, .inr rfl⟩
    next => cases he
  next hne =>
    rw [List.mem_singleton.mp he]
    exact ⟨rfl, .inl ⟨rfl, hne⟩⟩

theorem unqueue_columns : ((s.unqueue p i).soft.queue.map (·.column)).Sublist (s.soft.queue.map (·.column)) :=
  flatMap_keys_sublist (f := fun q : QueueEntry => if q.requester = some (p, i) then
      if s.cfg.autoRegen && (s.column q.column).state == .exhausted then [(⟨q.column, none, s.drive.clock⟩ : QueueEntry)] else [] else [q]) (fun q => by
    split
    · split
      · exact .inr ⟨_, rfl, rfl⟩
      · exact .inl rfl
    · exact .inr ⟨_, rfl, rfl⟩) _

theorem seats_unqueue : (s.unqueue p i).seats = { s.seats with queue := (s.unqueue p i).seats.queue } := rfl

theorem unqueue_lined {a : Seats} (ha : a = s.seats) (h : a.lined a.queue) : a.lined (s.unqueue p i).seats.queue := by
  subst ha
  have hcols : (s.unqueue p i).seats.queue.map (·.1) = (s.unqueue p i).soft.queue.map (·.column) := by
    show ((s.unqueue p i).soft.queue.map _).map _ = _
    rw [List.map_map]
    rfl
  have hold : s.seats.queue.map (·.1) = s.soft.queue.map (·.column) := by
    show (s.soft.queue.map _).map _ = _
    rw [List.map_map]
    rfl
  refine ⟨fun c r hm => ?_, ?_, fun g hg e he => ?_⟩
  · obtain ⟨q, hq, he⟩ := List.mem_map.mp hm
    obtain ⟨e1, e2⟩ := Prod.mk.inj he
    obtain ⟨q', hq', hc, ⟨rfl, -⟩ | hn⟩ := mem_unqueue s p i hq
    · exact List.mem_map.mpr ⟨q, hq', he⟩
    · rw [hn] at e2
      cases e2
  · rw [hcols]
    exact (hold ▸ h.nodup : (s.soft.queue.map (·.column)).Nodup).sublist (unqueue_columns s p i)
  · obtain ⟨q, hq, rfl⟩ := List.mem_map.mp he
    obtain ⟨q', hq', hc, -⟩ := mem_unqueue s p i hq
    show q.column ≠ _
    rw [hc]
    exact h.apart g hg _ (List.mem_map.mpr ⟨q', hq', rfl⟩)

end Unqueue

theorem endQueued_ordered {s : State} (k : s.ordered none) {p : Port} {i : SlotId} (hq : s.regenQueued p i = true) (o : OutcomeCode) (answer : Bool) :
    (s.endQueued p i o answer).ordered none := by
  obtain ⟨q, hmem, hreq⟩ : ∃ q ∈ s.soft.queue, q.requester = some (p, i) := by simpa [State.regenQueued] using hq
  have hin : (q.column, some (p, i)) ∈ s.seats.queue := List.mem_map.mpr ⟨q, hmem, by rw [hreq]⟩
  obtain ⟨x, hx, hfix, hport, hk⟩ := k.soft.queued _ _ _ hin
  have ku : (s.unqueue p i).ordered none := by
    unfold State.ordered
    rw [seats_unqueue]
    exact k.requeue (unqueue_lined s p i rfl k.lined)
  have hreg : ∀ g p', (s.unqueue p i).seats.regen = some g → g.requester ≠ some (p', i) := fun g p' hg e =>
    k.requester_not_queued hg e _ _ hin
  unfold State.endQueued State.ordered
  rw [seats_endSlot]
  refine ku.vacate (.inl rfl) (ku.idleRegenerate hx hk hreg) ⟨fun c p' hm => ?_, fun g p' hg => hreg g p' hg, unmarked_of_order ku (not_fillIn_of_regenerate hx hk)⟩
  obtain ⟨y, hy, -, hport', -⟩ := ku.soft.queued _ _ _ hm
  have hy : s.seats.op i = some y := hy
  rw [hx] at hy
  cases hy
  obtain rfl : p = p' := hport.symm.trans hport'
  obtain ⟨e, he, heq⟩ := List.mem_map.mp hm
  obtain ⟨-, e2⟩ := Prod.mk.inj heq
  obtain ⟨q', -, -, ⟨rfl, hne⟩ | hn⟩ := mem_unqueue s p i he
  · exact hne e2
  · rw [hn] at e2
    cases e2

/-! ### A REGENERATE cancelled (R73) -/

theorem cancelRegenerate_ordered {s : State} (k : s.ordered none) (p : Port) (i : SlotId) (answer : Bool) : (s.cancelRegenerate p i answer).ordered none := by
  unfold State.cancelRegenerate
  split
  next hq => exact endQueued_ordered k hq _ _
  next =>
    split
    next => exact k
    next g hg =>
      split
      next =>
        dsimp only
        split
        next => exact k.unseen (seats_setRegen_same hg rfl)
        next => exact endRegen_ordered k _ _
      next => exact k

/-! ### A REGENERATE taken up (R61, R72) -/

/-- An operation just accepted is refused: nothing of the part is its own yet. -/
theorem refuseSlot_ordered {s : State} (k : s.ordered none) {i : SlotId} (hl : s.seats.letsGo i) (hn : s.seats.unnamed i) (o : OutcomeCode) :
    (s.refuseSlot i o).ordered none := by
  unfold State.refuseSlot
  split
  next sl hp =>
    unfold State.ordered
    rw [seats_setSlot, (s.keepsBut_reply _ _ _ _).seats (by decide)]
    exact k.vacate (.inl rfl) hl hn
  next => exact k

theorem takeUpRegenerate_ordered {s : State} (k : s.ordered none) {i : SlotId} (hl : s.seats.letsGo i) (hn : s.seats.unnamed i) {column : Nat} {sl : Slot}
    (hp : s.pool[i] = some sl) (ho : sl.outcome = none) (hw : sl.work = .regenerate ((columnOf column).getD .a)) : (s.takeUpRegenerate i column).ordered none := by
  unfold State.takeUpRegenerate
  rw [hp]
  dsimp only
  split
  next => exact refuseSlot_ordered k hl hn _
  next c hc =>
    rw [hc] at hw
    split
    next => exact refuseSlot_ordered k hl hn _
    next hreg =>
      split
      next => exact refuseSlot_ordered k hl hn _
      next =>
        split
        next => exact refuseSlot_ordered k hl hn _
        next =>
          simp only [Bool.or_eq_true, not_or, Bool.not_eq_true] at hreg
          obtain ⟨-, hregOf⟩ := hreg
          refine takeHead_keeps (.refl _) none ?_
          unfold State.ordered
          rw [seats_setQueue]
          refine (?_ : Restocks s.seats _).ordered k
          have hcols : ((s.soft.queue.filter fun q => q.column != c).map (·.column)).Nodup := by
            have hold : (s.soft.queue.map (·.column)).Nodup := by
              have := k.soft.nodup
              rwa [show s.seats.queue.map (·.1) = s.soft.queue.map (·.column) by
                show (s.soft.queue.map _).map _ = _
                rw [List.map_map]
                rfl] at this
            exact hold.sublist (List.Sublist.map _ List.filter_sublist)
          refine ⟨rfl, fun _ => .rfl, k.soft.standby, fun x j hm => ⟨(k.soft.marked x j hm).1, .inl hm⟩, fun x p j hm => ?_, k.soft.quiet, ?_, fun g hg q hm => ?_⟩
          · rcases List.mem_cons.mp hm with hm | hm
            · obtain ⟨rfl, e⟩ := Prod.mk.inj hm
              obtain ⟨rfl, rfl⟩ := Prod.mk.inj (Option.some.inj e)
              exact .inr ⟨sl.seat, seats_op hp, (seat_fixed sl).mpr ho, rfl, by rw [Slot.seat, hw]; rfl⟩
            · obtain ⟨q, hq, he⟩ := List.mem_map.mp hm
              exact .inl (List.mem_map.mpr ⟨q, List.mem_of_mem_filter hq, he⟩)
          · dsimp only
            rw [List.map_map, List.map_cons, List.nodup_cons]
            refine ⟨fun hx => ?_, hcols⟩
            obtain ⟨q, hq, he⟩ := List.mem_map.mp hx
            have := (List.mem_filter.mp hq).2
            rw [bne_iff_ne] at this
            exact this he
          · obtain ⟨x, hx, rfl⟩ := seats_regen_eq_some.mp hg
            rcases List.mem_cons.mp hm with rfl | hm
            · exact (regenOf_false hregOf x hx).symm
            · obtain ⟨e, he, rfl⟩ := List.mem_map.mp hm
              exact k.soft.apart _ hg _ (List.mem_map.mpr ⟨e, List.mem_of_mem_filter he, rfl⟩)

/-! ### The pulses (R31, R32, R65) -/

theorem closedPulse_ordered {s : State} {d : Option SlotId} (k : s.ordered d) : s.closedPulse.ordered d := by
  unfold State.closedPulse
  split
  · exact State.ordered.frame (k.frame (s.keepsBut_withWater _) (by decide)) (State.keepsBut_fault _ _ _ _)
  · exact k.frame (s.keepsBut_withWater _) (by decide)

theorem flowing_regen {s : State} {g : Regen} (hg : s.soft.regen = some g) (h : s.regenFlowing = true) :
    (s.seats.table .inlet).holder = some (regenWho g) := by
  unfold State.regenFlowing at h
  rw [hg] at h
  exact ((holdsHeld_iff s _ _).mp h).2

theorem flowPulse_ordered {s : State} (k : s.ordered none) : s.flowPulse.ordered none := by
  unfold State.flowPulse
  split
  next i hi => exact fillPulse_ordered k hi
  next =>
    split
    next g hg =>
      split
      next hf =>
        unfold State.regenPulse
        split
        · exact regenDecilitre_ordered k hg (flowing_regen hg hf)
        · exact k.unseen (seats_setRegen_same hg rfl)
      next => exact closedPulse_ordered k
    next => exact closedPulse_ordered k

end Sys2Proof.Machine

/-! The door-opening operations keep the order: they ask, are ended, and take the rod and the door (R155 to R167). -/

namespace Sys2Proof.Machine

/-! ### The view of a door-opening operation -/

theorem kind_fixFields (w : Work) (bs : List Byte) : (w.fixFields bs).kind = w.kind := by cases w <;> rfl

theorem table_release_ne (s : State) {r q : Resource} (hr : r ≠ .selector) (hq : q ≠ r) : (s.release r).seats.table q = s.seats.table q := by
  unfold State.release
  rw [if_neg fun c => hr c.1]
  exact table_of_entry (State.entry_letGo_ne s hq)

theorem seats_fixDoor {s : State} {i : SlotId} {sl : Slot} (hp : s.pool[i] = some sl) (o : OutcomeCode) :
    (s.fixDoor i o).seats = s.seats.seat i (some { sl.seat with fixed := true }) := by
  unfold State.fixDoor
  rw [hp]
  dsimp only
  have hfix : (s.fixOutcome i o).pool[i] = some { sl with outcome := some o } := by
    rw [State.fixOutcome_held hp]
    exact State.pool_setSlot_self _ _ _
  rw [seats_setWork_same hfix (kind_fixFields _ _), seats_fixOutcome hp]

theorem pool_fixDoor {s : State} {i : SlotId} {sl : Slot} (hp : s.pool[i] = some sl) (o : OutcomeCode) :
    ∃ sl', (s.fixDoor i o).pool[i] = some sl' ∧ sl'.outcome = some o := by
  have hfix : (s.fixOutcome i o).pool[i] = some { sl with outcome := some o } := by
    rw [State.fixOutcome_held hp]
    exact State.pool_setSlot_self _ _ _
  unfold State.fixDoor
  rw [hp]
  dsimp only
  rw [State.setWork_held hfix]
  exact ⟨_, State.pool_setSlot_self _ _ _, rfl⟩

theorem kind_of_doorAt {s : State} {i : SlotId} {sl : Slot} {dry : Bool} {w : DoorWork} (h : s.doorAt i = some (sl, dry, w)) :
    sl.seat.kind = .door dry w.phase w.heldBack := by
  obtain ⟨-, hw, -⟩ := doorAt_eq_some h
  rw [Slot.seat, hw]
  exact kind_doorWork dry w

/-- A door-opening operation has nothing of the table but DOOR_DRIVE. -/
theorem Seats.ordered.doorLetsGo {a : Seats} {d : Option SlotId} (k : a.ordered d) {i : SlotId} {x : Seat} {dry back : Bool} {phase : DoorPhase}
    (hx : a.op i = some x) (hk : x.kind = .door dry phase back) {b : Seats} (hb : Loosens a b) (hline : x.who i ∉ (b.table .doorDrive).line)
    (hheld : (b.table .doorDrive).holder = some (x.who i) → (b.table .doorDrive).lease ≠ .held) : b.letsGo i := by
  have hres : ∀ {r h}, h.slot = some i → a.works r h → r = .doorDrive ∧ h = x.who i := fun {r h} hs hw => by
    obtain ⟨j, y, rfl, hy, -, hr⟩ := hw
    rw [Seat.who_slot] at hs
    cases hs
    rw [hx] at hy
    cases hy
    rw [hk] at hr
    exact ⟨by simpa [WorkKind.resources] using hr, rfl⟩
  have hleg := hb.legal k.table.legal
  refine ⟨fun r h hh hs => ?_, fun r h hh hs => ?_⟩
  · obtain ⟨rfl, rfl⟩ := hres hs (k.table.waits r h (hb.line r hh) (by simp [hs]))
    exact hline hh
  · have ha := (hb.place r).holder hh
    rcases k.table.holds r h ha (by simp [hs]) with hrel | hw
    · cases hb.place r with
      | same hl _ => exact hl.trans hrel
      | free _ he => rw [he] at hh; cases hh
      | winds hl _ _ _ => exact hl
      | swaps _ hw _ _ => rcases hw with e | e <;> (rw [hrel] at e; cases e)
    · obtain ⟨rfl, rfl⟩ := hres hs hw
      have hnot := hheld hh
      obtain ⟨hfree, hallows⟩ := hleg .doorDrive
      cases hl : (b.table .doorDrive).lease with
      | free =>
        rw [hfree.mp hl] at hh
        cases hh
      | held => exact absurd hl hnot
      | moving => rw [hl] at hallows; cases hallows
      | suspended => rw [hl] at hallows; cases hallows
      | releasing => rfl

/-- A door-opening operation has its outcome fixed once its lease winds down, or it has none. -/
theorem doorFixed_ordered {s t : State} (k : s.ordered none) {i : SlotId} {sl : Slot} {dry : Bool} {w : DoorWork} (hat : s.doorAt i = some (sl, dry, w))
    {a : Seats} (hb : Loosens s.seats a) (hc : Loosens.clears s.seats a) (hline : slotWho i sl ∉ (a.table .doorDrive).line)
    (hheld : (a.table .doorDrive).holder = some (slotWho i sl) → (a.table .doorDrive).lease ≠ .held)
    (ht : t.seats = a.seat i (some { sl.seat with fixed := true })) : t.ordered none := by
  obtain ⟨hp, hw, ho⟩ := doorAt_eq_some hat
  have hop := seats_op hp
  have hk := kind_of_doorAt hat
  rw [slotWho_seat] at hline hheld
  have ka : a.ordered none := hb.ordered hc k
  have hopa : a.op i = some sl.seat := by rw [hb.op]; exact hop
  have hnofill : ¬a.fillIn i := fun ⟨y, soft, hy, _, hky⟩ => by
    rw [hopa] at hy
    cases hy
    rw [hk] at hky
    cases hky
  have h1 := ka.fix (y := { sl.seat with fixed := true }) (k.doorLetsGo hop hk hb hline hheld) hopa (fun c e => by rw [hk] at e; cases e) rfl
  unfold State.ordered
  rw [ht]
  refine h1.settled (x := { sl.seat with fixed := true }) (Seats.op_seat_self _ _ _) (fun r hr => ?_) fun c e => hnofill ?_
  · rw [hk] at hr
    exact .inr (by simpa [WorkKind.resources] using hr)
  · exact (ka.soft.marked c i e).2.resolve_left (by simp)

theorem endDoorSlot_ordered {s : State} (k : s.ordered none) {i : SlotId} {sl : Slot} (hp : s.pool[i] = some sl) (ho : sl.outcome ≠ none) (o : OutcomeCode)
    (answer : Bool) : (s.endDoorSlot i o answer).ordered none := by
  unfold State.endDoorSlot
  rw [hp]
  exact endOver_ordered k hp ho _ _ _

/-- The operations of the second view go over to one that follows it by a release. -/
theorem Releases.withOp {who : Holder} {a b : Seats} (h : Releases who a b) (op : SlotId → Option Seat) : Releases who { a with op := op } { b with op := op } :=
  ⟨⟨rfl, h.loosens.regen, h.loosens.queue, h.loosens.col, h.loosens.mode, h.loosens.selHeld, h.loosens.line, h.loosens.place, h.loosens.current,
    h.loosens.retract⟩, h.only⟩

/-! ### The end (R159, R160, R167) -/

theorem finishDoor_ordered {s : State} (k : s.ordered none) (i : SlotId) (o : OutcomeCode) (answer : Bool) : (s.finishDoor i o answer).ordered none := by
  unfold State.finishDoor
  split
  next => exact k
  next sl dry w hat =>
    obtain ⟨hp, hw, ho⟩ := doorAt_eq_some hat
    have hop := seats_op hp
    have hfix := (seat_fixed sl).mpr ho
    have hk := kind_of_doorAt hat
    obtain ⟨u, hu⟩ : ∃ u, u = s.fixDoor i o := ⟨_, rfl⟩
    have hus : u.seats = s.seats.seat i (some { sl.seat with fixed := true }) := hu ▸ seats_fixDoor hp o
    have hul : u.seats.legal := fun r => by rw [hus]; exact k.table.legal r
    obtain ⟨sl', hpu, hou⟩ : ∃ sl', u.pool[i] = some sl' ∧ sl'.outcome = some o := hu ▸ pool_fixDoor hp o
    have hback : ({ u.seats with op := s.seats.op } : Seats) = s.seats := by rw [hus]; rfl
    have key : ∀ {t : State}, Releases (slotWho i sl) u.seats t.seats → ((t.seats.table .selector).holder = (s.seats.table .selector).holder) →
        slotWho i sl ∉ (t.seats.table .doorDrive).line →
        ((t.seats.table .doorDrive).holder = some (slotWho i sl) → (t.seats.table .doorDrive).lease ≠ .held) → t.ordered none := fun {t} hr hsel hl hh => by
      have hrel := hr.withOp s.seats.op
      rw [hback] at hrel
      refine doorFixed_ordered k hat hrel.loosens (Loosens.clears_of_selector hsel) hl hh ?_
      have hopt : t.seats.op = (s.seats.seat i (some { sl.seat with fixed := true })).op := by rw [hr.loosens.op, hus]
      show t.seats = { t.seats with op := (s.seats.seat i (some { sl.seat with fixed := true })).op }
      rw [← hopt]
    dsimp only
    rw [← hu]
    split
    next hpush =>
      obtain ⟨hph, hholds⟩ := hpush
      obtain ⟨-, hwho⟩ := (State.holds_iff u _ _).mp hholds
      obtain ⟨hr, hov⟩ := release_releases hul hwho
      have hsel : (u.release .doorDrive).seats.table .selector = s.seats.table .selector := by
        rw [table_release_ne u (by decide) (by decide), hus]
        rfl
      have kt : (u.release .doorDrive).ordered none := by
        refine key hr (by rw [hsel]) (fun e => ?_) fun e => by rw [hov e]; decide
        have hin := hr.loosens.line _ e
        rw [hus, slotWho_seat] at hin
        have := k.table.doorLine i sl.seat dry w.phase w.heldBack hop hfix hk (.inl hin)
        rw [hph] at this
        cases this
      split
      · exact kt
      · have hpt : (u.release .doorDrive).pool[i] = some sl' := by rw [(State.keepsBut_release u .doorDrive).pool (by decide), hpu]
        exact endDoorSlot_ordered kt hpt (by rw [hou]; simp) _ _
    next hnot =>
      obtain ⟨hr, hline⟩ := withdraw_releases u (slotWho i sl)
      have hlease := lease_withdraw u (slotWho i sl)
      have kt : (u.withdraw (slotWho i sl)).ordered none := by
        refine key hr ?_ (hline _) fun e hl => hnot ?_
        · rw [(hlease .selector).2, hus]
          rfl
        · rw [(hlease .doorDrive).2] at e
          rw [(hlease .doorDrive).1] at hl
          refine ⟨k.table.doorHeld i sl.seat dry w.phase w.heldBack hop hfix hk ?_ ?_, (State.holds_iff u _ _).mpr ⟨?_, e⟩⟩
          · rw [hus] at hl
            exact hl
          · rw [hus, slotWho_seat] at e
            exact e
          · show (u.seats.table .doorDrive).lease ≠ .free
            rw [hl]
            decide
      have hpt : (u.withdraw (slotWho i sl)).pool[i] = some sl' := by rw [(State.keepsBut_withdraw u _).pool (by decide), hpu]
      exact endDoorSlot_ordered kt hpt (by rw [hou]; simp) _ _

/-! ### The work of a door-opening operation replaced -/

theorem setDoorWork_ordered {s : State} {d : Option SlotId} (k : s.ordered d) {i : SlotId} {sl : Slot} {dry : Bool} {w : DoorWork}
    (hat : s.doorAt i = some (sl, dry, w)) (w' : DoorWork)
    (hline : slotWho i sl ∈ (s.seats.table .doorDrive).line ∨ w'.heldBack = true → w'.phase = .waitQuiet)
    (hheld : (s.seats.table .doorDrive).lease = .held → (s.seats.table .doorDrive).holder = some (slotWho i sl) → w'.phase = .pushing) :
    (s.setWork i (doorWork dry w')).ordered d := by
  obtain ⟨hp, hw, ho⟩ := doorAt_eq_some hat
  have hseat := seats_setWork hp (doorWork dry w')
  have hkind : (doorWork dry w').kind = .door dry w'.phase w'.heldBack := kind_doorWork dry w'
  have hwho : Seat.who i { sl.seat with kind := .door dry w'.phase w'.heldBack } = slotWho i sl := by
    rw [slotWho_seat, seat_who_door (kind_of_doorAt hat)]
    exact seat_who_door rfl
  have hop : ∀ {j x}, (s.setWork i (doorWork dry w')).seats.op j = some x →
      (j = i ∧ x = { sl.seat with kind := .door dry w'.phase w'.heldBack }) ∨ (j ≠ i ∧ s.seats.op j = some x) := fun {j x} hx => by
    rw [hseat, hkind] at hx
    by_cases hj : j = i
    · rw [hj, Seats.op_seat_self] at hx
      exact .inl ⟨hj, (Option.some.inj hx).symm⟩
    · rw [Seats.op_seat_ne _ hj] at hx
      exact .inr ⟨hj, hx⟩
  refine Proceeds.ordered ⟨goesOn_setWork hp ?_, ?_, fun j x dry' phase back hx ho' hk hl => ?_, fun j x dry' phase back hx ho' hk hle hh => ?_,
    fun j x hx ho' hk => ?_⟩ k
  · rw [hkind, hw, kind_doorWork]
    exact .door _ _ _ _ _
  · rw [hseat]
    rfl
  · rcases hop hx with ⟨rfl, rfl⟩ | ⟨-, hx⟩
    · cases hk
      rw [hwho] at hl
      exact hline hl
    · exact k.table.doorLine j x dry' phase back hx ho' hk hl
  · rcases hop hx with ⟨rfl, rfl⟩ | ⟨-, hx⟩
    · cases hk
      rw [hwho] at hh
      exact hheld hle hh
    · exact k.table.doorHeld j x dry' phase back hx ho' hk hle hh
  · rcases hop hx with ⟨rfl, rfl⟩ | ⟨-, hx⟩
    · cases hk
    · exact k.table.softWaits j x hx ho' hk

/-- A door-opening operation in another phase than its law of the list, or of the lease, allows. -/
theorem door_notInLine {s : State} {d : Option SlotId} (k : s.ordered d) {i : SlotId} {sl : Slot} {dry : Bool} {w : DoorWork}
    (hat : s.doorAt i = some (sl, dry, w)) (hph : w.phase ≠ .waitQuiet) : slotWho i sl ∉ (s.seats.table .doorDrive).line := fun e => by
  obtain ⟨hp, -, ho⟩ := doorAt_eq_some hat
  rw [slotWho_seat] at e
  exact hph (k.table.doorLine i sl.seat dry w.phase w.heldBack (seats_op hp) ((seat_fixed sl).mpr ho) (kind_of_doorAt hat) (.inl e))

theorem door_notHeld {s : State} {d : Option SlotId} (k : s.ordered d) {i : SlotId} {sl : Slot} {dry : Bool} {w : DoorWork}
    (hat : s.doorAt i = some (sl, dry, w)) (hph : w.phase ≠ .pushing) :
    (s.seats.table .doorDrive).lease = .held → (s.seats.table .doorDrive).holder ≠ some (slotWho i sl) := fun hl e => by
  obtain ⟨hp, -, ho⟩ := doorAt_eq_some hat
  rw [slotWho_seat] at e
  exact hph (k.table.doorHeld i sl.seat dry w.phase w.heldBack (seats_op hp) ((seat_fixed sl).mpr ho) (kind_of_doorAt hat) hl e)

/-! ### DOOR_DRIVE asked for (R158, R162, R164) -/

theorem askDoor_ordered {s : State} {d : Option SlotId} (k : s.ordered d) {i : SlotId} (h : ∀ sl dry w, s.doorAt i = some (sl, dry, w) → w.phase ≠ .pushing) :
    (s.askDoor i).ordered d := by
  unfold State.askDoor
  split
  next => exact k
  next sl dry w hat =>
    have hnot := door_notHeld k hat (h sl dry w hat)
    obtain ⟨hp, hw, ho⟩ := doorAt_eq_some hat
    have hset : ∀ back, (s.setWork i (doorWork dry { w with phase := .waitQuiet, heldBack := back })).ordered d := fun back =>
      setDoorWork_ordered k hat _ (fun _ => rfl) fun hl e => absurd e (hnot hl)
    dsimp only
    split
    next => exact hset true
    next =>
      obtain ⟨t, ht⟩ : ∃ t, t = s.setWork i (doorWork dry { w with phase := .waitQuiet, heldBack := false }) := ⟨_, rfl⟩
      have hpt : t.pool[i] = some { sl with work := doorWork dry { w with phase := .waitQuiet, heldBack := false } } := by
        rw [ht, State.setWork_held hp]
        exact State.pool_setSlot_self _ _ _
      have hopt := seats_op hpt
      have hkind : (doorWork dry { w with phase := .waitQuiet, heldBack := false }).kind = .door dry .waitQuiet false := kind_doorWork dry _
      have hwho : slotWho i { sl with work := doorWork dry { w with phase := .waitQuiet, heldBack := false } } = slotWho i sl := by
        rw [slotWho_seat, slotWho_seat, seat_who_door (kind_of_doorAt hat)]
        exact seat_who_door hkind
      rw [← ht]
      refine ask_keeps (.refl t) (fun d' k' => ⟨fun _ => ?_, (fun e => by cases e), (fun e => by cases e), (fun e => by cases e), fun _ j x dry' phase back hx hfx hk e => ?_⟩) _ _ d
        (ht ▸ hset false)
      · rw [← hwho]
        refine works_of_slot hpt ho ?_
        unfold doorWork
        cases dry <;> simp [Work.resources]
      · have hj : i = j := by
          have := congrArg Holder.slot e
          rw [slotWho_slot, Seat.who_slot] at this
          exact Option.some.inj this
        subst hj
        rw [hopt] at hx
        cases hx
        have : (doorWork dry { w with phase := .waitQuiet, heldBack := false }).kind = .door dry' phase back := hk
        rw [hkind] at this
        cases this
        rfl

theorem dryAjar_ordered {s : State} {d : Option SlotId} (k : s.ordered d) {i : SlotId}
    (h : ∀ sl dry w, s.doorAt i = some (sl, dry, w) → slotWho i sl ∉ (s.seats.table .doorDrive).line ∧
      ((s.seats.table .doorDrive).lease = .held → (s.seats.table .doorDrive).holder ≠ some (slotWho i sl))) : (s.dryAjar i).ordered d := by
  unfold State.dryAjar
  split
  next sl w hat =>
    obtain ⟨hl, hh⟩ := h sl true w hat
    exact setDoorWork_ordered k hat { w with phase := .ajar, ajarPassed := Timer.zero, heldBack := false }
      (fun e => e.elim (fun e => absurd e hl) fun e => by cases e) fun hle e => absurd e (hh hle)
  next => exact k

theorem dryDelayPassed_ordered {s : State} (k : s.ordered none) {i : SlotId} (h : ∀ sl dry w, s.doorAt i = some (sl, dry, w) → w.phase ≠ .pushing) :
    (s.dryDelayPassed i).ordered none := by
  unfold State.dryDelayPassed
  split
  · exact finishDoor_ordered k i _ _
  · exact askDoor_ordered k h

theorem takeUpDoorPush_ordered {s : State} (k : s.ordered none) {i : SlotId} (h : ∀ sl dry w, s.doorAt i = some (sl, dry, w) → w.phase ≠ .pushing) :
    (s.takeUpDoorPush i).ordered none := by
  unfold State.takeUpDoorPush
  split
  · exact finishDoor_ordered k i _ _
  · split
    · exact finishDoor_ordered k i _ _
    · exact askDoor_ordered k h

theorem takeUpDry_ordered {s : State} (k : s.ordered none) {i : SlotId} (hl : s.seats.letsGo i)
    (h : ∀ sl dry w, s.doorAt i = some (sl, dry, w) → w.phase ≠ .pushing) : (s.takeUpDry i).ordered none := by
  unfold State.takeUpDry
  split
  next => exact k
  next sl dry w hat =>
    split
    · exact finishDoor_ordered k i _ _
    · split
      · exact finishDoor_ordered k i _ _
      · split
        · exact finishDoor_ordered k i _ _
        · split
          · refine dryAjar_ordered k fun sl' dry' w' hat' => ⟨fun e => hl.line _ _ e (slotWho_slot i sl'), fun hle e => ?_⟩
            rw [hl.holder _ _ e (slotWho_slot i sl')] at hle
            cases hle
          · split
            · exact dryDelayPassed_ordered k h
            · exact k

end Sys2Proof.Machine

/-! The rod's ends and the changes of the door state keep the order (R155, R158 to R162, R164 to R166). -/

namespace Sys2Proof.Machine

/-! ### The rod's record in the view -/

theorem seats_setRod (s : State) (r : Rod) : (s.setRod r).seats = { s.seats with retract := r.retract.map (·.1) } := rfl

/-- The rod's record replaced, the retract left. -/
theorem State.ordered.setRod {d : Option SlotId} {s : State} (k : s.ordered d) {r : Rod} (h : r.retract = s.door.rod.retract) : (s.setRod r).ordered d :=
  k.unseen (by rw [seats_setRod, h]; rfl)

/-- The retract ended. -/
theorem State.ordered.setRod_none {d : Option SlotId} {s : State} (k : s.ordered d) {r : Rod} (h : r.retract = none) : (s.setRod r).ordered d := by
  unfold State.ordered
  rw [seats_setRod, h]
  refine Loosens.ordered (a := s.seats) ⟨rfl, rfl, rfl, rfl, rfl, rfl, fun _ => List.Subset.refl _, fun r => .refl r _, fun _ => rfl, fun _ e => by cases e⟩ ?_ k
  exact Loosens.clears_of_selector rfl

/-! ### DOOR_DRIVE becomes free (R159, R165) -/

theorem doorFreed_ordered {s : State} (k : s.ordered none) (hl : (s.seats.table .doorDrive).lease ≠ .held) (h : Option Holder) : (s.doorFreed h).ordered none := by
  unfold State.doorFreed
  split
  next _ i =>
    split
    next => exact k
    next sl hp =>
      split
      next w o hw ho => exact endDoorSlot_ordered k hp (by rw [ho]; simp) _ _
      next w o hw ho => exact endDoorSlot_ordered k hp (by rw [ho]; simp) _ _
      next w hw ho =>
        split
        · exact finishDoor_ordered k i _ _
        · exact k
      next w hw ho =>
        split
        next hph =>
          split
          · exact finishDoor_ordered k i _ _
          · refine dryAjar_ordered k fun sl' dry' w' hat => ⟨door_notInLine k hat fun e => ?_, fun hle => absurd hle hl⟩
            obtain ⟨hp', hw', -⟩ := doorAt_eq_some hat
            rw [hp] at hp'
            cases hp'
            rw [hw] at hw'
            cases dry' <;> cases hw'
            rw [hph] at e
            cases e
        · exact k
      next => exact k
  next => exact k

theorem endDoorWindDown_ordered {s : State} (k : s.ordered none) (hr : s.door.rod.retract = none) : s.endDoorWindDown.ordered none := by
  unfold State.endDoorWindDown
  dsimp only
  split
  · refine doorFreed_ordered (freeLease_keeps (.refl s) (by decide) (fun _ => by rw [hr]; simp) none k) ?_ _
    rw [seats_freeLease, Seats.put_self]
    exact fun e => by cases e
  · exact k

/-! ### Stalls (R160 to R162) -/

theorem stallWaiters_ordered {s : State} (k : s.ordered none) : s.stallWaiters.ordered none :=
  State.ordered.foldl (fun _ i k => by
    split
    · split
      · exact finishDoor_ordered k i _ _
      · exact k
    · exact k) _ k

theorem pushStalled_ordered {s : State} (k : s.ordered none) (cause : StallCause) : (s.pushStalled cause).ordered none := by
  unfold State.pushStalled
  dsimp only
  obtain ⟨t, ht⟩ : ∃ t, t = (s.setRod { s.door.rod with state := .stalled }).fault .pushStall 0 s.drive.doorRamp.level := ⟨_, rfl⟩
  have kt : t.ordered none := ht ▸
    (State.ordered.setRod (r := { s.door.rod with state := .stalled }) k rfl).frame (State.keepsBut_fault _ _ _ _) (by decide)
  rw [← ht]
  have h1 : (match (s.entry .doorDrive).holder with
      | some ⟨_, some i⟩ => t.finishDoor i .stalled true
      | _ => t).ordered none := by
    split
    · exact finishDoor_ordered kt _ _ _
    · exact kt
  exact stallWaiters_ordered ((release_keeps (.refl _) (by decide) none h1).frame (State.keepsBut_post _ _ _ _) (by decide))

theorem stallHolder_ordered {s : State} (k : s.ordered none) (hl : (s.seats.table .doorDrive).lease ≠ .held) : s.stallHolder.ordered none := by
  unfold State.stallHolder
  split
  next =>
    split
    next i _ sl dry w hat =>
      split
      next hph =>
        obtain ⟨hp, -, -⟩ := doorAt_eq_some hat
        exact doorFixed_ordered k hat (.refl _) (Loosens.clears_of_selector rfl) (door_notInLine k hat (by rw [hph]; decide)) (fun _ => hl) (seats_fixDoor hp _)
      next => exact k
    next => exact k
  next => exact k

theorem retract_stallHolder (s : State) : s.stallHolder.door = s.door := by
  unfold State.stallHolder
  split
  · split
    · split
      · unfold State.fixDoor
        split
        · rw [(State.keepsBut_setWork _ _ _).door (by decide), (State.keepsBut_fixOutcome _ _ _).door (by decide)]
        · rfl
      · rfl
    · rfl
  · rfl

theorem retractTimedOut_ordered {s : State} (k : s.ordered none) : s.retractTimedOut.ordered none := by
  unfold State.retractTimedOut
  dsimp only
  obtain ⟨t, ht⟩ : ∃ t, t = s.setRod { s.door.rod with state := .stalled, retract := none } := ⟨_, rfl⟩
  have kt : t.ordered none := ht ▸ State.ordered.setRod_none k rfl
  have h1 : (if s.door.rod.retract.map (·.1) = some .lease then t.stallHolder.endDoorWindDown else t).ordered none := by
    split
    next hret =>
      have hrel : (t.seats.table .doorDrive).lease = .releasing := ht ▸ k.table.retract hret
      exact endDoorWindDown_ordered (stallHolder_ordered kt (by rw [hrel]; decide)) (by rw [retract_stallHolder, ht]; rfl)
    next => exact kt
  rw [← ht]
  generalize (if s.door.rod.retract.map (·.1) = some .lease then t.stallHolder.endDoorWindDown else t) = u at h1 ⊢
  refine stallWaiters_ordered ?_
  have h2 := h1.frame (u.keepsBut_fault .retractTimeout 0 (retractCode (s.door.rod.retract.map (·.1)))) (by decide)
  split
  · exact h2
  · exact h2.frame (State.keepsBut_post _ _ _ _) (by decide)

/-! ### A retract ends (R161, R162) -/

theorem askHeldBack_ordered {s : State} (k : s.ordered none) : s.askHeldBack.ordered none :=
  State.ordered.foldl (fun s i k => by
    split
    next sl dry w hat =>
      split
      next hback =>
        refine askDoor_ordered k fun sl' dry' w' hat' => ?_
        rw [hat] at hat'
        cases hat'
        obtain ⟨hp, -, ho⟩ := doorAt_eq_some hat
        rw [k.table.doorLine i sl.seat dry w.phase w.heldBack (seats_op hp) ((seat_fixed sl).mpr ho) (kind_of_doorAt hat) (.inr hback)]
        decide
      next => exact k
    next => exact k) _ k

theorem retractEnded_ordered {s : State} (k : s.ordered none) : s.retractEnded.ordered none := by
  unfold State.retractEnded
  dsimp only
  split
  · exact endDoorWindDown_ordered (State.ordered.setRod_none k rfl) rfl
  · exact askHeldBack_ordered (State.ordered.setRod_none k rfl)

/-! ### The door state (R155, R158, R164 to R166) -/

theorem restartNoFlow_ordered {s : State} {d : Option SlotId} (k : s.ordered d) : s.restartNoFlow.ordered d := by
  unfold State.restartNoFlow
  split
  next =>
    split
    next i _ sl w hat =>
      obtain ⟨hp, hw, -⟩ := fillAt_eq_some.mp hat
      exact k.setWork hp (by rw [hw]; rfl)
    next => exact k
  next =>
    split
    next g hg =>
      split
      · exact k.unseen (seats_setRegen_same hg rfl)
      · exact k
    next => exact k

theorem seats_seeOpen (s : State) (i : SlotId) : (s.seeOpen i).seats = s.seats := by
  unfold State.seeOpen
  split
  next sl hp =>
    split
    next w hw => exact seats_setWork_same hp (by rw [hw]; rfl)
    next w hw => exact seats_setWork_same hp (by rw [hw]; rfl)
    all_goals rfl
  next => rfl

theorem doorOpsOpened_ordered {s : State} (k : s.ordered none) : s.doorOpsOpened.ordered none :=
  State.ordered.foldl (fun s i k => by
    have k1 := k.unseen (seats_seeOpen s i)
    dsimp only
    generalize s.seeOpen i = t at k1 ⊢
    split
    next => exact k1
    next sl dry w hat =>
      obtain ⟨hp, hw, ho⟩ := doorAt_eq_some hat
      split
      next => exact finishDoor_ordered k1 i _ _
      next hph =>
        have k2 := withdraw_keeps (.refl t) (slotWho i sl) none k1
        have hpu : (t.withdraw (slotWho i sl)).pool[i] = some sl := by rw [(t.keepsBut_withdraw _).pool (by decide), hp]
        refine dryAjar_ordered k2 fun sl' dry' w' hat' => ?_
        obtain ⟨hp', hw', -⟩ := doorAt_eq_some hat'
        rw [hpu] at hp'
        cases hp'
        refine ⟨(withdraw_releases t (slotWho i sl)).2 _, ?_⟩
        rw [(lease_withdraw t (slotWho i sl) .doorDrive).1, (lease_withdraw t (slotWho i sl) .doorDrive).2]
        exact door_notHeld k1 hat (by rw [hph]; decide)
      next hph =>
        refine dryAjar_ordered k1 fun sl' dry' w' hat' => ?_
        rw [hat] at hat'
        cases hat'
        exact ⟨door_notInLine k1 hat (by rw [hph]; decide), door_notHeld k1 hat (by rw [hph]; decide)⟩
      next => exact k1) _ k

theorem doorOpsClosed_ordered {s : State} (k : s.ordered none) : s.doorOpsClosed.ordered none :=
  State.ordered.foldl (fun s i k => by
    split
    next =>
      split
      · exact finishDoor_ordered k i _ _
      · exact k
    next => exact k) _ k

/-- Guarded resources suspended or restored. -/
theorem guardedAll_keeps {a : State} {f : State → Resource → State} (hf : ∀ {s r}, a.keepsOrder s → r.guarded = true → a.keepsOrder (f s r)) :
    ∀ (l : List Resource), (∀ r ∈ l, r.guarded = true) → ∀ {s : State}, a.keepsOrder s → a.keepsOrder (l.foldl f s)
  | [], _, _, h => h
  | _ :: l, hg, _, h => guardedAll_keeps hf l (fun q hq => hg q (List.mem_cons_of_mem _ hq)) (hf h (hg _ List.mem_cons_self))

theorem openDoor_ordered {s : State} (k : s.ordered none) : s.openDoor.ordered none := by
  have h0 : (s.setDoor false).ordered none := k.unseen rfl
  have h1 := guardedAll_keeps (fun h hg => suspend_keeps h hg) guardedResources (by decide) (.refl (s.setDoor false)) none h0
  unfold State.openDoor
  dsimp only
  generalize guardedResources.foldl State.suspend (s.setDoor false) = t at h1 ⊢
  have h2 : (if (t.entry .circ).lease = .releasing then t.endCircWindDown else t).ordered none := by
    split
    · exact endCircWindDown_ordered h1
    · exact h1
  generalize (if (t.entry .circ).lease = .releasing then t.endCircWindDown else t) = u at h2 ⊢
  have h3 := State.keepsOrder.foldl (a := u) State.channelDoorOpened (fun _ c h => channelDoorOpened_keeps h c) allChannels (.refl u) none h2
  exact (doorOpsOpened_ordered (rinseSuspended_ordered h3)).frame (State.keepsBut_post _ _ _ _) (by decide)

theorem closeDoor_ordered {s : State} (k : s.ordered none) : s.closeDoor.ordered none := by
  have h0 : (s.setDoor true).ordered none := k.unseen rfl
  have h1 := guardedAll_keeps (fun h hg => restore_keeps h hg) [.inlet, .circ, .dose 0, .dose 1, .dose 2] (by decide) (.refl (s.setDoor true)) none h0
  unfold State.closeDoor
  dsimp only
  generalize ([.inlet, .circ, .dose 0, .dose 1, .dose 2] : List Resource).foldl State.restore (s.setDoor true) = t at h1 ⊢
  have h2 := State.keepsOrder.foldl (a := t.restartNoFlow) State.channelDoorClosed (fun _ c h => channelDoorClosed_keeps h c) allChannels (.refl _) none
    (restartNoFlow_ordered h1)
  exact (doorOpsClosed_ordered h2).frame (State.keepsBut_post _ _ _ _) (by decide)

end Sys2Proof.Machine

/-! The grants and what the owners do with them keep the order; and the settlement of a step (R10, R17 to R19, R23, R45, R64, R65). -/

namespace Sys2Proof.Machine

/-! ### The lease granted -/

theorem filter_line (l : List Waiter) (h : Holder) : (l.filter fun v => v.who != h).map (·.who) = (l.map (·.who)).filter (· != h) := by
  rw [List.filter_map]
  rfl

theorem place_granted (g : Settings) (clock : Nat) (port : Option Port) (w : Waiter) (l : LeaseState) (e : Entry) :
    (Entry.granted g clock port w l e).place = ⟨l, some w.who, e.place.line.filter (· != w.who)⟩ := by
  have hline : ∀ e' : Entry, e'.waiters = (e.waiters.filter fun v => v.who != w.who) → e'.lease = l → e'.holder = some w.who →
      e'.place = ⟨l, some w.who, e.place.line.filter (· != w.who)⟩ := fun e' h1 h2 h3 => by
    unfold Entry.place
    rw [h1, h2, h3, filter_line]
  unfold Entry.granted
  dsimp only
  split <;> exact hline _ rfl rfl rfl

theorem seats_grantSelector (s : State) (w : Waiter) : ∃ l cur, ((l = .held ∧ cur = some (w.want.getD .a)) ∨ l = .moving) ∧
    (s.grantLease .selector w).seats = { s.seats.granted .selector l w.who with selHeld := w.want.getD .a, selCurrent := cur } := by
  unfold State.grantLease
  dsimp only
  split
  next hcur =>
    refine ⟨.held, some (w.want.getD .a), .inl ⟨rfl, rfl⟩, ?_⟩
    rw [seats_editEntry, place_granted]
    show _ = { s.seats.granted .selector .held w.who with selHeld := w.want.getD .a, selCurrent := some (w.want.getD .a) }
    rw [← hcur]
    rfl
  next =>
    refine ⟨.moving, none, .inr rfl, ?_⟩
    rw [seats_editEntry, place_granted]
    rfl

theorem seats_grantLease (s : State) {r : Resource} (hr : r ≠ .selector) (w : Waiter) :
    (s.grantLease r w).seats = s.seats.granted r (if r = .heater then .suspended else .held) w.who := by
  unfold State.grantLease
  cases r with
  | selector => exact absurd rfl hr
  | brine => rw [if_neg (by decide)]; dsimp only; rw [seats_editEntry, place_granted]; rfl
  | inlet => rw [if_neg (by decide)]; dsimp only; rw [seats_editEntry, place_granted]; rfl
  | circ => rw [if_neg (by decide)]; dsimp only; rw [seats_editEntry, place_granted]; rfl
  | heater => rw [if_pos rfl]; dsimp only; rw [seats_editEntry, place_granted]; rfl
  | drain => rw [if_neg (by decide)]; dsimp only; rw [seats_editEntry, place_granted]; rfl
  | dose n => rw [if_neg (by simp)]; dsimp only; rw [seats_editEntry, place_granted]; rfl
  | doorDrive => rw [if_neg (by decide)]; dsimp only; rw [seats_editEntry, place_granted]; rfl

theorem soft_grantLease (s : State) (r : Resource) (w : Waiter) : (s.grantLease r w).soft = s.soft := by
  unfold State.grantLease
  cases r <;> dsimp only
  case selector => split <;> exact (State.keepsBut_editEntry _ _ _).soft (by decide)
  all_goals exact (State.keepsBut_editEntry _ _ _).soft (by decide)

theorem pool_grantLease (s : State) (r : Resource) (w : Waiter) : (s.grantLease r w).pool = s.pool := by
  unfold State.grantLease
  cases r <;> dsimp only
  case selector => split <;> exact (State.keepsBut_editEntry _ _ _).pool (by decide)
  all_goals exact (State.keepsBut_editEntry _ _ _).pool (by decide)

/-- The chosen waiter stands in the list of a resource that is free. -/
theorem chosen_inLine {s : State} {r : Resource} {w : Waiter} (h : s.chosenWaiter r = some w) :
    w.who ∈ (s.seats.table r).line ∧ (s.seats.table r).lease = .free := by
  obtain ⟨hl, hw, -⟩ := chosenWaiter_spec h
  exact ⟨(mem_line s r _).mpr ⟨w, hw, rfl⟩, hl⟩

theorem isRegen_iff {s : State} {g : Regen} (hg : s.soft.regen = some g) (h : Holder) : s.isRegen h = true ↔ h = g.stage.who := by
  unfold State.isRegen
  rw [hg, ← regenWho_stage]
  simp only [beq_iff_eq]
  exact eq_comm

theorem isRegen_fills {s : State} {d : Option SlotId} (k : s.ordered d) {h : Holder} (hf : s.seats.fills h) : s.isRegen h = false := by
  rw [← Bool.not_eq_true]
  intro e
  cases hg : s.soft.regen with
  | none =>
    unfold State.isRegen at e
    rw [hg] at e
    cases e
  | some g => exact k.soft.regen_not_fills (seats_regen_some hg) ((isRegen_iff hg h).mp e ▸ hf)

/-! ### SELECTOR held (R10, R23) -/

theorem selectorHeld_ordered {s : State} {d : Option SlotId} (k : s.ordered d) {h : Holder} (hs : s.seats.atSelector h)
    (hi : (s.seats.table .inlet).holder ≠ some h) (hl : h ∉ (s.seats.table .inlet).line) (hb : s.isRegen h = true → h ∉ (s.seats.table .brine).line) :
    (s.selectorHeld h).ordered d := by
  unfold State.selectorHeld
  split
  next hreg =>
    cases hg : s.soft.regen with
    | none =>
      unfold State.isRegen at hreg
      rw [hg] at hreg
      cases hreg
    | some g =>
      have hwho := (isRegen_iff hg h).mp hreg
      rw [← regenWho_stage] at hwho
      subst hwho
      exact regenSelectorHeld_ordered k hg hs hi hl (hb hreg)
  next hreg =>
    split
    next i hslot =>
      refine fillSelectorHeld_ordered k fun sl w hat => ?_
      have hwho : h = slotWho i sl := by
        rcases k.table.selector h hs.2 with hf | ⟨x, hx, hw, -⟩
        · obtain ⟨u, soft, hu, -, -, rfl⟩ := Seats.fills_slot hf hslot
          rw [seats_op (fillAt_eq_some.mp hat).1] at hu
          cases hu
          exact (slotWho_seat i sl).symm
        · obtain ⟨g, hg, rfl⟩ := seats_regen_eq_some.mp hx
          exact absurd ((isRegen_iff hg h).mpr hw) hreg
      rw [← hwho]
      exact ⟨hs, hi, hl⟩
    next => exact k

/-! ### A regeneration starts (R64) -/

/-- A regeneration that starts, as far as the judging of the fill positions. -/
theorem startRegen_judges (s : State) (g : Regen) : ∃ v, s.startRegen g = v.judgeFills none ∧
    ((s.columnsBegun g.column).setRegen (some g.begun)).keepsBut v [.ports] := by
  unfold State.startRegen
  dsimp only
  rw [columnsBegun_eq]
  exact ⟨_, rfl, (State.keepsBut_post _ _ _ _).step (State.keepsBut_postInService _ _ _) (List.Subset.refl _)⟩

theorem seats_columnsBegun (s : State) (g : Regen) : ((s.columnsBegun g.column).setRegen (some g.begun)).seats =
    { s.seats with regen := some { g.stage with phase := .brineDraw }, col := (s.columnsBegun g.column).seats.col } := by
  rw [seats_setRegen]
  unfold State.columnsBegun
  rw [seats_setColumn, seats_setColumn]
  rfl

theorem begun_ordered {s : State} {d : Option SlotId} (k : s.ordered d) {g : Regen} (hg : s.soft.regen = some g) (hp : g.phase = .starting)
    (hf : (s.seats.table .selector).holder = none) (hrun : s.mode = .run) : ((s.columnsBegun g.column).setRegen (some g.begun)).ordered d := by
  obtain ⟨h1, h2⟩ := s.column_columnsBegun g.column
  unfold State.ordered
  rw [seats_columnsBegun]
  refine k.started (seats_regen_some hg) hp hf ?_ ?_ ?_
  · show ((s.columnsBegun g.column).column g.column).marked = _
    rw [h1]
    rfl
  · show ((s.columnsBegun g.column).column (Column.other g.column)).marked = (s.column (Column.other g.column)).marked ∨
      ((s.column (Column.other g.column)).state = _ ∧ ((s.columnsBegun g.column).column (Column.other g.column)).marked = _)
    rw [h2]
    cases hc : s.standbyComes g.column with
    | false => exact .inl rfl
    | true =>
      refine .inr ⟨?_, rfl⟩
      simp only [State.standbyComes, Bool.and_eq_true, beq_iff_eq] at hc
      exact hc.2
  · show ((s.columnsBegun g.column).column (Column.other g.column)).state ≠ _
    rw [h2]
    dsimp only
    split
    next => decide
    next hno =>
      intro e
      have hin := k.soft.standby hrun _ e
      rw [Column.other_other] at hin
      refine hno ?_
      have hin : (s.column g.column).state = .inService := hin
      simp [State.standbyComes, hin, e]

/-! ### SELECTOR granted -/

theorem grantSelector_ordered {s : State} {d : Option SlotId} (k : s.ordered d) {w : Waiter} (h : s.chosenWaiter .selector = some w) :
    ((s.grantLease .selector w).selectorGranted w.who).ordered d := by
  obtain ⟨hline, hfree⟩ := chosen_inLine h
  obtain ⟨l, cur, hl, hview⟩ := seats_grantSelector s w
  have hsoft := soft_grantLease s .selector w
  obtain ⟨t, ht⟩ : ∃ t, t = s.grantLease .selector w := ⟨_, rfl⟩
  rw [← ht] at hview hsoft ⊢
  have hidle := k.table.pathIdle_of_lease (by rw [hfree]; decide)
  have htab : ∀ {r}, r ≠ .selector → t.seats.table r = s.seats.table r := fun hr => by
    rw [hview]
    exact s.seats.granted_ne hr l w.who
  have hsel : t.seats.table .selector = ⟨l, some w.who, (s.seats.table .selector).line.filter (· != w.who)⟩ := by
    rw [hview]
    exact s.seats.granted_self .selector l w.who
  have hti : (t.seats.table .inlet).holder ≠ some w.who ∧ w.who ∉ (t.seats.table .inlet).line ∧ w.who ∉ (t.seats.table .brine).line := by
    rw [htab (by decide), htab (by decide), hidle.inlet, hidle.inletLine, hidle.brineLine]
    exact ⟨(fun e => by cases e), List.not_mem_nil, List.not_mem_nil⟩
  have hheld : ∀ {u : State}, u.seats.table = t.seats.table → (u.entry .selector).lease = .held → u.seats.atSelector w.who := fun hu hle => by
    refine ⟨hle, ?_⟩
    rw [hu, hsel]
  have hgrant : s.seats.user true w.who → t.ordered d := fun hu => by
    unfold State.ordered
    rw [hview]
    exact k.grantSelector hline hfree hu hl
  have hend : t.ordered d → (if (t.entry .selector).lease = .held then t.selectorHeld w.who else t).ordered d := fun kt => by
    split
    next hle => exact selectorHeld_ordered kt (hheld rfl hle) hti.1 hti.2.1 fun _ => hti.2.2
    next => exact kt
  unfold State.selectorGranted
  dsimp only
  rcases (k.table.selectorLine _ hline).1 with hf | ⟨x, hx, hwho, -⟩
  · have kt := hgrant (.inl hf)
    have hft : t.seats.fills w.who := by
      rw [hview]
      exact hf
    simp only [isRegen_fills kt hft, Bool.false_eq_true, if_false]
    exact hend kt
  · obtain ⟨g, hg, rfl⟩ := seats_regen_eq_some.mp hx
    have hgt : t.soft.regen = some g := by rw [hsoft]; exact hg
    rw [(isRegen_iff hgt w.who).mpr hwho, if_pos rfl]
    unfold State.regenSelectorGranted
    rw [hgt]
    dsimp only
    split
    next hph =>
      have hrun : s.mode = .run := by
        cases hm : s.mode with
        | run => rfl
        | setup =>
          have := (k.soft.quiet hm).2
          rw [seats_regen_some hg] at this
          cases this
      have hnone : (s.seats.table .selector).holder = none := (k.table.legal .selector).1.mp hfree
      have kb := begun_ordered k hg hph hnone hrun
      obtain ⟨v, hv, kv⟩ := startRegen_judges t g
      have hcols : (t.columnsBegun g.column).seats.col = (s.columnsBegun g.column).seats.col := by
        funext c
        show ((t.columnsBegun g.column).column c).marked = ((s.columnsBegun g.column).column c).marked
        obtain ⟨h1, h2⟩ := s.column_columnsBegun g.column
        obtain ⟨h3, h4⟩ := t.column_columnsBegun g.column
        have hst : t.standbyComes g.column = s.standbyComes g.column := by
          unfold State.standbyComes
          rw [State.column_congr hsoft, State.column_congr hsoft]
        by_cases hc : c = g.column
        · rw [hc, h1, h3, State.column_congr hsoft]
        · rw [show c = Column.other g.column by cases c <;> cases hgc : g.column <;> simp_all [Column.other], h2, h4, State.column_congr hsoft, hst]
      have hvs : v.seats = { t.seats with regen := some { g.stage with phase := .brineDraw }, col := (s.columnsBegun g.column).seats.col } := by
        rw [kv.seats, seats_columnsBegun, hcols]
      have kvo : v.ordered d := by
        unfold State.ordered at kb ⊢
        rw [seats_columnsBegun] at kb
        rw [hvs, hview]
        exact kb.grantSelector hline hfree (.inr ⟨_, rfl, hwho, fun _ e => by cases e⟩) hl
      have hgv : v.soft.regen = some g.begun := by rw [kv.soft]; rfl
      have hnof : ¬v.seats.fills w.who := by
        rw [hwho]
        exact kvo.soft.regen_not_fills (g := g.begun.stage) (seats_regen_some hgv)
      have hsp := spares_judgeFills (h := w.who) kvo none fun hf => absurd hf hnof
      have ku := judgeFills_keeps (.refl v) none d kvo
      have kfu := State.keepsBut_judgeFills v none
      obtain ⟨u, hu⟩ : ∃ u, u = v.judgeFills none := ⟨_, rfl⟩
      rw [← hu] at hsp ku kfu
      rw [hv, ← hu]
      have hvt : v.seats.table = t.seats.table := by rw [hvs]
      split
      next hle =>
        have hvh : (v.seats.table .selector).holder = some w.who := by rw [hvt, hsel]
        refine selectorHeld_ordered ku ⟨hle, (hsp.keeps _ hvh).2⟩ (fun e => hti.1 ?_) (fun e => hti.2.1 ?_) fun _ e => hti.2.2 ?_
        · rw [← hvt]; exact hsp.holder _ e
        · rw [← hvt]; exact hsp.line _ (by decide) e
        · rw [← hvt]; exact hsp.line _ (by decide) e
      next => exact ku
    next hph => exact hend (hgrant (.inr ⟨_, hx, hwho, fun _ => hph⟩))

end Sys2Proof.Machine

/-! Every grant, and the settlement of a step, keep the order (R10, R17 to R19, R45). -/

namespace Sys2Proof.Machine

/-! ### The owners told (R10) -/

theorem grantOther_ordered {s : State} {d : Option SlotId} (k : s.ordered d) {r : Resource} {w : Waiter} (h : s.chosenWaiter r = some w) (hs : r ≠ .selector)
    (hd : r ≠ .doorDrive) : (s.grantLease r w).ordered d := by
  unfold State.ordered
  rw [seats_grantLease s hs]
  refine k.grant (chosen_inLine h).1 hs hd ?_
  split
  next e => exact .inr ⟨rfl, by rw [e]; rfl⟩
  next => exact .inl rfl

theorem grantBrine_ordered {s : State} {d : Option SlotId} (k : s.ordered d) {w : Waiter} (h : s.chosenWaiter .brine = some w) :
    (s.grantLease .brine w).regenBrineGranted.ordered d := by
  have kt := grantOther_ordered k h (by decide) (by decide)
  have hview := seats_grantLease s (r := .brine) (by decide) w
  have hsoft := soft_grantLease s .brine w
  obtain ⟨⟨hat, x, hx, hwho, -⟩, -, hi⟩ := k.table.brineLine _ (chosen_inLine h).1
  obtain ⟨g, hg, rfl⟩ := seats_regen_eq_some.mp hx
  rw [← regenWho_stage] at hwho
  obtain ⟨t, ht⟩ : ∃ t, t = s.grantLease .brine w := ⟨_, rfl⟩
  rw [← ht] at kt hview hsoft ⊢
  have htab : ∀ {q}, q ≠ .brine → t.seats.table q = s.seats.table q := fun hq => by
    rw [hview]
    exact s.seats.granted_ne hq _ _
  refine regenBrineGranted_ordered kt (by rw [hsoft]; exact hg) ?_ ?_ ?_
  · unfold Seats.atSelector
    rw [htab (by decide), ← hwho]
    exact hat
  · rw [htab (by decide), ← hwho]
    exact hi
  · rw [hview, Seats.granted_self, ← hwho]
    simp

theorem grantDoorDrive_ordered {s : State} {d : Option SlotId} (k : s.ordered d) {w : Waiter} (h : s.chosenWaiter .doorDrive = some w) :
    ((s.grantLease .doorDrive w).slotGranted w.who State.doorGranted).ordered d := by
  obtain ⟨hline, hfree⟩ := chosen_inLine h
  have hview := seats_grantLease s (r := .doorDrive) (by decide) w
  have hpool := pool_grantLease s .doorDrive w
  obtain ⟨t, ht⟩ : ∃ t, t = s.grantLease .doorDrive w := ⟨_, rfl⟩
  rw [← ht] at hview hpool ⊢
  rw [if_neg (by decide)] at hview
  unfold State.slotGranted
  split
  next i hslot =>
    obtain ⟨j, x, hwho, hx, hfix, hr⟩ := k.table.waits .doorDrive _ hline (by rw [hslot]; simp)
    have hj : i = j := by
      rw [hwho, Seat.who_slot] at hslot
      exact (Option.some.inj hslot).symm
    subst hj
    obtain ⟨sl, hp, rfl⟩ := seats_op_eq_some.mp hx
    have ho := (seat_fixed sl).mp hfix
    obtain ⟨dry, phase, back, hk⟩ : ∃ dry phase back, sl.seat.kind = .door dry phase back := by
      cases hkind : sl.seat.kind with
      | door dry phase back => exact ⟨dry, phase, back, rfl⟩
      | _ => rw [hkind] at hr; simp [WorkKind.resources] at hr
    obtain ⟨v, hv, -, -⟩ := kind_eq_door hk
    have hpt : t.pool[i] = some sl := by rw [hpool, hp]
    have hat := doorAt_eq hpt hv ho
    unfold State.doorGranted
    rw [hat]
    dsimp only
    obtain ⟨u, hu⟩ : ∃ u, u = t.setWork i (doorWork dry { v with phase := .pushing, pushed := true, heldBack := false }) := ⟨_, rfl⟩
    have hus : u.seats = (s.seats.granted .doorDrive .held (sl.seat.who i)).seat i (some { sl.seat with kind := .door dry .pushing false }) := by
      rw [hu, seats_setWork hpt, hview, ← hwho, kind_doorWork]
    have ku : u.ordered d := by
      unfold State.ordered
      rw [hus]
      exact k.grantDoor hfree hx hfix hk
    rw [← hu]
    exact ku.unseen rfl
  next hslot =>
    unfold State.ordered
    rw [hview]
    exact k.grantDoorless hfree hslot

theorem grant_ordered {s : State} (k : s.ordered none) (r : Resource) : (s.grant r).ordered none := by
  unfold State.grant
  split
  next w h =>
    unfold State.ownerGranted
    have hother := grantOther_ordered k h
    cases r with
    | selector => exact grantSelector_ordered k h
    | brine => exact grantBrine_ordered k h
    | inlet =>
      have kt := hother (by decide) (by decide)
      dsimp only
      split
      · exact regenInletGranted_ordered kt
      · unfold State.slotGranted
        split
        · exact fillInletGranted_ordered kt _
        · exact kt
    | circ =>
      have kt := hother (by decide) (by decide)
      dsimp only
      unfold State.slotGranted
      split
      · exact circGranted_ordered kt _
      · exact kt
    | heater =>
      have kt := hother (by decide) (by decide)
      dsimp only
      unfold State.slotGranted
      split
      · exact heatGranted_ordered kt _
      · exact kt
    | drain =>
      have kt := hother (by decide) (by decide)
      dsimp only
      unfold State.slotGranted
      split
      next i hslot =>
        obtain ⟨j, x, hwho, hx, hfix, hr⟩ := k.table.waits .drain _ (chosen_inLine h).1 (by rw [hslot]; simp)
        have hj : i = j := by
          rw [hwho, Seat.who_slot] at hslot
          exact (Option.some.inj hslot).symm
        subst hj
        obtain ⟨sl, hp, rfl⟩ := seats_op_eq_some.mp hx
        have hpt : (s.grantLease .drain w).pool[i] = some sl := by rw [pool_grantLease, hp]
        have hr' : Resource.drain ∈ sl.work.resources := by rw [resources_kind]; exact hr
        cases hw : sl.work with
        | drain v => exact drainGranted_ordered kt hpt hw
        | _ => rw [hw] at hr'; simp [Work.resources] at hr'
      next => exact kt
    | doorDrive => exact grantDoorDrive_ordered k h
    | dose n =>
      have kt := hother (by simp) (by simp)
      dsimp only
      split
      · exact channelGranted_keeps (.refl _) _ none kt
      all_goals exact kt
  next => exact k

/-! ### The settlement of a step (R17 to R19, R45) -/

theorem settleInterlock_ordered {s : State} {d : Option SlotId} (k : s.ordered d) : s.settleInterlock.ordered d := by
  unfold State.settleInterlock
  dsimp only
  split
  · exact k
  · have k1 : ({ s with water := { s.water with interlock := s.interlockMet } } : State).ordered d := k.frame (s.keepsBut_withWater _) (by decide)
    split
    · split
      · exact restore_keeps (.refl _) (r := .heater) rfl d k1
      · exact suspend_keeps (.refl _) (r := .heater) rfl d k1
    · exact k1

theorem seats_markBarred (s : State) : s.markBarred.seats = s.seats := by
  unfold State.markBarred
  dsimp only
  split
  · rw [seats_putEntry]
    have hsame : (Entry.place { s.entry .doorDrive with waiters := (s.entry .doorDrive).waiters.map fun w => { w with barred := true } }) =
        s.seats.table .doorDrive := by
      show Place.mk _ _ _ = Place.mk _ _ _
      congr 1
      rw [List.map_map]
      rfl
    rw [hsame, Seats.put_table]
  · rfl

theorem judge_ordered {s : State} {d : Option SlotId} (k : s.ordered d) : s.judge.ordered d :=
  (settleInterlock_ordered k).unseen (seats_markBarred _)

theorem yieldNext_ordered {s t : State} (k : s.ordered none) (h : s.yieldNext = some t) : t.ordered none := by
  unfold State.yieldNext at h
  split at h
  next i hi =>
    cases h
    exact yieldHeat_ordered k i
  next =>
    obtain ⟨c, -, rfl⟩ := Option.map_eq_some_iff.mp h
    exact yieldChannel_keeps (.refl s) c none k

theorem grantNext_ordered {s t : State} (k : s.ordered none) (h : s.grantNext = some t) : t.ordered none := by
  unfold State.grantNext at h
  split at h
  next => cases h
  next =>
    split at h
    · rw [← Option.some.inj h]
      have kc : s.choose.2.ordered none := k.unseen rfl
      exact grant_ordered kc _
    · rw [← Option.some.inj h]
      exact grant_ordered k _

theorem settleFor_ordered : ∀ (n : Nat) {s : State}, s.ordered none → (s.settleFor n).ordered none
  | 0, _, k => judge_ordered k
  | n + 1, s, k => by
    have kj := judge_ordered k
    unfold State.settleFor
    dsimp only
    split
    next t ht => exact settleFor_ordered n (yieldNext_ordered kj ht)
    next =>
      split
      next t ht => exact settleFor_ordered n (grantNext_ordered kj ht)
      next => exact kj

theorem settle_ordered {s : State} (k : s.ordered none) : s.settle.ordered none := settleFor_ordered 128 k

end Sys2Proof.Machine

/-! The Protection Unit and the Sense Scanner keep the order (R6, R7, R77 to R87, R125, R130 to R133, R171 to R173). -/

namespace Sys2Proof.Machine

/-! ### The forced drain (R7, R173) -/

/-- DRAIN taken by one that is no operation. -/
theorem Seats.ordered.takeDrain {a : Seats} {d : Option SlotId} (k : a.ordered d) {h : Holder} (hn : h.slot = none) :
    (a.put .drain ⟨.held, some h, (a.table .drain).line⟩).ordered d := by
  obtain ⟨t, s, e⟩ := k
  have hother : ∀ {q}, q ≠ .drain → (a.put .drain ⟨.held, some h, (a.table .drain).line⟩).table q = a.table q := fun hq => Seats.put_ne a hq _
  have hself : (a.put .drain ⟨.held, some h, (a.table .drain).line⟩).table .drain = ⟨.held, some h, (a.table .drain).line⟩ := Seats.put_self a _ _
  obtain ⟨b, hb⟩ : ∃ b, b = a.put .drain ⟨.held, some h, (a.table .drain).line⟩ := ⟨_, rfl⟩
  have hop : b.op = a.op := hb ▸ rfl
  have hreg : b.regen = a.regen := hb ▸ rfl
  rw [← hb] at hother hself ⊢
  have hline : ∀ q, (b.table q).line = (a.table q).line := fun q => by
    by_cases hq : q = .drain
    · rw [hq, hself]
    · rw [hother hq]
  have hat : ∀ {x}, b.atSelector x ↔ a.atSelector x := fun {x} => by
    unfold Seats.atSelector
    rw [hother (by decide)]
  have huser : ∀ {st x}, b.user st x ↔ a.user st x := Seats.user_congr hop hreg _ _
  have hbrine : ∀ {x}, b.brineUser x ↔ a.brineUser x := fun {x} => by
    unfold Seats.brineUser
    rw [hat, hreg]
  have hfills : ∀ {x}, b.fills x ↔ a.fills x := Seats.fills_congr hop _
  have hcol : b.col = a.col ∧ b.selHeld = a.selHeld ∧ b.selCurrent = a.selCurrent ∧ b.retract = a.retract := hb ▸ ⟨rfl, rfl, rfl, rfl⟩
  obtain ⟨hc, hsh, hsc, hrt⟩ := hcol
  refine ⟨⟨fun q => ?_, ?_, fun q x hx hs => (Seats.works_congr hop q x).mpr (t.waits q x (hline q ▸ hx) hs), fun q x hx hs => ?_, ?_, ?_, ?_, ?_, ?_, fun x hx => ?_, ?_,
    fun x hx hf => ?_, fun x hx => ?_, fun x hx => ?_, fun x hx => ?_⟩, s.congr hop hreg (hb ▸ rfl) hc (hb ▸ rfl), hop ▸ e⟩
  · by_cases hq : q = .drain
    · rw [hq, hself]
      exact ⟨⟨(fun c => by cases c), fun c => by cases c⟩, rfl⟩
    · rw [hother hq]
      exact t.legal q
  · rw [hother (by decide), hother (by decide)]
    exact t.path
  · by_cases hq : q = .drain
    · rw [hq, hself] at hx
      cases hx
      exact absurd hn hs
    · rw [hother hq] at hx ⊢
      exact (t.holds q x hx hs).imp_right (Seats.works_congr hop q x).mpr
  · rw [hop, hother (by decide)]; exact t.doorLine
  · rw [hop, hother (by decide)]; exact t.doorHeld
  · rw [hrt, hother (by decide)]; exact t.retract
  · rw [hsc, hsh, hother (by decide)]; exact t.position
  · rw [hother (by decide)]; exact fun x hx => huser.mpr (t.selector x hx)
  · rw [hother (by decide)] at hx ⊢
    exact ⟨huser.mpr (t.selectorLine x hx).1, fun hf => (t.selectorLine x hx).2 (hfills.mp hf)⟩
  · rw [hop, hother (by decide)]; exact t.softWaits
  · rw [hother (by decide)] at hx
    rw [hc, hsh]
    exact t.inlet x hx (hfills.mp hf)
  · rw [hother (by decide)] at hx ⊢
    obtain ⟨h1, h2, h3⟩ := t.inletLine x hx
    rw [hc, hsh]
    exact ⟨hat.mpr h1, h2, fun hf => h3 (hfills.mp hf)⟩
  · rw [hother (by decide)] at hx
    exact hbrine.mpr (t.brine x hx)
  · rw [hother (by decide)] at hx
    rw [hother (q := .inlet) (by decide)]
    exact (t.brineLine x hx).imp_left hbrine.mpr

theorem seats_saltReported (s : State) : s.saltReported.seats = s.seats := by
  unfold State.saltReported
  split <;> rfl

section Protect

variable {s : State} (k : s.ordered none)
include k

theorem forceDrain_ordered : s.forceDrain.ordered none := by
  unfold State.forceDrain
  dsimp only
  split
  next => exact k
  next h _ =>
    have k1 : (s.editEntry .drain fun e => { e with lease := .held, holder := some ⟨.protect, none⟩, holderPort := none, grantTime := s.drive.clock }).ordered none := by
      unfold State.ordered
      rw [seats_editEntry]
      exact k.takeDrain (h := ⟨.protect, none⟩) rfl
    split
    · exact finishDrain_ordered k1 _ _ _
    · exact k1

theorem takeForce_ordered (c : TripCause) : (s.takeForce c).ordered none := by
  unfold State.takeForce
  dsimp only
  split
  · refine forceDrain_ordered ?_
    exact k.frame (State.keepsBut_withProt _ _) (by decide)
  · exact k.frame (State.keepsBut_withProt _ _) (by decide)
  · exact k.frame (State.keepsBut_withProt _ _) (by decide)

theorem endForce_ordered : s.endForce.ordered none := by
  unfold State.endForce
  have k1 := k.frame (s.keepsBut_withProt { s.prot with force := .off, forceFlood := false, forceOverfill := false, postrun := Timer.zero }) (by decide)
  exact freeLease_keeps (.refl _) (by decide) (fun e => by cases e) none k1

theorem judgeForce_ordered : s.judgeForce.ordered none := by
  unfold State.judgeForce
  split
  · have k1 := k.frame (s.keepsBut_withProt { s.prot with force := .postrun, postrun := Timer.zero }) (by decide)
    dsimp only
    split
    · exact endForce_ordered k1
    · exact k1
  · exact k

/-! ### The latching (R172) -/

theorem tripSlot_ordered (i : SlotId) : (s.tripSlot i).ordered none := by
  unfold State.tripSlot
  split
  next => exact k
  next sl hp =>
    split
    next => exact finishFill_ordered k i _ _
    next =>
      split
      next o ho => exact endOver_ordered k hp (by rw [ho]; simp) _ _ _
      next => exact finishCirc_ordered k i _ _
    next => exact finishHeat_ordered k i _ _
    next =>
      split
      next hq => exact endQueued_ordered k hq _ _
      next => exact k
    next => exact k
    next => exact k
    next => exact k

end Protect

theorem revokeAll_keeps {a : State} : ∀ (l : List Resource), (∀ r ∈ l, r ≠ .selector ∧ r ≠ .doorDrive) → ∀ {s : State}, a.keepsOrder s →
    a.keepsOrder (l.foldl State.revoke s)
  | [], _, _, h => h
  | _ :: l, hl, _, h => revokeAll_keeps l (fun q hq => hl q (List.mem_cons_of_mem _ hq))
    (revoke_keeps h (hl _ List.mem_cons_self).1 (hl _ List.mem_cons_self).2)

section Protect

variable {s : State} (k : s.ordered none)
include k

theorem tripWork_ordered : s.tripWork.ordered none := by
  unfold State.tripWork
  dsimp only
  have h1 := revokeAll_keeps tripResources (by decide) (.refl s) none k
  have h2 := endRegen_ordered (State.ordered.foldl (fun _ i k => tripSlot_ordered k i) allSlots h1) .tripped true
  exact State.keepsOrder.foldl State.channelTripped (fun _ c h => channelTripped_keeps h c) allChannels (.refl _) none h2

theorem handIn_ordered (c : TripCause) (point : Nat) : (s.handIn c point).ordered none := by
  unfold State.handIn
  split
  · split
    · exact k
    · exact takeForce_ordered k c
  · have k1 : (s.addCause c).ordered none := by
      refine k.unseen ?_
      cases c <;> rfl
    have k2 : (if s.latched then s.addCause c else (s.addCause c).tripWork).ordered none := by
      split
      · exact k1
      · exact tripWork_ordered k1
    dsimp only
    generalize (if s.latched then s.addCause c else (s.addCause c).tripWork) = t at k2 ⊢
    have k3 : (if c = .overtemp then t else t.takeForce c).ordered none := by
      split
      · exact k2
      · exact takeForce_ordered k2 c
    exact (k3.frame (State.keepsBut_tripFault _ c point) (by decide)).frame (State.keepsBut_post _ _ _ _) (by decide)

/-! ### The deliveries (R77 to R81, R85, R133) -/

theorem deliverTrip_ordered (c : TripCause) (p : PointId) (side : Side) : (s.deliverTrip c p side).ordered none := by
  unfold State.deliverTrip
  refine judgeForce_ordered ?_
  split
  · exact handIn_ordered k c _
  · exact k

theorem deliverLow_ordered (n : ReservoirId) (old : PointState) (side : Side) : (s.deliverLow n old side).ordered none := by
  unfold State.deliverLow
  split
  · exact (k.frame (s.keepsBut_setReservoir n _) (by decide)).frame (State.keepsBut_post _ _ _ _) (by decide)
  · split
    · exact refillChannels_keeps (.refl _) n none ((k.frame (s.keepsBut_setReservoir n _) (by decide)).frame (State.keepsBut_post _ _ _ _) (by decide))
    · exact k

theorem deliverEmpty_ordered (n : ReservoirId) (old : PointState) (side : Side) : (s.deliverEmpty n old side).ordered none := by
  unfold State.deliverEmpty
  split
  · exact (k.frame (s.keepsBut_setReservoir n _) (by decide)).frame (State.keepsBut_post _ _ _ _) (by decide)
  · split
    · exact k.frame (s.keepsBut_setReservoir n _) (by decide)
    · exact k

theorem deliverSalt_ordered (old : PointState) (side : Side) : (s.deliverSalt old side).ordered none := by
  have hset : ∀ x n e, (((s.setSalt x).saltReported).post e 0 n).ordered none := fun x n e => by
    have k1 : (s.setSalt x).ordered none := k.unseen rfl
    exact (k1.unseen (seats_saltReported _)).frame (State.keepsBut_post _ _ _ _) (by decide)
  unfold State.deliverSalt
  split
  · exact takeHead_keeps (.refl _) none (hset _ _ _)
  · split
    · exact takeHead_keeps (.refl _) none (hset _ _ _)
    · exact k

theorem deliver_ordered (p : PointId) (old : PointState) (side : Side) : (s.deliver p old side).ordered none := by
  unfold State.deliver
  dsimp only
  split
  · exact k
  · split
    · exact deliverTrip_ordered k _ _ _
    · exact deliverTrip_ordered k _ _ _
    · exact waterChannels_keeps (.refl _) none (judgeDrains_ordered k)
    · exact deliverLow_ordered k _ _ _
    · exact deliverEmpty_ordered k _ _ _
    · exact deliverSalt_ordered k _ _
    · split
      · exact markBreakthrough_keeps (.refl s) none k
      · exact k
    all_goals exact k

/-! ### Measurements and rounds (R121 to R133) -/

theorem confirm_ordered (p : PointId) (side : Side) : (s.confirm p side).ordered none :=
  (deliver_ordered (k.frame (s.keepsBut_setPoint p _) (by decide)) p _ side).frame (State.keepsBut_post _ _ _ _) (by decide)

theorem compare_ordered (p : PointId) (count : Nat) (q : Quality) : (s.compare p count q).ordered none := by
  have hset := fun x => k.frame (s.keepsBut_setPoint p x) (by decide)
  unfold State.compare
  dsimp only
  split
  · exact k
  · exact hset _
  · split
    · exact hset _
    · generalize (if (s.point p).candidate = some (compareCount (s.point p) count) then (s.point p).run + 1 else 1) = run
      split
      · exact confirm_ordered k p _
      · exact hset _

theorem publish_ordered (p : PointId) (count : Nat) (q : Quality) : (s.publish p count q).ordered none := by
  unfold State.publish
  dsimp only
  obtain ⟨t, ht⟩ : ∃ t, t = (s.setPoint p { s.point p with published := some ⟨count, q, 0, 0⟩, refresh := false }).setGroup (groupOf p)
    { s.group (groupOf p) with refresh := (s.group (groupOf p)).refresh.filter fun x => x != p } := ⟨_, rfl⟩
  have k1 : t.ordered none := ht ▸ (k.frame (s.keepsBut_setPoint p _) (by decide)).frame (State.keepsBut_setGroup _ _ _) (by decide)
  rw [← ht]
  split
  · exact k1.frame (State.keepsBut_hardnessReading _ _ _) (by decide)
  · split
    · exact brineReading_ordered k1
    · exact k1
  · exact k1

theorem endRound_ordered (g : GroupId) (r : Round) : (s.endRound g r).ordered none := by
  unfold State.endRound
  dsimp only
  have k1 := k.frame (s.keepsBut_setGroup g { (s.group g) with round := none, measuring := none }) (by decide)
  generalize s.setGroup g { (s.group g) with round := none, measuring := none } = t at k1 ⊢
  have k2 : (if r.own ∧ r.mode = .periodic then t.endPeriodic g r else t).ordered none := by
    split
    · unfold State.endPeriodic
      dsimp only
      split
      · exact k1.frame (t.keepsBut_setGroup _ _) (by decide)
      · exact State.ordered.foldl (fun _ x k => publish_ordered k _ _ _) _ (k1.frame (t.keepsBut_setGroup _ _) (by decide))
    · exact k1
  generalize (if r.own ∧ r.mode = .periodic then t.endPeriodic g r else t) = u at k2 ⊢
  exact (k2.frame (u.keepsBut_setGroup g _) (by decide)).frame (State.keepsBut_endSingleScan _) (by decide)

theorem startMeasurement_ordered (g : GroupId) (p : PointId) (slot : Option (Fin 4)) : (s.startMeasurement g p slot).ordered none :=
  k.frame (s.keepsBut_startMeasurement g p slot) (by decide)

theorem nextSlot_ordered (g : GroupId) : (s.nextSlot g).ordered none := by
  unfold State.nextSlot
  dsimp only
  split
  · exact k
  · split
    · exact startMeasurement_ordered (k.frame (s.keepsBut_setGroup g _) (by decide)) _ _ _
    · exact endRound_ordered k g _

theorem nextMeasurement_ordered (g : GroupId) : (s.nextMeasurement g).ordered none := by
  unfold State.nextMeasurement
  dsimp only
  split
  · exact k
  · exact startMeasurement_ordered k _ _ _
  · exact nextSlot_ordered k g

theorem beginRound_ordered (g : GroupId) : (s.beginRound g).ordered none := by
  unfold State.beginRound
  dsimp only
  split
  · exact k
  · split
    · exact nextMeasurement_ordered (k.frame (s.keepsBut_setGroup g _) (by decide)) g
    · split
      · exact nextMeasurement_ordered (k.frame (s.keepsBut_setGroup g _) (by decide)) g
      · exact k

theorem endMeasurement_ordered (g : GroupId) (count : Nat) : (s.endMeasurement g count).ordered none := by
  unfold State.endMeasurement
  dsimp only
  split
  next m r hm hr =>
    have k1 := (k.frame (s.keepsBut_setGroup g { (s.group g) with measuring := none }) (by decide)).frame (State.keepsBut_noteQuality _ m.point count (quality m count)) (by decide)
    generalize (s.setGroup g { (s.group g) with measuring := none }).noteQuality m.point count (quality m count) = t at k1 ⊢
    have k2 : (if r.mode.compared then t.compare m.point count (quality m count) else t).ordered none := by
      split
      · exact compare_ordered k1 _ _ _
      · exact k1
    generalize (if r.mode.compared then t.compare m.point count (quality m count) else t) = u at k2 ⊢
    have k3 : (if m.voided then t else if m.slot.isSome ∧ r.mode = .periodic then u.keepResult g m.point count (quality m count)
        else u.publish m.point count (quality m count)).ordered none := by
      split
      · exact k1
      · split
        · exact k2.frame (u.keepsBut_setGroup g _) (by decide)
        · exact publish_ordered k2 _ _ _
    split
    · exact nextSlot_ordered (settle_ordered k3) g
    · exact nextMeasurement_ordered (settle_ordered k3) g
  next => exact k

end Protect

end Sys2Proof.Machine

/-! The steps by time keep the order: ends of operations, strokes, ramps, the clock, the selector's travel, the rod's steps (R23, R24, R38 to R49, R99 to R106, R140 to R165). -/

namespace Sys2Proof.Machine

theorem State.ordered.ite {d : Option SlotId} {c : Prop} [Decidable c] {s t : State} (h : c → s.ordered d) (h' : ¬c → t.ordered d) :
    (if c then s else t).ordered d := by
  split
  next hc => exact h hc
  next hc => exact h' hc

section Steps

variable {s : State} (k : s.ordered none)
include k

/-! ### Flow and the softener (R38, R62, R65, R67) -/

theorem fillNoFlow_ordered : s.fillNoFlow.ordered none := by
  unfold State.fillNoFlow
  split
  · exact k
  · split
    · split
      · exact settle_ordered ((finishFill_ordered k _ _ _).frame (State.keepsBut_fault _ _ _ _) (by decide))
      · exact k
    · exact k

theorem regenNoFlow_ordered : s.regenNoFlow.ordered none := by
  unfold State.regenNoFlow
  split
  · split
    · exact settle_ordered (endRegen_ordered (k.frame (s.keepsBut_fault _ _ _) (by decide)) _ _)
    · exact k
  · exact k

theorem soakEnded_ordered : s.soakEnded.ordered none := by
  unfold State.soakEnded
  split
  next g hg =>
    split
    next h =>
      simp only [Bool.and_eq_true, beq_iff_eq] at h
      exact settle_ordered (endSoak_ordered k hg h.1)
    next => exact k
  next => exact k

/-! ### The washing operations by time (R41, R46, R48, R49, R173) -/

theorem circRunEnd_ordered : s.circRunEnd.ordered none := by
  unfold State.circRunEnd
  split
  · exact k
  · split
    · split
      · exact settle_ordered (finishCirc_ordered k _ _ _)
      · exact k
    · exact k

theorem heatLimitEnd_ordered (i : SlotId) : (s.heatLimitEnd i).ordered none := by
  unfold State.heatLimitEnd
  split
  · split
    · exact settle_ordered (finishHeat_ordered k _ _ _)
    · exact k
  · exact k

theorem drainPostrunEnd_ordered : s.drainPostrunEnd.ordered none := by
  unfold State.drainPostrunEnd
  split
  · exact k
  · split
    · split
      · split
        · exact settle_ordered (finishDrain_ordered k _ _ _)
        · exact k
      · exact k
    · exact k

theorem drainLimitEnd_ordered : s.drainLimitEnd.ordered none := by
  unfold State.drainLimitEnd
  split
  · exact k
  · split
    · split
      · exact settle_ordered (drainTimeout_ordered k _)
      · exact k
    · exact k

theorem forcePostrunEnd_ordered : s.forcePostrunEnd.ordered none := by
  unfold State.forcePostrunEnd
  split
  · exact settle_ordered (endForce_ordered k)
  · exact k

/-! ### The dose engine by time (R99, R106, R148) -/

theorem strokeEnd_ordered (n : ReservoirId) : (s.strokeEnd n).ordered none := by
  unfold State.strokeEnd
  dsimp only
  split
  · have k1 := k.frame (s.keepsBut_withDrive { s.drive with strokes := upd s.drive.strokes n ⟨false, 0⟩ }) (by decide)
    split
    · exact settle_ordered (strokeEnded_keeps (.refl _) _ none k1)
    · exact k1
  · exact k

theorem intervalEnd_ordered (c : ChannelId) : (s.intervalEnd c).ordered none := by
  unfold State.intervalEnd
  dsimp only
  split
  · exact settle_ordered (strokeStart_keeps (.refl s) c none k)
  · exact k

theorem delayExpiry_ordered (c : ChannelId) : (s.delayExpiry c).ordered none := by
  unfold State.delayExpiry
  dsimp only
  split
  · exact settle_ordered (triggerChannel_keeps (setChannel_keeps (.refl s) c _) c none k)
  · exact k

/-! ### Ramps and the run clock (R140, R145, R146) -/

theorem circStep_ordered : s.circStep.ordered none := by
  unfold State.circStep
  split
  · dsimp only
    have k1 : (reportSwitching s { s with drive := { s.drive with circRamp := s.drive.circRamp.step s.circTarget } }).ordered none :=
      (k.frame (s.keepsBut_withDrive _) (by decide)).frame (State.keepsBut_reportSwitching s _) (by decide)
    generalize reportSwitching s { s with drive := { s.drive with circRamp := s.drive.circRamp.step s.circTarget } } = t at k1 ⊢
    refine settle_ordered ?_
    split
    · exact endCircWindDown_ordered k1
    · exact circReached_ordered k1
  · exact k

theorem doorStep_ordered : s.doorStep.ordered none := by
  unfold State.doorStep
  split
  · exact k.frame (s.keepsBut_withDrive _) (by decide)
  · exact k

theorem clockSecond_ordered : s.clockSecond.ordered none := by
  unfold State.clockSecond
  split
  · dsimp only
    have k1 := judgeYields_keeps (.refl _) none (k.frame (s.keepsBut_withDrive { s.drive with clock := clockSucc s.drive.clock, secondDue := false }) (by decide))
    exact settle_ordered (k1.frame (State.keepsBut_withDose _ _) (by decide))
  · exact k

/-! ### The selector's travel (R23, R24) -/

theorem selectorArrive_ordered : s.selectorArrive.ordered none := by
  unfold State.selectorArrive
  dsimp only
  split
  next hm =>
    have hmov : (s.seats.table .selector).lease = .moving := hm.1
    have hidle := k.table.pathIdle_of_lease (by rw [hmov]; decide)
    obtain ⟨t, ht⟩ : ∃ t, t = ({ s with arb := { s.arb with selCurrent := some s.arb.selHeld },
                                         drive := { s.drive with travel := none, travelReading := none } } : State).editEntry .selector fun e => { e with lease := .held } :=
      ⟨_, rfl⟩
    have hts : t.seats = { s.seats.put .selector ⟨.held, (s.seats.table .selector).holder, (s.seats.table .selector).line⟩ with selCurrent := some s.seats.selHeld } := by
      rw [ht, seats_editEntry]
      rfl
    have kt : t.ordered none := by
      unfold State.ordered
      rw [hts]
      exact k.arrives hmov
    have htab : ∀ {r}, r ≠ .selector → t.seats.table r = s.seats.table r := fun hr => by
      rw [hts]
      exact Seats.put_ne _ hr _
    have hsel : t.seats.table .selector = ⟨.held, (s.seats.table .selector).holder, (s.seats.table .selector).line⟩ := by
      rw [hts]
      exact Seats.put_self s.seats .selector _
    rw [← ht]
    split
    next h hh =>
      refine settle_ordered (selectorHeld_ordered kt ⟨by rw [hsel], by rw [hsel]; exact hh⟩ ?_ ?_ fun _ => ?_)
      · rw [htab (by decide), hidle.inlet]
        exact fun e => by cases e
      · rw [htab (by decide), hidle.inletLine]
        exact List.not_mem_nil
      · rw [htab (by decide), hidle.brineLine]
        exact List.not_mem_nil
    next => exact kt
  next => exact k

theorem selectorFailed_ordered (h : Holder) : (s.selectorFailed h).ordered none := by
  unfold State.selectorFailed
  split
  · exact endRegen_ordered k _ _
  · split
    · exact finishFill_ordered k _ _ _
    · exact k

/-- A travel that has failed: SELECTOR is free, its position unknown (R24). -/
theorem travelLost_ordered (hmov : (s.seats.table .selector).lease = .moving) :
    ({ s.freeLease .selector with arb := { (s.freeLease .selector).arb with selCurrent := none } } : State).ordered none := by
  have hidle := k.table.pathIdle_of_lease (by rw [hmov]; decide)
  have h1 : Loosens s.seats (s.freeLease .selector).seats := loosens_freeLease s fun e => by cases e
  have hfree : ((s.freeLease .selector).seats.table .selector).lease = .free := by
    rw [seats_freeLease, Seats.put_self]
  have h2 := h1.trans (loosens_travelEnded (s.freeLease .selector) fun e => by
    have : ((s.freeLease .selector).seats.table .selector).lease = .held := e
    rw [hfree] at this
    cases this)
  refine h2.ordered (fun _ w _ => ⟨fun e => ?_, fun e => ?_, fun e => ?_, fun e => ?_⟩) k
  · have := h2.line _ e
    rw [hidle.inletLine] at this
    cases this
  · have := h2.line _ e
    rw [hidle.brineLine] at this
    cases this
  · have := (h2.place _).holder e
    rw [hidle.brine] at this
    cases this
  · have := (h2.place _).holder e
    rw [hidle.inlet] at this
    cases this

theorem selectorTimeOut_ordered : s.selectorTimeOut.ordered none := by
  unfold State.selectorTimeOut
  dsimp only
  refine State.ordered.ite (fun hm => ?_) fun _ => k
  have kfu := s.keepsBut_fault .selectorTimeout 0 (columnCode s.arb.selHeld)
  have ku := k.frame kfu (by decide)
  have kt := travelLost_ordered ku (by rw [kfu.seats]; exact hm.1)
  generalize s.fault .selectorTimeout 0 (columnCode s.arb.selHeld) = u at kt ⊢
  generalize ({ u.freeLease .selector with arb := { (u.freeLease .selector).arb with selCurrent := none } } : State) = t at kt ⊢
  split
  · exact settle_ordered (selectorFailed_ordered kt _)
  · exact kt

/-! ### The door and the rod (R154 to R165) -/

theorem doorChange_ordered : s.doorChange.ordered none := by
  unfold State.doorChange
  dsimp only
  split
  · refine settle_ordered ?_
    split
    · exact closeDoor_ordered k
    · exact openDoor_ordered k
  · exact k

theorem rodExtend_ordered : s.rodExtend.ordered none := by
  unfold State.rodExtend
  dsimp only
  split
  · exact State.ordered.setRod (r := { s.door.rod with state := .extended, hold := Timer.zero, extEdge := false }) k rfl
  · exact k

theorem rodHold_ordered : s.rodHold.ordered none := by
  unfold State.rodHold
  dsimp only
  split
  · exact settle_ordered (release_keeps (.refl s) (by decide) none k)
  · exact k

theorem pushStall_ordered (cause : StallCause) : (s.pushStall cause).ordered none := by
  unfold State.pushStall
  split
  · exact settle_ordered (pushStalled_ordered (doorStep_ordered k) cause)
  · exact k

theorem rodRetract_ordered : s.rodRetract.ordered none := by
  unfold State.rodRetract
  split
  · exact settle_ordered (retractEnded_ordered k)
  · exact k

theorem retractLate_ordered : s.retractLate.ordered none := by
  unfold State.retractLate
  split
  · split
    · exact settle_ordered (retractTimedOut_ordered k)
    · exact k
  · exact k

theorem dryDelay_ordered : s.dryDelay.ordered none := by
  unfold State.dryDelay
  split
  · exact k
  · split
    next i _ sl w hat =>
      split
      next h =>
        refine settle_ordered (dryDelayPassed_ordered k fun sl' dry' w' hat' => ?_)
        rw [hat] at hat'
        cases hat'
        rw [h.1]
        decide
      next => exact k
    next => exact k

theorem dryAjarPassed_ordered : s.dryAjarPassed.ordered none := by
  unfold State.dryAjarPassed
  split
  · exact k
  · split
    · split
      · exact settle_ordered (finishDoor_ordered k _ _ _)
      · exact k
    · exact k

theorem headTaken_ordered : s.takeHead.settle.ordered none := settle_ordered (takeHead_keeps (.refl s) none k)

end Steps

/-! ### The due steps of a period (R140) -/

theorem dueStep_ordered : ∀ f ∈ dueSteps, ∀ {s : State}, s.ordered none → (f s).ordered none := by
  unfold dueSteps
  simp only [List.forall_mem_cons]
  refine ⟨fun k => clockSecond_ordered k, fun k => circStep_ordered k, fun k => doorStep_ordered k, fun k => selectorArrive_ordered k,
    fun k => selectorTimeOut_ordered k, fun k => doorChange_ordered k, fun k => rodExtend_ordered k, fun k => rodRetract_ordered k,
    fun k => pushStall_ordered k _, fun k => pushStall_ordered k _, fun k => rodHold_ordered k, fun k => retractLate_ordered k, fun k => strokeEnd_ordered k _,
    fun k => strokeEnd_ordered k _, fun k => strokeEnd_ordered k _, fun k => State.ordered.foldl (fun _ c k => intervalEnd_ordered k c) _ k,
    fun k => State.ordered.foldl (fun _ c k => delayExpiry_ordered k c) _ k, fun k => fillNoFlow_ordered k, fun k => regenNoFlow_ordered k,
    fun k => circRunEnd_ordered k, fun k => State.ordered.foldl (fun _ i k => heatLimitEnd_ordered k i) _ k, fun k => drainPostrunEnd_ordered k,
    fun k => drainLimitEnd_ordered k, fun k => forcePostrunEnd_ordered k, fun k => soakEnded_ordered k, fun k => dryDelay_ordered k,
    fun k => dryAjarPassed_ordered k, fun k => headTaken_ordered k, fun k => State.ordered.foldl (fun _ g k => beginRound_ordered k g) _ k, ?_⟩
  exact fun _ h => nomatch h

theorem stepsTaken_ordered : ∀ (l : List (State → State)), (∀ f ∈ l, ∀ {s : State}, s.ordered none → (f s).ordered none) → ∀ {s : State}, s.ordered none →
    (l.foldl (fun s f => f s) s).ordered none
  | [], _, _, k => k
  | _ :: l, h, _, k => stepsTaken_ordered l (fun f hf => h f (List.mem_cons_of_mem _ hf)) (h _ List.mem_cons_self k)

theorem catchUp_ordered {s : State} (k : s.ordered none) : s.catchUp.ordered none := stepsTaken_ordered dueSteps dueStep_ordered k

end Sys2Proof.Machine

/-! The end of a drive period keeps the order (R28, R44 to R47, R130, R140, R144, R145, R154, R156). -/

namespace Sys2Proof.Machine

/-! ### The spans in the view -/

theorem kind_tickWork (s : State) (i : SlotId) (sl : Slot) : (s.tickWork i sl).kind = sl.work.kind := by
  unfold State.tickWork
  dsimp only
  cases sl.work with
  | fill w => dsimp only; split <;> rfl
  | circulate w => dsimp only; split <;> rfl
  | heat w => dsimp only; split <;> rfl
  | drain w => dsimp only; split <;> rfl
  | regenerate c => rfl
  | doorPush w => rfl
  | dry w =>
    obtain ⟨_, _, phase, _, _, _, _, _, _⟩ := w
    cases phase <;> rfl

theorem seat_tickedSlot (s : State) (i : SlotId) (x : Option Slot) : (s.tickedSlot i x).map Slot.seat = x.map Slot.seat := by
  unfold State.tickedSlot
  cases x with
  | none => rfl
  | some sl =>
    rw [Option.map_some, Option.map_some, Option.map_some]
    split
    · rfl
    · exact congrArg (fun k => some (Seat.mk sl.port sl.outcome.isSome k)) (kind_tickWork s i sl)

/-- The pool replaced by one that shows the same operations. -/
theorem seats_withPool {s t : State} (k : s.keepsBut t [.pool]) (hop : ∀ i : SlotId, t.pool[i].map Slot.seat = s.pool[i].map Slot.seat) :
    t.seats = s.seats := by
  have hs : t.seats = { s.seats with op := fun i => t.pool[i].map Slot.seat } := by
    unfold State.seats State.entry State.column
    rw [k .arb (by decide), k .soft (by decide), k .mode (by decide), k .door (by decide)]
  rw [hs, funext hop]
  rfl

theorem seats_tickPool (s : State) : s.tickPool.seats = s.seats :=
  seats_withPool s.keepsBut_tickPool fun i => by rw [pool_tickPool, seat_tickedSlot]

theorem seats_tickRegen (s : State) : s.tickRegen.seats = s.seats := by
  unfold State.tickRegen
  split
  · rfl
  next g hg =>
    dsimp only
    refine seats_setRegen_same hg ?_
    split <;> split <;> rfl

theorem seats_tickRod (s : State) : s.tickRod.seats = s.seats := by
  unfold State.tickRod
  extract_lets rod n rod1 rod2
  have h1 : rod1.retract = rod.retract := by
    show (if rod.state = .extending then _ else rod : Rod).retract = _
    split <;> rfl
  have hr : rod2.retract = s.door.rod.retract := by
    refine Eq.trans ?_ h1
    show (if rod1.state = .extended then _ else rod1 : Rod).retract = _
    split <;> rfl
  rw [seats_setRod]
  show { s.seats with retract := Option.map (·.1) (rod2.retract.map fun x => (x.1, x.2.tick (seconds s.cfg.retractTimeout))) } = s.seats
  rw [hr, Option.map_map]
  rfl

theorem tickSpans_ordered {s : State} {d : Option SlotId} (k : s.ordered d) : s.tickSpans.ordered d := by
  rw [State.tickSpans_works]
  have k1 := (k.unseen (seats_tickPool s)).unseen (seats_tickRegen _)
  have k2 : s.tickWorks.ordered d := (k1.frame (State.keepsBut_tickChannels _) (by decide)).unseen (seats_tickRod _)
  have h := s.keepsBut_tickWorks_tickSpans
  rw [State.tickSpans_works] at h
  exact k2.frame h (by decide)

/-! ### The readings (R44, R46, R47) -/

section Period
variable {s : State} (k : s.ordered none)
include k

theorem takeReading_ordered (t : Nat) (heatsFirst : Bool) {between : State → State}
    (hb : ∀ {u : State}, u.ordered none → (between u).ordered none) : (s.takeReading t heatsFirst between).ordered none := by
  unfold State.takeReading
  split
  · split
    · exact handIn_ordered (hb (heatsReading_ordered k)) _ _
    · exact heatsReading_ordered (hb (handIn_ordered k _ _))
  · exact hb (heatsReading_ordered k)

theorem validReading_ordered (t : Nat) (heatsFirst : Bool) {between : State → State}
    (hb : ∀ {u : State}, u.ordered none → (between u).ordered none) : (s.validReading t heatsFirst between).ordered none := by
  unfold State.validReading
  extract_lets water u
  have ku : u.ordered none := k.frame (s.keepsBut_withWater _) (by decide)
  clear_value u
  exact takeReading_ordered ku t heatsFirst hb

theorem readProbe_ordered (x : Int) (heatsFirst : Bool) {between : State → State}
    (hb : ∀ {u : State}, u.ordered none → (between u).ordered none) : (s.readProbe x heatsFirst between).ordered none := by
  unfold State.readProbe
  split
  · exact validReading_ordered k _ heatsFirst hb
  · unfold State.invalidReading
    extract_lets first water u u'
    have ku : u.ordered none := k.frame (s.keepsBut_withWater _) (by decide)
    clear_value u
    exact heatsProbeFault_ordered (.ite (fun _ => ku.frame (u.keepsBut_fault _ _ _) (by decide)) fun _ => ku)

theorem takeProbe_ordered (x : Int) : (s.takeProbe x).ordered none := by
  have kc : s.choose.2.ordered none := k.unseen rfl
  have ku : s.choose.2.catchUp.ordered none := catchUp_ordered kc
  unfold State.takeProbe
  split
  · split
    · exact readProbe_ordered kc x _ id
    · exact readProbe_ordered kc x _ id
    · exact readProbe_ordered ku x _ id
    · exact readProbe_ordered ku x _ id
    · exact readProbe_ordered kc x _ catchUp_ordered
    · exact readProbe_ordered kc x _ catchUp_ordered
  · exact readProbe_ordered k x _ id

theorem circYield_ordered (second : Option SlotId) : (s.circYield second).ordered none := by
  unfold State.circYield
  split
  · exact k
  · split
    · exact .ite (fun _ => yieldCirc_ordered k _) fun _ => k
    · exact k

theorem judgeRounds_ordered : s.judgeRounds.ordered none :=
  State.ordered.foldl (fun s g kt => kt.frame (s.keepsBut_setGroup g _) (by decide)) allGroups k

theorem countRamps_ordered : s.countRamps.ordered none := k.frame (s.keepsBut_withDrive _) (by decide)

theorem takeReadings_ordered (r : PeriodReadings) : (s.takeReadings r).ordered none := k.unseen (seats_congr rfl rfl rfl rfl rfl)

/-- Every step of a drive period's end keeps the order (R140). -/
theorem endPeriod_ordered (r : PeriodReadings) : (s.endPeriod r).ordered none := by
  have k1 := circReached_ordered ((catchUp_ordered k).frame (State.keepsBut_staged _) (by decide))
  unfold State.endPeriod
  extract_lets u
  have ku : u.ordered none := tickSpans_ordered (countRamps_ordered k1)
  clear_value u
  exact settle_ordered (judgeRounds_ordered (circYield_ordered (takeProbe_ordered (takeReadings_ordered ku r) r.probe) _))

end Period

end Sys2Proof.Machine

/-! The Link Ports keep the order: frames taken, operations accepted, CANCEL, port resets, the device reset (R2, R180 to R186, R196, R197). -/

namespace Sys2Proof.Machine

section Link
variable {s : State} (k : s.ordered none)
include k

/-! ### Frames taken and answers (R180 to R183) -/

theorem setPort_ordered (p : Port) (ps : PortState) : (s.setPort p ps).ordered none := k.frame (s.keepsBut_setPort p ps) (by decide)

theorem setRx_ordered (p : Port) (rx : RxState) : (s.setRx p rx).ordered none := k.frame (s.keepsBut_setRx p rx) (by decide)

theorem reply_ordered (p : Port) (tag : Nat) (o : OutcomeCode) (fields : List Byte) : (s.reply p tag o fields).ordered none :=
  reply_keeps (.refl s) p tag o fields none k

theorem fault_ordered (f : FaultKind) (x d : Nat) : (s.fault f x d).ordered none := fault_keeps (.refl s) f x d none k

theorem takeFrame_ordered (p : Port) {act : State → State} (ha : ∀ u : State, u.ordered none → (act u).ordered none) :
    (s.takeFrame p act).ordered none := by
  unfold State.takeFrame
  dsimp only
  have kr := setRx_ordered k p .synced
  generalize s.setRx p .synced = u at kr ⊢
  exact .ite (fun _ => k) fun _ => .ite (fun _ => kr) fun _ => .ite (fun _ => fault_ordered kr _ _ _) fun _ => ha u kr

theorem immediate_ordered (p : Port) (tag : Nat) {act : State → State} (ha : ∀ u : State, u.ordered none → (act u).ordered none) :
    (s.immediate p tag act).ordered none :=
  takeFrame_ordered k p fun u ku => .ite (fun _ => reply_ordered ku _ _ _ _) fun _ => ha u ku

theorem immediateInRun_ordered (p : Port) (tag : Nat) {act : State → State} (ha : ∀ u : State, u.ordered none → (act u).ordered none) :
    (s.immediateInRun p tag act).ordered none :=
  immediate_ordered k p tag fun u ku => .ite (fun _ => reply_ordered ku _ _ _ _) fun _ => ha u ku

theorem onChannel_ordered (p : Port) (tag channel : Nat) {act : ChannelId → State} (ha : ∀ c, (act c).ordered none) :
    (s.onChannel p tag channel act).ordered none := by
  unfold State.onChannel
  split
  · exact reply_ordered k _ _ _ _
  · exact ha _

/-! ### CANCEL and the port reset (R185, R186) -/

theorem cancelSlot_ordered (i : SlotId) (answer : Bool) : (s.cancelSlot i answer).ordered none := by
  unfold State.cancelSlot
  split
  · exact k
  next sl _ =>
    cases sl.work with
    | fill w => exact finishFill_ordered k i _ _
    | circulate w => exact finishCirc_ordered k i _ _
    | heat w => exact finishHeat_ordered k i _ _
    | drain w => exact finishDrain_ordered k i _ _
    | regenerate c => exact cancelRegenerate_ordered k _ i _
    | doorPush w => exact finishDoor_ordered k i _ _
    | dry w => exact finishDoor_ordered k i _ _

end Link

/-! ### A slot whose operation is ended without an answer (R186) -/

/-- The slot is free, or holds an operation whose outcome is fixed. -/
def State.ended (s : State) (i : SlotId) : Prop := ∀ sl, s.pool[i] = some sl → sl.outcome ≠ none

theorem ended_of_free {s : State} {i : SlotId} (h : s.pool[i] = none) : s.ended i := fun sl hp => by
  rw [h] at hp
  cases hp

theorem pool_endSlot_self (s : State) (i : SlotId) (o : OutcomeCode) (fields : List Byte) (answer : Bool) :
    (s.endSlot i o fields answer).pool[i] = none := by
  unfold State.endSlot
  split
  next => exact State.pool_setSlot_self _ _ _
  next h => exact h

theorem pool_endDoorSlot_self (s : State) (i : SlotId) (o : OutcomeCode) (answer : Bool) : (s.endDoorSlot i o answer).pool[i] = none := by
  unfold State.endDoorSlot
  split
  next => exact pool_endSlot_self _ _ _ _ _
  next h => exact h

theorem free_of_poolStep {s t : State} (h : PoolStep s t) {i : SlotId} (hn : s.pool[i] = none) : t.pool[i] = none := by
  cases ht : t.pool[i] with
  | none => rfl
  | some x =>
    obtain ⟨y, hy, -⟩ := h i x ht
    rw [hn] at hy
    cases hy

theorem finishFill_ended {s : State} {i : SlotId} {sl : Slot} {w : FillWork} (hp : s.pool[i] = some sl) (hw : sl.work = .fill w) (o : OutcomeCode)
    (answer : Bool) : (s.finishFill i o answer).ended i := by
  unfold State.finishFill
  split
  next hn =>
    intro x hx
    rw [hp] at hx
    cases hx
    intro ho
    rw [fillAt_eq hp hw ho] at hn
    cases hn
  next => exact ended_of_free (pool_endSlot_self _ _ _ _ _)

theorem finishCirc_ended {s : State} {i : SlotId} {sl : Slot} {w : CircWork} (hp : s.pool[i] = some sl) (hw : sl.work = .circulate w) (o : OutcomeCode) :
    (s.finishCirc i o false).ended i := by
  unfold State.finishCirc
  split
  next hn =>
    intro x hx
    rw [hp] at hx
    cases hx
    intro ho
    rw [circAt_eq hp hw ho] at hn
    cases hn
  next =>
    dsimp only
    rw [Bool.and_false, if_neg (by decide)]
    exact ended_of_free (pool_endSlot_self _ _ _ _ _)

theorem finishHeat_ended {s : State} {i : SlotId} {sl : Slot} {w : HeatWork} (hp : s.pool[i] = some sl) (hw : sl.work = .heat w) (o : OutcomeCode)
    (answer : Bool) : (s.finishHeat i o answer).ended i := by
  unfold State.finishHeat
  rw [heatAt_held hp hw]
  exact ended_of_free (pool_endSlot_self _ _ _ _ _)

theorem finishDrain_ended {s : State} {i : SlotId} {sl : Slot} {w : DrainWork} (hp : s.pool[i] = some sl) (hw : sl.work = .drain w) (o : OutcomeCode)
    (answer : Bool) : (s.finishDrain i o answer).ended i := by
  unfold State.finishDrain
  rw [drainAt_held hp hw]
  exact ended_of_free (pool_endSlot_self _ _ _ _ _)

theorem finishDoor_ended {s : State} {i : SlotId} {sl : Slot} {dry : Bool} {w : DoorWork} (hp : s.pool[i] = some sl) (hw : sl.work = doorWork dry w)
    (o : OutcomeCode) : (s.finishDoor i o false).ended i := by
  unfold State.finishDoor
  split
  next hn =>
    intro x hx
    rw [hp] at hx
    cases hx
    intro ho
    rw [doorAt_eq hp hw ho] at hn
    cases hn
  next =>
    dsimp only
    split
    · exact ended_of_free (pool_endDoorSlot_self _ _ _ _)
    · exact ended_of_free (pool_endDoorSlot_self _ _ _ _)

theorem takeHead_ended {s : State} {i : SlotId} (h : s.pool[i] = none) : s.takeHead.ended i :=
  ended_of_free (free_of_poolStep (takeHead_effect (.refl s)).pool h)

theorem judged_ended {s : State} {i : SlotId} (h : s.pool[i] = none) : (s.judgeFills none).takeHead.ended i :=
  takeHead_ended (free_of_poolStep (judgeFills_effect (.refl s) none).pool h)

theorem endRegen_ended {s : State} {g : Regen} (hg : s.soft.regen = some g) {p : Port} {i : SlotId} (hq : g.requester = some (p, i)) (o : OutcomeCode)
    (answer : Bool) : (s.endRegen o answer).ended i := by
  have hans : ∀ (u : State) (fields : List Byte), (u.answerRegen g o fields answer).pool[i] = none := fun u fields => by
    unfold State.answerRegen
    rw [hq]
    exact pool_endSlot_self _ _ _ _ _
  unfold State.endRegen
  rw [hg]
  dsimp only
  split
  · unfold State.endInStarting
    extract_lets
    exact takeHead_ended (hans _ _)
  · unfold State.abortRegen
    extract_lets
    exact judged_ended (hans _ _)

/-- A REGENERATE is ended, or was neither queued nor the one of the regeneration in progress. -/
theorem cancelRegenerate_ended (s : State) (p : Port) (i : SlotId) : (s.cancelRegenerate p i false).ended i ∨
    (s.cancelRegenerate p i false = s ∧ s.regenQueued p i = false ∧ ∀ g, s.soft.regen = some g → g.requester ≠ some (p, i)) := by
  unfold State.cancelRegenerate
  split
  next => exact .inl (ended_of_free (pool_endSlot_self _ _ _ _ _))
  next hq =>
    rw [Bool.not_eq_true] at hq
    split
    next hn => exact .inr ⟨rfl, hq, fun g hg => by rw [hn] at hg; cases hg⟩
    next g hg =>
      split
      next hr =>
        dsimp only
        rw [Bool.and_false, if_neg (by decide)]
        exact .inl (endRegen_ended hg hr _ _)
      next hr => exact .inr ⟨rfl, hq, fun x hx => by rw [hg] at hx; cases hx; exact hr⟩

/-- A slot of the port that holds a REGENERATE of which nothing is left but the slot. -/
def State.regenIdle (s : State) (p : Port) (i : SlotId) : Prop :=
  ∃ sl c, s.pool[i] = some sl ∧ sl.port = p ∧ sl.work = .regenerate c ∧ s.regenQueued p i = false ∧
    ∀ g, s.soft.regen = some g → g.requester ≠ some (p, i)

theorem cancelSlot_ended (s : State) {p : Port} {i : SlotId} {sl : Slot} (hp : s.pool[i] = some sl) (hport : sl.port = p) :
    (s.cancelSlot i false).ended i ∨ (s.cancelSlot i false).regenIdle p i := by
  unfold State.cancelSlot
  rw [hp]
  dsimp only
  cases hw : sl.work with
  | fill w => exact .inl (finishFill_ended hp hw _ _)
  | circulate w => exact .inl (finishCirc_ended hp hw _)
  | heat w => exact .inl (finishHeat_ended hp hw _ _)
  | drain w => exact .inl (finishDrain_ended hp hw _ _)
  | regenerate c =>
    subst hport
    rcases cancelRegenerate_ended s sl.port i with h | ⟨he, hq, hr⟩
    · exact .inl h
    · refine .inr ?_
      show (s.cancelRegenerate sl.port i false).regenIdle sl.port i
      rw [he]
      exact ⟨sl, c, hp, rfl, hw, hq, hr⟩
  | doorPush w => exact .inl (finishDoor_ended (dry := false) hp hw _)
  | dry w => exact .inl (finishDoor_ended (dry := true) hp hw _)

section Freed
variable {s : State} (k : s.ordered none)
include k

theorem ended_letsGo {i : SlotId} (h : s.ended i) : s.seats.letsGo i ∧ s.seats.unnamed i := by
  have hfix : ∀ x, s.seats.op i = some x → x.fixed = true := fun x hx => by
    obtain ⟨sl, hp, rfl⟩ := seats_op_eq_some.mp hx
    exact Option.isSome_iff_ne_none.mpr (h sl hp)
  refine ⟨?_, k.unnamed (fun x hx => .inl (hfix x hx)) (unmarked_of_order k ?_)⟩
  · cases hx : s.seats.op i with
    | none => exact k.empty hx
    | some x => exact k.over hx (hfix x hx)
  · rintro ⟨x, soft, hx, ho, -⟩
    rw [hfix x hx] at ho
    cases ho

theorem regenIdle_letsGo {p : Port} {i : SlotId} (h : s.regenIdle p i) : s.seats.letsGo i ∧ s.seats.unnamed i := by
  obtain ⟨sl, c, hp, hport, hw, hq, hr⟩ := h
  have hx := seats_op hp
  have hk : sl.seat.kind = .regenerate c := by rw [Slot.seat, hw]; rfl
  have hreg : ∀ g q, s.seats.regen = some g → g.requester ≠ some (q, i) := fun g q hg he => by
    obtain ⟨x, hx', -, hport', -⟩ := k.soft.asked g q i hg he
    rw [hx] at hx'
    cases hx'
    obtain ⟨y, hy, rfl⟩ := seats_regen_eq_some.mp hg
    have hqp : q = p := hport'.symm.trans hport
    exact hr y hy (he.trans (by rw [hqp]))
  refine ⟨k.idleRegenerate hx hk hreg, fun c' q hm => ?_, hreg, unmarked_of_order k (not_fillIn_of_regenerate hx hk)⟩
  obtain ⟨x, hx', -, hport', -⟩ := k.soft.queued c' q i hm
  rw [hx] at hx'
  cases hx'
  have hqp : q = p := hport'.symm.trans hport
  obtain ⟨e, he, hee⟩ := List.mem_map.mp hm
  have hreq : e.requester = some (q, i) := (Prod.mk.inj hee).2
  have hany : s.regenQueued p i = true := List.any_eq_true.mpr ⟨e, he, by rw [hreq, hqp]; exact beq_self_eq_true _⟩
  rw [hq] at hany
  cases hany

theorem resetSlot_ordered (p : Port) (i : SlotId) : (s.resetSlot p i).ordered none := by
  unfold State.resetSlot
  split
  next => exact k
  next sl hp =>
    refine .ite (fun hport => ?_) fun _ => k
    have ku := cancelSlot_ordered k i false
    obtain ⟨hl, hn⟩ := (cancelSlot_ended s hp hport).elim (ended_letsGo ku) (regenIdle_letsGo ku)
    unfold State.ordered
    rw [seats_setSlot]
    exact Seats.ordered.vacate ku (.inl rfl) hl hn

theorem resetPort_ordered (p : Port) : (s.resetPort p).ordered none :=
  settle_ordered (setPort_ordered (State.ordered.foldl (fun _ i ku => resetSlot_ordered ku p i) allSlots k) p _)

end Freed

/-! ### Operations accepted (R184) -/

theorem pool_freeSlot {s : State} {i : SlotId} (h : s.freeSlot = some i) : s.pool[i] = none := by
  have := List.find?_some h
  exact Option.isNone_iff_eq_none.mp this

theorem seats_accept (s : State) (p : Port) (tag : Nat) (w : Work) (i : SlotId) :
    (s.accept p tag w i).seats = s.seats.seat i (some ⟨p, false, w.kind⟩) := by
  unfold State.accept
  rw [seats_setSlot]
  rfl

/-- What an owner may count on as it takes an operation up: the slot holds it, and nothing else names the slot. -/
structure State.takesUp (s : State) (i : SlotId) (w : Work) : Prop where
  held : ∃ sl, s.pool[i] = some sl ∧ sl.outcome = none ∧ sl.work = w
  letsGo : s.seats.letsGo i
  unnamed : s.seats.unnamed i

/-- A door-opening operation just accepted does not push yet. -/
theorem State.takesUp.notPushing {u : State} {i : SlotId} {dry : Bool} {w : DoorWork} (h : u.takesUp i (doorWork dry w)) (hw : w.phase ≠ .pushing) :
    ∀ sl dry w, u.doorAt i = some (sl, dry, w) → w.phase ≠ .pushing := by
  intro sl' dry' w' hat
  obtain ⟨sl, hp, ho, hwork⟩ := h.held
  rw [doorAt_eq hp hwork ho] at hat
  cases hat
  exact hw

section Accept
variable {s : State} (k : s.ordered none)
include k

theorem accept_ordered {i : SlotId} (hi : s.pool[i] = none) (hm : s.mode = .run) (p : Port) (tag : Nat) {w : Work}
    (hd : ∀ dry phase, w.kind ≠ .door dry phase true) : (s.accept p tag w i).ordered none ∧ (s.accept p tag w i).takesUp i w := by
  have hop : s.seats.op i = none := by
    show s.pool[i].map Slot.seat = none
    rw [hi]
    rfl
  obtain ⟨hl, hn⟩ := ended_letsGo k (ended_of_free hi)
  refine ⟨?_, ⟨_, State.pool_setSlot_self _ _ _, rfl, rfl⟩, ?_, ?_⟩
  · unfold State.ordered
    rw [seats_accept]
    exact Seats.ordered.begins k hop hm rfl hd
  · rw [seats_accept]
    exact ⟨hl.line, hl.holder⟩
  · rw [seats_accept]
    exact ⟨hn.queue, hn.regen, hn.mark⟩

theorem operation_ordered (p : Port) (tag : Nat) {w : Work} (trips : Bool) {takeUp : State → SlotId → State} (hd : ∀ dry phase, w.kind ≠ .door dry phase true)
    (ht : ∀ (u : State) i, u.ordered none → u.takesUp i w → (takeUp u i).ordered none) : (s.operation p tag w trips takeUp).ordered none := by
  refine takeFrame_ordered k p fun u ku => .ite (fun _ => reply_ordered ku _ _ _ _) fun _ => .ite (fun _ => reply_ordered ku _ _ _ _) fun hm =>
    .ite (fun _ => reply_ordered ku _ _ _ _) fun _ => ?_
  split
  next i hi =>
    refine .ite (fun _ => ?_) fun _ => reply_ordered ku _ _ _ _
    have hrun : u.mode = .run := by
      cases h : u.mode with
      | run => rfl
      | setup => exact absurd h hm
    obtain ⟨ka, hup⟩ := accept_ordered ku (pool_freeSlot hi) hrun p tag hd
    exact settle_ordered (ht _ i ka hup)
  next => exact reply_ordered ku _ _ _ _

theorem fill_ordered (p : Port) (tag volume : Nat) : (s.operation p tag (.fill (freshFill volume)) true State.takeUpFill).ordered none :=
  operation_ordered k p tag true (fun _ _ => by simp [Work.kind]) fun _ _ ku h => takeUpFill_ordered ku h.letsGo

theorem circulate_ordered (p : Port) (tag duty runTime : Nat) :
    (s.operation p tag (.circulate ⟨duty, runTime, Timer.zero, false⟩) false State.takeUpCirc).ordered none :=
  operation_ordered k p tag false (fun _ _ => by simp [Work.kind]) fun _ i ku _ => takeUpCirc_ordered ku i

theorem heat_ordered (p : Port) (tag target limit : Nat) : (s.operation p tag (.heat ⟨target, limit, Timer.zero, false⟩) false State.takeUpHeat).ordered none :=
  operation_ordered k p tag false (fun _ _ => by simp [Work.kind]) fun _ _ ku _ => takeUpHeat_ordered ku

theorem drain_ordered (p : Port) (tag : Nat) : (s.operation p tag (.drain ⟨Timer.zero, none⟩) false State.takeUpDrain).ordered none :=
  operation_ordered k p tag false (fun _ _ => by simp [Work.kind]) fun _ i ku _ => takeUpDrain_ordered ku i

theorem regenerate_ordered (p : Port) (tag column : Nat) :
    (s.operation p tag (.regenerate ((columnOf column).getD .a)) true fun s i => s.takeUpRegenerate i column).ordered none := by
  refine operation_ordered k p tag true (fun _ _ => by simp [Work.kind]) fun u i ku h => ?_
  obtain ⟨sl, hp, ho, hw⟩ := h.held
  exact takeUpRegenerate_ordered ku h.letsGo h.unnamed hp ho hw

theorem doorPush_ordered (p : Port) (tag : Nat) : (s.operation p tag (.doorPush (freshDoor 0 0 .waitQuiet)) false State.takeUpDoorPush).ordered none :=
  operation_ordered k p tag false (fun _ _ => by simp [Work.kind, freshDoor]) fun _ _ ku h =>
    takeUpDoorPush_ordered ku (State.takesUp.notPushing (dry := false) h (by simp [freshDoor]))

theorem dry_ordered (p : Port) (tag delay ajar : Nat) : (s.operation p tag (.dry (freshDoor delay ajar .delay)) false State.takeUpDry).ordered none :=
  operation_ordered k p tag false (fun _ _ => by simp [Work.kind, freshDoor]) fun _ _ ku h =>
    takeUpDry_ordered ku h.letsGo (State.takesUp.notPushing (dry := true) h (by simp [freshDoor]))

end Accept

/-! ### Device reset (R2) -/

theorem State.fresh.ordered {s : State} (h : s.fresh) (hr : s.door.rod.retract.map (·.1) ≠ some .lease) : s.ordered none := by
  refine ordered_of_laws h.tableSafe (h.placed hr) h.fillSafe ?_
  unfold State.queueLegal
  rw [h.soft]
  exact ⟨by decide, by decide, fun g hg => by cases hg⟩

theorem afterReset_ordered (s : State) (r : ResetReadings) : (s.afterReset r).ordered none := by
  refine (afterReset_fresh s r).ordered ?_
  show (rodRead r.rodRet r.rodExt).2.map (·.1) ≠ _
  cases r.rodRet <;> cases r.rodExt <;> decide

end Sys2Proof.Machine

/-! The setup requests keep the order: CONFIG_WRITE, ACCOUNT_LOAD, COMMIT, ENTER_SETUP (R61, R91, R187 to R189). -/

namespace Sys2Proof.Machine

/-- A command completes and leaves the part in order. -/
def inOrder (o : Host.Outcome State Fault Refusal) : Prop := ∃ t, o = .next t ∧ t.ordered none

theorem loadedState_ne {n : Nat} {x : ColumnState} (h : loadedState n = some x) : x ≠ .regenerating := by
  unfold loadedState at h
  split at h <;> cases h <;> decide

/-! ### CONFIG_WRITE (R189) -/

section Written
variable {s : State} (k : s.ordered none)
include k

theorem setReservoir_ordered (n : ReservoirId) (a : Reservoir) : (s.setReservoir n a).ordered none := k.frame (s.keepsBut_setReservoir n a) (by decide)

theorem autoRegenWritten_ordered : s.autoRegenWritten.ordered none := by
  refine State.ordered.ite (fun _ => headTaken_ordered (queueExhausted_keeps (.refl s) none k)) fun _ => ?_
  have hsub : ((s.soft.queue.filter fun q => q.requester.isSome).map fun q => (q.column, q.requester)).Sublist s.seats.queue :=
    List.filter_sublist.map _
  unfold State.ordered
  rw [seats_setQueue]
  exact Seats.ordered.requeue k ⟨fun x r hx => hsub.subset hx, k.soft.nodup.sublist (hsub.map _), fun g hg q hq => k.soft.apart g hg q (hsub.subset hq)⟩

theorem ratedWritten_ordered (c : Column) : (s.ratedWritten c).ordered none := setColumn_remaining_ordered k c _

theorem saltFullWritten_ordered : s.saltFullWritten.ordered none :=
  .ite (fun _ => (k.frame (s.keepsBut_withAcct _) (by decide)).unseen (seats_saltReported _)) fun _ => k

theorem setHardness_ordered (n : Nat) (sensed : Bool) : (s.setHardness n sensed).ordered none := by
  have k1 := k.frame (s.keepsBut_withAcct { s.acct with hardness := n, sensed := sensed }) (by decide)
  exact .ite (fun _ => k1.frame (State.keepsBut_post _ _ _ _) (by decide)) fun _ => k1

theorem hardnessWritten_ordered : s.hardnessWritten.ordered none := .ite (fun _ => k) fun _ => setHardness_ordered k _ _

theorem pushMaxWritten_ordered : s.pushMaxWritten.ordered none := .ite (fun _ => k.frame (s.keepsBut_withDrive _) (by decide)) fun _ => k

theorem itemWritten_ordered (i : Item) : (s.itemWritten i).ordered none := by
  cases i with
  | capRated c => exact ratedWritten_ordered k c
  | exhaustPolicy => exact settle_ordered (judgeFills_keeps (.refl s) none none k)
  | autoRegen => exact autoRegenWritten_ordered k
  | hardnessSource => exact hardnessWritten_ordered k
  | hardnessSet => exact hardnessWritten_ordered k
  | resFull n => exact setReservoir_ordered k n _
  | saltFull => exact saltFullWritten_ordered k
  | publishEvery => exact k.frame (s.keepsBut_withSense _) (by decide)
  | pushMax => exact pushMaxWritten_ordered k
  | _ => exact k

theorem execConfigWrite_inOrder (p : Port) (tag item index : Nat) (payload : ConfigPayload) : inOrder (execConfigWrite p tag item index payload s) := by
  refine ⟨_, rfl, .ite (fun _ => immediate_ordered k p tag fun u ku => ?_) fun _ => takeFrame_ordered k p fun u ku => reply_ordered ku _ _ _ _⟩
  split
  · exact reply_ordered ku _ _ _ _
  · refine .ite (fun _ => reply_ordered ku _ _ _ _) fun _ => ?_
    split
    · exact reply_ordered ku _ _ _ _
    · exact reply_ordered (itemWritten_ordered (ku.frame (u.keepsBut_withCfg _) (by decide)) _) _ _ _ _

/-! ### ACCOUNT_LOAD (R91) -/

/-- In SETUP no column is REGENERATING, and nothing works. -/
theorem setup_notRegenerating (hm : s.mode = .setup) (c : Column) : (s.column c).state ≠ .regenerating := fun e => by
  obtain ⟨g, hg, -⟩ := (k.soft.regenerating c).mp e
  rw [(k.soft.quiet hm).2] at hg
  cases hg

theorem loadColumn_ordered (hm : s.mode = .setup) {c : Column} {remaining st : Nat} {t : State} (h : s.loadColumn c remaining st = some t) : t.ordered none := by
  unfold State.loadColumn at h
  split at h
  next => cases h
  next x hx =>
    split at h
    next =>
      rw [← Option.some.inj h]
      unfold State.ordered
      rw [seats_setColumn]
      refine (?_ : Restocks s.seats _).ordered k
      refine ⟨rfl, fun y => ?_, fun e => ?_, fun y i e => ?_, fun _ _ _ e => .inl e, k.soft.quiet, k.soft.nodup, k.soft.apart⟩
      · by_cases hy : y = c
        · dsimp only
          rw [if_pos hy]
          exact iff_of_false (loadedState_ne hx) (setup_notRegenerating k hm y)
        · dsimp only
          rw [if_neg hy]
      · exact absurd (hm.symm.trans e) (by decide)
      · by_cases hy : y = c
        · dsimp only at e
          rw [if_pos hy] at e
          cases e
        · dsimp only at e ⊢
          rw [if_neg hy] at e ⊢
          exact ⟨(k.soft.marked y i e).1, .inl e⟩
    next => cases h

theorem loadReservoir_ordered {n : ReservoirId} {amount : Nat} {t : State} (h : s.loadReservoir n amount = some t) : t.ordered none := by
  unfold State.loadReservoir at h
  split at h
  next =>
    rw [← Option.some.inj h]
    exact setReservoir_ordered k n _
  next => cases h

theorem loadSalt_ordered {amount : Nat} {t : State} (h : s.loadSalt amount = some t) : t.ordered none := by
  unfold State.loadSalt at h
  split at h
  next =>
    rw [← Option.some.inj h]
    exact (k.frame (s.keepsBut_withAcct _) (by decide)).unseen (seats_saltReported _)
  next => cases h

theorem loadAccount_ordered (hm : s.mode = .setup) {target amount st : Nat} {t : State} (h : s.loadAccount target amount st = some t) : t.ordered none := by
  unfold State.loadAccount at h
  split at h
  · exact loadReservoir_ordered k h
  · exact loadReservoir_ordered k h
  · exact loadReservoir_ordered k h
  · exact loadSalt_ordered k h
  · exact loadColumn_ordered k hm h
  · exact loadColumn_ordered k hm h
  · cases h

end Written

/-! ### COMMIT (R187) -/

/-- Where one column is STANDBY after a COMMIT, the other is in service. -/
theorem standby_served (s : State) {c : Column} (h : (s.served.column c).state = .standby) : (s.served.column (Column.other c)).state = .inService := by
  rw [State.column_served] at h ⊢
  by_cases hc : s.columnToServe = some c
  · rw [if_pos hc] at h
    cases h
  rw [if_neg hc] at h
  by_cases ho : s.columnToServe = some (Column.other c)
  · rw [if_pos ho]
  rw [if_neg ho]
  rw [State.columnToServe_eq_some] at hc ho
  rw [Column.other_other] at ho
  by_cases hs : s.inService = none
  · have hstand : (s.column (Column.other c)).state = .standby := by
      by_contra hne
      exact hc ⟨hs, h, fun e => absurd e hne⟩
    have hle := not_lt.mp fun e => hc ⟨hs, h, fun _ => .inl e⟩
    have hge := not_lt.mp fun e => ho ⟨hs, hstand, fun _ => .inl e⟩
    have heq := le_antisymm hge hle
    cases c with
    | a => exact absurd ⟨hs, h, fun _ => .inr ⟨rfl, heq⟩⟩ hc
    | b => exact absurd ⟨hs, hstand, fun _ => .inr ⟨rfl, heq.symm⟩⟩ ho
  · obtain ⟨d, hd⟩ := Option.ne_none_iff_exists'.mp hs
    have hin := State.inService_state hd
    rcases Column.eq_or_other c d with rfl | rfl
    · rw [h] at hin
      cases hin
    · exact hin

section Commit
variable {s : State} (k : s.ordered none)
include k

theorem served_ordered : ({ s with mode := .run } : State).served.ordered none := by
  obtain ⟨t, ht⟩ : ∃ t, t = ({ s with mode := .run } : State).served := ⟨_, rfl⟩
  have hcol : ∀ c, (t.column c).state = (s.column c).state ∧ (t.column c).breakthrough = (s.column c).breakthrough ∨
      (s.column c).state = .standby ∧ (t.column c).state = .inService ∧ (t.column c).breakthrough = (s.column c).breakthrough := fun c => by
    rw [ht, State.column_served]
    split
    next h => exact .inr ⟨((State.columnToServe_eq_some _ c).mp h).2.1, rfl, rfl⟩
    next => exact .inl ⟨rfl, rfl⟩
  have hkept := State.keepsBut_served { s with mode := .run }
  rw [← ht] at hkept ⊢
  have hq := State.queue_served { s with mode := .run }
  rw [← ht] at hq
  have hseats : t.seats = { s.seats with col := fun c => (t.column c).marked, mode := .run } := by
    have h1 : t.seats = { ({ s with mode := .run } : State).seats with col := fun c => (t.column c).marked } := by
      unfold State.seats State.entry
      rw [hkept .pool (by decide), hkept .arb (by decide), hkept .mode (by decide), show t.door = s.door from hkept .door (by decide), hq.1, hq.2.1]
    exact h1
  refine (?_ : Restocks s.seats t.seats).ordered k
  rw [hseats]
  refine ⟨rfl, fun c => ?_, fun _ c h => ?_, fun c i h => ?_, fun _ _ _ h => .inl h, (fun e => by cases e), k.soft.nodup, k.soft.apart⟩
  · show (t.column c).state = .regenerating ↔ (s.column c).state = .regenerating
    rcases hcol c with ⟨e, -⟩ | ⟨e, e', -⟩
    · rw [e]
    · rw [e, e']
      decide
  · have h' : (t.column c).state = .standby := h
    rw [ht] at h'
    have := standby_served _ h'
    rw [← ht] at this
    exact this
  · have hb : (t.column c).breakthrough = some i := h
    rcases hcol c with ⟨e, e'⟩ | ⟨-, e, e'⟩
    · rw [e'] at hb
      exact ⟨e.trans (k.soft.marked c i hb).1, .inl hb⟩
    · rw [e'] at hb
      exact ⟨e, .inl hb⟩

theorem committed_ordered : s.committed.ordered none := by
  have k1 := served_ordered k
  have k2 : s.readied.ordered none := State.ordered.frame (.ite (fun _ => queueExhausted_keeps (.refl _) none k1) fun _ => k1) (State.keepsBut_clearLevelFlags _)
  rw [committed_eq]
  exact .ite (fun _ => k2) fun _ => takeHead_keeps (.refl _) none k2

end Commit

theorem setup_of_ne_run {s : State} (h : s.mode ≠ .run) : s.mode = .setup := by
  cases hm : s.mode with
  | run => exact absurd hm h
  | setup => rfl

section SetupRequests
variable {s : State} (k : s.ordered none)
include k

theorem execAccountLoad_inOrder (p : Port) (tag target amount st : Nat) : inOrder (execAccountLoad p tag target amount st s) := by
  refine ⟨_, rfl, immediate_ordered k p tag fun u ku => .ite (fun _ => reply_ordered ku _ _ _ _) fun hm => ?_⟩
  split
  next t h => exact reply_ordered (loadAccount_ordered ku (setup_of_ne_run hm) h) _ _ _ _
  next => exact reply_ordered ku _ _ _ _

theorem execCommit_inOrder (p : Port) (tag : Nat) : inOrder (execCommit p tag s) := by
  refine ⟨_, rfl, immediate_ordered k p tag fun u ku => .ite (fun _ => reply_ordered ku _ _ _ _) fun _ => ?_⟩
  split
  · exact reply_ordered ku _ _ _ _
  · exact reply_ordered (committed_ordered ku) _ _ _ _

/-! ### ENTER_SETUP (R188) -/

theorem enterSetup_ordered (hq : s.quiet = true) : (({ s with mode := .setup } : State).setQueue []).ordered none := by
  simp only [State.quiet, Bool.and_eq_true, beq_iff_eq] at hq
  obtain ⟨⟨⟨hfree, -⟩, hregen⟩, -⟩ := hq
  have hnone : s.soft.regen = none := Option.isNone_iff_eq_none.mp hregen
  refine (?_ : Restocks s.seats _).ordered k
  refine ⟨rfl, fun _ => .rfl, (fun e => by cases e), fun c i h => ⟨(k.soft.marked c i h).1, .inl h⟩, (fun _ _ _ h => by cases h), fun _ => ⟨fun i => ?_, ?_⟩,
    List.nodup_nil, (fun _ _ _ h => by cases h)⟩
  · show s.pool[i].map Slot.seat = none
    rw [State.freeSlots_full hfree]
    rfl
  · show s.soft.regen.map Regen.stage = none
    rw [hnone]
    rfl

theorem execEnterSetup_inOrder (p : Port) (tag : Nat) : inOrder (execEnterSetup p tag s) :=
  ⟨_, rfl, immediate_ordered k p tag fun _ ku => .ite (fun _ => reply_ordered ku _ _ _ _) fun _ =>
    .ite (fun hq => reply_ordered (enterSetup_ordered ku hq) _ _ _ _) fun _ => reply_ordered ku _ _ _ _⟩

end SetupRequests

end Sys2Proof.Machine

/-! Every request keeps the order (chapters 2, 3, 5, 6, 8 to 10). -/

namespace Sys2Proof.Machine

section Requests
variable {s : State} (k : s.ordered none)
include k

/-! ### The receiver and the link (R180 to R186, R196, R197) -/

theorem rxFault_ordered (p : Port) (f : FaultKind) (x d : Nat) : ((s.setRx p .resync).fault f x d).ordered none :=
  fault_ordered (setRx_ordered k p .resync) f x d

theorem execLineIdle_inOrder (p : Port) : inOrder (execLineIdle p s) := by
  refine ⟨_, rfl, ?_⟩
  split
  · exact setRx_ordered k p _
  · exact k
  · exact k

theorem execStartByte_inOrder (p : Port) : inOrder (execStartByte p s) := by
  refine ⟨_, rfl, ?_⟩
  split
  · exact setRx_ordered k p _
  · exact k
  · exact k

theorem execFrameError_inOrder (p : Port) : inOrder (execFrameError p s) := by
  refine ⟨_, rfl, ?_⟩
  split
  · exact rxFault_ordered k p _ _ _
  · exact k
  · exact k

theorem execFrameGapTimeout_inOrder (p : Port) (taken : Nat) : inOrder (execFrameGapTimeout p taken s) := by
  refine ⟨_, rfl, ?_⟩
  split
  · exact rxFault_ordered k p _ _ _
  · exact k
  · exact k

theorem execOverlong_inOrder (p : Port) (length : Nat) : inOrder (execOverlong p length s) := by
  refine ⟨_, rfl, ?_⟩
  split
  · exact .ite (fun _ => rxFault_ordered k p _ _ _) fun _ => k
  · exact k
  · exact k

theorem execCheckError_inOrder (p : Port) (covered : List Nat) (check : Nat) : inOrder (execCheckError p covered check s) := by
  have kr := setRx_ordered k p .synced
  exact ⟨_, rfl, .ite (fun _ => k) fun _ => .ite (fun _ => kr) fun _ => fault_ordered kr _ _ _⟩

theorem execTransmitQueueFull_inOrder (p : Port) : inOrder (execTransmitQueueFull p s) :=
  ⟨_, rfl, .ite (fun _ => takeFrame_ordered k p fun _ ku => ku) fun _ => k⟩

theorem execBadRequest_inOrder (p : Port) (kind tag : Nat) (body : List Nat) : inOrder (execBadRequest p kind tag body s) :=
  ⟨_, rfl, .ite (fun _ => takeFrame_ordered k p fun _ ku => reply_ordered ku _ _ _ _) fun _ => k⟩

theorem execResponseSent_inOrder (p : Port) : inOrder (execResponseSent p s) := by
  refine ⟨_, rfl, ?_⟩
  split
  · exact k
  next r rest _ =>
    have ks := setPort_ordered k p { s.port p with txq := rest }
    exact .ite (fun _ => resetPort_ordered ks p) fun _ => ks

theorem execCancel_inOrder (p : Port) (tag target : Nat) : inOrder (execCancel p tag target s) := by
  refine ⟨_, rfl, immediate_ordered k p tag fun u ku => ?_⟩
  split
  · exact reply_ordered ku _ _ _ _
  · split
    · exact reply_ordered ku _ _ _ _
    · exact settle_ordered (reply_ordered (cancelSlot_ordered ku _ _) _ _ _ _)

theorem execPortReset_inOrder (p : Port) (tag : Nat) : inOrder (execPortReset p tag s) :=
  ⟨_, rfl, immediate_ordered k p tag fun u ku => setPort_ordered (ku.frame (u.keepsBut_send p _) (by decide)) p _⟩

theorem execSubscribe_inOrder (p : Port) (tag slot filter mask enable : Nat) : inOrder (execSubscribe p tag slot filter mask enable s) := by
  refine ⟨_, rfl, immediate_ordered k p tag fun u ku => ?_⟩
  split
  · exact reply_ordered ku _ _ _ _
  · exact .ite (fun _ => reply_ordered ku _ _ _ _) fun _ => reply_ordered (setPort_ordered ku p _) _ _ _ _

theorem execFetchEvents_inOrder (p : Port) (tag : Nat) : inOrder (execFetchEvents p tag s) :=
  ⟨_, rfl, immediate_ordered k p tag fun _ ku => reply_ordered (setPort_ordered ku p _) _ _ _ _⟩

/-! ### CIRC_SPEED and DOOR_RESET (R43, R163) -/

theorem execCircSpeed_inOrder (p : Port) (tag circTag duty : Nat) : inOrder (execCircSpeed p tag circTag duty s) :=
  ⟨_, rfl, immediate_ordered k p tag fun u ku => .ite (fun _ => reply_ordered ku _ _ _ _) fun _ =>
    .ite (fun _ => reply_ordered (ku.frame (u.keepsBut_withDrive _) (by decide)) _ _ _ _) fun _ => reply_ordered ku _ _ _ _⟩

theorem clearRod_ordered : s.clearRod.ordered none :=
  k.setRod (r := { s.door.rod with state := .retracted, extend := Timer.zero, maxHold := 0, maxHoldDue := false, hold := Timer.zero }) rfl

theorem execDoorReset_inOrder (p : Port) (tag : Nat) : inOrder (execDoorReset p tag s) :=
  ⟨_, rfl, immediate_ordered k p tag fun _ ku => .ite (fun _ => reply_ordered ku _ _ _ _) fun _ => .ite (fun _ => reply_ordered ku _ _ _ _) fun _ =>
    .ite (fun _ => reply_ordered ku _ _ _ _) fun _ => settle_ordered (reply_ordered (clearRod_ordered ku) _ _ _ _)⟩

/-! ### Dosing (R94, R97 to R101, R115 to R118) -/

theorem execDescWrite_inOrder (p : Port) (tag number : Nat) (desc : Desc) : inOrder (execDescWrite p tag number desc s) := by
  refine ⟨_, rfl, immediate_ordered k p tag fun u ku => ?_⟩
  split
  · exact reply_ordered ku _ _ _ _
  · exact .ite (fun _ => reply_ordered ku _ _ _ _) fun _ => .ite (fun _ => reply_ordered ku _ _ _ _) fun _ => .ite (fun _ => reply_ordered ku _ _ _ _) fun _ =>
      reply_ordered (ku.frame (u.keepsBut_withDose _) (by decide)) _ _ _ _

theorem execDescRead_inOrder (p : Port) (tag number : Nat) : inOrder (execDescRead p tag number s) := by
  refine ⟨_, rfl, immediate_ordered k p tag fun u ku => ?_⟩
  split
  · exact reply_ordered ku _ _ _ _
  · exact reply_ordered ku _ _ _ _

theorem execDoseArm_inOrder (p : Port) (tag channel number : Nat) : inOrder (execDoseArm p tag channel number s) := by
  refine ⟨_, rfl, immediateInRun_ordered k p tag fun u ku => ?_⟩
  split
  · exact .ite (fun _ => reply_ordered ku _ _ _ _) fun _ => .ite (fun _ => reply_ordered ku _ _ _ _) fun _ =>
      settle_ordered (reply_ordered (loadDesc_keeps (.refl u) _ _ none ku) _ _ _ _)
  · exact reply_ordered ku _ _ _ _

theorem execDoseTrigger_inOrder (p : Port) (tag channel : Nat) : inOrder (execDoseTrigger p tag channel s) :=
  ⟨_, rfl, immediateInRun_ordered k p tag fun u ku => onChannel_ordered ku p tag channel fun c => .ite (fun _ => reply_ordered ku _ _ _ _) fun _ =>
    settle_ordered (reply_ordered (triggerChannel_keeps (.refl u) c none ku) _ _ _ _)⟩

theorem execDoseClearTrigger_inOrder (p : Port) (tag channel : Nat) : inOrder (execDoseClearTrigger p tag channel s) :=
  ⟨_, rfl, immediate_ordered k p tag fun u ku => onChannel_ordered ku p tag channel fun c => reply_ordered (setChannel_keeps (.refl u) c _ none ku) _ _ _ _⟩

theorem execDoseStop_inOrder (p : Port) (tag channel : Nat) : inOrder (execDoseStop p tag channel s) :=
  ⟨_, rfl, immediate_ordered k p tag fun u ku => onChannel_ordered ku p tag channel fun c => .ite (fun _ => reply_ordered ku _ _ _ _) fun _ =>
    settle_ordered (reply_ordered (stopChannel_keeps (.refl u) c none ku) _ _ _ _)⟩

theorem execDoseResume_inOrder (p : Port) (tag channel : Nat) : inOrder (execDoseResume p tag channel s) :=
  ⟨_, rfl, immediate_ordered k p tag fun u ku => onChannel_ordered ku p tag channel fun c =>
    .ite (fun _ => settle_ordered (reply_ordered (returnChannel_keeps (.refl u) c none ku) _ _ _ _)) fun _ => reply_ordered ku _ _ _ _⟩

theorem execDoseDisarm_inOrder (p : Port) (tag channel : Nat) : inOrder (execDoseDisarm p tag channel s) := by
  refine ⟨_, rfl, immediate_ordered k p tag fun u ku => onChannel_ordered ku p tag channel fun c => ?_⟩
  dsimp only
  split
  · exact reply_ordered ku _ _ _ _
  · exact reply_ordered ku _ _ _ _
  · exact reply_ordered ku _ _ _ _
  · exact reply_ordered (setChannel_keeps (.refl u) c _ none ku) _ _ _ _
  · exact settle_ordered (reply_ordered (setChannel_keeps (releasePump_keeps (.refl u) c _) c _ none ku) _ _ _ _)

theorem execDoseStatus_inOrder (p : Port) (tag channel : Nat) : inOrder (execDoseStatus p tag channel s) :=
  ⟨_, rfl, immediate_ordered k p tag fun _ ku => .ite (fun _ => reply_ordered ku _ _ _ _) fun _ =>
    onChannel_ordered ku p tag channel fun _ => reply_ordered ku _ _ _ _⟩

/-! ### Sensing (R124, R126, R134 to R139) -/

theorem execSenseRead_inOrder (p : Port) (tag point maxAge : Nat) : inOrder (execSenseRead p tag point maxAge s) := by
  refine ⟨_, rfl, immediate_ordered k p tag fun u ku => ?_⟩
  split
  · exact reply_ordered ku _ _ _ _
  · refine .ite (fun _ => reply_ordered ku _ _ _ _) fun _ => ?_
    dsimp only
    split
    · exact reply_ordered ku _ _ _ _
    · exact reply_ordered (ku.frame (u.keepsBut_askRefresh _) (by decide)) _ _ _ _

theorem execSenseMode_inOrder (p : Port) (tag mode : Nat) : inOrder (execSenseMode p tag mode s) := by
  refine ⟨_, rfl, immediate_ordered k p tag fun u ku => ?_⟩
  split
  · exact reply_ordered ku _ _ _ _
  · exact reply_ordered (ku.frame (u.keepsBut_takeScanMode _) (by decide)) _ _ _ _

theorem writePoint_ordered (n : PointId) (role : Role) (trim threshold : Nat) (above : Bool) (debounce : Nat) (auto : Bool) :
    (s.writePoint n role trim threshold above debounce auto).ordered none := by
  refine State.ordered.ite (fun _ => settle_ordered ?_) fun _ => .ite (fun _ => k.frame (s.keepsBut_setPoint n _) (by decide)) fun _ => k.frame (s.keepsBut_setPoint n _) (by decide)
  have kv := k.frame (s.keepsBut_voided n ((s.point n).anew role trim threshold above debounce auto)) (by decide)
  exact State.ordered.ite (fun _ => judgeForce_ordered kv) fun _ => kv

theorem pointWrite_ordered (p : Port) (tag : Nat) (n : PointId) (role : Role) (trim threshold direction debounce hop : Nat) :
    (s.pointWrite p tag n role trim threshold direction debounce hop).ordered none :=
  .ite (fun _ => reply_ordered k _ _ _ _) fun _ => .ite (fun _ => reply_ordered k _ _ _ _) fun _ => reply_ordered (writePoint_ordered k _ _ _ _ _ _ _) _ _ _ _

theorem execSenseTableWrite_inOrder (p : Port) (tag : Nat) (payload : SensePayload) : inOrder (execSenseTableWrite p tag payload s) := by
  refine ⟨_, rfl, immediate_ordered k p tag fun u ku => ?_⟩
  cases payload with
  | point point role trim threshold direction debounce hop =>
    dsimp only
    split
    · exact .ite (fun _ => reply_ordered ku _ _ _ _) fun _ => pointWrite_ordered ku _ _ _ _ _ _ _ _ _
    · exact reply_ordered ku _ _ _ _
  | group group a b c d =>
    dsimp only
    split
    · exact .ite (fun _ => reply_ordered ku _ _ _ _) fun _ => reply_ordered (ku.frame (u.keepsBut_setGroup _ _) (by decide)) _ _ _ _
    · exact reply_ordered ku _ _ _ _

theorem execSenseTableRead_inOrder (p : Port) (tag form number : Nat) : inOrder (execSenseTableRead p tag form number s) := by
  refine ⟨_, rfl, immediate_ordered k p tag fun u ku => ?_⟩
  split
  · split
    · exact reply_ordered ku _ _ _ _
    · exact reply_ordered ku _ _ _ _
  · split
    · exact reply_ordered ku _ _ _ _
    · exact reply_ordered ku _ _ _ _
  · exact reply_ordered ku _ _ _ _

/-! ### Trips, faults and reports (R92, R175, R178, R179, R189, R191) -/

theorem execTripClear_inOrder (p : Port) (tag : Nat) : inOrder (execTripClear p tag s) :=
  ⟨_, rfl, immediate_ordered k p tag fun u ku => .ite (fun _ => reply_ordered ku _ _ _ _) fun _ => .ite (fun _ => reply_ordered ku _ _ _ _) fun _ =>
    post_keeps (.refl _) _ _ _ none (headTaken_ordered (reply_ordered (ku.frame (u.keepsBut_withProt _ : u.keepsBut u.clearTrip _) (by decide)) _ _ _ _))⟩

theorem execFaultClear_inOrder (p : Port) (tag groups : Nat) : inOrder (execFaultClear p tag groups s) :=
  ⟨_, rfl, immediate_ordered k p tag fun u ku => .ite (fun _ => reply_ordered ku _ _ _ _) fun _ => reply_ordered (ku.frame (u.keepsBut_withProt _) (by decide)) _ _ _ _⟩

theorem execConfigRead_inOrder (p : Port) (tag item index : Nat) : inOrder (execConfigRead p tag item index s) := by
  refine ⟨_, rfl, immediate_ordered k p tag fun u ku => ?_⟩
  split
  · exact reply_ordered ku _ _ _ _
  · exact reply_ordered ku _ _ _ _

theorem execStatus_inOrder (p : Port) (tag sec : Nat) : inOrder (execStatus p tag sec s) := by
  refine ⟨_, rfl, immediate_ordered k p tag fun u ku => ?_⟩
  split
  · exact reply_ordered ku _ _ _ _
  · exact reply_ordered ku _ _ _ _

end Requests

end Sys2Proof.Machine

/-! Every command keeps the order, and so the water law and the laws of places (R27 to R29, R56 to R60, R159). Settles O52. -/

namespace Sys2Proof.Machine

/-- Every command completes and leaves a part in order in order. -/
theorem exec_inOrder {s : State} (k : s.ordered none) (c : Instr) : inOrder (exec c s) := by
  cases c with
  -- the Link Ports
  | deviceReset r => exact ⟨_, execDeviceReset_eq r s, afterReset_ordered s r⟩
  | breakLine p => exact ⟨_, rfl, setRx_ordered (resetPort_ordered k p) p _⟩
  | lineIdle p => exact execLineIdle_inOrder k p
  | startByte p => exact execStartByte_inOrder k p
  | frameError p => exact execFrameError_inOrder k p
  | frameGapTimeout p taken => exact execFrameGapTimeout_inOrder k p taken
  | overlong p length => exact execOverlong_inOrder k p length
  | checkError p covered check => exact execCheckError_inOrder k p covered check
  | transmitQueueFull p => exact execTransmitQueueFull_inOrder k p
  | badRequest p kind tag body => exact execBadRequest_inOrder k p kind tag body
  | responseSent p => exact execResponseSent_inOrder k p
  | cancel p tag target => exact execCancel_inOrder k p tag target
  | portReset p tag => exact execPortReset_inOrder k p tag
  | subscribe p tag slot filter mask enable => exact execSubscribe_inOrder k p tag slot filter mask enable
  | fetchEvents p tag => exact execFetchEvents_inOrder k p tag
  -- the setup
  | configWrite p tag item index payload => exact execConfigWrite_inOrder k p tag item index payload
  | configRead p tag item index => exact execConfigRead_inOrder k p tag item index
  | accountLoad p tag target amount st => exact execAccountLoad_inOrder k p tag target amount st
  | commit p tag => exact execCommit_inOrder k p tag
  | enterSetup p tag => exact execEnterSetup_inOrder k p tag
  -- the operations
  | fill p tag volume => exact ⟨_, rfl, fill_ordered k p tag volume⟩
  | circulate p tag duty runTime => exact ⟨_, rfl, circulate_ordered k p tag duty runTime⟩
  | heat p tag target limit => exact ⟨_, rfl, heat_ordered k p tag target limit⟩
  | drain p tag => exact ⟨_, rfl, drain_ordered k p tag⟩
  | regenerate p tag column => exact ⟨_, rfl, regenerate_ordered k p tag column⟩
  | doorPush p tag => exact ⟨_, rfl, doorPush_ordered k p tag⟩
  | dry p tag delay ajar => exact ⟨_, rfl, dry_ordered k p tag delay ajar⟩
  | circSpeed p tag circTag duty => exact execCircSpeed_inOrder k p tag circTag duty
  | doorReset p tag => exact execDoorReset_inOrder k p tag
  -- dosing and sensing
  | descWrite p tag number desc => exact execDescWrite_inOrder k p tag number desc
  | descRead p tag number => exact execDescRead_inOrder k p tag number
  | doseArm p tag channel number => exact execDoseArm_inOrder k p tag channel number
  | doseTrigger p tag channel => exact execDoseTrigger_inOrder k p tag channel
  | doseClearTrigger p tag channel => exact execDoseClearTrigger_inOrder k p tag channel
  | doseStop p tag channel => exact execDoseStop_inOrder k p tag channel
  | doseResume p tag channel => exact execDoseResume_inOrder k p tag channel
  | doseDisarm p tag channel => exact execDoseDisarm_inOrder k p tag channel
  | doseStatus p tag channel => exact execDoseStatus_inOrder k p tag channel
  | senseRead p tag point maxAge => exact execSenseRead_inOrder k p tag point maxAge
  | senseMode p tag mode => exact execSenseMode_inOrder k p tag mode
  | senseTableWrite p tag payload => exact execSenseTableWrite_inOrder k p tag payload
  | senseTableRead p tag form number => exact execSenseTableRead_inOrder k p tag form number
  -- reports, trips and faults
  | status p tag sec => exact execStatus_inOrder k p tag sec
  | accountsRead p tag => exact ⟨_, rfl, immediate_ordered k p tag fun _ ku => reply_ordered ku _ _ _ _⟩
  | readDraws p tag start => exact ⟨_, rfl, immediate_ordered k p tag fun _ ku => reply_ordered ku _ _ _ _⟩
  | faultRead p tag => exact ⟨_, rfl, immediate_ordered k p tag fun _ ku => reply_ordered ku _ _ _ _⟩
  | faultClear p tag groups => exact execFaultClear_inOrder k p tag groups
  | tripClear p tag => exact execTripClear_inOrder k p tag
  -- the clock, the flow and the ends by time
  | drivePeriodEnd r => exact ⟨_, rfl, endPeriod_ordered k r⟩
  | runClockSecond => exact ⟨_, rfl, clockSecond_ordered k⟩
  | rampStep g =>
    cases g with
    | circ => exact ⟨_, rfl, circStep_ordered k⟩
    | doorDrive => exact ⟨_, rfl, doorStep_ordered k⟩
  | selectorArrival => exact ⟨_, rfl, selectorArrive_ordered k⟩
  | selectorTimeout => exact ⟨_, rfl, selectorTimeOut_ordered k⟩
  | flowPulse => exact ⟨_, rfl, settle_ordered (flowPulse_ordered k)⟩
  | decilitreCounted => exact ⟨_, rfl, .ite (fun _ => settle_ordered (flowPulse_ordered k)) fun _ => k⟩
  | fillNoFlowTimeout => exact ⟨_, rfl, fillNoFlow_ordered k⟩
  | circulateRunEnd => exact ⟨_, rfl, circRunEnd_ordered k⟩
  | heatLimitExpiry slot => exact ⟨_, rfl, heatLimitEnd_ordered k slot⟩
  | drainPostrunEnd => exact ⟨_, rfl, drainPostrunEnd_ordered k⟩
  | drainLimitExpiry => exact ⟨_, rfl, drainLimitEnd_ordered k⟩
  | regenHeadTaken => exact ⟨_, rfl, headTaken_ordered k⟩
  | soakEnd => exact ⟨_, rfl, soakEnded_ordered k⟩
  | regenNoFlowTimeout => exact ⟨_, rfl, regenNoFlow_ordered k⟩
  | doseStrokeEnd pump => exact ⟨_, rfl, strokeEnd_ordered k pump⟩
  | doseIntervalEnd channel => exact ⟨_, rfl, intervalEnd_ordered k channel⟩
  | doseDelayExpiry channel => exact ⟨_, rfl, delayExpiry_ordered k channel⟩
  | scanRoundStart group => exact ⟨_, rfl, beginRound_ordered k group⟩
  | measurementEnd group count => exact ⟨_, rfl, endMeasurement_ordered k group count⟩
  | forcePostrunEnd => exact ⟨_, rfl, forcePostrunEnd_ordered k⟩
  -- the door and the rod
  | doorStateChange => exact ⟨_, rfl, doorChange_ordered k⟩
  | rodExtended => exact ⟨_, rfl, rodExtend_ordered k⟩
  | rodHoldEnd => exact ⟨_, rfl, rodHold_ordered k⟩
  | pushStall cause => exact ⟨_, rfl, pushStall_ordered k cause⟩
  | rodRetracted => exact ⟨_, rfl, rodRetract_ordered k⟩
  | retractTimeout => exact ⟨_, rfl, retractLate_ordered k⟩
  | dryDelayEnd => exact ⟨_, rfl, dryDelay_ordered k⟩
  | dryAjarEnd => exact ⟨_, rfl, dryAjarPassed_ordered k⟩

/-- A step keeps the order; the queue of commands is none of it. -/
theorem step_inOrder {s : State} (k : s.ordered none) : inOrder (step s) := by
  unfold step
  split
  · exact ⟨s, rfl, k⟩
  next c rest _ =>
    have kr : ({ s with pending := rest } : State).ordered none := k.unseen (seats_congr rfl rfl rfl rfl rfl)
    exact exec_inOrder kr c

/-- Settles O52: the laws of places and of the fills' water stand for one order of the part, which every step keeps. -/
theorem fillWaterLawKept : Obligations.FillWaterLawKept := by
  intro s t ht hq hp hf hstep
  obtain ⟨u, hu, ku⟩ := step_inOrder (ordered_of_laws ht hp hf hq)
  cases hstep.symm.trans hu
  exact ⟨placed_of_ordered ku, fillSafe_of_ordered ku⟩

end Sys2Proof.Machine
